-- ==== Sys2Proof/Word.lean ====
section
/-!
DEFINITION. Word.lean: the word types of the Z9 (R7: a word is 32 bits) and the plain data shapes the state is built
from: sparse tables keyed by number, kept as lists.
-/
namespace Sys2Proof

/-- A word is 32 bits (R7). -/
abbrev Word := BitVec 32

/-- Two words: 64-bit values, program counter images, Canopy entries. -/
abbrev DWord := BitVec 64

/-- One byte of memory. -/
abbrev Byte := BitVec 8

/-- A set of lanes of one lane frame, bit i for lane i. -/
abbrev LaneMask := BitVec 32

/-- A sparse table keyed by a number: at most one entry for a key, keys rising. An absent key stands for the
table's default value, which each reader names. -/
abbrev Table (α : Type) := List (Nat × α)

end Sys2Proof
end

