-- ==== Sys2Proof/Config.lean ====
section
/-!
DEFINITION. Config.lean: what the manual leaves to the part, as opaque constants without a value (free values), and the
model's own numbering of storage in one address space.
-/
namespace Sys2Proof

/-! ## Free values -/

/-- A word the manual does not state, for the n-th such occasion of a run (entry 6). -/
opaque Config.freeWord : Nat → Word

/-- Which of the results within the bound of R120 and R121 a transcendental form delivers, by form and input
(entry 7; R195: a given input gives the same bits everywhere). -/
opaque Config.transChoice : Nat → Word → Nat

/-- The inputs that members on other parts send to a collective (R282): group, member, element (entry 8). -/
opaque Config.remoteInput : Nat → Nat → Nat → Word

/-- Whether an atomic that timed out had been applied (R401: unknown), by operation number (entry 6). -/
opaque Config.timedOutApplied : Nat → Bool

/-- The byte that a unit written under one key reads as under another (R390: unrelated values): unit, writing key,
reading key, stored byte (entry 6). -/
opaque Config.misread : Nat → Nat → Nat → Byte → Byte

/-- What the read-ahead buffer does with a request (R77: it may serve it, and may be filled with neighbours): bit 0 serves,
bit 1 fills with the block after, bit 2 with the block before (entry 12). -/
opaque Config.readAhead : Nat → Nat

/-- Whether link 0 faces a host, by how the part is wired (R2, R327; entry 90). -/
opaque Config.link0Host : Bool

/-- The power in watts that a die's controller predicts for a voltage-frequency state (R333; entry 91): die, state, and the activity that
it saw, which WINDOW_BOUNDARY names. -/
opaque Config.predictedPower : Nat → Nat → Nat → Nat

/-- SHA-384 of a byte string, as 48 bytes packed in 384 bits (entry 9: another standard's function). -/
opaque Config.sha384 : List Byte → BitVec 384

/-- Whether an RSA-3072 PKCS #1 v2.1 PSS signature with SHA-384 verifies: modulus, message, signature (entry 9). -/
opaque Config.rsaVerifies : List Byte → List Byte → List Byte → Bool

/-- Whether an SLH-DSA SHA2-256s signature verifies: public key, message, signature (entry 9). -/
opaque Config.slhVerifies : List Byte → List Byte → List Byte → Bool

/-- The part's RSA-3072 identity signature over a message, byte k of 384 (entry 9). -/
opaque Config.rsaSign : List Byte → Nat → Byte

/-- The part's SLH-DSA identity signature over a message, byte k of 29,792 (entry 9). -/
opaque Config.slhSign : List Byte → Nat → Byte

/-- HMAC-SHA-384 under the redaction key of a boot (R421): boot number and message, leading bits first (entry 9). -/
opaque Config.hmac384 : Nat → List Byte → BitVec 384

/-- What a byte of a scratchpad that is gone reads as (R208; entry 78): its number and the cycle. -/
opaque Config.goneByte : Nat → Nat → Byte

/-- The fused digest of the verification keys (R332). -/
opaque Config.fusedKeyDigest : BitVec 384

/-- The fused minimum security version (R332). -/
opaque Config.fusedMinSvn : Nat

/-! ## Storage numbering (entry 5): every byte of the part has one number -/

/-- First number of the capacity tier: page p starts at this + 4096 p. -/
def Config.capBase : Nat := 2 ^ 44

/-- First number of the frames: frame key k starts at this + 4096 k. -/
def Config.frameBase : Nat := 2 ^ 46

/-- First number of the operand buffers: 256 KiB a core. -/
def Config.opBufBase : Nat := 2 ^ 47

/-- First number of the accumulator memories: 512 KiB a core. -/
def Config.accBase : Nat := 2 ^ 47 + 2 ^ 40

/-- First number of the Grove value entries: 16 KiB a core. -/
def Config.groveBase : Nat := 2 ^ 47 + 2 ^ 41

/-- First number of the scratchpads that are gone: cluster scratchpad address a stands at this + a (entry 78). -/
def Config.goneBase : Nat := 2 ^ 49

/-- First number of host memory, by host physical address. -/
def Config.hostBase : Nat := 2 ^ 64

/-- One past the last number. -/
def Config.storageEnd : Nat := 2 ^ 64 + 2 ^ 64

end Sys2Proof
end

