-- ==== Sys2Proof/Syntax.lean ====
section
/-!
DEFINITION. Syntax.lean: the instructions and events of the Z9, one constructor for each row of the opcode table.
Rows with an encoding are Genpel words (chapters 07 to 12); their constructors hold the operand fields of the word. Rows
without an encoding are the steps that the part, the Mast and the host take (chapters 13 to 25 and "What each step
holds"); their constructors hold what identifies the step, such as a core number.
-/
namespace Sys2Proof

/-- A source operand field (R144): the register selector in bits 4:0 (0-15 = q1-q16, 16-31 = n0-n15) and the crossbar
pattern in bits 8:5 (R124, R182). -/
structure Src where
  pat : BitVec 4
  sel : BitVec 5
deriving DecidableEq, Repr

/-- The four rounding modes (R106), in slot order. -/
inductive Rnd where
  | rn | rz | rd | ru
deriving DecidableEq, Repr

/-- The eight floating conditions of FSET (R189), in slot order. -/
inductive FCond where
  | eq | ne | lt | le | gt | ge | un | or
deriving DecidableEq, Repr

/-- The integer types of the conversions (R152), in code order. -/
inductive IntTy where
  | s8 | s16 | s32 | z8 | z16 | z32
deriving DecidableEq, Repr

/-- The ordering qualifier of an atomic (R147), in slot order: none, acquire, release, both. -/
inductive Qual where
  | plain | acq | rel | ar
deriving DecidableEq, Repr

/-- The scopes (R79, R147), in code order. -/
inductive Scope where
  | wg | cl | die | dev | sys
deriving DecidableEq, Repr

/-- The flag selector of a long-latency word (R146): side a (SETA) or side b (SETB). -/
inductive Side where
  | a | b
deriving DecidableEq, Repr

/-- The access paths (R86, R147), in code order. -/
inductive Path where
  | thr | copy | mx | grove | coll | mast
deriving DecidableEq, Repr

/-- The kinds of a Mast access (R312): a load that sign-extends, a load that zero-extends, a store, a fetch. -/
inductive MastAccess where
  | loadS | loadZ | store | fetch
deriving DecidableEq, Repr

/-- The Mast's AMO operations (R313; the operations are RISC-V's). -/
inductive AmoOp where
  | swap | add | xor | and | or | min | max | minu | maxu
deriving DecidableEq, Repr

/-- A page of a process as ATS names it: its PASID and its page number (R327, R340). -/
structure HostPage where
  pasid : Nat
  page : Nat
deriving DecidableEq, Repr

/-- A core as a host's write through BAR0 names it, with the link that the write comes through (R321, R334). -/
structure HostCore where
  link : Nat
  core : Nat
deriving DecidableEq, Repr

/-- What an ATS Translation Completion reports (R327, R388): an entry for one host page with its grants, no access, or
an error status. -/
inductive AtsStatus where
  | granted (hostPage : Nat) (write : Bool)
  | noAccess
  | error
deriving DecidableEq, Repr

/-- A Page Request Group Response (R327, R388). -/
inductive PriResp where
  | success | invalidRequest | failure
deriving DecidableEq, Repr

/-- Who writes a mailbox command (R328): the physical function, an M-mode Mast, an S-mode Mast, a virtual function. -/
inductive MbxMaster where
  | pf
  | mastM (core : Nat)
  | mastS (core : Nat)
  | vf (fn : Nat)
deriving DecidableEq, Repr

/-- Who writes the stop controls (R363): a Mast through MHALT, or mailbox command 0x1E. -/
inductive StopMaster where
  | mast (core : Nat)
  | mailbox (m : MbxMaster)
deriving DecidableEq, Repr

/-- Why a word does not decode (R136, R161), in the order of R161. -/
inductive IllKind where
  | unassigned | wrongClass | reserved | operand
deriving DecidableEq, Repr

/-- The registers whose writes have no row of their own in the table (REGISTER_WRITE): Mast CSRs (R314), the read-only
ones and reserved numbers included; the queue registers QBASE and QCFG (R300); capability word 0 (R6); PRI Enable of a
function (R388); the RISC-V fields that R322 limits. -/
inductive RegName where
  | mctx (core : Nat) | mctdl (core : Nat) | mring (core : Nat) | mntie (core : Nat) | mukey (core : Nat)
  | mrgnb (core k : Nat) | mrgnl (core k : Nat)
  | mcallht (core : Nat) | mmsgb (core : Nat) | mcore (core : Nat) | mtrap (core : Nat) | mmxerr (core : Nat)
  | reservedCsr (core csr : Nat)
  | satp (core : Nat) | mpp (core : Nat) | spp (core : Nat)
  | medeleg (core : Nat) | mtvec (core : Nat) | stvec (core : Nat) | mie (core : Nat)
  | pmpcfg (core k : Nat) | pmpaddr (core k : Nat)
  | qbase (q : Nat) | qcfg (q : Nat)
  | caps
  | priEnable (fn : Nat)
  | meas (core : Nat) (digest : BitVec 384)
deriving DecidableEq, Repr

/-- The instructions and events of the Z9. Word fields are named as in R139 to R143: `d` DST, `a` SA, `b` SB or BASE,
`c` SC or SCOPE, `i` an immediate, `m` the rounding mode, `f` the flag selector, `r` the M format's REG, `x` OFF9. -/
inductive Instr where
  /-- ADD.s32: adds two 32-bit sources modulo 2^32 in each present lane (R166). -/
  | addS32 (d : BitVec 4) (b a : Src)
  /-- ADD.s32.sat: adds two signed 32-bit sources with saturation (R166). -/
  | addS32Sat (d : BitVec 4) (b a : Src)
  /-- ADD.z32.sat: adds two unsigned 32-bit sources with saturation (R166). -/
  | addZ32Sat (d : BitVec 4) (b a : Src)
  /-- SUB.s32: subtracts two 32-bit sources modulo 2^32 (R166). -/
  | subS32 (d : BitVec 4) (b a : Src)
  /-- SUB.s32.sat: subtracts signed 32-bit sources with saturation (R166). -/
  | subS32Sat (d : BitVec 4) (b a : Src)
  /-- SUB.z32.sat: subtracts unsigned 32-bit sources with saturation (R166). -/
  | subZ32Sat (d : BitVec 4) (b a : Src)
  /-- MUL.s32: delivers the low 32 bits of the product (R166). -/
  | mulS32 (d : BitVec 4) (b a : Src)
  /-- MULHI.s32: delivers bits 63:32 of the signed product (R166). -/
  | mulhiS32 (d : BitVec 4) (b a : Src)
  /-- MULHI.z32: delivers bits 63:32 of the unsigned product (R166). -/
  | mulhiZ32 (d : BitVec 4) (b a : Src)
  /-- MIN.s32: delivers the signed minimum of two sources (R168). -/
  | minS32 (d : BitVec 4) (b a : Src)
  /-- MAX.s32: delivers the signed maximum of two sources (R168). -/
  | maxS32 (d : BitVec 4) (b a : Src)
  /-- MIN.z32: delivers the unsigned minimum of two sources (R168). -/
  | minZ32 (d : BitVec 4) (b a : Src)
  /-- MAX.z32: delivers the unsigned maximum of two sources (R168). -/
  | maxZ32 (d : BitVec 4) (b a : Src)
  /-- ABS.s32: delivers the absolute value modulo 2^32 (R168). -/
  | absS32 (d : BitVec 4) (a : Src)
  /-- NEG.s32: delivers the negation modulo 2^32 (R168). -/
  | negS32 (d : BitVec 4) (a : Src)
  /-- MOV.b32: copies a source, through its crossbar pattern, to the destination (R168). -/
  | movB32 (d : BitVec 4) (a : Src)
  /-- AND.b32: bitwise and of two sources (R169). -/
  | andB32 (d : BitVec 4) (b a : Src)
  /-- OR.b32: bitwise or of two sources (R169). -/
  | orB32 (d : BitVec 4) (b a : Src)
  /-- XOR.b32: bitwise exclusive-or of two sources (R169). -/
  | xorB32 (d : BitVec 4) (b a : Src)
  /-- ANDN.b32: a and not B (R169). -/
  | andnB32 (d : BitVec 4) (b a : Src)
  /-- NOT.b32: bitwise complement of A (R169). -/
  | notB32 (d : BitVec 4) (a : Src)
  /-- ADD.b64: adds two 64-bit sources modulo 2^64 (R166). -/
  | addB64 (d : BitVec 4) (b a : Src)
  /-- SUB.b64: subtracts two 64-bit sources modulo 2^64 (R166). -/
  | subB64 (d : BitVec 4) (b a : Src)
  /-- MULW.s32: delivers the full signed 64-bit product (R166). -/
  | mulwS32 (d : BitVec 4) (b a : Src)
  /-- MULW.z32: delivers the full unsigned 64-bit product (R166). -/
  | mulwZ32 (d : BitVec 4) (b a : Src)
  /-- DIV.s32: signed division truncating toward zero, with fixed results for zero and overflow (R167). -/
  | divS32 (d : BitVec 4) (b a : Src)
  /-- DIV.z32: unsigned division; division by zero gives all ones (R167). -/
  | divZ32 (d : BitVec 4) (b a : Src)
  /-- REM.s32: signed remainder with the sign of the dividend (R167). -/
  | remS32 (d : BitVec 4) (b a : Src)
  /-- REM.z32: unsigned remainder; division by zero gives the dividend (R167). -/
  | remZ32 (d : BitVec 4) (b a : Src)
  /-- SHL.b32: shifts left; an amount of 32 or more gives 0 (R170). -/
  | shlB32 (d : BitVec 4) (b a : Src)
  /-- SHR.z32: logical shift right (R170). -/
  | shrZ32 (d : BitVec 4) (b a : Src)
  /-- SHR.s32: arithmetic shift right (R170). -/
  | shrS32 (d : BitVec 4) (b a : Src)
  /-- ROL.b32: rotates left by the amount modulo 32 (R170). -/
  | rolB32 (d : BitVec 4) (b a : Src)
  /-- SHL.b64: shifts a 64-bit value left (R170). -/
  | shlB64 (d : BitVec 4) (b a : Src)
  /-- SHR.z64: logical right shift of a 64-bit value (R170). -/
  | shrZ64 (d : BitVec 4) (b a : Src)
  /-- SHR.s64: arithmetic right shift of a 64-bit value (R170). -/
  | shrS64 (d : BitVec 4) (b a : Src)
  /-- POPC.b32: counts the one bits of A (R171). -/
  | popcB32 (d : BitVec 4) (a : Src)
  /-- CLZ.b32: counts leading zero bits of A (R171). -/
  | clzB32 (d : BitVec 4) (a : Src)
  /-- CTZ.b32: counts trailing zero bits of A (R171). -/
  | ctzB32 (d : BitVec 4) (a : Src)
  /-- BREV.b32: reverses the bit order of A (R171). -/
  | brevB32 (d : BitVec 4) (a : Src)
  /-- BFX.s32: extracts a sign-extended bit field of A (R172). -/
  | bfxS32 (d : BitVec 4) (b a : Src)
  /-- BFX.z32: extracts a zero-extended bit field of A (R172). -/
  | bfxZ32 (d : BitVec 4) (b a : Src)
  /-- ISET.eq.b32: delivers 1 when A equals B, else 0 (R173). -/
  | isetEqB32 (d : BitVec 4) (b a : Src)
  /-- ISET.ne.b32: delivers 1 when A differs from B (R173). -/
  | isetNeB32 (d : BitVec 4) (b a : Src)
  /-- ISET.lt.s32: delivers 1 when A < B signed (R173). -/
  | isetLtS32 (d : BitVec 4) (b a : Src)
  /-- ISET.le.s32: delivers 1 when A <= B signed (R173). -/
  | isetLeS32 (d : BitVec 4) (b a : Src)
  /-- ISET.gt.s32: delivers 1 when A > B signed (R173). -/
  | isetGtS32 (d : BitVec 4) (b a : Src)
  /-- ISET.ge.s32: delivers 1 when A >= B signed (R173). -/
  | isetGeS32 (d : BitVec 4) (b a : Src)
  /-- ISET.lt.z32: delivers 1 when A < B unsigned (R173). -/
  | isetLtZ32 (d : BitVec 4) (b a : Src)
  /-- ISET.le.z32: delivers 1 when A <= B unsigned (R173). -/
  | isetLeZ32 (d : BitVec 4) (b a : Src)
  /-- ISET.gt.z32: delivers 1 when A > B unsigned (R173). -/
  | isetGtZ32 (d : BitVec 4) (b a : Src)
  /-- ISET.ge.z32: delivers 1 when A >= B unsigned (R173). -/
  | isetGeZ32 (d : BitVec 4) (b a : Src)
  /-- SEL.b32: chooses A when the thread's Q[1] is non-zero, else B (R174). -/
  | selB32 (d : BitVec 4) (b a : Src)
  /-- FADD.f32: fP32 addition rounded once in the mode encoded in the slot (R186). -/
  | faddF32 (m : Rnd) (d : BitVec 4) (b a : Src)
  /-- FSUB.f32: fP32 subtraction rounded once (R186). -/
  | fsubF32 (m : Rnd) (d : BitVec 4) (b a : Src)
  /-- FMUL.f32: fP32 multiplication rounded once (R186). -/
  | fmulF32 (m : Rnd) (d : BitVec 4) (b a : Src)
  /-- FADD.f16: fP16 addition rounded once (R186). -/
  | faddF16 (m : Rnd) (d : BitVec 4) (b a : Src)
  /-- FSUB.f16: fP16 subtraction rounded once (R186). -/
  | fsubF16 (m : Rnd) (d : BitVec 4) (b a : Src)
  /-- FMUL.f16: fP16 multiplication rounded once (R186). -/
  | fmulF16 (m : Rnd) (d : BitVec 4) (b a : Src)
  /-- FMIN.f32: fP32 minimum with NaN and signed-zero rules (R187). -/
  | fminF32 (d : BitVec 4) (b a : Src)
  /-- FMAX.f32: fP32 maximum (R187). -/
  | fmaxF32 (d : BitVec 4) (b a : Src)
  /-- FMIN.f16: fP16 minimum (R187). -/
  | fminF16 (d : BitVec 4) (b a : Src)
  /-- FMAX.f16: fP16 maximum (R187). -/
  | fmaxF16 (d : BitVec 4) (b a : Src)
  /-- FABS.f32: clears the FP32 sign bit (R188). -/
  | fabsF32 (d : BitVec 4) (a : Src)
  /-- FNEG.f32: inverts the FP32 sign bit (R188). -/
  | fnegF32 (d : BitVec 4) (a : Src)
  /-- FABS.f16: clears the FP16 sign bit (R188). -/
  | fabsF16 (d : BitVec 4) (a : Src)
  /-- FNEG.f16: inverts the FP16 sign bit (R188). -/
  | fnegF16 (d : BitVec 4) (a : Src)
  /-- FSET.f32: delivers 1 when the FP32 condition encoded in the slot holds (R189). -/
  | fsetF32 (c : FCond) (d : BitVec 4) (b a : Src)
  /-- FSET.f16: delivers 1 when the FP16 condition holds (R189). -/
  | fsetF16 (c : FCond) (d : BitVec 4) (b a : Src)
  /-- FRND.f32: rounds an FP32 value to an integral value in the given mode (R190). -/
  | frndF32 (m : Rnd) (d : BitVec 4) (a : Src)
  /-- FRND.f16: rounds an FP16 value to an integral value (R190). -/
  | frndF16 (m : Rnd) (d : BitVec 4) (a : Src)
  /-- FADD.bf16x2: packed BF16 addition per element (R192). -/
  | faddBf16x2 (m : Rnd) (d : BitVec 4) (b a : Src)
  /-- FMUL.bf16x2: packed BF16 multiplication per element (R192). -/
  | fmulBf16x2 (m : Rnd) (d : BitVec 4) (b a : Src)
  /-- FADD.f16x2: packed FP16 addition per element (R192). -/
  | faddF16x2 (m : Rnd) (d : BitVec 4) (b a : Src)
  /-- FMUL.f16x2: packed FP16 multiplication per element (R192). -/
  | fmulF16x2 (m : Rnd) (d : BitVec 4) (b a : Src)
  /-- FMIN.bf16x2: packed BF16 minimum (R192). -/
  | fminBf16x2 (d : BitVec 4) (b a : Src)
  /-- FMAX.bf16x2: packed BF16 maximum (R192). -/
  | fmaxBf16x2 (d : BitVec 4) (b a : Src)
  /-- FMIN.f16x2: packed FP16 minimum (R192). -/
  | fminF16x2 (d : BitVec 4) (b a : Src)
  /-- FMAX.f16x2: packed FP16 maximum (R192). -/
  | fmaxF16x2 (d : BitVec 4) (b a : Src)
  /-- CVT.f16.f32: converts FP32 to FP16 in the given mode (R193). -/
  | cvtF16F32 (m : Rnd) (d : BitVec 4) (a : Src)
  /-- CVT.bf16.f32: converts FP32 to BF16 in the given mode (R193). -/
  | cvtBf16F32 (m : Rnd) (d : BitVec 4) (a : Src)
  /-- CVT.bf16.f16: converts FP16 to BF16 in the given mode (R193). -/
  | cvtBf16F16 (m : Rnd) (d : BitVec 4) (a : Src)
  /-- CVT.f16.bf16: converts BF16 to FP16 in the given mode (R193). -/
  | cvtF16Bf16 (m : Rnd) (d : BitVec 4) (a : Src)
  /-- CVT.f32.f16: widens FP16 to FP32 exactly (R193). -/
  | cvtF32F16 (d : BitVec 4) (a : Src)
  /-- CVT.f32.bf16: widens BF16 to FP32 exactly (R193). -/
  | cvtF32Bf16 (d : BitVec 4) (a : Src)
  /-- PACK.bf16x2.f32: rounds two FP32 sources to BF16 and packs them (R194). -/
  | packBf16x2F32 (d : BitVec 4) (b a : Src)
  /-- PACK.f16x2.f32: rounds two FP32 sources to FP16 and packs them (R194). -/
  | packF16x2F32 (d : BitVec 4) (b a : Src)
  /-- CVT.int.f32: converts FP32 to the integer type coded in SB, saturating (R193). -/
  | cvtIntF32 (m : Rnd) (d : BitVec 4) (t : IntTy) (a : Src)
  /-- CVT.int.f16: converts FP16 to an integer type, saturating (R193). -/
  | cvtIntF16 (m : Rnd) (d : BitVec 4) (t : IntTy) (a : Src)
  /-- CVT.int.bf16: converts BF16 to an integer type, saturating (R193). -/
  | cvtIntBf16 (m : Rnd) (d : BitVec 4) (t : IntTy) (a : Src)
  /-- CVT.f32.int: converts an integer type to FP32 (R193). -/
  | cvtF32Int (m : Rnd) (d : BitVec 4) (t : IntTy) (a : Src)
  /-- CVT.f16.int: converts an integer type to FP16 (R193). -/
  | cvtF16Int (m : Rnd) (d : BitVec 4) (t : IntTy) (a : Src)
  /-- CVT.bf16.int: converts an integer type to BF16 (R193). -/
  | cvtBf16Int (m : Rnd) (d : BitVec 4) (t : IntTy) (a : Src)
  /-- RCP.f32: fP32 reciprocal within 1 ulp (R195). -/
  | rcpF32 (d : BitVec 4) (a : Src)
  /-- RSQ.f32: fP32 reciprocal square root (R195). -/
  | rsqF32 (d : BitVec 4) (a : Src)
  /-- SQRT.f32: correctly rounded FP32 square root (R195). -/
  | sqrtF32 (d : BitVec 4) (a : Src)
  /-- EX2.f32: fP32 base-2 exponential (R195). -/
  | ex2F32 (d : BitVec 4) (a : Src)
  /-- LG2.f32: fP32 base-2 logarithm (R195). -/
  | lg2F32 (d : BitVec 4) (a : Src)
  /-- SIN.f32: fP32 sine with the reduction of R121 (R195). -/
  | sinF32 (d : BitVec 4) (a : Src)
  /-- COS.f32: fP32 cosine with the reduction of R121 (R195). -/
  | cosF32 (d : BitVec 4) (a : Src)
  /-- RCP.f16: fP16 reciprocal (R195). -/
  | rcpF16 (d : BitVec 4) (a : Src)
  /-- RSQ.f16: fP16 reciprocal square root (R195). -/
  | rsqF16 (d : BitVec 4) (a : Src)
  /-- SQRT.f16: fP16 square root (R195). -/
  | sqrtF16 (d : BitVec 4) (a : Src)
  /-- EX2.f16: fP16 base-2 exponential (R195). -/
  | ex2F16 (d : BitVec 4) (a : Src)
  /-- LG2.f16: fP16 base-2 logarithm (R195). -/
  | lg2F16 (d : BitVec 4) (a : Src)
  /-- SIN.f16: fP16 sine (R195). -/
  | sinF16 (d : BitVec 4) (a : Src)
  /-- COS.f16: fP16 cosine (R195). -/
  | cosF16 (d : BitVec 4) (a : Src)
  /-- LANE.SEL.b32: reads a register from a lane chosen at run time by B (R196). -/
  | laneSelB32 (d : BitVec 4) (b : Src) (a : BitVec 5)
  /-- VOTE.ANY: delivers 1 if A is non-zero in some present lane (R197). -/
  | voteAny (d : BitVec 4) (a : Src)
  /-- VOTE.ALL: delivers 1 if A is non-zero in every present lane (R197). -/
  | voteAll (d : BitVec 4) (a : Src)
  /-- VOTE.BAL: delivers the mask of present lanes with non-zero A (R197). -/
  | voteBal (d : BitVec 4) (a : Src)
  /-- VOTE.UNI: delivers 1 if A is the same in every present lane (R197). -/
  | voteUni (d : BitVec 4) (a : Src)
  /-- ELECT: delivers 1 to the lowest present lane and 0 to the others (R267). -/
  | elect (d : BitVec 4)
  /-- SREG: delivers the special register named by the index in SA (R198). -/
  | sreg (d : BitVec 4) (i : BitVec 9)
  /-- MSIG: posts one message to the core's Mast message queue after a .dev release, delivering 1 if posted (R272). -/
  | msig (d : BitVec 4) (b a : Src)
  /-- MARK: writes one marker record per present lane to the event recorder (R273). -/
  | mark (a : Src)
  /-- RSV.SET: allocates the lowest free reservation record and delivers its number (R236). -/
  | rsvSet (d : BitVec 4) (b : BitVec 5) (a : Src)
  /-- RSV.FREE: queues the release of a reservation record (R237). -/
  | rsvFree (a : Src)
  /-- RSV.GET: delivers one 64-bit half of a reservation record (R238). -/
  | rsvGet (d : BitVec 4) (a : Src)
  /-- MXLD: queues a fill of a reservation from memory (R239). -/
  | mxld (f : Side) (b : BitVec 5) (a : Src)
  /-- MMA.bf16: queues a BF16 matrix product into an accumulator tile (R246). -/
  | mmaBf16 (f : Side) (a : Src)
  /-- MMA.f16: queues an FP16 matrix product (R246). -/
  | mmaF16 (f : Side) (a : Src)
  /-- MMA.k: queues a plane-integer matrix product (R246). -/
  | mmaK (f : Side) (a : Src)
  /-- MMA.k.ol: queues a plane product followed by outlier correction from a scratchpad list (R247). -/
  | mmaKOl (f : Side) (b : BitVec 5) (a : Src)
  /-- MMA.bf16.g: joint BF16 product of a gang; parks at the rendezvous latch (R250). -/
  | mmaBf16G (f : Side) (a : Src)
  /-- MMA.f16.g: joint FP16 product of a gang (R250). -/
  | mmaF16G (f : Side) (a : Src)
  /-- MMA.k.g: joint plane product of a gang (R250). -/
  | mmaKG (f : Side) (a : Src)
  /-- MMA.k.ol.g: joint plane product with outlier correction (R250). -/
  | mmaKOlG (f : Side) (b : BitVec 5) (a : Src)
  /-- GANG.SET: writes the workgroup's gang register once no joint word is pending and restarts the joint count (R249). -/
  | gangSet (a : Src)
  /-- GANG.GET: delivers the gang register (R249). -/
  | gangGet (d : BitVec 4)
  /-- ACC.ZERO: queues setting every element of a tile to +0 (R241). -/
  | accZero (a : Src)
  /-- ACC.LD: queues loading a tile from an FP32 or BF16 memory image (R242). -/
  | accLd (f : Side) (b : BitVec 5) (a : Src)
  /-- ACC.ST: queues storing a tile to memory, optionally rounded to BF16 (R242). -/
  | accSt (f : Side) (b : BitVec 5) (a : Src)
  /-- ACC.RD: reads one accumulator element per present lane (R243). -/
  | accRd (d : BitVec 4) (f : Side) (a : Src)
  /-- ACC.FREE: queues zeroing and releasing a tile (R241). -/
  | accFree (a : Src)
  /-- GROVE.VT: queues writing value entries or the binding of a Grove bank (R252). -/
  | groveVt (f : Side) (b : BitVec 5) (a : Src)
  /-- GROVE.SWAP: queues inversion of a Grove table's ACTIVE bit (R253). -/
  | groveSwap (f : Side) (a : Src)
  /-- GROVE.RD: reads one Grove value entry per present lane (R254). -/
  | groveRd (d : BitVec 4) (f : Side) (a : Src)
  /-- ATM.ADD.z32: atomic add modulo 2^32 at the owning service group, delivering the old value (R212). -/
  | atmAddZ32 (q : Qual) (d : BitVec 4) (c : Scope) (f : Side) (b : BitVec 5) (a : Src)
  /-- ATM.ADD.f32: atomic FP32 add rounded to nearest (R212). -/
  | atmAddF32 (q : Qual) (d : BitVec 4) (c : Scope) (f : Side) (b : BitVec 5) (a : Src)
  /-- ATM.MIN.s32: atomic signed minimum (R212). -/
  | atmMinS32 (q : Qual) (d : BitVec 4) (c : Scope) (f : Side) (b : BitVec 5) (a : Src)
  /-- ATM.MAX.s32: atomic signed maximum (R212). -/
  | atmMaxS32 (q : Qual) (d : BitVec 4) (c : Scope) (f : Side) (b : BitVec 5) (a : Src)
  /-- ATM.MIN.z32: atomic unsigned minimum (R212). -/
  | atmMinZ32 (q : Qual) (d : BitVec 4) (c : Scope) (f : Side) (b : BitVec 5) (a : Src)
  /-- ATM.MAX.z32: atomic unsigned maximum (R212). -/
  | atmMaxZ32 (q : Qual) (d : BitVec 4) (c : Scope) (f : Side) (b : BitVec 5) (a : Src)
  /-- ATM.AND.b32: atomic bitwise and (R212). -/
  | atmAndB32 (q : Qual) (d : BitVec 4) (c : Scope) (f : Side) (b : BitVec 5) (a : Src)
  /-- ATM.OR.b32: atomic bitwise or (R212). -/
  | atmOrB32 (q : Qual) (d : BitVec 4) (c : Scope) (f : Side) (b : BitVec 5) (a : Src)
  /-- ATM.XOR.b32: atomic bitwise exclusive-or (R212). -/
  | atmXorB32 (q : Qual) (d : BitVec 4) (c : Scope) (f : Side) (b : BitVec 5) (a : Src)
  /-- ATM.EXCH.b32: atomic exchange (R212). -/
  | atmExchB32 (q : Qual) (d : BitVec 4) (c : Scope) (f : Side) (b : BitVec 5) (a : Src)
  /-- ATM.CAS.b32: atomic compare-and-swap with a 64-bit compare/new operand (R212). -/
  | atmCasB32 (q : Qual) (d : BitVec 4) (c : Scope) (f : Side) (b : BitVec 5) (a : Src)
  /-- LD.acq.b32: 32-bit acquire load performed at the location's home (R215). -/
  | ldAcqB32 (d : BitVec 4) (c : Scope) (f : Side) (a : Src)
  /-- LD.acq.b64: 64-bit acquire load (R215). -/
  | ldAcqB64 (d : BitVec 4) (c : Scope) (f : Side) (a : Src)
  /-- ST.rel.b32: 32-bit release store that leaves only when its scope's waits are met (R215). -/
  | stRelB32 (c : Scope) (f : Side) (b : BitVec 5) (a : Src)
  /-- ST.rel.b64: 64-bit release store (R215). -/
  | stRelB64 (c : Scope) (f : Side) (b : BitVec 5) (a : Src)
  /-- MON.WAIT.eq: acquire-reads a word and parks on a monitor until it equals B (R216). -/
  | monWaitEq (d : BitVec 4) (c : Scope) (f : Side) (b : BitVec 5) (a : Src)
  /-- MON.WAIT.ne: parks on a monitor until the word differs from B (R216). -/
  | monWaitNe (d : BitVec 4) (c : Scope) (f : Side) (b : BitVec 5) (a : Src)
  /-- MON.WAIT.gez: parks on a monitor until the wrapping word reaches B (R216). -/
  | monWaitGez (d : BitVec 4) (c : Scope) (f : Side) (b : BitVec 5) (a : Src)
  /-- ARRIVE.INIT: sets an arrival word's TOTAL and clears COUNT, delivering GEN (R219). -/
  | arriveInit (d : BitVec 4) (f : Side) (b : BitVec 5) (a : Src)
  /-- ARRIVE.ADD: adds bytes to an arrival word with .cl release, advancing GEN on completion (R219). -/
  | arriveAdd (d : BitVec 4) (f : Side) (b : BitVec 5) (a : Src)
  /-- ARRIVE.WAIT: parks until an arrival word's generation has passed g, then acquires (R220). -/
  | arriveWait (d : BitVec 4) (c : Scope) (f : Side) (b : BitVec 5) (a : Src)
  /-- FENCE: holds the thread's later words until its scope's release waits are met (R222). -/
  | fence (c : Scope)
  /-- FENCE.X: orders accesses of path P before later accesses of path Q for the workgroup (R223). -/
  | fenceX (c : Scope) (r p : Path)
  /-- HINT: page-attribute request changing the placement hint of a run of pages (R224). -/
  | hint (d : BitVec 4) (f : Side) (b : BitVec 5) (a : Src)
  /-- PGSET: page-attribute request changing W, X, ordering, or demoting pages (R224). -/
  | pgset (d : BitVec 4) (f : Side) (b : BitVec 5) (a : Src)
  /-- FMA.f32: fP32 fused multiply-add rounded once (R191). -/
  | fmaF32 (d : BitVec 4) (c : BitVec 5) (b a : Src)
  /-- FMS.f32: fP32 fused multiply-subtract rounded once (R191). -/
  | fmsF32 (d : BitVec 4) (c : BitVec 5) (b a : Src)
  /-- FMA.f16: fP16 fused multiply-add (R191). -/
  | fmaF16 (d : BitVec 4) (c : BitVec 5) (b a : Src)
  /-- FMA.bf16x2: packed BF16 fused multiply-add (R191). -/
  | fmaBf16x2 (d : BitVec 4) (c : BitVec 5) (b a : Src)
  /-- FMA.f16x2: packed FP16 fused multiply-add (R191). -/
  | fmaF16x2 (d : BitVec 4) (c : BitVec 5) (b a : Src)
  /-- IMAD.s32: signed saturating multiply-add (R179). -/
  | imadS32 (d : BitVec 4) (c : BitVec 5) (b a : Src)
  /-- IMAD.z32: unsigned saturating multiply-add (R179). -/
  | imadZ32 (d : BitVec 4) (c : BitVec 5) (b a : Src)
  /-- SHLADD: delivers (A shifted left by C[4:0]) plus B modulo 2^32 (R178). -/
  | shladd (d : BitVec 4) (c : BitVec 5) (b a : Src)
  /-- ADD.s32: aDD.s32 with a sign-extended 11-bit immediate (R175). -/
  | addS32Imm (d : BitVec 4) (i : BitVec 11) (a : Src)
  /-- ADD.s32.sat: aDD.s32.sat with an immediate (R175). -/
  | addS32SatImm (d : BitVec 4) (i : BitVec 11) (a : Src)
  /-- MUL.s32: mUL.s32 with an immediate (R175). -/
  | mulS32Imm (d : BitVec 4) (i : BitVec 11) (a : Src)
  /-- AND.b32: aND.b32 with an immediate (R175). -/
  | andB32Imm (d : BitVec 4) (i : BitVec 11) (a : Src)
  /-- OR.b32: oR.b32 with an immediate (R175). -/
  | orB32Imm (d : BitVec 4) (i : BitVec 11) (a : Src)
  /-- XOR.b32: xOR.b32 with an immediate (R175). -/
  | xorB32Imm (d : BitVec 4) (i : BitVec 11) (a : Src)
  /-- SHL.b32: sHL.b32 by an immediate amount (R175). -/
  | shlB32Imm (d : BitVec 4) (i : BitVec 11) (a : Src)
  /-- SHR.z32: sHR.z32 by an immediate amount (R175). -/
  | shrZ32Imm (d : BitVec 4) (i : BitVec 11) (a : Src)
  /-- SHR.s32: sHR.s32 by an immediate amount (R175). -/
  | shrS32Imm (d : BitVec 4) (i : BitVec 11) (a : Src)
  /-- MIN.s32: mIN.s32 with an immediate (R175). -/
  | minS32Imm (d : BitVec 4) (i : BitVec 11) (a : Src)
  /-- MAX.s32: mAX.s32 with an immediate (R175). -/
  | maxS32Imm (d : BitVec 4) (i : BitVec 11) (a : Src)
  /-- MOV.b32: delivers the sign-extended immediate (R168). -/
  | movB32Imm (d : BitVec 4) (i : BitVec 11)
  /-- ADR: delivers bits 31:0 of the clause header address plus 4 times the immediate (R177). -/
  | adr (d : BitVec 4) (i : BitVec 11)
  /-- ISET.eq.b32: iSET.eq.b32 against an immediate (R173). -/
  | isetEqB32Imm (d : BitVec 4) (i : BitVec 11) (a : Src)
  /-- ISET.ne.b32: iSET.ne.b32 against an immediate (R173). -/
  | isetNeB32Imm (d : BitVec 4) (i : BitVec 11) (a : Src)
  /-- ISET.lt.s32: iSET.lt.s32 against an immediate (R173). -/
  | isetLtS32Imm (d : BitVec 4) (i : BitVec 11) (a : Src)
  /-- ISET.le.s32: iSET.le.s32 against an immediate (R173). -/
  | isetLeS32Imm (d : BitVec 4) (i : BitVec 11) (a : Src)
  /-- ISET.gt.s32: iSET.gt.s32 against an immediate (R173). -/
  | isetGtS32Imm (d : BitVec 4) (i : BitVec 11) (a : Src)
  /-- ISET.ge.s32: iSET.ge.s32 against an immediate (R173). -/
  | isetGeS32Imm (d : BitVec 4) (i : BitVec 11) (a : Src)
  /-- ISET.lt.z32: iSET.lt.z32 against an immediate (R173). -/
  | isetLtZ32Imm (d : BitVec 4) (i : BitVec 11) (a : Src)
  /-- ISET.le.z32: iSET.le.z32 against an immediate (R173). -/
  | isetLeZ32Imm (d : BitVec 4) (i : BitVec 11) (a : Src)
  /-- ISET.gt.z32: iSET.gt.z32 against an immediate (R173). -/
  | isetGtZ32Imm (d : BitVec 4) (i : BitVec 11) (a : Src)
  /-- ISET.ge.z32: iSET.ge.z32 against an immediate (R173). -/
  | isetGeZ32Imm (d : BitVec 4) (i : BitVec 11) (a : Src)
  /-- LD.s8: loads a sign-extended byte per present lane (R205). -/
  | ldS8 (r : BitVec 4) (f : Side) (b : Src) (x : BitVec 9)
  /-- LD.z8: loads a zero-extended byte (R205). -/
  | ldZ8 (r : BitVec 4) (f : Side) (b : Src) (x : BitVec 9)
  /-- LD.s16: loads a sign-extended half (R205). -/
  | ldS16 (r : BitVec 4) (f : Side) (b : Src) (x : BitVec 9)
  /-- LD.z16: loads a zero-extended half (R205). -/
  | ldZ16 (r : BitVec 4) (f : Side) (b : Src) (x : BitVec 9)
  /-- LD.b32: loads a 32-bit word (R205). -/
  | ldB32 (r : BitVec 4) (f : Side) (b : Src) (x : BitVec 9)
  /-- LD.b64: loads 64 bits into two slots or a pair (R205). -/
  | ldB64 (r : BitVec 4) (f : Side) (b : Src) (x : BitVec 9)
  /-- LD.b128: loads 128 bits into four slots or a quad (R205). -/
  | ldB128 (r : BitVec 4) (f : Side) (b : Src) (x : BitVec 9)
  /-- ST.b8: stores a byte through the write queue (R206). -/
  | stB8 (r : BitVec 4) (f : Side) (b : Src) (x : BitVec 9)
  /-- ST.b16: stores a half (R206). -/
  | stB16 (r : BitVec 4) (f : Side) (b : Src) (x : BitVec 9)
  /-- ST.b32: stores a word (R206). -/
  | stB32 (r : BitVec 4) (f : Side) (b : Src) (x : BitVec 9)
  /-- ST.b64: stores a register pair (R206). -/
  | stB64 (r : BitVec 4) (f : Side) (b : Src) (x : BitVec 9)
  /-- ST.b128: stores a register quad (R206). -/
  | stB128 (r : BitVec 4) (f : Side) (b : Src) (x : BitVec 9)
  /-- LDS.b32: loads a word from the workgroup's scratchpad (R208). -/
  | ldsB32 (r : BitVec 4) (f : Side) (b : Src) (x : BitVec 9)
  /-- LDS.b64: loads 64 bits from scratchpad (R208). -/
  | ldsB64 (r : BitVec 4) (f : Side) (b : Src) (x : BitVec 9)
  /-- LDS.b128: loads 128 bits from scratchpad (R208). -/
  | ldsB128 (r : BitVec 4) (f : Side) (b : Src) (x : BitVec 9)
  /-- STS.b32: stores a word to scratchpad, bypassing the write queue (R208). -/
  | stsB32 (r : BitVec 4) (f : Side) (b : Src) (x : BitVec 9)
  /-- STS.b64: stores 64 bits to scratchpad (R208). -/
  | stsB64 (r : BitVec 4) (f : Side) (b : Src) (x : BitVec 9)
  /-- STS.b128: stores 128 bits to scratchpad (R208). -/
  | stsB128 (r : BitVec 4) (f : Side) (b : Src) (x : BitVec 9)
  /-- LDR.b32: loads a word from another cluster workgroup's scratchpad (R208). -/
  | ldrB32 (r : BitVec 4) (f : Side) (b : Src) (x : BitVec 9)
  /-- LDR.b64: loads 64 bits from a cluster scratchpad address (R208). -/
  | ldrB64 (r : BitVec 4) (f : Side) (b : Src) (x : BitVec 9)
  /-- STR.b32: stores a word to a cluster scratchpad address (R208). -/
  | strB32 (r : BitVec 4) (f : Side) (b : Src) (x : BitVec 9)
  /-- STR.b64: stores 64 bits to a cluster scratchpad address (R208). -/
  | strB64 (r : BitVec 4) (f : Side) (b : Src) (x : BitVec 9)
  /-- LDH.b32: loads a word through a host virtual pointer (R209). -/
  | ldhB32 (r : BitVec 4) (f : Side) (b : Src) (x : BitVec 9)
  /-- LDH.b64: loads 64 bits through a host pointer (R209). -/
  | ldhB64 (r : BitVec 4) (f : Side) (b : Src) (x : BitVec 9)
  /-- STH.b32: posts a word write through a host pointer (R209). -/
  | sthB32 (r : BitVec 4) (f : Side) (b : Src) (x : BitVec 9)
  /-- STH.b64: posts a 64-bit write through a host pointer (R209). -/
  | sthB64 (r : BitVec 4) (f : Side) (b : Src) (x : BitVec 9)
  /-- GATHER.b32: weak word load that never fills frames or uses the read-ahead buffer (R210). -/
  | gatherB32 (r : BitVec 4) (f : Side) (b : Src) (x : BitVec 9)
  /-- XFER: hands a tile copy described by scratchpad records to the copy engine (R278). -/
  | xfer (r : BitVec 4) (f : Side) (b : Src) (x : BitVec 9)
  /-- COLL: hands a collective on a fabric group to the collective engine (R282). -/
  | coll (r : BitVec 4) (f : Side) (b : Src) (x : BitVec 9)
  /-- LAUNCH: submits a launch record to the scheduler after a .dev release (R283). -/
  | launch (r : BitVec 4) (f : Side) (b : Src) (x : BitVec 9)
  /-- GROVE.ROW: computes one Grove row per present lane on the Grove engine (R256). -/
  | groveRow (r : BitVec 4) (f : Side) (b : Src) (x : BitVec 9)
  /-- BRA: every present thread branches at the end of the clause (R263). -/
  | bra (i : BitVec 24)
  /-- BRZ: threads whose Q[1] is zero branch (R263). -/
  | brz (i : BitVec 24)
  /-- BRNZ: threads whose Q[1] is non-zero branch (R263). -/
  | brnz (i : BitVec 24)
  /-- CALL: writes the next clause address to n14 and branches (R264). -/
  | call (i : BitVec 24)
  /-- RET: branches to the address in n14 (R263). -/
  | ret
  /-- END: ends each present thread (R263). -/
  | endThread
  /-- TRAP: raises the program trap with a 24-bit code (R268). -/
  | trap (i : BitVec 24)
  /-- SYSCALL: hands the bundle's threads to the core's Mast through a call ring slot (R270). -/
  | syscall (i : BitVec 24)
  /-- BRK: raises a debugger halt when the breakpoint enable is set, else continues (R269). -/
  | brk (i : BitVec 24)
  /-- CONST: puts the sign-extended 24-bit immediate into the age queue (R176). -/
  | const (i : BitVec 24)
  /-- CONSTHI: puts the immediate times 256 into the age queue (R176). -/
  | consthi (i : BitVec 24)
  /-- At each 4-cycle turn a lane frame without a running clause forms and offers a bundle and decodes its clause header (R14). -/
  | bundleTurn (core lf : Nat)
  /-- A free issue slot accepts the least recently accepted startable bundle, counting a clause issue and stamping its threads (R306). -/
  | bundleAccept (core slot : Nat)
  /-- After its fixed latency a word's result fills its age slots and named register (R163). -/
  | resultDeliver (core op : Nat)
  /-- A workgroup with no live thread and no busy flag finishes, releasing its tiles, tables, records and grant list (R25). -/
  | workgroupFinish (wg : Nat)
  /-- Each fabric cycle the dispatcher places at most one cluster of a ready launch on the first fitting rig (R304). -/
  | clusterPlace
  /-- Once a lane frame is between clauses the copy engine moves or exchanges it; the last move retries the placement (R29). -/
  | laneFrameMove (core : Nat)
  /-- A near frame taken into a scratchpad reservation is emptied once any placement sequence on it completes (R31). -/
  | scratchFrameEmpty (core frame : Nat)
  /-- A placed workgroup's threads start under R24 once every reserved frame is empty (R31). -/
  | workgroupStart (wg : Nat)
  /-- A translation-store miss reads the die layer or walks the global layer and installs the result (R40). -/
  | translationWalk (core req : Nat)
  /-- A kind-1 translation is dropped 4096 cycles after it was fetched (R41). -/
  | translationExpiry (core ctx vpn : Nat)
  /-- An access arriving at a frame is admitted or rejected by the 24-bit seal comparison (R43). -/
  | frameAccess (core req : Nat)
  /-- An access through a kind-2 translation at the home slice is served from HBM or redirected to the on-chip frame (R37). -/
  | homeSliceAccess (core req : Nat)
  /-- A frame's seal word changes, waiting until 32 cycles after its previous remap (R44). -/
  | frameRemap (seq : Nat)
  /-- Step 6 sends invalidations, clears B and releases waiting stores and requests (R48). -/
  | placementDone (seq : Nat)
  /-- A core receiving an invalidation drops matching translations and read-ahead entries (R47). -/
  | invalidation (inv : Nat)
  /-- An acknowledgement reaches the invalidation's sender (R379). -/
  | invalidationAck (inv : Nat)
  /-- An invalidation unacknowledged for 4096 cycles is resent; the fourth failure raises kind 20 (R380). -/
  | invalidationResend (inv : Nat)
  /-- A write-queue entry leaves for its frame or home slice when order and MAXOUT allow (R61). -/
  | writeQueueDepart (core req : Nat)
  /-- An HBM write entering its home slice is charged to a core's bucket as in or over budget (R64). -/
  | hbmWriteCharge (wr : Nat)
  /-- A pseudo-channel write lane finishes a transfer and takes its next request by budget class and age (R65). -/
  | writeLaneDone (stack chan : Nat) (crcOk : Bool)
  /-- At each 1024-cycle window the token buckets refill and byte budgets and sensors are renewed (R63). -/
  | windowBoundary (vf junction : List Nat)
  /-- In native mode each 4096 unit intervals a channel picks the coding with fewer transitions (R66). -/
  | codeSwitchBoundary (stack chan : Nat) (writes : Bool) (dbi low : Nat)
  /-- A Mast write of JBUD applies MAXOUT at once and RATE and DEPTH at the next window (R63). -/
  | jbudWrite (core : Nat) (v : Word)
  /-- A write of a stack's HCFG selects native or compatibility coding and BYTECAP (R66). -/
  | hcfgWrite (stack : Nat) (v : Word)
  /-- Once the move-up pool is not empty the fault unit takes a slot and reads the page from the capacity tier (R68). -/
  | poolSlotTake (mig : Nat)
  /-- A 128-byte capacity-tier read returns; a bad read is retried, then read from the mirror (R385). -/
  | capReadReturn (mig blk : Nat) (bad : Bool)
  /-- A capacity-tier read without completion for 2^24 cycles counts as bad (R385). -/
  | capReadTimeout (mig blk : Nat)
  /-- After the last write the global entry becomes kind 2, the slot is written back and invalidations sent (R68). -/
  | migrationComplete (mig : Nat)
  /-- A hint-5 reader's deadline passes; a direct read is issued and the migration may be abandoned (R69). -/
  | migrationDeadline (core lf : Nat)
  /-- The deadline path's direct read returns and the readers unpark past the load (R69). -/
  | directReadReturn (core op : Nat) (bad : Bool)
  /-- A load's data return fills slots, writes the named register and clears the flag (R205). -/
  | loadReturn (core op : Nat)
  /-- The owning service group performs a read-modify-write request in R74 order (R84). -/
  | atomicPerform (core req : Nat)
  /-- An atomic's old value reaches its return slot and is delivered (R213). -/
  | atomicReply (core op : Nat)
  /-- An atomic reply missing for 2^24 cycles raises kind 27 and fails the lanes (R401). -/
  | atomicTimeout (core op : Nat)
  /-- Threads parked without a free monitor are rechecked every 1024 cycles (R217). -/
  | monitorRecheck (mon : Nat)
  /-- An uncorrectable error in a slice's monitor storage fires all its monitors (R402). -/
  | monitorStorageError (die slice : Nat)
  /-- A fence's waits are met and the thread's later words may issue (R222). -/
  | fenceComplete (core lf : Nat)
  /-- Once B clears, a page-attribute request evicts, rewrites and optionally demotes one page (R224). -/
  | pageAttrPage (req : Nat)
  /-- An ATS completion installs a host translation or starts a page request and unparks waiters (R340). -/
  | atsTranslationCompletion (core : Nat) (page : HostPage) (st : AtsStatus)
  /-- An ATS request without completion for 2^24 cycles raises kind 23 (R388). -/
  | atsTimeout (core : Nat) (page : HostPage)
  /-- A PRI group response ends a page request; success requests the translation again (R327). -/
  | pageRequestGroupResponse (core : Nat) (page : HostPage) (resp : PriResp)
  /-- The Z9 drops every matching host translation on every core (R327). -/
  | atsInvalidationRequest (pasid page count : Nat)
  /-- Once accesses using dropped entries have drained, the Invalidation Completion is sent (R327). -/
  | invalidationCompletion (req : Nat)
  /-- A host-pointer read without completion for 2^24 cycles raises kind 23 subcode 3 (R388). -/
  | hostReadTimeout (core op : Nat) (err : Bool)
  /-- A matrix-queue entry starts once earlier entries naming the same things have finished (R230). -/
  | engineEntryStart (core ent : Nat)
  /-- An engine entry finishes and clears its flag (R231). -/
  | engineEntryFinish (core ent : Nat)
  /-- The Grove engine delivers one lane's row result and clears that thread's flag (R256). -/
  | groveLaneDone (core ent : Nat)
  /-- A copied part lands, counting to the arrival word and on the last part clearing the flag and completion word (R279). -/
  | xferPartApplied (core ent : Nat)
  /-- A collective finishes a chunk of output and on the last chunk completes (R427). -/
  | collChunkDone (core ent : Nat)
  /-- The scheduler copies a LAUNCH record and clears the issuing flag with the launch number (R283). -/
  | launchRecordCopy (core ent : Nat)
  /-- When a call ring slot is free SYSCALL writes it, advances TAIL and parks the threads (R270). -/
  | callRingPost (core lf : Nat)
  /-- When the slot's STATUS monitor fires, the threads load n1 and unpark together (R335). -/
  | syscallReturn (core slot : Nat)
  /-- A host write of QNOTIFY sets the queue's TAIL (R300). -/
  | qnotifyWrite (q : Nat) (v : Word)
  /-- While HEAD differs from TAIL the Z9 reads entry HEAD, checks it and copies the launch (R301). -/
  | queueEntryFetch (q : Nat)
  /-- 2048 cycles after a stale fetch the entry is read again, stopping the queue after 8 (R403). -/
  | queueEntryRefetch (q : Nat)
  /-- Writing 1 to QERR.STOP clears the error and refetches HEAD (R404). -/
  | qerrWrite (q : Nat) (v : Word)
  /-- A slice ends at the end of its quantum (R307). -/
  | sliceExpiry
  /-- A slice ends early after 4096 cycles without work in its context (R307). -/
  | sliceIdleEnd
  /-- A Mast read of MCALLQ pops the oldest posted call slot with acquire semantics (R319). -/
  | mcallqRead (core rd : Nat)
  /-- A Mast read of MMSGA pops the oldest MSIG message and latches its value (R320). -/
  | mmsgaRead (core rd : Nat)
  /-- Writing 1 to an MNTPEND bit clears that notify-pending bit (R314). -/
  | mntpendWrite (core : Nat) (v : DWord)
  /-- A host or Mast write of a notify register stores it and sets its MNTPEND bit (R321). -/
  | notifyWrite (core : HostCore) (k : Nat) (v : Word)
  /-- A Mast window write to a parked thread's register or program counter word (R316). -/
  | windowRegisterWrite (core lf lane word : Nat) (v : Word)
  /-- Writing END ends a parked thread and releases its monitor share (R316). -/
  | windowEnd (core lf lane : Nat)
  /-- Writing UNPARK makes a parked thread eligible at its saved program counter (R316). -/
  | windowUnpark (core lf lane : Nat)
  /-- A Mast load or store translated through its context or the window (R312). -/
  | mastLoadStore (core : Nat) (k : MastAccess) (size : Nat) (addr data : DWord) (rd : Nat)
  /-- A Mast AMO performed at the owning service group (R313). -/
  | mastAmo (core : Nat) (o : AmoOp) (size : Nat) (aq rl : Bool) (addr data : DWord) (rd : Nat)
  /-- A Mast LR reserves an aligned word or doubleword (R313). -/
  | mastLr (core size : Nat) (addr : DWord) (rd : Nat)
  /-- A Mast SC fails if the unit was written or its frame remapped since the LR (R313). -/
  | mastSc (core size : Nat) (addr data : DWord) (rd : Nat)
  /-- A Mast FENCE acts as a .dev fence; FENCE.I makes written code fetchable (R313). -/
  | mastFence (core : Nat) (instr : Bool)
  /-- A host CXL.mem read passes through the home slice and may allocate a snoop-filter entry (R325). -/
  | hostMemRead (link addr len : Nat) (caching : Bool)
  /-- A host CXL.mem write is applied through the home slice, waiting on busy marks (R325). -/
  | hostMemWrite (link addr : Nat) (data : List Byte)
  /-- A host response to a back-invalidate snoop lets the waiting device write be applied (R326). -/
  | backInvalidateResponse (snoop : Nat)
  /-- A CXL.cache snoop is answered as a miss (R324). -/
  | cxlCacheSnoop (link addr : Nat)
  /-- Mailbox command 0x10 returns capability word 0 (R328). -/
  | readCapabilityWord (m : MbxMaster)
  /-- Mailbox command 0x11 sets the context descriptor table address (R298). -/
  | setCtxtab (m : MbxMaster) (a0 : DWord)
  /-- Mailbox command 0x12 writes a function's quantum table entry (R307). -/
  | writeQuantumEntry (m : MbxMaster) (fn entry : Nat) (v : Word)
  /-- Mailbox command 0x13 writes a fabric group entry (R329). -/
  | writeFabricGroup (m : MbxMaster) (group : Nat) (a1 a2 a3 a4 : DWord)
  /-- Mailbox command 0x14 sets the key index of a host granule (R325). -/
  | writeHostKeyTable (m : MbxMaster) (granule key : Nat)
  /-- Mailbox command 0x15 returns a die's state (R331). -/
  | readDieState (m : MbxMaster) (die : Nat)
  /-- Mailbox command 0x16 returns the measurement register (R332). -/
  | readMeasurement (m : MbxMaster)
  /-- Mailbox command 0x17 stores the manifest address in retention storage (R328). -/
  | writeBootaddr (m : MbxMaster) (a0 : DWord)
  /-- Mailbox command 0x18 copies ring or capture records to HBM (R355). -/
  | copyRecords (m : MbxMaster) (a0 a1 a2 a3 : DWord)
  /-- Mailbox command 0x19 returns a frame's seal word (R355). -/
  | readSealWord (m : MbxMaster) (a0 : DWord)
  /-- Mailbox command 0x1A clears and arms the capture area (R354). -/
  | rearmCapture (m : MbxMaster) (a0 : DWord)
  /-- Mailbox command 0x1B with write set writes RCTL and restarts the sampling counters (R351). -/
  | writeRctl (m : MbxMaster) (a0 : DWord) (v : Word)
  /-- Mailbox command 0x1B without write returns RCTL (R351). -/
  | readRctl (m : MbxMaster) (a0 : DWord)
  /-- Mailbox command 0x1C with write set writes DBGCTL (R367). -/
  | dbgctlWrite (m : MbxMaster) (v : DWord)
  /-- Mailbox command 0x1C without write returns DBGCTL (R367). -/
  | dbgctlRead (m : MbxMaster)
  /-- Writing HALTREQ raises a debugger halt on core 0 (R367). -/
  | haltreq (m : MbxMaster)
  /-- Any write of the UNDO bit clears every undo log (R367). -/
  | undoLogClear (m : MbxMaster) (undo : Bool)
  /-- Mailbox command 0x1D undoes the newest K undo-log entries of a lane frame (R369). -/
  | stepBack (m : MbxMaster) (core lf k : Nat)
  /-- Mailbox command 0x1E with neither control bit returns MHALT (R363). -/
  | haltStatusRead (m : MbxMaster)
  /-- RESUME via MHALT or command 0x1E resumes a stopped context (R365). -/
  | contextResume (by_ : StopMaster)
  /-- ENDCTX via MHALT or command 0x1E ends the context, stopping it first if running (R366). -/
  | contextEnd (by_ : StopMaster)
  /-- Mailbox command 0x1F abandons the sequence holding B on a page (R382). -/
  | abandonBusySequence (m : MbxMaster) (ctx va : Nat)
  /-- Mailbox command 0x20 sets a context's capacity-tier mirror range (R384). -/
  | setMirrorRange (m : MbxMaster) (a0 a1 a2 a3 : DWord)
  /-- Mailbox command 0x21 with bit 8 clear returns a poison-table entry (R386). -/
  | readPoisonEntry (m : MbxMaster) (entry : Nat)
  /-- Mailbox command 0x21 with bit 8 set clears an entry and B in its page (R386). -/
  | clearPoisonEntry (m : MbxMaster) (entry : Nat)
  /-- Mailbox command 0x22 loads and zeroes key material for a key slot (R390). -/
  | writeKeySlot (m : MbxMaster) (a0 a1 : DWord)
  /-- Mailbox command 0x23 returns and optionally clears RAS counters (R395). -/
  | readRasCounters (m : MbxMaster) (num : Nat) (frames clear : Bool)
  /-- Mailbox command 0x24 with bit 15 clear returns a lost-block entry (R397). -/
  | readLostBlock (m : MbxMaster) (die slice entry : Nat)
  /-- Mailbox command 0x24 with bit 15 set clears a lost-block entry (R397). -/
  | clearLostBlock (m : MbxMaster) (die slice entry : Nat)
  /-- Mailbox command 0x25 abandons a faulted matrix or Grove entry (R411). -/
  | abandonEngineEntry (m : MbxMaster) (a0 : DWord)
  /-- Mailbox command 0x26 arms a queue's next launch as a gang launch (R429). -/
  | armGangLaunch (m : MbxMaster) (a0 a1 : DWord)
  /-- Mailbox command 0x27 returns a queue's last gang launch status (R429). -/
  | readGangStatus (m : MbxMaster) (q : Nat)
  /-- Mailbox command 0x28 copies a capsule summary (R423). -/
  | copyCapsuleSummary (m : MbxMaster) (index : Nat) (dst : DWord)
  /-- Mailbox command 0x29 copies bytes from a held capsule slot (R423). -/
  | copyCapsuleSlot (m : MbxMaster) (slot : Nat) (dst : DWord) (off len : Nat)
  /-- Mailbox command 0x2A empties a held capsule slot (R423). -/
  | releaseCapsuleSlot (m : MbxMaster) (slot : Nat)
  /-- Mailbox command 0x2B fences, quiesces, writes back, resets and readmits a die (R424). -/
  | warmResetDie (m : MbxMaster) (die : Nat) (force : Bool)
  /-- Mailbox command 0x2C returns the boot failure code (R430). -/
  | readBootCode (m : MbxMaster)
  /-- An unlisted mailbox command code returns code 0x01 (R328). -/
  | mailboxUnknownCommand (m : MbxMaster) (code : Nat)
  /-- A write to a register without a row of its own stores the value or is ignored where read-only (R314). -/
  | registerWrite (r : RegName) (v : DWord)
  /-- At power-on die 0's boot ROM reads and verifies the manifest and jumps to the firmware (R330). -/
  | packageReset (linkUp readOk : Bool)
  /-- First touch of an image block fetches it into the boot window and checks its digest (R330). -/
  | bootBlockFetch (blk : Nat) (readOk : Bool)
  /-- A die enters reduced or full service once its Masts, HBM and links come up (R331). -/
  | dieStateChange (die st : Nat)
  /-- Every millisecond the arbiter sets die and stack caps and BYTECAP (R333). -/
  | powerArbiterTick (dieCaps stackCaps : List Nat)
  /-- A die held at VF 0 is released after 1 ms below 105 degrees (R431). -/
  | thermalCooldown (die : Nat)
  /-- Package draw above 6160 W for 10 ms forces every die to VF 0 (R431). -/
  | packageOverdraw
  /-- Coolant flow lost for 100 ms raises kind 30 and shuts the dies down (R431). -/
  | coolantLoss (die : Nat)
  /-- A die rail supply fault raises kind 30 and warm-resets the die with FORCE (R431). -/
  | supplyFault (die : Nat)
  /-- Every 2^SSHIFT cycles a STALL record blames the word a waiting lane frame waits on (R350). -/
  | stallSample (core : Nat)
  /-- A TIMEBASE record is written when bits 23:0 of the time counter wrap (R348). -/
  | timebaseWrap
  /-- After a drop a LOST record is staged in the first cycle with a free entry (R352). -/
  | lostRecord (core : Nat)
  /-- The halt line reaches a core or engine, which stops within its skid bound and parks threads (R358). -/
  | haltLineArrive (core skid : Nat)
  /-- After stop records are written die 0 assembles and signs a crash capsule (R418). -/
  | capsuleAssembly
  /-- A sequence holding B for 2^22 cycles raises kind 21 or 22 (R382). -/
  | busyWatchdogExpiry (seq : Nat)
  /-- A latch unreleased for 2^24 running cycles raises kind 28 in arrived members (R412). -/
  | gangWatchdogExpiry (latch : Nat)
  /-- A die-to-die flit CRC error is retried at link level (R426). -/
  | flitCrcError (die1 die2 : Nat)
  /-- A failed lane is repaired onto spares, or the link drops to half width (R426). -/
  | linkLaneFailure (die1 die2 : Nat) (spares : Bool)
  /-- A down link retrains up to 3 times while traffic is rerouted (R426). -/
  | linkDown (die1 die2 : Nat) (retrained : Bool)
  /-- Every link of a die down for 1 ms loses the die and stops affected contexts with kind 29 (R426). -/
  | dieLost (die : Nat)
  /-- A port failing during a COLL chunk discards and replays the chunk on a rebuilt tree (R427). -/
  | fabricPortFailure (port : Nat)
  /-- A member unreachable for 2^26 cycles completes the COLL with member absent (R428). -/
  | collMemberAbsent (core ent member : Nat)
  /-- A gang member's acknowledgement arrives before the deadline (R429). -/
  | gangAck (q member : Nat)
  /-- At the gang deadline unacknowledged members are absent and the launch becomes gang-broken (R429). -/
  | gangDeadline (q : Nat)
  /-- A bundle reaches a word whose format slot is unassigned, whose reserved field, scope, path or type code is not valid, or whose operand breaks the limits; the word has no effect and the illegal-instruction or illegal-operand trap is raised for the bundle (R161). -/
  | illegalInstruction (k : IllKind) (w : Word)
  /-- The last capacity-tier write of a demotion completes; the global entry is rewritten as kind 3 and B is cleared (R70). -/
  | demotionComplete (req : Nat)
  /-- A retrain of a down die-to-die link succeeds, and traffic returns to the link in place of the non-minimal route (R426). -/
  | linkComesBack (die1 die2 : Nat)
  /-- A fabric port that has been down for 1 ms is removed from every fabric group's tree (R426). -/
  | portRemovedFromTree (port : Nat)
  /-- The package, and with it stack 0, loses power; crash capsule slots and all volatile state are lost, while retention storage keeps BOOTADDR, SEQ and the capsule summaries (R419). -/
  | powerLoss
  /-- A host issues a function-level reset of a function, which the capsule slots survive (R419). -/
  | functionLevelReset (fn : Nat)
deriving DecidableEq, Repr

end Sys2Proof
end

