-- ==== Sys2Proof/WellFormed.lean ====
section
/-!
DEFINITION. WellFormed.lean: the operand limits of R111, R144, R145 and R154. A word whose fields break one of them
raises the illegal-operand trap (R161 step 4). Fields that R148 reserves have no place in the constructors, so only the
limits on selectors, patterns and widths remain to check. Events have no encoding and so no limit here.
-/
namespace Sys2Proof

/-- Crossbar pattern values 14 and 15 are not patterns (R144). -/
def patOk (s : Src) : Bool := decide (s.pat.toNat < 14)

/-- A 64-bit result goes to DST 0 or to an even named register 2 to 14 (R145). -/
def dst64 (d : BitVec 4) : Bool := decide (d.toNat % 2 = 0)

/-- A 128-bit result goes to DST 0, 4, 8 or 12 (R145). -/
def dst128 (d : BitVec 4) : Bool := decide (d.toNat % 4 = 0)

/-- 64-bit store data lies in an even named register n2 to n14 (R145). -/
def data64 (r : BitVec 4) : Bool := decide (r.toNat % 2 = 0 ∧ r.toNat ≠ 0)

/-- 128-bit store data lies in n4, n8 or n12 (R145). -/
def data128 (r : BitVec 4) : Bool := decide (r.toNat % 4 = 0 ∧ r.toNat ≠ 0)

/-- A 64-bit source selects q1 to q15, or an even named register n2 to n14 (R111, R145). -/
def src64 (sel : BitVec 5) : Bool :=
  decide (sel.toNat < 15 ∨ (16 < sel.toNat ∧ sel.toNat % 2 = 0))

/-- The operand limits of each instruction (R161 step 4). -/
def Instr.wellFormed : Instr → Bool
  | .addS32 _ b a => patOk b && patOk a
  | .addS32Sat _ b a => patOk b && patOk a
  | .addZ32Sat _ b a => patOk b && patOk a
  | .subS32 _ b a => patOk b && patOk a
  | .subS32Sat _ b a => patOk b && patOk a
  | .subZ32Sat _ b a => patOk b && patOk a
  | .mulS32 _ b a => patOk b && patOk a
  | .mulhiS32 _ b a => patOk b && patOk a
  | .mulhiZ32 _ b a => patOk b && patOk a
  | .minS32 _ b a => patOk b && patOk a
  | .maxS32 _ b a => patOk b && patOk a
  | .minZ32 _ b a => patOk b && patOk a
  | .maxZ32 _ b a => patOk b && patOk a
  | .absS32 _ a => patOk a
  | .negS32 _ a => patOk a
  | .movB32 _ a => patOk a
  | .andB32 _ b a => patOk b && patOk a
  | .orB32 _ b a => patOk b && patOk a
  | .xorB32 _ b a => patOk b && patOk a
  | .andnB32 _ b a => patOk b && patOk a
  | .notB32 _ a => patOk a
  | .addB64 d b a => patOk b && patOk a && dst64 d && src64 b.sel && src64 a.sel
  | .subB64 d b a => patOk b && patOk a && dst64 d && src64 b.sel && src64 a.sel
  | .mulwS32 d b a => patOk b && patOk a && dst64 d
  | .mulwZ32 d b a => patOk b && patOk a && dst64 d
  | .divS32 _ b a => patOk b && patOk a
  | .divZ32 _ b a => patOk b && patOk a
  | .remS32 _ b a => patOk b && patOk a
  | .remZ32 _ b a => patOk b && patOk a
  | .shlB32 _ b a => patOk b && patOk a
  | .shrZ32 _ b a => patOk b && patOk a
  | .shrS32 _ b a => patOk b && patOk a
  | .rolB32 _ b a => patOk b && patOk a
  | .shlB64 d b a => patOk b && patOk a && dst64 d && src64 a.sel
  | .shrZ64 d b a => patOk b && patOk a && dst64 d && src64 a.sel
  | .shrS64 d b a => patOk b && patOk a && dst64 d && src64 a.sel
  | .popcB32 _ a => patOk a
  | .clzB32 _ a => patOk a
  | .ctzB32 _ a => patOk a
  | .brevB32 _ a => patOk a
  | .bfxS32 _ b a => patOk b && patOk a
  | .bfxZ32 _ b a => patOk b && patOk a
  | .isetEqB32 _ b a => patOk b && patOk a
  | .isetNeB32 _ b a => patOk b && patOk a
  | .isetLtS32 _ b a => patOk b && patOk a
  | .isetLeS32 _ b a => patOk b && patOk a
  | .isetGtS32 _ b a => patOk b && patOk a
  | .isetGeS32 _ b a => patOk b && patOk a
  | .isetLtZ32 _ b a => patOk b && patOk a
  | .isetLeZ32 _ b a => patOk b && patOk a
  | .isetGtZ32 _ b a => patOk b && patOk a
  | .isetGeZ32 _ b a => patOk b && patOk a
  | .selB32 _ b a => patOk b && patOk a
  | .faddF32 _ _ b a => patOk b && patOk a
  | .fsubF32 _ _ b a => patOk b && patOk a
  | .fmulF32 _ _ b a => patOk b && patOk a
  | .faddF16 _ _ b a => patOk b && patOk a
  | .fsubF16 _ _ b a => patOk b && patOk a
  | .fmulF16 _ _ b a => patOk b && patOk a
  | .fminF32 _ b a => patOk b && patOk a
  | .fmaxF32 _ b a => patOk b && patOk a
  | .fminF16 _ b a => patOk b && patOk a
  | .fmaxF16 _ b a => patOk b && patOk a
  | .fabsF32 _ a => patOk a
  | .fnegF32 _ a => patOk a
  | .fabsF16 _ a => patOk a
  | .fnegF16 _ a => patOk a
  | .fsetF32 _ _ b a => patOk b && patOk a
  | .fsetF16 _ _ b a => patOk b && patOk a
  | .frndF32 _ _ a => patOk a
  | .frndF16 _ _ a => patOk a
  | .faddBf16x2 _ _ b a => patOk b && patOk a
  | .fmulBf16x2 _ _ b a => patOk b && patOk a
  | .faddF16x2 _ _ b a => patOk b && patOk a
  | .fmulF16x2 _ _ b a => patOk b && patOk a
  | .fminBf16x2 _ b a => patOk b && patOk a
  | .fmaxBf16x2 _ b a => patOk b && patOk a
  | .fminF16x2 _ b a => patOk b && patOk a
  | .fmaxF16x2 _ b a => patOk b && patOk a
  | .cvtF16F32 _ _ a => patOk a
  | .cvtBf16F32 _ _ a => patOk a
  | .cvtBf16F16 _ _ a => patOk a
  | .cvtF16Bf16 _ _ a => patOk a
  | .cvtF32F16 _ a => patOk a
  | .cvtF32Bf16 _ a => patOk a
  | .packBf16x2F32 _ b a => patOk b && patOk a
  | .packF16x2F32 _ b a => patOk b && patOk a
  | .cvtIntF32 _ _ _ a => patOk a
  | .cvtIntF16 _ _ _ a => patOk a
  | .cvtIntBf16 _ _ _ a => patOk a
  | .cvtF32Int _ _ _ a => patOk a
  | .cvtF16Int _ _ _ a => patOk a
  | .cvtBf16Int _ _ _ a => patOk a
  | .rcpF32 _ a => patOk a
  | .rsqF32 _ a => patOk a
  | .sqrtF32 _ a => patOk a
  | .ex2F32 _ a => patOk a
  | .lg2F32 _ a => patOk a
  | .sinF32 _ a => patOk a
  | .cosF32 _ a => patOk a
  | .rcpF16 _ a => patOk a
  | .rsqF16 _ a => patOk a
  | .sqrtF16 _ a => patOk a
  | .ex2F16 _ a => patOk a
  | .lg2F16 _ a => patOk a
  | .sinF16 _ a => patOk a
  | .cosF16 _ a => patOk a
  | .laneSelB32 _ b _ => patOk b
  | .voteAny _ a => patOk a
  | .voteAll _ a => patOk a
  | .voteBal _ a => patOk a
  | .voteUni _ a => patOk a
  | .elect _ => true
  | .sreg _ i => decide (i.toNat < 12)
  | .msig _ b a => patOk b && patOk a
  | .mark a => patOk a
  | .rsvSet _ b a => src64 b && patOk a && src64 a.sel
  | .rsvFree a => patOk a
  | .rsvGet d a => patOk a && dst64 d
  | .mxld _ _ a => patOk a && src64 a.sel
  | .mmaBf16 _ a => patOk a
  | .mmaF16 _ a => patOk a
  | .mmaK _ a => patOk a
  | .mmaKOl _ _ a => patOk a
  | .mmaBf16G _ a => patOk a
  | .mmaF16G _ a => patOk a
  | .mmaKG _ a => patOk a
  | .mmaKOlG _ _ a => patOk a
  | .gangSet a => patOk a
  | .gangGet _ => true
  | .accZero a => patOk a
  | .accLd _ _ a => patOk a && src64 a.sel
  | .accSt _ _ a => patOk a && src64 a.sel
  | .accRd _ _ a => patOk a
  | .accFree a => patOk a
  | .groveVt _ _ a => patOk a && src64 a.sel
  | .groveSwap _ a => patOk a
  | .groveRd _ _ a => patOk a
  | .atmAddZ32 _ _ _ _ _ a => patOk a
  | .atmAddF32 _ _ _ _ _ a => patOk a
  | .atmMinS32 _ _ _ _ _ a => patOk a
  | .atmMaxS32 _ _ _ _ _ a => patOk a
  | .atmMinZ32 _ _ _ _ _ a => patOk a
  | .atmMaxZ32 _ _ _ _ _ a => patOk a
  | .atmAndB32 _ _ _ _ _ a => patOk a
  | .atmOrB32 _ _ _ _ _ a => patOk a
  | .atmXorB32 _ _ _ _ _ a => patOk a
  | .atmExchB32 _ _ _ _ _ a => patOk a
  | .atmCasB32 _ _ _ _ b a => patOk a && src64 b
  | .ldAcqB32 _ _ _ a => patOk a
  | .ldAcqB64 d _ _ a => patOk a && dst64 d
  | .stRelB32 _ _ _ a => patOk a
  | .stRelB64 _ _ b a => patOk a && src64 b
  | .monWaitEq _ _ _ _ a => patOk a
  | .monWaitNe _ _ _ _ a => patOk a
  | .monWaitGez _ _ _ _ a => patOk a
  | .arriveInit _ _ _ a => patOk a
  | .arriveAdd _ _ _ a => patOk a
  | .arriveWait _ _ _ _ a => patOk a
  | .fence _ => true
  | .fenceX _ _ _ => true
  | .hint _ _ _ a => patOk a
  | .pgset _ _ b a => patOk a && src64 b
  | .fmaF32 _ _ b a => patOk b && patOk a
  | .fmsF32 _ _ b a => patOk b && patOk a
  | .fmaF16 _ _ b a => patOk b && patOk a
  | .fmaBf16x2 _ _ b a => patOk b && patOk a
  | .fmaF16x2 _ _ b a => patOk b && patOk a
  | .imadS32 _ _ b a => patOk b && patOk a
  | .imadZ32 _ _ b a => patOk b && patOk a
  | .shladd _ _ b a => patOk b && patOk a
  | .addS32Imm _ _ a => patOk a
  | .addS32SatImm _ _ a => patOk a
  | .mulS32Imm _ _ a => patOk a
  | .andB32Imm _ _ a => patOk a
  | .orB32Imm _ _ a => patOk a
  | .xorB32Imm _ _ a => patOk a
  | .shlB32Imm _ _ a => patOk a
  | .shrZ32Imm _ _ a => patOk a
  | .shrS32Imm _ _ a => patOk a
  | .minS32Imm _ _ a => patOk a
  | .maxS32Imm _ _ a => patOk a
  | .movB32Imm _ _ => true
  | .adr _ _ => true
  | .isetEqB32Imm _ _ a => patOk a
  | .isetNeB32Imm _ _ a => patOk a
  | .isetLtS32Imm _ _ a => patOk a
  | .isetLeS32Imm _ _ a => patOk a
  | .isetGtS32Imm _ _ a => patOk a
  | .isetGeS32Imm _ _ a => patOk a
  | .isetLtZ32Imm _ _ a => patOk a
  | .isetLeZ32Imm _ _ a => patOk a
  | .isetGtZ32Imm _ _ a => patOk a
  | .isetGeZ32Imm _ _ a => patOk a
  | .ldS8 _ _ b _ => patOk b
  | .ldZ8 _ _ b _ => patOk b
  | .ldS16 _ _ b _ => patOk b
  | .ldZ16 _ _ b _ => patOk b
  | .ldB32 _ _ b _ => patOk b
  | .ldB64 r _ b _ => patOk b && dst64 r
  | .ldB128 r _ b _ => patOk b && dst128 r
  | .stB8 _ _ b _ => patOk b
  | .stB16 _ _ b _ => patOk b
  | .stB32 _ _ b _ => patOk b
  | .stB64 r _ b _ => patOk b && data64 r
  | .stB128 r _ b _ => patOk b && data128 r
  | .ldsB32 _ _ b _ => patOk b
  | .ldsB64 r _ b _ => patOk b && dst64 r
  | .ldsB128 r _ b _ => patOk b && dst128 r
  | .stsB32 _ _ b _ => patOk b
  | .stsB64 r _ b _ => patOk b && data64 r
  | .stsB128 r _ b _ => patOk b && data128 r
  | .ldrB32 _ _ b _ => patOk b
  | .ldrB64 r _ b _ => patOk b && dst64 r
  | .strB32 _ _ b _ => patOk b
  | .strB64 r _ b _ => patOk b && data64 r
  | .ldhB32 _ _ b _ => patOk b && src64 b.sel
  | .ldhB64 r _ b _ => patOk b && dst64 r && src64 b.sel
  | .sthB32 _ _ b _ => patOk b && src64 b.sel
  | .sthB64 r _ b _ => patOk b && data64 r && src64 b.sel
  | .gatherB32 _ _ b _ => patOk b
  | .xfer _ _ b _ => patOk b
  | .coll _ _ b _ => patOk b
  | .launch _ _ b _ => patOk b
  | .groveRow _ _ b _ => patOk b
  | .bra _ => true
  | .brz _ => true
  | .brnz _ => true
  | .call _ => true
  | .ret => true
  | .endThread => true
  | .trap _ => true
  | .syscall _ => true
  | .brk _ => true
  | .const _ => true
  | .consthi _ => true
  | .bundleTurn _ _ => true
  | .bundleAccept _ _ => true
  | .resultDeliver _ _ => true
  | .workgroupFinish _ => true
  | .clusterPlace => true
  | .laneFrameMove _ => true
  | .scratchFrameEmpty _ _ => true
  | .workgroupStart _ => true
  | .translationWalk _ _ => true
  | .translationExpiry _ _ _ => true
  | .frameAccess _ _ => true
  | .homeSliceAccess _ _ => true
  | .frameRemap _ => true
  | .placementDone _ => true
  | .invalidation _ => true
  | .invalidationAck _ => true
  | .invalidationResend _ => true
  | .writeQueueDepart _ _ => true
  | .hbmWriteCharge _ => true
  | .writeLaneDone _ _ _ => true
  | .windowBoundary _ _ => true
  | .codeSwitchBoundary _ _ _ _ _ => true
  | .jbudWrite _ _ => true
  | .hcfgWrite _ _ => true
  | .poolSlotTake _ => true
  | .capReadReturn _ _ _ => true
  | .capReadTimeout _ _ => true
  | .migrationComplete _ => true
  | .migrationDeadline _ _ => true
  | .directReadReturn _ _ _ => true
  | .loadReturn _ _ => true
  | .atomicPerform _ _ => true
  | .atomicReply _ _ => true
  | .atomicTimeout _ _ => true
  | .monitorRecheck _ => true
  | .monitorStorageError _ _ => true
  | .fenceComplete _ _ => true
  | .pageAttrPage _ => true
  | .atsTranslationCompletion _ _ _ => true
  | .atsTimeout _ _ => true
  | .pageRequestGroupResponse _ _ _ => true
  | .atsInvalidationRequest _ _ _ => true
  | .invalidationCompletion _ => true
  | .hostReadTimeout _ _ _ => true
  | .engineEntryStart _ _ => true
  | .engineEntryFinish _ _ => true
  | .groveLaneDone _ _ => true
  | .xferPartApplied _ _ => true
  | .collChunkDone _ _ => true
  | .launchRecordCopy _ _ => true
  | .callRingPost _ _ => true
  | .syscallReturn _ _ => true
  | .qnotifyWrite _ _ => true
  | .queueEntryFetch _ => true
  | .queueEntryRefetch _ => true
  | .qerrWrite _ _ => true
  | .sliceExpiry => true
  | .sliceIdleEnd => true
  | .mcallqRead _ _ => true
  | .mmsgaRead _ _ => true
  | .mntpendWrite _ _ => true
  | .notifyWrite _ _ _ => true
  | .windowRegisterWrite _ _ _ _ _ => true
  | .windowEnd _ _ _ => true
  | .windowUnpark _ _ _ => true
  | .mastLoadStore _ _ _ _ _ _ => true
  | .mastAmo _ _ _ _ _ _ _ _ => true
  | .mastLr _ _ _ _ => true
  | .mastSc _ _ _ _ _ => true
  | .mastFence _ _ => true
  | .hostMemRead _ _ _ _ => true
  | .hostMemWrite _ _ _ => true
  | .backInvalidateResponse _ => true
  | .cxlCacheSnoop _ _ => true
  | .readCapabilityWord _ => true
  | .setCtxtab _ _ => true
  | .writeQuantumEntry _ _ _ _ => true
  | .writeFabricGroup _ _ _ _ _ _ => true
  | .writeHostKeyTable _ _ _ => true
  | .readDieState _ _ => true
  | .readMeasurement _ => true
  | .writeBootaddr _ _ => true
  | .copyRecords _ _ _ _ _ => true
  | .readSealWord _ _ => true
  | .rearmCapture _ _ => true
  | .writeRctl _ _ _ => true
  | .readRctl _ _ => true
  | .dbgctlWrite _ _ => true
  | .dbgctlRead _ => true
  | .haltreq _ => true
  | .undoLogClear _ _ => true
  | .stepBack _ _ _ _ => true
  | .haltStatusRead _ => true
  | .contextResume _ => true
  | .contextEnd _ => true
  | .abandonBusySequence _ _ _ => true
  | .setMirrorRange _ _ _ _ _ => true
  | .readPoisonEntry _ _ => true
  | .clearPoisonEntry _ _ => true
  | .writeKeySlot _ _ _ => true
  | .readRasCounters _ _ _ _ => true
  | .readLostBlock _ _ _ _ => true
  | .clearLostBlock _ _ _ _ => true
  | .abandonEngineEntry _ _ => true
  | .armGangLaunch _ _ _ => true
  | .readGangStatus _ _ => true
  | .copyCapsuleSummary _ _ _ => true
  | .copyCapsuleSlot _ _ _ _ _ => true
  | .releaseCapsuleSlot _ _ => true
  | .warmResetDie _ _ _ => true
  | .readBootCode _ => true
  | .mailboxUnknownCommand _ _ => true
  | .registerWrite _ _ => true
  | .packageReset _ _ => true
  | .bootBlockFetch _ _ => true
  | .dieStateChange _ _ => true
  | .powerArbiterTick _ _ => true
  | .thermalCooldown _ => true
  | .packageOverdraw => true
  | .coolantLoss _ => true
  | .supplyFault _ => true
  | .stallSample _ => true
  | .timebaseWrap => true
  | .lostRecord _ => true
  | .haltLineArrive _ _ => true
  | .capsuleAssembly => true
  | .busyWatchdogExpiry _ => true
  | .gangWatchdogExpiry _ => true
  | .flitCrcError _ _ => true
  | .linkLaneFailure _ _ _ => true
  | .linkDown _ _ _ => true
  | .dieLost _ => true
  | .fabricPortFailure _ => true
  | .collMemberAbsent _ _ _ => true
  | .gangAck _ _ => true
  | .gangDeadline _ => true
  | .illegalInstruction _ _ => true
  | .demotionComplete _ => true
  | .linkComesBack _ _ => true
  | .portRemovedFromTree _ => true
  | .powerLoss => true
  | .functionLevelReset _ => true

end Sys2Proof
end

