-- ==== Sys2Proof/Decode.lean ====
section
/-!
DEFINITION. Decode.lean: clause headers (R134, R135), the five formats (R138 to R143), the opcode map (R149 to R160) and
the checks of R161 in their order; and the encoder, written from the same maps.
-/
namespace Sys2Proof

/-- The classes of words and clauses (R134, R136), in code order. -/
inductive OpClass where
  | alu | read | write | mx | async | ctl
deriving DecidableEq, Repr

/-- The code of a class in the header's CLASS field (R134). -/
def OpClass.code : OpClass → BitVec 3
  | .alu => 0 | .read => 1 | .write => 2 | .mx => 3 | .async => 4 | .ctl => 5

/-- Why bytes do not decode to an instruction: too few bytes, or a check of R161. -/
inductive DecodeError where
  | short
  | ill (k : IllKind)
deriving DecidableEq, Repr

/-! ## Fields -/

/-- The 9-bit operand field of a source (R144). -/
def Src.pack (s : Src) : BitVec 9 := s.pat ++ s.sel

/-- A source from its 9-bit operand field (R144). -/
def src (v : BitVec 9) : Src := ⟨v.extractLsb' 5 4, v.extractLsb' 0 5⟩

def Rnd.code : Rnd → BitVec 6
  | .rn => 0 | .rz => 1 | .rd => 2 | .ru => 3

/-- The rounding mode of a slot in a group of four (R151). -/
def rnd (op : BitVec 6) : Rnd :=
  match op.toNat % 4 with
  | 0 => .rn | 1 => .rz | 2 => .rd | _ => .ru

def FCond.code : FCond → BitVec 6
  | .eq => 0 | .ne => 1 | .lt => 2 | .le => 3 | .gt => 4 | .ge => 5 | .un => 6 | .or => 7

/-- The condition of a slot in a group of eight compares (R189). -/
def fcond (op : BitVec 6) : FCond :=
  match op.toNat % 8 with
  | 0 => .eq | 1 => .ne | 2 => .lt | 3 => .le | 4 => .gt | 5 => .ge | 6 => .un | _ => .or

def Qual.code : Qual → BitVec 6
  | .plain => 0 | .acq => 1 | .rel => 2 | .ar => 3

/-- The qualifier of a slot in a group of four atomics (R147). -/
def qual (op : BitVec 6) : Qual :=
  match op.toNat % 4 with
  | 0 => .plain | 1 => .acq | 2 => .rel | _ => .ar

def IntTy.code : IntTy → BitVec 9
  | .s8 => 0 | .s16 => 1 | .s32 => 2 | .z8 => 3 | .z16 => 4 | .z32 => 5

/-- The integer type in SB bits 2:0, with bits 8:3 reserved and codes 6 and 7 reserved (R152). -/
def intTy (sb : BitVec 9) : Option IntTy :=
  match sb.toNat with
  | 0 => some .s8 | 1 => some .s16 | 2 => some .s32 | 3 => some .z8 | 4 => some .z16 | 5 => some .z32
  | _ => none

def Side.code : Side → BitVec 1
  | .a => 0 | .b => 1

def side (f : BitVec 1) : Side := if f = 0 then .a else .b

def Scope.code : Scope → BitVec 3
  | .wg => 0 | .cl => 1 | .die => 2 | .dev => 3 | .sys => 4

/-- The scope of SB bits 8:6; codes 5 to 7 are reserved (R147). -/
def scope (sb : BitVec 9) : Option Scope :=
  match (sb.extractLsb' 6 3).toNat with
  | 0 => some .wg | 1 => some .cl | 2 => some .die | 3 => some .dev | 4 => some .sys
  | _ => none

def Path.code : Path → BitVec 3
  | .thr => 0 | .copy => 1 | .mx => 2 | .grove => 3 | .coll => 4 | .mast => 5

/-- A path code; 6 and 7 are reserved (R147). -/
def path (v : BitVec 3) : Option Path :=
  match v.toNat with
  | 0 => some .thr | 1 => some .copy | 2 => some .mx | 3 => some .grove | 4 => some .coll | 5 => some .mast
  | _ => none

/-- SB of families 6 and 7: SCOPE in bits 8:6, FS in bit 5, the register selector in bits 4:0 (R147). -/
def modField (sc : BitVec 3) (fs : BitVec 1) (sel : BitVec 5) : BitVec 9 := sc ++ fs ++ sel

def fsOf (sb : BitVec 9) : BitVec 1 := sb.extractLsb' 5 1
def selOf (sb : BitVec 9) : BitVec 5 := sb.extractLsb' 0 5
def scopeBits (sb : BitVec 9) : BitVec 3 := sb.extractLsb' 6 3

/-! ## One reader for each set of fields; a field that R148 reserves must be zero -/

def okIf (c : Bool) (i : Instr) : Except IllKind Instr := if c then .ok i else .error .reserved

def fDba (k : BitVec 4 → Src → Src → Instr) (d : BitVec 4) (sb sa : BitVec 9) : Except IllKind Instr :=
  .ok (k d (src sb) (src sa))

def fDa (k : BitVec 4 → Src → Instr) (d : BitVec 4) (sb sa : BitVec 9) : Except IllKind Instr :=
  okIf (sb == 0) (k d (src sa))

def fDta (k : BitVec 4 → IntTy → Src → Instr) (d : BitVec 4) (sb sa : BitVec 9) : Except IllKind Instr :=
  match intTy sb with
  | some t => .ok (k d t (src sa))
  | none => .error .reserved

/-- LANE.SEL: the pattern bits of SA are reserved (R196). -/
def fLaneSel (d : BitVec 4) (sb sa : BitVec 9) : Except IllKind Instr :=
  okIf (sa.extractLsb' 5 4 == 0) (.laneSelB32 d (src sb) (sa.extractLsb' 0 5))

def fD (k : BitVec 4 → Instr) (d : BitVec 4) (sb sa : BitVec 9) : Except IllKind Instr :=
  okIf (sb == 0 && sa == 0) (k d)

/-- SREG: SA holds an index (R154). -/
def fSreg (d : BitVec 4) (sb sa : BitVec 9) : Except IllKind Instr := okIf (sb == 0) (.sreg d sa)

def fA (k : Src → Instr) (d : BitVec 4) (sb sa : BitVec 9) : Except IllKind Instr :=
  okIf (d == 0 && sb == 0) (k (src sa))

/-- RSV.SET: SCOPE and FS reserved (R147, R260). -/
def fRsvSet (d : BitVec 4) (sb sa : BitVec 9) : Except IllKind Instr :=
  okIf (scopeBits sb == 0 && fsOf sb == 0) (.rsvSet d (selOf sb) (src sa))

def fFba (k : Side → BitVec 5 → Src → Instr) (d : BitVec 4) (sb sa : BitVec 9) : Except IllKind Instr :=
  okIf (d == 0 && scopeBits sb == 0) (k (side (fsOf sb)) (selOf sb) (src sa))

def fFa (k : Side → Src → Instr) (d : BitVec 4) (sb sa : BitVec 9) : Except IllKind Instr :=
  okIf (d == 0 && scopeBits sb == 0 && selOf sb == 0) (k (side (fsOf sb)) (src sa))

def fDfa (k : BitVec 4 → Side → Src → Instr) (d : BitVec 4) (sb sa : BitVec 9) : Except IllKind Instr :=
  okIf (scopeBits sb == 0 && selOf sb == 0) (k d (side (fsOf sb)) (src sa))

def fDfba (k : BitVec 4 → Side → BitVec 5 → Src → Instr) (d : BitVec 4) (sb sa : BitVec 9) :
    Except IllKind Instr :=
  okIf (scopeBits sb == 0) (k d (side (fsOf sb)) (selOf sb) (src sa))

def fDcfba (k : BitVec 4 → Scope → Side → BitVec 5 → Src → Instr) (d : BitVec 4) (sb sa : BitVec 9) :
    Except IllKind Instr :=
  match scope sb with
  | some c => .ok (k d c (side (fsOf sb)) (selOf sb) (src sa))
  | none => .error .reserved

def fAtm (k : Qual → BitVec 4 → Scope → Side → BitVec 5 → Src → Instr) (op : BitVec 6) (d : BitVec 4)
    (sb sa : BitVec 9) : Except IllKind Instr := fDcfba (k (qual op)) d sb sa

def fDcfa (k : BitVec 4 → Scope → Side → Src → Instr) (d : BitVec 4) (sb sa : BitVec 9) : Except IllKind Instr :=
  match scope sb with
  | some c => okIf (selOf sb == 0) (k d c (side (fsOf sb)) (src sa))
  | none => .error .reserved

def fCfba (k : Scope → Side → BitVec 5 → Src → Instr) (d : BitVec 4) (sb sa : BitVec 9) : Except IllKind Instr :=
  match scope sb with
  | some c => okIf (d == 0) (k c (side (fsOf sb)) (selOf sb) (src sa))
  | none => .error .reserved

/-- FENCE: everything but SCOPE is reserved (R156). -/
def fFence (d : BitVec 4) (sb sa : BitVec 9) : Except IllKind Instr :=
  match scope sb with
  | some c => okIf (d == 0 && fsOf sb == 0 && selOf sb == 0 && sa == 0) (.fence c)
  | none => .error .reserved

/-- FENCE.X: path P in SA bits 2:0, path Q in SB bits 2:0 (R147, R227). -/
def fFenceX (d : BitVec 4) (sb sa : BitVec 9) : Except IllKind Instr :=
  match scope sb, path (sb.extractLsb' 0 3), path (sa.extractLsb' 0 3) with
  | some c, some r, some p =>
    okIf (d == 0 && fsOf sb == 0 && sb.extractLsb' 3 2 == 0 && sa.extractLsb' 3 6 == 0) (.fenceX c r p)
  | _, _, _ => .error .reserved

/-- Format I words without a source: SA is reserved (R158). -/
def fDi (k : BitVec 4 → BitVec 11 → Instr) (d : BitVec 4) (i : BitVec 11) (sa : BitVec 9) : Except IllKind Instr :=
  okIf (sa == 0) (k d i)

/-- RET and END: IMM24 is reserved (R160). -/
def fNone (k : Instr) (i : BitVec 24) : Except IllKind Instr := okIf (i == 0) k

/-! ## The opcode map -/

/-- Family 0 of format R: the slots that R149 lists. -/
def family0 (op : BitVec 6) (d : BitVec 4) (sb sa : BitVec 9) : Except IllKind Instr :=
  match op.toNat with
  | 0 => fDba .addS32 d sb sa
  | 1 => fDba .addS32Sat d sb sa
  | 2 => fDba .addZ32Sat d sb sa
  | 3 => fDba .subS32 d sb sa
  | 4 => fDba .subS32Sat d sb sa
  | 5 => fDba .subZ32Sat d sb sa
  | 6 => fDba .mulS32 d sb sa
  | 7 => fDba .mulhiS32 d sb sa
  | 8 => fDba .mulhiZ32 d sb sa
  | 9 => fDba .minS32 d sb sa
  | 10 => fDba .maxS32 d sb sa
  | 11 => fDba .minZ32 d sb sa
  | 12 => fDba .maxZ32 d sb sa
  | 13 => fDa .absS32 d sb sa
  | 14 => fDa .negS32 d sb sa
  | 15 => fDa .movB32 d sb sa
  | 16 => fDba .andB32 d sb sa
  | 17 => fDba .orB32 d sb sa
  | 18 => fDba .xorB32 d sb sa
  | 19 => fDba .andnB32 d sb sa
  | 20 => fDa .notB32 d sb sa
  | 21 => fDba .addB64 d sb sa
  | 22 => fDba .subB64 d sb sa
  | 23 => fDba .mulwS32 d sb sa
  | 24 => fDba .mulwZ32 d sb sa
  | 25 => fDba .divS32 d sb sa
  | 26 => fDba .divZ32 d sb sa
  | 27 => fDba .remS32 d sb sa
  | 28 => fDba .remZ32 d sb sa
  | _ => .error .unassigned

/-- Family 1 of format R: the slots that R150 lists. -/
def family1 (op : BitVec 6) (d : BitVec 4) (sb sa : BitVec 9) : Except IllKind Instr :=
  match op.toNat with
  | 0 => fDba .shlB32 d sb sa
  | 1 => fDba .shrZ32 d sb sa
  | 2 => fDba .shrS32 d sb sa
  | 3 => fDba .rolB32 d sb sa
  | 4 => fDba .shlB64 d sb sa
  | 5 => fDba .shrZ64 d sb sa
  | 6 => fDba .shrS64 d sb sa
  | 8 => fDa .popcB32 d sb sa
  | 9 => fDa .clzB32 d sb sa
  | 10 => fDa .ctzB32 d sb sa
  | 11 => fDa .brevB32 d sb sa
  | 12 => fDba .bfxS32 d sb sa
  | 13 => fDba .bfxZ32 d sb sa
  | 16 => fDba .isetEqB32 d sb sa
  | 17 => fDba .isetNeB32 d sb sa
  | 18 => fDba .isetLtS32 d sb sa
  | 19 => fDba .isetLeS32 d sb sa
  | 20 => fDba .isetGtS32 d sb sa
  | 21 => fDba .isetGeS32 d sb sa
  | 22 => fDba .isetLtZ32 d sb sa
  | 23 => fDba .isetLeZ32 d sb sa
  | 24 => fDba .isetGtZ32 d sb sa
  | 25 => fDba .isetGeZ32 d sb sa
  | 28 => fDba .selB32 d sb sa
  | _ => .error .unassigned

/-- Family 2 of format R: the slots that R151 lists. -/
def family2 (op : BitVec 6) (d : BitVec 4) (sb sa : BitVec 9) : Except IllKind Instr :=
  match op.toNat with
  | 0 | 1 | 2 | 3 => fDba (.faddF32 (rnd op)) d sb sa
  | 4 | 5 | 6 | 7 => fDba (.fsubF32 (rnd op)) d sb sa
  | 8 | 9 | 10 | 11 => fDba (.fmulF32 (rnd op)) d sb sa
  | 12 | 13 | 14 | 15 => fDba (.faddF16 (rnd op)) d sb sa
  | 16 | 17 | 18 | 19 => fDba (.fsubF16 (rnd op)) d sb sa
  | 20 | 21 | 22 | 23 => fDba (.fmulF16 (rnd op)) d sb sa
  | 24 => fDba .fminF32 d sb sa
  | 25 => fDba .fmaxF32 d sb sa
  | 26 => fDba .fminF16 d sb sa
  | 27 => fDba .fmaxF16 d sb sa
  | 28 => fDa .fabsF32 d sb sa
  | 29 => fDa .fnegF32 d sb sa
  | 30 => fDa .fabsF16 d sb sa
  | 31 => fDa .fnegF16 d sb sa
  | 32 | 33 | 34 | 35 | 36 | 37 | 38 | 39 => fDba (.fsetF32 (fcond op)) d sb sa
  | 40 | 41 | 42 | 43 | 44 | 45 | 46 | 47 => fDba (.fsetF16 (fcond op)) d sb sa
  | 48 | 49 | 50 | 51 => fDa (.frndF32 (rnd op)) d sb sa
  | 52 | 53 | 54 | 55 => fDa (.frndF16 (rnd op)) d sb sa
  | _ => .error .unassigned

/-- Family 3 of format R: the slots that R152 lists. -/
def family3 (op : BitVec 6) (d : BitVec 4) (sb sa : BitVec 9) : Except IllKind Instr :=
  match op.toNat with
  | 0 | 1 | 2 | 3 => fDba (.faddBf16x2 (rnd op)) d sb sa
  | 4 | 5 | 6 | 7 => fDba (.fmulBf16x2 (rnd op)) d sb sa
  | 8 | 9 | 10 | 11 => fDba (.faddF16x2 (rnd op)) d sb sa
  | 12 | 13 | 14 | 15 => fDba (.fmulF16x2 (rnd op)) d sb sa
  | 16 => fDba .fminBf16x2 d sb sa
  | 17 => fDba .fmaxBf16x2 d sb sa
  | 18 => fDba .fminF16x2 d sb sa
  | 19 => fDba .fmaxF16x2 d sb sa
  | 20 | 21 | 22 | 23 => fDa (.cvtF16F32 (rnd op)) d sb sa
  | 24 | 25 | 26 | 27 => fDa (.cvtBf16F32 (rnd op)) d sb sa
  | 28 | 29 | 30 | 31 => fDa (.cvtBf16F16 (rnd op)) d sb sa
  | 32 | 33 | 34 | 35 => fDa (.cvtF16Bf16 (rnd op)) d sb sa
  | 36 => fDa .cvtF32F16 d sb sa
  | 37 => fDa .cvtF32Bf16 d sb sa
  | 38 => fDba .packBf16x2F32 d sb sa
  | 39 => fDba .packF16x2F32 d sb sa
  | 40 | 41 | 42 | 43 => fDta (.cvtIntF32 (rnd op)) d sb sa
  | 44 | 45 | 46 | 47 => fDta (.cvtIntF16 (rnd op)) d sb sa
  | 48 | 49 | 50 | 51 => fDta (.cvtIntBf16 (rnd op)) d sb sa
  | 52 | 53 | 54 | 55 => fDta (.cvtF32Int (rnd op)) d sb sa
  | 56 | 57 | 58 | 59 => fDta (.cvtF16Int (rnd op)) d sb sa
  | 60 | 61 | 62 | 63 => fDta (.cvtBf16Int (rnd op)) d sb sa
  | _ => .error .unassigned

/-- Family 4 of format R: the slots that R153 lists. -/
def family4 (op : BitVec 6) (d : BitVec 4) (sb sa : BitVec 9) : Except IllKind Instr :=
  match op.toNat with
  | 0 => fDa .rcpF32 d sb sa
  | 1 => fDa .rsqF32 d sb sa
  | 2 => fDa .sqrtF32 d sb sa
  | 3 => fDa .ex2F32 d sb sa
  | 4 => fDa .lg2F32 d sb sa
  | 5 => fDa .sinF32 d sb sa
  | 6 => fDa .cosF32 d sb sa
  | 8 => fDa .rcpF16 d sb sa
  | 9 => fDa .rsqF16 d sb sa
  | 10 => fDa .sqrtF16 d sb sa
  | 11 => fDa .ex2F16 d sb sa
  | 12 => fDa .lg2F16 d sb sa
  | 13 => fDa .sinF16 d sb sa
  | 14 => fDa .cosF16 d sb sa
  | _ => .error .unassigned

/-- Family 5 of format R: the slots that R154 lists. -/
def family5 (op : BitVec 6) (d : BitVec 4) (sb sa : BitVec 9) : Except IllKind Instr :=
  match op.toNat with
  | 0 => fLaneSel d sb sa
  | 4 => fDa .voteAny d sb sa
  | 5 => fDa .voteAll d sb sa
  | 6 => fDa .voteBal d sb sa
  | 7 => fDa .voteUni d sb sa
  | 8 => fD .elect d sb sa
  | 12 => fSreg d sb sa
  | 13 => fDba .msig d sb sa
  | 14 => fA .mark d sb sa
  | _ => .error .unassigned

/-- Family 6 of format R: the slots that R155 lists. -/
def family6 (op : BitVec 6) (d : BitVec 4) (sb sa : BitVec 9) : Except IllKind Instr :=
  match op.toNat with
  | 0 => fRsvSet d sb sa
  | 1 => fA .rsvFree d sb sa
  | 2 => fDa .rsvGet d sb sa
  | 4 => fFba .mxld d sb sa
  | 8 => fFa .mmaBf16 d sb sa
  | 9 => fFa .mmaF16 d sb sa
  | 10 => fFa .mmaK d sb sa
  | 11 => fFba .mmaKOl d sb sa
  | 12 => fFa .mmaBf16G d sb sa
  | 13 => fFa .mmaF16G d sb sa
  | 14 => fFa .mmaKG d sb sa
  | 15 => fFba .mmaKOlG d sb sa
  | 16 => fA .gangSet d sb sa
  | 17 => fD .gangGet d sb sa
  | 20 => fA .accZero d sb sa
  | 21 => fFba .accLd d sb sa
  | 22 => fFba .accSt d sb sa
  | 23 => fDfa .accRd d sb sa
  | 24 => fA .accFree d sb sa
  | 28 => fFba .groveVt d sb sa
  | 29 => fFa .groveSwap d sb sa
  | 30 => fDfa .groveRd d sb sa
  | _ => .error .unassigned

/-- Family 7 of format R: the slots that R156 lists. -/
def family7 (op : BitVec 6) (d : BitVec 4) (sb sa : BitVec 9) : Except IllKind Instr :=
  match op.toNat with
  | 0 | 1 | 2 | 3 => fAtm .atmAddZ32 op d sb sa
  | 4 | 5 | 6 | 7 => fAtm .atmAddF32 op d sb sa
  | 8 | 9 | 10 | 11 => fAtm .atmMinS32 op d sb sa
  | 12 | 13 | 14 | 15 => fAtm .atmMaxS32 op d sb sa
  | 16 | 17 | 18 | 19 => fAtm .atmMinZ32 op d sb sa
  | 20 | 21 | 22 | 23 => fAtm .atmMaxZ32 op d sb sa
  | 24 | 25 | 26 | 27 => fAtm .atmAndB32 op d sb sa
  | 28 | 29 | 30 | 31 => fAtm .atmOrB32 op d sb sa
  | 32 | 33 | 34 | 35 => fAtm .atmXorB32 op d sb sa
  | 36 | 37 | 38 | 39 => fAtm .atmExchB32 op d sb sa
  | 40 | 41 | 42 | 43 => fAtm .atmCasB32 op d sb sa
  | 44 => fDcfa .ldAcqB32 d sb sa
  | 45 => fDcfa .ldAcqB64 d sb sa
  | 46 => fCfba .stRelB32 d sb sa
  | 47 => fCfba .stRelB64 d sb sa
  | 48 => fDcfba .monWaitEq d sb sa
  | 49 => fDcfba .monWaitNe d sb sa
  | 50 => fDcfba .monWaitGez d sb sa
  | 51 => fDfba .arriveInit d sb sa
  | 52 => fDfba .arriveAdd d sb sa
  | 53 => fDcfba .arriveWait d sb sa
  | 54 => fFence d sb sa
  | 55 => fFenceX d sb sa
  | 56 => fDfba .hint d sb sa
  | 57 => fDfba .pgset d sb sa
  | _ => .error .unassigned

/-- The fused forms of format F (R157). -/
def formF (op : BitVec 3) (d : BitVec 4) (sc : BitVec 5) (sb sa : BitVec 9) : Except IllKind Instr :=
  match op.toNat with
  | 0 => .ok (.fmaF32 d sc (src sb) (src sa))
  | 1 => .ok (.fmsF32 d sc (src sb) (src sa))
  | 2 => .ok (.fmaF16 d sc (src sb) (src sa))
  | 3 => .ok (.fmaBf16x2 d sc (src sb) (src sa))
  | 4 => .ok (.fmaF16x2 d sc (src sb) (src sa))
  | 5 => .ok (.imadS32 d sc (src sb) (src sa))
  | 6 => .ok (.imadZ32 d sc (src sb) (src sa))
  | 7 => .ok (.shladd d sc (src sb) (src sa))
  | _ => .error .unassigned

/-- The immediate forms of format I (R158). -/
def formI (op : BitVec 5) (d : BitVec 4) (i : BitVec 11) (sa : BitVec 9) : Except IllKind Instr :=
  match op.toNat with
  | 0 => .ok (.addS32Imm d i (src sa))
  | 1 => .ok (.addS32SatImm d i (src sa))
  | 2 => .ok (.mulS32Imm d i (src sa))
  | 3 => .ok (.andB32Imm d i (src sa))
  | 4 => .ok (.orB32Imm d i (src sa))
  | 5 => .ok (.xorB32Imm d i (src sa))
  | 6 => .ok (.shlB32Imm d i (src sa))
  | 7 => .ok (.shrZ32Imm d i (src sa))
  | 8 => .ok (.shrS32Imm d i (src sa))
  | 9 => .ok (.minS32Imm d i (src sa))
  | 10 => .ok (.maxS32Imm d i (src sa))
  | 11 => fDi .movB32Imm d i sa
  | 12 => fDi .adr d i sa
  | 16 => .ok (.isetEqB32Imm d i (src sa))
  | 17 => .ok (.isetNeB32Imm d i (src sa))
  | 18 => .ok (.isetLtS32Imm d i (src sa))
  | 19 => .ok (.isetLeS32Imm d i (src sa))
  | 20 => .ok (.isetGtS32Imm d i (src sa))
  | 21 => .ok (.isetGeS32Imm d i (src sa))
  | 22 => .ok (.isetLtZ32Imm d i (src sa))
  | 23 => .ok (.isetLeZ32Imm d i (src sa))
  | 24 => .ok (.isetGtZ32Imm d i (src sa))
  | 25 => .ok (.isetGeZ32Imm d i (src sa))
  | _ => .error .unassigned

/-- The memory and engine forms of format M (R159). -/
def formM (op : BitVec 5) (r : BitVec 4) (fs : BitVec 1) (b x : BitVec 9) : Except IllKind Instr :=
  match op.toNat with
  | 0 => .ok (.ldS8 r (side fs) (src b) x)
  | 1 => .ok (.ldZ8 r (side fs) (src b) x)
  | 2 => .ok (.ldS16 r (side fs) (src b) x)
  | 3 => .ok (.ldZ16 r (side fs) (src b) x)
  | 4 => .ok (.ldB32 r (side fs) (src b) x)
  | 5 => .ok (.ldB64 r (side fs) (src b) x)
  | 6 => .ok (.ldB128 r (side fs) (src b) x)
  | 7 => .ok (.stB8 r (side fs) (src b) x)
  | 8 => .ok (.stB16 r (side fs) (src b) x)
  | 9 => .ok (.stB32 r (side fs) (src b) x)
  | 10 => .ok (.stB64 r (side fs) (src b) x)
  | 11 => .ok (.stB128 r (side fs) (src b) x)
  | 12 => .ok (.ldsB32 r (side fs) (src b) x)
  | 13 => .ok (.ldsB64 r (side fs) (src b) x)
  | 14 => .ok (.ldsB128 r (side fs) (src b) x)
  | 15 => .ok (.stsB32 r (side fs) (src b) x)
  | 16 => .ok (.stsB64 r (side fs) (src b) x)
  | 17 => .ok (.stsB128 r (side fs) (src b) x)
  | 18 => .ok (.ldrB32 r (side fs) (src b) x)
  | 19 => .ok (.ldrB64 r (side fs) (src b) x)
  | 20 => .ok (.strB32 r (side fs) (src b) x)
  | 21 => .ok (.strB64 r (side fs) (src b) x)
  | 22 => .ok (.ldhB32 r (side fs) (src b) x)
  | 23 => .ok (.ldhB64 r (side fs) (src b) x)
  | 24 => .ok (.sthB32 r (side fs) (src b) x)
  | 25 => .ok (.sthB64 r (side fs) (src b) x)
  | 26 => .ok (.gatherB32 r (side fs) (src b) x)
  | 27 => .ok (.xfer r (side fs) (src b) x)
  | 28 => .ok (.coll r (side fs) (src b) x)
  | 29 => .ok (.launch r (side fs) (src b) x)
  | 30 => .ok (.groveRow r (side fs) (src b) x)
  | _ => .error .unassigned

/-- The control words and constants of format B (R160). -/
def formB (op : BitVec 4) (i : BitVec 24) : Except IllKind Instr :=
  match op.toNat with
  | 0 => .ok (.bra i)
  | 1 => .ok (.brz i)
  | 2 => .ok (.brnz i)
  | 3 => .ok (.call i)
  | 4 => fNone .ret i
  | 5 => fNone .endThread i
  | 6 => .ok (.trap i)
  | 7 => .ok (.syscall i)
  | 8 => .ok (.brk i)
  | 9 => .ok (.const i)
  | 10 => .ok (.consthi i)
  | _ => .error .unassigned

/-! ## The formats -/

/-- An instruction word cut into the fields of its format (R138 to R143). -/
inductive Raw where
  | r (fam : BitVec 3) (op : BitVec 6) (dst : BitVec 4) (sb sa : BitVec 9)
  | f (op : BitVec 3) (dst : BitVec 4) (sc : BitVec 5) (sb sa : BitVec 9)
  | i (op : BitVec 5) (dst : BitVec 4) (imm : BitVec 11) (sa : BitVec 9)
  | m (op : BitVec 5) (reg : BitVec 4) (fs : BitVec 1) (base off : BitVec 9)
  | b (op : BitVec 4) (imm : BitVec 24)
deriving DecidableEq, Repr

/-- The leading bits select the format (R138). -/
def Raw.ofWord (w : Word) : Raw :=
  if w.extractLsb' 31 1 = 0#1 then
    .r (w.extractLsb' 28 3) (w.extractLsb' 22 6) (w.extractLsb' 18 4) (w.extractLsb' 9 9) (w.extractLsb' 0 9)
  else if w.extractLsb' 30 2 = 2#2 then
    .f (w.extractLsb' 27 3) (w.extractLsb' 23 4) (w.extractLsb' 18 5) (w.extractLsb' 9 9) (w.extractLsb' 0 9)
  else if w.extractLsb' 29 3 = 6#3 then
    .i (w.extractLsb' 24 5) (w.extractLsb' 20 4) (w.extractLsb' 9 11) (w.extractLsb' 0 9)
  else if w.extractLsb' 28 4 = 14#4 then
    .m (w.extractLsb' 23 5) (w.extractLsb' 19 4) (w.extractLsb' 18 1) (w.extractLsb' 9 9) (w.extractLsb' 0 9)
  else
    .b (w.extractLsb' 24 4) (w.extractLsb' 0 24)

/-- The word of a format's fields (R139 to R143). -/
def Raw.toWord : Raw → Word
  | .r fam op dst sb sa => 0#1 ++ fam ++ op ++ dst ++ sb ++ sa
  | .f op dst sc sb sa => 2#2 ++ op ++ dst ++ sc ++ sb ++ sa
  | .i op dst imm sa => 6#3 ++ op ++ dst ++ imm ++ sa
  | .m op reg fs base off => 14#4 ++ op ++ reg ++ fs ++ base ++ off
  | .b op imm => 15#4 ++ op ++ imm

/-- The class of a slot (R149 to R160). -/
def Raw.cls : Raw → OpClass
  | .r fam op _ _ _ =>
    match fam.toNat with
    | 6 => .mx
    | 7 =>
      match op.toNat with
      | 44 | 45 | 48 | 49 | 50 | 53 => .read
      | _ => .write
    | _ => .alu
  | .f _ _ _ _ _ => .alu
  | .i _ _ _ _ => .alu
  | .m op _ _ _ _ =>
    match op.toNat with
    | 0 | 1 | 2 | 3 | 4 | 5 | 6 | 12 | 13 | 14 | 18 | 19 | 22 | 23 | 26 => .read
    | 27 | 28 | 29 => .async
    | 30 => .mx
    | _ => .write
  | .b op _ =>
    match op.toNat with
    | 9 | 10 => .alu
    | _ => .ctl

/-- The instruction of a format's fields: an unassigned slot and a reserved field are refused (R161 steps 1 and 3). -/
def Raw.instr : Raw → Except IllKind Instr
  | .r fam op dst sb sa =>
    match fam.toNat with
    | 0 => family0 op dst sb sa
    | 1 => family1 op dst sb sa
    | 2 => family2 op dst sb sa
    | 3 => family3 op dst sb sa
    | 4 => family4 op dst sb sa
    | 5 => family5 op dst sb sa
    | 6 => family6 op dst sb sa
    | _ => family7 op dst sb sa
  | .f op dst sc sb sa => formF op dst sc sb sa
  | .i op dst imm sa => formI op dst imm sa
  | .m op reg fs base off => formM op reg fs base off
  | .b op imm => formB op imm


/-- The format and fields of each instruction, from the maps R149 to R160; events have none. -/
def Instr.toRaw : Instr → Option Raw
  | .addS32 d b a => some (.r 0 0 d b.pack a.pack)
  | .addS32Sat d b a => some (.r 0 1 d b.pack a.pack)
  | .addZ32Sat d b a => some (.r 0 2 d b.pack a.pack)
  | .subS32 d b a => some (.r 0 3 d b.pack a.pack)
  | .subS32Sat d b a => some (.r 0 4 d b.pack a.pack)
  | .subZ32Sat d b a => some (.r 0 5 d b.pack a.pack)
  | .mulS32 d b a => some (.r 0 6 d b.pack a.pack)
  | .mulhiS32 d b a => some (.r 0 7 d b.pack a.pack)
  | .mulhiZ32 d b a => some (.r 0 8 d b.pack a.pack)
  | .minS32 d b a => some (.r 0 9 d b.pack a.pack)
  | .maxS32 d b a => some (.r 0 10 d b.pack a.pack)
  | .minZ32 d b a => some (.r 0 11 d b.pack a.pack)
  | .maxZ32 d b a => some (.r 0 12 d b.pack a.pack)
  | .absS32 d a => some (.r 0 13 d 0 a.pack)
  | .negS32 d a => some (.r 0 14 d 0 a.pack)
  | .movB32 d a => some (.r 0 15 d 0 a.pack)
  | .andB32 d b a => some (.r 0 16 d b.pack a.pack)
  | .orB32 d b a => some (.r 0 17 d b.pack a.pack)
  | .xorB32 d b a => some (.r 0 18 d b.pack a.pack)
  | .andnB32 d b a => some (.r 0 19 d b.pack a.pack)
  | .notB32 d a => some (.r 0 20 d 0 a.pack)
  | .addB64 d b a => some (.r 0 21 d b.pack a.pack)
  | .subB64 d b a => some (.r 0 22 d b.pack a.pack)
  | .mulwS32 d b a => some (.r 0 23 d b.pack a.pack)
  | .mulwZ32 d b a => some (.r 0 24 d b.pack a.pack)
  | .divS32 d b a => some (.r 0 25 d b.pack a.pack)
  | .divZ32 d b a => some (.r 0 26 d b.pack a.pack)
  | .remS32 d b a => some (.r 0 27 d b.pack a.pack)
  | .remZ32 d b a => some (.r 0 28 d b.pack a.pack)
  | .shlB32 d b a => some (.r 1 0 d b.pack a.pack)
  | .shrZ32 d b a => some (.r 1 1 d b.pack a.pack)
  | .shrS32 d b a => some (.r 1 2 d b.pack a.pack)
  | .rolB32 d b a => some (.r 1 3 d b.pack a.pack)
  | .shlB64 d b a => some (.r 1 4 d b.pack a.pack)
  | .shrZ64 d b a => some (.r 1 5 d b.pack a.pack)
  | .shrS64 d b a => some (.r 1 6 d b.pack a.pack)
  | .popcB32 d a => some (.r 1 8 d 0 a.pack)
  | .clzB32 d a => some (.r 1 9 d 0 a.pack)
  | .ctzB32 d a => some (.r 1 10 d 0 a.pack)
  | .brevB32 d a => some (.r 1 11 d 0 a.pack)
  | .bfxS32 d b a => some (.r 1 12 d b.pack a.pack)
  | .bfxZ32 d b a => some (.r 1 13 d b.pack a.pack)
  | .isetEqB32 d b a => some (.r 1 16 d b.pack a.pack)
  | .isetNeB32 d b a => some (.r 1 17 d b.pack a.pack)
  | .isetLtS32 d b a => some (.r 1 18 d b.pack a.pack)
  | .isetLeS32 d b a => some (.r 1 19 d b.pack a.pack)
  | .isetGtS32 d b a => some (.r 1 20 d b.pack a.pack)
  | .isetGeS32 d b a => some (.r 1 21 d b.pack a.pack)
  | .isetLtZ32 d b a => some (.r 1 22 d b.pack a.pack)
  | .isetLeZ32 d b a => some (.r 1 23 d b.pack a.pack)
  | .isetGtZ32 d b a => some (.r 1 24 d b.pack a.pack)
  | .isetGeZ32 d b a => some (.r 1 25 d b.pack a.pack)
  | .selB32 d b a => some (.r 1 28 d b.pack a.pack)
  | .faddF32 m d b a => some (.r 2 (0 + m.code) d b.pack a.pack)
  | .fsubF32 m d b a => some (.r 2 (4 + m.code) d b.pack a.pack)
  | .fmulF32 m d b a => some (.r 2 (8 + m.code) d b.pack a.pack)
  | .faddF16 m d b a => some (.r 2 (12 + m.code) d b.pack a.pack)
  | .fsubF16 m d b a => some (.r 2 (16 + m.code) d b.pack a.pack)
  | .fmulF16 m d b a => some (.r 2 (20 + m.code) d b.pack a.pack)
  | .fminF32 d b a => some (.r 2 24 d b.pack a.pack)
  | .fmaxF32 d b a => some (.r 2 25 d b.pack a.pack)
  | .fminF16 d b a => some (.r 2 26 d b.pack a.pack)
  | .fmaxF16 d b a => some (.r 2 27 d b.pack a.pack)
  | .fabsF32 d a => some (.r 2 28 d 0 a.pack)
  | .fnegF32 d a => some (.r 2 29 d 0 a.pack)
  | .fabsF16 d a => some (.r 2 30 d 0 a.pack)
  | .fnegF16 d a => some (.r 2 31 d 0 a.pack)
  | .fsetF32 c d b a => some (.r 2 (32 + c.code) d b.pack a.pack)
  | .fsetF16 c d b a => some (.r 2 (40 + c.code) d b.pack a.pack)
  | .frndF32 m d a => some (.r 2 (48 + m.code) d 0 a.pack)
  | .frndF16 m d a => some (.r 2 (52 + m.code) d 0 a.pack)
  | .faddBf16x2 m d b a => some (.r 3 (0 + m.code) d b.pack a.pack)
  | .fmulBf16x2 m d b a => some (.r 3 (4 + m.code) d b.pack a.pack)
  | .faddF16x2 m d b a => some (.r 3 (8 + m.code) d b.pack a.pack)
  | .fmulF16x2 m d b a => some (.r 3 (12 + m.code) d b.pack a.pack)
  | .fminBf16x2 d b a => some (.r 3 16 d b.pack a.pack)
  | .fmaxBf16x2 d b a => some (.r 3 17 d b.pack a.pack)
  | .fminF16x2 d b a => some (.r 3 18 d b.pack a.pack)
  | .fmaxF16x2 d b a => some (.r 3 19 d b.pack a.pack)
  | .cvtF16F32 m d a => some (.r 3 (20 + m.code) d 0 a.pack)
  | .cvtBf16F32 m d a => some (.r 3 (24 + m.code) d 0 a.pack)
  | .cvtBf16F16 m d a => some (.r 3 (28 + m.code) d 0 a.pack)
  | .cvtF16Bf16 m d a => some (.r 3 (32 + m.code) d 0 a.pack)
  | .cvtF32F16 d a => some (.r 3 36 d 0 a.pack)
  | .cvtF32Bf16 d a => some (.r 3 37 d 0 a.pack)
  | .packBf16x2F32 d b a => some (.r 3 38 d b.pack a.pack)
  | .packF16x2F32 d b a => some (.r 3 39 d b.pack a.pack)
  | .cvtIntF32 m d t a => some (.r 3 (40 + m.code) d t.code a.pack)
  | .cvtIntF16 m d t a => some (.r 3 (44 + m.code) d t.code a.pack)
  | .cvtIntBf16 m d t a => some (.r 3 (48 + m.code) d t.code a.pack)
  | .cvtF32Int m d t a => some (.r 3 (52 + m.code) d t.code a.pack)
  | .cvtF16Int m d t a => some (.r 3 (56 + m.code) d t.code a.pack)
  | .cvtBf16Int m d t a => some (.r 3 (60 + m.code) d t.code a.pack)
  | .rcpF32 d a => some (.r 4 0 d 0 a.pack)
  | .rsqF32 d a => some (.r 4 1 d 0 a.pack)
  | .sqrtF32 d a => some (.r 4 2 d 0 a.pack)
  | .ex2F32 d a => some (.r 4 3 d 0 a.pack)
  | .lg2F32 d a => some (.r 4 4 d 0 a.pack)
  | .sinF32 d a => some (.r 4 5 d 0 a.pack)
  | .cosF32 d a => some (.r 4 6 d 0 a.pack)
  | .rcpF16 d a => some (.r 4 8 d 0 a.pack)
  | .rsqF16 d a => some (.r 4 9 d 0 a.pack)
  | .sqrtF16 d a => some (.r 4 10 d 0 a.pack)
  | .ex2F16 d a => some (.r 4 11 d 0 a.pack)
  | .lg2F16 d a => some (.r 4 12 d 0 a.pack)
  | .sinF16 d a => some (.r 4 13 d 0 a.pack)
  | .cosF16 d a => some (.r 4 14 d 0 a.pack)
  | .laneSelB32 d b a => some (.r 5 0 d b.pack (0#4 ++ a))
  | .voteAny d a => some (.r 5 4 d 0 a.pack)
  | .voteAll d a => some (.r 5 5 d 0 a.pack)
  | .voteBal d a => some (.r 5 6 d 0 a.pack)
  | .voteUni d a => some (.r 5 7 d 0 a.pack)
  | .elect d => some (.r 5 8 d 0 0)
  | .sreg d i => some (.r 5 12 d 0 i)
  | .msig d b a => some (.r 5 13 d b.pack a.pack)
  | .mark a => some (.r 5 14 0 0 a.pack)
  | .rsvSet d b a => some (.r 6 0 d (modField 0 0 b) a.pack)
  | .rsvFree a => some (.r 6 1 0 0 a.pack)
  | .rsvGet d a => some (.r 6 2 d 0 a.pack)
  | .mxld f b a => some (.r 6 4 0 (modField 0 f.code b) a.pack)
  | .mmaBf16 f a => some (.r 6 8 0 (modField 0 f.code 0) a.pack)
  | .mmaF16 f a => some (.r 6 9 0 (modField 0 f.code 0) a.pack)
  | .mmaK f a => some (.r 6 10 0 (modField 0 f.code 0) a.pack)
  | .mmaKOl f b a => some (.r 6 11 0 (modField 0 f.code b) a.pack)
  | .mmaBf16G f a => some (.r 6 12 0 (modField 0 f.code 0) a.pack)
  | .mmaF16G f a => some (.r 6 13 0 (modField 0 f.code 0) a.pack)
  | .mmaKG f a => some (.r 6 14 0 (modField 0 f.code 0) a.pack)
  | .mmaKOlG f b a => some (.r 6 15 0 (modField 0 f.code b) a.pack)
  | .gangSet a => some (.r 6 16 0 0 a.pack)
  | .gangGet d => some (.r 6 17 d 0 0)
  | .accZero a => some (.r 6 20 0 0 a.pack)
  | .accLd f b a => some (.r 6 21 0 (modField 0 f.code b) a.pack)
  | .accSt f b a => some (.r 6 22 0 (modField 0 f.code b) a.pack)
  | .accRd d f a => some (.r 6 23 d (modField 0 f.code 0) a.pack)
  | .accFree a => some (.r 6 24 0 0 a.pack)
  | .groveVt f b a => some (.r 6 28 0 (modField 0 f.code b) a.pack)
  | .groveSwap f a => some (.r 6 29 0 (modField 0 f.code 0) a.pack)
  | .groveRd d f a => some (.r 6 30 d (modField 0 f.code 0) a.pack)
  | .atmAddZ32 q d c f b a => some (.r 7 (0 + q.code) d (modField c.code f.code b) a.pack)
  | .atmAddF32 q d c f b a => some (.r 7 (4 + q.code) d (modField c.code f.code b) a.pack)
  | .atmMinS32 q d c f b a => some (.r 7 (8 + q.code) d (modField c.code f.code b) a.pack)
  | .atmMaxS32 q d c f b a => some (.r 7 (12 + q.code) d (modField c.code f.code b) a.pack)
  | .atmMinZ32 q d c f b a => some (.r 7 (16 + q.code) d (modField c.code f.code b) a.pack)
  | .atmMaxZ32 q d c f b a => some (.r 7 (20 + q.code) d (modField c.code f.code b) a.pack)
  | .atmAndB32 q d c f b a => some (.r 7 (24 + q.code) d (modField c.code f.code b) a.pack)
  | .atmOrB32 q d c f b a => some (.r 7 (28 + q.code) d (modField c.code f.code b) a.pack)
  | .atmXorB32 q d c f b a => some (.r 7 (32 + q.code) d (modField c.code f.code b) a.pack)
  | .atmExchB32 q d c f b a => some (.r 7 (36 + q.code) d (modField c.code f.code b) a.pack)
  | .atmCasB32 q d c f b a => some (.r 7 (40 + q.code) d (modField c.code f.code b) a.pack)
  | .ldAcqB32 d c f a => some (.r 7 44 d (modField c.code f.code 0) a.pack)
  | .ldAcqB64 d c f a => some (.r 7 45 d (modField c.code f.code 0) a.pack)
  | .stRelB32 c f b a => some (.r 7 46 0 (modField c.code f.code b) a.pack)
  | .stRelB64 c f b a => some (.r 7 47 0 (modField c.code f.code b) a.pack)
  | .monWaitEq d c f b a => some (.r 7 48 d (modField c.code f.code b) a.pack)
  | .monWaitNe d c f b a => some (.r 7 49 d (modField c.code f.code b) a.pack)
  | .monWaitGez d c f b a => some (.r 7 50 d (modField c.code f.code b) a.pack)
  | .arriveInit d f b a => some (.r 7 51 d (modField 0 f.code b) a.pack)
  | .arriveAdd d f b a => some (.r 7 52 d (modField 0 f.code b) a.pack)
  | .arriveWait d c f b a => some (.r 7 53 d (modField c.code f.code b) a.pack)
  | .fence c => some (.r 7 54 0 (modField c.code 0 0) 0)
  | .fenceX c r p => some (.r 7 55 0 (modField c.code 0 (0#2 ++ r.code)) (0#6 ++ p.code))
  | .hint d f b a => some (.r 7 56 d (modField 0 f.code b) a.pack)
  | .pgset d f b a => some (.r 7 57 d (modField 0 f.code b) a.pack)
  | .fmaF32 d c b a => some (.f 0 d c b.pack a.pack)
  | .fmsF32 d c b a => some (.f 1 d c b.pack a.pack)
  | .fmaF16 d c b a => some (.f 2 d c b.pack a.pack)
  | .fmaBf16x2 d c b a => some (.f 3 d c b.pack a.pack)
  | .fmaF16x2 d c b a => some (.f 4 d c b.pack a.pack)
  | .imadS32 d c b a => some (.f 5 d c b.pack a.pack)
  | .imadZ32 d c b a => some (.f 6 d c b.pack a.pack)
  | .shladd d c b a => some (.f 7 d c b.pack a.pack)
  | .addS32Imm d i a => some (.i 0 d i a.pack)
  | .addS32SatImm d i a => some (.i 1 d i a.pack)
  | .mulS32Imm d i a => some (.i 2 d i a.pack)
  | .andB32Imm d i a => some (.i 3 d i a.pack)
  | .orB32Imm d i a => some (.i 4 d i a.pack)
  | .xorB32Imm d i a => some (.i 5 d i a.pack)
  | .shlB32Imm d i a => some (.i 6 d i a.pack)
  | .shrZ32Imm d i a => some (.i 7 d i a.pack)
  | .shrS32Imm d i a => some (.i 8 d i a.pack)
  | .minS32Imm d i a => some (.i 9 d i a.pack)
  | .maxS32Imm d i a => some (.i 10 d i a.pack)
  | .movB32Imm d i => some (.i 11 d i 0)
  | .adr d i => some (.i 12 d i 0)
  | .isetEqB32Imm d i a => some (.i 16 d i a.pack)
  | .isetNeB32Imm d i a => some (.i 17 d i a.pack)
  | .isetLtS32Imm d i a => some (.i 18 d i a.pack)
  | .isetLeS32Imm d i a => some (.i 19 d i a.pack)
  | .isetGtS32Imm d i a => some (.i 20 d i a.pack)
  | .isetGeS32Imm d i a => some (.i 21 d i a.pack)
  | .isetLtZ32Imm d i a => some (.i 22 d i a.pack)
  | .isetLeZ32Imm d i a => some (.i 23 d i a.pack)
  | .isetGtZ32Imm d i a => some (.i 24 d i a.pack)
  | .isetGeZ32Imm d i a => some (.i 25 d i a.pack)
  | .ldS8 r f b x => some (.m 0 r f.code b.pack x)
  | .ldZ8 r f b x => some (.m 1 r f.code b.pack x)
  | .ldS16 r f b x => some (.m 2 r f.code b.pack x)
  | .ldZ16 r f b x => some (.m 3 r f.code b.pack x)
  | .ldB32 r f b x => some (.m 4 r f.code b.pack x)
  | .ldB64 r f b x => some (.m 5 r f.code b.pack x)
  | .ldB128 r f b x => some (.m 6 r f.code b.pack x)
  | .stB8 r f b x => some (.m 7 r f.code b.pack x)
  | .stB16 r f b x => some (.m 8 r f.code b.pack x)
  | .stB32 r f b x => some (.m 9 r f.code b.pack x)
  | .stB64 r f b x => some (.m 10 r f.code b.pack x)
  | .stB128 r f b x => some (.m 11 r f.code b.pack x)
  | .ldsB32 r f b x => some (.m 12 r f.code b.pack x)
  | .ldsB64 r f b x => some (.m 13 r f.code b.pack x)
  | .ldsB128 r f b x => some (.m 14 r f.code b.pack x)
  | .stsB32 r f b x => some (.m 15 r f.code b.pack x)
  | .stsB64 r f b x => some (.m 16 r f.code b.pack x)
  | .stsB128 r f b x => some (.m 17 r f.code b.pack x)
  | .ldrB32 r f b x => some (.m 18 r f.code b.pack x)
  | .ldrB64 r f b x => some (.m 19 r f.code b.pack x)
  | .strB32 r f b x => some (.m 20 r f.code b.pack x)
  | .strB64 r f b x => some (.m 21 r f.code b.pack x)
  | .ldhB32 r f b x => some (.m 22 r f.code b.pack x)
  | .ldhB64 r f b x => some (.m 23 r f.code b.pack x)
  | .sthB32 r f b x => some (.m 24 r f.code b.pack x)
  | .sthB64 r f b x => some (.m 25 r f.code b.pack x)
  | .gatherB32 r f b x => some (.m 26 r f.code b.pack x)
  | .xfer r f b x => some (.m 27 r f.code b.pack x)
  | .coll r f b x => some (.m 28 r f.code b.pack x)
  | .launch r f b x => some (.m 29 r f.code b.pack x)
  | .groveRow r f b x => some (.m 30 r f.code b.pack x)
  | .bra i => some (.b 0 i)
  | .brz i => some (.b 1 i)
  | .brnz i => some (.b 2 i)
  | .call i => some (.b 3 i)
  | .ret => some (.b 4 0)
  | .endThread => some (.b 5 0)
  | .trap i => some (.b 6 i)
  | .syscall i => some (.b 7 i)
  | .brk i => some (.b 8 i)
  | .const i => some (.b 9 i)
  | .consthi i => some (.b 10 i)
  | .bundleTurn _ _ => none
  | .bundleAccept _ _ => none
  | .resultDeliver _ _ => none
  | .workgroupFinish _ => none
  | .clusterPlace => none
  | .laneFrameMove _ => none
  | .scratchFrameEmpty _ _ => none
  | .workgroupStart _ => none
  | .translationWalk _ _ => none
  | .translationExpiry _ _ _ => none
  | .frameAccess _ _ => none
  | .homeSliceAccess _ _ => none
  | .frameRemap _ => none
  | .placementDone _ => none
  | .invalidation _ => none
  | .invalidationAck _ => none
  | .invalidationResend _ => none
  | .writeQueueDepart _ _ => none
  | .hbmWriteCharge _ => none
  | .writeLaneDone _ _ _ => none
  | .windowBoundary _ _ => none
  | .codeSwitchBoundary _ _ _ _ _ => none
  | .jbudWrite _ _ => none
  | .hcfgWrite _ _ => none
  | .poolSlotTake _ => none
  | .capReadReturn _ _ _ => none
  | .capReadTimeout _ _ => none
  | .migrationComplete _ => none
  | .migrationDeadline _ _ => none
  | .directReadReturn _ _ _ => none
  | .loadReturn _ _ => none
  | .atomicPerform _ _ => none
  | .atomicReply _ _ => none
  | .atomicTimeout _ _ => none
  | .monitorRecheck _ => none
  | .monitorStorageError _ _ => none
  | .fenceComplete _ _ => none
  | .pageAttrPage _ => none
  | .atsTranslationCompletion _ _ _ => none
  | .atsTimeout _ _ => none
  | .pageRequestGroupResponse _ _ _ => none
  | .atsInvalidationRequest _ _ _ => none
  | .invalidationCompletion _ => none
  | .hostReadTimeout _ _ _ => none
  | .engineEntryStart _ _ => none
  | .engineEntryFinish _ _ => none
  | .groveLaneDone _ _ => none
  | .xferPartApplied _ _ => none
  | .collChunkDone _ _ => none
  | .launchRecordCopy _ _ => none
  | .callRingPost _ _ => none
  | .syscallReturn _ _ => none
  | .qnotifyWrite _ _ => none
  | .queueEntryFetch _ => none
  | .queueEntryRefetch _ => none
  | .qerrWrite _ _ => none
  | .sliceExpiry => none
  | .sliceIdleEnd => none
  | .mcallqRead _ _ => none
  | .mmsgaRead _ _ => none
  | .mntpendWrite _ _ => none
  | .notifyWrite _ _ _ => none
  | .windowRegisterWrite _ _ _ _ _ => none
  | .windowEnd _ _ _ => none
  | .windowUnpark _ _ _ => none
  | .mastLoadStore _ _ _ _ _ _ => none
  | .mastAmo _ _ _ _ _ _ _ _ => none
  | .mastLr _ _ _ _ => none
  | .mastSc _ _ _ _ _ => none
  | .mastFence _ _ => none
  | .hostMemRead _ _ _ _ => none
  | .hostMemWrite _ _ _ => none
  | .backInvalidateResponse _ => none
  | .cxlCacheSnoop _ _ => none
  | .readCapabilityWord _ => none
  | .setCtxtab _ _ => none
  | .writeQuantumEntry _ _ _ _ => none
  | .writeFabricGroup _ _ _ _ _ _ => none
  | .writeHostKeyTable _ _ _ => none
  | .readDieState _ _ => none
  | .readMeasurement _ => none
  | .writeBootaddr _ _ => none
  | .copyRecords _ _ _ _ _ => none
  | .readSealWord _ _ => none
  | .rearmCapture _ _ => none
  | .writeRctl _ _ _ => none
  | .readRctl _ _ => none
  | .dbgctlWrite _ _ => none
  | .dbgctlRead _ => none
  | .haltreq _ => none
  | .undoLogClear _ _ => none
  | .stepBack _ _ _ _ => none
  | .haltStatusRead _ => none
  | .contextResume _ => none
  | .contextEnd _ => none
  | .abandonBusySequence _ _ _ => none
  | .setMirrorRange _ _ _ _ _ => none
  | .readPoisonEntry _ _ => none
  | .clearPoisonEntry _ _ => none
  | .writeKeySlot _ _ _ => none
  | .readRasCounters _ _ _ _ => none
  | .readLostBlock _ _ _ _ => none
  | .clearLostBlock _ _ _ _ => none
  | .abandonEngineEntry _ _ => none
  | .armGangLaunch _ _ _ => none
  | .readGangStatus _ _ => none
  | .copyCapsuleSummary _ _ _ => none
  | .copyCapsuleSlot _ _ _ _ _ => none
  | .releaseCapsuleSlot _ _ => none
  | .warmResetDie _ _ _ => none
  | .readBootCode _ => none
  | .mailboxUnknownCommand _ _ => none
  | .registerWrite _ _ => none
  | .packageReset _ _ => none
  | .bootBlockFetch _ _ => none
  | .dieStateChange _ _ => none
  | .powerArbiterTick _ _ => none
  | .thermalCooldown _ => none
  | .packageOverdraw => none
  | .coolantLoss _ => none
  | .supplyFault _ => none
  | .stallSample _ => none
  | .timebaseWrap => none
  | .lostRecord _ => none
  | .haltLineArrive _ _ => none
  | .capsuleAssembly => none
  | .busyWatchdogExpiry _ => none
  | .gangWatchdogExpiry _ => none
  | .flitCrcError _ _ => none
  | .linkLaneFailure _ _ _ => none
  | .linkDown _ _ _ => none
  | .dieLost _ => none
  | .fabricPortFailure _ => none
  | .collMemberAbsent _ _ _ => none
  | .gangAck _ _ => none
  | .gangDeadline _ => none
  | .illegalInstruction _ _ => none
  | .demotionComplete _ => none
  | .linkComesBack _ _ => none
  | .portRemovedFromTree _ => none
  | .powerLoss => none
  | .functionLevelReset _ => none

/-! ## Decoding a word -/

/-- A word by itself, with no clause around it: the checks 1, 3 and 4 of R161. -/
def decodeWord (w : Word) : Except IllKind Instr :=
  match (Raw.ofWord w).instr with
  | .error k => .error k
  | .ok i => if i.wellFormed then .ok i else .error .operand

/-- R136: a word's class equals its clause's CLASS, unless it is a control word standing last; a control word stands
only last. -/
def classFits (c : OpClass) (clauseClass : BitVec 3) (last : Bool) : Bool :=
  if c = .ctl then last else c.code == clauseClass

/-- A word inside its clause: the checks of R161 in their order, the first failing one deciding. -/
def decodeIn (clauseClass : BitVec 3) (last : Bool) (w : Word) : Except IllKind Instr :=
  match (Raw.ofWord w).instr with
  | .error .unassigned => .error .unassigned
  | r =>
    if classFits (Raw.ofWord w).cls clauseClass last then
      match r with
      | .error k => .error k
      | .ok i => if i.wellFormed then .ok i else .error .operand
    else .error .wrongClass

/-- Four bytes, lowest address first, as a word (R7: little-endian). -/
def wordOfBytes (b0 b1 b2 b3 : Byte) : Word := b3 ++ b2 ++ b1 ++ b0

/-- Decoding of any bytes: one word from the front, and the rest. -/
def decodeBytes : List Byte → Except DecodeError (Instr × List Byte)
  | b0 :: b1 :: b2 :: b3 :: rest =>
    match decodeWord (wordOfBytes b0 b1 b2 b3) with
    | .ok i => .ok (i, rest)
    | .error k => .error (.ill k)
  | _ => .error .short

/-- The four bytes of a word in memory order (R7). -/
def bytesOfWord (w : Word) : List Byte :=
  [w.extractLsb' 0 8, w.extractLsb' 8 8, w.extractLsb' 16 8, w.extractLsb' 24 8]

/-- The instruction the decoder reads from a table word: every encoded instruction of the Z9 is one 32-bit word. -/
def decodeTableWord (_nbits w : Nat) : Option Instr :=
  match decodeBytes (bytesOfWord (BitVec.ofNat 32 w)) with
  | .ok (i, _) => some i
  | .error _ => none

/-- The word of an instruction; events have no encoding. -/
def encode (i : Instr) : Option Word := i.toRaw.map Raw.toWord

/-- The class of an instruction's word (R136); events have none. -/
def Instr.cls (i : Instr) : Option OpClass := i.toRaw.map Raw.cls

/-! ## Clause headers -/

/-- The fields of a clause header (R134). -/
structure Header where
  hdr : BitVec 3
  yld : Bool
  rg : Bool
  setb : BitVec 4
  seta : BitVec 4
  wait : BitVec 12
  cls : BitVec 3
  count : BitVec 4
deriving DecidableEq, Repr

def Header.ofWord (w : Word) : Header where
  hdr := w.extractLsb' 29 3
  yld := w.extractLsb' 28 1 == 1
  rg := w.extractLsb' 27 1 == 1
  setb := w.extractLsb' 23 4
  seta := w.extractLsb' 19 4
  wait := w.extractLsb' 7 12
  cls := w.extractLsb' 4 3
  count := w.extractLsb' 0 4

/-- A header that R135 lets start: HDR 0b101, COUNT not 0, CLASS below 6, SETA and SETB a flag or 15, and not the same
flag. -/
def Header.legal (h : Header) : Bool :=
  h.hdr == 5 && h.count != 0 && decide (h.cls.toNat < 6) &&
  (decide (h.seta.toNat < 12) || h.seta == 15) && (decide (h.setb.toNat < 12) || h.setb == 15) &&
  !(h.seta == h.setb && decide (h.seta.toNat < 12))

/-- The word of a clause header (R134). -/
def Header.toWord (h : Header) : Word :=
  h.hdr ++ BitVec.ofBool h.yld ++ BitVec.ofBool h.rg ++ h.setb ++ h.seta ++ h.wait ++ h.cls ++ h.count

/-- The flag a side names (R126, R134): none when the field is 15. -/
def Header.flag (h : Header) : Side → Option Nat
  | .a => if h.seta.toNat < 12 then some h.seta.toNat else none
  | .b => if h.setb.toNat < 12 then some h.setb.toNat else none

end Sys2Proof
end

