-- ==== Sys2Proof/Machine/State.lean ====
section
/-!
DEFINITION. Machine/State.lean: the state of the Z9 as plain data, the fault and refusal reasons, and the state after
reset. Everything is a number, a bit vector, a list or a table; an absent key of a table stands for the default that the
reader of the table names. Rules are cited where a piece of state is the spec's; the rest is the model's bookkeeping.
-/
namespace Sys2Proof.Machine

/-! ## Threads and lane frames (R11 to R17) -/

/-- An age slot (R11): its value, the token of the pending write that will fill it (0 when it is not pending), and the
address image of the word that fills it (R350). -/
structure Slot where
  val : Word
  tok : Nat
  pc : DWord
deriving DecidableEq, Repr

/-- A pending write of a named register (R127, R164): the register, the token of the word, whether the word is
long-latency, and its address image. -/
structure NPend where
  reg : Nat
  tok : Nat
  long : Bool
  pc : DWord
deriving DecidableEq, Repr

/-- What a parked thread waits for (R12, R349). -/
inductive Wait where
  | migration (vpn since : Nat)
  | host (page : Nat)
  | monitor (id : Nat)
  | syscall (slot : Nat)
  | latch
deriving DecidableEq, Repr

/-- A thread (R11, R12). `occupied` tells an Ended thread from an Empty lane; `stop` marks a thread that a stop parked
(R359); `n` and `q` hold n0 to n15 and q1 to q16; `flags` counts, for f0 to f11, the unfinished words that selected the
flag (R207); `regroup` marks a thread waiting at a regroup header (R265); `winq` holds window writes to pending slots
until they are filled (R316), by the slot's token. `through` marks a thread that a completed regroup has released at the
header where it stands, so that it does not wait there again (R265). `sysFence` is the operation number up to which flushing reads
of the thread cover the posted host-pointer writes (R90), and `woken` the cause of a wake-up that has come while the context is out, 0
for none (R308, R349). -/
structure Thread where
  pc : DWord
  live : Bool
  parked : Bool
  occupied : Bool
  stop : Bool
  wait : Option Wait
  n : List Word
  q : List Slot
  np : List NPend
  flags : List Nat
  flagPc : List DWord
  stamp : Word
  regroup : Bool
  through : Bool
  winq : Table Word
  sysFence : Nat
  woken : Nat
deriving DecidableEq, Repr

/-- An instruction word as fetched when its bundle was accepted (R136, R137): the word, a failed fetch check with its
stop kind and detail, a page in the capacity tier, or a fetch that has to be made again (R43, R57). -/
inductive Fetched where
  | word (w : Word)
  | bad (kind detail : Nat)
  | cap (vpn : Nat)
  | wait
deriving DecidableEq, Repr

/-- A running clause (R14, R137): the header's address and the copy of it that governs the clause, the number of the
next word, the present lanes, the fetched words, the cycle before which the next word may not issue (R163: at most one
a cycle), the cycle from which the clause has stood at that word, and whether an aging turn formed it. -/
structure Clause where
  hdrAddr : Nat
  hdr : Word
  pos : Nat
  lanes : LaneMask
  words : List Fetched
  nextAt : Nat
  since : Nat
  aging : Bool
deriving DecidableEq, Repr

/-- A bundle offered to the issue slots (R14, R306), with the cycle of its turn and whether an eligible thread was left
outside it (R15). -/
structure Offer where
  pc : DWord
  lanes : LaneMask
  hdr : Word
  turn : Nat
  aging : Bool
  left : Bool
deriving DecidableEq, Repr

/-- A FENCE, or a FENCE.X whose later path is .thr, at which the bundle holds (R222, R223): its place in program order,
its scope and, for FENCE.X, the earlier path. -/
structure FenceHold where
  op : Nat
  scope : Scope
  path : Option Path
deriving DecidableEq, Repr

/-- A SYSCALL at which the bundle holds (R270): its place in program order, the service number, and whether its slot has been written, so
that only the write lane keeps the call from being posted. -/
structure CallHold where
  op : Nat
  svc : Word
  written : Bool
deriving DecidableEq, Repr

/-- A lane frame of a placed workgroup (R14, R15, R18). `lastAccept` is 0 before the first acceptance, else one more
than the cycle of the last; `rows` are the operations that hold a return-slot row (R213, R400); `undo` counts entries
ever appended to the undo log (R368); `still` marks a lane frame that compaction keeps from bundle turns (R29); `callSlot` is the
call-ring slot that the SYSCALL at which the bundle holds has taken (R270 step 1). -/
structure LaneFrame where
  wg : Nat
  wlf : Nat
  threads : Table Thread
  count : Word
  aging : Nat
  clause : Option Clause
  offer : Option Offer
  lastAccept : Nat
  yielding : Bool
  fence : Option FenceHold
  call : Option CallHold
  callSlot : Option Nat
  rows : List Nat
  undo : Nat
  undoBase : Nat
  still : Bool
deriving DecidableEq, Repr

/-! ## Work in flight on a core -/

/-- A fixed-latency result on its way (R163): operation, lane frame, cycle at which it lands, destination register (0 for
none), slots it fills, and each lane's words with the lowest-addressed word first. -/
structure Delivery where
  op : Nat
  lf : Nat
  due : Nat
  reg : Nat
  slots : Nat
  vals : Table (List Word)
deriving DecidableEq, Repr

/-- The operations of R212, R219 and R313 at a location's home. -/
inductive AtomOp where
  | add | addF | mins | maxs | minz | maxz | and | or | xor | exch | cas
  | arriveInit | arriveAdd
deriving DecidableEq, Repr

/-- What a memory operation delivers and when its flag clears (R205, R207, R213, R216). -/
inductive OpKind where
  | load | gather | acquire | host | atomic | monitor | attr
deriving DecidableEq, Repr

/-- Where an access goes: a virtual address of a context, a scratchpad byte (by storage number) or a host address. -/
inductive Space where
  | virt (ctx va : Nat)
  | scr (n : Nat)
  | host (pasid addr : Nat)
deriving DecidableEq, Repr

/-- A memory word in flight: its place in program order, lane frame, workgroup, word address image, kind, present
lanes (for an atomic, those not yet delivered), destination register, width in bytes, sign extension, flag, each lane's
address, the bytes received so far (by lane × 16 + byte), the lanes that consumed poison with the page of the unit (R394),
the cycle of issue, whether it acquires, the lanes on SO pages (R76), and for a GATHER the requests formed (R371). -/
structure MemOp where
  op : Nat
  lf : Nat
  wg : Nat
  pc : DWord
  kind : OpKind
  lanes : LaneMask
  reg : Nat
  width : Nat
  signed : Bool
  flag : Option Nat
  addrs : Table Space
  got : Table Byte
  failed : Table Nat
  cycle : Nat
  acq : Bool
  so : LaneMask
  requests : Nat
deriving DecidableEq, Repr

/-- What a request does at its home. -/
inductive Act where
  | load
  | store
  | atomic (o : AtomOp) (b b2 : Word) (size : Nat)
deriving DecidableEq, Repr

/-- How far a request has come: held in the core, sent toward its home, or taken by its home slice for the write lane. -/
inductive Phase where
  | queued | sent | taken
deriving DecidableEq, Repr

/-- A request of one 128-byte block (R60, R61): a load request, a write-queue entry, an atomic request of one lane, a
scratchpad or host request. `mask` and `data` give the touched bytes and a store's data by offset in the block; `lanes` are
the lanes that touch it, and `who` gives the highest lane of a store that touches each word; `ent` is the translation in hand and `entAt` the cycle at which it was fetched (R45); `left` is the cycle at
which it left the core, or entered the write queue before it left (R401); `rejects` counts rejections in a row (R377). -/
structure Req where
  id : Nat
  op : Nat
  lf : Nat
  wg : Nat
  pc : DWord
  lanes : LaneMask
  act : Act
  space : Space
  mask : BitVec 128
  data : Table Byte
  who : Table Nat
  flag : Option Nat
  ordering : Nat
  acq : Bool
  rel : Option Scope
  path : Path
  engine : Option Nat
  phase : Phase
  ent : Option DWord
  entAt : Nat
  left : Nat
  rejects : Nat
deriving DecidableEq, Repr

/-- A bundle parked in a load of a capacity-tier page, for the deadline path (R69): the word as it would issue, with the bytes of the direct
read that have arrived, the page, whether the direct read is out, and the capacity-tier page that it reads. `reads` gives for a
128-byte block of the address space what the last read of it was (0 first, 1 retry, 2 mirror; R385), plus 4 × the page read; `hdr` is the
copy of the header that governed the clause (R137). -/
structure Reader where
  op : MemOp
  hdr : Word
  vpn : Nat
  issued : Bool
  capPage : Nat
  reads : Table Nat
deriving DecidableEq, Repr

/-- A page-attribute request (R224): the word, its lane values, the pages still to do and what was changed so far. The
cycle `came` is that at which it reached the page in hand (R225); the
step tells how far that page has come: 0 to start, 1 B set and write-backs on their way, 3 evicted and waiting for
acknowledgements, 2 copying down, 4 to 7 stopped at one of these, 9 abandoned. `reads`
counts the blocks that a demotion has read. -/
structure PageReq where
  id : Nat
  core : Nat
  lf : Nat
  wg : Nat
  pc : DWord
  lane : Nat
  op : Nat
  hint : Bool
  ctl : Word
  ctx : Nat
  vpn : Nat
  left : Nat
  changed : Nat
  capNext : Nat
  step : Nat
  came : Nat
  since : Nat
  writes : Nat
  reads : Nat
  fired : Bool
deriving DecidableEq, Repr

/-! ## Matrix, Grove and asynchronous engines (R229 to R262, R274 to R283) -/

/-- A reservation record (R114, R235) with the workgroup that owns it; bits 127:0. -/
structure Rsv where
  bits : BitVec 128
  owner : Nat
deriving DecidableEq, Repr

/-- A Grove table (R251): owner, ACTIVE, and the bindings of banks 0 and 1. -/
structure GroveTab where
  owner : Nat
  active : Bool
  bind0 : DWord
  bind1 : DWord
deriving DecidableEq, Repr

/-- Who owns an accumulator tile (R240, R309). -/
structure Tile where
  owner : Nat
  ctx : Nat
deriving DecidableEq, Repr

/-- A tile's contents in its owner's save area (R373): the core and tile, the owner, the cells from the tile's first byte and
the poisoned units. -/
structure Spill where
  core : Nat
  num : Nat
  tile : Tile
  cells : List Host.Cell
  poison : List Nat
deriving DecidableEq, Repr

/-- The formats of the matrix products. -/
inductive MmaForm where
  | bf16 | f16 | k | kOl
deriving DecidableEq, Repr

/-- What a matrix-queue entry does (R229). -/
inductive MqKind where
  | rsvFree (rec : Nat)
  | mxld (rec va : Nat)
  | mma (form : MmaForm) (opw : Word) (list : Nat) (joint : Bool)
  | accZero (tile : Nat)
  | accLd (tile va : Nat) (bf : Bool)
  | accSt (tile va : Nat) (bf : Bool)
  | accFree (tile : Nat)
  | accRd (sel : Table Word)
  | groveVt (ctl : Word) (va : DWord)
  | groveSwap (tab : Nat)
  | groveRd (sel : Table Word)
  | groveRow (addrs : Table Nat) (active : BitVec 8) (opds : Table Word)
  | short
deriving DecidableEq, Repr

/-- A matrix-queue entry: identity, the commanding bundle with its clause's header (R137), destination register, flag, kind, whether it has started,
its progress (finished chunks, blocks, entries or lanes; then groups), the stop kind of its own fault with its detail
while it is faulted (R410). `exps` holds the block exponents of A and then of B, and `list` the entries of the outlier list,
each as read once before the first element changes (R246, R247); for a GROVE.ROW `list` holds the header and halves of the row in
hand and `acc` its sum over the finished groups (R256). -/
structure MqEntry where
  id : Nat
  lf : Nat
  wg : Nat
  pc : DWord
  lanes : LaneMask
  reg : Nat
  flag : Option Nat
  kind : MqKind
  started : Bool
  finished : Bool
  progress : Nat
  group : Nat
  fault : Option (Nat × Nat)
  exps : Option (List Nat)
  list : Option (List Nat)
  acc : Word
  cycle : Nat
  hdr : Word
deriving DecidableEq, Repr

/-- The completion word of an engine command (R277). -/
inductive Done where
  | none
  | word (va : Nat)
  | arrival (addr : Word)
deriving DecidableEq, Repr

/-- A tensor shape record as read at issue (R275). -/
structure Shape where
  sp : Bool
  base : Nat
  rank : Nat
  esize : Nat
  ext : List Nat
  str : List Nat
  tile : List Nat
deriving DecidableEq, Repr

/-- A collective as its command was read (R281, R329): the fields, the member words of the group then, this member's index and
which of its collectives on the group it is. -/
structure Collective where
  op : Nat
  red : Nat
  efmt : Nat
  group : Nat
  src : Nat
  dsta : Nat
  count : Nat
  root : Nat
  mems : List DWord
  me : Nat
  k : Nat
deriving DecidableEq, Repr

/-- What an asynchronous engine does (R277 to R283). -/
inductive EngKind where
  | xfer (src dst : Shape) (org dc : List Int)
  | coll (x : Collective)
  | launch (bytes : List Byte) (deps : List (Nat × Nat)) (prio : Nat)
deriving DecidableEq, Repr

/-- The input of a member of a collective, read before the member writes any output (R282), for the members of this part that
still need it. -/
structure CollIn where
  group : Nat
  k : Nat
  member : Nat
  data : List Byte
  need : List Nat
deriving DecidableEq, Repr

/-- An asynchronous operation of a core. `progress` counts finished parts or output elements (R371), `sent` how far its writes
have been entered, `data` holds what a collective has read of its input, `ended` marks one whose flag has cleared while its
completion word is still owed, and `missed` gives, for each member that has missed
a beat since the last finished chunk, the cycle of the first and whether it is out of reach now (R427). -/
structure EngOp where
  id : Nat
  lf : Nat
  wg : Nat
  pc : DWord
  lanes : LaneMask
  reg : Nat
  flag : Option Nat
  number : Word
  kind : EngKind
  done : Done
  e : Nat
  progress : Nat
  sent : Nat
  data : List Byte
  ended : Bool
  fault : Option (Nat × Nat)
  cycle : Nat
  missed : Table (Nat × Bool)
deriving DecidableEq, Repr

/-- A cross-path fence that holds later accesses of path `later` (R88). -/
structure XHold where
  id : Nat
  wg : Nat
  earlier : Path
  later : Path
  scope : Scope
deriving DecidableEq, Repr

/-! ## Workgroups and launches (R18 to R25, R300 to R305) -/

/-- A launch (R23, R302, R303). `hostWrites` gives for a host link the operation number of the launch's last posted host-pointer write
on it (R25). -/
structure Launch where
  id : Nat
  number : Word
  ctx : Nat
  entry : Nat
  doneAt : Nat
  x : Nat
  y : Nat
  z : Nat
  wgThreads : Nat
  wgPerCl : Nat
  stages : Nat
  scratch : Nat
  nearGrant : Nat
  tiles : Nat
  prio : Nat
  args : List Word
  source : Nat
  deps : List (Nat × Nat)
  ready : Option Nat
  placed : Nat
  finished : Nat
  posted : Bool
  gang : Bool
  faulted : Bool
  hostWrites : Table Nat
deriving DecidableEq, Repr

/-- A placed workgroup (R18, R19, R52, R249). `lfs` lists its lane frames in WLF order and `scratch` its scratchpad
frames in the order in which they were reserved; `emptying` the
scratchpad frames still to be emptied (R31); `grants` its grant list of near frame numbers with the list's hand. -/
structure Workgroup where
  id : Nat
  launch : Nat
  ctx : Nat
  cluster : Nat
  rank : Nat
  core : Nat
  lfs : List Nat
  threads : Nat
  scratch : List Nat
  emptying : List Nat
  started : Bool
  nearGrant : Nat
  tiles : Nat
  grants : List Nat
  hand : Nat
  gang : Word
  joint : Nat
deriving DecidableEq, Repr

/-- A rendezvous at the gang latch (R27, R250): the workgroups that have arrived with their entries' identities, and the
running cycles counted since the first arrival (R412). -/
structure Latch where
  id : Nat
  launch : Nat
  cluster : Nat
  gang : Word
  joint : Nat
  arrived : List (Nat × Nat)
  first : Nat
  fired : Bool
deriving DecidableEq, Repr

/-! ## Placement (R30 to R57, R287 to R289, R376 to R382) -/

/-- A frame beside its bytes: the seal word's fields (R42; `stamp` is SEAL), last remap cycle, retirement (R378), busy mark (R289), the
directory record (R46) and the held fetches waiting on it (R377). `damaged` and `maskBad` mark an uncorrectable error in the
seal word and in the holder mask, until it is met (R378). -/
structure Frame where
  valid : Bool
  pin : Bool
  ref : Bool
  ctx : Nat
  stamp : BitVec 8
  lastRemap : Option Nat
  retired : Bool
  busy : Bool
  vpn : Nat
  backing : Nat
  holders : BitVec 80
  holds : List (Nat × Nat)
  damaged : Bool
  maskBad : Bool
deriving DecidableEq, Repr

/-- A slot of a die layer (R35): context, virtual page number and a Canopy entry of kind 1. -/
structure DieSlot where
  ctx : Nat
  vpn : Nat
  ent : DWord
deriving DecidableEq, Repr

/-- A home slice's marker for an HBM page (R37 to R39): the frame that holds a W = 1 page, the replicas of a W = 0 page by
die, B as the sequences and requests that hold it, and the migration's busy mark (R68). -/
structure Marker where
  frame : Option Nat
  replicas : Table Nat
  busy : List Nat
  offered : Bool
deriving DecidableEq, Repr

/-- What a placement sequence moves (R48, R50, R288). -/
inductive SeqKind where
  | fill | promotion | eviction
deriving DecidableEq, Repr

/-- A page that leaves a frame: context, virtual page, backing page, its W and D. -/
structure Leaver where
  ctx : Nat
  vpn : Nat
  backing : Nat
  w : Bool
  dirty : Bool
deriving DecidableEq, Repr

/-- The page a sequence displaces from its frame (R288): the slice frame that takes it, if any, and the page that slice frame
gives up for it (R51). -/
structure Victim where
  page : Leaver
  take : Option Nat
  out : Option Leaver
deriving DecidableEq, Repr

/-- A placement sequence (R48, R288). `dst` is the frame filled or emptied, `src` the far frame of a promotion; `writes`
counts write-backs not yet made; `inv` keeps the invalidations of step 6 (frame, holders, context, page); `fired` that its
watchdog has expired (R382); `slots` are the die-layer slots that the page coming in and the page moved hold in reserve (R36);
`remappedAt` is the cycle of the remap; `thr` and `pc` name the thread whose access started it (R348). -/
structure Seq where
  id : Nat
  kind : SeqKind
  core : Nat
  ctx : Nat
  vpn : Nat
  backing : Nat
  ent : DWord
  dst : Nat
  src : Option Nat
  victim : Option Victim
  grant : Option Nat
  mast : Bool
  remapped : Bool
  remappedAt : Nat
  slots : List Nat
  writes : Nat
  reads : Nat
  start : Nat
  thr : BitVec 16
  pc : DWord
  charge : Option Nat
  inv : List (Nat × BitVec 80 × Nat × Nat)
  fired : Bool
deriving DecidableEq, Repr

/-- A request to place a page that found B set at the page's home slice and waits there (R39): the core, the page, the page's global
entry then, who fills, and the thread and word whose access asked. -/
structure FillReq where
  core : Nat
  ctx : Nat
  vpn : Nat
  ent : DWord
  wg : Option Nat
  mast : Bool
  thr : BitVec 16
  pc : DWord
deriving DecidableEq, Repr

/-- What began a sequence that sends invalidations (R376): its die, and the core, thread and word of the access; no thread where no
access began it. -/
structure Started where
  die : Nat
  core : Nat
  thr : BitVec 16
  pc : DWord
deriving DecidableEq, Repr

/-- An invalidation on its way to a core (R47, R379, R380), with the page-attribute request that waits for it and what began its
sequence. -/
structure Inval where
  id : Nat
  core : Nat
  ctx : Nat
  vpn : Nat
  sent : Nat
  sends : Nat
  arrived : Option Nat
  forReq : Option Nat
  start : Started
deriving DecidableEq, Repr

/-- An entry of a translation store (R40): context, virtual page number, Canopy entry, fetch cycle. -/
structure Trans where
  ctx : Nat
  vpn : Nat
  ent : DWord
  cycle : Nat
deriving DecidableEq, Repr

/-- A host translation (R327, R340). -/
structure HostTrans where
  pasid : Nat
  page : Nat
  hostPage : Nat
  write : Bool
deriving DecidableEq, Repr

/-- An outstanding ATS or page request of a core (R340): the page, whether it asks for write access, whether it is a Page
Request, whether an invalidation has covered it, the cycle of sending, whether it follows a page request's success, and
whether a page request still waits for one of the function's 512 places (R388). -/
structure AtsReq where
  pasid : Nat
  page : Nat
  write : Bool
  pri : Bool
  dead : Bool
  cycle : Nat
  after : Bool
  held : Bool
deriving DecidableEq, Repr

/-- An ATS invalidation being answered (R327, R389): operations that used a dropped entry. -/
structure HostInval where
  id : Nat
  pasid : Nat
  page : Nat
  count : Nat
  waits : List (Nat × Nat)
deriving DecidableEq, Repr

/-- What the part sends to the world outside it: read data with the poison of each byte (R325, R394), the answer to a CXL.cache
snoop, which is always a miss (R324), an Invalidation Completion (R327), a launch queue's interrupt (R404), and a gang launch's
acknowledgement to a group (R429). -/
inductive HostMsg where
  | readData (link addr : Nat) (data : List Byte) (poison : List Bool)
  | snoopMiss (link addr : Nat)
  | invalidationDone (pasid page count : Nat)
  | queueInterrupt (q : Nat)
  | gangAck (group : Nat)
deriving DecidableEq, Repr

/-- A home the monitors name: a word of a context, or a storage number for scratchpad words. -/
inductive Loc where
  | virt (ctx va : Nat)
  | store (n : Nat)
deriving DecidableEq, Repr

/-- The conditions of MON.WAIT and ARRIVE.WAIT (R216, R220). -/
inductive MonCond where
  | eq | ne | gez | gen
deriving DecidableEq, Repr

/-- A monitor (R216, R217): its word, condition and operand, the lanes of one lane frame that wait, whether it holds one of
the 256 places of its group or is rechecked, and the next recheck. `call` is the call-ring slot of a SYSCALL wait. -/
structure Monitor where
  id : Nat
  loc : Loc
  cond : MonCond
  b : Word
  core : Nat
  lf : Nat
  lanes : LaneMask
  group : Nat
  armed : Bool
  due : Nat
  fired : Bool
  call : Option Nat
deriving DecidableEq, Repr

/-! ## HBM, the Jib and the capacity tier (R58 to R71, R382 to R387, R393 to R397) -/

/-- Where an HBM write comes from, so that its completion can be told there. -/
inductive WrFrom where
  | req (core id : Nat)
  | atomic
  | seq (id : Nat)
  | pageReq (id : Nat)
  | migration (id : Nat)
  | host (link : Nat)
  | mast (core : Nat)
  | hw
  | none
deriving DecidableEq, Repr

/-- An HBM write request (R60, R64, R65): the page, block and bytes, the core charged (none: always in budget), whether it
has entered its home slice and with which class, its arrival, its rank among arrivals of one cycle, the refusals so far
(R397), the key it is encrypted under, and the context and page to mark dirty (R206). -/
structure HWrite where
  id : Nat
  page : Nat
  block : Nat
  mask : BitVec 128
  data : Table Byte
  poison : BitVec 4
  charge : Option Nat
  entered : Bool
  inBudget : Bool
  arrival : Nat
  rank : Nat
  refusals : Nat
  key : Nat
  dirty : Option (Nat × Nat)
  origin : WrFrom
deriving DecidableEq, Repr

/-- A migration (R68, R69, R385). Phases: 0 waiting for a slot, 1 moving; given up while a write is still on its lane, 2 with B to
clear, 3 with B to stay, 4 with B to stay and the migration to be abandoned, 5 with B to clear for every waiter; 6 one that poisoned its page while the poison
table was full (R386). `from_` gives the page of the mirror for a block that is read from it, and `strong` says that a write or strong access waits that parks no thread (R69). `slot` is the slot's address; `reads` gives for each block 0 to 31
what the last read was (0 first, 1 retry, 2 mirror) plus 4 × the cycle of its issue; `dead` marks one that can only be abandoned;
`got` the blocks that have arrived; `writes` the writes not yet made. -/
structure Migration where
  id : Nat
  die : Nat
  core : Nat
  ctx : Nat
  vpn : Nat
  capPage : Nat
  phase : Nat
  slot : Nat
  page : Nat
  reads : Table Nat
  got : BitVec 32
  writes : Nat
  start : Nat
  mirrored : Bool
  dead : Bool
  fired : Bool
  thr : BitVec 16
  pc : DWord
  from_ : Table Nat
  strong : Bool
deriving DecidableEq, Repr

/-- A poison-table entry (R386). -/
structure PoisonEnt where
  ctx : Nat
  vpn : Nat
  capPage : Nat
  mirror : Bool
deriving DecidableEq, Repr

/-- A mirror range (R384). -/
structure Mirror where
  lo : Nat
  count : Nat
  off : Nat
deriving DecidableEq, Repr

/-- The channel coding of a pseudo-channel (R66): low-toggle code in use for reads and for writes, units moved in the
window, and the transfer its write lane is making. -/
structure Channel where
  lowRead : Bool
  lowWrite : Bool
  units : Nat
  current : Option Nat
deriving DecidableEq, Repr

/-- A host request that waits at the part: a read or a write of HBM (R325) or a notify write behind earlier writes of its link
(R321, R81). -/
inductive HostReq where
  | read (link addr len : Nat) (caching : Bool)
  | write (link addr : Nat) (data : List Byte)
  | notify (link core k : Nat) (v : Word)
deriving DecidableEq, Repr

/-- A write that a host will make to its own memory, with its cycle and bus address: an input, as an entry of the agenda is (R344;
entry 4). -/
structure HostStore where
  cycle : Nat
  addr : Nat
  data : List Byte
deriving DecidableEq, Repr

/-- What an error of the hardware hits: the unit of a storage number, corrected or not (R393, R414); the seal word or the holder mask of a
frame (R378); a bucket of a die's layer (die × 65536 + bucket, R378); a pseudo-channel (stack × 192 + number) whose training after a
warm reset fails (R424). -/
inductive HwFault where
  | corrected (n : Nat)
  | uncorrectable (n : Nat)
  | sealWord (frame : Nat)
  | holderMask (frame : Nat)
  | bucket (b : Nat)
  | training (chan : Nat)
deriving DecidableEq, Repr

/-- An error found at a cycle: an input, as an entry of the agenda is (entry 95). -/
structure HwError where
  cycle : Nat
  what : HwFault
deriving DecidableEq, Repr

/-- A host back-invalidate snoop outstanding (R326). -/
structure Snoop where
  id : Nat
  line : Nat
deriving DecidableEq, Repr

/-! ## Host queues and slices (R298 to R308, R403, R404, R429) -/

/-- A host launch queue (R300, R404): QBASE, QCFG, TAIL, HEAD, QERR, the cycle of the next refetch, whether its next launch is a gang launch
with which deadline and group, and the acknowledgements that came before that launch was taken (R429). -/
structure Queue where
  qbase : DWord
  qcfg : Word
  tail : Word
  head : Word
  qerr : Word
  refetchAt : Option Nat
  gangArm : Option (Nat × Nat)
  acks : List Nat
deriving DecidableEq, Repr

/-- A gang launch (R429), kept by its launch's number: queue, group, deadline cycle, members that acknowledged, and whether the
deadline has passed, with the absent count and the lowest absent member. -/
structure Gang where
  queue : Nat
  group : Nat
  deadline : Nat
  acks : List Nat
  past : Bool
  absent : Nat
  lowest : Nat
deriving DecidableEq, Repr

/-- A context descriptor as read when its slice begins (R298). -/
structure Descriptor where
  ctx : Nat
  root : Nat
  pool : Nat
  fn : Nat
  key : Nat
  pasid : Nat
  save : Nat
deriving DecidableEq, Repr

/-- The slice in progress (R307, R308): when it ends, since when its context has had no work, whether the switch has begun, and
the context that comes next with its slice length. -/
structure Slice where
  desc : Descriptor
  fin : Nat
  idleSince : Option Nat
  switching : Bool
  next : Option (Nat × Nat)
deriving DecidableEq, Repr

/-! ## A core -/

/-- A compaction pass of a core (R29): the moves still to make (from, to), whether the first of them is under way, the cycle at
which the work in hand ends, and the launch, cluster and rig of the placement that waits for it. -/
structure Compaction where
  moves : List (Nat × Nat)
  moving : Bool
  until_ : Nat
  launch : Nat
  cluster : Nat
  rig : Nat
deriving DecidableEq, Repr

/-- The part of a core that a slice switch saves (R308 step 4). `slots` gives for an issue slot the cycle from which it is free
(R306); `compaction` is the allocator's pass in progress (R29). -/
structure CoreCtx where
  lfs : Table LaneFrame
  slots : Table Nat
  recs : Table Rsv
  grove : Table GroveTab
  mq : List MqEntry
  eng : List EngOp
  xholds : List XHold
  pageReqs : List PageReq
  readers : List Reader
  compaction : Option Compaction
deriving DecidableEq, Repr

/-- The event recorder of a core (R345 to R354). `ring` by entry number, `w` the write sequence number; capture entries and
state (0 armed, 1 capturing, 2 held) with the number captured; the records made in cycle `madeAt`, each with its place in that
cycle's order and its TYPE; the records of earlier cycles that wait to be accepted, with their TYPE, and the staging queue, in which a mark
stands at the record that starts a capture, both as of the start of cycle `drainAt` (R352, R354); records dropped since
the last LOST; RCTL; the cycle at which the stall counter was last 0 and the two other
sampling counters; the sample pointer; the thread named last by an acceptance; recording
off during a stop (R359); the context of the latest step-5 SLICE record in the ring, and the one that the capture's first record belongs
to (R421). -/
structure Recorder where
  ring : Table (BitVec 128)
  w : Nat
  capture : Table (BitVec 128)
  capState : Nat
  capCount : Nat
  made : List (Nat × Nat × BitVec 128)
  madeAt : Nat
  waits : List (Nat × BitVec 128)
  queue : List (Bool × BitVec 128)
  drainAt : Nat
  dropped : Nat
  rctl : Word
  cntStall : Nat
  cntMem : Nat
  cntIssue : Nat
  pointer : Nat
  lastThr : BitVec 16
  lastPc : DWord
  off : Bool
  ctx : Nat
  capCtx : Nat
deriving DecidableEq, Repr

/-- An MSIG message (R272, R320). -/
structure Msg where
  chan : Nat
  value : Word
  ctx : Nat
  lf : Nat
  tid : Nat
deriving DecidableEq, Repr

/-- A call-ring slot in use (R319): the lane frame, the lanes that have neither resumed nor ended, and its context; the SYSCALL's place in
program order and its program counter. -/
structure CallSlot where
  ctx : Nat
  lf : Nat
  lanes : LaneMask
  op : Nat
  pc : DWord
deriving DecidableEq, Repr

/-- The privilege modes of the Mast (R312). -/
inductive Priv where
  | u | s | m
deriving DecidableEq, Repr

/-- The Mast of a core: its Kalyel registers (R314 to R323) and the RISC-V state of an RV64GC hart (R312): mode, x and f
registers, fcsr, the trap registers of M and S mode with the enable bits of mstatus (`gie` MIE, `gpie` MPIE) and its other fields,
mie, the bits of mip that software writes, delegation, scratch and counter registers, PMP, the LR reservation. `clock` is what
mcycle reads beyond the cycles since reset. -/
structure Mast where
  mode : Priv
  x : List DWord
  f : List DWord
  fcsr : BitVec 8
  fs : Nat
  mprv : Bool
  sum : Bool
  mxr : Bool
  tvm : Bool
  tw : Bool
  tsr : Bool
  mideleg : DWord
  mip : DWord
  mscratch : DWord
  sscratch : DWord
  mcounteren : Word
  scounteren : Word
  mcountinhibit : Word
  menvcfg : DWord
  senvcfg : DWord
  clock : DWord
  instret : DWord
  mcause : DWord
  mepc : DWord
  mtval : DWord
  pc : DWord
  mpp : Nat
  spp : Nat
  gie : Bool
  gpie : Bool
  sie : Bool
  spie : Bool
  medeleg : DWord
  mtvec : DWord
  stvec : DWord
  scause : DWord
  sepc : DWord
  stval : DWord
  mie : DWord
  pmpcfg : List (BitVec 8)
  pmpaddr : List DWord
  mctx : Nat
  mring : DWord
  ringCtx : Nat
  head : Word
  tail : Word
  posted : List Nat
  calls : Table CallSlot
  seqNo : Word
  msgs : List Msg
  mmsgb : DWord
  mntpend : Word
  mntie : Word
  mukey : Nat
  mrgnb : List DWord
  mrgnl : List DWord
  notify : List Word
  reserve : Option (Loc × Nat × Bool)
  frames : List Nat
  hand : Nat
deriving DecidableEq, Repr

/-- A zero-length flushing read on a host link (R90): the core and the threads, or the launch, whose release sent it. It covers the
link's posted writes of lower operation numbers than its own, `id`. -/
structure Flush where
  id : Nat
  core : Nat
  lf : Nat
  lanes : LaneMask
  launch : Option Nat
  link : Nat
deriving DecidableEq, Repr

/-- A core. `raised` lists the engines that have raised an event of the present stop (R361); `unfinished` names the store words of
which a part was discarded or lost, with the lanes whose share never ends (R228, R397). -/
structure Core where
  c : CoreCtx
  deliveries : List Delivery
  ops : List MemOp
  reqs : List Req
  unfinished : List (Nat × LaneMask)
  readAhead : List (Nat × Nat × List Byte)
  tstore : List Trans
  hstore : List HostTrans
  ats : List AtsReq
  jbud : Word
  jbudNext : Option Word
  tokens : Nat
  ctdl : Word
  hand : Nat
  copyNo : Word
  collNo : Word
  mtrap : DWord
  mmxerr : DWord
  raised : List Nat
  mast : Mast
  rcd : Recorder
deriving DecidableEq, Repr

/-- The saved image of a core for a context that is out (R308), with its unfinished page-attribute words and the bytes and
poison marks of its operand buffer and its Grove entries. -/
structure CoreImg where
  c : CoreCtx
  ops : List MemOp
  cells : List Host.Cell
  poison : List Nat
deriving DecidableEq, Repr

/-- A stop of the running context (R357 to R363, R370): the primary event, the cores that the halt line has reached, and
whether RESUME is ignored until a poison-table entry (R386)
and until a lost-block entry (R397) has been cleared. -/
structure Stop where
  kind : Nat
  core : Nat
  lf : Nat
  engine : Nat
  cycle : Nat
  dbg : Bool
  expiry : Bool
  blocked : Bool
  lostFull : List Nat
  arrived : List Nat
deriving DecidableEq, Repr

/-- A crash capsule being assembled or held (R418 to R423). -/
structure Capsule where
  state : Nat
  size : Nat
  number : Nat
deriving DecidableEq, Repr

/-- A retained capsule summary (R423): the first 136 header bytes, and its slot (2 for none). -/
structure Summary where
  bytes : List Byte
  slot : Nat
deriving DecidableEq, Repr

/-- A stop that waits for its capsule (R418): context, function, kind, core, time, flags, MHALT, and whether the running context
has ended, so that the slice switch follows. -/
structure CapsuleDue where
  ctx : Nat
  fn : Nat
  kind : Nat
  core : Nat
  time : Nat
  flags : Nat
  mhalt : DWord
  ended : Bool
deriving DecidableEq, Repr

/-- The state of a link between two dies (R426): 0 up, 1 half width, 2 down; when it went down. -/
structure Link where
  st : Nat
  since : Nat
deriving DecidableEq, Repr

/-- The boot ROM's progress (R330, R430): the failure code and block, the manifest's blocks (digest of each), blocks
checked so far, where block 0 lies, failed tries, and ENTRYOFF. -/
structure Boot where
  code : Nat
  block : Nat
  ready : Bool
  manifest : List Byte
  checked : List Nat
  base : Nat
  retries : Table Nat
  entry : Nat
deriving DecidableEq, Repr

/-- A host-pointer failure that found its bundles in a context that is out (R388): the context's number, the core and lane frame, the page, the
kind and DETAIL, and the program counter of the word at which the bundle parked. -/
structure HostFail where
  ctx : Nat
  core : Nat
  lf : Nat
  page : Nat
  kind : Nat
  detail : Nat
  pc : DWord
deriving DecidableEq, Repr

/-- The whole package. `caps` is capability word 0, fixed at fuse time (R6); `cycle` counts core cycles since reset and is the time counter (R346) as well as the window counter
(R63); `at` names the core and lane frame whose word issues next; `agenda` holds inputs and events with their cycles;
`ops` numbers operations; `free` numbers free values;
`cipher` gives for a written 16-byte unit of HBM or the capacity tier the
key it is encrypted under, by the number of its material (R59, R390); `mbxCmd` is a mailbox command that is not
complete, with the core of the Mast that wrote it, or 1024 for the physical function (R328); `posted` gives for a host link the
operation number of its last posted host-pointer write, `flushed` that of the last completed flushing read, and `flushes` the reads
that are out (R90); `hostFails` are failures that contexts take when they run again (R388); `hostReqs` are host requests that wait at the part, in their order (R325, R81); `hostStores` are writes that a host will make to its own memory, `hwErrors` errors of the hardware to come; `descs` keeps for a context the
descriptor that its last slice read (R298); `priCleared` lists functions whose PRI was stopped and whose PRI Enable the host has cleared since (R388);
`lastWindow`, `lastTimebase` and `lastPlace` are one more than the cycle of the last window boundary and of the last TIMEBASE
wrap, and than the fabric cycle of the last placement, and `swept` one more than the last cycle whose due events have been
taken (entry 4); `booting` gives for a die whose Masts run from the boot window 1 while its first Mast alone has started and 2 after
that (R330); `badBuckets` marks die-layer buckets (die × 65536 + bucket) with
an uncorrectable error, until one is read (R378), and `deadChans` the pseudo-channels (stack × 192 + number) that failed their
training (R424). -/
structure State where
  cycle : Nat
  caps : Word
  at_ : Option (Nat × Nat)
  agenda : List (Nat × Instr)
  ops : Nat
  free : Nat
  mem : List Host.Cell
  poison : List Nat
  cores : Table Core
  images : Table (Table CoreImg)
  tiles : Table Tile
  spills : List Spill
  wgs : List Workgroup
  launches : List Launch
  launchNo : Table Word
  latches : List Latch
  rigPtr : Nat
  prioPtr : List Nat
  queues : Table Queue
  gangs : Table Gang
  ctxtab : Option Nat
  slice : Option Slice
  quantum : Table Word
  entryPtr : Table Nat
  fnPtr : Nat
  frames : Table Frame
  sliceHand : Table Nat
  dieLayer : Table DieSlot
  badBuckets : List Nat
  deadChans : List Nat
  markers : Table Marker
  seqs : List Seq
  fillReqs : List FillReq
  invals : List Inval
  monitors : List Monitor
  hwrites : List HWrite
  channels : Table Channel
  hcfg : Table Word
  migrations : List Migration
  poisonTab : Table PoisonEnt
  mirrors : Table Mirror
  lost : Table (List Nat)
  lostFull : Table Nat
  rasCorrected : Table Nat
  rasPoisoned : Table Nat
  rasLast : Table Nat
  rasHost : Nat
  keyTable : Table Nat
  keySlots : Table (List Byte)
  cipher : Table Nat
  snoopFilter : List (Nat × Nat)
  snoops : List Snoop
  hostInvals : List HostInval
  sent : List HostMsg
  priStopped : List Nat
  priCleared : List Nat
  stop : Option Stop
  dbgctl : DWord
  stepped : Bool
  mbxArgs : List DWord
  mbxResp : Word
  mbxCmd : Option (Nat × Nat)
  posted : Table Nat
  flushed : Table Nat
  flushes : List Flush
  hostReqs : List HostReq
  hostStores : List HostStore
  hwErrors : List HwError
  descs : Table Descriptor
  groups : Table (List DWord)
  groupSeq : Table Nat
  collIn : List CollIn
  hostFails : List HostFail
  booting : Table Nat
  dieState : List Nat
  vf : List Nat
  vfNext : List (Nat × Nat)
  dieCap : List Nat
  stackCap : List Nat
  hotSince : Table Nat
  bootaddr : DWord
  measure : BitVec 384
  boot : Boot
  bootNo : Nat
  capsules : List Capsule
  capDue : List CapsuleDue
  capSeq : Nat
  summaries : List Summary
  links : Table Link
  lostDies : List Nat
  ports : Table Nat
  portsOut : List Nat
  lastWindow : Nat
  lastTimebase : Nat
  lastPlace : Nat
  swept : Nat
  powered : Bool
deriving DecidableEq, Repr

/-! ## Outcomes that are not a next state -/

/-- Why the machine stops with a fault. -/
inductive Fault where
  /-- Raised by HOST_MEM_READ and HOST_MEM_WRITE at a device physical address beyond the HDM range of R325, which no host
  access reaches. Safe: the machine has no such address. -/
  | outsideRange (addr : Nat)
deriving DecidableEq, Repr

/-- Why an instruction has no meaning. -/
inductive Refusal where
  /-- Raised by the arms of exec for an instruction that the model does not give a meaning yet. Safe. -/
  | notModelled (mnemonic : String)
deriving DecidableEq, Repr

/-! ## Reset -/

/-- A lane that lies beyond its workgroup's threads, and the state of every thread after reset (R12: Empty). -/
def Thread.empty : Thread where
  pc := 0
  live := false
  parked := false
  occupied := false
  stop := false
  wait := none
  n := List.replicate 16 0
  q := List.replicate 16 ⟨0, 0, 0⟩
  np := []
  flags := List.replicate 12 0
  flagPc := List.replicate 12 0
  stamp := 0
  regroup := false
  through := false
  winq := []
  sysFence := 0
  woken := 0

/-- The part of a core's state that belongs to a context, after reset. -/
def CoreCtx.reset : CoreCtx where
  lfs := []
  slots := []
  recs := []
  grove := []
  mq := []
  eng := []
  xholds := []
  pageReqs := []
  readers := []
  compaction := none

/-- The recorder after reset (R345, R351, R354): empty, armed, RCTL 0x0A86_FFFF. -/
def Recorder.reset : Recorder where
  ring := []
  w := 0
  capture := []
  capState := 0
  capCount := 0
  made := []
  madeAt := 0
  waits := []
  queue := []
  drainAt := 0
  dropped := 0
  rctl := 0x0A86FFFF
  cntStall := 0
  cntMem := 0
  cntIssue := 0
  pointer := 0
  lastThr := 0xFFFF
  lastPc := 0
  off := false
  ctx := 0
  capCtx := 0

/-- The Mast after reset (R314, R321; entry 2 for the RISC-V registers, which start in M mode; MPP and SPP hold no U, R322). -/
def Mast.reset : Mast where
  mode := .m
  x := List.replicate 32 0
  f := List.replicate 32 0
  fcsr := 0
  fs := 0
  mprv := false
  sum := false
  mxr := false
  tvm := false
  tw := false
  tsr := false
  mideleg := 0
  mip := 0
  mscratch := 0
  sscratch := 0
  mcounteren := 0
  scounteren := 0
  mcountinhibit := 0
  menvcfg := 0
  senvcfg := 0
  clock := 0
  instret := 0
  mcause := 0
  mepc := 0
  mtval := 0
  pc := 0
  mpp := 3
  spp := 1
  gie := false
  gpie := false
  sie := false
  spie := false
  medeleg := 0
  mtvec := 0
  stvec := 0
  scause := 0
  sepc := 0
  stval := 0
  mie := 0
  pmpcfg := List.replicate 16 0
  pmpaddr := List.replicate 16 0
  mctx := 0
  mring := 0
  ringCtx := 0
  head := 0
  tail := 0
  posted := []
  calls := []
  seqNo := 0
  msgs := []
  mmsgb := 0
  mntpend := 0
  mntie := 0
  mukey := 0
  mrgnb := List.replicate 16 0
  mrgnl := List.replicate 16 0
  notify := List.replicate 32 0
  reserve := none
  frames := []
  hand := 0

/-- A core after reset (R63, R69 for JBUD and CTDL). -/
def Core.reset : Core where
  c := .reset
  deliveries := []
  ops := []
  reqs := []
  unfinished := []
  readAhead := []
  tstore := []
  hstore := []
  ats := []
  jbud := 0x00400448
  jbudNext := none
  tokens := 0
  ctdl := 8
  hand := 0
  copyNo := 0
  collNo := 0
  mtrap := 0
  mmxerr := 0
  raised := []
  mast := .reset
  rcd := .reset

/-- A frame after reset (R42). -/
def Frame.reset : Frame where
  valid := false
  pin := false
  ref := false
  ctx := 0
  stamp := 0
  lastRemap := none
  retired := false
  busy := false
  vpn := 0
  backing := 0
  holders := 0
  holds := []
  damaged := false
  maskBad := false

/-- A marker of a page that is not on chip. -/
def Marker.reset : Marker := ⟨none, [], [], false⟩

/-- A launch queue after reset (R300, R404; entry 2 for QBASE, HEAD and TAIL). -/
def Queue.reset : Queue := ⟨0, 0, 0, 0, 0, none, none, []⟩

/-- A pseudo-channel after reset (R66: data-bus inversion). -/
def Channel.reset : Channel := ⟨false, false, 0, none⟩

/-- The boot ROM before it has run. -/
def Boot.reset : Boot := ⟨0, 0, false, [], [], 0, [], 0⟩

/-- The package right after reset. -/
def State.reset : State where
  cycle := 0
  caps := 0x0008011F
  at_ := none
  agenda := []
  ops := 1
  free := 0
  mem := []
  poison := []
  cores := []
  images := []
  tiles := []
  spills := []
  wgs := []
  launches := []
  launchNo := []
  latches := []
  rigPtr := 0
  prioPtr := List.replicate 8 0
  queues := []
  gangs := []
  ctxtab := none
  slice := none
  quantum := []
  entryPtr := []
  fnPtr := 0
  frames := []
  sliceHand := []
  dieLayer := []
  badBuckets := []
  deadChans := []
  markers := []
  seqs := []
  fillReqs := []
  invals := []
  monitors := []
  hwrites := []
  channels := []
  hcfg := []
  migrations := []
  poisonTab := []
  mirrors := []
  lost := []
  lostFull := []
  rasCorrected := []
  rasPoisoned := []
  rasLast := []
  rasHost := 0
  keyTable := []
  keySlots := []
  cipher := []
  snoopFilter := []
  snoops := []
  hostInvals := []
  sent := []
  priStopped := []
  priCleared := []
  stop := none
  dbgctl := 0
  stepped := false
  mbxArgs := List.replicate 8 0
  mbxResp := 0
  mbxCmd := none
  posted := []
  flushed := []
  flushes := []
  hostReqs := []
  hostStores := []
  hwErrors := []
  descs := []
  groups := []
  groupSeq := []
  collIn := []
  hostFails := []
  booting := []
  dieState := List.replicate 16 0
  vf := List.replicate 16 0
  vfNext := []
  dieCap := List.replicate 16 0
  stackCap := List.replicate 16 0
  hotSince := []
  bootaddr := 0
  measure := 0
  boot := .reset
  bootNo := 0
  capsules := [⟨0, 0, 0⟩, ⟨0, 0, 0⟩]
  capDue := []
  capSeq := 0
  summaries := []
  links := []
  lostDies := []
  ports := []
  portsOut := []
  lastWindow := 0
  lastTimebase := 0
  lastPlace := 0
  swept := 0
  powered := true

end Sys2Proof.Machine
end

