-- ==== Sys2Proof/Machine/Tables.lean ====
section
/-!
DEFINITION. Machine/Tables.lean: sparse tables, lane sets, bit fields, and memory as a list of cells in one canonical form
(addresses strictly rising, no cell equal to what an unlisted address reads as).
-/
namespace Sys2Proof.Machine

/-! ## Tables -/

/-- The entry of a key, if there is one. -/
def lookup {α : Type} : Table α → Nat → Option α
  | [], _ => none
  | (j, x) :: t, k => if j = k then some x else lookup t k

/-- The entry of a key, or the table's default. -/
def look {α : Type} (t : Table α) (k : Nat) (d : α) : α := (lookup t k).getD d

/-- The table with an entry set. -/
def put {α : Type} : Table α → Nat → α → Table α
  | [], k, x => [(k, x)]
  | (j, y) :: t, k, x =>
    if k < j then (k, x) :: (j, y) :: t
    else if k = j then (k, x) :: t
    else (j, y) :: put t k x

/-- The table without the entry of a key. -/
def drop {α : Type} (t : Table α) (k : Nat) : Table α := t.filter (fun e => e.1 != k)

/-- The table with an entry changed; a missing entry is made from the default. -/
def change {α : Type} (t : Table α) (k : Nat) (d : α) (f : α → α) : Table α := put t k (f (look t k d))

/-- The table with an entry changed if it is there. -/
def changeIf {α : Type} (t : Table α) (k : Nat) (f : α → α) : Table α :=
  t.map (fun e => if e.1 = k then (e.1, f e.2) else e)

/-! ## Lanes and bits -/

/-- The lanes of a set, in lane order. -/
def lanesOf (m : LaneMask) : List Nat := (List.range 32).filter (fun i => m.getLsbD i)

/-- The set of the lanes of a list. -/
def maskOf (l : List Nat) : LaneMask := l.foldl (fun m i => m ||| BitVec.twoPow 32 i) 0

/-- The lowest lane of a set, 0 for the empty set. -/
def lowest (m : LaneMask) : Nat := (lanesOf m).headD 0

/-- Bits hi:lo of a number (R7). -/
def bits (x hi lo : Nat) : Nat := (x >>> lo) % 2 ^ (hi + 1 - lo)

/-- Bit i of a number. -/
def bit (x i : Nat) : Bool := x.testBit i

/-- The number 1 for true. -/
def bnat (b : Bool) : Nat := if b then 1 else 0

/-- A number from little-endian bytes (R7). -/
def leNat (l : List Byte) : Nat := l.foldr (fun b n => b.toNat + 256 * n) 0

/-- The n little-endian bytes of a number (R7). -/
def leBytes (n x : Nat) : List Byte := (List.range n).map (fun i => BitVec.ofNat 8 (x >>> (8 * i)))

/-- A number of `w` bits read as two's complement. -/
def toInt (w x : Nat) : Int := if x % 2 ^ w < 2 ^ (w - 1) then (x % 2 ^ w : Nat) else (x % 2 ^ w : Nat) - (2 ^ w : Nat)

/-- An integer reduced to 32 bits (R110). -/
def wrap32 (x : Int) : Word := BitVec.ofInt 32 x

/-! ## Memory -/

/-- What an unlisted address reads as (entry 1). -/
def Mem.unlisted : Byte := 0

/-- The byte at a number. -/
def Mem.byte (m : List Host.Cell) (a : Nat) : Byte := look m a Mem.unlisted

/-- One byte written; writing the value an unlisted address reads as removes the cell. -/
def Mem.put (m : List Host.Cell) (a : Nat) (b : Byte) : List Host.Cell :=
  if b = Mem.unlisted then drop m a else Machine.put m a b

/-- The canonical form: addresses strictly rising and no cell that an unlisted address would read as. -/
def Mem.wf : List Host.Cell → Bool
  | [] => true
  | [(_, b)] => b != Mem.unlisted
  | (a, b) :: (a', b') :: t => decide (a < a') && b != Mem.unlisted && Mem.wf ((a', b') :: t)

/-- `n` bytes from a number upward. -/
def Mem.read (m : List Host.Cell) (a n : Nat) : List Byte := (List.range n).map (fun i => Mem.byte m (a + i))

/-- Bytes written from a number upward. -/
def Mem.write (m : List Host.Cell) (a : Nat) : List Byte → List Host.Cell
  | [] => m
  | b :: t => Mem.write (Mem.put m a b) (a + 1) t

/-- A 32-bit word, little-endian (R7). -/
def Mem.word (m : List Host.Cell) (a : Nat) : Word := BitVec.ofNat 32 (leNat (Mem.read m a 4))

/-- A 64-bit doubleword, little-endian (R7). -/
def Mem.dword (m : List Host.Cell) (a : Nat) : DWord := BitVec.ofNat 64 (leNat (Mem.read m a 8))

/-- The bytes of a table (offset and byte) written at a base. -/
def Mem.patch (m : List Host.Cell) (base : Nat) (d : Table Byte) : List Host.Cell :=
  d.foldl (fun m e => Mem.put m (base + e.1) e.2) m

/-- The cells of a range. -/
def Mem.range (m : List Host.Cell) (a n : Nat) : List Host.Cell :=
  m.filter (fun c => decide (a ≤ c.1) && decide (c.1 < a + n))

/-- The memory with a range cleared to what unlisted addresses read as. -/
def Mem.clear (m : List Host.Cell) (a n : Nat) : List Host.Cell :=
  m.filter (fun c => !(decide (a ≤ c.1) && decide (c.1 < a + n)))

/-- `n` bytes copied from one place to another. -/
def Mem.copy (m : List Host.Cell) (src dst n : Nat) : List Host.Cell :=
  m.filter (fun c => decide (c.1 < dst)) ++
  (Mem.range m src n).map (fun c => (c.1 - src + dst, c.2)) ++
  m.filter (fun c => decide (dst + n ≤ c.1))

/-- Saved cells put back. -/
def Mem.restore (m cells : List Host.Cell) : List Host.Cell := cells.foldl (fun m c => Mem.put m c.1 c.2) m

end Sys2Proof.Machine
end

