-- ==== Sys2Proof/Machine/Number.lean ====
section
/-!
DEFINITION. Machine/Number.lean: the floating formats, rounding, arithmetic and conversions of chapter 05 (R102 to R111,
R120, R121), computed exactly on integers and rounded once.
-/
namespace Sys2Proof.Machine

/-- A floating format (R102): exponent width and fraction width. -/
structure Fmt where
  eb : Nat
  fb : Nat
deriving DecidableEq, Repr

def fp32 : Fmt := ⟨8, 23⟩
def fp16 : Fmt := ⟨5, 10⟩
def bf16 : Fmt := ⟨8, 7⟩

/-- A decoded value (R102): a NaN, an infinity, or ±m × 2^e (m = 0 for a zero). -/
inductive FVal where
  | nan
  | inf (neg : Bool)
  | fin (neg : Bool) (m : Nat) (e : Int)
deriving DecidableEq, Repr

def fmtWidth (f : Fmt) : Nat := 1 + f.eb + f.fb
def fmtBias (f : Fmt) : Nat := 2 ^ (f.eb - 1) - 1
/-- The exponent of the last fraction bit of a subnormal. -/
def fmtMinExp (f : Fmt) : Int := 1 - (fmtBias f : Int) - (f.fb : Int)
/-- The bits of +∞. -/
def fmtInf (f : Fmt) : Nat := (2 ^ f.eb - 1) * 2 ^ f.fb
/-- The canonical quiet NaN (R104). -/
def fmtNaN (f : Fmt) : Nat := fmtInf f + 2 ^ (f.fb - 1)
/-- The bits with a sign in front. -/
def withSign (f : Fmt) (neg : Bool) (b : Nat) : Nat := if neg then 2 ^ (f.eb + f.fb) + b else b

/-- The value of a bit pattern (R102). -/
def unpack (f : Fmt) (b : Nat) : FVal :=
  let neg := bit b (f.eb + f.fb)
  let e := bits b (f.eb + f.fb - 1) f.fb
  let m := b % 2 ^ f.fb
  if e = 2 ^ f.eb - 1 then (if m = 0 then .inf neg else .nan)
  else if e = 0 then .fin neg m (fmtMinExp f)
  else .fin neg (2 ^ f.fb + m) (fmtMinExp f + (e : Int) - 1)

/-- Whether a mode rounds an inexact magnitude up (R106): quotient, remainder, divisor and sign. -/
def roundsUp (mode : Rnd) (neg : Bool) (q r d : Nat) : Bool :=
  match mode with
  | .rn => decide (d < 2 * r) || (decide (2 * r = d) && decide (q % 2 = 1))
  | .rz => false
  | .rd => neg && decide (0 < r)
  | .ru => !neg && decide (0 < r)

/-- The result when the rounded magnitude passes the largest finite value (R107). -/
def overflowBits (f : Fmt) (mode : Rnd) (neg : Bool) : Nat :=
  let big := withSign f neg (fmtInf f - 1)
  let infinity := withSign f neg (fmtInf f)
  match mode with
  | .rn => infinity
  | .rz => big
  | .rd => if neg then infinity else big
  | .ru => if neg then big else infinity

/-- `round(x, mode)` of R106 for the exact value ±(num ÷ den) × 2^e with num and den positive; a zero num gives a zero of
the sign. -/
def roundRat (f : Fmt) (mode : Rnd) (neg : Bool) (num den : Nat) (e : Int) : Nat :=
  if num = 0 then withSign f neg 0 else
  let k : Int := (Nat.log2 num : Int) - (Nat.log2 den : Int)
  let below : Bool := if 0 ≤ k then decide (num < den <<< k.toNat) else decide (num <<< (-k).toNat < den)
  let top : Int := (if below then k - 1 else k) + e
  let q : Int := max (top - (f.fb : Int)) (fmtMinExp f)
  let sh : Int := e - q
  let n := if 0 ≤ sh then num <<< sh.toNat else num
  let d := if 0 ≤ sh then den else den <<< (-sh).toNat
  let quo := n / d
  let r := n % d
  let m := quo + bnat (roundsUp mode neg quo r d)
  let b := (q - fmtMinExp f).toNat * 2 ^ f.fb + m
  if fmtInf f ≤ b then overflowBits f mode neg else withSign f neg b

/-- Rounding of ±m × 2^e. -/
def roundFin (f : Fmt) (mode : Rnd) (neg : Bool) (m : Nat) (e : Int) : Nat := roundRat f mode neg m 1 e

/-- The bits of a decoded value in a format, rounded. -/
def pack (f : Fmt) (mode : Rnd) : FVal → Nat
  | .nan => fmtNaN f
  | .inf neg => withSign f neg (fmtInf f)
  | .fin neg m e => roundFin f mode neg m e

/-- The integer ±m. -/
def signed (neg : Bool) (m : Nat) : Int := if neg then -(m : Int) else (m : Int)

/-- The exact sum of two decoded values, before rounding, with the zero rules of R105 for the mode. -/
def addVal (mode : Rnd) : FVal → FVal → FVal
  | .nan, _ => .nan
  | _, .nan => .nan
  | .inf a, .inf b => if a = b then .inf a else .nan
  | .inf a, .fin _ _ _ => .inf a
  | .fin _ _ _, .inf b => .inf b
  | .fin s m e, .fin s' m' e' =>
    if m = 0 ∧ m' = 0 then
      .fin (if s = s' then s else decide (mode = .rd)) 0 0
    else
      let q := min e e'
      let x := signed s m * (2 ^ (e - q).toNat : Nat) + signed s' m' * (2 ^ (e' - q).toNat : Nat)
      if x = 0 then .fin (decide (mode = .rd)) 0 0 else .fin (decide (x < 0)) x.natAbs q

/-- The exact product of two decoded values (R105, R186). -/
def mulVal : FVal → FVal → FVal
  | .nan, _ => .nan
  | _, .nan => .nan
  | .inf a, .inf b => .inf (a != b)
  | .inf a, .fin s m _ => if m = 0 then .nan else .inf (a != s)
  | .fin s m _, .inf b => if m = 0 then .nan else .inf (s != b)
  | .fin s m e, .fin s' m' e' => .fin (s != s') (m * m') (e + e')

/-- The negation of a decoded value. -/
def negVal : FVal → FVal
  | .nan => .nan
  | .inf s => .inf (!s)
  | .fin s m e => .fin (!s) m e

/-! ## The arithmetic of one element -/

/-- FADD (R186). -/
def fadd (f : Fmt) (mode : Rnd) (a b : Nat) : Nat := pack f mode (addVal mode (unpack f a) (unpack f b))

/-- FSUB (R186). DESIGN CHOICE (entry 82): R105's rows for zeros name the operands of a sum and of a difference; where A and B are both
zero, the rows are applied to A and −B. -/
def fsub (f : Fmt) (mode : Rnd) (a b : Nat) : Nat := pack f mode (addVal mode (unpack f a) (negVal (unpack f b)))

/-- FMUL (R186). -/
def fmul (f : Fmt) (mode : Rnd) (a b : Nat) : Nat := pack f mode (mulVal (unpack f a) (unpack f b))

/-- FMA (R191): A × B + C exactly, rounded once to nearest. -/
def ffma (f : Fmt) (a b c : Nat) : Nat := pack f .rn (addVal .rn (mulVal (unpack f a) (unpack f b)) (unpack f c))

/-- FMS (R191): A × B − C exactly, rounded once to nearest; a zero product less a zero C as FSUB does (entry 82, DESIGN CHOICE). -/
def ffms (f : Fmt) (a b c : Nat) : Nat :=
  pack f .rn (addVal .rn (mulVal (unpack f a) (unpack f b)) (negVal (unpack f c)))

def isNaN (f : Fmt) (a : Nat) : Bool := decide (unpack f a = .nan)

/-- A number that orders the values that are not NaNs, with both zeros at 0. -/
def orderKey (f : Fmt) (a : Nat) : Int :=
  let m := a % 2 ^ (f.eb + f.fb)
  if bit a (f.eb + f.fb) then -(m : Int) else (m : Int)

/-- A number that orders the values that are not NaNs, with −0 below +0 (R187). -/
def totalKey (f : Fmt) (a : Nat) : Int :=
  let m := a % 2 ^ (f.eb + f.fb)
  if bit a (f.eb + f.fb) then -(m : Int) - 1 else (m : Int)

/-- FMIN (R187). -/
def fmin (f : Fmt) (a b : Nat) : Nat :=
  let w := 2 ^ fmtWidth f
  if isNaN f a && isNaN f b then fmtNaN f
  else if isNaN f a then b % w
  else if isNaN f b then a % w
  else if totalKey f a ≤ totalKey f b then a % w else b % w

/-- FMAX (R187). -/
def fmax (f : Fmt) (a b : Nat) : Nat :=
  let w := 2 ^ fmtWidth f
  if isNaN f a && isNaN f b then fmtNaN f
  else if isNaN f a then b % w
  else if isNaN f b then a % w
  else if totalKey f a ≤ totalKey f b then b % w else a % w

/-- FABS clears the sign bit (R188). -/
def fabs (f : Fmt) (a : Nat) : Nat := a % 2 ^ (f.eb + f.fb)

/-- FNEG inverts the sign bit (R188). -/
def fneg (f : Fmt) (a : Nat) : Nat := (a % 2 ^ fmtWidth f) ^^^ 2 ^ (f.eb + f.fb)

/-- A floating condition (R189). -/
def fcondHolds (f : Fmt) (c : FCond) (a b : Nat) : Bool :=
  let un := isNaN f a || isNaN f b
  let x := orderKey f a
  let y := orderKey f b
  match c with
  | .eq => !un && decide (x = y)
  | .ne => un || decide (x ≠ y)
  | .lt => !un && decide (x < y)
  | .le => !un && decide (x ≤ y)
  | .gt => !un && decide (y < x)
  | .ge => !un && decide (y ≤ x)
  | .un => un
  | .or => !un

/-- The magnitude of m × 2^e rounded to an integer in a mode, as an integer magnitude. -/
def roundMag (mode : Rnd) (neg : Bool) (m : Nat) (e : Int) : Nat :=
  if 0 ≤ e then m <<< e.toNat
  else
    let d := 1 <<< (-e).toNat
    m / d + bnat (roundsUp mode neg (m / d) (m % d) d)

/-- FRND (R190). -/
def frnd (f : Fmt) (mode : Rnd) (a : Nat) : Nat :=
  match unpack f a with
  | .nan => fmtNaN f
  | .inf s => withSign f s (fmtInf f)
  | .fin s m e => roundFin f .rn s (roundMag mode s m e) 0

/-- Conversion between floating formats (R108). -/
def fcvt (src dst : Fmt) (mode : Rnd) (a : Nat) : Nat := pack dst mode (unpack src a)

/-- The least and greatest value of an integer type (R109). -/
def intMin : IntTy → Int
  | .s8 => -128 | .s16 => -32768 | .s32 => -2147483648 | .z8 => 0 | .z16 => 0 | .z32 => 0
def intMax : IntTy → Int
  | .s8 => 127 | .s16 => 32767 | .s32 => 2147483647 | .z8 => 255 | .z16 => 65535 | .z32 => 4294967295

/-- Saturation of R110. -/
def sat (t : IntTy) (x : Int) : Int := min (max x (intMin t)) (intMax t)

/-- Float to integer (R108, R193): rounded, saturated, written sign- or zero-extended. -/
def floatToInt (f : Fmt) (mode : Rnd) (t : IntTy) (a : Nat) : Word :=
  match unpack f a with
  | .nan => 0
  | .inf s => wrap32 (if s then intMin t else intMax t)
  | .fin s m e => wrap32 (sat t (signed s (roundMag mode s m e)))

/-- The integer an operand of an integer type holds (R109). -/
def intOf (t : IntTy) (w : Word) : Int :=
  match t with
  | .s8 => toInt 8 w.toNat | .s16 => toInt 16 w.toNat | .s32 => toInt 32 w.toNat
  | .z8 => (w.toNat % 256 : Nat) | .z16 => (w.toNat % 65536 : Nat) | .z32 => (w.toNat : Nat)

/-- Integer to float (R108). -/
def intToFloat (f : Fmt) (mode : Rnd) (t : IntTy) (w : Word) : Nat :=
  roundFin f mode (decide (intOf t w < 0)) (intOf t w).natAbs 0

/-! ## Packed values (R103) -/

/-- A packed operation on two 16-bit elements. -/
def packed2 (g : Nat → Nat → Nat) (a b : Word) : Word :=
  BitVec.ofNat 32 (g (a.toNat % 65536) (b.toNat % 65536) + 65536 * g (a.toNat / 65536) (b.toNat / 65536))

/-- A packed operation on two 16-bit elements of three sources. -/
def packed3 (g : Nat → Nat → Nat → Nat) (a b c : Word) : Word :=
  BitVec.ofNat 32 (g (a.toNat % 65536) (b.toNat % 65536) (c.toNat % 65536) +
    65536 * g (a.toNat / 65536) (b.toNat / 65536) (c.toNat / 65536))

/-- The bits of a scalar operand of a format (R185). -/
def scalar (f : Fmt) (w : Word) : Nat := w.toNat % 2 ^ fmtWidth f

/-! ## Transcendentals (R120, R121): the exact value between two rationals, and the results within the bound -/

/-- Fixed-point precision of the exact values. -/
def fixBits : Nat := 256

/-- π scaled by 2^512, rounded down. -/
def piFix : Nat :=
  0x3243f6a8885a308d313198a2e03707344a4093822299f31d0082efa98ec4e6c89452821e638d01377be5466cf34e90c6cc0ac29b7c97c50dd3f84d5b5b5470917

/-- ln 2 scaled by 2^256, rounded down. -/
def ln2Fix : Nat := 0xb17217f7d1cf79abc9e3b39803f2f6af40f343267298b62d8a0d175b8baafa2b

/-- Bits of the integer square root, from bit k − 1 down: a root so far and its square's remainder are kept implicit. -/
def isqrtAux (x : Nat) : Nat → Nat → Nat
  | 0, r => r
  | k + 1, r => isqrtAux x k (if (r + 2 ^ k) * (r + 2 ^ k) ≤ x then r + 2 ^ k else r)

/-- The integer square root of a number below 2^(2k). -/
def isqrt (k x : Nat) : Nat := isqrtAux x k 0

/-- A sum of terms of a power series with fixed-point argument z and term ratio divisors: t ← t·z ÷ 2^256 ÷ d. -/
def expSeries (z : Nat) : Nat → Nat → Nat → Nat → Nat
  | 0, _, _, s => s
  | n + 1, k, t, s =>
    let t' := t * z / 2 ^ fixBits / k
    expSeries z n (k + 1) t' (s + t')

/-- exp(z) for 0 ≤ z < 1, fixed point, below the exact value by less than 2^-240. -/
def expFix (z : Nat) : Nat := expSeries z 70 1 (2 ^ fixBits) (2 ^ fixBits)

def atanhSeries (z2 : Nat) : Nat → Nat → Nat → Nat → Nat
  | 0, _, _, s => s
  | n + 1, k, t, s =>
    let t' := t * z2 / 2 ^ fixBits
    atanhSeries z2 n (k + 2) t' (s + t' / k)

/-- ln(m ÷ 2^p) for 2^p ≤ m < 2^(p+1), fixed point, below the exact value by less than 2^-240. -/
def lnFix (m p : Nat) : Nat :=
  let z := (m - 2 ^ p) * 2 ^ fixBits / (m + 2 ^ p)
  2 * atanhSeries (z * z / 2 ^ fixBits) 90 3 z z

/-- The alternating series of sine and cosine: t ← −t·r² ÷ (k (k + 1)), signs kept apart. -/
def trigSeries (r2 : Nat) : Nat → Nat → Nat → Int → Bool → Int
  | 0, _, _, s, _ => s
  | n + 1, k, t, s, neg =>
    let t' := t * r2 / 2 ^ fixBits / (k * (k + 1))
    trigSeries r2 n (k + 2) t' (if neg then s - (t' : Int) else s + (t' : Int)) (!neg)

/-- sin r and cos r for 0 ≤ r ≤ π ÷ 4, fixed point, each within 2^-240 of the exact value. -/
def sinFix (r : Nat) : Int := trigSeries (r * r / 2 ^ fixBits) 40 2 r (r : Int) true
def cosFix (r : Nat) : Int := trigSeries (r * r / 2 ^ fixBits) 40 1 (2 ^ fixBits) (2 ^ fixBits : Nat) true

/-- sin (cosine = false) or cos of m × 2^e, as a fixed-point value within 2^-200 of the exact one, for e ≤ 40. -/
def trigFix (cosine : Bool) (neg : Bool) (m : Nat) (e : Int) : Int :=
  -- the argument scaled by 2^512
  let x : Nat := if 0 ≤ e + 512 then m <<< (e + 512).toNat else m >>> (-(e + 512)).toNat
  let half := piFix / 2
  let k := (2 * x + half) / (2 * half)
  let d : Int := (x : Int) - (k * half : Nat)
  let r := d.natAbs / 2 ^ 256
  let s := if d < 0 then -(sinFix r) else sinFix r
  let c := cosFix r
  let q := (if cosine then k + 1 else k) % 4
  let v := match q with
    | 0 => s
    | 1 => c
    | 2 => -s
    | _ => -c
  if neg && !cosine then -v else v

/-- The smallest value of the format, as a key, not below the rational ±n ÷ 2^s (scaled integer). -/
def keyUp (f : Fmt) (n : Int) (s : Nat) : Int := orderKey f (roundFin f .ru (decide (n < 0)) n.natAbs (-(s : Int)))

/-- The largest value of the format, as a key, not above the scaled integer. -/
def keyDown (f : Fmt) (n : Int) (s : Nat) : Int := orderKey f (roundFin f .rd (decide (n < 0)) n.natAbs (-(s : Int)))

/-- The bits of a key. -/
def ofKey (f : Fmt) (k : Int) : Nat := if k < 0 then withSign f true k.natAbs else k.natAbs

/-- The result among the format's values from `lo` to `hi` that the part delivers for this form and input (entry 7). -/
def pick (f : Fmt) (form : Nat) (a : Nat) (lo hi : Int) : Nat :=
  if hi ≤ lo then ofKey f lo
  else ofKey f (lo + ((Config.transChoice form (BitVec.ofNat 32 a) % ((hi - lo).toNat + 1) : Nat) : Int))

/-- ulp(y) of R120 for a positive exact value near n ÷ 2^s, as an exponent of two. -/
def ulpExp (f : Fmt) (n s : Nat) : Int :=
  max ((Nat.log2 n : Int) - (s : Int)) (1 - (fmtBias f : Int)) - (f.fb : Int)

/-- 2^e scaled by 2^s, rounded up. -/
def scaled2 (e : Int) (s : Nat) : Nat := if 0 ≤ e + s then 1 <<< (e + s).toNat else 1

/-- A result within `k` ulp of the exact value n ÷ 2^s (known within one unit), with the format's overflow to ∞. -/
def within (f : Fmt) (form a k : Nat) (n : Int) (s : Nat) : Nat :=
  let b := k * scaled2 (ulpExp f n.natAbs s) s + 1
  let lo := keyUp f (n - b) s
  let hi := keyDown f (n + b) s
  let big : Int := (fmtInf f : Int) - 1
  let top := scaled2 ((fmtBias f : Int) + 1) s
  pick f form a lo (if hi = big ∧ (top : Int) ≤ n + b then big + 1 else hi)

/-- A result within `k` ulp of an exact value that lies below n ÷ 2^s, by less than any value of the format can tell. -/
def withinBelow (f : Fmt) (form a k n s : Nat) : Nat :=
  let b := k * scaled2 (ulpExp f (n - 1) s) s
  pick f form a (keyUp f ((n : Int) - b) s) (keyDown f ((n : Int) + b - 1) s)

/-- Whether n ÷ 2^s lies below the smallest normal value of a format (R105: the result is then the correctly rounded one). -/
def tiny (f : Fmt) (n s : Nat) : Bool := decide (n < scaled2 (1 - (fmtBias f : Int)) s)

/-- RCP (R120); an underflowing result is correctly rounded (R105), and one that overflows is ∞ (R107). -/
def rcp (f : Fmt) (form a : Nat) : Nat :=
  match unpack f a with
  | .nan => fmtNaN f
  | .inf s => withSign f s 0
  | .fin s 0 _ => withSign f s (fmtInf f)
  | .fin s m e =>
    -- 1 ÷ (m·2^e) scaled by 2^512
    let x := 1 <<< (512 - e).toNat
    let n := x / m
    let r := roundFin f .rn false (2 * n + bnat (n * m != x)) (-513)
    if tiny f n 512 || r == fmtInf f then withSign f s r else withSign f s (within f form a 1 (n : Int) 512)

/-- RSQ (R120). -/
def rsq (f : Fmt) (form a : Nat) : Nat :=
  match unpack f a with
  | .nan => fmtNaN f
  | .inf s => if s then fmtNaN f else 0
  | .fin s 0 _ => withSign f s (fmtInf f)
  | .fin true _ _ => fmtNaN f
  | .fin false m e =>
    -- √(2^(1024 − e) ÷ m) = 2^512 ÷ √x
    within f form a 1 (isqrt 700 ((1 <<< (1024 - e).toNat) / m) : Nat) 512

/-- SQRT.f32, correctly rounded (R120); in FP16 within 1 ulp. -/
def sqrt (f : Fmt) (form a : Nat) : Nat :=
  match unpack f a with
  | .nan => fmtNaN f
  | .inf s => if s then fmtNaN f else fmtInf f
  | .fin s 0 _ => withSign f s 0
  | .fin true _ _ => fmtNaN f
  | .fin false m e =>
    let x := m <<< (e + 512).toNat
    let r := isqrt 400 x
    if f = fp32 then roundFin f .rn false (2 * r + bnat (r * r != x)) (-257)
    else within f form a 1 (r : Int) 256

/-- 2^x as a fixed-point value scaled by 2^512 for −255 ≤ x ≤ 130: the integer part and the fixed-point fraction. -/
def exp2Fix (i : Int) (frac : Nat) : Nat := (expFix (frac * ln2Fix / 2 ^ fixBits)) <<< (i + 256).toNat

/-- EX2 (R120): exact for an integer argument in FP32; an underflowing result is correctly rounded (R105), and an
overflowing one is +∞. -/
def ex2 (f : Fmt) (form a : Nat) : Nat :=
  match unpack f a with
  | .nan => fmtNaN f
  | .inf s => if s then 0 else fmtInf f
  | .fin s m e =>
    let p : Nat := 2 ^ fixBits
    let x : Int := signed s (if 0 ≤ e + 256 then m <<< (e + 256).toNat else m >>> (-(e + 256)).toNat)
    let i := x / (p : Int)
    let frac := (x % (p : Int)).toNat
    if 130 ≤ i then fmtInf f
    else if i < -250 then 0
    else if f = fp32 ∧ frac = 0 ∧ (0 ≤ e + 256 ∨ m = 0) then roundFin f .rn false 1 i
    else
      let n := exp2Fix i frac
      if tiny f n 512 then roundFin f .rn false n (-512)
      else if roundFin f .rn false n (-512) = fmtInf f then fmtInf f
      else within f form a (if f = fp32 then 2 else 1) (n : Int) 512

/-- log2 of m × 2^e scaled by 2^256. -/
def log2Fix (m : Nat) (e : Int) : Int :=
  let p := Nat.log2 m
  ((p : Int) + e) * (2 ^ fixBits : Nat) + ((lnFix m p * 2 ^ fixBits / ln2Fix : Nat) : Int)

/-- LG2 (R120): within 2^-21 for 0.5 ≤ x ≤ 2 and 2 ulp elsewhere in FP32; 1 ulp in FP16. -/
def lg2 (f : Fmt) (form a : Nat) : Nat :=
  match unpack f a with
  | .nan => fmtNaN f
  | .inf s => if s then fmtNaN f else fmtInf f
  | .fin _ 0 _ => withSign f true (fmtInf f)
  | .fin true _ _ => fmtNaN f
  | .fin false m e =>
    let n := log2Fix m e
    if a = roundFin f .rn false 1 0 then 0
    else if f = fp32 ∧ roundFin f .rn false 1 (-1) ≤ a ∧ a ≤ roundFin f .rn false 1 1 then
      let b : Int := (2 ^ 235 + 1 : Nat)
      pick f form a (keyUp f (n - b) 256) (keyDown f (n + b) 256)
    else
      let r := within f form a (if f = fp32 then 2 else 1) (n.natAbs : Int) 256
      if n < 0 then withSign f true (r % 2 ^ (f.eb + f.fb)) else r

/-- SIN and COS (R121); an underflowing result is correctly rounded (R105). Below 2^-60, sin x lies below |x|, and cos x below 1, by less
than the format can tell. -/
def trig (f : Fmt) (cosine : Bool) (form a : Nat) : Nat :=
  match unpack f a with
  | .nan => fmtNaN f
  | .inf _ => fmtNaN f
  | .fin s 0 _ => if cosine then roundFin f .rn false 1 0 else withSign f s 0
  | .fin s m e =>
    let one := keyUp f (2 ^ 256 : Nat) 256
    let ulps := if f = fp32 then 2 else 1
    if (Nat.log2 m : Int) + e < -60 then
      let x := m <<< (e + 512).toNat
      if cosine then withinBelow f form a ulps (2 ^ 512) 512
      else withSign f s (if tiny f (x - 1) 512 then roundFin f .rn false x (-512) else withinBelow f form a ulps x 512)
    else if (Nat.log2 m : Int) + e < 20 then
      let n := trigFix cosine s m e
      let r := if tiny f n.natAbs 256 then roundFin f .rn false n.natAbs (-256) else within f form a ulps (n.natAbs : Int) 256
      if n < 0 then withSign f true (r % 2 ^ (f.eb + f.fb)) else r
    else if 49 ≤ (Nat.log2 m : Int) + e then pick f form a (-one) one
    else
      let n := trigFix cosine s m e
      let b : Int := (2 ^ 234 : Nat) + ((m <<< (e + 256 - 47).toNat : Nat) : Int) + 1
      pick f form a (max (keyUp f (n - b) 256) (-one)) (min (keyDown f (n + b) 256) one)

end Sys2Proof.Machine
end

