-- ==== Sys2Proof/Machine/Ops.lean ====
section
/-!
DEFINITION. Machine/Ops.lean: the named operations over the state: cores, lane frames and threads, program counter images,
the event recorder, the issuing bundle, results and their delivery, and taking a stop (the Z9's exception entry) with the
resume beside it.
-/
namespace Sys2Proof.Machine

/-- Every meaning answers with one of these. -/
abbrev Outcome := Host.Outcome State Fault Refusal

/-! ## Cores, lane frames, threads -/

def core (s : State) (c : Nat) : Core := look s.cores c .reset
def setCore (s : State) (c : Nat) (x : Core) : State := { s with cores := put s.cores c x }
def modCore (s : State) (c : Nat) (f : Core → Core) : State := setCore s c (f (core s c))

/-- The die of a core and its position on the die (R3, R30). -/
def dieOf (c : Nat) : Nat := c / 64
def posOf (c : Nat) : Nat := c % 64
/-- The number of compute dies that the part has, as its capability word says (R4, R6): 16, or 8 on a Z9-8. -/
def dies (s : State) : Nat := if bits s.caps.toNat 19 15 = 8 then 8 else 16
/-- The number of cores: 64 on each die (R2). -/
def coreCount (s : State) : Nat := 64 * dies s

def laneFrame (s : State) (c l : Nat) : Option LaneFrame := lookup (core s c).c.lfs l
def modC (x : Core) (f : CoreCtx → CoreCtx) : Core := { x with c := f x.c }
def setLF (s : State) (c l : Nat) (x : LaneFrame) : State :=
  modCore s c (fun k => modC k (fun y => { y with lfs := put y.lfs l x }))
def modLF (s : State) (c l : Nat) (f : LaneFrame → LaneFrame) : State :=
  modCore s c (fun k => modC k (fun y => { y with lfs := changeIf y.lfs l f }))

def thread (f : LaneFrame) (i : Nat) : Thread := look f.threads i .empty
def modThread (f : LaneFrame) (i : Nat) (g : Thread → Thread) : LaneFrame :=
  { f with threads := changeIf f.threads i g }
/-- Every thread of a set of lanes changed. -/
def modThreads (f : LaneFrame) (m : LaneMask) (g : Nat → Thread → Thread) : LaneFrame :=
  { f with threads := f.threads.map (fun e => if m.getLsbD e.1 then (e.1, g e.1 e.2) else e) }

/-- Eligible: live, not parked (R12). -/
def Thread.eligible (t : Thread) : Bool := t.live && !t.parked

/-! ## Workgroups, launches, the running context -/

def workgroup (s : State) (w : Nat) : Option Workgroup := s.wgs.find? (fun x => x.id = w)
def modWG (s : State) (w : Nat) (f : Workgroup → Workgroup) : State :=
  { s with wgs := s.wgs.map (fun x => if x.id = w then f x else x) }
def launchById (s : State) (i : Nat) : Option Launch := s.launches.find? (fun x => x.id = i)
def modLaunch (s : State) (i : Nat) (f : Launch → Launch) : State :=
  { s with launches := s.launches.map (fun x => if x.id = i then f x else x) }
/-- The launch of a workgroup. -/
def launchOf (s : State) (w : Nat) : Option Launch := (workgroup s w).bind (fun x => launchById s x.launch)

/-- The link that host-pointer accesses take: link 0 where it faces a host, else link 1 (R327). -/
def hostLink : Nat := if Config.link0Host then 0 else 1

/-- The running context's number; 0 while none runs. -/
def ctxId (s : State) : Nat := match s.slice with | some x => x.desc.ctx | none => 0
/-- The PASID of the running context. -/
def ctxPasid (s : State) : Nat := match s.slice with | some x => x.desc.pasid | none => 0

/-- Bits 47:32 of ENTRY, which every address of the workgroup's thread region shares (R201). -/
def regionOf (s : State) (w : Nat) : Nat := match launchOf s w with | some x => x.entry / 2 ^ 32 | none => 0
/-- The scratchpad bytes of a workgroup: SCRATCH × 4096 (R208). -/
def scratchBytes (s : State) (w : Nat) : Nat := match launchOf s w with | some x => x.scratch * 4096 | none => 0

/-! ## Program counter images (R137) -/

def pcImage (pos addr : Nat) : DWord := BitVec.ofNat 64 (pos % 16 * 2 ^ 60 + addr % 2 ^ 48 / 4 * 4)
def pcAddr (p : DWord) : Nat := p.toNat % 2 ^ 48
def pcPos (p : DWord) : Nat := p.toNat / 2 ^ 60
/-- The order of program counters (R14): address first, then POS. -/
def pcKey (p : DWord) : Nat := pcAddr p * 16 + pcPos p
/-- An address moved inside its 4 GiB region (R201, R263). DESIGN CHOICE (entry 76): R263 states the wrap for a branch target; the
model wraps the addresses of a clause's words, of the header after it, and of the header that a POS counts back to, in the same
way. -/
def regionAdd (a : Nat) (d : Int) : Nat := a / 2 ^ 32 * 2 ^ 32 + (((a : Int) + d) % (2 ^ 32 : Nat)).toNat

/-- The address of word `pos` of a clause. -/
def wordAddr (hdr pos : Nat) : Nat := regionAdd hdr (4 * pos : Nat)

/-! ## The event recorder (R345 to R354) -/

/-- THREAD (R347): physical lane frame in bits 10:5 and lane in bits 4:0. -/
def thrField (lf lane : Nat) : BitVec 16 := BitVec.ofNat 16 (lf % 64 * 32 + lane % 32)
def noThread : BitVec 16 := 0xFFFF

/-- DETAIL of a page or protection fault (R362): the page and the access kind. -/
def pageDetail (vpn kind : Nat) : Nat := vpn % 2 ^ 36 + kind * 2 ^ 36

/-- DETAIL of a stop that an access to a page raises: unit 2 where the capacity tier is absent (R374), else the page. -/
def stopDetail (k vpn kind : Nat) : Nat := if k = 9 then 2 else pageDetail vpn kind

/-- A record of 16 bytes (R347). -/
def recordBits (type : Nat) (thr : BitVec 16) (pc : DWord) (data trail : Nat) : BitVec 128 :=
  BitVec.ofNat 128 (type % 256 + thr.toNat * 2 ^ 8 + pc.toNat % 2 ^ 32 * 2 ^ 24 + data % 2 ^ 48 * 2 ^ 56 +
    trail % 2 ^ 24 * 2 ^ 104)

/-- The types RCTL can suppress (R348). -/
def maskable (type : Nat) : Bool := decide ((1 ≤ type ∧ type ≤ 8) ∨ type = 12)

/-- The new and the old CTXID of a SLICE record, and whether it is one of step 5 (R347, R348). -/
def sliceOf (r : BitVec 128) : Option (Nat × Nat × Bool) :=
  if bits r.toNat 7 0 = 9 then some (bits r.toNat 87 72, bits r.toNat 71 56, decide (bits r.toNat 95 88 = 1)) else none

/-- The record entered in the ring and, while a capture runs, in the capture area; the record that starts one is its first (R345, R354).
A step-5 SLICE record gives the context of those that follow (R421). -/
def ringWrite (r : Recorder) (start : Bool) (x : BitVec 128) : Recorder :=
  let r1 := { r with
    ring := put r.ring (r.w % 7168) x, w := r.w + 1
    ctx := match sliceOf x with | some (new, _, true) => new | _ => r.ctx }
  if start then { r1 with capture := [(0, x)], capCount := 1, capCtx := r.ctx }
  else if r.capState = 1 ∧ r.capCount ≠ 0 then
    { r1 with
      capture := put r.capture r.capCount x
      capCount := r.capCount + 1
      capState := if r.capCount + 1 = 1024 then 2 else 1 }
  else r1

/-- Two records drained from the staging queue into the ring (R352). -/
def drainTwo (r : Recorder) : Recorder :=
  (r.queue.take 2).foldl (fun r e => ringWrite r e.1 e.2) { r with queue := r.queue.drop 2 }

/-- A record accepted into the staging queue; a THROTTLE record that is staged while the capture area is armed starts a capture (R354). -/
def acceptOne (r : Recorder) (type : Nat) (x : BitVec 128) : Recorder :=
  if r.capState = 0 ∧ type = 10 then { r with queue := r.queue ++ [(true, x)], capture := [], capCount := 0, capState := 1 }
  else { r with queue := r.queue ++ [(false, x)] }

/-- At most two records are accepted in a cycle, into a queue of 32 (R352). -/
def acceptTwo (r : Recorder) : Recorder :=
  let n := min 2 (32 - r.queue.length)
  (r.waits.take n).foldl (fun r e => acceptOne r e.1 e.2) { r with waits := r.waits.drop n }

/-- The recorder's work in some cycles one after the other: two records drained, at most two accepted. -/
def recorderCycles (r : Recorder) : Nat → Recorder
  | 0 => r
  | n + 1 => recorderCycles (acceptTwo (drainTwo r)) n

/-- The recorder as of the start of a cycle; once nothing is left in it the cycles change nothing more. -/
def runTo (r : Recorder) (cycle : Nat) : Recorder :=
  { recorderCycles r (min (cycle - r.drainAt) (r.queue.length + r.waits.length + 1)) with drainAt := max r.drainAt cycle }

/-- The staging entries that are taken: by accepted records and by those that wait to be (entry 38). -/
def stagedIn (r : Recorder) : Nat := r.queue.length + r.waits.length

/-- A record offered for staging: a maskable one that finds fewer than 9 free entries is dropped and counted (R352). DESIGN CHOICE (entry
38): R352 does not say what becomes of a third record of a cycle; it waits for its turn, and takes an entry while it does. -/
def stageOne (r : Recorder) (type : Nat) (x : BitVec 128) : Recorder :=
  if maskable type && decide (32 - stagedIn r < 9) then { r with dropped := r.dropped + 1 }
  else { r with waits := r.waits ++ [(type, x)] }

/-- The recorder as it stands at the start of a cycle: the records of an earlier cycle staged in that cycle's order, and the queue
drained. -/
def rcdAt (r : Recorder) (cycle : Nat) : Recorder :=
  if r.madeAt < cycle then
    runTo (r.made.foldl (fun r e => stageOne r e.2.1 e.2.2) { runTo r r.madeAt with made := [], madeAt := cycle }) cycle
  else runTo r cycle

/-- The place of a record among those of its cycle: ascending issue slot, then TYPE (R352). Its slot is that of its thread's lane
frame; one without a thread counts with slot 0 (entry 38). -/
def recordPlace (type : Nat) (x : BitVec 128) : Nat :=
  let thr := bits x.toNat 23 8
  let lf := if thr = 0xFFFF then 0 else thr / 32 % 64
  lf / 16 * 16 + type

/-- The place of a STOP record among a core's STOP records of one cycle (R361): traps and faults before debugger halts, by lane frame and
engine, so the primary first; then those of kind 0 as they are written. -/
def stopPlace (x : BitVec 128) : Nat :=
  let kind := bits x.toNat 65 60
  if kind = 0 then 2 ^ 20 else (if kind = 16 then 2 ^ 12 else 0) + bits x.toNat 23 8 / 32 % 64 * 16 + bits x.toNat 59 56

/-- Whether a record made in a cycle stays before one made later in it, whatever their slots: a SLICE record parts the records of two
contexts (R356), and a core's STOP records keep R361's order among themselves. -/
def staysBefore (x e : Nat × Nat × BitVec 128) : Bool :=
  decide (x.2.1 = 9) || decide (e.2.1 = 9) || (decide (x.2.1 = 11 ∧ e.2.1 = 11) && decide (stopPlace x.2.2 ≤ stopPlace e.2.2))

/-- An entry put behind those of its place and before those of a later one (R352). -/
def insertMade (e : Nat × Nat × BitVec 128) : List (Nat × Nat × BitVec 128) → List (Nat × Nat × BitVec 128)
  | [] => [e]
  | x :: t =>
    if (x :: t).any (fun y => staysBefore y e) then x :: insertMade e t
    else if x.1 ≤ e.1 && !(decide (x.2.1 = 11 ∧ e.2.1 = 11)) then x :: insertMade e t
    else e :: x :: t

/-- A record made in a cycle, unless RCTL or a stop suppresses it (R345, R351, R359). -/
def stage (r : Recorder) (cycle type : Nat) (x : BitVec 128) : Recorder :=
  if r.off && type != 11 then r
  else if maskable type && !r.rctl.getLsbD type then r
  else
    let r1 := rcdAt r cycle
    { r1 with made := insertMade (recordPlace type x, type, x) r1.made, madeAt := cycle }

/-- The staging entries in use in a cycle. -/
def stagedNow (r : Recorder) (cycle : Nat) : Nat := stagedIn (rcdAt r cycle)

/-- TRAIL (R347): the die's state and bits 23:4 of the time counter. -/
def trail (s : State) (c : Nat) : Nat := s.vf.getD (dieOf c) 0 * 2 ^ 20 + s.cycle / 16 % 2 ^ 20

def modRcd (s : State) (c : Nat) (f : Recorder → Recorder) : State := modCore s c (fun k => { k with rcd := f k.rcd })

/-- An event recorded on a core. -/
def record (s : State) (c type : Nat) (thr : BitVec 16) (pc : DWord) (data : Nat) : State :=
  modRcd s c (fun r => stage r s.cycle type (recordBits type thr pc data (trail s c)))

/-- A sampled LOAD or STORE record (R348, R351): one for every 2^MSHIFT requests of the core. -/
def recordAccess (s : State) (c type : Nat) (thr : BitVec 16) (pc : DWord) (addr place grain : Nat) : State :=
  let r := (core s c).rcd
  let period := 2 ^ bits r.rctl.toNat 23 20
  if r.cntMem + 1 < period then modRcd s c (fun r => { r with cntMem := r.cntMem + 1 })
  else
    let s1 := modRcd s c (fun r => { r with cntMem := 0 })
    record s1 c type thr pc (addr % 2 ^ 48 / 16 * 16 + place * 4 + grain)

/-- A PARK or UNPARK record (R348, R349). -/
def recordPark (s : State) (c lf : Nat) (unpark : Bool) (lanes : LaneMask) (pc : DWord) (cause : Nat) : State :=
  if lanes = 0 then s
  else record s c (if unpark then 8 else 7) (thrField lf (lowest lanes)) pc (lanes.toNat + cause * 2 ^ 32)

/-- The cause code of a wait (R349). -/
def Wait.cause : Wait → Nat
  | .migration _ _ => 1 | .host _ => 2 | .monitor _ => 3 | .syscall _ => 4 | .latch => 5

/-! ## The undo log (R368) -/

/-- Whether undo logging applies: UNDO is set and the context named runs (R367). -/
def undoOn (s : State) : Bool :=
  s.dbgctl.getLsbD 17 && s.slice.isSome && decide (bits s.dbgctl.toNat 15 0 = ctxId s)

/-! ## The issuing bundle -/

/-- What the word that issues sees: its core, lane frame number, lane frame and running clause. -/
structure Iss where
  c : Nat
  l : Nat
  f : LaneFrame
  cl : Clause
deriving DecidableEq, Repr

/-- The issuing bundle, if `at_` names a lane frame with a running clause that does not hold at a fence or a call. -/
def issuing (s : State) : Option Iss :=
  match s.at_ with
  | none => none
  | some (c, l) =>
    match laneFrame s c l with
    | none => none
    | some f => match f.clause with
      | none => none
      | some cl => if f.fence.isNone && f.call.isNone then some ⟨c, l, f, cl⟩ else none

def Iss.hdr (u : Iss) : Header := Header.ofWord u.cl.hdr
def Iss.lanes (u : Iss) : List Nat := lanesOf u.cl.lanes
def Iss.addr (u : Iss) : Nat := wordAddr u.cl.hdrAddr u.cl.pos
/-- The image of the word that issues. -/
def Iss.pc (u : Iss) : DWord := pcImage u.cl.pos u.addr
def Iss.low (u : Iss) : Nat := lowest u.cl.lanes
/-- The flag the word's selector names (R146, R126). -/
def Iss.flag (u : Iss) (f : Side) : Option Nat := u.hdr.flag f

/-- The bundle holds at its word: nothing changes, and another event goes next. -/
def hold (s : State) : State := { s with at_ := none }

/-! ## Where threads go -/

/-- Whether the header word at an address makes a regroup point (R265): HDR and RG are read there. -/
def isRegroup (w : Word) : Bool := (Header.ofWord w).hdr == 5 && (Header.ofWord w).rg

/-! ## Taking a stop: the Z9's exception entry (R357 to R363) -/

/-- An event that stops the context: kind, the raising core, the lane frame and engine of its record, THREAD, PC and
DETAIL (R360), and, for a bundle that trapped, its lanes (R363). -/
structure Event where
  kind : Nat
  core : Nat
  lf : Nat
  engine : Nat
  thr : BitVec 16
  pc : DWord
  detail : Nat
  bundle : Option LaneMask
deriving DecidableEq, Repr

/-- DATA of a STOP record (R360): DETAIL in bits 47:10, KIND in 9:4, ENGINE in 3:0. -/
def stopData (kind engine detail : Nat) : Nat := detail % 2 ^ 38 * 2 ^ 10 + kind % 64 * 16 + engine % 16

/-- Whether an event ranks before the primary of a stop raised in the same cycle (R357): traps and faults before debugger
halts, then core, lane frame and engine. -/
def outranks (e : Event) (p : Stop) (cycle : Nat) : Bool :=
  decide (p.cycle = cycle) &&
  (let ke := if e.kind = 16 then 1 else 0
   let kp := if p.kind = 16 then 1 else 0
   decide (ke < kp) || (decide (ke = kp) && (decide (e.core < p.core) ||
     (decide (e.core = p.core) && (decide (e.lf < p.lf) || (decide (e.lf = p.lf) && decide (e.engine < p.engine)))))))

/-- The stop after an event: the first event is the primary (R357). -/
def stopWith (s : State) (e : Event) : Option Stop :=
  match s.stop with
  | none => some ⟨e.kind, e.core, e.lf, e.engine, s.cycle, decide (e.kind = 16), false, false, [], []⟩
  | some p =>
    let p1 := if outranks e p s.cycle then { p with kind := e.kind, core := e.core, lf := e.lf, engine := e.engine } else p
    some { p1 with dbg := p1.dbg || decide (e.kind = 16) }

/-- MTRAP of a trapped bundle (R363). -/
def mtrapImage (kind lf : Nat) (lanes : LaneMask) : DWord :=
  BitVec.ofNat 64 (2 ^ 44 + kind % 64 * 2 ^ 38 + lf % 64 * 2 ^ 32 + lanes.toNat)

/-- The clause of a bundle that trapped ends; its threads keep the image of the word and are parked by the stop (R359). -/
def parkBundle (f : LaneFrame) (lanes : LaneMask) : LaneFrame :=
  modThreads { f with clause := none, offer := none, fence := none, call := none } lanes
    (fun _ t => if t.live then { t with parked := true, stop := true } else t)

/-- TAKING A STOP (R357, R359, R360, R363): the event becomes primary or secondary, its record is written, the threads of a
trapped bundle keep the image of their word and are parked, and MTRAP describes the core's first trapped bundle. -/
def raise (s : State) (e : Event) : State :=
  let s1 := { s with stop := stopWith s e, at_ := none }
  let s2 := modCore (record s1 e.core 11 e.thr e.pc (stopData e.kind e.engine e.detail)) e.core
    (fun k => if e.engine = 0 then k else { k with raised := k.raised ++ [e.engine] })
  match e.bundle with
  | none => s2
  | some m =>
    let s3 := modLF s2 e.core e.lf (fun f => parkBundle f m)
    modCore s3 e.core (fun k =>
      { k with mtrap := if k.mtrap.getLsbD 44 then k.mtrap else mtrapImage e.kind e.lf m })

/-- `trap(kind)` of R9: the word has no effect and the stop names its bundle. -/
def trap (s : State) (u : Iss) (kind detail : Nat) : State :=
  raise s ⟨kind, u.c, u.l, 0, thrField u.l u.low, u.pc, detail, some u.cl.lanes⟩

/-- MHALT (R363), computed from the stop. -/
def mhalt (s : State) : DWord :=
  match s.stop with
  | none => 0
  | some p => BitVec.ofNat 64 (1 + p.kind % 64 * 2 ^ 8 + p.core % 1024 * 2 ^ 14 + bnat p.dbg * 2 ^ 25 +
      bnat p.expiry * 2 ^ 26)

/-- RETURNING FROM A STOP (R365 steps 2, 3 and 5): every recorder writes a TIMEBASE record and records again, threads
parked only by the stop unpark with their lane frame's count as their stamp (R13, R15), and STOPPED returns to 0. MTRAP and MMXERR are cleared (R363, R409).
DESIGN CHOICE (entry 110): a thread that a completed regroup had released before the stop passes its header; it does not arrive there anew
(R265 is silent on one that is released and has not issued). -/
def unstop (s : State) : State :=
  let wake (n : Word) (t : Thread) : Thread :=
    if t.wait.isSome then { t with stop := false } else { t with stop := false, parked := false, stamp := n }
  let cores := (List.range (coreCount s)).map (fun c =>
    let k := core s c
    (c, { k with
      mtrap := 0
      mmxerr := 0
      raised := []
      c := { k.c with lfs := k.c.lfs.map (fun x =>
        (x.1, { x.2 with threads := x.2.threads.map (fun y => (y.1, if y.2.stop then wake x.2.count y.2 else y.2)) })) }
      rcd := stage { k.rcd with off := false } s.cycle 14
        (recordBits 14 noThread 0 (s.cycle / 2 ^ 24 % 2 ^ 40) (trail s c)) }))
  { s with cores := cores, stop := none }

/-! ## Results (R127, R163, R164) -/

/-- The token of slot `i` of an operation; never 0. -/
def token (op i : Nat) : Nat := op * 8 + i + 1

/-- The age queue after `k` shifts for an operation: the slots nearest the front are pending, the lowest-addressed word
deepest (R111). -/
def shiftQueue (q : List Slot) (op k : Nat) (pc : DWord) : List Slot :=
  ((List.range k).reverse.map (fun i => Slot.mk (Config.freeWord (token op i)) (token op i) pc) ++ q).take 16

/-- The registers a result of `k` words writes for DST `d` (R145); none for DST 0. -/
def regsOf (d k : Nat) : List Nat := if d = 0 then [] else (List.range k).map (fun i => d + i)

/-- Whether any present thread has a pending write to a register that the word writes (R164: the word is held). -/
def writeHeld (u : Iss) (regs : List Nat) : Bool :=
  u.lanes.any (fun i => (thread u.f i).np.any (fun p => regs.contains p.reg))

/-- Each present thread's queue shifts and its named registers get pending writes, when the word issues. -/
def pend (f : LaneFrame) (lanes : LaneMask) (op k d : Nat) (long : Bool) (pc : DWord) : LaneFrame :=
  modThreads f lanes (fun _ t =>
    { t with
      q := shiftQueue t.q op k pc
      np := t.np ++ (regsOf d k).mapIdx (fun i r => NPend.mk r (token op i) long pc) })

/-- A slot filled: a held window write overrides the value (R316). -/
def fillSlot (t : Thread) (tok : Nat) (v : Word) : Thread :=
  { t with
    q := t.q.map (fun x => if x.tok = tok then { x with val := (lookup t.winq tok).getD v, tok := 0 } else x)
    winq := drop t.winq tok }

/-- A pending write of a named register lands (R164). -/
def landReg (t : Thread) (tok : Nat) (v : Word) : Thread :=
  match t.np.find? (fun p => p.tok = tok) with
  | none => t
  | some p => { t with n := t.n.set p.reg v, np := t.np.filter (fun p => p.tok != tok) }

/-- The words of one lane delivered (R163): slots filled and named registers written. -/
def deliverLane (t : Thread) (op : Nat) (vals : List Word) : Thread :=
  (vals.mapIdx (fun i v => (i, v))).foldl (fun t e => landReg (fillSlot t (token op e.1) e.2) (token op e.1) e.2) t

/-- A fresh operation number. -/
def fresh (s : State) : State := { s with ops := s.ops + 1 }

end Sys2Proof.Machine
end

