-- ==== Sys2Proof/Machine/Operands.lean ====
section
/-!
DEFINITION. Machine/Operands.lean: the operand forms: register selectors (R144), crossbar patterns (R182), the value read
from another lane (R183), 64-bit sources (R111), immediates, addresses (R201, R202), and the values of special registers.
-/
namespace Sys2Proof.Machine

/-- The source lane of a pattern (R182) for a reading lane, with the lowest present lane for :bclo. Pattern values 14 and 15
do not occur in a well-formed word; they read as :id here. -/
def sourceLane (pat : BitVec 4) (lane low : Nat) : Nat :=
  match pat.toNat with
  | 0 => lane
  | 1 => (lane + 1) % 32
  | 2 => (lane + 2) % 32
  | 3 => (lane + 4) % 32
  | 4 => (lane + 8) % 32
  | 5 => (lane + 16) % 32
  | 6 => lane ^^^ 1
  | 7 => lane ^^^ 2
  | 8 => lane ^^^ 4
  | 9 => lane ^^^ 8
  | 10 => lane ^^^ 16
  | 11 => 31 - lane
  | 12 => 0
  | 13 => low
  | _ => lane

/-- A named register (R9: n0 reads 0); `none` while a write that is not long-latency is pending (R162). -/
def readNamed (t : Thread) (i : Nat) : Option Word :=
  if i = 0 then some 0
  else if t.np.any (fun p => decide (p.reg = i) && !p.long) then none
  else some (t.n.getD i 0)

/-- An age slot, `k` = 0 for q1; `none` while it is pending (R162). -/
def readAge (t : Thread) (k : Nat) : Option Word :=
  let x := t.q.getD k ⟨0, 0, 0⟩
  if x.tok = 0 then some x.val else none

/-- The register a selector names (R144): 0 to 15 are q1 to q16, 16 to 31 are n0 to n15. -/
def readSel (t : Thread) (sel : Nat) : Option Word := if sel < 16 then readAge t sel else readNamed t (sel - 16)

/-- The value of a selector in source lane S (R183): an Empty lane reads 0. -/
def readFrom (f : LaneFrame) (lane sel : Nat) : Option Word :=
  if (thread f lane).occupied then readSel (thread f lane) sel else some 0

/-- A 32-bit source of one lane (R162, R182). -/
def read32 (u : Iss) (x : Src) (lane : Nat) : Option Word := readFrom u.f (sourceLane x.pat lane u.low) x.sel.toNat

/-- A selector without a pattern (R140, R147). -/
def readSC (u : Iss) (sel : BitVec 5) (lane : Nat) : Option Word := readFrom u.f lane sel.toNat

/-- Two words as 64 bits. -/
def join (hi lo : Word) : DWord := hi ++ lo

/-- A 64-bit selector (R111): qj holds the high word and q(j+1) the low; n(2k) the low and n(2k+1) the high. -/
def readSel64 (f : LaneFrame) (lane sel : Nat) : Option DWord :=
  if sel < 16 then
    (readFrom f lane sel).bind (fun hi => (readFrom f lane (sel + 1)).map (fun lo => join hi lo))
  else
    (readFrom f lane sel).bind (fun lo => (readFrom f lane (sel + 1)).map (fun hi => join hi lo))

/-- A 64-bit source of one lane (R162: both words from the same source lane). -/
def read64 (u : Iss) (x : Src) (lane : Nat) : Option DWord :=
  readSel64 u.f (sourceLane x.pat lane u.low) x.sel.toNat

/-- A 64-bit selector without a pattern. -/
def readSC64 (u : Iss) (sel : BitVec 5) (lane : Nat) : Option DWord := readSel64 u.f lane sel.toNat

/-- A value for every present lane, or `none` when one of them must wait. -/
def eachLane {α : Type} (u : Iss) (g : Nat → Option α) : Option (Table α) :=
  u.lanes.mapM (fun i => (g i).map (fun v => (i, v)))

/-- The sign-extended IMM11 (R141). -/
def imm11 (i : BitVec 11) : Word := i.signExtend 32
/-- The sign-extended OFF9 (R142). -/
def off9 (x : BitVec 9) : Int := x.toInt
/-- Four times the sign-extended IMM24 (R143, R263). -/
def off24 (i : BitVec 24) : Int := 4 * i.toInt

/-- `deliver` of 32 bits. -/
def out32 (v : Word) : List Word := [v]
/-- `deliver` of 64 bits: the low word first (R111). -/
def out64 (v : DWord) : List Word := [v.extractLsb' 0 32, v.extractLsb' 32 32]

/-- ea of R201: base plus offset modulo 2^32. -/
def effective (base : Word) (off : Int) : Nat := (((base.toNat : Int) + off) % (2 ^ 32 : Nat)).toNat

/-- va of R201. -/
def regionVa (region ea : Nat) : Nat := region * 2 ^ 32 + ea % 2 ^ 32

/-- Whether a 32-bit address is a cluster scratchpad address in family 7 (R202). -/
def isCluster (ea : Nat) : Bool := decide (ea / 2 ^ 25 = 0x7F)
def clusterRank (ea : Nat) : Nat := bits ea 24 21
def clusterOff (ea : Nat) : Nat := bits ea 20 0

/-! ## Special registers (R20, R299) -/

def tidOf (f : LaneFrame) (lane : Nat) : Word := BitVec.ofNat 32 (f.wlf * 32 + lane)
def wgReg (w : Workgroup) : Word := BitVec.ofNat 32 (w.core * 16 + w.rank)
/-- The coordinates of cluster n in the linear order x + X × (y + Y × z) (R20). -/
def clusterX (x : Launch) (n : Nat) : Nat := n % x.x
def clusterY (x : Launch) (n : Nat) : Nat := n / x.x % x.y
def clusterZ (x : Launch) (n : Nat) : Nat := n / x.x / x.y
/-- %stage (R20, R21). -/
def stageReg (x : Launch) (n : Nat) : Word := BitVec.ofNat 32 ((x.stages - 1) * 8 + n % x.stages)
/-- %ctx (R299). -/
def ctxReg (s : State) : Word :=
  match s.slice with
  | some x => BitVec.ofNat 32 (x.desc.fn % 128 * 65536 + x.desc.ctx % 65536)
  | none => 0

end Sys2Proof.Machine
end

