-- ==== Sys2Proof/Machine/Canopy.lean ====
section
/-!
DEFINITION. Machine/Canopy.lean: Canopy entries (R32, R33), frames and their seal words (R42 to R45), the die layers (R35),
the global layer and its walk (R34, R378), the home slice's markers (R37), the translation store (R40, R41) and the
directory (R46), as lookups and updates of the state.
-/
namespace Sys2Proof.Machine

/-! ## Entries -/

def entKind (e : DWord) : Nat := bits e.toNat 1 0
def entOrd (e : DWord) : Nat := bits e.toNat 3 2
def entW (e : DWord) : Bool := e.getLsbD 4
def entX (e : DWord) : Bool := e.getLsbD 5
def entM (e : DWord) : Bool := e.getLsbD 6
def entB (e : DWord) : Bool := e.getLsbD 7
def entHint (e : DWord) : Nat := bits e.toNat 10 8
def entD (e : DWord) : Bool := e.getLsbD 11
def entSeal (e : DWord) : BitVec 8 := e.extractLsb' 12 8
/-- The key of the frame that a kind-1 entry names: (die × 128 + selector) × 2048 + frame number. -/
def entFrame (e : DWord) : Nat := (bits e.toNat 23 20 * 128 + bits e.toNat 30 24) * 2048 + bits e.toNat 41 31
/-- The page number of a kind-2 or kind-3 entry. -/
def entPage (e : DWord) : Nat := bits e.toNat 63 20

/-- An entry with one bit set to a value. -/
def setBit (e : DWord) (i : Nat) (v : Bool) : DWord := if v then e ||| BitVec.twoPow 64 i else e &&& ~~~(BitVec.twoPow 64 i)

/-! ## Frames (R30) -/

def frameKey (die sel fr : Nat) : Nat := (die * 128 + sel) * 2048 + fr
def keyDie (k : Nat) : Nat := k / 2048 / 128
def keySel (k : Nat) : Nat := k / 2048 % 128
def keyFrame (k : Nat) : Nat := k % 2048
/-- Whether a key names a frame: near 0 to 1535, far 0 to 1023. -/
def frameExists (s : State) (k : Nat) : Bool :=
  decide (keyDie k < dies s) && ((decide (keySel k < 64) && decide (keyFrame k < 1536)) ||
    (decide (64 ≤ keySel k) && decide (keySel k < 96) && decide (keyFrame k < 1024)))
/-- The near frame of a core. -/
def nearKey (c fr : Nat) : Nat := frameKey (dieOf c) (posOf c) fr
/-- The storage number of a frame's first byte. -/
def frameAt (k : Nat) : Nat := Config.frameBase + 4096 * k

def frame (s : State) (k : Nat) : Frame := look s.frames k .reset
def modFrame (s : State) (k : Nat) (f : Frame → Frame) : State := { s with frames := change s.frames k .reset f }

/-- The seal word of a frame (R42); VALID of a frame that is retired, or whose seal word has an uncorrectable error, reads 0 (R378). -/
def sealWord (f : Frame) : Word :=
  BitVec.ofNat 32 (bnat (f.valid && !f.retired && !f.damaged) * 2 ^ 26 + bnat f.pin * 2 ^ 25 + bnat f.ref * 2 ^ 24 + f.ctx % 65536 * 256 + f.stamp.toNat)

/-- The seal check of R43: context and seal equal, and the frame holds a page; VALID of a retired frame, and of one whose seal word has an
uncorrectable error, reads 0 (R378). -/
def sealOk (s : State) (k ctx : Nat) (sl : BitVec 8) : Bool :=
  (frame s k).valid && !(frame s k).retired && !(frame s k).damaged && decide ((frame s k).ctx = ctx) && decide ((frame s k).stamp = sl)

/-- Within 32 cycles of its last remap (R44). -/
def tooSoon (s : State) (f : Frame) : Bool :=
  match f.lastRemap with
  | none => false
  | some t => decide (s.cycle < t + 32)

/-- A remap of a frame (R44): SEAL rises by 1 and the change is made. -/
def remap (s : State) (k : Nat) (g : Frame → Frame) : State :=
  modFrame s k (fun f => { g f with stamp := f.stamp + 1, lastRemap := some s.cycle })

/-! ## Backing storage, keys and the home of an HBM byte (R37, R58, R59) -/

def marker (s : State) (page : Nat) : Marker := look s.markers page .reset
def modMarker (s : State) (page : Nat) (f : Marker → Marker) : State := { s with markers := change s.markers page .reset f }

/-- The stack (die), pseudo-channel and home slice of an HBM page (R33, R58). -/
def pageStack (p : Nat) : Nat := p / 2 ^ 24
def pageChan (p : Nat) : Nat := p % 2 ^ 24 % 192
def pageSlice (p : Nat) : Nat := pageChan p / 6

/-- Whether a frame holds an HBM page now. -/
def holdsPage (s : State) (k page : Nat) : Bool := (frame s k).valid && decide ((frame s k).backing = page)

/-- The slice frame to which a sequence has moved a page whose marker it has not rewritten yet (R48 steps 4 and 5). -/
def movedFrame (s : State) (page : Nat) : Option Nat :=
  s.seqs.findSome? (fun q => match q.victim with
    | some ⟨p, some t, _⟩ => if q.remapped ∧ p.backing = page then some t else none
    | _ => none)

/-- The home of byte `off` of an HBM page with W = 1: the frame that holds it, or HBM (R73). -/
def homeByte (s : State) (page off : Nat) : Nat :=
  match (marker s page).frame with
  | some k =>
    if holdsPage s k page then frameAt k + off
    else match movedFrame s page with
      | some t => frameAt t + off
      | none => page * 4096 + off
  | none => page * 4096 + off

/-- The number of the key under which a slot encrypts now, that of its material: equal material is one key in whatever slot and whenever it was
written; 0 is no key's number. None while the slot is invalid (R59, R390). -/
def keyOfSlot (s : State) (slot : Nat) : Option Nat :=
  (lookup s.keySlots slot).map (fun k => leNat k + 1)

/-- Whether a storage number lies behind an encryption boundary: HBM or the capacity tier (R59). -/
def encrypted (n : Nat) : Bool :=
  decide (n < 2 ^ 40) || (decide (Config.capBase ≤ n) && decide (n < Config.frameBase))

/-- Whether a storage number names a place of a scratchpad whose workgroup has finished (entry 78). -/
def isGone (n : Nat) : Bool := decide (Config.goneBase ≤ n) && decide (n < 2 ^ 50)

/-- A byte as a key reads it (R59, R390); a place that is gone reads as nothing known (entry 78). -/
def byteUnder (s : State) (key : Nat) (n : Nat) : Byte :=
  let b := Mem.byte s.mem n
  if encrypted n then
    match lookup s.cipher (n / 16) with
    | none => b
    | some k => if k = key then b else Config.misread (n / 16) k key b
  else if isGone n then Config.goneByte n s.cycle
  else b

/-- Bytes as a key reads them. -/
def readUnder (s : State) (key n len : Nat) : List Byte := (List.range len).map (fun i => byteUnder s key (n + i))

/-- The key of the host granule that holds a device physical address (R325, R390). -/
def hostKey (s : State) (a : Nat) : Option Nat := keyOfSlot s (look s.keyTable (a / 2 ^ 30) 0)

/-- Bytes at a device physical address that belong to no context, as the part itself reads them: at their homes, under the granule's key
(R325; entry 26). -/
def granuleBytes (s : State) (a n : Nat) : List Byte :=
  (List.range n).map (fun i => byteUnder s ((hostKey s (a + i)).getD 0) (homeByte s ((a + i) / 4096) ((a + i) % 4096)))

/-- The context descriptor's words, for a context that runs or from CTXTAB (R298). -/
def descBytes (s : State) (ctx : Nat) : Option (List Byte) :=
  s.ctxtab.map (fun b => granuleBytes s (b + 64 * ctx) 64)

def descOf (ctx : Nat) (b : List Byte) : Descriptor where
  ctx := ctx
  root := leNat (b.take 8)
  pool := leNat ((b.drop 8).take 8)
  fn := leNat ((b.drop 18).take 1)
  key := leNat ((b.drop 20).take 2)
  pasid := leNat ((b.drop 24).take 4)
  save := leNat ((b.drop 32).take 8)

/-- Whether a descriptor can be used (R298, R404 code 6). -/
def descOk (ctx : Nat) (b : List Byte) : Bool :=
  decide (leNat ((b.drop 16).take 2) = ctx) &&
  decide (leNat (b.take 8) % 4096 = 0) && decide (leNat (b.take 8) < 2 ^ 52) &&
  decide (leNat ((b.drop 8).take 8) % 64 = 0) && decide (leNat ((b.drop 18).take 1) ≤ 64) &&
  decide (leNat ((b.drop 19).take 1) = 0) && decide (leNat ((b.drop 20).take 2) < 2048) &&
  decide (leNat ((b.drop 22).take 2) = 0) && decide (leNat ((b.drop 24).take 4) < 2 ^ 20) &&
  decide (leNat ((b.drop 28).take 4) = 0) && decide (leNat ((b.drop 32).take 8) % 2 ^ 22 = 0) &&
  decide (leNat ((b.drop 40).take 24) = 0)

/-- The descriptor of a context that does not run: the one that its last slice read, since a change takes effect at its next slice
(R298); the one in memory where it has had no slice. -/
def descOut (s : State) (ctx : Nat) : Option Descriptor :=
  match lookup s.descs ctx with
  | some d => some d
  | none => (descBytes s ctx).map (descOf ctx)

/-- The descriptor of a context: the one read when its slice began, or that of a context that is out. -/
def descriptor (s : State) (ctx : Nat) : Option Descriptor :=
  match s.slice with
  | some x => if x.desc.ctx = ctx then some x.desc else descOut s ctx
  | none => descOut s ctx

/-- The key of a context (R59, R298). -/
def keyOf (s : State) (ctx : Nat) : Option Nat := (descriptor s ctx).bind (fun d => keyOfSlot s d.key)

/-- The key of a context for a write that the model has already checked; 0 stands for none. -/
def keyNow (s : State) (ctx : Nat) : Nat := (keyOf s ctx).getD 0

/-- The 16-byte units that bytes lie in, encrypted from now on under a key: bytes of a unit that another key wrote are
re-encrypted as they read. -/
def sealUnit (s : State) (key unit : Nat) : State :=
  match lookup s.cipher unit with
  | none => { s with cipher := put s.cipher unit key }
  | some k =>
    if k = key then s
    else { s with
      mem := Mem.write s.mem (16 * unit) (readUnder s key (16 * unit) 16)
      cipher := put s.cipher unit key }

/-- Bytes (offset and value) stored from a base, encrypted under a key where the place is encrypted; at a place that is gone nothing is
stored (entry 78). -/
def storeUnder (s : State) (key base : Nat) (d : Table Byte) : State :=
  let units := (d.map (fun e => (base + e.1) / 16)).dedup
  let s1 := if encrypted base then units.foldl (fun s u => sealUnit s key u) s else s
  if isGone base then s else { s1 with mem := Mem.patch s1.mem base d }

/-- Whether an HBM page lies in a pseudo-channel that failed its training (R424). -/
def chanDead (s : State) (page : Nat) : Bool :=
  decide (page < 2 ^ 28) && s.deadChans.contains (pageStack page * 192 + pageChan page)

/-- The poison mark of a 32-byte unit (R393); every unit of a dead pseudo-channel reads as poisoned (R424). -/
def poisoned (s : State) (n : Nat) : Bool := s.poison.contains (n / 32) || chanDead s (n / 4096)

/-! ## Pseudo-channels (R66) -/

def channelOf (s : State) (k : Nat) : Channel := look s.channels k .reset
def hcfgOf (s : State) (stack : Nat) : Word := look s.hcfg stack 0x0000FFFF

/-- Whether a pseudo-channel accepts a request in the window: in compatibility mode one that has moved BYTECAP units does not
(R66). -/
def channelOpen (s : State) (stack chan : Nat) : Bool :=
  !(hcfgOf s stack).getLsbD 31 || decide ((channelOf s (stack * 192 + chan)).units < bits (hcfgOf s stack).toNat 15 0)

/-- Whether the pseudo-channel of an HBM page accepts a request. -/
def pageOpen (s : State) (page : Nat) : Bool := channelOpen s (pageStack page) (pageChan page)

/-- How many 128-byte requests the pseudo-channel of a page still takes in the window, at most 32: in compatibility mode none once BYTECAP
units have moved (R66). -/
def blocksOpen (s : State) (page : Nat) : Nat :=
  let h := hcfgOf s (pageStack page)
  if h.getLsbD 31 then
    min 32 ((bits h.toNat 15 0 - (channelOf s (pageStack page * 192 + pageChan page)).units + 7) / 8)
  else 32

/-- Units of 16 bytes that the pseudo-channel of a page moves (R66). -/
def moveUnits (s : State) (page : Nat) (units : Nat) : State :=
  { s with channels := change s.channels (pageStack page * 192 + pageChan page) .reset (fun h => { h with units := h.units + units }) }

/-! ## Back-invalidate snoops (R326) -/

/-- The 64-byte lines of HBM that bytes of a page touch and the host holds. -/
def trackedLines (s : State) (page : Nat) (offs : List Nat) : List Nat :=
  ((offs.map (fun o => (page * 4096 + o) / 64)).dedup).filter (fun l => s.snoopFilter.any (fun e => e.1 = l))

/-- Snoops sent for lines that have none outstanding. -/
def sendSnoops (s : State) (lines : List Nat) : State :=
  lines.foldl (fun s l =>
    if s.snoops.any (fun x => x.line = l) then s
    else { fresh s with snoops := s.snoops ++ [⟨s.ops, l⟩] }) s

/-! ## Die layers (R35, R36) -/

def bucketOf (ctx vpn : Nat) : Nat :=
  (vpn % 2 ^ 16 ^^^ vpn / 2 ^ 16 % 2 ^ 16 ^^^ (vpn / 2 ^ 32 % 16 * 2 ^ 12) ^^^ ctx) % 2 ^ 16
def slotKeys (die ctx vpn : Nat) : List Nat := (List.range 4).map (fun j => (die * 2 ^ 16 + bucketOf ctx vpn) * 4 + j)

/-- The 16 bytes of a slot: the tag (the page number in bits 35:0, the context in 51:36, the valid bit 63), then the entry; zeros for a
free slot (R35). -/
def dieSlotBytes (x : Option DieSlot) : List Byte :=
  match x with
  | some d => leBytes 8 (d.vpn % 2 ^ 36 + d.ctx % 2 ^ 16 * 2 ^ 36 + 2 ^ 63) ++ leBytes 8 d.ent.toNat
  | none => List.replicate 16 0

/-- The 64 bytes of a bucket of a die's layer, of its 65,536 (R35). -/
def bucketBytes (s : State) (die b : Nat) : List Byte :=
  (List.range 4).flatMap (fun j => dieSlotBytes (lookup s.dieLayer ((die * 2 ^ 16 + b) * 4 + j)))

/-- The slot of a page in a die's layer. The layer's 4 MiB lie in the die's own stack at a place that the manual does not give; the
model keeps the table beside memory, and no access reaches it there (entry 72, DESIGN CHOICE). -/
def dieSlot (s : State) (die ctx vpn : Nat) : Option (Nat × DieSlot) :=
  (slotKeys die ctx vpn).findSome? (fun k =>
    match lookup s.dieLayer k with
    | some x => if x.ctx = ctx ∧ x.vpn = vpn then some (k, x) else none
    | none => none)

/-- The slot that a page may take: its own, or the first free one of its bucket that no placement under way counts on (R36). -/
def slotFor (s : State) (die ctx vpn : Nat) : Option Nat :=
  match dieSlot s die ctx vpn with
  | some (k, _) => some k
  | none => (slotKeys die ctx vpn).find? (fun k => (lookup s.dieLayer k).isNone && !s.seqs.any (fun q => q.slots.contains k))

/-- The page's slot written; nothing when its bucket is full. -/
def writeSlot (s : State) (die ctx vpn : Nat) (e : DWord) : State :=
  match slotFor s die ctx vpn with
  | some k => { s with dieLayer := put s.dieLayer k ⟨ctx, vpn, e⟩ }
  | none => s

/-- The page's slot removed from a die's layer, if it names the given frame (R47). -/
def clearSlot (s : State) (die ctx vpn key : Nat) : State :=
  match dieSlot s die ctx vpn with
  | some (k, x) => if entFrame x.ent = key then { s with dieLayer := drop s.dieLayer k } else s
  | none => s

/-- A kind-1 entry: W, X, M, ordering and hint of the global entry, the frame, its seal and D (R35). -/
def onChip (g : DWord) (key : Nat) (sl : BitVec 8) (d : Bool) : DWord :=
  BitVec.ofNat 64 (1 + (g.toNat / 4 % 32) * 4 + entHint g * 256 + bnat d * 2 ^ 11 + sl.toNat * 2 ^ 12 +
    keyDie key * 2 ^ 20 + keySel key * 2 ^ 24 + keyFrame key * 2 ^ 31)

/-- D of a frame: kept in the die-layer entry of the die that holds the frame (R206). Where that entry was lost (R378), a page
with W = 1 counts as dirty, so that no write is lost (entry 14). -/
def frameDirty (s : State) (key : Nat) : Bool :=
  let f := frame s key
  match dieSlot s (keyDie key) f.ctx f.vpn with
  | some (_, x) => if entFrame x.ent = key then entD x.ent else decide ((marker s f.backing).frame = some key)
  | none => decide ((marker s f.backing).frame = some key)

/-- D of a frame set. -/
def setDirty (s : State) (key : Nat) : State :=
  let f := frame s key
  match dieSlot s (keyDie key) f.ctx f.vpn with
  | some (k, x) =>
    if entFrame x.ent = key then { s with dieLayer := put s.dieLayer k { x with ent := setBit x.ent 11 true } } else s
  | none => s

/-! ## Dies that answer with an error (R424, R426) -/

/-- Whether a die is off, lost or being reset, so that a request to it gets an error reply. -/
def dieGone (s : State) (d : Nat) : Bool := decide (s.dieState.getD d 0 = 0 ∨ s.dieState.getD d 0 = 6)

/-- Whether the stack that holds an HBM page gives error replies. -/
def pageGone (s : State) (page : Nat) : Bool := dieGone s (pageStack page)

/-- Whether the frame that an entry of kind 1 names, or the home slice of an entry of kind 2, gives an error reply. -/
def entGone (s : State) (e : DWord) : Bool :=
  match entKind e with
  | 1 => dieGone s (keyDie (entFrame e))
  | 2 => pageGone s (entPage e) ||
      (match (marker s (entPage e)).frame with | some k => holdsPage s k (entPage e) && dieGone s (keyDie k) | none => false)
  | _ => false

/-- The die of an HBM page's home: its stack's, or that of the frame which holds the page. -/
def homeDies (s : State) (page : Nat) : List Nat :=
  pageStack page :: (match (marker s page).frame with | some k => if holdsPage s k page then [keyDie k] else [] | none => [])

/-- Whether a die takes no new request at its edge (R424 step 2). -/
def dieFenced (s : State) (d : Nat) : Bool := decide (s.dieState.getD d 0 = 5)

/-- Whether a page's home lies in a fenced die. -/
def pageFenced (s : State) (page : Nat) : Bool := (homeDies s page).any (dieFenced s)

/-- Whether a request of a core through a translation stays outside a fenced die; what a die's own cores ask of it passes no edge. -/
def entFenced (s : State) (c : Nat) (e : DWord) : Bool :=
  let out (d : Nat) : Bool := dieFenced s d && decide (d ≠ dieOf c)
  match entKind e with
  | 1 => out (keyDie (entFrame e))
  | 2 => (homeDies s (entPage e)).any out
  | _ => false

/-! ## The global layer (R34, R378) -/

/-- What a walk finds: an entry of kind 2 or 3 and where it lies, nothing mapped, or a stop kind. -/
inductive Walk where
  | entry (e : DWord) (at_ : Nat)
  | absent
  | bad (kind : Nat)
deriving DecidableEq, Repr

/-- The home of an HBM address: the frame that holds its page, or HBM. -/
def homeNum (s : State) (a : Nat) : Nat := homeByte s (a / 4096) (a % 4096)

/-- Whether a write that the hardware has made to an HBM page waits there for its lane. -/
def hwPending (s : State) (page : Nat) : Bool := s.hwrites.any (fun w => decide (w.page = page) && decide (w.origin = .hw))

/-- The newest byte that the hardware's own waiting writes hold for an HBM address. -/
def hwByte (s : State) (n : Nat) : Option Byte :=
  s.hwrites.foldl (fun a w =>
    if w.origin = .hw ∧ w.page * 32 + w.block = n / 128 then match lookup w.data (n % 128) with | some b => some b | none => a else a) none

/-- Bytes at an HBM address, at their homes, as the hardware reads them for itself: the walks, the fault units and the log's reader see the
hardware's own writes that wait for the lane of their page. -/
def hwRead (s : State) (key a len : Nat) : List Byte :=
  (List.range len).map (fun i => ((if hwPending s ((a + i) / 4096) then hwByte s (a + i) else none).getD (byteUnder s key (homeNum s (a + i)))))

/-- A doubleword of a table in HBM, at its home, under the key of the context; none when a unit of it is poisoned. -/
def tableWord (s : State) (key a : Nat) : Option DWord :=
  if poisoned s (homeNum s a) then none else some (BitVec.ofNat 64 (leNat (hwRead s key a 8)))

/-- A level-4 entry checked when a walk reads it (R378). -/
def checkLeaf (s : State) (e : DWord) (at_ : Nat) : Walk :=
  match entKind e with
  | 0 => .absent
  | 1 => .bad 18
  | 2 => if decide (e.toNat / 2 ^ 48 = 0) && decide (pageStack (entPage e) < dies s) && decide (entHint e < 6) then .entry e at_ else .bad 18
  | _ => if decide (e.toNat / 2 ^ 52 = 0) && decide (entHint e < 6) then .entry e at_ else .bad 18

/-- The walk below a table, for the index digits that are left. -/
def walkFrom (s : State) (key : Nat) : Nat → List Nat → Walk
  | _, [] => .absent
  | t, [i] =>
    if pageGone s (t / 4096) then .bad 29 else
    match tableWord s key (t + 8 * i) with
    | none => .bad 19
    | some e => checkLeaf s e (t + 8 * i)
  | t, i :: j :: r =>
    if pageGone s (t / 4096) then .bad 29 else
    match tableWord s key (t + 8 * i) with
    | none => .bad 19
    | some e =>
      if e.toNat / 2 ^ 52 ≠ 0 ∨ e.toNat / 2 % 2 ^ 11 ≠ 0 then .bad 18
      else if e.getLsbD 0 then walkFrom s key (e.toNat / 4096 * 4096) (j :: r) else .absent

/-- The indices of a virtual page number (R34). -/
def walkIndex (vpn : Nat) : List Nat := [bits vpn 35 27, bits vpn 26 18, bits vpn 17 9, bits vpn 8 0]

/-- The walk of the global layer for a page of a context. -/
def walk (s : State) (ctx vpn : Nat) : Walk :=
  match descriptor s ctx with
  | none => .absent
  | some d =>
    match keyOfSlot s d.key with
    | none => .bad 24
    | some k => walkFrom s k d.root (walkIndex vpn)

/-- The HBM address of a virtual address, none where its page has none on the part. -/
def pageAddr (s : State) (ctx va : Nat) : Option Nat :=
  match walk s ctx (va / 4096 % 2 ^ 36) with
  | .entry e _ => if entKind e = 2 then some (entPage e * 4096 + va % 4096) else none
  | _ => none

/-- The storage number of the home of a virtual address (R73), none where the page has none on the part. -/
def homeOf (s : State) (ctx va : Nat) : Option Nat := (pageAddr s ctx va).map (homeNum s)

/-- Where a monitored or reserved word lies now. -/
def locNum (s : State) : Loc → Option Nat
  | .virt ctx va => homeOf s ctx va
  | .store n => some n

/-- LR reservations on a unit that a write has touched are broken (R313). -/
def breakReserve (s : State) (n len : Nat) : State :=
  { s with cores := s.cores.map (fun e =>
      match e.2.mast.reserve with
      | some (loc, size, ok) =>
        match locNum s loc with
        | some a =>
          if a < n + len ∧ n < a + size then (e.1, { e.2 with mast := { e.2.mast with reserve := some (loc, size, false) } })
          else (e.1, { e.2 with mast := { e.2.mast with reserve := some (loc, size, ok) } })
        | none => e
      | none => e) }

/-- A request for bytes (offset in the block and value) of a 128-byte block of HBM, on its page's lane (R64, R65). -/
def laneBlock (s : State) (key block : Nat) (d : Table Byte) (charge : Option Nat) (o : WrFrom) (dirty : Option (Nat × Nat)) : State :=
  { fresh s with hwrites := s.hwrites ++ [
    { id := s.ops, page := block / 32, block := block % 32, mask := d.foldl (fun m e => m ||| BitVec.twoPow 128 e.1) 0, data := d
      poison := 0, charge := charge, entered := false, inBudget := charge.isNone, arrival := 0, rank := pageStack (block / 32), refusals := 0
      key := key, dirty := dirty, origin := o }] }

/-- Bytes (offset from a storage number of HBM and value) as requests of their pages' lanes, one for each block. -/
def laneBlocks (s : State) (key n : Nat) (d : Table Byte) (charge : Option Nat) (o : WrFrom) (dirty : Option (Nat × Nat)) : State :=
  ((d.map (fun e => (n + e.1) / 128)).dedup).foldl (fun t b =>
    laneBlock t key b ((d.filter (fun e => decide ((n + e.1) / 128 = b))).map (fun e => ((n + e.1) % 128, e.2))) charge o dirty) s

/-- Bytes at an HBM address, within one page, that the hardware writes for itself (a global entry, a pool's HEAD or slot, an entry of the
undo log). They take the page's write lane behind every older write of the page (R65), charged to no core; where the page lies in a frame
they are written there, but for a line that the host holds, whose snoop the write waits for on the lane (R326). DESIGN CHOICE (entry 80):
R64 names no core for these writes of entries, HEAD and slots. -/
def hwWrite (s : State) (key a : Nat) (l : List Byte) : State :=
  let n := homeNum s a
  if n < 2 ^ 40 ∨ !(trackedLines s (a / 4096) ((List.range l.length).map (fun i => a % 4096 + i))).isEmpty then
    laneBlocks s key a (l.mapIdx (fun i b => (i, b))) none .hw none
  else breakReserve (setDirty (storeUnder s key n (l.mapIdx (fun i b => (i, b)))) ((n - Config.frameBase) / 4096)) n l.length

/-- A global entry rewritten. -/
def writeEntry (s : State) (ctx at_ : Nat) (e : DWord) : State := hwWrite s ((keyOf s ctx).getD 0) at_ (leBytes 8 e.toNat)

/-- The HBM addresses at which a walk reads its tables (R34). -/
def walkReads (s : State) (key : Nat) : Nat → List Nat → List Nat
  | _, [] => []
  | t, [i] => [t + 8 * i]
  | t, i :: j :: r =>
    match tableWord s key (t + 8 * i) with
    | some e => if e.getLsbD 0 then (t + 8 * i) :: walkReads s key (e.toNat / 4096 * 4096) (j :: r) else [t + 8 * i]
    | none => [t + 8 * i]

/-- The HBM pages that a walk of the global layer for a page of a context reads; none in frames. -/
def walkPages (s : State) (ctx vpn : Nat) : List Nat :=
  match descriptor s ctx with
  | none => []
  | some d => match keyOfSlot s d.key with
    | none => []
    | some k => ((walkReads s k d.root (walkIndex vpn)).map (fun a => homeNum s a / 4096)).filter (fun p => decide (p < 2 ^ 28))

/-- The global entry of a page changed, if there is one and the change makes a difference. -/
def modEntry (s : State) (ctx vpn : Nat) (f : DWord → DWord) : State :=
  match walk s ctx vpn with
  | .entry e a => if f e = e then s else writeEntry s ctx a (f e)
  | _ => s

/-- Whether a rewriting of a page's global entry waits for its lane. -/
def entryPending (s : State) (ctx vpn : Nat) : Bool :=
  match walk s ctx vpn with
  | .entry _ a => hwPending s (a / 4096)
  | _ => false

/-! ## The translation store (R40, R41) and the directory (R46) -/

/-- A translation that the store holds and that has not expired. -/
def stored (s : State) (c ctx vpn : Nat) : Option DWord :=
  ((core s c).tstore.find? (fun t => decide (t.ctx = ctx ∧ t.vpn = vpn) &&
    (decide (entKind t.ent ≠ 1) || decide (s.cycle < t.cycle + 4096)))).map (fun t => t.ent)

/-- The store without the translations of a page. -/
def forget (s : State) (c ctx vpn : Nat) : State :=
  modCore s c (fun k => { k with tstore := k.tstore.filter (fun t => !decide (t.ctx = ctx ∧ t.vpn = vpn)) })

/-- The cycle at which the translation that a core holds of a page was fetched; now, where it holds none. -/
def fetchedAt (s : State) (c ctx vpn : Nat) : Nat :=
  match (core s c).tstore.find? (fun t => decide (t.ctx = ctx ∧ t.vpn = vpn)) with
  | some t => t.cycle
  | none => s.cycle

/-- Whether a frame has been remapped since a translation of it was fetched (R45). -/
def remappedSince (s : State) (k at_ : Nat) : Bool :=
  match (frame s k).lastRemap with
  | some t => decide (at_ < t)
  | none => false

/-- A translation installed; the oldest goes when 2048 are held (entry 10). -/
def install (s : State) (c ctx vpn : Nat) (e : DWord) : State :=
  modCore (forget s c ctx vpn) c (fun k => { k with tstore := (⟨ctx, vpn, e, s.cycle⟩ :: k.tstore).take 2048 })

/-- The directory notes that a core fetched a translation naming a frame (R46). -/
def noteHolder (s : State) (c key : Nat) : State :=
  let b := if dieOf c = keyDie key then posOf c else 64 + dieOf c
  modFrame s key (fun f => { f with holders := f.holders ||| BitVec.twoPow 80 b })

/-- A bucket with an uncorrectable error is rewritten as empty when it is read (R378). -/
def mendBucket (s : State) (die ctx vpn : Nat) : State :=
  let b := die * 2 ^ 16 + bucketOf ctx vpn
  if s.badBuckets.contains b then
    { s with
      dieLayer := (slotKeys die ctx vpn).foldl (fun t k => drop t k) s.dieLayer
      badBuckets := s.badBuckets.filter (fun x => x != b) }
  else s

/-- B of a page's global entry set or cleared. -/
def setEntryB (s : State) (ctx vpn : Nat) (b : Bool) : State := modEntry s ctx vpn (fun e => setBit e 7 b)

/-- A demotion gives way to an access that needs its page (R70): before it has rewritten the global entry its copy stops, B clears and
the page stays kind 2; it is evaluated again from its start. -/
def yieldDemotion (s : State) (ctx vpn : Nat) : State :=
  let down (q : PageReq) : Bool :=
    decide (q.ctx = ctx ∧ q.vpn = vpn ∧ 1 ≤ q.step ∧ q.step ≤ 3) && !q.hint && q.ctl.getLsbD 5
  match walk s ctx vpn with
  | .entry e _ =>
    if entKind e = 2 ∧ s.cores.any (fun x => x.2.c.pageReqs.any down) then
      let s1 := { s with cores := s.cores.map (fun x =>
        (x.1, modC x.2 (fun y => { y with pageReqs := y.pageReqs.map (fun q => if down q then { q with step := 0 } else q) }))) }
      let m := marker s1 (entPage e)
      let s2 := (m.frame.toList ++ m.replicas.map (fun r => r.2)).foldl (fun t k => modFrame t k (fun f => { f with busy := false })) s1
      setEntryB (modMarker s2 (entPage e) (fun m => { m with busy := m.busy.filter (fun i => !(s.cores.any (fun x => x.2.c.pageReqs.any (fun q => down q && decide (q.id = i))))) })) ctx vpn false
    else s
  | _ => s

/-- A fetch of a translation (R40): the store, the die layer, the global layer; installed, with the directory noted. The
answer is an entry of kind 1 to 3, or the kind of a stop; the walk's reads of HBM move their units (R66). An entry whose B is set is used and not kept: its attributes or place
are about to change (R225; entry 15), and a demotion that copies the page gives way (R70). -/
def fetchTrans (s : State) (c ctx vpn : Nat) : Except Nat DWord × State :=
  match stored s c ctx vpn with
  | some e => (.ok e, s)
  | none =>
    let t := mendBucket s (dieOf c) ctx vpn
    match dieSlot t (dieOf c) ctx vpn with
    | some (_, x) => (.ok x.ent, noteHolder (install t c ctx vpn x.ent) c (entFrame x.ent))
    | none =>
      let t1 := (walkPages t ctx vpn).foldl (fun t p => moveUnits t p 1) t
      match walk t ctx vpn with
      | .entry e _ => (.ok e, if entB e then yieldDemotion t1 ctx vpn else install t1 c ctx vpn e)
      | .absent => (.error 6, t1)
      | .bad k => (.error k, t1)

/-- Whether B is set at the marker of a page: by a placement (R48) or by a page-attribute request (R224). -/
def markerBusy (s : State) (page : Nat) : Bool := !(marker s page).busy.isEmpty

/-- Whether a fill or promotion on a die is bringing a page into a frame. An eviction of the page is no such sequence: loads are served
from the old place (R49). -/
def filling (s : State) (die ctx vpn : Nat) : Bool :=
  s.seqs.any (fun q => decide (q.kind ≠ .eviction ∧ q.ctx = ctx ∧ q.vpn = vpn ∧ keyDie q.dst = die))

/-- Whether a walk of the global layer meets a pseudo-channel that takes no request in this window (R66). -/
def walkShut (s : State) (ctx vpn : Nat) : Bool := (walkPages s ctx vpn).any (fun p => !pageOpen s p)

/-- Whether a fetch of a translation waits: the core holds none, and its die is filling the page (R57 row 2), so that the fetch then reads
the new slot; or a pseudo-channel of its walk is shut (R66). -/
def fetchWaits (s : State) (c ctx vpn : Nat) : Bool :=
  (stored s c ctx vpn).isNone && (filling s (dieOf c) ctx vpn ||
    (((dieSlot s (dieOf c) ctx vpn).isNone || s.badBuckets.contains (dieOf c * 2 ^ 16 + bucketOf ctx vpn)) && walkShut s ctx vpn))

/-- REF set at a frame that admits an access (R43). -/
def refFrame (s : State) (k : Nat) : State := modFrame s k (fun f => { f with ref := true })

end Sys2Proof.Machine
end

