-- ==== Sys2Proof/Machine/Memory.lean ====
section
/-!
DEFINITION. Machine/Memory.lean: writes applied at a location's home and what they set off (R73, R83, R206, R216, R303,
R313, R326, R368, R393, R397), monitors, threads waking, addresses of scratchpads (R31, R202, R208).
-/
namespace Sys2Proof.Machine

/-! ## Entries of the undo log, and deliveries (R368, R163) -/

/-- One entry appended to a lane frame's log in HBM (R368): charged to no core, always in budget (R64), and encrypted under the key of its
context (R59; entry 77), on the page's lane in the order of the effects; of more than 4096 entries the oldest is overwritten. -/
def undoLog (s : State) (c lf kind lane which pos pc old addr : Nat) : State :=
  if undoOn s then
    match laneFrame s c lf with
    | none => s
    | some f =>
      let at_ := bits s.dbgctl.toNat 63 36 * 2 ^ 20 + 65536 * (64 * c + lf) + 16 * (f.undo % 4096)
      let entry := leBytes 16 (kind + lane * 2 ^ 8 + which * 2 ^ 16 + pos * 2 ^ 24 + pc % 2 ^ 32 * 2 ^ 32 +
        old % 2 ^ 32 * 2 ^ 64 + addr % 2 ^ 32 * 2 ^ 96)
      modLF (hwWrite s (keyNow s (ctxId s)) at_ entry) c lf (fun f => { f with undo := f.undo + 1, undoBase := max f.undoBase (f.undo + 1 - 4096) })
  else s

/-- The q16 values that the shifts of a word discard are logged (R368, KIND 3). -/
def undoShifts (s : State) (u : Iss) (k : Nat) : State :=
  if undoOn s then
    u.lanes.foldl (fun s i => (List.range k).foldl (fun s j =>
      undoLog s u.c u.l 3 i 0 0 u.addr ((thread u.f i).q.getD (15 - j) ⟨0, 0, 0⟩).val.toNat 0) s) s
  else s

/-- The registers that a delivery to a lane replaces are logged (R368, KIND 2). -/
def undoRegs (s : State) (c lf lane op : Nat) (t : Thread) (k : Nat) : State :=
  if undoOn s then
    (List.range k).foldl (fun s i =>
      match t.np.find? (fun p => p.tok = token op i) with
      | none => s
      | some p => undoLog s c lf 2 lane p.reg 0 (pcAddr p.pc) ((t.n.getD p.reg 0).toNat) 0) s
  else s

/-- Values delivered to lanes of a lane frame. -/
def deliverTo (s : State) (c lf op : Nat) (vals : Table (List Word)) : State :=
  vals.foldl (fun s e =>
    match laneFrame s c lf with
    | none => s
    | some f =>
      let s1 := undoRegs s c lf e.1 op (thread f e.1) e.2.length
      modLF s1 c lf (fun f => modThread f e.1 (fun t => deliverLane t op e.2))) s

/-! ## Waking threads (R13, R15) -/

/-- The lanes of a lane frame whose wait satisfies a test. -/
def waiting (f : LaneFrame) (p : Wait → Bool) : LaneMask :=
  maskOf ((f.threads.filter (fun e => e.2.live && match e.2.wait with | some w => p w | none => false)).map (fun e => e.1))

/-- A thread that unparks: its stamp becomes the lane frame's count (R15); a stop keeps it parked (R359). -/
def wakeThread (count : Word) (t : Thread) : Thread := { t with wait := none, parked := t.stop, stamp := count, woken := 0 }

def wakeLF (f : LaneFrame) (m : LaneMask) : LaneFrame := modThreads f m (fun _ t => wakeThread f.count t)

/-- Lanes of a lane frame of the running context unpark, with an UNPARK record (R348). -/
def wakeLanes (s : State) (c l : Nat) (m : LaneMask) (cause : Nat) : State :=
  match laneFrame s c l with
  | none => s
  | some f =>
    if m = 0 then s
    else recordPark (setLF s c l (wakeLF f m)) c l true m (thread f (lowest m)).pc cause

/-- Every thread of a context whose wait satisfies a test unparks; one of a context that is out at the first turn after restore, so its
image keeps the cause until then (R308). -/
def wakeWhere (s : State) (ctx : Nat) (p : Wait → Bool) (cause : Nat) : State :=
  if ctx = ctxId s ∧ s.slice.isSome then
    s.cores.foldl (fun s e => e.2.c.lfs.foldl (fun s x => wakeLanes s e.1 x.1 (waiting x.2 p) cause) s) s
  else
    { s with images := changeIf s.images ctx (fun t => t.map (fun e =>
        (e.1, { e.2 with c := { e.2.c with lfs := e.2.c.lfs.map (fun x =>
          (x.1, modThreads x.2 (waiting x.2 p) (fun _ t => { t with woken := cause }))) } }))) }

/-! ## Scratchpad storage (R31, R202, R208) -/

/-- The storage number of a byte of a workgroup's scratchpad; offset 0 lies in the first frame reserved (entry 11). -/
def scratchByte (w : Workgroup) (off : Nat) : Nat := frameAt (nearKey w.core (w.scratch.getD (off / 4096) 0)) + off % 4096

/-- The workgroup of a rank in the cluster of a workgroup (R19). -/
def clusterMate (s : State) (w : Workgroup) (rank : Nat) : Option Workgroup :=
  s.wgs.find? (fun x => decide (x.launch = w.launch ∧ x.cluster = w.cluster ∧ x.rank = rank))

/-- The number of the cluster scratchpad address of a rank and offset after the rank's workgroup has finished. -/
def goneNum (rank off : Nat) : Nat := Config.goneBase + 0xFE000000 + rank * 2 ^ 21 + off

/-- The storage number of a byte of a rank's scratchpad in the cluster of a workgroup. DESIGN CHOICE (entry 78): R208 states no outcome for
a rank below WGPERCL whose workgroup has finished; the place is gone: it reads as a free value, and a write to it does nothing. -/
def mateByte (s : State) (w : Workgroup) (rank off : Nat) : Nat :=
  match clusterMate s w rank with
  | some m => scratchByte m off
  | none => goneNum rank off

/-- The cluster scratchpad address of a storage number, for the undo log (R368). -/
def clusterAddr (s : State) (n : Nat) : Nat :=
  if isGone n then n - Config.goneBase
  else match s.wgs.find? (fun w => w.scratch.any (fun fr => decide ((n - Config.frameBase) / 4096 = nearKey w.core fr))) with
  | none => 0
  | some w =>
    let i := w.scratch.findIdx (fun fr => decide ((n - Config.frameBase) / 4096 = nearKey w.core fr))
    0xFE000000 + w.rank * 2 ^ 21 + i * 4096 + n % 4096

/-! ## Fabric cycles (R2) -/

/-- Whether a core cycle is the first of its fabric cycle (entry 64): what has arrived at a home or a fault unit since the last such cycle
is taken then, in the order of R74, R39 and R71. -/
def fabricTick (s : State) : Bool := decide (s.cycle = 0 ∨ s.cycle * 2 / 3 ≠ (s.cycle - 1) * 2 / 3)

/-! ## Poison and lost blocks (R393, R397) -/

/-- Whether a read of a byte consumes a poisoned unit or a lost block. -/
def spoiled (s : State) (n : Nat) : Bool := poisoned s n || s.lost.any (fun e => e.2.contains (n / 128))

/-- Poison marks and lost blocks that a write of these bytes clears: units and blocks covered whole. -/
def clearMarks (s : State) (base : Nat) (offs : List Nat) : State :=
  let has (a : Nat) : Bool := decide (base ≤ a) && offs.contains (a - base)
  { s with
    poison := s.poison.filter (fun u => !(List.range 32).all (fun i => has (32 * u + i)))
    lost := s.lost.map (fun e => (e.1, e.2.filter (fun b => !(List.range 128).all (fun i => has (128 * b + i))))) }

/-! ## Monitors (R216, R217, R220) -/

def locKey (s : State) : Loc → Nat
  | .virt ctx _ => (keyOf s ctx).getD 0
  | .store _ => 0

/-- The value a condition looks at: the word, or GEN of an arrival word (R218). -/
def monValue (s : State) (cond : MonCond) (key n : Nat) : Nat :=
  match cond with
  | .gen => leNat (readUnder s key (n + 8) 2)
  | _ => leNat (readUnder s key n 4)

/-- The conditions of R216 and R220. -/
def condHolds (cond : MonCond) (v : Nat) (b : Word) : Bool :=
  match cond with
  | .eq => decide (v = b.toNat)
  | .ne => decide (v ≠ b.toNat)
  | .gez => !(BitVec.ofNat 32 v - b).getLsbD 31
  | .gen =>
    let d := (v + 65536 - b.toNat % 65536) % 65536
    decide (1 ≤ d) && decide (d ≤ 32767)

/-- The owning group of a storage number: die × 32 + slice (R84). -/
def groupOf (n : Nat) : Nat :=
  if n < 2 ^ 40 then pageStack (n / 4096) * 32 + pageSlice (n / 4096)
  else
    let k := (n - Config.frameBase) / 4096
    if keySel k < 64 then keyDie k * 32 + (keySel k / 16 * 8 + keySel k / 8 % 2 * 4 + keySel k % 8 / 2)
    else keyDie k * 32 + (keySel k - 64)

/-- A monitor fires (R216): its threads unpark and issue their word again; a SYSCALL's monitor is marked for step 5 of
R270. -/
def fireMonitor (s : State) (m : Monitor) : State :=
  if m.call.isSome then
    { s with monitors := s.monitors.map (fun x => if x.id = m.id then { x with fired := true } else x) }
  else
    let s1 := { s with monitors := s.monitors.filter (fun x => x.id != m.id) }
    match laneFrame s1 m.core m.lf with
    | none => s1
    | some f => wakeLanes s1 m.core m.lf (waiting f (fun w => decide (w = .monitor m.id))) 3

/-- The armed monitors whose word a write has touched and left satisfying its condition fire. -/
def fireOn (s : State) (n len : Nat) : State :=
  s.monitors.foldl (fun t m =>
    if m.armed && !m.fired then
      match locNum t m.loc with
      | none => t
      | some a =>
        if a < n + len ∧ n < a + 16 ∧ condHolds m.cond (monValue t m.cond (locKey t m.loc) a) m.b then fireMonitor t m else t
    else t) s

/-- A thread's share of a monitor released (R217); a monitor without lanes goes. -/
def releaseShare (s : State) (c l lane : Nat) : State :=
  let less := s.monitors.map (fun m =>
    if m.core = c ∧ m.lf = l then { m with lanes := m.lanes &&& ~~~(BitVec.twoPow 32 lane) } else m)
  { s with monitors := less.filter (fun m => m.lanes != 0 || m.fired) }

/-! ## Launch dependences (R303) -/

/-- What an evaluation of a dependence finds. -/
inductive Dep where
  | met | unmet | bad (kind : Nat)
deriving DecidableEq, Repr

def evalDep (s : State) (ctx : Nat) (d : Nat × Nat) : Dep :=
  match walk s ctx (d.1 / 4096 % 2 ^ 36) with
  | .absent => .bad 6
  | .bad k => .bad k
  | .entry e _ =>
    if entOrd e = 3 then .bad 6
    else if entM e then .bad 7
    else if entGone s e then .bad 29
    else if entKind e = 2 && pageFenced s (entPage e) then .unmet
    else if entKind e = 2 then
      let n := homeByte s (entPage e) (d.1 % 4096)
      if spoiled s n then .bad 25
      else
        let w := leNat (readUnder s ((keyOf s ctx).getD 0) n 4)
        if (BitVec.ofNat 32 w - BitVec.ofNat 32 d.2).getLsbD 31 then .unmet else .met
    else if !s.caps.getLsbD 2 then .bad 9
    else if entB e && s.poisonTab.any (fun p => decide (p.2.ctx = ctx ∧ p.2.vpn = d.1 / 4096 % 2 ^ 36)) then .bad 17
    else .unmet

/-- The launches that wait are evaluated again; a failing read of the running context's launch raises its stop (R303,
R404). A word in the capacity tier is read after its page's migration (R40), which the fault unit starts. -/
def checkReady (s : State) : State :=
  s.launches.foldl (fun t x =>
    if x.ready.isNone && !x.faulted then
      let r := x.deps.map (evalDep t x.ctx)
      match r.findSome? (fun d => match d with | .bad k => some k | _ => none) with
      | some k =>
        if x.ctx = ctxId t ∧ t.slice.isSome then
          let va := ((x.deps.zip r).findSome? (fun p => match p.2 with | .bad _ => some p.1.1 | _ => none)).getD 0
          raise (modLaunch t x.id (fun y => { y with faulted := true }))
            ⟨k, 0, 0, 5, noThread, 0, if k = 9 then 2 else va / 4096 % 2 ^ 36, none⟩
        else t
      | none =>
        if r.all (fun d => d == .met) then modLaunch t x.id (fun y => { y with ready := some t.cycle }) else t
    else t) s

/-! ## A write applied at its home -/

/-- What a write sets off once its bytes are in place. -/
def afterWrite (s : State) (n len : Nat) : State := checkReady (fireOn (breakReserve s n len) n len)

/-- Bytes applied at a home, from storage number `base`: poison marks, the bytes, D of a frame, monitors, watched launches.
`dirty` names the page whose global entry takes D when the home is HBM (R206). -/
def applyWrite (s : State) (key base : Nat) (d : Table Byte) (dirty : Option (Nat × Nat)) : State :=
  if d.isEmpty then s
  else
    let s1 := clearMarks s base (d.map (fun e => e.1))
    let s2 := storeUnder s1 key base d
    let s3 :=
      if Config.frameBase ≤ base ∧ base < Config.opBufBase then setDirty s2 ((base - Config.frameBase) / 4096)
      else match dirty with
        | some (ctx, vpn) => modEntry s2 ctx vpn (fun e => setBit e 11 true)
        | none => s2
    let lo := base + (d.map (fun e => e.1)).foldl min 4096
    let hi := base + (d.map (fun e => e.1)).foldl max 0 + 1
    afterWrite s3 lo (hi - lo)

/-- Bytes (offset from a storage number and value) written at their home by one whose store or read-modify-write is performed there: at HBM
they take the page's write lane (R61, R64, R65) and are applied from it; elsewhere they are applied at once. -/
def laneWrite (s : State) (n key : Nat) (d : Table Byte) (charge : Option Nat) (o : WrFrom) (dirty : Option (Nat × Nat)) : State :=
  if n < 2 ^ 40 then laneBlocks s key n d charge o dirty else applyWrite s key n d dirty

/-- Little-endian bytes as a table from offset 0. -/
def byteTable (l : List Byte) : Table Byte := l.mapIdx (fun i b => (i, b))

/-- An undo entry of KIND 4 for each aligned word that a thread's write touches, before the write (R368); `lane` gives the lane of each
word. -/
def undoWords (s : State) (c lf : Nat) (lane : Nat → Nat) (pc key base addr : Nat) (d : Table Byte) : State :=
  if undoOn s then
    (List.range 32).foldl (fun s w =>
      let m := (List.range 4).foldl (fun m i => if d.any (fun e => e.1 = 4 * w + i) then m + 2 ^ i else m) 0
      if m = 0 then s
      else undoLog s c lf 4 (lane w) m 0 pc (leNat (readUnder s key (base + 4 * w) 4)) (addr + 4 * w)) s
  else s

end Sys2Proof.Machine
end

