-- ==== Sys2Proof/Machine/Placement.lean ====
section
/-!
DEFINITION. Machine/Placement.lean: fills, promotions and evictions (R48 to R55, R287 to R289): choosing frames, starting a
sequence, remapping its frames, completing it; and the HBM writes of write-backs (R58, R64).
-/
namespace Sys2Proof.Machine

/-! ## Pools and victims (R52 to R54) -/

/-- The near frames of a core reserved as scratchpad (R31). -/
def reserved (s : State) (c : Nat) : List Nat := (s.wgs.filter (fun w => w.core = c)).flatMap (fun w => w.scratch)

/-- The common pool of a core: near frames that are not reserved (R53). -/
def commonPool (s : State) (c : Nat) : List Nat :=
  let r := reserved s c
  (List.range 1536).filter (fun n => !r.contains n)

/-- Who fills: a workgroup, or the core's Mast. -/
structure Filler where
  wg : Option Nat
  mast : Bool
deriving DecidableEq, Repr

/-- Whether a near frame is pinned against a fill (R53). -/
def pinnedAgainst (s : State) (c fr : Nat) (who : Filler) : Bool :=
  let f := frame s (nearKey c fr)
  decide (f.ctx = ctxId s) && f.pin &&
  (s.wgs.any (fun w => decide (w.core = c) && decide (some w.id ≠ who.wg) && w.grants.contains fr) ||
    (core s c).mast.frames.contains fr)

/-- Whether the boot window is open: a die's Masts run from it, or a die has still to come up (R330: a block stays until full
service; entry 28). -/
def windowOpen (s : State) : Bool :=
  s.boot.ready && (!s.booting.isEmpty ||
    (List.range (dies s)).any (fun d => decide (s.dieState.getD d 0 = 0) && !s.lostDies.contains d))

/-- Whether a frame belongs to the boot window while it is open: slices 0 to 3 of die 0 (R330). -/
def bootHeld (s : State) (key : Nat) : Bool :=
  windowOpen s && decide (keyDie key = 0) && decide (64 ≤ keySel key ∧ keySel key < 68)

/-- Whether a frame is available to a sweep (R54 step 1; R378: never when retired or when its seal word is bad; R391: a held frame counts as
busy). -/
def available (s : State) (key : Nat) : Bool :=
  let f := frame s key
  !bootHeld s key && !f.busy && !f.retired && !f.damaged && f.holds.isEmpty && !tooSoon s f

/-- Whether a near frame is available to a fill: one that a scratchpad has reserved never is, whatever list it stands on still (R31). -/
def availableNear (s : State) (c : Nat) (key : Nat) : Bool := available s key && !(reserved s c).contains (keyFrame key)

/-- REF as a sweep sees it: 0 for a frame of a context that is not running (R309). -/
def sweepRef (s : State) (key : Nat) : Bool := (frame s key).ref && s.slice.isSome && decide ((frame s key).ctx = ctxId s)

/-- A sweep from position `h` of a pool of frame keys (R54): at most `fuel` looks. -/
def sweepFrom (pool : List Nat) (ok : Nat → Bool) : Nat → Nat → State → Option Nat × Nat × State
  | 0, h, s => (none, h, s)
  | fuel + 1, h, s =>
    let k := pool.getD (h % pool.length) 0
    let h' := (h + 1) % pool.length
    if !ok k then sweepFrom pool ok fuel h' s
    else if !(frame s k).valid then (some k, h', s)
    else if sweepRef s k then sweepFrom pool ok fuel h' (modFrame s k (fun f => { f with ref := false }))
    else (some k, h', s)

/-- A whole sweep: every frame is looked at up to twice; without a victim the hand rests where it began. -/
def sweep (s : State) (pool : List Nat) (hand : Nat) (ok : Nat → Bool) : Option Nat × Nat × State :=
  if pool.isEmpty then (none, hand, s)
  else
    match sweepFrom pool ok (2 * pool.length + 1) (hand % pool.length) s with
    | (some k, h, s1) => (some k, h, s1)
    | (none, _, s1) => (none, hand, s1)

/-- A frame leaves the grant lists of other workgroups and the Mast list (R53). DESIGN CHOICE (entry 73): R54 does not say where a
hand stands after a frame leaves or joins its pool; the hand stays a position, and counts the frames of the pool as it is now. -/
def leaveLists (s : State) (c fr : Nat) : State :=
  let s1 := { s with wgs := s.wgs.map (fun w => if w.core = c then { w with grants := w.grants.filter (fun x => x != fr) } else w) }
  modCore s1 c (fun k => { k with mast := { k.mast with frames := k.mast.frames.filter (fun x => x != fr) } })

/-- A frame of the common pool (R53): the lowest free one, else by a sweep with the common hand. -/
def takeCommon (s : State) (c : Nat) (who : Filler) : Option Nat × State :=
  let pool := (commonPool s c).map (nearKey c)
  let ok (k : Nat) : Bool := available s k && !pinnedAgainst s c (keyFrame k) who
  match pool.find? (fun k => ok k && !(frame s k).valid) with
  | some k => (some k, s)
  | none =>
    match sweep s pool (core s c).hand ok with
    | (r, h, s1) => (r, modCore s1 c (fun x => { x with hand := h }))

/-- The near frame that a fill takes, with the lists kept as R52, R53 and R318 state. `pinList` says that the frame joins the
Mast list. -/
def takeNear (s : State) (c : Nat) (who : Filler) (pinList : Bool) : Option Nat × State :=
  if pinList then
    let m := (core s c).mast
    if m.frames.length < 64 then
      match takeCommon s c who with
      | (some k, s1) =>
        (some k, modCore (leaveLists s1 c (keyFrame k)) c
          (fun x => { x with mast := { x.mast with frames := x.mast.frames ++ [keyFrame k] } }))
      | r => r
    else
      match sweep s (m.frames.map (nearKey c)) m.hand (availableNear s c) with
      | (r, h, s1) => (r, modCore s1 c (fun x => { x with mast := { x.mast with hand := h } }))
  else
    match who.wg.bind (workgroup s) with
    | none =>
      match takeCommon s c who with
      | (some k, s1) => (some k, leaveLists s1 c (keyFrame k))
      | r => r
    | some w =>
      if w.nearGrant = 0 then
        match takeCommon s c who with
        | (some k, s1) => (some k, leaveLists s1 c (keyFrame k))
        | r => r
      else if w.grants.length < w.nearGrant then
        match takeCommon s c who with
        | (some k, s1) =>
          (some k, modWG (leaveLists s1 c (keyFrame k)) w.id (fun w => { w with grants := w.grants ++ [keyFrame k] }))
        | r => r
      else
        match sweep s (w.grants.map (nearKey c)) w.hand (fun k => availableNear s c k && !pinnedAgainst s c (keyFrame k) who) with
        | (r, h, s1) => (r, modWG s1 w.id (fun w => { w with hand := h }))

/-- The slices that may take a page evicted from a core, or its hint 2 fill: the nearest, then round the quadrant (R51). -/
def slicesFor (c : Nat) : List Nat :=
  let q := posOf c / 16
  let near := posOf c / 8 % 2 * 4 + posOf c % 8 / 2
  (List.range 8).map (fun i => q * 8 + (near + i) % 8)

/-- A far frame of a slice (R289): the lowest available free one, else by the slice's hand. -/
def takeSlice (s : State) (die slice : Nat) : Option Nat × State :=
  let pool := (List.range 1024).map (frameKey die (64 + slice))
  match pool.find? (fun k => available s k && !(frame s k).valid) with
  | some k => (some k, s)
  | none =>
    let i := die * 32 + slice
    match sweep s pool (look s.sliceHand i 0) (available s) with
    | (r, h, s1) => (r, { s1 with sliceHand := put s1.sliceHand i h })

/-- The first slice of a list that can take a page. -/
def takeFar (s : State) (die : Nat) : List Nat → Option Nat × State
  | [] => (none, s)
  | x :: r =>
    match takeSlice s die x with
    | (some k, s1) => (some k, s1)
    | (none, s1) => takeFar s1 die r

/-! ## HBM writes (R60, R64) -/

/-- The write-back of a page: 32 writes of 128 bytes of what a frame holds now (R60). -/
def pageWrites (s : State) (page src key : Nat) (charge : Option Nat) (o : WrFrom) : State :=
  (List.range 32).foldl (fun s b =>
    let w : HWrite :=
      { id := s.ops, page := page, block := b, mask := BitVec.allOnes 128
        data := byteTable (Mem.read s.mem (src + 128 * b) 128)
        poison := BitVec.ofNat 4 ((List.range 4).foldl (fun n i => n + bnat (poisoned s (src + 128 * b + 32 * i)) * 2 ^ i) 0)
        charge := charge, entered := false, inBudget := true, arrival := 0, rank := 0, refusals := 0, key := key
        dirty := none, origin := o }
    { fresh s with hwrites := s.hwrites ++ [w] }) s

/-- MAXOUT of a core (R63). -/
def maxOut (s : State) (c : Nat) : Nat :=
  let m := bits (core s c).jbud.toNat 23 16
  if m = 0 then 256 else m

/-- HBM write requests of a core in flight (R61): sent toward a home slice, or there. -/
def inFlight (s : State) (c : Nat) : Nat :=
  (s.hwrites.filter (fun w => decide (w.charge = some c) &&
    (w.entered || match w.origin with | .req _ _ | .atomic => true | _ => false))).length +
  ((core s c).reqs.filter (fun r => decide (r.phase = .sent) &&
    (match r.act with | .load => false | _ => true) &&
    (match r.ent with | some e => decide (entKind e = 2) | none => false))).length

/-! ## Starting a sequence (R50, R287, R288) -/

/-- A stop raised in a placement or migration sequence (R376): it names the thread whose access started it, else core 0 of the
die. -/
def raiseSeq (s : State) (kind die core : Nat) (thr : BitVec 16) (pc : DWord) (detail : Nat) : State :=
  if thr = noThread then raise s ⟨kind, die * 64, 0, 5, noThread, 0, detail, none⟩
  else raise s ⟨kind, core, thr.toNat / 32 % 64, 5, thr, pc, detail, none⟩

/-- Whether a context runs, so that a stop of it can be raised. -/
def runs (s : State) (ctx : Nat) : Bool := s.slice.isSome && decide (ctx = ctxId s)

/-- The page a frame holds, as one that leaves it. -/
def leaver (s : State) (key : Nat) : Leaver :=
  let f := frame s key
  let w := match dieSlot s (keyDie key) f.ctx f.vpn with
    | some (_, x) => entW x.ent
    | none => decide ((marker s f.backing).frame = some key)
  ⟨f.ctx, f.vpn, f.backing, w, frameDirty s key⟩

/-- B set or cleared on a page for a sequence or request: at the home slice's marker and in the slots that dies' layers have for the
page (R48 steps 1 and 6). B reads 1 while any holds it. -/
def markBusy (s : State) (ctx vpn page id : Nat) (on : Bool) : State :=
  let s1 := modMarker s page (fun m => { m with busy := if on then m.busy ++ [id] else m.busy.filter (fun x => x != id) })
  (List.range (dies s)).foldl (fun t d =>
    match dieSlot t d ctx vpn with
    | some (k, x) => { t with dieLayer := put t.dieLayer k { x with ent := setBit x.ent 7 (markerBusy t page) } }
    | none => t) s1

def setBusyFrame (s : State) (key : Nat) (b : Bool) : State := modFrame s key (fun f => { f with busy := b })

/-- The core that a near frame belongs to. -/
def ownerOf (key : Nat) : Nat := keyDie key * 64 + keySel key

/-- The page that the chosen frame holds makes way: a near frame's page goes to a slice of its own core's quadrant (R288 step 1), if
the die's layer has a slot for it (R36); a far frame's page leaves the chip. -/
def makeWay (s : State) (key : Nat) : Option Victim × State :=
  let p := leaver s key
  if !(frame s key).valid then (none, s)
  else if keySel key < 64 ∧ (slotFor s (keyDie key) p.ctx p.vpn).isSome then
    match takeFar s (keyDie key) (slicesFor (ownerOf key)) with
    | (some t, s1) =>
      let out := if (frame s1 t).valid then some (leaver s1 t) else none
      (some ⟨p, some t, out⟩, setBusyFrame s1 t true)
    | (none, s1) => (some ⟨p, none, none⟩, s1)
  else (some ⟨p, none, none⟩, s)

/-- The pages of a sequence that leave their frames. -/
def Victim.pages (v : Victim) : List Leaver := v.page :: v.out.toList

/-- B set or cleared on every page that a sequence moves. -/
def markPages (s : State) (q : Seq) (on : Bool) : State :=
  let s1 := if q.kind = .eviction then s else markBusy s q.ctx q.vpn q.backing q.id on
  (match q.victim with | none => [] | some v => v.pages).foldl (fun t (p : Leaver) => markBusy t p.ctx p.vpn p.backing q.id on) s1

/-- The write-backs of a sequence: its victim's page where no slice takes it, and the page that a slice gives up, if dirty. -/
def startWrites (s : State) (q : Seq) : State × Nat :=
  match q.victim with
  | none => (s, 0)
  | some v =>
    let away := v.take.isNone && v.page.dirty
    let s1 := if away then pageWrites s v.page.backing (frameAt q.dst) (keyNow s v.page.ctx) q.charge (.seq q.id) else s
    match v.take, v.out with
    | some t, some o =>
      let s2 := if o.dirty then pageWrites s1 o.backing (frameAt t) (keyNow s1 o.ctx) q.charge (.seq q.id) else s1
      (s2, 32 * (bnat away + bnat o.dirty))
    | _, _ => (s1, 32 * bnat away)

/-- The die-layer slots that a sequence holds in reserve: for the page that comes in and for the page that a slice takes (R36). -/
def wantedSlots (s : State) (q : Seq) : List Nat :=
  let die := keyDie q.dst
  let page := if q.kind = .eviction then none else slotFor s die q.ctx q.vpn
  let moved := match q.victim with | some ⟨p, some _, _⟩ => slotFor s die p.ctx p.vpn | _ => none
  page.toList ++ moved.toList

/-- The pages that a sequence writes back to HBM. -/
def backPages : Option Victim → List Leaver
  | some ⟨p, none, _⟩ => if p.dirty then [p] else []
  | some ⟨_, some _, some o⟩ => if o.dirty then [o] else []
  | _ => []

/-- The page that cannot be written back, since its context's key is invalid (R390). -/
def keyless (s : State) (v : Option Victim) : Option Leaver := (backPages v).find? (fun p => (keyOf s p.ctx).isNone)

/-- A write-back under an invalid key raises kind 24 (R390). DESIGN CHOICE (entry 94): the sequence that needs it does not begin, and
the page of a context that is out stays without a stop. -/
def keyFault (s : State) (p : Leaver) (die core : Nat) (thr : BitVec 16) (pc : DWord) : State :=
  if runs s p.ctx then raiseSeq s 24 die core thr pc (pageDetail p.vpn 1) else s

/-- A sequence entered in the state: frames busy, B on its pages, its write-backs queued. -/
def enterSeq (s : State) (q : Seq) : State :=
  let s1 := setBusyFrame s q.dst true
  let s2 := markPages s1 q true
  match startWrites s2 q with
  | (s3, n) => { s3 with seqs := s3.seqs ++ [{ q with writes := n, slots := wantedSlots s3 q }] }

/-- A fill or promotion of a page into a chosen frame; both its frames are busy before a slice is asked for one (R289). `e` is the
page's global entry. -/
def startInto (s : State) (c ctx vpn page : Nat) (e : DWord) (dst : Nat) (src : Option Nat) (who : Filler)
    (thr : BitVec 16) (pc : DWord) : State :=
  let s0 := setBusyFrame (match src with | some k => setBusyFrame s k true | none => s) dst true
  match makeWay s0 dst with
  | (v, s1) => match keyless s1 v with
    | some p => keyFault s p (dieOf c) c thr pc
    | none => enterSeq (fresh s1)
      { id := s1.ops, kind := if src.isSome then .promotion else .fill, core := c, ctx := ctx, vpn := vpn, backing := page
        ent := e, dst := dst, src := src, victim := v, grant := who.wg, mast := who.mast, remapped := false, remappedAt := 0
        slots := [], writes := 0, reads := 0, start := s1.cycle, thr := thr, pc := pc, charge := some c, inv := [], fired := false }

/-- The frame that a kind-2 access of a die is redirected to (R37): the marker's, while it holds the page; a frame that has been
remapped under a sequence still under way holds another. -/
def redirectOf (s : State) (c page : Nat) (e : DWord) : Option Nat :=
  (if entW e then (marker s page).frame else lookup (marker s page).replicas (dieOf c)).filter (fun k => holdsPage s k page)

/-- A redirect (R37, R40 step 3): a kind-1 translation is installed and the die's slot written, with B while a sequence holds it (R48). -/
def installRedirect (s : State) (c ctx vpn : Nat) (e : DWord) (k : Nat) : DWord × State :=
  let d := decide (keyDie k = dieOf c) && frameDirty s k
  let e1 := onChip e k (frame s k).stamp d
  let e2 := setBit e1 7 (markerBusy s (entPage e))
  (e1, noteHolder (install (writeSlot s (dieOf c) ctx vpn e2) c ctx vpn e1) c k)

/-- A translation as its home leaves it: one of kind 2 whose page is on chip becomes that frame's (R37). -/
def resolve (s : State) (c ctx vpn : Nat) (e : DWord) : DWord × State :=
  if entKind e = 2 then
    match redirectOf s c (entPage e) e with
    | some k => installRedirect s c ctx vpn e k
    | none => (e, s)
  else (e, s)

/-- Whether an entry's hint and W make the page the sort that fills far frames (R50). -/
def farFill (e : DWord) : Bool := decide (entHint e = 2) && !entW e

/-- Whether a request of a core to place a page waits already. -/
def fillWaits (s : State) (c ctx vpn : Nat) : Bool :=
  s.fillReqs.any (fun r => decide (r.core = c ∧ r.ctx = ctx ∧ r.vpn = vpn))

/-- A request of a core to place a page, left at the page's home slice to be taken in its order (R39, R57); a core's request for a page
waits there once. -/
def askPlace (s : State) (c ctx vpn : Nat) (e : DWord) (who : Filler) (thr : BitVec 16) (pc : DWord) : State :=
  if entHint e = 3 ∨ entHint e = 4 ∨ fillWaits s c ctx vpn then s
  else { s with fillReqs := s.fillReqs ++ [⟨c, ctx, vpn, e, who.wg, who.mast, thr, pc⟩] }

/-- Whether a fill of a page by a core is under way. -/
def fillsOwn (s : State) (c ctx vpn : Nat) : Bool :=
  s.seqs.any (fun q => decide (q.kind ≠ .eviction ∧ q.core = c ∧ q.ctx = ctx ∧ q.vpn = vpn))

/-- The fill of R50 begun for an access that found its page in HBM, if a bucket slot and a frame can be had (R36, R54). -/
def beginFill (s : State) (c ctx vpn : Nat) (e : DWord) (who : Filler) (thr : BitVec 16) (pc : DWord) : State :=
  if farFill e then
    match takeFar s (dieOf c) (slicesFor c) with
    | (some k, s1) => startInto s1 c ctx vpn (entPage e) e k none who thr pc
    | (none, s1) => s1
  else
    match takeNear s c who (who.mast && decide (entHint e = 1)) with
    | (some k, s1) => startInto s1 c ctx vpn (entPage e) e k none who thr pc
    | (none, s1) => s1

/-- A stop lets no new sequence of R48 begin (R358): the fault unit and the placement finish what they have in progress. -/
def placementHeld (s : State) : Bool := s.stop.isSome

/-- An access that found its page in HBM asks for the fill of R50. While B is set on the page by another placement the request waits at the
home slice, once for each core and page (R39). -/
def startFill (s : State) (c ctx vpn : Nat) (e : DWord) (who : Filler) (thr : BitVec 16) (pc : DWord) : State :=
  let page := entPage e
  if entHint e = 3 ∨ entHint e = 4 ∨ (redirectOf s c page e).isSome ∨ (keyOf s ctx).isNone ∨ placementHeld s then s
  else if markerBusy s page then (if fillsOwn s c ctx vpn then s else askPlace s c ctx vpn e who thr pc)
  else if (slotFor s (dieOf c) ctx vpn).isNone then s
  else beginFill s c ctx vpn e who thr pc

/-- Whether a kind-1 translation of an access by a core calls for a promotion (R50): a far frame of its own die, hint 0, 1
or 5, or hint 2 with W = 1. -/
def promotes (c : Nat) (e : DWord) : Bool :=
  decide (keyDie (entFrame e) = dieOf c) && decide (64 ≤ keySel (entFrame e)) &&
  (decide (entHint e = 0) || decide (entHint e = 1) || decide (entHint e = 5) || (decide (entHint e = 2) && entW e))

/-- A promotion started (R50, R288), if the die's layer has a slot for the page (R36). -/
def startPromotion (s : State) (c ctx vpn : Nat) (e : DWord) (who : Filler) (thr : BitVec 16) (pc : DWord) : State :=
  let k := entFrame e
  let page := (frame s k).backing
  if !sealOk s k ctx (entSeal e) || markerBusy s page || (frame s k).busy || bootHeld s k || placementHeld s ||
      (slotFor s (dieOf c) ctx vpn).isNone then s
  else
    match takeNear s c who (who.mast && decide (entHint e = 1)) with
    | (some d, s1) => startInto s1 c ctx vpn page e d (some k) who thr pc
    | (none, s1) => s1

/-- Whether a request to place a page can be taken: B of a page in HBM is clear (R39), and no stop is on (R358). -/
def fillDue (s : State) (r : FillReq) : Bool :=
  !placementHeld s && (decide (entKind r.ent = 1) || !markerBusy s (entPage r.ent))

/-- A waiting request to place a page taken: it gets the redirect to the frame that an earlier one filled, or places its page, or its own
die's replica (R39, R50). A request whose context has left the cores, or whose page has changed its place, goes. -/
def takeFill (s : State) (r : FillReq) : State :=
  let t := { s with fillReqs := s.fillReqs.filter (fun x => x != r) }
  let who : Filler := ⟨r.wg, r.mast⟩
  if !r.mast && (decide (r.ctx ≠ ctxId t) || t.slice.isNone) then t
  else if entKind r.ent = 1 then startPromotion t r.core r.ctx r.vpn r.ent who r.thr r.pc
  else match walk t r.ctx r.vpn with
    | .entry e _ =>
      if entKind e = 2 ∧ entPage e = entPage r.ent then
        match resolve t r.core r.ctx r.vpn e with
        | (x, t2) => if entKind x = 2 then startFill t2 r.core r.ctx r.vpn e who r.thr r.pc else t2
      else t
    | _ => t

/-- A frame emptied for a scratchpad reservation, a retirement or a die reset (R31, R378, R424): an eviction without a fill. A dirty
page goes where R51 says; a clean one is released. -/
def startEviction (s : State) (key : Nat) (charge : Option Nat) : State :=
  if !(frame s key).valid || (frame s key).busy then s
  else
    let p := leaver s key
    match if p.dirty then makeWay s key else (some ⟨p, none, none⟩, s) with
    | (v, s1) => match keyless s1 v with
      | some p => keyFault s p (keyDie key) (64 * keyDie key) noThread 0
      | none => enterSeq (fresh s1)
        { id := s1.ops, kind := .eviction, core := if keySel key < 64 then ownerOf key else 64 * keyDie key, ctx := p.ctx
          vpn := p.vpn, backing := p.backing, ent := 0, dst := key, src := none, victim := v, grant := none, mast := false
          remapped := false, remappedAt := 0, slots := [], writes := 0, reads := 0, start := s1.cycle, thr := noThread, pc := 0
          charge := charge, inv := [], fired := false }

/-! ## Remapping (R44, R288) and completing (R48 steps 5 and 6) -/

/-- Bytes and poison marks of a page copied between frames. -/
def copyFrame (s : State) (src dst : Nat) : State :=
  let units := (List.range 128).filter (fun i => poisoned s (frameAt src + 32 * i))
  { s with
    mem := Mem.copy s.mem (frameAt src) (frameAt dst) 4096
    poison := s.poison.filter (fun u => !(decide (frameAt dst / 32 ≤ u) && decide (u < frameAt dst / 32 + 128))) ++
      units.map (fun i => frameAt dst / 32 + i) }

/-- An HBM page copied into a frame, decrypted under a key: the blocks that are left of its 32 reads of 128 bytes (R60, R66); lost blocks
arrive as poison. -/
def copyIn (s : State) (key page dst left : Nat) : State :=
  let units := (List.range 128).filter (fun i => spoiled s (page * 4096 + 32 * i))
  { moveUnits s page (8 * left) with
    mem := Mem.write s.mem (frameAt dst) (readUnder s key (page * 4096) 4096)
    poison := s.poison.filter (fun u => !(decide (frameAt dst / 32 ≤ u) && decide (u < frameAt dst / 32 + 128))) ++
      units.map (fun i => frameAt dst / 32 + i) }

/-- A REMAP record (R348): what 0 fill, 1 eviction, 2 release, 3 promotion. -/
def recordRemap (s : State) (c : Nat) (thr : BitVec 16) (pc : DWord) (key what : Nat) : State :=
  let f := frame s key
  record s c 6 thr pc (keyDie key + keySel key * 2 ^ 4 + keyFrame key * 2 ^ 11 + f.stamp.toNat * 2 ^ 22 + what * 2 ^ 30 +
    f.ctx % 65536 * 2 ^ 32)

/-- A page moved into a frame: remap, contents' directory record, and what it leaves behind for step 6. -/
def seatPage (s : State) (key ctx vpn backing : Nat) (pin : Bool) : State :=
  remap s key (fun f => { f with
    valid := true, pin := pin, ref := true, ctx := ctx, vpn := vpn, backing := backing, holders := 0, maskBad := false })

/-- The frame released (R288): VALID, PIN and REF become 0, CTX is kept. -/
def releaseFrame (s : State) (key : Nat) : State :=
  remap s key (fun f => { f with valid := false, pin := false, ref := false, holders := 0, maskBad := false })

/-- The invalidation that a remap of a frame owes (R47); an unreadable holder mask counts as all ones (R378). -/
def owed (s : State) (key : Nat) : List (Nat × BitVec 80 × Nat × Nat) :=
  let f := frame s key
  if f.valid then [(key, if f.maskBad then BitVec.allOnes 80 else f.holders, f.ctx, f.vpn)] else []

/-- Whether the frames of a sequence may be remapped but for the reads of the page that comes in: write-backs made, writes on their way to
that page applied, 32 cycles passed, no hold (R44, R377). -/
def remapDue (s : State) (q : Seq) : Bool :=
  let ok (k : Nat) : Bool := !tooSoon s (frame s k) && (frame s k).holds.isEmpty
  !q.remapped && decide (q.writes = 0) && !(decide (q.kind = .fill) && s.hwrites.any (fun w => decide (w.page = q.backing))) && ok q.dst &&
  (match q.victim with | some ⟨_, some t, _⟩ => ok t | _ => true)

/-- Whether the frames of a sequence may be remapped now: for a fill, the page's pseudo-channel takes the reads that are left (R66). -/
def canRemap (s : State) (q : Seq) : Bool :=
  remapDue s q && !(decide (q.kind = .fill) && decide (blocksOpen s q.backing < 32 - q.reads))

/-- The reads of a fill that the page's pseudo-channel takes in this window. -/
def readSome (s : State) (q : Seq) : State :=
  let n := blocksOpen s q.backing
  if q.kind = .fill ∧ remapDue s q ∧ n ≠ 0 then
    { moveUnits s q.backing (8 * n) with seqs := s.seqs.map (fun x => if x.id = q.id then { x with reads := x.reads + n } else x) }
  else s

/-- Whether a remapped sequence may complete: the far frame that a promotion releases may be remapped (R44, R377). -/
def canComplete (s : State) (q : Seq) : Bool :=
  q.remapped && (match q.src with | some k => !tooSoon s (frame s k) && (frame s k).holds.isEmpty | none => true)

/-- Steps 2 to 4 of R48 for a sequence (R288 steps 1 to 3): the victim's bytes move, the page comes in, the frames are remapped. -/
def remapSeq (s : State) (q : Seq) : State :=
  let inv := (match q.victim with | some ⟨_, some t, _⟩ => owed s t | _ => []) ++ owed s q.dst
  let s1 := match q.victim with
    | some ⟨p, some t, _⟩ =>
      recordRemap (seatPage (copyFrame s q.dst t) t p.ctx p.vpn p.backing false) q.core q.thr q.pc t 1
    | _ => s
  let s2 := match q.kind with
    | .eviction => recordRemap (releaseFrame s1 q.dst) q.core q.thr q.pc q.dst 2
    | .fill =>
      recordRemap (seatPage (copyIn s1 ((keyOf s1 q.ctx).getD 0) q.backing q.dst (32 - q.reads)) q.dst q.ctx q.vpn q.backing
        (decide (entHint q.ent = 1))) q.core q.thr q.pc q.dst 0
    | .promotion =>
      recordRemap (seatPage (match q.src with | some k => copyFrame s1 k q.dst | none => s1) q.dst q.ctx q.vpn q.backing
        (decide (entHint q.ent = 1))) q.core q.thr q.pc q.dst 3
  { s2 with seqs := s2.seqs.map (fun x =>
      if x.id = q.id then { x with remapped := true, remappedAt := s.cycle, inv := inv } else x) }

/-- The marker of a page after it has moved to a frame, or off the chip. -/
def moveMarker (s : State) (page : Nat) (w : Bool) (die : Nat) (dest : Option Nat) : State :=
  modMarker s page (fun m =>
    if w then { m with frame := dest }
    else match dest with
      | some k => { m with replicas := put m.replicas die k }
      | none => { m with replicas := drop m.replicas die })

/-- An invalidation on its way to each core of a list (R47, R379). -/
def sendInvals (s : State) (ctx vpn : Nat) (cores : List Nat) (forReq : Option Nat) (from_ : Started) : State :=
  cores.foldl (fun s c =>
    { fresh s with invals := s.invals ++ [⟨s.ops, c, ctx, vpn, s.cycle, 1, none, forReq, from_⟩] }) s

/-- The cores and dies of a holder mask of a frame (R46, R47). -/
def holderCores (key : Nat) (h : BitVec 80) : List Nat :=
  ((List.range 64).filter (fun i => h.getLsbD i)).map (fun i => keyDie key * 64 + i) ++
  (((List.range 16).filter (fun d => h.getLsbD (64 + d) && d != keyDie key)).flatMap
    (fun d => (List.range 64).map (fun i => d * 64 + i)))
def holderDies (key : Nat) (h : BitVec 80) : List Nat :=
  (List.range 16).filter (fun d => h.getLsbD (64 + d) && d != keyDie key)

/-- The invalidations of a remap sent, and the slots of holding dies removed where they still name the frame (R47). -/
def sendOwed (s : State) (o : Nat × BitVec 80 × Nat × Nat) (from_ : Started) : State :=
  let s1 := (holderDies o.1 o.2.1).foldl (fun s d => clearSlot s d o.2.2.1 o.2.2.2 o.1) s
  sendInvals s1 o.2.2.1 o.2.2.2 (holderCores o.1 o.2.1) none from_

/-- A page's slot in a die's layer written at the slot it has, or at one kept for it; nothing where there is neither. -/
def putSlot (s : State) (die ctx vpn : Nat) (kept : List Nat) (e : DWord) : State :=
  match dieSlot s die ctx vpn with
  | some (k, _) => { s with dieLayer := put s.dieLayer k ⟨ctx, vpn, e⟩ }
  | none =>
    match (slotKeys die ctx vpn).find? (fun k => kept.contains k && (lookup s.dieLayer k).isNone) with
    | some k => { s with dieLayer := put s.dieLayer k ⟨ctx, vpn, e⟩ }
    | none => s

/-- The attributes that a page's slot copies: those of the slot that it has, or of the global entry where the slot was lost (R35,
R378). -/
def slotSource (s : State) (die ctx vpn : Nat) : DWord :=
  match dieSlot s die ctx vpn with
  | some (_, x) => x.ent
  | none => match walk s ctx vpn with | .entry e _ => e | _ => 0

/-- Step 5 of R48 for the pages that leave their frames. -/
def slotsOut (s : State) (q : Seq) : State :=
  let die := keyDie q.dst
  match q.victim with
  | none => s
  | some v =>
    let t1 := match v.take, v.out with
      | some t, some o => moveMarker (clearSlot s die o.ctx o.vpn t) o.backing o.w die none
      | _, _ => s
    match v.take with
    | some t =>
      moveMarker (putSlot t1 die v.page.ctx v.page.vpn q.slots
        (onChip (slotSource t1 die v.page.ctx v.page.vpn) t (frame t1 t).stamp v.page.dirty)) v.page.backing v.page.w die (some t)
    | none => moveMarker (clearSlot t1 die v.page.ctx v.page.vpn q.dst) v.page.backing v.page.w die none

/-- Step 5 of R48 for the page that comes in; D of a promoted page is that of the far frame it comes from. -/
def slotsIn (s : State) (q : Seq) : State :=
  let die := keyDie q.dst
  let d := match q.src with | some k => frameDirty s k | none => false
  if q.kind = .eviction then s
  else moveMarker (putSlot s die q.ctx q.vpn q.slots (onChip q.ent q.dst (frame s q.dst).stamp d)) q.backing (entW q.ent) die
    (some q.dst)

/-- The far frame that held a promoted page released, one remap (R288). -/
def releaseSrc (s : State) (q : Seq) : State × List (Nat × BitVec 80 × Nat × Nat) :=
  match q.src with
  | some k => (recordRemap (releaseFrame s k) q.core q.thr q.pc k 2, owed s k)
  | none => (s, [])

/-- What began a sequence (R376). -/
def seqStart (q : Seq) : Started := ⟨keyDie q.dst, q.core, q.thr, q.pc⟩

/-- Steps 5 and 6 of R48 (R288 step 4 and the release after it): slots and markers, invalidations, B cleared, the frames free
again. -/
def completeSeq (s : State) (q : Seq) : State :=
  match releaseSrc (slotsIn (slotsOut s q) q) q with
  | (s1, more) =>
    let s2 := markPages ((q.inv ++ more).foldl (fun s o => sendOwed s o (seqStart q)) s1) q false
    let s3 := setBusyFrame s2 q.dst false
    let s4 := match q.src with | some k => setBusyFrame s3 k false | none => s3
    let s5 := match q.victim with | some ⟨_, some t, _⟩ => setBusyFrame s4 t false | _ => s4
    { s5 with seqs := s5.seqs.filter (fun x => x.id != q.id) }

end Sys2Proof.Machine
end

