-- ==== Sys2Proof/Machine/Flags.lean ====
section
/-!
DEFINITION. Machine/Flags.lean: the completion flags f0 to f11 of a thread (R11, R17, R146, R207, R231): busy while any
unfinished word of the thread has selected the flag.
-/
namespace Sys2Proof.Machine

/-- Whether a flag of a thread is busy (R9, R207). -/
def flagBusy (t : Thread) (f : Nat) : Bool := decide (t.flags.getD f 0 ≠ 0)

/-- A word of the thread selects a flag at issue (R146, R207). -/
def selectFlag (t : Thread) (f : Option Nat) (pc : DWord) : Thread :=
  match f with
  | none => t
  | some i => { t with flags := t.flags.set i (t.flags.getD i 0 + 1), flagPc := t.flagPc.set i pc }

/-- A word of the thread that selected the flag has finished its share (R207). -/
def finishFlag (t : Thread) (f : Option Nat) : Thread :=
  match f with
  | none => t
  | some i => { t with flags := t.flags.set i (t.flags.getD i 0 - 1) }

/-- The flags of a WAIT field that are busy in a thread (R17). -/
def waitBusy (t : Thread) (wait : BitVec 12) : Bool :=
  (List.range 12).any (fun i => wait.getLsbD i && flagBusy t i)

/-- Whether any flag of a thread is busy. -/
def anyBusy (t : Thread) : Bool := t.flags.any (fun n => n != 0)

/-- Every lane of a set selects a flag. -/
def selectFlags (f : LaneFrame) (m : LaneMask) (g : Option Nat) (pc : DWord) : LaneFrame :=
  modThreads f m (fun _ t => selectFlag t g pc)

/-- Every lane of a set finishes its share of a flag. -/
def finishFlags (s : State) (c l : Nat) (m : LaneMask) (g : Option Nat) : State :=
  modLF s c l (fun f => modThreads f m (fun _ t => finishFlag t g))

end Sys2Proof.Machine
end

