-- ==== Sys2Proof/Machine/Issue.lean ====
section
/-!
DEFINITION. Machine/Issue.lean: what every word does around its own effect: fetching code (R136, R137), going on to the next
word or header, regroup points (R265, R266), parking, and delivering a fixed-latency result (R162 to R165).
-/
namespace Sys2Proof.Machine

/-! ## Own-queue bytes (R62) -/

/-- The byte that a request's stores hold for a virtual address, if any. -/
def reqByte (r : Req) (ctx va : Nat) : Option Byte :=
  match r.act, r.space with
  | .store, .virt c b => if c = ctx ∧ b / 128 = va / 128 then lookup r.data (va % 128) else none
  | _, _ => none

/-- The newest byte of the core's own writes that are not yet applied, among those before an operation (R62, R75). -/
def queueByte (s : State) (c ctx va before : Nat) : Option Byte :=
  ((core s c).reqs.filter (fun r => decide (r.id < before))).foldl
    (fun acc r => match reqByte r ctx va with | some b => some b | none => acc) none

/-! ## Fetching code -/

/-- A word read where it lies, with the core's own stores over it; none where the page has no home on the part. -/
def peekWord (s : State) (c ctx va : Nat) : Option Word :=
  (homeOf s ctx va).map (fun n =>
    let key := (keyOf s ctx).getD 0
    BitVec.ofNat 32 (leNat ((List.range 4).map (fun i =>
      (queueByte s c ctx (va + i) s.ops).getD (byteUnder s key (n + i))))))

/-- The Canopy checks of a clause fetch (R211): kind 0, ordering 3, M, X. -/
def fetchCheck (e : DWord) : Option Nat :=
  if entOrd e = 3 then some 6
  else if entM e || !entX e then some 7
  else none

/-- A word of code read at the place that a translation gives, with the core's own stores over it (R62); none where the key of its
context is invalid. -/
def codeWord (s : State) (c ctx va n : Nat) : Word :=
  let key := (keyOf s ctx).getD 0
  BitVec.ofNat 32 (leNat ((List.range 4).map (fun i => (queueByte s c ctx (va + i) s.ops).getD (byteUnder s key (n + i)))))

/-- A code word fetched through a translation of kind 1 or 2 that passed its checks: the seal check of R43, the bytes, and the fill or
promotion that the access asks for. A rejected fetch drops the translation and is made again. -/
def fetchAt (s : State) (c ctx va : Nat) (e : DWord) (who : Filler) (thr : BitVec 16) (pc : DWord) : Fetched × State :=
  let vpn := va / 4096 % 2 ^ 36
  if entKind e = 1 then
    let k := entFrame e
    let n := frameAt k + va % 4096
    if !sealOk s k ctx (entSeal e) then (.wait, forget s c ctx vpn)
    else if entGone s e then (.bad 29 (pageDetail vpn 2), s)
    else if entFenced s c e then (.wait, s)
    else
      let s1 := refFrame s k
      let s2 := if promotes c e then askPlace s1 c ctx vpn e who thr pc else s1
      if spoiled s n then (.bad 25 (pageDetail vpn 2), s2) else (.word (codeWord s c ctx va n), s2)
  else
    let n := if entW e then homeByte s (entPage e) (va % 4096) else entPage e * 4096 + va % 4096
    if entGone s e then (.bad 29 (pageDetail vpn 2), s)
    else if (marker s (entPage e)).offered || entFenced s c e || !pageOpen s (entPage e) then (.wait, s)
    else if (keyOf s ctx).isNone then (.bad 24 (pageDetail vpn 2), s)
    else
      let s2 := askPlace (moveUnits s (entPage e) 1) c ctx vpn e who thr pc
      if spoiled s n then (.bad 25 (pageDetail vpn 2), s2) else (.word (codeWord s c ctx va n), s2)

/-- A code word fetched by a core for a workgroup (R136, R137): translation, checks, the word. -/
def fetchWord (s : State) (c wg va : Nat) (thr : BitVec 16) (pc : DWord) : Fetched × State :=
  let ctx := ctxId s
  let vpn := va / 4096 % 2 ^ 36
  if fetchWaits s c ctx vpn then (.wait, s) else
  match fetchTrans s c ctx vpn with
  | (.error k, s1) => (.bad k (pageDetail vpn 2), s1)
  | (.ok e0, s0) =>
    match resolve s0 c ctx vpn e0 with
    | (e, s1) =>
    match fetchCheck e with
    | some k => (.bad k (pageDetail vpn 2), s1)
    | none => if entKind e = 3 then (.cap vpn, s1) else fetchAt s1 c ctx va e ⟨some wg, false⟩ thr pc

/-- Whether a place shares a piece of `g` bytes with four bytes of code of the running context. -/
def codeMeets (s : State) (g : Nat) (x : Space) (w va : Nat) : Bool :=
  match x with
  | .virt d a => decide (d = ctxId s) && (List.range w).any (fun i => decide (regionAdd a i / g = va / g))
  | _ => false

/-- Whether the fetch of a code word waits: it is a weak load of its threads on an RC page (R137), so it follows their acquires (R80) and
their earlier loads of its 16-byte unit (R76), and an atomic of its core to the word that is not performed (R62). -/
def fetchHeld (s : State) (c l : Nat) (m : LaneMask) (va : Nat) : Bool :=
  (core s c).ops.any (fun o => decide (o.lf = l ∧ o.lanes &&& m ≠ 0) &&
    (o.acq || (decide (o.kind ≠ .attr) && o.addrs.any (fun e => m.getLsbD e.1 && codeMeets s 16 e.2 o.width va)))) ||
  (core s c).reqs.any (fun r => match r.act with
    | .atomic _ _ _ w => codeMeets s 4 r.space w va
    | _ => false)

/-- Whether a thread that has come to a header finds a regroup point there: the fetch of the header need not wait and passes its checks
(R211), and RG is set. Where it does not, its bundle's turn finds out (`applyTurn`). -/
def seesRegroup (s : State) (c l lane va : Nat) : Bool :=
  !fetchHeld s c l (BitVec.twoPow 32 lane) va &&
  (match walk s (ctxId s) (va / 4096 % 2 ^ 36) with | .entry e _ => (fetchCheck e).isNone | _ => false) &&
  (match peekWord s c (ctxId s) va with | some w => isRegroup w | none => false)

/-! ## Regroup points (R265, R266) -/

/-- Whether any load or acquire of a workgroup's threads has not returned (R79). -/
def loadsPending (s : State) (c wg : Nat) : Bool :=
  (core s c).ops.any (fun o => decide (o.wg = wg) &&
    match o.kind with | .attr => false | _ => true)

/-- Whether a store of a workgroup's threads is still on its way to a scratchpad (R79: a release of scope .wg waits until it has
entered). -/
def scratchPending (s : State) (c wg : Nat) : Bool :=
  (core s c).reqs.any (fun r => decide (r.wg = wg) && r.engine.isNone &&
    match r.act, r.space with | .store, .scr _ => true | _, _ => false)

/-- The live threads of a workgroup. -/
def liveThreads (s : State) (w : Workgroup) : List Thread :=
  w.lfs.flatMap (fun l => match laneFrame s w.core l with
    | some f => (f.threads.map (fun e => e.2)).filter (fun t => t.live)
    | none => [])

/-- The completion test of a workgroup's regroup: every live thread waits at one header (R265), every earlier load has returned and
every earlier store to a scratchpad has entered it (R79, R266). On completion the threads are eligible at the header, which they
have passed, and the read-ahead buffer is emptied (R266, R77). -/
def regroupTest (s : State) (wg : Nat) : State :=
  match workgroup s wg with
  | none => s
  | some w =>
    let ts := liveThreads s w
    match ts with
    | [] => s
    | t0 :: _ =>
      if ts.all (fun t => t.regroup && decide (t.pc = t0.pc)) && !loadsPending s w.core wg && !scratchPending s w.core wg then
        let s1 := w.lfs.foldl (fun s l => modLF s w.core l (fun f =>
          { f with threads := f.threads.map (fun e => (e.1, { e.2 with regroup := false, through := e.2.through || e.2.regroup })) })) s
        modCore s1 w.core (fun k => { k with readAhead := [] })
      else s

/-- Threads of a lane frame whose program counter has just become a header: those at a regroup header wait there. -/
def arriveAt (s : State) (c l : Nat) (m : LaneMask) : State :=
  match laneFrame s c l with
  | none => s
  | some f =>
    let rg (i : Nat) (t : Thread) : Bool := decide (pcPos t.pc = 0) && t.live && seesRegroup s c l i (pcAddr t.pc)
    regroupTest (setLF s c l (modThreads f m (fun i t => { t with regroup := rg i t, through := false }))) f.wg

/-! ## Going on -/

/-- Whether the running context takes a step under STEP (R367). -/
def stepping (s : State) : Bool := s.stepped && s.slice.isSome && decide (bits s.dbgctl.toNat 15 0 = ctxId s)

/-- A step under STEP has come to its end: the debugger halt of R367 is raised on STEPCORE. Until the next resume no other core accepts a
bundle, whether the halt line has reached it or not. -/
def stepHalt (s : State) (c l : Nat) (m : LaneMask) (pc : DWord) : State :=
  if stepping s then raise s ⟨16, c, l, 0, thrField l (lowest m), pc, 2 ^ 25, none⟩ else s

/-- The clause ends and its bundle dissolves (R14, R306). -/
def endClause (s : State) (u : Iss) : State :=
  let s0 := modCore s u.c (fun k => modC k (fun y => { y with slots := put y.slots (u.l / 16) (s.cycle + 1) }))
  let s1 := modLF s0 u.c u.l (fun f => { f with clause := none, yielding := u.hdr.yld })
  stepHalt { s1 with at_ := none } u.c u.l u.cl.lanes u.pc

/-- Whether the word is the last of its clause. -/
def lastWord (u : Iss) : Bool := decide (u.hdr.count.toNat ≤ u.cl.pos)

/-- The bundle goes on to the next word with the lanes that stay in it; at the clause's end to the next header. -/
def goOn (s : State) (u : Iss) (stay : LaneMask) : State :=
  let next := u.cl.pos + 1
  if lastWord u then
    let pc := pcImage 0 (wordAddr u.cl.hdrAddr next)
    let s1 := modLF s u.c u.l (fun f => modThreads f stay (fun _ t => { t with pc := pc }))
    arriveAt (endClause s1 u) u.c u.l stay
  else if stay = 0 then endClause s u
  else
    let pc := pcImage next (wordAddr u.cl.hdrAddr next)
    let s1 := modLF s u.c u.l (fun f =>
      { modThreads f stay (fun _ t => { t with pc := pc }) with
        clause := some { u.cl with pos := next, lanes := stay, nextAt := s.cycle + 1, since := s.cycle + 1 } })
    { s1 with at_ := none }

/-- The word that issues, as an instruction word. -/
def Iss.word (u : Iss) : Nat :=
  match u.cl.words.getD (u.cl.pos - 1) (.word 0) with
  | .word w => w.toNat
  | _ => 0

/-- The whole bundle goes on. -/
def advance (s : State) (u : Iss) : State := goOn s u u.cl.lanes

/-- Lanes of the bundle park at the word with a wait (R12): the program counter stays at the word. -/
def parkLanes (s : State) (u : Iss) (m : LaneMask) (w : Wait) : State :=
  let s1 := modLF s u.c u.l (fun f => modThreads f m (fun _ t => { t with parked := true, wait := some w }))
  recordPark s1 u.c u.l false m u.pc w.cause

/-- The whole bundle parks at the word and leaves the clause. -/
def parkAll (s : State) (u : Iss) (w : Wait) : State := endClause (parkLanes s u u.cl.lanes w) u

/-- The clause ends with each present thread at a new header (R263); a lane whose target is none ends (R12). -/
def jump (s : State) (u : Iss) (tgt : Nat → Option Nat) : State :=
  let s1 := modLF s u.c u.l (fun f => modThreads f u.cl.lanes (fun i t =>
    match tgt i with
    | some a => { t with pc := pcImage 0 a }
    | none => { t with live := false, parked := false }))
  arriveAt (endClause s1 u) u.c u.l u.cl.lanes

/-- The address of the header after the clause's last word. -/
def Iss.next (u : Iss) : Nat := wordAddr u.cl.hdrAddr (u.cl.pos + 1)

/-! ## Fixed-latency results -/

/-- The values of a fixed-latency word enter the pipeline (R163). -/
def sendVals (s : State) (u : Iss) (lat slots : Nat) (d : BitVec 4) (vals : Table (List Word)) : State :=
  let op := s.ops
  let s1 := undoShifts (fresh s) u slots
  let s2 := modLF s1 u.c u.l (fun f => pend f u.cl.lanes op slots d.toNat false u.pc)
  modCore s2 u.c (fun k =>
    { k with deliveries := k.deliveries ++ [⟨op, u.l, s.cycle + lat, d.toNat, slots, vals⟩] })

/-- The values of a fixed-latency word enter the pipeline and the bundle goes on. -/
def issueVals (s : State) (u : Iss) (lat slots : Nat) (d : BitVec 4) (vals : Table (List Word)) : State :=
  advance (sendVals s u lat slots d vals) u

/-- A word that reads its operands in each lane and delivers `slots` words after `lat` cycles; it holds while a source or a
destination register is pending (R162, R164). -/
def aluWord (s : State) (lat slots : Nat) (d : BitVec 4) (g : Iss → Nat → Option (List Word)) : State :=
  match issuing s with
  | none => hold s
  | some u =>
    if writeHeld u (regsOf d.toNat slots) then hold s
    else match eachLane u (g u) with
      | none => hold s
      | some vals => issueVals s u lat slots d vals

/-- One 32-bit source. -/
def alu1 (s : State) (lat : Nat) (d : BitVec 4) (a : Src) (g : Word → Word) : Outcome :=
  .next (aluWord s lat 1 d (fun u i => (read32 u a i).map (fun x => out32 (g x))))

/-- Two 32-bit sources, A and B. -/
def alu2 (s : State) (lat : Nat) (d : BitVec 4) (b a : Src) (g : Word → Word → Word) : Outcome :=
  .next (aluWord s lat 1 d (fun u i => (read32 u a i).bind (fun x => (read32 u b i).map (fun y => out32 (g x y)))))

/-- A source and an immediate (R175). -/
def aluI (s : State) (lat : Nat) (d : BitVec 4) (i : BitVec 11) (a : Src) (g : Word → Word → Word) : Outcome :=
  .next (aluWord s lat 1 d (fun u l => (read32 u a l).map (fun x => out32 (g x (imm11 i)))))

/-- Three sources, C without a pattern (R140). -/
def alu3 (s : State) (lat : Nat) (d : BitVec 4) (c : BitVec 5) (b a : Src) (g : Word → Word → Word → Word) : Outcome :=
  .next (aluWord s lat 1 d (fun u i =>
    (read32 u a i).bind (fun x => (read32 u b i).bind (fun y => (readSC u c i).map (fun z => out32 (g x y z))))))

/-- Two 64-bit sources and a 64-bit result. -/
def alu64 (s : State) (lat : Nat) (d : BitVec 4) (b a : Src) (g : DWord → DWord → DWord) : Outcome :=
  .next (aluWord s lat 2 d (fun u i => (read64 u a i).bind (fun x => (read64 u b i).map (fun y => out64 (g x y)))))

/-- A 64-bit source, a 32-bit source and a 64-bit result. -/
def aluShift64 (s : State) (lat : Nat) (d : BitVec 4) (b a : Src) (g : DWord → Word → DWord) : Outcome :=
  .next (aluWord s lat 2 d (fun u i => (read64 u a i).bind (fun x => (read32 u b i).map (fun y => out64 (g x y)))))

/-- Two 32-bit sources and a 64-bit result. -/
def aluWide (s : State) (lat : Nat) (d : BitVec 4) (b a : Src) (g : Word → Word → DWord) : Outcome :=
  .next (aluWord s lat 2 d (fun u i => (read32 u a i).bind (fun x => (read32 u b i).map (fun y => out64 (g x y)))))

/-- A value that every present lane receives, worked out from the bundle. -/
def aluAll (s : State) (lat : Nat) (d : BitVec 4) (g : Iss → Option (Nat → Word)) : Outcome :=
  .next (aluWord s lat 1 d (fun u i => (g u).map (fun v => out32 (v i))))

end Sys2Proof.Machine
end

