-- ==== Sys2Proof/Machine/Access.lean ====
section
/-!
DEFINITION. Machine/Access.lean: what the memory words share: bytes and blocks of an access (R60, R78, R398), the address
phase and the checks of R203 and R211, the meeting with a capacity-tier page (R68, R69, R385), the requests that a word
forms (R61), and the orderings that hold a request back (R62, R76, R79, R80, R214, R215).
-/
namespace Sys2Proof.Machine

/-! ## Bytes and blocks -/

/-- Byte i of an access (R398: it wraps within the region). -/
def Space.plus : Space → Nat → Space
  | .virt c va, i => .virt c (regionAdd va i)
  | .scr n, i => .scr (n + i)
  | .host p a, i => .host p ((a + i) % 2 ^ 64)

def Space.block : Space → Space
  | .virt c va => .virt c (va / 128 * 128)
  | .scr n => .scr (n / 128 * 128)
  | .host p a => .host p (a / 128 * 128)

/-- A number for the place, rising with the address. -/
def Space.key : Space → Nat
  | .virt _ va => va
  | .scr n => 2 ^ 50 + n
  | .host _ a => 2 ^ 64 + a

/-- The 4 KiB page of a place, as DETAIL names it (R362). -/
def Space.page : Space → Nat
  | .virt _ va => va / 4096 % 2 ^ 36
  | .scr _ => 0
  | .host _ a => a / 4096 % 2 ^ 36

def Space.isVirt : Space → Bool
  | .virt _ _ => true
  | _ => false

/-- A 128-byte block that a word touches: its lanes, touched bytes and data, and the highest lane that touches each of its words. -/
structure Part where
  space : Space
  lanes : LaneMask
  mask : BitVec 128
  data : Table Byte
  who : Table Nat
deriving DecidableEq, Repr

/-- A byte of a lane added to its block; a later byte replaces an earlier one (R206: the highest lane's byte is written). -/
def touch (t : Table Part) (e : Nat × Space × Byte) : Table Part :=
  let o := e.2.1.key % 128
  change t e.2.1.block.key ⟨e.2.1.block, 0, 0, [], []⟩ (fun p =>
    { p with
      lanes := p.lanes ||| BitVec.twoPow 32 e.1, mask := p.mask ||| BitVec.twoPow 128 o, data := put p.data o e.2.2
      who := put p.who (o / 4) e.1 })

/-- The blocks of an access in ascending address order (R60). -/
def partsOf (l : List (Nat × Space × Byte)) : List Part := (l.foldl touch []).map (fun e => e.2)

/-- The bytes of each lane of a load or store of `w` bytes. -/
def laneBytes (addrs : Table Space) (w : Nat) (data : Nat → List Byte) : List (Nat × Space × Byte) :=
  addrs.flatMap (fun e => (List.range w).map (fun i => (e.1, e.2.plus i, (data e.1).getD i 0)))

/-- The grain code of a request (R60, R348): 0 for 16 bytes to 3 for 128. -/
def grainOf (m : BitVec 128) : Nat :=
  let within (g : Nat) : Bool := (List.range (128 / g)).any (fun b =>
    (List.range 128).all (fun i => !m.getLsbD i || decide (i / g = b)))
  if within 16 then 0 else if within 32 then 1 else if within 64 then 2 else 3

/-- The address that a record gives for a request: that of its block, or of its part at the request's grain (R348). -/
def grainAddr (a : Nat) (m : BitVec 128) : Nat :=
  let g := 16 * 2 ^ grainOf m
  a / 128 * 128 + ((List.range 128).find? (fun i => m.getLsbD i)).getD 0 / g * g

/-- Whether two byte ranges of places share a byte, or share a 16-byte unit when `g` is 16. -/
def placesMeet (g : Nat) (x : Space) (w : Nat) (y : Space) (v : Nat) : Bool :=
  (List.range w).any (fun i => (List.range v).any (fun j =>
    match x.plus i, y.plus j with
    | .virt c a, .virt d b => decide (c = d ∧ a / g = b / g)
    | .scr a, .scr b => decide (a / g = b / g)
    | .host c a, .host d b => decide (c = d ∧ a / g = b / g)
    | _, _ => false))

/-- Whether two requests touch a common byte. -/
def reqsMeet (r q : Req) : Bool :=
  match r.act, q.act with
  | .atomic _ _ _ m, .atomic _ _ _ n => placesMeet 1 r.space m q.space n
  | .atomic _ _ _ m, _ => (List.range m).any (fun i =>
      decide ((r.space.plus i).block = q.space) && q.mask.getLsbD ((r.space.plus i).key % 128))
  | _, .atomic _ _ _ n => (List.range n).any (fun i =>
      decide ((q.space.plus i).block = r.space) && r.mask.getLsbD ((q.space.plus i).key % 128))
  | _, _ => decide (r.space = q.space) && decide (r.mask &&& q.mask ≠ 0)

/-! ## Operations and requests of a core -/

def opOf (s : State) (c i : Nat) : Option MemOp := (core s c).ops.find? (fun o => o.op = i)
def modOp (s : State) (c i : Nat) (f : MemOp → MemOp) : State :=
  modCore s c (fun k => { k with ops := k.ops.map (fun o => if o.op = i then f o else o) })
def dropOp (s : State) (c i : Nat) : State :=
  modCore s c (fun k => { k with ops := k.ops.filter (fun o => o.op != i) })
def reqOf (s : State) (c i : Nat) : Option Req := (core s c).reqs.find? (fun r => r.id = i)
def modReq (s : State) (c i : Nat) (f : Req → Req) : State :=
  modCore s c (fun k => { k with reqs := k.reqs.map (fun r => if r.id = i then f r else r) })
def dropReq (s : State) (c i : Nat) : State :=
  modCore s c (fun k => { k with reqs := k.reqs.filter (fun r => r.id != i) })

def Act.isLoad : Act → Bool
  | .load => true
  | _ => false
def Act.isAtomic : Act → Bool
  | .atomic _ _ _ _ => true
  | _ => false

/-- A request formed: its number, by the order in which requests are formed, and the cycle. -/
def addReq (s : State) (c : Nat) (r : Req) : State :=
  modCore (fresh s) c (fun k => { k with reqs := k.reqs ++ [{ r with id := s.ops, left := s.cycle }] })

/-- Entries of the core's write queue (R61): stores and atomics to virtual addresses that have not left. -/
def queued (s : State) (c : Nat) : Nat :=
  ((core s c).reqs.filter (fun r => r.space.isVirt && !r.act.isLoad && decide (r.phase = .queued))).length

/-- Whether the queue takes `n` more entries. -/
def queueRoom (s : State) (c n : Nat) : Bool := decide (queued s c + n ≤ 64)

/-- The read-ahead buffer emptied (R77). -/
def emptyReadAhead (s : State) (c : Nat) : State := modCore s c (fun k => { k with readAhead := [] })

/-! ## Meeting the capacity tier (R68, R385, R386) -/

/-- What an access to a kind-3 page meets: a poisoned page, a wait, a stale translation, or a stop kind. -/
inductive CapMeet where
  | poisoned | wait | stale | bad (kind : Nat)
deriving DecidableEq, Repr

/-- Whether the poison table holds a page (R386). -/
def poisonMatch (s : State) (ctx vpn : Nat) : Bool := s.poisonTab.any (fun e => decide (e.2.ctx = ctx ∧ e.2.vpn = vpn))

/-- A MIGRATE record (R348): 0 begun, 1 done, 2 deadline read, 3 abandoned. -/
def recordMigrate (s : State) (c : Nat) (thr : BitVec 16) (pc : DWord) (vpn what : Nat) : State :=
  record s c 5 thr pc (vpn % 2 ^ 36 * 4096 + what)

/-- Whether a page was poisoned while the poison table was full, and its migration waits to be abandoned (R386). -/
def poisonedFull (s : State) (ctx vpn : Nat) : Bool :=
  !poisonMatch s ctx vpn && s.migrations.any (fun m => decide (m.ctx = ctx ∧ m.vpn = vpn ∧ m.phase = 6))

/-- What an access to a kind-3 page finds in the global entry (R68 step 2): without the capacity tier it traps (R374); with B set and
the page poisoned, in the poison table or while that was full, it takes kind 17 (R385, R386); else it waits. -/
def capState (s : State) (c ctx vpn : Nat) : CapMeet × State :=
  match walk s ctx vpn with
  | .entry e _ =>
    if entKind e ≠ 3 then (.stale, forget s c ctx vpn)
    else if !s.caps.getLsbD 2 then (.bad 9, s)
    else if entB e && (poisonMatch s ctx vpn || poisonedFull s ctx vpn) then (.poisoned, s)
    else (.wait, s)
  | .absent => (.stale, forget s c ctx vpn)
  | .bad k => (.bad k, s)

/-- Step 3 of R68: the fault unit of a core's die sets B in the global entry of a page that it finds kind 3 with B clear, and the
migration waits for its pool slot. A stop lets no new one begin (R358). -/
def beginMigration (s : State) (c ctx vpn : Nat) (thr : BitVec 16) (pc : DWord) : State :=
  match walk s ctx vpn with
  | .entry e _ =>
    if entKind e ≠ 3 ∨ entB e ∨ s.stop.isSome ∨ !s.caps.getLsbD 2 then s
    else
      let m : Migration :=
        { id := s.ops, die := dieOf c, core := c, ctx := ctx, vpn := vpn, capPage := entPage e, phase := 0, slot := 0
          page := 0, reads := [], got := 0, writes := 0, start := s.cycle, mirrored := false, dead := false, fired := false
          thr := thr, pc := pc, from_ := [], strong := false }
      recordMigrate { setEntryB (fresh s) ctx vpn true with migrations := s.migrations ++ [m] } c thr pc vpn 0
  | _ => s

/-- A strong access that waits on a page's migration noted (R69). -/
def noteStrong (s : State) (ctx vpn : Nat) : State :=
  { s with migrations := s.migrations.map (fun m => if m.ctx = ctx ∧ m.vpn = vpn then { m with strong := true } else m) }

/-- Steps 2 and 3 of R68 for an access that does not park and is tried again: the fault unit begins at the turn of a fabric cycle.
`strong` is set for a store, an atomic or a strong access. -/
def meetCap (s : State) (c ctx vpn : Nat) (thr : BitVec 16) (pc : DWord) (strong : Bool) : CapMeet × State :=
  match capState s c ctx vpn with
  | (.wait, s1) =>
    let s2 := if fabricTick s then beginMigration s1 c ctx vpn thr pc else s1
    (.wait, if strong then noteStrong s2 ctx vpn else s2)
  | r => r

/-! ## The address phase (R201 to R203, R208, R211) -/

/-- Which storage a form reaches (R202, R208, R218). -/
inductive Reach where
  | region | own | cluster | either | arrive
deriving DecidableEq, Repr

/-- A scratchpad place of the workgroup of the issuing bundle or of a rank of its cluster; none outside the limits. DESIGN CHOICE
(entry 78): a rank below WGPERCL whose workgroup has finished has a place that is gone, for which R208 states no outcome. -/
def scratchPlace (s : State) (w : Workgroup) (rank : Option Nat) (off : Nat) : Option Space :=
  if off < scratchBytes s w.id then
    match rank with
    | none => some (.scr (scratchByte w off))
    | some r =>
      match launchOf s w.id with
      | some x => if r < x.wgPerCl then some (.scr (mateByte s w r off)) else none
      | none => none
  else none

/-- The place of a 32-bit address for a form; none for a scratchpad-range trap. -/
def placeOf (s : State) (u : Iss) (r : Reach) (ea : Nat) : Option Space :=
  let region : Space := .virt (ctxId s) (regionVa (regionOf s u.f.wg) ea)
  let mate : Option Space :=
    if isCluster ea then (workgroup s u.f.wg).bind (fun w => scratchPlace s w (some (clusterRank ea)) (clusterOff ea)) else none
  match r with
  | .region => some region
  | .own => (workgroup s u.f.wg).bind (fun w => scratchPlace s w none ea)
  | .cluster | .arrive => mate
  | .either => if isCluster ea then mate else some region

/-- The pages of an access of `w` bytes, the lower-addressed first (R398). -/
def pagesOf (x : Space) (w : Nat) : List Nat :=
  match x with
  | .virt _ _ =>
    let a := x.page
    let b := (x.plus (w - 1)).page
    if a = b then [a] else [min a b, max a b]
  | _ => []

/-- The translations of a list of pages fetched in turn (R40). -/
def translateAll (s : State) (c ctx : Nat) : List Nat → Table (Except Nat DWord) × State
  | [] => ([], s)
  | p :: r =>
    match fetchTrans s c ctx p with
    | (e, s1) =>
      match translateAll s1 c ctx r with
      | (t, s2) => (put t p e, s2)

/-- The page-fault row of R211 for a page: a stop kind, if it fails. -/
def rowFault (t : Table (Except Nat DWord)) (p : Nat) : Option Nat :=
  match lookup t p with
  | some (.ok e) => if entOrd e = 3 then some 6 else none
  | some (.error k) => some k
  | none => none

/-- The protection row of R211 for a page. -/
def rowProtect (t : Table (Except Nat DWord)) (write : Bool) (p : Nat) : Option Nat :=
  match lookup t p with
  | some (.ok e) => if entM e || (write && !entW e) then some 7 else none
  | _ => none

/-- What the address phase of a memory word finds: it must wait, a trap with its DETAIL, a page in the capacity tier, or the
lanes' places with the translations of their pages. -/
inductive Found where
  | hold
  | trap (kind detail : Nat)
  | cap (vpn : Nat)
  | ok (addrs : Table Space) (ents : Table DWord)
deriving DecidableEq, Repr

/-- The first page, in lane order, that a row of R211 refuses. -/
def firstBad (addrs : Table Space) (w : Nat) (row : Nat → Option Nat) : Option (Nat × Nat) :=
  addrs.findSome? (fun e => (pagesOf e.2 w).findSome? (fun p => (row p).map (fun k => (k, p))))

/-- The entries that were fetched. -/
def entsOf (t : Table (Except Nat DWord)) : Table DWord :=
  t.filterMap (fun e => match e.2 with | .ok x => some (e.1, x) | .error _ => none)

/-- The rows of R211 for the places of a word: page fault, then protection; then the capacity tier. `akind` is the access
kind of R362. -/
def checkPages (s : State) (c ctx : Nat) (addrs : Table Space) (w akind : Nat) (write : Bool) : Found × State :=
  let pages := (addrs.flatMap (fun e => pagesOf e.2 w)).dedup
  if pages.any (fun p => fetchWaits s c ctx p) then (.hold, s) else
  match translateAll s c ctx pages with
  | (t, s1) =>
    match firstBad addrs w (rowFault t) with
    | some (k, p) => (.trap k (pageDetail p akind), s1)
    | none =>
      match firstBad addrs w (rowProtect t write) with
      | some (k, p) => (.trap k (pageDetail p akind), s1)
      | none =>
        match firstBad addrs w (fun p => match lookup t p with | some (.ok e) => if entKind e = 3 then some 3 else none | _ => none) with
        | some (_, p) => (.cap p, s1)
        | none => (.ok addrs (entsOf t), s1)

/-- The address phase (R201, R203, R211): every lane's address, then the rows of the table. -/
def findPlaces (s : State) (u : Iss) (r : Reach) (align w akind : Nat) (write : Bool) (ea : Nat → Option Nat) :
    Found × State :=
  match eachLane u ea with
  | none => (.hold, s)
  | some eas =>
    match eas.find? (fun e => decide (e.2 % align ≠ 0)) with
    | some e => (.trap 4 e.2, s)
    | none =>
      match eas.find? (fun e => (placeOf s u r e.2).isNone) with
      | some e => (.trap 5 e.2, s)
      | none =>
        checkPages s u.c (ctxId s) (eas.map (fun e => (e.1, (placeOf s u r e.2).getD (.scr 0)))) w akind write

/-- A word that met a kind-3 page (R68 step 1, R385): kind 17, or every thread of the bundle parks at the word, and the fault unit finds
it there (`faultUnit`). `rd` is the load that a deadline could serve (R69). -/
def parkCap (s : State) (u : Iss) (vpn akind : Nat) (rd : Option MemOp) : State :=
  match capState s u.c (ctxId s) vpn with
  | (.poisoned, s1) =>
    let s2 := trap s1 u 17 (pageDetail vpn akind)
    if poisonedFull s (ctxId s) vpn then { s2 with stop := s2.stop.map (fun p => { p with blocked := true }) } else s2
  | (.bad k, s1) => trap s1 u k (stopDetail k vpn akind)
  | (.stale, s1) => hold s1
  | (.wait, s1) =>
    let s2 := match rd with
      | none => s1
      | some o => modCore (fresh s1) u.c (fun k => modC k (fun y => { y with
          readers := y.readers.filter (fun x => !decide (x.op.lf = u.l ∧ x.op.lanes &&& u.cl.lanes ≠ 0)) ++
            [⟨{ o with op := s1.ops }, u.cl.hdr, vpn, false, 0, []⟩] }))
    parkAll s2 u (.migration vpn s.cycle)

/-! ## Holding at issue (R80 case 1) -/

/-- Whether a present thread has an acquiring access that has not returned: its later accesses do not issue (R80). -/
def acquiring (s : State) (u : Iss) : Bool :=
  (core s u.c).ops.any (fun o => o.acq && decide (o.lf = u.l) && decide (o.lanes &&& u.cl.lanes ≠ 0))

/-! ## Loads -/

/-- The form of a load (R204, R208, R210, R215). -/
structure LoadForm where
  width : Nat
  signed : Bool
  kind : OpKind
  align : Nat
  reach : Reach
deriving DecidableEq, Repr

/-- The age slots of a load (R204). -/
def slotsOf (w : Nat) : Nat := if w = 16 then 4 else if w = 8 then 2 else 1

/-- The operation of a load word. -/
def loadOp (s : State) (u : Iss) (f : LoadForm) (reg : Nat) (flag : Option Nat) (addrs : Table Space)
    (ents : Table DWord) : MemOp where
  op := s.ops
  lf := u.l
  wg := u.f.wg
  pc := u.pc
  kind := f.kind
  lanes := u.cl.lanes
  reg := reg
  width := f.width
  signed := f.signed
  flag := flag
  addrs := addrs
  got := []
  failed := []
  cycle := s.cycle
  acq := f.kind == .acquire
  so := maskOf ((addrs.filter (fun e => (pagesOf e.2 f.width).any (fun p => entOrd (look ents p 0) = 0))).map (fun e => e.1))
  requests := (partsOf (laneBytes addrs f.width (fun _ => []))).length

/-- The ordering that governs a place (R76: scratchpad and host pointers as RC). -/
def orderOf (ents : Table DWord) (x : Space) : Nat :=
  match x with
  | .virt _ _ => entOrd (look ents x.page 0)
  | _ => 1

/-- A request before it is numbered. -/
def blankReq (u : Iss) (op : Nat) (act : Act) (p : Part) (flag : Option Nat) (ord : Nat) : Req where
  id := 0
  op := op
  lf := u.l
  wg := u.f.wg
  pc := u.pc
  lanes := p.lanes
  act := act
  space := p.space
  mask := p.mask
  data := match act with | .load => [] | _ => p.data
  who := match act with | .load => [] | _ => p.who
  flag := flag
  ordering := ord
  acq := false
  rel := none
  path := .thr
  engine := none
  phase := .queued
  ent := none
  entAt := 0
  left := 0
  rejects := 0

/-- The promotions that a load's translations call for are asked for (R50); none for GATHER (R210). -/
def promoteAll (s : State) (u : Iss) (ents : Table DWord) : State :=
  ents.foldl (fun s e =>
    if entKind e.2 = 1 ∧ promotes u.c e.2 then
      askPlace s u.c (ctxId s) e.1 e.2 ⟨some u.f.wg, false⟩ (thrField u.l u.low) u.pc
    else s) s

/-- A load word issues (R205): age queues shift, slots pend, the flag is selected, and one request goes out for each
block. -/
def issueLoad (s : State) (u : Iss) (f : LoadForm) (reg : Nat) (flag : Option Nat) (addrs : Table Space)
    (ents : Table DWord) : State :=
  let o := loadOp s u f reg flag addrs ents
  let k := slotsOf f.width
  let s1 := undoShifts (fresh s) u k
  let s2 := modLF s1 u.c u.l (fun x => selectFlags (pend x u.cl.lanes o.op k reg true u.pc) u.cl.lanes flag u.pc)
  let s3 := modCore s2 u.c (fun x => { x with ops := x.ops ++ [o] })
  let s4 := if f.kind = .gather then s3 else promoteAll s3 u ents
  let s5 := if f.kind = .acquire then emptyReadAhead s4 u.c else s4
  let s6 := (partsOf (laneBytes addrs f.width (fun _ => []))).foldl (fun s p =>
    addReq s u.c { blankReq u o.op .load p flag (orderOf ents p.space) with
      acq := f.kind == .acquire
      phase := .sent
      ent := match p.space with | .virt _ _ => lookup ents p.space.page | _ => none
      entAt := fetchedAt s u.c (ctxId s) p.space.page }) s5
  advance s6 u

/-- A load form from its address onward. -/
def loadWord (s : State) (f : LoadForm) (reg : Nat) (fs : Side) (ea : Iss → Nat → Option Nat) : State :=
  match issuing s with
  | none => hold s
  | some u =>
    if writeHeld u (regsOf reg (slotsOf f.width)) || acquiring s u then hold s
    else
      match findPlaces s u f.reach f.align f.width 0 false (ea u) with
      | (.hold, s1) => hold s1
      | (.trap k d, s1) => trap s1 u k d
      | (.cap p, s1) =>
        let hint5 := match walk s1 (ctxId s1) p with | .entry e _ => decide (entHint e = 5) | _ => false
        let addrs := ((eachLane u (ea u)).getD []).map (fun e => (e.1, (placeOf s1 u f.reach e.2).getD (.scr 0)))
        parkCap s1 u p 0 (if hint5 && f.kind != .acquire then some (loadOp s1 u f reg none addrs []) else none)
      | (.ok addrs ents, s1) => issueLoad s1 u f reg (u.flag fs) addrs ents

/-- A format M load (R201, R204). -/
def loadM (s : State) (f : LoadForm) (scale : Nat) (r : BitVec 4) (fs : Side) (b : Src) (x : BitVec 9) : Outcome :=
  .next (loadWord s f r.toNat fs (fun u i => (read32 u b i).map (fun v => effective v (off9 x * scale))))

/-- An acquire load (R215). -/
def loadAcq (s : State) (w : Nat) (d : BitVec 4) (fs : Side) (a : Src) : Outcome :=
  .next (loadWord s ⟨w, false, .acquire, w, .either⟩ d.toNat fs (fun u i => (read32 u a i).map (fun v => effective v 0)))

/-! ## Stores -/

/-- A store word enters its writes (R206, R208, R215); `rel` gives a release store's scope. -/
def issueStore (s : State) (u : Iss) (w : Nat) (flag : Option Nat) (rel : Option Scope) (addrs : Table Space)
    (ents : Table DWord) (data : Nat → List Byte) : State :=
  let parts := partsOf (laneBytes addrs w data)
  let op := s.ops
  if !queueRoom s u.c (parts.filter (fun p => p.space.isVirt)).length then hold s
  else
    let s1 := fresh s
    let s2 := modLF s1 u.c u.l (fun x => selectFlags x u.cl.lanes flag u.pc)
    let s3 := parts.foldl (fun s p =>
      addReq s u.c { blankReq u op .store p flag (orderOf ents p.space) with
        rel := rel
        phase := if p.space.isVirt then .queued else .sent }) s2
    advance s3 u

/-- A store form from its address and data onward. -/
def storeWord (s : State) (w align : Nat) (r : Reach) (fs : Side) (rel : Option Scope) (ea : Iss → Nat → Option Nat)
    (data : Iss → Nat → Option (List Byte)) : State :=
  match issuing s with
  | none => hold s
  | some u =>
    if acquiring s u then hold s
    else
      match eachLane u (data u) with
      | none => hold s
      | some vals =>
        match findPlaces s u r align w 1 true (ea u) with
        | (.hold, s1) => hold s1
        | (.trap k d, s1) => trap s1 u k d
        | (.cap p, s1) => parkCap s1 u p 1 none
        | (.ok addrs ents, s1) => issueStore s1 u w (u.flag fs) rel addrs ents (fun i => look vals i [])

/-- The data of a format M store: the register, pair or quad REG names (R145), its low `w` bytes. -/
def storeData (u : Iss) (w : Nat) (r : BitVec 4) (lane : Nat) : Option (List Byte) :=
  if w ≤ 4 then (readNamed (thread u.f lane) r.toNat).map (fun v => leBytes w v.toNat)
  else ((List.range (w / 4)).mapM (fun i => readNamed (thread u.f lane) (r.toNat + i))).map
    (fun l => l.flatMap (fun v => leBytes 4 v.toNat))

/-- A format M store (R201, R206, R208). -/
def storeM (s : State) (w align : Nat) (reach : Reach) (scale : Nat) (r : BitVec 4) (fs : Side) (b : Src) (x : BitVec 9) :
    Outcome :=
  .next (storeWord s w align reach fs none (fun u i => (read32 u b i).map (fun v => effective v (off9 x * scale)))
    (fun u i => storeData u w r i))

/-- A release store (R215). -/
def storeRel (s : State) (w : Nat) (c : Scope) (fs : Side) (b : BitVec 5) (a : Src) : Outcome :=
  .next (storeWord s w w .either fs (some c) (fun u i => (read32 u a i).map (fun v => effective v 0))
    (fun u i => if w = 8 then (readSC64 u b i).map (fun v => leBytes 8 v.toNat)
      else (readSC u b i).map (fun v => leBytes 4 v.toNat)))

/-! ## Atomics and arrival words (R212 to R214, R219) -/

/-- Whether a scope's qualifier acquires, or releases. -/
def acquires : Qual → Bool
  | .acq | .ar => true
  | _ => false
def releases : Qual → Bool
  | .rel | .ar => true
  | _ => false

/-- An atomic word issues: a return-slot row (R213), one request a lane, in the queue for the thread region. DESIGN CHOICE (entry 79):
R213 gives a row to an atomic word, and R219 does not say whether ARRIVE.INIT and ARRIVE.ADD take one; they do. -/
def issueAtomic (s : State) (u : Iss) (o : AtomOp) (size : Nat) (reg : Nat) (flag : Option Nat) (acq : Bool)
    (rel : Option Scope) (addrs : Table Space) (ents : Table DWord) (vals : Table (Word × Word)) : State :=
  let op := s.ops
  if decide (4 ≤ u.f.rows.length) || !queueRoom s u.c (addrs.filter (fun e => e.2.isVirt)).length then hold s
  else
    let m := { loadOp s u ⟨size, false, .atomic, size, .either⟩ reg flag addrs ents with acq := acq }
    let s1 := undoShifts (fresh s) u 1
    let s2 := modLF s1 u.c u.l (fun x =>
      { selectFlags (pend x u.cl.lanes op 1 reg true u.pc) u.cl.lanes flag u.pc with rows := x.rows ++ [op] })
    let s3 := modCore s2 u.c (fun x => { x with ops := x.ops ++ [m] })
    let s4 := if acq then emptyReadAhead s3 u.c else s3
    let s5 := addrs.foldl (fun s e =>
      let v := look vals e.1 (0, 0)
      addReq s u.c { blankReq u op (.atomic o v.1 v.2 size) ⟨e.2, BitVec.twoPow 32 e.1, 0, [], []⟩ flag (orderOf ents e.2) with
        acq := acq
        rel := rel
        phase := if e.2.isVirt then .queued else .sent }) s4
    advance s5 u

/-- An atomic form from its address and operand onward. -/
def atomicWord (s : State) (o : AtomOp) (size : Nat) (r : Reach) (reg : Nat) (fs : Side) (acq : Bool) (rel : Option Scope)
    (ea : Iss → Nat → Option Nat) (val : Iss → Nat → Option (Word × Word)) : State :=
  match issuing s with
  | none => hold s
  | some u =>
    if writeHeld u (regsOf reg 1) || acquiring s u then hold s
    else
      match eachLane u (val u) with
      | none => hold s
      | some vals =>
        match findPlaces s u r size size 1 true (ea u) with
        | (.hold, s1) => hold s1
        | (.trap k d, s1) => trap s1 u k d
        | (.cap p, s1) => parkCap s1 u p 1 none
        | (.ok addrs ents, s1) => issueAtomic s1 u o size reg (u.flag fs) acq rel addrs ents vals

/-- A 32-bit atomic with one operand (R212). -/
def atomic (s : State) (o : AtomOp) (q : Qual) (d : BitVec 4) (c : Scope) (fs : Side) (b : BitVec 5) (a : Src) : Outcome :=
  .next (atomicWord s o 4 .either d.toNat fs (acquires q) (if releases q then some c else none)
    (fun u i => (read32 u a i).map (fun v => effective v 0)) (fun u i => (readSC u b i).map (fun v => (v, 0))))

/-- ATM.CAS.b32 (R212): the compare value is the low word of B64, the new value the high word. -/
def atomicCas (s : State) (q : Qual) (d : BitVec 4) (c : Scope) (fs : Side) (b : BitVec 5) (a : Src) : Outcome :=
  .next (atomicWord s .cas 4 .either d.toNat fs (acquires q) (if releases q then some c else none)
    (fun u i => (read32 u a i).map (fun v => effective v 0))
    (fun u i => (readSC64 u b i).map (fun v => (v.extractLsb' 0 32, v.extractLsb' 32 32))))

/-- ARRIVE.INIT and ARRIVE.ADD (R219); `rel` is the release scope. -/
def arrival (s : State) (o : AtomOp) (d : BitVec 4) (fs : Side) (rel : Option Scope) (b : BitVec 5) (a : Src) : Outcome :=
  .next (atomicWord s o 16 .arrive d.toNat fs false rel (fun u i => (read32 u a i).map (fun v => effective v 0))
    (fun u i => (readSC u b i).map (fun v => (v, 0))))

/-! ## Orderings that hold a request back -/

/-- Whether two requests, or an operation and a request, are of one thread. -/
def sameThread (lf : Nat) (m : LaneMask) (r : Req) : Bool := decide (r.lf = lf) && decide (r.lanes &&& m ≠ 0) && r.engine.isNone

/-- The reads of the request's threads that were issued before it and have not returned (R79). -/
def earlierReads (s : State) (c : Nat) (r : Req) : List MemOp :=
  (core s c).ops.filter (fun o =>
    decide (o.op < r.op) && decide (o.lf = r.lf) && decide (o.lanes &&& r.lanes ≠ 0) && decide (o.kind ≠ .attr))

/-- The writes of the request's threads that were issued before it and are not applied. -/
def earlierWrites (s : State) (c : Nat) (r : Req) : List Req :=
  (core s c).reqs.filter (fun q => decide (q.op < r.op) && !q.act.isLoad && sameThread r.lf r.lanes q)

/-- R76 for SO: the thread's previous SO access has been acknowledged. -/
def soReady (s : State) (c : Nat) (r : Req) : Bool :=
  decide (r.ordering ≠ 0) ||
  ((earlierReads s c r).all (fun o => decide (o.so &&& r.lanes = 0)) &&
   (earlierWrites s c r).all (fun q => decide (q.ordering ≠ 0)) &&
   !(core s c).reqs.any (fun q => decide (q.op = r.op ∧ q.id < r.id ∧ q.lanes &&& r.lanes ≠ 0 ∧ q.ordering = 0)))

/-- The host links on which a release of scope .sys by threads still owes a zero-length flushing read: those that have carried a posted
host-pointer write since the last such read of one of the threads (R90). -/
def flushLinks (s : State) (c lf : Nat) (m : LaneMask) : List Nat :=
  match laneFrame s c lf with
  | none => []
  | some f => (s.posted.filter (fun e => f.threads.any (fun t => m.getLsbD t.1 && decide (t.2.sysFence < e.2)))).map (fun e => e.1)

/-- Whether a flushing read of one of the threads is out. -/
def flushing (s : State) (c lf : Nat) (m : LaneMask) : Bool :=
  s.flushes.any (fun x => decide (x.core = c ∧ x.lf = lf) && x.launch.isNone && decide (x.lanes &&& m ≠ 0))

/-- A flushing read sent on each link of a list (R90). -/
def sendFlushes (s : State) (c lf : Nat) (m : LaneMask) (launch : Option Nat) (links : List Nat) : State :=
  links.foldl (fun t k => { fresh t with flushes := t.flushes ++ [⟨t.ops, c, lf, m, launch, k⟩] }) s

/-- A flushing read has completed: it covers its link, and the posted writes before it for the threads that sent it. -/
def flushDone (s : State) (x : Flush) : State :=
  let s1 := { s with flushes := s.flushes.filter (fun y => y.id != x.id), flushed := put s.flushed x.link (max (look s.flushed x.link 0) x.id) }
  if x.launch.isSome then s1
  else modLF s1 x.core x.lf (fun f => modThreads f x.lanes (fun _ t => { t with sysFence := max t.sysFence x.id }))

/-- The waits of R79's table for the threads of a set of lanes, for what they issued before a place in program order: earlier reads
returned, earlier writes applied, or for .wg entered. Wider than .wg, a release waits for the earlier writes of all of its workgroup's
threads: those that a synchronisation of scope .wg has put before it must be visible where it is (R82). -/
def releaseWaits (s : State) (c lf : Nat) (m : LaneMask) (before : Nat) (sc : Scope) : Bool :=
  let wg := (laneFrame s c lf).map (fun f => f.wg)
  !(core s c).ops.any (fun o =>
    decide (o.op < before) && decide (o.lf = lf) && decide (o.lanes &&& m ≠ 0) && decide (o.kind ≠ .attr)) &&
  (core s c).reqs.all (fun q => !(decide (q.op < before) && !q.act.isLoad &&
      (sameThread lf m q || (decide (sc ≠ .wg ∧ some q.wg = wg) && q.engine.isNone))) ||
    (match sc with | .wg => q.space.isVirt | _ => false))

/-- Whether a release of a scope may go on (R79); for .sys its flushing reads have completed too (R90). -/
def released (s : State) (c lf : Nat) (m : LaneMask) (before : Nat) (sc : Scope) : Bool :=
  releaseWaits s c lf m before sc && (decide (sc ≠ .sys) || ((flushLinks s c lf m).isEmpty && !flushing s c lf m))

/-- A release of scope .sys that waits for its flushing reads only sends them. -/
def flushFor (s : State) (c lf : Nat) (m : LaneMask) (before : Nat) (sc : Scope) : State :=
  if sc = .sys ∧ releaseWaits s c lf m before sc ∧ !flushing s c lf m then sendFlushes s c lf m none (flushLinks s c lf m) else s

/-- What a releasing request waits for. -/
def releaseReady (s : State) (c : Nat) (r : Req) : Bool :=
  match r.rel with
  | none => true
  | some sc => released s c r.lf r.lanes r.op sc

/-- Whether an operation's lanes touch a 16-byte unit that a request of one of the same threads touches (R76, RC). -/
def sharesUnit (o : MemOp) (r : Req) : Bool :=
  o.addrs.any (fun e => r.lanes.getLsbD e.1 &&
    (List.range o.width).any (fun i =>
      decide ((e.2.plus i).block = r.space.block) &&
      (List.range 16).any (fun j => r.mask.getLsbD ((e.2.plus i).key % 128 / 16 * 16 + j))))

/-- Whether a load request may be performed now (R62, R76, R215); a GATHER's requests finish in ascending address order (R371). A load of an
SO page waits for the core's older stores to its bytes, whosever they are, so that it returns what is last in the one order (R76). -/
def loadReady (s : State) (c : Nat) (r : Req) : Bool :=
  let older := (core s c).reqs.filter (fun q => decide (q.id < r.id) && !q.act.isLoad && reqsMeet q r)
  soReady s c r &&
  !((core s c).reqs.any (fun q => decide (q.op = r.op ∧ q.id < r.id)) &&
    (match opOf s c r.op with | some o => o.kind == .gather | none => false)) &&
  (decide (r.ordering = 2 ∧ !r.acq) || !(earlierReads s c r).any (fun o => sharesUnit o r)) &&
  (match r.space with
   | .virt _ _ => older.all (fun q => !q.act.isAtomic && !r.acq && decide (r.ordering ≠ 0))
   | _ => older.all (fun q => !sameThread r.lf r.lanes q))

/-- Whether two requests write one page (R61, R76). -/
def samePage (r q : Req) : Bool :=
  match r.space, q.space with
  | .virt c a, .virt d b => decide (c = d ∧ a / 4096 = b / 4096)
  | .scr a, .scr b => decide (a / 4096 = b / 4096)
  | .host c a, .host d b => decide (c = d ∧ a / 4096 = b / 4096)
  | _, _ => false

/-- Whether a store or atomic request may go on now: releases, SO, reads of the same location, the page's earlier writes,
and the lanes of its own atomic word (R61, R76, R79, R214). -/
def storeReady (s : State) (c : Nat) (r : Req) : Bool :=
  soReady s c r && releaseReady s c r &&
  !(core s c).reqs.any (fun q => decide (q.id < r.id) && q.act.isLoad && sameThread r.lf r.lanes q && reqsMeet q r) &&
  !(core s c).reqs.any (fun q => decide (q.id < r.id) && !q.act.isLoad && samePage q r && decide (q.phase ≠ .taken) &&
    (r.space.isVirt || sameThread r.lf r.lanes q)) &&
  !(r.act.isAtomic && (core s c).reqs.any (fun q => decide (q.op = r.op ∧ q.id < r.id)))

/-! ## Where a request goes -/

/-- What a request finds at its home (R37, R43, R49, R68): it waits, also outside a fenced die (R424); it is rejected; it is redirected to a frame; it goes
back to its queue while B is set; the key is invalid; the die answers with an error (R424, R426); or it is served at a storage
number. -/
inductive Home where
  | wait | reject | redirect (key : Nat) | back | noKey | gone | serve (n : Nat)
deriving DecidableEq, Repr

/-- The page's B as a home sees it: the marker's, or the global entry's. -/
def busyAt (s : State) (ctx vpn page : Nat) : Bool :=
  markerBusy s page || (match walk s ctx vpn with | .entry e _ => entB e | _ => false)

/-- A virtual request with a translation, at its home. `strong` is set for stores, atomics and acquire loads. -/
def homeCheck (s : State) (c ctx va : Nat) (e : DWord) (strong : Bool) : Home :=
  let vpn := va / 4096 % 2 ^ 36
  if entKind e = 1 then
    if !sealOk s (entFrame e) ctx (entSeal e) then .reject
    else if entGone s e then .gone
    else if entFenced s c e then .wait
    else if strong && busyAt s ctx vpn (frame s (entFrame e)).backing then .back
    else .serve (frameAt (entFrame e) + va % 4096)
  else
    let page := entPage e
    if pageGone s page then .gone
    else if (marker s page).offered || entFenced s c e then .wait
    else match redirectOf s c page e with
      | some k => if strong && markerBusy s page then .back else .redirect k
      | none =>
        if strong && busyAt s ctx vpn page then .back
        else if (keyOf s ctx).isNone then .noKey
        else .serve (if entW e then homeByte s page (va % 4096) else page * 4096 + va % 4096)

def Req.strong (r : Req) : Bool := !r.act.isLoad || r.acq

/-! ## Performing a load request -/

/-- Read-ahead bytes for a block of a context (R77). -/
def aheadBlock (s : State) (c ctx va : Nat) : Option (List Byte) :=
  ((core s c).readAhead.find? (fun e => decide (e.1 = ctx ∧ e.2.1 = va / 128 * 128))).map (fun e => e.2.2)

/-- The byte that a load's lane receives: its core's own older writes, a read-ahead entry, or the home (R205). -/
def loadByte (s : State) (c : Nat) (r : Req) (key n : Nat) (ahead : Option (List Byte)) (o : Nat) : Byte :=
  let own := match r.space with
    | .virt ctx va => if r.acq then none else queueByte s c ctx (va + o) r.op
    | _ => none
  match own with
  | some b => b
  | none => match ahead with
    | some l => l.getD o 0
    | none => byteUnder s key (n + o)

/-- Whether a byte of a load comes from its home, and so can consume a poisoned unit (R394). -/
def fromHome (s : State) (c : Nat) (r : Req) (ahead : Option (List Byte)) (o : Nat) : Bool :=
  ahead.isNone && (match r.space with
    | .virt ctx va => r.acq || (queueByte s c ctx (va + o) r.op).isNone
    | _ => true)

/-- The bytes of one lane of a request taken in. -/
def takeLane (s : State) (c : Nat) (r : Req) (key n : Nat) (ahead : Option (List Byte)) (o : MemOp) (lane : Nat) : MemOp :=
  match lookup o.addrs lane with
  | none => o
  | some x =>
    (List.range o.width).foldl (fun o i =>
      let p := x.plus i
      if p.block = r.space then
        let off := p.key % 128
        let o1 := { o with got := put o.got (lane * 16 + i) (loadByte s c r key n ahead off) }
        if fromHome s c r ahead off && spoiled s (n + off) && (lookup o1.failed lane).isNone then
          { o1 with failed := put o1.failed lane p.page }
        else o1
      else o) o

/-- A load request performed at the storage number of its block, under a key (R205); an acquire load, of family 7, writes a STORE record
(R348). -/
def takeLoad (s : State) (c : Nat) (r : Req) (key n : Nat) (ahead : Option (List Byte)) (place : Nat) : State :=
  let s1 := modOp s c r.op (fun o => (lanesOf r.lanes).foldl (takeLane s c r key n ahead) o)
  let s2 := dropReq s1 c r.id
  let a := match r.space with | .scr _ => clusterAddr s n | .virt _ va => va | .host _ a => a
  recordAccess s2 c (if r.acq then 4 else 3) (thrField r.lf (lowest r.lanes)) r.pc (grainAddr a r.mask) place (grainOf r.mask)

/-- A block entered in the read-ahead buffer of 32 entries, unless a unit of it is poisoned or its pseudo-channel takes no request in the
window (R66, R77, R394). -/
def fillAhead (s : State) (c ctx va key n : Nat) : State :=
  if (List.range 4).any (fun i => spoiled s (n + 32 * i)) || (decide (n < 2 ^ 40) && !pageOpen s (n / 4096)) then s
  else modCore (if n < 2 ^ 40 then moveUnits s (n / 4096) 8 else s) c (fun k => { k with readAhead := ((ctx, va, readUnder s key n 128) :: k.readAhead).take 32 })

/-- Neighbours of a block that was read at grain from a UN page (R77). -/
def neighbours (s : State) (c ctx va key n : Nat) (choice : Nat) : State :=
  let s1 := if bit choice 1 ∧ (va / 128 + 1) % 32 ≠ 0 then fillAhead s c ctx (va + 128) key (n + 128) else s
  if bit choice 2 ∧ va / 128 % 32 ≠ 0 then fillAhead s1 c ctx (va - 128) key (n - 128) else s1

/-! ## Performing a store request -/

/-- The read-ahead entry of a block dropped: when a write of the core's own queue to it leaves the queue (R77), and again when that write
is applied, so that no entry filled in between hides it (R75, R76). -/
def dropAhead (s : State) (c : Nat) (r : Req) : State :=
  match r.space with
  | .virt ctx va =>
    if r.act.isLoad then s
    else modCore s c (fun k => { k with readAhead := k.readAhead.filter (fun e => !decide (e.1 = ctx ∧ e.2.1 = va / 128 * 128)) })
  | _ => s

/-- The lanes of a store word that have lost a part of their writes. -/
def lostLanes (s : State) (c op : Nat) : LaneMask :=
  (core s c).unfinished.foldl (fun m e => if e.1 = op then m ||| e.2 else m) 0

/-- A part of a store word that will never be applied goes: the shares of its lanes do not end (R207, R228, R397). -/
def loseShare (s : State) (c : Nat) (r : Req) : State :=
  modCore (dropReq s c r.id) c (fun k => { k with unfinished := k.unfinished ++ [(r.op, r.lanes)] })

/-- The lanes whose share of a word is finished when a request of it goes: no other request of the word has them, and none was
lost. -/
def finishShare (s : State) (c : Nat) (r : Req) : State :=
  let s1 := dropReq s c r.id
  let done := maskOf ((lanesOf r.lanes).filter (fun i =>
    !(core s1 c).reqs.any (fun q => decide (q.op = r.op) && q.lanes.getLsbD i) && !(lostLanes s1 c r.op).getLsbD i))
  if r.engine.isSome then s1 else finishFlags s1 c r.lf done r.flag

/-- The address of a request as the recorder and the undo log give it. -/
def reqAddr (s : State) (r : Req) (n : Nat) : Nat :=
  match r.space with
  | .virt _ va => va
  | .scr _ => clusterAddr s n
  | .host _ a => a

/-- The bytes of a store applied at its home: the undo log, the write, and the thread's share (R206, R207, R368). -/
def applyStore (s : State) (c : Nat) (r : Req) (key n : Nat) (dirty : Option (Nat × Nat)) : State :=
  let s1 := if r.engine.isNone then undoWords s c r.lf (fun w => look r.who w (lowest r.lanes)) (pcAddr r.pc) key n (reqAddr s r n) r.data else s
  finishShare (applyWrite (dropAhead s1 c r) key n r.data dirty) c r

/-- The engine operation whose write fails its check when it is sent stops with its flag busy (R233, R410): it goes back to the block, part or
chunk of the write, from which it goes on. -/
def stopWriter (s : State) (c : Nat) (r : Req) (kind detail id : Nat) : State :=
  let block (k : MqKind) (n : Nat) : Nat := match k, r.space with
    | .accSt _ va _, .virt _ a => min n ((a - va) / 128)
    | _, _ => n
  modCore (dropReq s c r.id) c (fun k => modC k (fun y => { y with
    mq := y.mq.map (fun e => if e.id = id then { e with fault := some (kind, detail), finished := false, progress := block e.kind e.progress } else e)
    eng := y.eng.map (fun e => if e.id = id then { e with fault := some (kind, detail), sent := e.progress } else e) }))

/-- An entry that cannot be written is discarded and its stop raised; its flag stays busy (R228, R233, R360). -/
def discard (s : State) (c : Nat) (r : Req) (kind detail : Nat) : State :=
  raise (match r.engine with | some id => stopWriter s c r kind detail id | none => loseShare s c r) ⟨kind, c, r.lf, 6, thrField r.lf (lowest r.lanes), r.pc, detail, none⟩

/-- A load whose refetched translation fails: its lanes fail and its stop is raised now (R394's form; entry 13); bit 40 of the
mark says so. -/
def failLoad (s : State) (c : Nat) (r : Req) (kind vpn : Nat) : State :=
  let s1 := modOp s c r.op (fun o => { o with failed := (lanesOf r.lanes).foldl (fun t i => put t i (vpn + 2 ^ 40)) o.failed })
  raise (dropReq s1 c r.id) ⟨kind, c, r.lf, 0, thrField r.lf (lowest r.lanes), r.pc, stopDetail kind vpn 0, none⟩

/-! ## Performing an atomic request (R212, R219) -/

/-- The new value of a 32-bit atomic; none when a compare fails (R212). -/
def atomValue (o : AtomOp) (old b b2 : Word) : Option Word :=
  match o with
  | .add => some (old + b)
  | .addF => some (BitVec.ofNat 32 (fadd fp32 .rn old.toNat b.toNat))
  | .mins => some (if old.toInt < b.toInt then old else b)
  | .maxs => some (if b.toInt < old.toInt then old else b)
  | .minz => some (if old.toNat < b.toNat then old else b)
  | .maxz => some (if b.toNat < old.toNat then old else b)
  | .and => some (old &&& b)
  | .or => some (old ||| b)
  | .xor => some (old ^^^ b)
  | .exch => some b
  | .cas => if old = b then some b2 else none
  | .arriveInit | .arriveAdd => none

/-- An arrival word after ARRIVE.ADD of a count (R219): TOTAL, COUNT and GEN. -/
def arriveAdd (total count gen b : Nat) : Nat × Nat :=
  let c := min (count + b) (2 ^ 32 - 1)
  if total ≠ 0 ∧ total ≤ c then (c - total, (gen + 1) % 2 ^ 16) else (c, gen)

/-- What an atomic at a storage number reads as its old value, and the bytes it writes. -/
def atomEffect (s : State) (o : AtomOp) (key n : Nat) (b b2 : Word) : Word × Table Byte :=
  match o with
  | .arriveInit => (BitVec.ofNat 32 (leNat (readUnder s key (n + 8) 2)), byteTable (leBytes 8 b.toNat))
  | .arriveAdd =>
    let gen := leNat (readUnder s key (n + 8) 2)
    let r := arriveAdd (leNat (readUnder s key n 4)) (leNat (readUnder s key (n + 4) 4)) gen b.toNat
    (BitVec.ofNat 32 gen, (byteTable (leBytes 6 (r.1 + r.2 * 2 ^ 32))).map (fun e => (e.1 + 4, e.2)))
  | _ =>
    let old := BitVec.ofNat 32 (leNat (readUnder s key n 4))
    (old, match atomValue o old b b2 with | some v => byteTable (leBytes 4 v.toNat) | none => [])

/-- The lowest lane's value of an atomic's reply. -/
def putReply (o : MemOp) (lane : Nat) (v : Word) : MemOp :=
  { o with got := (leBytes 4 v.toNat).mapIdx (fun i b => (i, b)) |>.foldl (fun t e => put t (lane * 16 + e.1) e.2) o.got }

end Sys2Proof.Machine
end

