-- ==== Sys2Proof/Machine/Control.lean ====
section
/-!
DEFINITION. Machine/Control.lean: branches, calls, returns, END, TRAP, BRK, SYSCALL (R263 to R270), and the fate of a word
that does not decode (R161).
-/
namespace Sys2Proof.Machine

/-- The target of a branch (R263): bits 31:0 are those of the clause header plus the offset, bits 47:32 those of ENTRY. -/
def Iss.target (u : Iss) (s : State) (i : BitVec 24) : Nat :=
  regionVa (regionOf s u.f.wg) (regionAdd u.cl.hdrAddr (off24 i) % 2 ^ 32)

/-- Each present lane's own Q[1], or none while one is pending (R263). -/
def conditions (u : Iss) : Option (Table Word) := eachLane u (fun i => readAge (thread u.f i) 0)

/-- A conditional branch. -/
def branchIf (s : State) (i : BitVec 24) (take : Word → Bool) : State :=
  match issuing s with
  | none => hold s
  | some u =>
    match conditions u with
    | none => hold s
    | some q => jump s u (fun l => some (if take (look q l 0) then u.target s i else u.next))

/-- BRA (R263). -/
def execBra (i : BitVec 24) (s : State) : Outcome :=
  match issuing s with
  | none => .next (hold s)
  | some u => .next (jump s u (fun _ => some (u.target s i)))

/-- BRZ (R263). -/
def execBrz (i : BitVec 24) (s : State) : Outcome := .next (branchIf s i (fun q => q == 0))

/-- BRNZ (R263). -/
def execBrnz (i : BitVec 24) (s : State) : Outcome := .next (branchIf s i (fun q => q != 0))

/-- CALL (R263, R264): n14 and the age queue get the address of the next clause, after 4 cycles. -/
def execCall (i : BitVec 24) (s : State) : Outcome :=
  match issuing s with
  | none => .next (hold s)
  | some u =>
    if writeHeld u [14] then .next (hold s)
    else
      let s1 := sendVals s u 4 1 14 (u.lanes.map (fun l => (l, [BitVec.ofNat 32 u.next])))
      .next (jump s1 u (fun _ => some (u.target s i)))

/-- RET (R263, R264). -/
def execRet (s : State) : Outcome :=
  match issuing s with
  | none => .next (hold s)
  | some u =>
    match eachLane u (fun i => readNamed (thread u.f i) 14) with
    | none => .next (hold s)
    | some t =>
      match t.find? (fun e => decide (e.2.toNat % 4 ≠ 0)) with
      | some e => .next (trap s u 4 e.2.toNat)
      | none => .next (jump s u (fun i => some (regionVa (regionOf s u.f.wg) (look t i 0).toNat)))

/-- END (R263): each present thread ends (R12); a waiting regroup is tested again (R265). -/
def execEndThread (s : State) : Outcome :=
  match issuing s with
  | none => .next (hold s)
  | some u => .next (regroupTest (jump s u (fun _ => none)) u.f.wg)

/-- TRAP (R268). -/
def execTrap (i : BitVec 24) (s : State) : Outcome :=
  match issuing s with
  | none => .next (hold s)
  | some u => .next (trap s u 8 i.toNat)

/-- Whether the breakpoint enable of the running context is set (R367). -/
def brkEnabled (s : State) : Bool :=
  s.slice.isSome && s.dbgctl.getLsbD 16 && decide (bits s.dbgctl.toNat 15 0 = ctxId s)

/-- BRK (R269): every present thread continues at next; with the enable set, a debugger halt is raised that names them all (MTRAP). -/
def execBrk (i : BitVec 24) (s : State) : Outcome :=
  match issuing s with
  | none => .next (hold s)
  | some u =>
    let s1 := jump s u (fun _ => some u.next)
    if brkEnabled s then .next (raise s1 ⟨16, u.c, u.l, 0, thrField u.l u.low, u.pc, i.toNat, some u.cl.lanes⟩)
    else .next s1

/-- The lowest-numbered free slot of a core's call ring (R319): none while EN is 0; a slot that a bundle has taken and not yet posted
is not free (R270 step 1). -/
def freeSlot (k : Core) : Option Nat :=
  if k.mast.mring.getLsbD 10 then
    (List.range (2 ^ bits k.mast.mring.toNat 3 0)).find? (fun i =>
      (lookup k.mast.calls i).isNone && !k.c.lfs.any (fun e => e.2.call.isSome && decide (e.2.callSlot = some i)))
  else none

/-- SYSCALL (R270 step 1): the bundle holds at the word until CALL_RING_POST takes a slot. -/
def execSyscall (i : BitVec 24) (s : State) : Outcome :=
  match issuing s with
  | none => .next (hold s)
  | some u =>
    if writeHeld u (regsOf 1 1) then .next (hold s)
    else .next { modLF (fresh s) u.c u.l (fun f => { f with call := some ⟨s.ops, i.setWidth 32, false⟩, callSlot := none }) with at_ := none }

/-- The stop kind of a word that does not decode (R161, R362). -/
def illKindCode : IllKind → Nat
  | .operand => 3
  | _ => 2

/-- A word that does not decode (R161): it has no effect, and its trap is raised for the bundle. -/
def execIllegalInstruction (k : IllKind) (w : Word) (s : State) : Outcome :=
  match issuing s with
  | none => .next (hold s)
  | some u => .next (trap s u (illKindCode k) w.toNat)

end Sys2Proof.Machine
end

