-- ==== Sys2Proof/Machine/Reads.lean ====
section
/-!
DEFINITION. Machine/Reads.lean: the registers that each instruction word reads and writes, for stall blame (R350).
-/
namespace Sys2Proof.Machine

/-- A register that a word reads: its crossbar pattern and its selector (R144). -/
structure Read where
  pat : BitVec 4
  sel : Nat
deriving DecidableEq, Repr

def one (x : Src) : List Read := [⟨x.pat, x.sel.toNat⟩]
def two (x : Src) : List Read := [⟨x.pat, x.sel.toNat⟩, ⟨x.pat, x.sel.toNat + 1⟩]
def plain (x : BitVec 5) : List Read := [⟨0, x.toNat⟩]
def plain2 (x : BitVec 5) : List Read := [⟨0, x.toNat⟩, ⟨0, x.toNat + 1⟩]
/-- `n` named registers from `k`. -/
def named (k n : Nat) : List Read := (List.range n).map (fun i => ⟨0, 16 + k + i⟩)

/-- The registers that a word reads, in operand order. -/
def readsOf : Instr → List Read
  | .addS32 _ b a => one a ++ one b
  | .addS32Sat _ b a => one a ++ one b
  | .addZ32Sat _ b a => one a ++ one b
  | .subS32 _ b a => one a ++ one b
  | .subS32Sat _ b a => one a ++ one b
  | .subZ32Sat _ b a => one a ++ one b
  | .mulS32 _ b a => one a ++ one b
  | .mulhiS32 _ b a => one a ++ one b
  | .mulhiZ32 _ b a => one a ++ one b
  | .minS32 _ b a => one a ++ one b
  | .maxS32 _ b a => one a ++ one b
  | .minZ32 _ b a => one a ++ one b
  | .maxZ32 _ b a => one a ++ one b
  | .absS32 _ a => one a
  | .negS32 _ a => one a
  | .movB32 _ a => one a
  | .andB32 _ b a => one a ++ one b
  | .orB32 _ b a => one a ++ one b
  | .xorB32 _ b a => one a ++ one b
  | .andnB32 _ b a => one a ++ one b
  | .notB32 _ a => one a
  | .addB64 _ b a => two a ++ two b
  | .subB64 _ b a => two a ++ two b
  | .mulwS32 _ b a => one a ++ one b
  | .mulwZ32 _ b a => one a ++ one b
  | .divS32 _ b a => one a ++ one b
  | .divZ32 _ b a => one a ++ one b
  | .remS32 _ b a => one a ++ one b
  | .remZ32 _ b a => one a ++ one b
  | .shlB32 _ b a => one a ++ one b
  | .shrZ32 _ b a => one a ++ one b
  | .shrS32 _ b a => one a ++ one b
  | .rolB32 _ b a => one a ++ one b
  | .shlB64 _ b a => two a ++ one b
  | .shrZ64 _ b a => two a ++ one b
  | .shrS64 _ b a => two a ++ one b
  | .popcB32 _ a => one a
  | .clzB32 _ a => one a
  | .ctzB32 _ a => one a
  | .brevB32 _ a => one a
  | .bfxS32 _ b a => one a ++ one b
  | .bfxZ32 _ b a => one a ++ one b
  | .isetEqB32 _ b a => one a ++ one b
  | .isetNeB32 _ b a => one a ++ one b
  | .isetLtS32 _ b a => one a ++ one b
  | .isetLeS32 _ b a => one a ++ one b
  | .isetGtS32 _ b a => one a ++ one b
  | .isetGeS32 _ b a => one a ++ one b
  | .isetLtZ32 _ b a => one a ++ one b
  | .isetLeZ32 _ b a => one a ++ one b
  | .isetGtZ32 _ b a => one a ++ one b
  | .isetGeZ32 _ b a => one a ++ one b
  | .selB32 _ b a => one a ++ one b ++ [⟨0, 0⟩]
  | .faddF32 _ _ b a => one a ++ one b
  | .fsubF32 _ _ b a => one a ++ one b
  | .fmulF32 _ _ b a => one a ++ one b
  | .faddF16 _ _ b a => one a ++ one b
  | .fsubF16 _ _ b a => one a ++ one b
  | .fmulF16 _ _ b a => one a ++ one b
  | .fminF32 _ b a => one a ++ one b
  | .fmaxF32 _ b a => one a ++ one b
  | .fminF16 _ b a => one a ++ one b
  | .fmaxF16 _ b a => one a ++ one b
  | .fabsF32 _ a => one a
  | .fnegF32 _ a => one a
  | .fabsF16 _ a => one a
  | .fnegF16 _ a => one a
  | .fsetF32 _ _ b a => one a ++ one b
  | .fsetF16 _ _ b a => one a ++ one b
  | .frndF32 _ _ a => one a
  | .frndF16 _ _ a => one a
  | .faddBf16x2 _ _ b a => one a ++ one b
  | .fmulBf16x2 _ _ b a => one a ++ one b
  | .faddF16x2 _ _ b a => one a ++ one b
  | .fmulF16x2 _ _ b a => one a ++ one b
  | .fminBf16x2 _ b a => one a ++ one b
  | .fmaxBf16x2 _ b a => one a ++ one b
  | .fminF16x2 _ b a => one a ++ one b
  | .fmaxF16x2 _ b a => one a ++ one b
  | .cvtF16F32 _ _ a => one a
  | .cvtBf16F32 _ _ a => one a
  | .cvtBf16F16 _ _ a => one a
  | .cvtF16Bf16 _ _ a => one a
  | .cvtF32F16 _ a => one a
  | .cvtF32Bf16 _ a => one a
  | .packBf16x2F32 _ b a => one a ++ one b
  | .packF16x2F32 _ b a => one a ++ one b
  | .cvtIntF32 _ _ _ a => one a
  | .cvtIntF16 _ _ _ a => one a
  | .cvtIntBf16 _ _ _ a => one a
  | .cvtF32Int _ _ _ a => one a
  | .cvtF16Int _ _ _ a => one a
  | .cvtBf16Int _ _ _ a => one a
  | .rcpF32 _ a => one a
  | .rsqF32 _ a => one a
  | .sqrtF32 _ a => one a
  | .ex2F32 _ a => one a
  | .lg2F32 _ a => one a
  | .sinF32 _ a => one a
  | .cosF32 _ a => one a
  | .rcpF16 _ a => one a
  | .rsqF16 _ a => one a
  | .sqrtF16 _ a => one a
  | .ex2F16 _ a => one a
  | .lg2F16 _ a => one a
  | .sinF16 _ a => one a
  | .cosF16 _ a => one a
  | .laneSelB32 _ b a => plain a ++ one b
  | .voteAny _ a => one a
  | .voteAll _ a => one a
  | .voteBal _ a => one a
  | .voteUni _ a => one a
  | .elect _ => []
  | .sreg _ _ => []
  | .msig _ b a => one a ++ one b
  | .mark a => one a
  | .rsvSet _ b a => two a ++ plain2 b
  | .rsvFree a => one a
  | .rsvGet _ a => one a
  | .mxld _ b a => two a ++ plain b
  | .mmaBf16 _ a => one a
  | .mmaF16 _ a => one a
  | .mmaK _ a => one a
  | .mmaKOl _ b a => one a ++ plain b
  | .mmaBf16G _ a => one a
  | .mmaF16G _ a => one a
  | .mmaKG _ a => one a
  | .mmaKOlG _ b a => one a ++ plain b
  | .gangSet a => one a
  | .gangGet _ => []
  | .accZero a => one a
  | .accLd _ b a => two a ++ plain b
  | .accSt _ b a => two a ++ plain b
  | .accRd _ _ a => one a
  | .accFree a => one a
  | .groveVt _ b a => two a ++ plain b
  | .groveSwap _ a => one a
  | .groveRd _ _ a => one a
  | .atmAddZ32 _ _ _ _ b a => one a ++ plain b
  | .atmAddF32 _ _ _ _ b a => one a ++ plain b
  | .atmMinS32 _ _ _ _ b a => one a ++ plain b
  | .atmMaxS32 _ _ _ _ b a => one a ++ plain b
  | .atmMinZ32 _ _ _ _ b a => one a ++ plain b
  | .atmMaxZ32 _ _ _ _ b a => one a ++ plain b
  | .atmAndB32 _ _ _ _ b a => one a ++ plain b
  | .atmOrB32 _ _ _ _ b a => one a ++ plain b
  | .atmXorB32 _ _ _ _ b a => one a ++ plain b
  | .atmExchB32 _ _ _ _ b a => one a ++ plain b
  | .atmCasB32 _ _ _ _ b a => one a ++ plain2 b
  | .ldAcqB32 _ _ _ a => one a
  | .ldAcqB64 _ _ _ a => one a
  | .stRelB32 _ _ b a => one a ++ plain b
  | .stRelB64 _ _ b a => one a ++ plain2 b
  | .monWaitEq _ _ _ b a => one a ++ plain b
  | .monWaitNe _ _ _ b a => one a ++ plain b
  | .monWaitGez _ _ _ b a => one a ++ plain b
  | .arriveInit _ _ b a => one a ++ plain b
  | .arriveAdd _ _ b a => one a ++ plain b
  | .arriveWait _ _ _ b a => one a ++ plain b
  | .fence _ => []
  | .fenceX _ _ _ => []
  | .hint _ _ b a => one a ++ plain b
  | .pgset _ _ b a => one a ++ plain2 b
  | .fmaF32 _ c b a => one a ++ one b ++ plain c
  | .fmsF32 _ c b a => one a ++ one b ++ plain c
  | .fmaF16 _ c b a => one a ++ one b ++ plain c
  | .fmaBf16x2 _ c b a => one a ++ one b ++ plain c
  | .fmaF16x2 _ c b a => one a ++ one b ++ plain c
  | .imadS32 _ c b a => one a ++ one b ++ plain c
  | .imadZ32 _ c b a => one a ++ one b ++ plain c
  | .shladd _ c b a => one a ++ one b ++ plain c
  | .addS32Imm _ _ a => one a
  | .addS32SatImm _ _ a => one a
  | .mulS32Imm _ _ a => one a
  | .andB32Imm _ _ a => one a
  | .orB32Imm _ _ a => one a
  | .xorB32Imm _ _ a => one a
  | .shlB32Imm _ _ a => one a
  | .shrZ32Imm _ _ a => one a
  | .shrS32Imm _ _ a => one a
  | .minS32Imm _ _ a => one a
  | .maxS32Imm _ _ a => one a
  | .movB32Imm _ _ => []
  | .adr _ _ => []
  | .isetEqB32Imm _ _ a => one a
  | .isetNeB32Imm _ _ a => one a
  | .isetLtS32Imm _ _ a => one a
  | .isetLeS32Imm _ _ a => one a
  | .isetGtS32Imm _ _ a => one a
  | .isetGeS32Imm _ _ a => one a
  | .isetLtZ32Imm _ _ a => one a
  | .isetLeZ32Imm _ _ a => one a
  | .isetGtZ32Imm _ _ a => one a
  | .isetGeZ32Imm _ _ a => one a
  | .ldS8 _ _ b _ => one b
  | .ldZ8 _ _ b _ => one b
  | .ldS16 _ _ b _ => one b
  | .ldZ16 _ _ b _ => one b
  | .ldB32 _ _ b _ => one b
  | .ldB64 _ _ b _ => one b
  | .ldB128 _ _ b _ => one b
  | .stB8 r _ b _ => one b ++ named r.toNat 1
  | .stB16 r _ b _ => one b ++ named r.toNat 1
  | .stB32 r _ b _ => one b ++ named r.toNat 1
  | .stB64 r _ b _ => one b ++ named r.toNat 2
  | .stB128 r _ b _ => one b ++ named r.toNat 4
  | .ldsB32 _ _ b _ => one b
  | .ldsB64 _ _ b _ => one b
  | .ldsB128 _ _ b _ => one b
  | .stsB32 r _ b _ => one b ++ named r.toNat 1
  | .stsB64 r _ b _ => one b ++ named r.toNat 2
  | .stsB128 r _ b _ => one b ++ named r.toNat 4
  | .ldrB32 _ _ b _ => one b
  | .ldrB64 _ _ b _ => one b
  | .strB32 r _ b _ => one b ++ named r.toNat 1
  | .strB64 r _ b _ => one b ++ named r.toNat 2
  | .ldhB32 _ _ b _ => two b
  | .ldhB64 _ _ b _ => two b
  | .sthB32 r _ b _ => two b ++ named r.toNat 1
  | .sthB64 r _ b _ => two b ++ named r.toNat 2
  | .gatherB32 _ _ b _ => one b
  | .xfer _ _ b _ => one b ++ named 8 5
  | .coll _ _ b _ => one b
  | .launch _ _ b _ => one b
  | .groveRow _ _ b _ => one b
  | .bra _ => []
  | .brz _ => [⟨0, 0⟩]
  | .brnz _ => [⟨0, 0⟩]
  | .call _ => []
  | .ret => named 14 1
  | .endThread => []
  | .trap _ => []
  | .syscall _ => []
  | .brk _ => []
  | .const _ => []
  | .consthi _ => []
  | _ => []

/-- The named registers that a word writes. -/
def writesOf : Instr → List Nat
  | .addS32 d _ _ => regsOf d.toNat 1
  | .addS32Sat d _ _ => regsOf d.toNat 1
  | .addZ32Sat d _ _ => regsOf d.toNat 1
  | .subS32 d _ _ => regsOf d.toNat 1
  | .subS32Sat d _ _ => regsOf d.toNat 1
  | .subZ32Sat d _ _ => regsOf d.toNat 1
  | .mulS32 d _ _ => regsOf d.toNat 1
  | .mulhiS32 d _ _ => regsOf d.toNat 1
  | .mulhiZ32 d _ _ => regsOf d.toNat 1
  | .minS32 d _ _ => regsOf d.toNat 1
  | .maxS32 d _ _ => regsOf d.toNat 1
  | .minZ32 d _ _ => regsOf d.toNat 1
  | .maxZ32 d _ _ => regsOf d.toNat 1
  | .absS32 d _ => regsOf d.toNat 1
  | .negS32 d _ => regsOf d.toNat 1
  | .movB32 d _ => regsOf d.toNat 1
  | .andB32 d _ _ => regsOf d.toNat 1
  | .orB32 d _ _ => regsOf d.toNat 1
  | .xorB32 d _ _ => regsOf d.toNat 1
  | .andnB32 d _ _ => regsOf d.toNat 1
  | .notB32 d _ => regsOf d.toNat 1
  | .addB64 d _ _ => regsOf d.toNat 2
  | .subB64 d _ _ => regsOf d.toNat 2
  | .mulwS32 d _ _ => regsOf d.toNat 2
  | .mulwZ32 d _ _ => regsOf d.toNat 2
  | .divS32 d _ _ => regsOf d.toNat 1
  | .divZ32 d _ _ => regsOf d.toNat 1
  | .remS32 d _ _ => regsOf d.toNat 1
  | .remZ32 d _ _ => regsOf d.toNat 1
  | .shlB32 d _ _ => regsOf d.toNat 1
  | .shrZ32 d _ _ => regsOf d.toNat 1
  | .shrS32 d _ _ => regsOf d.toNat 1
  | .rolB32 d _ _ => regsOf d.toNat 1
  | .shlB64 d _ _ => regsOf d.toNat 2
  | .shrZ64 d _ _ => regsOf d.toNat 2
  | .shrS64 d _ _ => regsOf d.toNat 2
  | .popcB32 d _ => regsOf d.toNat 1
  | .clzB32 d _ => regsOf d.toNat 1
  | .ctzB32 d _ => regsOf d.toNat 1
  | .brevB32 d _ => regsOf d.toNat 1
  | .bfxS32 d _ _ => regsOf d.toNat 1
  | .bfxZ32 d _ _ => regsOf d.toNat 1
  | .isetEqB32 d _ _ => regsOf d.toNat 1
  | .isetNeB32 d _ _ => regsOf d.toNat 1
  | .isetLtS32 d _ _ => regsOf d.toNat 1
  | .isetLeS32 d _ _ => regsOf d.toNat 1
  | .isetGtS32 d _ _ => regsOf d.toNat 1
  | .isetGeS32 d _ _ => regsOf d.toNat 1
  | .isetLtZ32 d _ _ => regsOf d.toNat 1
  | .isetLeZ32 d _ _ => regsOf d.toNat 1
  | .isetGtZ32 d _ _ => regsOf d.toNat 1
  | .isetGeZ32 d _ _ => regsOf d.toNat 1
  | .selB32 d _ _ => regsOf d.toNat 1
  | .faddF32 _ d _ _ => regsOf d.toNat 1
  | .fsubF32 _ d _ _ => regsOf d.toNat 1
  | .fmulF32 _ d _ _ => regsOf d.toNat 1
  | .faddF16 _ d _ _ => regsOf d.toNat 1
  | .fsubF16 _ d _ _ => regsOf d.toNat 1
  | .fmulF16 _ d _ _ => regsOf d.toNat 1
  | .fminF32 d _ _ => regsOf d.toNat 1
  | .fmaxF32 d _ _ => regsOf d.toNat 1
  | .fminF16 d _ _ => regsOf d.toNat 1
  | .fmaxF16 d _ _ => regsOf d.toNat 1
  | .fabsF32 d _ => regsOf d.toNat 1
  | .fnegF32 d _ => regsOf d.toNat 1
  | .fabsF16 d _ => regsOf d.toNat 1
  | .fnegF16 d _ => regsOf d.toNat 1
  | .fsetF32 _ d _ _ => regsOf d.toNat 1
  | .fsetF16 _ d _ _ => regsOf d.toNat 1
  | .frndF32 _ d _ => regsOf d.toNat 1
  | .frndF16 _ d _ => regsOf d.toNat 1
  | .faddBf16x2 _ d _ _ => regsOf d.toNat 1
  | .fmulBf16x2 _ d _ _ => regsOf d.toNat 1
  | .faddF16x2 _ d _ _ => regsOf d.toNat 1
  | .fmulF16x2 _ d _ _ => regsOf d.toNat 1
  | .fminBf16x2 d _ _ => regsOf d.toNat 1
  | .fmaxBf16x2 d _ _ => regsOf d.toNat 1
  | .fminF16x2 d _ _ => regsOf d.toNat 1
  | .fmaxF16x2 d _ _ => regsOf d.toNat 1
  | .cvtF16F32 _ d _ => regsOf d.toNat 1
  | .cvtBf16F32 _ d _ => regsOf d.toNat 1
  | .cvtBf16F16 _ d _ => regsOf d.toNat 1
  | .cvtF16Bf16 _ d _ => regsOf d.toNat 1
  | .cvtF32F16 d _ => regsOf d.toNat 1
  | .cvtF32Bf16 d _ => regsOf d.toNat 1
  | .packBf16x2F32 d _ _ => regsOf d.toNat 1
  | .packF16x2F32 d _ _ => regsOf d.toNat 1
  | .cvtIntF32 _ d _ _ => regsOf d.toNat 1
  | .cvtIntF16 _ d _ _ => regsOf d.toNat 1
  | .cvtIntBf16 _ d _ _ => regsOf d.toNat 1
  | .cvtF32Int _ d _ _ => regsOf d.toNat 1
  | .cvtF16Int _ d _ _ => regsOf d.toNat 1
  | .cvtBf16Int _ d _ _ => regsOf d.toNat 1
  | .rcpF32 d _ => regsOf d.toNat 1
  | .rsqF32 d _ => regsOf d.toNat 1
  | .sqrtF32 d _ => regsOf d.toNat 1
  | .ex2F32 d _ => regsOf d.toNat 1
  | .lg2F32 d _ => regsOf d.toNat 1
  | .sinF32 d _ => regsOf d.toNat 1
  | .cosF32 d _ => regsOf d.toNat 1
  | .rcpF16 d _ => regsOf d.toNat 1
  | .rsqF16 d _ => regsOf d.toNat 1
  | .sqrtF16 d _ => regsOf d.toNat 1
  | .ex2F16 d _ => regsOf d.toNat 1
  | .lg2F16 d _ => regsOf d.toNat 1
  | .sinF16 d _ => regsOf d.toNat 1
  | .cosF16 d _ => regsOf d.toNat 1
  | .laneSelB32 d _ _ => regsOf d.toNat 1
  | .voteAny d _ => regsOf d.toNat 1
  | .voteAll d _ => regsOf d.toNat 1
  | .voteBal d _ => regsOf d.toNat 1
  | .voteUni d _ => regsOf d.toNat 1
  | .elect d => regsOf d.toNat 1
  | .sreg d _ => regsOf d.toNat 1
  | .msig d _ _ => regsOf d.toNat 1
  | .mark _ => []
  | .rsvSet d _ _ => regsOf d.toNat 1
  | .rsvFree _ => []
  | .rsvGet d _ => regsOf d.toNat 2
  | .mxld _ _ _ => []
  | .mmaBf16 _ _ => []
  | .mmaF16 _ _ => []
  | .mmaK _ _ => []
  | .mmaKOl _ _ _ => []
  | .mmaBf16G _ _ => []
  | .mmaF16G _ _ => []
  | .mmaKG _ _ => []
  | .mmaKOlG _ _ _ => []
  | .gangSet _ => []
  | .gangGet d => regsOf d.toNat 1
  | .accZero _ => []
  | .accLd _ _ _ => []
  | .accSt _ _ _ => []
  | .accRd d _ _ => regsOf d.toNat 1
  | .accFree _ => []
  | .groveVt _ _ _ => []
  | .groveSwap _ _ => []
  | .groveRd d _ _ => regsOf d.toNat 1
  | .atmAddZ32 _ d _ _ _ _ => regsOf d.toNat 1
  | .atmAddF32 _ d _ _ _ _ => regsOf d.toNat 1
  | .atmMinS32 _ d _ _ _ _ => regsOf d.toNat 1
  | .atmMaxS32 _ d _ _ _ _ => regsOf d.toNat 1
  | .atmMinZ32 _ d _ _ _ _ => regsOf d.toNat 1
  | .atmMaxZ32 _ d _ _ _ _ => regsOf d.toNat 1
  | .atmAndB32 _ d _ _ _ _ => regsOf d.toNat 1
  | .atmOrB32 _ d _ _ _ _ => regsOf d.toNat 1
  | .atmXorB32 _ d _ _ _ _ => regsOf d.toNat 1
  | .atmExchB32 _ d _ _ _ _ => regsOf d.toNat 1
  | .atmCasB32 _ d _ _ _ _ => regsOf d.toNat 1
  | .ldAcqB32 d _ _ _ => regsOf d.toNat 1
  | .ldAcqB64 d _ _ _ => regsOf d.toNat 2
  | .stRelB32 _ _ _ _ => []
  | .stRelB64 _ _ _ _ => []
  | .monWaitEq d _ _ _ _ => regsOf d.toNat 1
  | .monWaitNe d _ _ _ _ => regsOf d.toNat 1
  | .monWaitGez d _ _ _ _ => regsOf d.toNat 1
  | .arriveInit d _ _ _ => regsOf d.toNat 1
  | .arriveAdd d _ _ _ => regsOf d.toNat 1
  | .arriveWait d _ _ _ _ => regsOf d.toNat 1
  | .fence _ => []
  | .fenceX _ _ _ => []
  | .hint d _ _ _ => regsOf d.toNat 1
  | .pgset d _ _ _ => regsOf d.toNat 1
  | .fmaF32 d _ _ _ => regsOf d.toNat 1
  | .fmsF32 d _ _ _ => regsOf d.toNat 1
  | .fmaF16 d _ _ _ => regsOf d.toNat 1
  | .fmaBf16x2 d _ _ _ => regsOf d.toNat 1
  | .fmaF16x2 d _ _ _ => regsOf d.toNat 1
  | .imadS32 d _ _ _ => regsOf d.toNat 1
  | .imadZ32 d _ _ _ => regsOf d.toNat 1
  | .shladd d _ _ _ => regsOf d.toNat 1
  | .addS32Imm d _ _ => regsOf d.toNat 1
  | .addS32SatImm d _ _ => regsOf d.toNat 1
  | .mulS32Imm d _ _ => regsOf d.toNat 1
  | .andB32Imm d _ _ => regsOf d.toNat 1
  | .orB32Imm d _ _ => regsOf d.toNat 1
  | .xorB32Imm d _ _ => regsOf d.toNat 1
  | .shlB32Imm d _ _ => regsOf d.toNat 1
  | .shrZ32Imm d _ _ => regsOf d.toNat 1
  | .shrS32Imm d _ _ => regsOf d.toNat 1
  | .minS32Imm d _ _ => regsOf d.toNat 1
  | .maxS32Imm d _ _ => regsOf d.toNat 1
  | .movB32Imm d _ => regsOf d.toNat 1
  | .adr d _ => regsOf d.toNat 1
  | .isetEqB32Imm d _ _ => regsOf d.toNat 1
  | .isetNeB32Imm d _ _ => regsOf d.toNat 1
  | .isetLtS32Imm d _ _ => regsOf d.toNat 1
  | .isetLeS32Imm d _ _ => regsOf d.toNat 1
  | .isetGtS32Imm d _ _ => regsOf d.toNat 1
  | .isetGeS32Imm d _ _ => regsOf d.toNat 1
  | .isetLtZ32Imm d _ _ => regsOf d.toNat 1
  | .isetLeZ32Imm d _ _ => regsOf d.toNat 1
  | .isetGtZ32Imm d _ _ => regsOf d.toNat 1
  | .isetGeZ32Imm d _ _ => regsOf d.toNat 1
  | .ldS8 r _ _ _ => regsOf r.toNat 1
  | .ldZ8 r _ _ _ => regsOf r.toNat 1
  | .ldS16 r _ _ _ => regsOf r.toNat 1
  | .ldZ16 r _ _ _ => regsOf r.toNat 1
  | .ldB32 r _ _ _ => regsOf r.toNat 1
  | .ldB64 r _ _ _ => regsOf r.toNat 2
  | .ldB128 r _ _ _ => regsOf r.toNat 4
  | .stB8 _ _ _ _ => []
  | .stB16 _ _ _ _ => []
  | .stB32 _ _ _ _ => []
  | .stB64 _ _ _ _ => []
  | .stB128 _ _ _ _ => []
  | .ldsB32 r _ _ _ => regsOf r.toNat 1
  | .ldsB64 r _ _ _ => regsOf r.toNat 2
  | .ldsB128 r _ _ _ => regsOf r.toNat 4
  | .stsB32 _ _ _ _ => []
  | .stsB64 _ _ _ _ => []
  | .stsB128 _ _ _ _ => []
  | .ldrB32 r _ _ _ => regsOf r.toNat 1
  | .ldrB64 r _ _ _ => regsOf r.toNat 2
  | .strB32 _ _ _ _ => []
  | .strB64 _ _ _ _ => []
  | .ldhB32 r _ _ _ => regsOf r.toNat 1
  | .ldhB64 r _ _ _ => regsOf r.toNat 2
  | .sthB32 _ _ _ _ => []
  | .sthB64 _ _ _ _ => []
  | .gatherB32 r _ _ _ => regsOf r.toNat 1
  | .xfer r _ _ _ => regsOf r.toNat 1
  | .coll r _ _ _ => regsOf r.toNat 1
  | .launch r _ _ _ => regsOf r.toNat 1
  | .groveRow r _ _ _ => regsOf r.toNat 1
  | .bra _ => []
  | .brz _ => []
  | .brnz _ => []
  | .call _ => [14]
  | .ret => []
  | .endThread => []
  | .trap _ => []
  | .syscall _ => []
  | .brk _ => []
  | .const _ => []
  | .consthi _ => []
  | _ => []

/-- Whether a word writes memory through the write queue, and whether it is a read-modify-write (R61, R213). -/
def queueUse : Instr → Option Bool
  | .atmAddZ32 _ _ _ _ _ _ => some true
  | .atmAddF32 _ _ _ _ _ _ => some true
  | .atmMinS32 _ _ _ _ _ _ => some true
  | .atmMaxS32 _ _ _ _ _ _ => some true
  | .atmMinZ32 _ _ _ _ _ _ => some true
  | .atmMaxZ32 _ _ _ _ _ _ => some true
  | .atmAndB32 _ _ _ _ _ _ => some true
  | .atmOrB32 _ _ _ _ _ _ => some true
  | .atmXorB32 _ _ _ _ _ _ => some true
  | .atmExchB32 _ _ _ _ _ _ => some true
  | .atmCasB32 _ _ _ _ _ _ => some true
  | .stRelB32 _ _ _ _ => some false
  | .stRelB64 _ _ _ _ => some false
  | .arriveInit _ _ _ _ => some true
  | .arriveAdd _ _ _ _ => some true
  | .stB8 _ _ _ _ => some false
  | .stB16 _ _ _ _ => some false
  | .stB32 _ _ _ _ => some false
  | .stB64 _ _ _ _ => some false
  | .stB128 _ _ _ _ => some false
  | .stsB32 _ _ _ _ => some false
  | .stsB64 _ _ _ _ => some false
  | .stsB128 _ _ _ _ => some false
  | .strB32 _ _ _ _ => some false
  | .strB64 _ _ _ _ => some false
  | _ => none

end Sys2Proof.Machine
end

