-- ==== Sys2Proof/Machine/Turns.lean ====
section
/-!
DEFINITION. Machine/Turns.lean: bundle turns (R14, R15, R17), acceptance by an issue slot (R306), the end of a result's latency
(R163), the stall sample (R350) and the recorder's own records (R348, R352).
-/
namespace Sys2Proof.Machine

/-! ## Which bundle forms (R14, R15, R265) -/

/-- Whether a core takes no bundle: a stop has reached it (R358), a slice switch has begun (R308), or its die is off or lost (R331,
R426). -/
def coreHeld (s : State) (c : Nat) : Bool :=
  dieGone s (dieOf c) ||
  (match s.slice with | some x => x.switching | none => true) ||
  (match s.stop with | some p => p.arrived.contains c | none => false)

/-- The eligible threads of a lane frame; those that wait at a regroup header take no part (R265). -/
def readyThreads (f : LaneFrame) : Table Thread := f.threads.filter (fun e => e.2.eligible && !e.2.regroup)

/-- The lowest program counter. -/
def lowestPc (t : Table Thread) : Option DWord :=
  t.foldl (fun a e => match a with
    | none => some e.2.pc
    | some p => if pcKey e.2.pc < pcKey p then some e.2.pc else some p) none

/-- The program counter of the thread with the greatest age; ties go to the lowest lane (R15). -/
def oldestPc (count : Word) (t : Table Thread) : Option DWord :=
  (t.foldl (fun a e => match a with
    | none => some e.2
    | some x => if (count - x.stamp).toNat < (count - e.2.stamp).toNat then some e.2 else some x)
    (none : Option Thread)).map (fun x => x.pc)

/-- A bundle as it forms. -/
structure Form where
  pc : DWord
  lanes : LaneMask
  aging : Bool
  left : Bool
deriving DecidableEq, Repr

/-- The bundle that a lane frame forms at its turn. -/
def formBundle (f : LaneFrame) : Option Form :=
  let t := readyThreads f
  let aging := decide (64 ≤ f.aging)
  (if aging then oldestPc f.count t else lowestPc t).map (fun pc =>
    let l := t.filter (fun e => decide (pcKey e.2.pc = pcKey pc))
    ⟨pc, maskOf (l.map (fun e => e.1)), aging, decide (l.length < t.length)⟩)

/-- The header of the clause that an image lies in (R137). -/
def headerOf (pc : DWord) : Nat := regionAdd (pcAddr pc) (-4 * (pcPos pc : Int))

/-- A bundle that traps as it forms: the trap names the header with POS 0 (R135, R137). -/
def formTrap (s : State) (c l : Nat) (lanes : LaneMask) (kind detail : Nat) (pc : DWord) : State :=
  raise s ⟨kind, c, l, 0, thrField l (lowest lanes), pc, detail, some lanes⟩

/-- A bundle whose header lies in the capacity tier (R68). -/
def formCap (s : State) (c l vpn : Nat) (f : LaneFrame) (b : Form) : State :=
  let u : Iss := ⟨c, l, f, ⟨headerOf b.pc, 0, pcPos b.pc, b.lanes, [], 0, 0, b.aging⟩⟩
  match capState s c (ctxId s) vpn with
  | (.poisoned, s1) => formTrap s1 c l b.lanes 17 (pageDetail vpn 2) (pcImage 0 (headerOf b.pc))
  | (.bad k, s1) => formTrap s1 c l b.lanes k (stopDetail k vpn 2) (pcImage 0 (headerOf b.pc))
  | (.stale, s1) => s1
  | (.wait, s1) => parkLanes s1 u b.lanes (.migration vpn s.cycle)

/-- Whether a lane frame has a bundle turn now: its cycle (R306), no running clause, no move in hand (R29). -/
def hasTurn (s : State) (c l : Nat) (f : LaneFrame) : Bool :=
  !coreHeld s c && decide (s.cycle % 4 = l % 4) && f.clause.isNone && !f.still

/-- The threads of a bundle that come to a regroup header and have not passed it: they wait there (R265). -/
def lateArrivals (f : LaneFrame) (b : Form) (w : Word) : LaneMask :=
  if pcPos b.pc = 0 ∧ (Header.ofWord w).rg then maskOf ((lanesOf b.lanes).filter (fun i => !(thread f i).through)) else 0

/-- A bundle turn: an earlier offer dissolves, a bundle forms, and its header is read and checked before WAIT (R135). The copy of the
header read here says whether it is a regroup point (R137). -/
def applyTurn (s : State) (c l : Nat) (f : LaneFrame) : State :=
  let f0 := { f with offer := none, yielding := false }
  let s0 := setLF s c l f0
  if f.yielding then s0
  else match formBundle f0 with
    | none => s0
    | some b =>
      if fetchHeld s0 c l b.lanes (headerOf b.pc) then s0 else
      match fetchWord s0 c f.wg (headerOf b.pc) (thrField l (lowest b.lanes)) (pcImage 0 (headerOf b.pc)) with
      | (.bad k d, s1) => formTrap s1 c l b.lanes k d (pcImage 0 (headerOf b.pc))
      | (.cap p, s1) => formCap s1 c l p f0 b
      | (.wait, s1) => s1
      | (.word w, s1) =>
        if (Header.ofWord w).legal then
          if lateArrivals f0 b w ≠ 0 then
            regroupTest (modLF s1 c l (fun x => modThreads x (lateArrivals f0 b w) (fun _ t => { t with regroup := true }))) f.wg
          else modLF s1 c l (fun x => { x with offer := some ⟨b.pc, b.lanes, w, s.cycle, b.aging, b.left⟩ })
        else formTrap s1 c l b.lanes 1 w.toNat (pcImage 0 (headerOf b.pc))

/-- BUNDLE_TURN (R14). -/
def execBundleTurn (c l : Nat) (s : State) : Outcome :=
  match laneFrame s c l with
  | none => .next s
  | some f => .next (if hasTurn s c l f then applyTurn s c l f else s)

/-! ## Acceptance (R306, R15, R17) -/

/-- Whether an offered bundle's clause can start (R17); WAIT is not tested inside a clause (R137). -/
def canStart (f : LaneFrame) : Bool :=
  match f.offer with
  | none => false
  | some o => decide (pcPos o.pc ≠ 0) ||
      (lanesOf o.lanes).all (fun i => !waitBusy (thread f i) (Header.ofWord o.hdr).wait)

/-- Whether STEP lets a lane frame accept (R367). -/
def stepAllows (s : State) (c l : Nat) : Bool :=
  !stepping s || (decide (c = bits s.dbgctl.toNat 35 26) && decide (l = bits s.dbgctl.toNat 25 20))

/-- The lane frames of an issue slot whose bundle it may accept. -/
def startable (s : State) (c slot : Nat) : List (Nat × LaneFrame) :=
  (List.range 16).filterMap (fun i => (laneFrame s c (16 * slot + i)).bind (fun f =>
    if f.clause.isNone && canStart f && stepAllows s c (16 * slot + i) then some (16 * slot + i, f) else none))

/-- The least recently accepted of them; ties go to the lower number. -/
def leastRecent (l : List (Nat × LaneFrame)) : Option (Nat × LaneFrame) :=
  l.foldl (fun a e => match a with
    | none => some e
    | some x => if e.2.lastAccept < x.2.lastAccept then some e else some x) none

/-- Whether an issue slot is free (R306). -/
def slotFree (s : State) (c slot : Nat) : Bool :=
  decide (look (core s c).c.slots slot 0 ≤ s.cycle) &&
  (List.range 16).all (fun i => match laneFrame s c (16 * slot + i) with | some f => f.clause.isNone | none => true)

/-- The words of a clause from number `i` on, fetched in order (R136, R137). -/
def fetchClause (s : State) (c wg hdr : Nat) (thr : BitVec 16) : Nat → Nat → List Fetched × State
  | _, 0 => ([], s)
  | i, n + 1 =>
    match fetchWord s c wg (wordAddr hdr i) thr (pcImage i (wordAddr hdr i)) with
    | (w, s1) =>
      match fetchClause s1 c wg hdr thr (i + 1) n with
      | (t, s2) => (w :: t, s2)

/-- The ISSUE record, one for every 2^ISHIFT acceptances (R348, R351), and the thread that a THROTTLE record would name. -/
def recordIssue (s : State) (c slot : Nat) (o : Offer) (l : Nat) : State :=
  let h := Header.ofWord o.hdr
  let thr := thrField l (lowest o.lanes)
  let earlier := (core s c).c.lfs.any (fun e => decide (e.1 / 16 < slot) && decide (e.2.lastAccept = s.cycle + 1))
  let s1 := if earlier then s else modRcd s c (fun r => { r with lastThr := thr, lastPc := o.pc })
  let r := (core s1 c).rcd
  if r.cntIssue + 1 < 2 ^ bits r.rctl.toNat 19 16 then modRcd s1 c (fun r => { r with cntIssue := r.cntIssue + 1 })
  else record (modRcd s1 c (fun r => { r with cntIssue := 0 })) c 1 thr o.pc
    (o.lanes.toNat + (h.cls.toNat + slot * 8 + bnat o.aging * 32) * 2 ^ 32 + (h.count.toNat + pcPos o.pc * 16) * 2 ^ 40)

/-- The number of the first word of an offered clause, and how many words it has from there. -/
def firstWord (o : Offer) : Nat := max 1 (pcPos o.pc)
def wordsLeft (o : Offer) : Nat := max 1 ((Header.ofWord o.hdr).count.toNat + 1 - firstWord o)

/-- Whether an offered clause's words can be fetched now (R137). -/
def wordsReady (s : State) (c l : Nat) (o : Offer) : Bool :=
  (List.range (wordsLeft o)).all (fun i => !fetchHeld s c l o.lanes (wordAddr (headerOf o.pc) (firstWord o + i)))

/-- A bundle accepted: a clause issue of its lane frame (R15), with its words fetched; while a word has to be fetched again the bundle
is not accepted. -/
def applyAccept (s : State) (c slot l : Nat) (f : LaneFrame) (o : Offer) : State :=
  let p := firstWord o
  let hdr := headerOf o.pc
  match fetchClause s c f.wg hdr (thrField l (lowest o.lanes)) p (wordsLeft o) with
  | (ws, s1) =>
    if ws.contains .wait then s1 else
    let s2 := recordIssue (undoLog s1 c l 1 0 0 (pcPos o.pc) (pcAddr o.pc) o.lanes.toNat 0) c slot o l
    modLF s2 c l (fun x =>
      { modThreads x o.lanes (fun _ t => { t with through := false, stamp := f.count + 1, pc := pcImage p (wordAddr hdr p) }) with
        count := f.count + 1
        aging := if o.aging then 0 else if o.left then f.aging + 1 else 0
        clause := some ⟨hdr, o.hdr, p, o.lanes, List.replicate (p - 1) (.word 0) ++ ws, s.cycle, s.cycle, o.aging⟩
        offer := none
        lastAccept := s.cycle + 1 })

/-- BUNDLE_ACCEPT (R306). -/
def execBundleAccept (c slot : Nat) (s : State) : Outcome :=
  if coreHeld s c || !slotFree s c slot then .next s
  else match leastRecent (startable s c slot) with
    | none => .next s
    | some (l, f) => match f.offer with
      | none => .next s
      | some o => .next (if wordsReady s c l o then applyAccept s c slot l f o else s)

/-! ## Results (R163) -/

/-- RESULT_DELIVER: after its latency a result fills its slots and its named register (R163). -/
def execResultDeliver (c op : Nat) (s : State) : Outcome :=
  match (core s c).deliveries.find? (fun d => decide (d.op = op)) with
  | none => .next s
  | some d =>
    if d.due ≤ s.cycle then
      .next (deliverTo (modCore s c (fun k => { k with deliveries := k.deliveries.filter (fun x => x.op != op) })) c d.lf op d.vals)
    else .next s

/-! ## The recorder's own records (R348, R350, R352) -/

/-- TIMEBASE_WRAP: when bits 23:0 of the time counter are zero, as when recording starts after reset, every core writes a TIMEBASE
record. -/
def execTimebaseWrap (s : State) : Outcome :=
  if s.cycle % 2 ^ 24 = 0 ∧ s.lastTimebase ≠ s.cycle + 1 then
    .next ((List.range (coreCount s)).foldl (fun t c => record t c 14 noThread 0 (t.cycle / 2 ^ 24 % 2 ^ 40))
      { s with lastTimebase := s.cycle + 1 })
  else .next s

/-- LOST_RECORD: after a drop, a LOST record is staged when an entry is free. -/
def execLostRecord (c : Nat) (s : State) : Outcome :=
  let r := rcdAt (core s c).rcd s.cycle
  if r.dropped ≠ 0 ∧ !r.off ∧ stagedIn r < 32 then
    .next (modRcd (record s c 15 noThread 0 (min r.dropped (2 ^ 32 - 1))) c (fun r => { r with dropped := 0 }))
  else .next s

/-- What a waiting bundle waits for. -/
structure Stall where
  lf : Nat
  lanes : LaneMask
  pc : DWord
  reason : Nat
  blamed : DWord
  detail : Nat
deriving DecidableEq, Repr

/-- The operands of a word as the named thread sees them: source lane and selector (R182, R183). -/
def readPlaces (u : Iss) (i : Instr) : List (Nat × Nat) :=
  (readsOf i).map (fun r => (sourceLane r.pat u.low u.low, r.sel))

/-- Reason 1: a pending age slot that the word reads. -/
def stallSlot (u : Iss) (i : Instr) : Option Stall :=
  (readPlaces u i).findSome? (fun p =>
    let x := (thread u.f p.1).q.getD p.2 ⟨0, 0, 0⟩
    if p.2 < 16 ∧ x.tok ≠ 0 then some ⟨u.l, u.cl.lanes, u.pc, 1, x.pc, p.2 + 1⟩ else none)

/-- Reason 3: a named register with a pending write that the word reads or writes. -/
def stallNamed (u : Iss) (i : Instr) : Option Stall :=
  let src := (readPlaces u i).findSome? (fun p =>
    if 16 ≤ p.2 then
      ((thread u.f p.1).np.find? (fun x => decide (x.reg = p.2 - 16) && !x.long)).map (fun x => (x.pc, x.reg))
    else none)
  let dst := (writesOf i).findSome? (fun k => ((thread u.f u.low).np.find? (fun x => decide (x.reg = k))).map (fun x => (x.pc, x.reg)))
  (src <|> dst).map (fun e => ⟨u.l, u.cl.lanes, u.pc, 3, e.1, e.2⟩)

/-- The address of a format M word in a lane. -/
def addrM (u : Iss) (b : Src) (x : BitVec 9) (scale : Int) (lane : Nat) : Option Nat :=
  (read32 u b lane).map (fun v => effective v (off9 x * scale))
/-- The address of a format A memory word in a lane. -/
def addrA (u : Iss) (a : Src) (lane : Nat) : Option Nat := (read32 u a lane).map (fun v => effective v 0)

/-- The places of a word's lanes in the thread region. -/
def virtPlaces (s : State) (u : Iss) (ea : Nat → Option Nat) : Table Space :=
  (((eachLane u ea).getD []).filterMap (fun e => (placeOf s u .either e.2).map (fun p => (e.1, p)))).filter (fun e => e.2.isVirt)

/-- The write-queue entries of a store of `w` bytes, one for each block (R61), and of an atomic, one for each lane (R214). -/
def blockNeed (s : State) (u : Iss) (w : Nat) (ea : Nat → Option Nat) : Nat :=
  (partsOf (laneBytes (virtPlaces s u ea) w (fun _ => []))).length
def laneNeed (s : State) (u : Iss) (a : Src) : Nat := (virtPlaces s u (addrA u a)).length

/-- The write-queue entries that a word needs to issue. -/
def queueNeed (s : State) (u : Iss) : Instr → Nat
  | .stB8 _ _ b x => blockNeed s u 1 (addrM u b x 1)
  | .stB16 _ _ b x => blockNeed s u 2 (addrM u b x 2)
  | .stB32 _ _ b x => blockNeed s u 4 (addrM u b x 4)
  | .stB64 _ _ b x => blockNeed s u 8 (addrM u b x 8)
  | .stB128 _ _ b x => blockNeed s u 16 (addrM u b x 16)
  | .stRelB32 _ _ _ a => blockNeed s u 4 (addrA u a)
  | .stRelB64 _ _ _ a => blockNeed s u 8 (addrA u a)
  | .atmAddZ32 _ _ _ _ _ a | .atmAddF32 _ _ _ _ _ a | .atmMinS32 _ _ _ _ _ a | .atmMaxS32 _ _ _ _ _ a
  | .atmMinZ32 _ _ _ _ _ a | .atmMaxZ32 _ _ _ _ _ a | .atmAndB32 _ _ _ _ _ a | .atmOrB32 _ _ _ _ _ a
  | .atmXorB32 _ _ _ _ _ a | .atmExchB32 _ _ _ _ _ a | .atmCasB32 _ _ _ _ _ a => laneNeed s u a
  | _ => 0

/-- Whether a word takes a matrix-queue entry (R229). -/
def takesMq : Instr → Bool
  | .rsvSet _ _ _ | .rsvFree _ | .rsvGet _ _ | .mxld _ _ _ | .mmaBf16 _ _ | .mmaF16 _ _ | .mmaK _ _ | .mmaKOl _ _ _
  | .mmaBf16G _ _ | .mmaF16G _ _ | .mmaKG _ _ | .mmaKOlG _ _ _ | .gangSet _ | .gangGet _ | .accZero _ | .accLd _ _ _ | .accSt _ _ _
  | .accRd _ _ _ | .accFree _ | .groveVt _ _ _ | .groveSwap _ _ | .groveRd _ _ _ | .groveRow _ _ _ _ => true
  | _ => false

/-- Reasons 4 to 6: a full write queue, a full matrix queue, no return-slot row. -/
def stallFull (s : State) (u : Iss) (i : Instr) : Option Stall :=
  let at_ (k : Nat) : Option Stall := some ⟨u.l, u.cl.lanes, u.pc, k, u.pc, 0⟩
  if !queueRoom s u.c (queueNeed s u i) ∧ (queueUse i).isSome then at_ 4
  else if takesMq i ∧ 32 ≤ (core s u.c).c.mq.length then at_ 5
  else if queueUse i = some true ∧ 4 ≤ u.f.rows.length then at_ 6
  else none

/-- The sample of a bundle that holds for a cause outside the table of R350, which names no reason for it. DESIGN CHOICE (entry 92):
reason 0, the waiting word as the blamed word, detail 0. -/
def stallOther (u : Iss) : Stall := ⟨u.l, u.cl.lanes, u.pc, 0, u.pc, 0⟩

/-- What a running bundle that holds at its word waits for (R350): one that has stood at the word since an earlier cycle. -/
def stallRunning (s : State) (u : Iss) : Option Stall :=
  match u.f.fence, u.f.call with
  | some h, _ => some ⟨u.l, u.cl.lanes, u.pc, 8, u.pc, h.scope.code.toNat⟩
  | none, some _ =>
    some (if u.f.callSlot.isNone ∧ (freeSlot (core s u.c)).isNone then ⟨u.l, u.cl.lanes, u.pc, 7, u.pc, 0⟩ else stallOther u)
  | none, none =>
    if s.cycle ≤ u.cl.since then none
    else match decodeWord (BitVec.ofNat 32 u.word) with
      | .ok i => some ((stallSlot u i <|> stallNamed u i <|> stallFull s u i).getD (stallOther u))
      | .error _ => none

/-- What an offered bundle waits for (R350): the lowest busy WAIT flag of the named thread, or its issue slot; where only another lane's flag
is busy no row of the table applies to the named thread (entry 92). -/
def stallOffered (s : State) (c l : Nat) (f : LaneFrame) (o : Offer) : Option Stall :=
  let t := thread f (lowest o.lanes)
  let w := (Header.ofWord o.hdr).wait
  if canStart f then
    if slotFree s c (l / 16) then none
    else
      let blamed := (List.range 16).findSome? (fun i =>
        (laneFrame s c (l / 16 * 16 + i)).bind (fun g => g.clause.map (fun k => pcImage k.pos (wordAddr k.hdrAddr k.pos))))
      some ⟨l, o.lanes, pcImage 0 (headerOf o.pc), 9, blamed.getD (pcImage 0 (headerOf o.pc)), l / 16⟩
  else
    some (match (List.range 12).find? (fun i => w.getLsbD i && flagBusy t i) with
      | some i => ⟨l, o.lanes, pcImage 0 (headerOf o.pc), 2, t.flagPc.getD i 0, i⟩
      | none => ⟨l, o.lanes, pcImage 0 (headerOf o.pc), 0, pcImage 0 (headerOf o.pc), 0⟩)

/-- What a lane frame waits for. -/
def stallOf (s : State) (c l : Nat) : Option Stall :=
  (laneFrame s c l).bind (fun f =>
    match f.clause, f.offer with
    | some cl, _ => stallRunning s ⟨c, l, f, cl⟩
    | none, some o => stallOffered s c l f o
    | none, none => none)

/-- STALL_SAMPLE (R350): the first waiting lane frame from the pointer on is sampled. -/
def execStallSample (c : Nat) (s : State) : Outcome :=
  let r := (core s c).rcd
  if s.cycle < r.cntStall + 2 ^ bits r.rctl.toNat 27 24 then .next s
  else
    let s1 := modRcd s c (fun r => { r with cntStall := s.cycle })
    match (List.range 64).findSome? (fun i => stallOf s c ((r.pointer + i) % 64)) with
    | none => .next s1
    | some x =>
      .next (modRcd (record s1 c 2 (thrField x.lf (lowest x.lanes)) x.pc
        (x.blamed.toNat % 2 ^ 32 + x.reason * 2 ^ 32 + x.detail * 2 ^ 40)) c (fun r => { r with pointer := (x.lf + 1) % 64 }))

end Sys2Proof.Machine
end

