-- ==== Sys2Proof/Machine/Dispatcher.lean ====
section
/-!
DEFINITION. Machine/Dispatcher.lean: clusters placed on rigs (R304, R305), lane frames allocated and compacted (R28, R29),
scratchpads emptied (R31), workgroups started (R24) and finished (R25, R240, R251, R412).
-/
namespace Sys2Proof.Machine

/-! ## The lane-frame allocator (R28) -/

def lfCount (threads : Nat) : Nat := (threads + 31) / 32

/-- The block sizes of F lane frames, largest first. -/
def blockSizes (n : Nat) : List Nat := [64, 32, 16, 8, 4, 2, 1].filter (fun b => decide (n / b % 2 = 1))

/-- The lane frames that placed workgroups of the running context hold on a core. -/
def usedLFs (s : State) (c : Nat) : List Nat :=
  (s.wgs.filter (fun w => decide (w.core = c ∧ w.ctx = ctxId s))).flatMap (fun w => w.lfs)

/-- The highest-numbered free position of a block size. -/
def placeBlock (used : List Nat) (b : Nat) : Option Nat :=
  ((List.range (64 / b)).reverse.map (fun i => i * b)).find? (fun a => (List.range b).all (fun i => !used.contains (a + i)))

/-- Blocks placed largest first: the lane frames in WLF order, or none. -/
def placeBlocks (used : List Nat) : List Nat → Option (List Nat)
  | [] => some []
  | b :: r => (placeBlock used b).bind (fun a =>
      let fs := (List.range b).map (fun i => a + i)
      (placeBlocks (fs ++ used) r).map (fun t => fs ++ t))

/-- The blocks of `k` workgroups of F lane frames each: for each size, largest first, that size once for each workgroup. -/
def allBlocks (n k : Nat) : List Nat := (blockSizes n).flatMap (fun b => List.replicate k b)

/-- The lane frames of workgroup `j` of `k` among those that `allBlocks` was given: its own block of each size, in the same order. -/
def shareOf (k j : Nat) : List Nat → List Nat → List Nat
  | [], _ => []
  | b :: r, fs => ((fs.drop (j * b)).take b) ++ shareOf k j r (fs.drop (k * b))

/-- Lane frames for `k` workgroups of F lane frames each that a cluster puts on one core (R28). DESIGN CHOICE (entry 98): R28 orders the
blocks of one workgroup; of several on a core the blocks of one size come together, in rank order, before the next size, so that R29's
retry succeeds. -/
def placeAll (used : List Nat) (n k : Nat) : Option (List (List Nat)) :=
  (placeBlocks used (allBlocks n k)).map (fun fs => (List.range k).map (fun j => shareOf k j (blockSizes n) fs))

/-! ## Whether a cluster fits (R305) -/

def clusterCount (x : Launch) : Nat := x.x * x.y * x.z

/-- How many of a cluster's workgroups sit on a rig position (R305: rank mod 8). -/
def ranksAt (x : Launch) (p : Nat) : Nat := ((List.range x.wgPerCl).filter (fun r => decide (r % 8 = p))).length

/-- The tiles of a core that count as taken: those counted at placement, and owned ones beyond a workgroup's count. -/
def tilesTaken (s : State) (c : Nat) : Nat :=
  (s.wgs.filter (fun w => w.core = c)).foldl (fun n w =>
    let owned := (s.tiles.filter (fun t => decide (t.1 / 64 = c ∧ t.2.owner = w.id ∧ w.ctx = ctxId s))).length
    n + max w.tiles owned) 0

/-- Whether a compaction pass of a core has not ended: of the running context or of one whose image holds it (R29 step 1). -/
def compacting (s : State) (c : Nat) : Bool :=
  (core s c).c.compaction.isSome ||
  s.images.any (fun i => match lookup i.2 c with | some m => m.c.compaction.isSome | none => false)

/-- Whether a core takes its part of a cluster; and whether only after a compaction. -/
inductive Fit where
  | no | yes | compact
deriving DecidableEq, Repr

/-- Whether a core has room for its part of a cluster, whatever pass it is in (R305). -/
def coreRoom (s : State) (x : Launch) (c : Nat) : Fit :=
  let k := ranksAt x (c % 8)
  let used := usedLFs s c
  let f := lfCount x.wgThreads
  let grants := (s.wgs.filter (fun w => w.core = c)).foldl (fun n w => n + w.nearGrant) 0
  let res := (reserved s c).length
  if k = 0 then .yes
  else if decide (64 < used.length + k * f) || decide (512 < res + k * x.scratch) ||
      decide (1536 < res + k * x.scratch + grants + k * x.nearGrant) || decide (64 < tilesTaken s c + k * x.tiles) then .no
  else if (placeAll used f k).isSome then .yes else .compact

/-- Whether a core takes its part of a cluster: none while a pass of it has not ended (R29 step 1, R305). -/
def coreFit (s : State) (x : Launch) (c : Nat) : Fit := if compacting s c then .no else coreRoom s x c

/-- Whether launches are placed on a die (R331). -/
def dieServes (s : State) (d : Nat) : Bool := decide (s.dieState.getD d 0 = 3 ∨ s.dieState.getD d 0 = 4)

def rigCores (rig : Nat) : List Nat := (List.range 8).map (fun p => rig * 8 + p)

def rigFit (s : State) (x : Launch) (rig : Nat) : Fit :=
  if !dieServes s (rig / 8) then .no
  else
    let f := (rigCores rig).map (coreFit s x)
    if f.contains .no then .no else if f.contains .compact then .compact else .yes

/-- The number of rigs: eight on each die (R2). -/
def rigCount (s : State) : Nat := 8 * dies s

/-- The first rig that fits, from the rig pointer on. -/
def findRig (s : State) (x : Launch) : Option Nat :=
  ((List.range (rigCount s)).map (fun i => (s.rigPtr + i) % rigCount s)).find? (fun r => decide (rigFit s x r ≠ .no))

/-! ## The order of launches (R304) -/

def mayPlace (s : State) (x : Launch) : Bool :=
  decide (x.ctx = ctxId s) && x.ready.isSome && !x.faulted && decide (x.placed < clusterCount x)

/-- The fabric cycle of a core cycle: two for every three (R2; entry 64). -/
def fabricOf (t : Nat) : Nat := t * 2 / 3

/-- Whether a launch comes before another of the same list; equal ones keep their order. Launches that became ready in one fabric cycle
tie (R304). -/
def launchBefore (s : State) (x y : Launch) : Bool :=
  let tx := fabricOf (x.ready.getD 0)
  let ty := fabricOf (y.ready.getD 0)
  let turn (z : Launch) : Nat := (z.source + 65 - s.prioPtr.getD z.prio 0) % 65
  decide (y.prio < x.prio) || (decide (x.prio = y.prio) &&
    (decide (tx < ty) || (decide (tx = ty) && decide (turn x < turn y))))

/-- The launch whose cluster is placed: the first in order that fits a rig. -/
def nextLaunch (s : State) : Option (Launch × Nat) :=
  s.launches.foldl (fun a x =>
    if mayPlace s x then
      match a with
      | none => (findRig s x).map (fun r => (x, r))
      | some y => if launchBefore s x y.1 then (match findRig s x with | some r => some (x, r) | none => a) else a
    else a) none

/-! ## Placing -/

/-- The highest near frames of a core that are not reserved (R31). -/
def takeScratch (s : State) (c n : Nat) : List Nat :=
  let r := reserved s c
  (((List.range 1536).reverse).filter (fun f => !r.contains f)).take n

def emptyLF (wg wlf : Nat) : LaneFrame :=
  { wg := wg, wlf := wlf, threads := [], count := 0, aging := 0, clause := none, offer := none, lastAccept := 0
    yielding := false, fence := none, call := none, callSlot := none, rows := [], undo := 0, undoBase := 0, still := false }

/-- A workgroup placed on a core: lane frames, scratchpad and counts (R305). -/
def placeWG (s : State) (x : Launch) (cluster rank c : Nat) (fs : List Nat) : State :=
  let id := s.ops
  let sc := takeScratch s c x.scratch
  let holds (fr : Nat) : Bool := (frame s (nearKey c fr)).valid || (frame s (nearKey c fr)).busy
  let w : Workgroup :=
    { id := id, launch := x.id, ctx := x.ctx, cluster := cluster, rank := rank, core := c, lfs := fs, threads := x.wgThreads
      scratch := sc, emptying := sc.filter holds, started := false, nearGrant := x.nearGrant, tiles := x.tiles, grants := []
      hand := 0, gang := 0, joint := 0 }
  let s1 := { fresh s with wgs := s.wgs ++ [w] }
  let s2 := (sc.filter (fun fr => !holds fr)).foldl (fun s fr => leaveLists s c fr) s1
  (fs.mapIdx (fun i l => (i, l))).foldl (fun s e => setLF s c e.2 (emptyLF id e.1)) s2

/-- The lane frames that each rank of a cluster gets on a rig: those of a core are allocated together (R28). -/
def clusterFrames (s : State) (x : Launch) (rig : Nat) : List (List Nat) :=
  let at_ := (rigCores rig).mapIdx (fun p c => (placeAll (usedLFs s c) (lfCount x.wgThreads) (ranksAt x p)).getD [])
  (List.range x.wgPerCl).map (fun r => (at_.getD (r % 8) []).getD (r / 8) [])

/-- A cluster's workgroups placed on a rig, in rank order. -/
def placeCluster (s : State) (x : Launch) (cluster rig : Nat) : State :=
  let fs := clusterFrames s x rig
  (List.range x.wgPerCl).foldl (fun t r => placeWG t x cluster r (rig * 8 + r % 8) (fs.getD r [])) s

/-- The packed layout of a core (R29 step 2): blocks largest first, lower position first among equals, as (from, to). -/
def packMoves (s : State) (c : Nat) : List (Nat × Nat) :=
  let split (w : Workgroup) : List (List Nat) :=
    ((blockSizes w.lfs.length).foldl (fun (a : List (List Nat) × List Nat) b => (a.1 ++ [a.2.take b], a.2.drop b)) ([], w.lfs)).1
  let blocks := (s.wgs.filter (fun w => decide (w.core = c ∧ w.ctx = ctxId s))).flatMap split
  let order := [64, 32, 16, 8, 4, 2, 1].flatMap (fun b =>
    (List.range 64).flatMap (fun p => blocks.filter (fun k => decide (k.length = b) && decide (k.headD 64 = p))))
  (order.flatten.mapIdx (fun i l => (l, i))).filter (fun e => decide (e.1 ≠ e.2))

/-- The fabric cycle of now. -/
def fabricCycle (s : State) : Nat := fabricOf s.cycle

/-- A cluster placed on a rig that has room for it; a core whose lane frames are free but whose blocks do not fit starts a compaction pass
for it (R29). -/
def seatCluster (s : State) (x : Launch) (cluster rig : Nat) : State :=
  let tight := (rigCores rig).filter (fun c => decide (coreRoom s x c = .compact))
  if tight.isEmpty then placeCluster s x cluster rig
  else tight.foldl (fun t c => modCore t c (fun k => modC k (fun y =>
    { y with compaction := some ⟨packMoves s c, false, s.cycle, x.id, cluster, rig⟩ }))) s

/-- CLUSTER_PLACE (R304, R305): at most one cluster in a fabric cycle; a core whose blocks do not fit starts a compaction pass (R29). -/
def execClusterPlace (s : State) : Outcome :=
  match s.slice with
  | none => .next s
  | some sl =>
    if sl.switching || s.stop.isSome || decide (s.lastPlace = fabricCycle s + 1) then .next s
    else match nextLaunch s with
      | none => .next s
      | some (x, rig) =>
        let s1 := modLaunch s x.id (fun y => { y with placed := y.placed + 1 })
        let s2 := { s1 with lastPlace := fabricCycle s + 1, prioPtr := s.prioPtr.set x.prio ((x.source + 1) % 65), rigPtr := (rig + 1) % rigCount s }
        .next (seatCluster s2 x x.placed rig)

/-! ## Moving lane frames (R29) -/

/-- Between clauses, and nothing of its threads unfinished (R29 step 4). -/
def movable (f : LaneFrame) : Bool :=
  f.clause.isNone && f.rows.isEmpty &&
  f.threads.all (fun e => e.2.q.all (fun x => x.tok = 0) && !anyBusy e.2)

/-- THREAD with its lane frame renumbered. -/
def renameThr (r : Nat → Nat) (t : BitVec 16) : BitVec 16 := if t = noThread then t else thrField (r (t.toNat / 32 % 64)) (t.toNat % 32)

/-- Every reference to a lane frame of a core's running context renumbered: records written after the move name the new number
(R349). -/
def renameLF (s : State) (c : Nat) (r : Nat → Nat) : State :=
  let s1 := modCore s c (fun k =>
    { modC k (fun y =>
        { y with
          mq := y.mq.map (fun e => { e with lf := r e.lf })
          eng := y.eng.map (fun e => { e with lf := r e.lf })
          pageReqs := y.pageReqs.map (fun e => { e with lf := r e.lf })
          readers := y.readers.map (fun e => { e with op := { e.op with lf := r e.op.lf } }) }) with
      deliveries := k.deliveries.map (fun d => { d with lf := r d.lf })
      ops := k.ops.map (fun o => { o with lf := r o.lf })
      reqs := k.reqs.map (fun q => { q with lf := r q.lf })
      rcd := { k.rcd with lastThr := renameThr r k.rcd.lastThr }
      mast := { k.mast with calls := k.mast.calls.map (fun e =>
        if e.2.ctx = ctxId s then (e.1, { e.2 with lf := r e.2.lf }) else e) } })
  { s1 with
    monitors := s1.monitors.map (fun m => if m.core = c then { m with lf := r m.lf } else m)
    seqs := s1.seqs.map (fun q => if q.core = c ∧ q.ctx = ctxId s then { q with thr := renameThr r q.thr } else q)
    fillReqs := s1.fillReqs.map (fun q => if q.core = c ∧ q.ctx = ctxId s then { q with thr := renameThr r q.thr } else q)
    invals := s1.invals.map (fun v => if v.start.core = c ∧ v.ctx = ctxId s then { v with start.thr := renameThr r v.start.thr } else v)
    migrations := s1.migrations.map (fun m => if m.core = c ∧ m.ctx = ctxId s then { m with thr := renameThr r m.thr } else m)
    flushes := s1.flushes.map (fun x => if x.core = c ∧ x.launch.isNone then { x with lf := r x.lf } else x)
    wgs := s1.wgs.map (fun w => if w.core = c ∧ w.ctx = ctxId s then { w with lfs := w.lfs.map r } else w) }

/-- Two lane frame numbers of a core exchanged, or one moved to a free number, with the MOVE records (R348). -/
def swapLF (s : State) (c a b : Nat) : State :=
  let r (l : Nat) : Nat := if l = a then b else if l = b then a else l
  let fa := laneFrame s c a
  let fb := laneFrame s c b
  let set (t : Table LaneFrame) (k : Nat) (x : Option LaneFrame) : Table LaneFrame :=
    match x with | some f => put t k { f with still := false, offer := none } | none => drop t k
  let s1 := modCore (renameLF s c r) c (fun k => modC k (fun y => { y with lfs := set (set y.lfs b fa) a fb }))
  let s2 := record s1 c 13 (thrField b 0) 0 (a + b * 2 ^ 8)
  if fb.isSome then record s2 c 13 (thrField a 0) 0 (b + a * 2 ^ 8) else s2

/-- A pass that has ended: the placement that waits is retried once no core of its rig has a pass left (R29 step 6). Nothing else has been
placed on the rig meanwhile, so that what it counted on is still free; a pass whose rig has no room all the same stays until it has. -/
def endPass (s : State) (c : Nat) (p : Compaction) : State :=
  let s1 := modCore s c (fun k => modC k (fun y => { y with compaction := none }))
  if (rigCores p.rig).any (fun d => (core s1 d).c.compaction.isSome) then s1
  else match launchById s1 p.launch with
    | none => s1
    | some x => if (rigCores p.rig).any (fun d => decide (coreRoom s1 x d = .no)) then s else seatCluster s1 x p.cluster p.rig

/-- Turns of a lane frame stop once its clause has ended (R29 step 4). -/
def stopTurns (s : State) (c l : Nat) : State :=
  modLF s c l (fun f => if f.clause.isNone then { f with still := true, offer := none } else f)

/-- The pass of a core goes on with the moves that are left; after the last one it takes 64 cycles more (R29 step 5). -/
def nextMoves (s : State) (c : Nat) (p : Compaction) (rest : List (Nat × Nat)) : State :=
  modCore s c (fun k => modC k (fun y => { y with compaction := some { p with
    moves := rest, moving := false, until_ := if rest.isEmpty then s.cycle + 64 else s.cycle } }))

/-- The moves after one has been made: a lane frame that an exchange has sent elsewhere is moved from there, and one that it has brought
to its place is done. -/
def movesAfter (a b : Nat) (r : List (Nat × Nat)) : List (Nat × Nat) :=
  (r.map (fun e => if e.1 = b then (a, e.2) else e)).filter (fun e => e.1 != e.2)

/-- A move begins when its lane frames have come to rest: 32 cycles, or 64 for an exchange (R29 step 5). -/
def beginMove (s : State) (c a b : Nat) (p : Compaction) (f : LaneFrame) : State :=
  let s1 := stopTurns (stopTurns s c a) c b
  let g := laneFrame s c b
  if movable f && (match g with | some h => movable h | none => true) then
    modCore s1 c (fun k => modC k (fun y => { y with compaction := some { p with
      moving := true, until_ := s.cycle + (if g.isSome then 64 else 32) } }))
  else s1

/-- LANE_FRAME_MOVE (R29): the move in hand begins when its lane frames are between clauses, and is made when its cycles have
passed; after the last one the pass ends. A stop or a slice switch lets no move begin (R308, R358). -/
def execLaneFrameMove (c : Nat) (s : State) : Outcome :=
  match (core s c).c.compaction with
  | none => .next s
  | some p =>
    if s.cycle < p.until_ then .next s
    else match p.moves with
      | [] => .next (if coreHeld s c then s else endPass s c p)
      | (a, b) :: r =>
        match laneFrame s c a with
        | none => .next (nextMoves (modLF s c b (fun f => { f with still := false })) c p r)
        | some f =>
          if p.moving then .next (nextMoves (swapLF s c a b) c p (movesAfter a b r))
          else .next (if coreHeld s c then s else beginMove s c a b p f)

/-! ## Scratchpads and the start of a workgroup (R24, R31) -/

/-- SCRATCH_FRAME_EMPTY: a reserved frame that holds a page is emptied once no sequence has it; a stop lets no emptying begin (R358). -/
def execScratchFrameEmpty (c fr : Nat) (s : State) : Outcome :=
  match s.wgs.find? (fun w => decide (w.core = c) && w.emptying.contains fr) with
  | none => .next s
  | some w =>
    let k := nearKey c fr
    if (frame s k).busy then .next s
    else if (frame s k).valid then .next (if placementHeld s then s else startEviction (leaveLists s c fr) k (some c))
    else .next (modWG (leaveLists s c fr) w.id (fun w => { w with emptying := w.emptying.filter (fun x => x != fr) }))

/-- A thread as it starts (R24). -/
def startThread (x : Launch) : Thread :=
  { Thread.empty with
    pc := pcImage 0 x.entry, live := true, occupied := true
    n := 0 :: (x.args ++ List.replicate 9 0) }

/-- The scratchpad of a workgroup holds zero (R24). -/
def clearScratch (s : State) (w : Workgroup) : State :=
  w.scratch.foldl (fun s fr =>
    let a := frameAt (nearKey w.core fr)
    { s with mem := Mem.clear s.mem a 4096, poison := s.poison.filter (fun u => !(decide (a / 32 ≤ u) && decide (u < a / 32 + 128))) }) s

/-- WORKGROUP_START: the threads start once every reserved frame is empty (R31), none during a stop (R359); their first accesses follow
an acquire (R283, R77), and a RG header at ENTRY is arrived at (R265). -/
def execWorkgroupStart (id : Nat) (s : State) : Outcome :=
  match workgroup s id, launchOf s id with
  | some w, some x =>
    if w.started || !w.emptying.isEmpty || decide (w.ctx ≠ ctxId s) || s.slice.isNone || s.stop.isSome then .next s
    else
      let s1 := modWG (clearScratch (emptyReadAhead s w.core) w) id (fun w => { w with started := true })
      let s2 := (w.lfs.mapIdx (fun i l => (i, l))).foldl (fun s e =>
        modLF s w.core e.2 (fun f => { f with
          threads := ((List.range 32).filter (fun k => decide (32 * e.1 + k < w.threads))).map (fun k => (k, startThread x)) })) s1
      .next (w.lfs.foldl (fun s l => arriveAt s w.core l (BitVec.allOnes 32)) s2)
  | _, _ => .next s

/-! ## The end of a workgroup and the add to DONE (R25) -/

/-- Whether a workgroup is finished (R25; R400: a return-slot row in use counts as a busy flag). -/
def wgFinished (s : State) (w : Workgroup) : Bool :=
  w.started && decide (w.ctx = ctxId s) && s.slice.isSome &&
  w.lfs.all (fun l => match laneFrame s w.core l with
    | some f => f.rows.isEmpty && f.threads.all (fun e => !e.2.live && !anyBusy e.2)
    | none => true)

/-- A tile set to +0 and released (R240). -/
def freeTile (s : State) (c t : Nat) : State :=
  let a := Config.accBase + c * 2 ^ 19 + t * 8192
  { s with
    tiles := drop s.tiles (c * 64 + t), mem := Mem.clear s.mem a 8192
    poison := s.poison.filter (fun u => !(decide (a / 32 ≤ u) && decide (u < a / 32 + 256))) }

/-- The storage number of a Grove value entry: table, bank, index. -/
def groveAt (c t b i : Nat) : Nat := Config.groveBase + c * 2 ^ 14 + (t * 2 + b) * 1024 + i * 4

/-- A Grove table reset (R251). -/
def resetTable (s : State) (c t : Nat) : State :=
  let a := groveAt c t 0 0
  modCore { s with
    mem := Mem.clear s.mem a 2048
    poison := s.poison.filter (fun u => !(decide (a / 32 ≤ u) && decide (u < a / 32 + 64))) } c
    (fun k => modC k (fun y => { y with grove := drop y.grove t }))

/-- What a workgroup owns of a core's matrix unit and Grove engine released (R235, R240, R251). -/
def releaseOwned (s : State) (c wg : Nat) : State :=
  let s1 := (s.tiles.filter (fun t => decide (t.1 / 64 = c ∧ t.2.owner = wg ∧ t.2.ctx = ctxId s))).foldl
    (fun s t => freeTile s c (t.1 % 64)) s
  let s2 := ((core s1 c).c.grove.filter (fun t => decide (t.2.owner = wg))).foldl (fun s t => resetTable s c t.1) s1
  modCore { s2 with spills := s2.spills.filter (fun x => decide (x.tile.owner ≠ wg)) } c (fun k => modC k (fun y =>
    { y with recs := y.recs.filter (fun r => decide (r.2.owner ≠ wg)), xholds := y.xholds.filter (fun h => decide (h.wg ≠ wg)) }))

/-- An event raised for a bundle that is parked (R412): its threads are held by the stop, and MTRAP describes it. -/
def raiseParked (s : State) (e : Event) (lanes : LaneMask) : State :=
  let s1 := raise s { e with bundle := none }
  modCore (modLF s1 e.core e.lf (fun f => modThreads f lanes (fun _ t => if t.live then { t with parked := true, stop := true } else t)))
    e.core (fun k => { k with mtrap := if k.mtrap.getLsbD 44 then k.mtrap else mtrapImage e.kind e.lf lanes })

/-- The ranks that a gang register lists (R249). -/
def gangRanks (g : Word) : List Nat := (List.range (bits g.toNat 26 24)).map (fun i => g.toNat / 16 ^ i % 16)

def modMq (s : State) (c i : Nat) (f : MqEntry → MqEntry) : State :=
  modCore s c (fun k => modC k (fun y => { y with mq := y.mq.map (fun e => if e.id = i then f e else e) }))
def mqOf (s : State) (c i : Nat) : Option MqEntry := (core s c).c.mq.find? (fun e => e.id = i)

/-- A gang event in every arrived member of a latch (R250, R412). -/
def raiseLatch (s : State) (x : Latch) (kind : Nat) (detail : Word → Nat) : State :=
  x.arrived.foldl (fun s a =>
    match workgroup s a.1 with
    | none => s
    | some w =>
      match mqOf s w.core a.2 with
      | none => s
      | some e =>
        let opw : Word := match e.kind with | .mma _ o _ _ => o | _ => 0
        raiseParked (modMq s w.core e.id (fun e => { e with fault := some (kind, detail opw) }))
          ⟨kind, w.core, e.lf, 0, thrField e.lf (lowest e.lanes), e.pc, detail opw, none⟩ e.lanes) s

/-- A listed member has finished while another waits at the latch (R412). -/
def memberGone (s : State) (w : Workgroup) : State :=
  s.latches.foldl (fun s x =>
    if x.launch = w.launch ∧ x.cluster = w.cluster ∧ !x.fired ∧ (gangRanks x.gang).contains w.rank ∧
        !(x.arrived.any (fun a => a.1 = w.id)) then
      raiseLatch s x 12 (fun o => o.toNat + 11 * 2 ^ 32)
    else s) s

/-- A place in a workgroup's scratchpad frames, named as gone (entry 78). -/
def goneSpace (s : State) (w : Workgroup) (x : Space) : Space :=
  match x with
  | .scr n =>
    if w.scratch.any (fun f => decide (frameAt (nearKey w.core f) / 4096 = n / 4096)) then .scr (Config.goneBase + clusterAddr s n) else x
  | _ => x

/-- Accesses and monitors on the way to a scratchpad whose frames go back to the Canopy (R31) reach no frame any more (entry 78). -/
def loseScratch (s : State) (w : Workgroup) : State :=
  if w.scratch.isEmpty then s
  else
    let lost (x : Space) : Space := goneSpace s w x
    { s with
      cores := s.cores.map (fun e => (e.1, { e.2 with
        reqs := e.2.reqs.map (fun r => { r with space := lost r.space })
        ops := e.2.ops.map (fun o => { o with addrs := o.addrs.map (fun a => (a.1, lost a.2)) }) }))
      monitors := s.monitors.map (fun m => match m.loc with
        | .store n => match lost (.scr n) with
          | .scr k => { m with loc := .store k }
          | _ => m
        | _ => m) }

/-- A finished workgroup goes: what it owned is released (R25, R31, R53). DESIGN CHOICE (entry 84): a queue entry of the workgroup that
selected no flag may still be queued; R235 releases its records now, so the entry finds none and raises kind 10 cause 6. -/
def finishWG (s : State) (w : Workgroup) : State :=
  let s1 := releaseOwned (loseScratch s w) w.core w.id
  let s2 := w.lfs.foldl (fun s l => modCore s w.core (fun k => modC k (fun y => { y with lfs := drop y.lfs l }))) s1
  let s3 := modLaunch { s2 with wgs := s2.wgs.filter (fun x => x.id != w.id) } w.launch (fun x => { x with finished := x.finished + 1 })
  memberGone s3 w

/-- Whether every write of finished workgroups has been applied (R25: the add's release). -/
def drained (s : State) : Bool :=
  s.cores.all (fun e =>
    e.2.reqs.all (fun r => r.act.isLoad || (workgroup s r.wg).isSome) &&
    e.2.c.mq.all (fun q => (workgroup s q.wg).isSome) && e.2.c.eng.all (fun q => (workgroup s q.wg).isSome))

/-- Whether an address may be written through its global entry (R211): an entry of kind 2 or 3, or a stop kind. -/
def mayWrite (s : State) (ctx vpn : Nat) : Except Nat DWord :=
  match walk s ctx vpn with
  | .absent => .error 6
  | .bad k => .error k
  | .entry e _ => if entOrd e = 3 then .error 6 else if entM e || !entW e then .error 7 else .ok e

/-- The add of 1 to a launch's completion word (R25); it waits while the page is busy and while older writes of the page are on the lane,
and a failing check stops the context. DESIGN CHOICE (entry 81): R64 names no core for a migration that an access of the package
scheduler starts; core 0 is charged. -/
def doneAdd (s : State) (x : Launch) : State :=
  let vpn := x.doneAt / 4096 % 2 ^ 36
  let fail (k : Nat) : State :=
    raise (modLaunch s x.id (fun y => { y with faulted := true })) ⟨k, 0, 0, 5, noThread, 0, stopDetail k vpn 1, none⟩
  match mayWrite s x.ctx vpn with
  | .error k => fail k
  | .ok e =>
    if entKind e = 3 then
      match meetCap s 0 x.ctx vpn noThread 0 true with
      | (.poisoned, _) => fail 17
      | (.bad k, _) => fail k
      | (_, s1) => s1
    else if entGone s e then fail 29
    else if (marker s (entPage e)).offered || pageFenced s (entPage e) then s
    else if markerBusy s (entPage e) || entB e then yieldDemotion s x.ctx vpn
    else match keyOf s x.ctx with
      | none => fail 24
      | some key =>
        let n := homeByte s (entPage e) (x.doneAt % 4096)
        if n < 2 ^ 40 ∧ (s.hwrites.any (fun w => w.page = entPage e) ∨ !pageOpen s (entPage e)) then s
        else if spoiled s n then fail 25
        else if !(trackedLines s (entPage e) [x.doneAt % 4096]).isEmpty then
          sendSnoops s (trackedLines s (entPage e) [x.doneAt % 4096])
        else
          let v := (leNat (readUnder s key n 4) + 1) % 2 ^ 32
          let s1 := { s with launches := s.launches.filter (fun y => y.id != x.id) }
          laneWrite s1 n key (byteTable (leBytes 4 v)) none .none (some (x.ctx, vpn))

/-- The launches of the running context whose last workgroup has finished and whose add is still owed. -/
def owedAdds (s : State) : List Launch :=
  s.launches.filter (fun x => decide (x.ctx = ctxId s) && !x.faulted && decide (clusterCount x ≤ x.placed) &&
    decide (clusterCount x * x.wgPerCl ≤ x.finished))

/-- The host links on which the release of a launch's add still owes a flushing read (R25, R90). -/
def owedLinks (s : State) (x : Launch) : List Nat :=
  (x.hostWrites.filter (fun e => decide (look s.flushed e.1 0 < e.2))).map (fun e => e.1)

/-- The release of a launch's add, then the add: flushing reads that are owed are sent, and the add waits for them (R25, R79). -/
def postDone (s : State) (x : Launch) : State :=
  if s.flushes.any (fun y => y.launch = some x.id) then s
  else if (owedLinks s x).isEmpty then doneAdd s x
  else sendFlushes s 0 0 0 (some x.id) (owedLinks s x)

/-- The adds that can be made are made. -/
def postDones (s : State) : State :=
  if s.stop.isSome || !drained s then s else (owedAdds s).foldl postDone s

/-- WORKGROUP_FINISH (R25). The add to DONE is made by a later event of the kind, which names no workgroup: it reaches its home after the
hosts' requests of this fabric cycle (R74). -/
def execWorkgroupFinish (id : Nat) (s : State) : Outcome :=
  match workgroup s id with
  | none => .next (postDones s)
  | some w => .next (if wgFinished s w then finishWG s w else s)

end Sys2Proof.Machine
end

