-- ==== Sys2Proof/Machine/Home.lean ====
section
/-!
DEFINITION. Machine/Home.lean: requests at their homes: translations fetched again (R40, R41, R377), accesses to frames (R43)
and through home slices (R37 to R39, R49, R50), departures from the write queue (R61), and the completion of loads and
atomics (R205, R213, R394, R401).
-/
namespace Sys2Proof.Machine

/-! ## Small operations -/

/-- A held fetch's hold released (R377). -/
def unhold (s : State) (c : Nat) (r : Req) : State :=
  match r.ent with
  | none => s
  | some e =>
    if entKind e = 1 then modFrame s (entFrame e) (fun f => { f with holds := f.holds.filter (fun h => h != (c, r.id)) }) else s

/-- Whether a held request stands behind another at its frame's directory (R377). -/
def heldBehind (s : State) (c : Nat) (r : Req) (k : Nat) : Bool :=
  (frame s k).holds.contains (c, r.id) && decide ((frame s k).holds.head? ≠ some (c, r.id))

/-- A rejection (R43): the translation is dropped, and the access is repeated after a fetch. -/
def rejectReq (s : State) (c : Nat) (r : Req) : State :=
  let s1 := modReq (unhold s c r) c r.id (fun q => { q with ent := none, rejects := q.rejects + 1 })
  match r.space with
  | .virt ctx va => forget s1 c ctx (va / 4096 % 2 ^ 36)
  | _ => s1

/-- A store, atomic or strong access that finds B set waits in the core's write queue (R49). -/
def sendBack (s : State) (c : Nat) (r : Req) : State :=
  let s1 := modReq (unhold s c r) c r.id (fun q => { q with ent := none, phase := .queued })
  match r.space with
  | .virt ctx va => forget s1 c ctx (va / 4096 % 2 ^ 36)
  | _ => s1

/-- Who fills for a request. -/
def reqFiller (r : Req) : Filler := ⟨some r.wg, false⟩
def reqThr (r : Req) : BitVec 16 := thrField r.lf (lowest r.lanes)

/-- Whether a load request belongs to a GATHER. -/
def isGather (s : State) (c : Nat) (r : Req) : Bool :=
  match opOf s c r.op with | some o => o.kind == .gather | none => false

/-- Whether a request's place in the orderings lets it be performed now. -/
def reqReady (s : State) (c : Nat) (r : Req) : Bool := if r.act.isLoad then loadReady s c r else storeReady s c r

/-- The offsets in its page of the bytes that a request writes. -/
def reqOffs (r : Req) : List Nat :=
  match r.act with
  | .atomic _ _ _ w => (List.range w).map (fun i => (r.space.key + i) % 4096)
  | _ => r.data.map (fun e => r.space.key % 4096 + e.1)

/-- The tracked lines whose snoops a write of a request waits for (R326). -/
def reqLines (s : State) (page : Nat) (r : Req) : List Nat := if r.act.isLoad then [] else trackedLines s page (reqOffs r)

/-- A STORE record of a request (R348): stores and family 7 requests. -/
def recordStore (s : State) (c : Nat) (r : Req) (n place : Nat) : State :=
  let m := match r.act with
    | .atomic _ _ _ w => (BitVec.allOnes 128).ushiftRight (128 - w) <<< (r.space.key % 128)
    | _ => r.mask
  recordAccess s c 4 (reqThr r) r.pc (grainAddr (reqAddr s r n) m) place (grainOf m)

/-! ## Performing at a storage number -/

/-- What a load request takes from the read-ahead buffer (R77, R210). -/
def aheadFor (s : State) (c : Nat) (r : Req) : Option (List Byte) :=
  match r.space with
  | .virt ctx va =>
    if r.ordering = 2 ∧ !r.acq ∧ !isGather s c r ∧ bit (Config.readAhead r.id) 0 then aheadBlock s c ctx va else none
  | _ => none

/-- The read-ahead buffer is emptied before an acquire load goes ahead (R77). -/
def acquireNow (s : State) (c : Nat) (r : Req) : State := if r.acq then emptyReadAhead s c else s

/-- A load request performed at a frame or scratchpad. -/
def loadAt (s : State) (c : Nat) (r : Req) (n : Nat) : State := takeLoad (acquireNow s c r) c r 0 n (aheadFor s c r) 0

/-- A load request served from its HBM page at its grain, with what the read-ahead buffer then takes (R77). -/
def loadHbm (s : State) (c : Nat) (r : Req) (key n : Nat) : State :=
  let place := if n < 2 ^ 40 then 1 else 0
  let s0 := if n < 2 ^ 40 then moveUnits s (n / 4096) (2 ^ grainOf r.mask) else s
  let s1 := takeLoad (acquireNow s0 c r) c r key n (aheadFor s c r) place
  match r.space with
  | .virt ctx va =>
    if r.ordering = 2 ∧ !r.acq ∧ !isGather s c r then neighbours s1 c ctx va key n (Config.readAhead r.id) else s1
  | _ => s1

/-- A store request applied at a frame or scratchpad. -/
def storeAt (s : State) (c : Nat) (r : Req) (n : Nat) : State := applyStore (recordStore s c r n 0) c r 0 n none

/-- An atomic's lane that finds a poisoned unit writes nothing and fails (R401). -/
def failAtomic (s : State) (c : Nat) (r : Req) (page : Nat) : State :=
  dropReq (modOp s c r.op (fun o => { o with failed := put o.failed (lowest r.lanes) page })) c r.id

/-- A read-modify-write performed at a storage number (R84, R212, R219): the lane gets its old value. At an HBM page its write then takes the
page's lane, charged to the core (R61), and the request stays until the write is made; no later one of the page comes between. -/
def atomAt (s : State) (c : Nat) (r : Req) (o : AtomOp) (b b2 : Word) (w : Nat) (key n : Nat)
    (dirty : Option (Nat × Nat)) : State :=
  if (List.range w).any (fun i => spoiled s (n + i)) then failAtomic s c r r.space.page
  else
    let e := atomEffect s o key n b b2
    let place := if n < 2 ^ 40 then 1 else 0
    let s0 := if r.acq then emptyReadAhead s c else s
    let s1 := modOp (recordStore s0 c r n place) c r.op (fun m => putReply m (lowest r.lanes) e.1)
    if n < 2 ^ 40 then
      let s2 := moveUnits s1 (n / 4096) 1
      if e.2.isEmpty then dropReq s2 c r.id
      else modReq (laneWrite s2 n key e.2 (some c) (.req c r.id) dirty) c r.id (fun q => { q with phase := .taken })
    else
      let s2 := undoWords s1 c r.lf (fun _ => lowest r.lanes) (pcAddr r.pc) key (n / 4 * 4) (reqAddr s r n / 4 * 4) e.2
      dropReq (applyWrite (dropAhead s2 c r) key n e.2 dirty) c r.id

/-- A release of scope .sys that only its flushing reads hold back sends them (R90). -/
def releaseStep (s : State) (c : Nat) (r : Req) : State :=
  match r.rel with
  | some sc => flushFor s c r.lf r.lanes r.op sc
  | none => s

/-! ## Translations (R40, R41, R377) -/

/-- The check of a translation fetched again for a request (R211). -/
def reCheck (e : DWord) (write : Bool) : Option Nat :=
  if entOrd e = 3 then some 6 else if entM e || (write && !entW e) then some 7 else none

/-- A request whose translation fails when it is fetched again. -/
def failReq (s : State) (c : Nat) (r : Req) (kind vpn : Nat) : State :=
  if r.act.isLoad then failLoad s c r kind vpn else discard s c r kind (stopDetail kind vpn 1)

/-- A request that meets the capacity tier after its issue: it waits for the migration, or takes kind 17 (R68, R385). -/
def reqCap (s : State) (c : Nat) (r : Req) (ctx vpn : Nat) : State :=
  match meetCap s c ctx vpn (reqThr r) r.pc r.strong with
  | (.poisoned, s1) => failReq s1 c r 17 vpn
  | (.bad k, s1) => failReq s1 c r k vpn
  | (.stale, s1) | (.wait, s1) => s1

/-- The service group that a sent read-modify-write is in flight at (R84, R400). -/
def reqGroup (r : Req) : Option Nat :=
  if !r.act.isAtomic || r.phase != .sent then none
  else match r.space, r.ent with
    | .scr n, _ => some (groupOf n)
    | .virt _ _, some e => some (groupOf (if entKind e = 1 then frameAt (entFrame e) else entPage e * 4096))
    | _, _ => none

/-- The read-modify-writes in flight at a group. -/
def groupLoad (s : State) (g : Option Nat) : Nat :=
  (s.cores.map (fun k => (k.2.reqs.filter (fun q => decide (reqGroup q = g))).length)).foldl (fun a b => a + b) 0

/-- Whether the group that a read-modify-write goes to, from a queue or from another group, has 256 of them in flight: the request waits
(R400). -/
def groupFull (s : State) (r : Req) (e : DWord) : Bool :=
  let g := reqGroup { r with phase := .sent, ent := some e }
  r.act.isAtomic && decide (reqGroup r ≠ g) && decide (256 ≤ groupLoad s g)

/-- A request gets a translation, fetched at a cycle; one to a frame after four rejections is held at the frame's directory (R377). -/
def giveEnt (s : State) (c : Nat) (r : Req) (e : DWord) (at_ : Nat) : State :=
  let s1 := modReq s c r.id (fun q => { q with ent := some e, entAt := at_ })
  if 4 ≤ r.rejects ∧ entKind e = 1 then modFrame s1 (entFrame e) (fun f => { f with holds := f.holds ++ [(c, r.id)] }) else s1

/-- The promotion that a request's translation calls for, asked for (R50); none for a GATHER (R210). -/
def askPromote (s : State) (c : Nat) (r : Req) (e : DWord) (ctx vpn : Nat) : State :=
  if entKind e = 1 ∧ promotes c e ∧ !isGather s c r then askPlace s c ctx vpn e (reqFiller r) (reqThr r) r.pc else s

/-- A sent request's translation fetched again; after four rejections the fetch is held (R377). A write that turns to an HBM page waits
for MAXOUT (R61), and a read-modify-write for its group (R400). -/
def applyWalk (s : State) (c : Nat) (r : Req) (ctx vpn : Nat) : State :=
  if fetchWaits s c ctx vpn then s else
  match fetchTrans s c ctx vpn with
  | (.error k, s1) => failReq s1 c r k vpn
  | (.ok e, s1) =>
    match reCheck e (!r.act.isLoad) with
    | some k => failReq s1 c r k vpn
    | none =>
      if entKind e = 3 then reqCap s1 c r ctx vpn
      else if entKind e = 2 ∧ !r.act.isLoad ∧ maxOut s1 c ≤ inFlight s1 c then s1
      else if groupFull s1 r e then s1
      else askPromote (giveEnt s1 c r e (fetchedAt s1 c ctx vpn)) c r e ctx vpn

/-- TRANSLATION_WALK (R40): a sent request without a translation fetches one. -/
def execTranslationWalk (c i : Nat) (s : State) : Outcome :=
  match reqOf s c i with
  | none => .next s
  | some r => match r.space with
    | .virt ctx va =>
      if r.phase = .sent ∧ r.ent.isNone ∧ reqReady s c r then .next (applyWalk s c r ctx (va / 4096 % 2 ^ 36)) else .next s
    | _ => .next s

/-- TRANSLATION_EXPIRY (R41): a kind-1 translation is dropped 4096 cycles after its fetch. -/
def execTranslationExpiry (c ctx vpn : Nat) (s : State) : Outcome :=
  .next (modCore s c (fun k => { k with tstore := k.tstore.filter (fun t =>
    !(decide (t.ctx = ctx ∧ t.vpn = vpn) && decide (entKind t.ent = 1) && decide (t.cycle + 4096 ≤ s.cycle))) }))

/-! ## Frames (R43) -/

/-- A frame whose seal word has an uncorrectable error is retired, and its page leaves it (R378): a core's access finds it, or the core or
die of the frame. -/
def retireFrame (s : State) (c k : Nat) : State :=
  let s1 := modFrame s k (fun f => { f with damaged := false })
  modFrame (startEviction s1 k (some c)) k (fun f => { f with retired := true })

/-- An access that the frame admits. -/
def serveFrame (s : State) (c : Nat) (r : Req) (e : DWord) (n : Nat) : State :=
  let k := entFrame e
  let lines := reqLines s (frame s k).backing r
  if !lines.isEmpty then sendSnoops s lines
  else
    let s1 := modFrame (unhold s c r) k (fun f => { f with ref := true })
    match r.act with
    | .load => loadAt s1 c r n
    | .store => storeAt s1 c r n
    | .atomic o b b2 w => atomAt s1 c r o b b2 w 0 n none

/-- A request at the frame that its translation names: one fetched before the frame's last remap is rejected, however its seal reads
(R45). -/
def applyFrame (s : State) (c : Nat) (r : Req) (e : DWord) (ctx va : Nat) : State :=
  let k := entFrame e
  if heldBehind s c r k then s
  else if (frame s k).damaged && !(frame s k).busy then retireFrame s c k
  else if remappedSince s k r.entAt then rejectReq s c r
  else match homeCheck s c ctx va e r.strong with
    | .reject => rejectReq s c r
    | .back => sendBack s c r
    | .gone => failReq s c r 29 (va / 4096 % 2 ^ 36)
    | .serve n => serveFrame s c r e n
    | _ => s

/-- A request at a scratchpad (R208). -/
def applyScratch (s : State) (c : Nat) (r : Req) (n : Nat) : State :=
  match r.act with
  | .load => loadAt s c r n
  | .store => regroupTest (storeAt s c r n) r.wg
  | .atomic o b b2 w => atomAt s c r o b b2 w 0 n none

/-- FRAME_ACCESS (R43): a load or store that has been sent to a frame or a scratchpad. -/
def execFrameAccess (c i : Nat) (s : State) : Outcome :=
  match reqOf s c i with
  | none => .next s
  | some r =>
    if r.phase ≠ .sent ∨ r.act.isAtomic then .next s
    else if !reqReady s c r then .next (releaseStep s c r)
    else match r.space, r.ent with
      | .scr n, _ => .next (applyScratch s c r n)
      | .virt ctx va, some e => .next (if entKind e = 1 then applyFrame s c r e ctx va else s)
      | _, _ => .next s

/-! ## The home slice (R37, R39, R49, R50) -/

/-- A request redirected to a frame (R37); a read-modify-write waits where the frame's group is full (R400). -/
def redirect (s : State) (c : Nat) (r : Req) (e : DWord) (k ctx vpn : Nat) : State :=
  match installRedirect s c ctx vpn e k with
  | (e1, s1) => if groupFull s1 r e1 then s1 else askPromote (giveEnt s1 c r e1 s1.cycle) c r e1 ctx vpn

/-- A store at its HBM page: its write is queued for the lane (R64). -/
def queueWrite (s : State) (c : Nat) (r : Req) (page n key ctx vpn : Nat) : State :=
  let w : HWrite :=
    { id := s.ops, page := page, block := n % 4096 / 128, mask := r.mask, data := r.data, poison := 0, charge := some c
      entered := false, inBudget := false, arrival := 0, rank := 0, refusals := 0, key := key, dirty := some (ctx, vpn)
      origin := .req c r.id }
  modReq { fresh (recordStore s c r n 1) with hwrites := s.hwrites ++ [w] } c r.id (fun q => { q with phase := .taken })

/-- The fill that an access which found its page in HBM starts (R50); none for a GATHER (R210). -/
def fillFor (s : State) (c : Nat) (r : Req) (e : DWord) (ctx vpn : Nat) : State :=
  if isGather s c r then s else startFill s c ctx vpn e (reqFiller r) (reqThr r) r.pc

/-- A request served from its HBM page. -/
def serveHbm (s : State) (c : Nat) (r : Req) (e : DWord) (ctx vpn key n : Nat) : State :=
  let page := entPage e
  let lines := reqLines s page r
  match r.act with
  | .load =>
    if r.acq then
      let s1 := fillFor s c r e ctx vpn
      if markerBusy s1 page then sendBack s1 c r else loadHbm s1 c r key n
    else fillFor (loadHbm s c r key n) c r e ctx vpn
  | .store =>
    let s1 := fillFor s c r e ctx vpn
    if markerBusy s1 page then sendBack s1 c r
    else if !lines.isEmpty then sendSnoops s1 lines
    else queueWrite s1 c r page n key ctx vpn
  | .atomic o b b2 w =>
    let s1 := fillFor s c r e ctx vpn
    if markerBusy s1 page then sendBack s1 c r
    else if s.hwrites.any (fun x => decide (x.page = page)) then s1
    else if !lines.isEmpty then sendSnoops s1 lines
    else atomAt s1 c r o b b2 w key n (some (ctx, vpn))

/-- A request with a kind-2 translation at its home slice; a pseudo-channel out of its byte budget accepts none (R66). -/
def applySlice (s : State) (c : Nat) (r : Req) (e : DWord) (ctx va : Nat) : State :=
  let vpn := va / 4096 % 2 ^ 36
  match homeCheck s c ctx va e r.strong with
  | .back => sendBack s c r
  | .redirect k => redirect s c r e k ctx vpn
  | .noKey => failReq s c r 24 vpn
  | .gone => failReq s c r 29 vpn
  | .serve n => if pageOpen s (entPage e) then serveHbm s c r e ctx vpn (keyNow s ctx) n else s
  | _ => s

/-- HOME_SLICE_ACCESS (R37): a load or store that has been sent to its home slice. -/
def execHomeSliceAccess (c i : Nat) (s : State) : Outcome :=
  match reqOf s c i with
  | none => .next s
  | some r =>
    if r.phase ≠ .sent ∨ r.act.isAtomic ∨ !reqReady s c r then .next s
    else match r.space, r.ent with
      | .virt ctx va, some e => .next (if entKind e = 2 then applySlice s c r e ctx va else s)
      | _, _ => .next s

/-- A read-modify-write of a scratchpad that an ordering keeps in its core has not left it yet: the time of R401 runs from when it does. -/
def stayReq (s : State) (c : Nat) (r : Req) : State :=
  match r.space with
  | .scr _ => modReq s c r.id (fun q => { q with left := s.cycle })
  | _ => s

/-- ATOMIC_PERFORM (R84): a read-modify-write that has been sent to its owning group. -/
def execAtomicPerform (c i : Nat) (s : State) : Outcome :=
  match reqOf s c i with
  | none => .next s
  | some r =>
    if r.phase ≠ .sent ∨ !r.act.isAtomic then .next s
    else if !storeReady s c r then .next (releaseStep (stayReq s c r) c r)
    else match r.space, r.ent with
      | .scr n, _ => .next (applyScratch s c r n)
      | .virt ctx va, some e => .next (if entKind e = 1 then applyFrame s c r e ctx va else applySlice s c r e ctx va)
      | _, _ => .next s

/-! ## Departures from the write queue (R49, R61, R228) -/

/-- Whether the page that an entry names is busy for a strong access. -/
def busyFor (s : State) (ctx vpn : Nat) (e : DWord) : Bool :=
  busyAt s ctx vpn (if entKind e = 1 then (frame s (entFrame e)).backing else entPage e)

/-- An entry of the queue leaves for its home, with the translation fetched as it goes. -/
def applyDepart (s : State) (c : Nat) (r : Req) (ctx vpn : Nat) : State :=
  if fetchWaits s c ctx vpn then s else
  match fetchTrans s c ctx vpn with
  | (.error k, s1) => failReq s1 c r k vpn
  | (.ok e, s1) =>
    match reCheck e (!r.act.isLoad) with
    | some k => failReq s1 c r k vpn
    | none =>
      if entKind e = 3 then reqCap s1 c r ctx vpn
      else
        let s2 := askPromote s1 c r e ctx vpn
        if busyFor s2 ctx vpn e then forget (yieldDemotion s2 ctx vpn) c ctx vpn
        else if entKind e = 2 ∧ !r.act.isLoad ∧ maxOut s2 c ≤ inFlight s2 c then s2
        else if groupFull s2 r e then s2
        else giveEnt (modReq (dropAhead s2 c r) c r.id (fun q => { q with phase := .sent, left := s.cycle })) c r e (fetchedAt s1 c ctx vpn)

/-- A posted write on the host link noted: a later .sys release of a thread, and the release of its launch, owe a flushing read
(R90, R25). -/
def notePosted (s : State) (r : Req) : State :=
  let s1 := { s with posted := put s.posted hostLink s.ops }
  match workgroup s r.wg with
  | some w => modLaunch s1 w.launch (fun x => { x with hostWrites := put x.hostWrites hostLink s.ops })
  | none => s1

/-- A posted write through a host pointer sent on its link (R209, R75, R207). -/
def sendHost (s : State) (c : Nat) (r : Req) (addr : Nat) : State :=
  match r.ent with
  | none => s
  | some e =>
    let n := Config.hostBase + (e.toNat * 4096 + addr % 4096) % 2 ^ 64
    let s1 := recordStore s c r n 3
    finishShare (notePosted { s1 with mem := Mem.patch s1.mem n r.data } r) c r

/-- WRITE_QUEUE_DEPART (R61). -/
def execWriteQueueDepart (c i : Nat) (s : State) : Outcome :=
  match reqOf s c i with
  | none => .next s
  | some r =>
    if r.phase ≠ .queued then .next s
    else if !reqReady s c r then .next (releaseStep s c r)
    else match r.space with
      | .virt ctx va => .next (applyDepart s c r ctx (va / 4096 % 2 ^ 36))
      | .host _ a => .next (sendHost s c r a)
      | .scr _ => .next s

/-! ## Results of memory words (R205, R213, R394, R401) -/

/-- A failed lane: its slots are filled with 0, its named destination is not written (R394). -/
def failLane (t : Thread) (op k : Nat) : Thread :=
  (List.range k).foldl (fun t i =>
    let u := fillSlot t (token op i) 0
    { u with np := u.np.filter (fun p => p.tok != token op i) }) t

def failLanes (s : State) (c l op k : Nat) (m : LaneMask) : State :=
  modLF s c l (fun f => modThreads f m (fun _ t => failLane t op k))

/-- The words that a lane receives: the bytes extended to words, the lowest-addressed first (R204, R205). -/
def laneWords (o : MemOp) (lane : Nat) : List Word :=
  let b := (List.range o.width).map (fun i => look o.got (lane * 16 + i) 0)
  match o.kind with
  | .atomic | .monitor => [BitVec.ofNat 32 (leNat (b.take 4))]
  | _ =>
    if o.width < 4 then
      [if o.signed then BitVec.ofInt 32 (toInt (8 * o.width) (leNat b)) else BitVec.ofNat 32 (leNat b)]
    else (List.range (o.width / 4)).map (fun i => BitVec.ofNat 32 (leNat ((b.drop (4 * i)).take 4)))

/-- Some lanes of a word receive their results, the failed ones theirs; flags clear (R205, R207, R394). -/
def deliverLanes (s : State) (c : Nat) (o : MemOp) (m : LaneMask) : State :=
  let bad := maskOf ((lanesOf m).filter (fun i => (lookup o.failed i).isSome))
  let good := m &&& ~~~bad
  let k := match o.kind with | .atomic | .monitor => 1 | _ => slotsOf o.width
  let s1 := deliverTo s c o.lf o.op ((lanesOf good).map (fun i => (i, laneWords o i)))
  let s2 := finishFlags (failLanes s1 c o.lf o.op k bad) c o.lf m o.flag
  match (lanesOf bad).find? (fun i => decide (look o.failed i 0 < 2 ^ 40)) with
  | none => s2
  | some i =>
    let akind := match o.kind with | .atomic => 1 | _ => 0
    raise s2 ⟨25, c, o.lf, 0, thrField o.lf i, o.pc, pageDetail (look o.failed i 0) akind, none⟩

/-- The host reads of a word performed under the translations that they were sent with (R209). -/
def readHost (s : State) (c : Nat) (o : MemOp) : State :=
  ((core s c).reqs.filter (fun r => decide (r.op = o.op) && r.act.isLoad)).foldl (fun s r =>
    match r.space, r.ent with
    | .host _ a, some e => takeLoad s c r 0 (Config.hostBase + (e.toNat * 4096 + a % 4096) % 2 ^ 64) none 3
    | _, _ => s) s

/-- The requests of a word that are still out. -/
def reqsOf (s : State) (c op : Nat) : List Req := (core s c).reqs.filter (fun r => decide (r.op = op))

/-- LOAD_RETURN (R205): every request of the word has been performed; or a flushing read has completed (R90). -/
def execLoadReturn (c i : Nat) (s : State) : Outcome :=
  match opOf s c i with
  | none => match s.flushes.find? (fun x => decide (x.core = c ∧ x.id = i)) with
    | some x => .next (flushDone s x)
    | none => .next s
  | some o =>
    if o.kind = .atomic ∨ o.kind = .attr then .next s
    else
      let ready := o.kind = .host ∧ (reqsOf s c i).all (fun r => loadReady s c r)
      let s0 := if ready then readHost s c o else s
      match opOf s0 c i with
      | none => .next s
      | some o1 =>
        if (reqsOf s0 c i).isEmpty then .next (regroupTest (dropOp (deliverLanes s0 c o1 o1.lanes) c i) o1.wg)
        else .next s

/-- The lanes of an atomic word whose replies have come. -/
def repliedLanes (o : MemOp) : LaneMask :=
  maskOf ((lanesOf o.lanes).filter (fun i => (lookup o.got (i * 16)).isSome || (lookup o.failed i).isSome))

/-- Lanes of an atomic word done with; its row is free after the last (R213, R400). -/
def retireLanes (s : State) (c : Nat) (o : MemOp) (m : LaneMask) : State :=
  let rest := o.lanes &&& ~~~m
  if rest = 0 then
    regroupTest (modLF (dropOp s c o.op) c o.lf (fun f => { f with rows := f.rows.filter (fun x => x != o.op) })) o.wg
  else modOp s c o.op (fun x => { x with lanes := rest })

/-- ATOMIC_REPLY (R213): old values that have reached their return slots are delivered. -/
def execAtomicReply (c i : Nat) (s : State) : Outcome :=
  match opOf s c i with
  | none => .next s
  | some o =>
    let m := repliedLanes o
    if o.kind ≠ .atomic ∨ m = 0 then .next s
    else .next (retireLanes (deliverLanes s c o m) c o m)

/-- Whether a timed-out request had been applied is unknown (R401): a free value decides. Where older writes of its page wait for the lane it
is applied after them (R65), and no word waits for it any more. -/
def timeoutReq (s : State) (c : Nat) (r : Req) : State :=
  let gone (t : State) : State := dropReq (unhold t c r) c r.id
  if Config.timedOutApplied r.id then
    match r.act, r.space, r.ent with
    | .atomic o b b2 w, .scr n, _ => gone (atomAt s c r o b b2 w 0 n none)
    | .atomic o b b2 w, .virt ctx va, some e =>
      match homeCheck s c ctx va e true with
      | .serve n =>
        if n < 2 ^ 40 ∧ s.hwrites.any (fun x => decide (x.page = n / 4096)) then modReq s c r.id (fun q => { q with op := q.id, flag := none })
        else gone (atomAt s c r o b b2 w (keyNow s ctx) n (if entKind e = 2 then some (ctx, va / 4096 % 2 ^ 36) else none))
      | _ => gone s
    | _, _, _ => gone s
  else gone s

/-- The requests of an atomic word that left the core 2^24 cycles ago or more (R401). -/
def lateReqs (s : State) (c i : Nat) : List Req :=
  (reqsOf s c i).filter (fun r => decide (r.phase = .sent) && decide (r.left + 2 ^ 24 ≤ s.cycle))

/-- The lanes of those requests that have no reply. -/
def lateLanes (s : State) (c i : Nat) (o : MemOp) : LaneMask :=
  (lateReqs s c i).foldl (fun m r => m ||| r.lanes) 0 &&& o.lanes &&& ~~~(repliedLanes o)

/-- ATOMIC_TIMEOUT (R401): 2^24 cycles after the request left, the lanes without a reply fail with kind 27. -/
def execAtomicTimeout (c i : Nat) (s : State) : Outcome :=
  match opOf s c i with
  | none => .next s
  | some o =>
    let m := lateLanes s c i o
    if o.kind ≠ .atomic ∨ m = 0 then .next s
    else
      let s1 := (lateReqs s c i).foldl (fun s r => timeoutReq s c r) s
      let s2 := finishFlags (failLanes s1 c o.lf o.op 1 m) c o.lf m o.flag
      let page := match lookup o.addrs (lowest m) with | some x => x.page | none => 0
      let s3 := retireLanes s2 c o m
      .next (raise s3 ⟨27, c, o.lf, 0, thrField o.lf (lowest m), o.pc, pageDetail page 1, none⟩)

/-! ## Fences (R88, R222, R223) -/

/-- Whether the Mast-path accesses of a workgroup's SYSCALLs issued before a place are made: slot writes and return loads (R88, R318). -/
def callsDone (s : State) (c wg : Nat) (before : Nat) : Bool :=
  !((core s c).c.lfs.any (fun e => decide (e.2.wg = wg) && e.2.call.any (fun h => decide (h.op < before)))) &&
  !((core s c).mast.calls.any (fun e => decide (e.2.ctx = ctxId s ∧ e.2.op < before) &&
    (match laneFrame s c e.2.lf with | some f => decide (f.wg = wg) | none => false)))

/-- Whether a path's engine work that was commanded for a workgroup before a place is finished (R88). -/
def pathDone (s : State) (c wg : Nat) (p : Path) (before : Nat) : Bool :=
  let mqOn (e : MqEntry) : Bool := match e.kind with
    | .mxld _ _ | .accLd _ _ _ | .accSt _ _ _ | .mma _ _ _ _ => p == .mx
    | .groveVt _ _ | .groveRow _ _ _ => p == .grove
    | _ => false
  let engOn (e : EngOp) : Bool := match e.kind with
    | .xfer _ _ _ _ => p == .copy
    | .coll _ => p == .coll
    | .launch _ _ _ => false
  !((core s c).c.mq.any (fun e => decide (e.wg = wg ∧ e.id < before) && mqOn e)) &&
  !((core s c).c.eng.any (fun e => decide (e.wg = wg ∧ e.id < before) && engOn e)) &&
  !((core s c).reqs.any (fun r => decide (r.wg = wg ∧ r.op < before) && r.engine.isSome && decide (r.path = p)))

/-- Whether the thread path of a workgroup, up to a place, is finished within a scope (R79, R88). -/
def threadPathDone (s : State) (c wg : Nat) (before : Nat) (sc : Scope) : Bool :=
  ((core s c).c.lfs.filter (fun e => decide (e.2.wg = wg))).all (fun e => released s c e.1 (BitVec.allOnes 32) before sc)

/-- Whether the earlier path of a cross-path fence is finished (R88). -/
def xReady (s : State) (c wg : Nat) (p : Path) (before : Nat) (sc : Scope) : Bool :=
  match p with
  | .thr => threadPathDone s c wg before sc
  | .mast => callsDone s c wg before
  | _ => pathDone s c wg p before

/-- A cross-path fence of scope .sys whose earlier path is the threads' sends the flushing reads that it waits for (R88, R90). -/
def xFlush (s : State) (c wg : Nat) (p : Path) (before : Nat) (sc : Scope) : State :=
  if p = .thr then
    ((core s c).c.lfs.filter (fun e => decide (e.2.wg = wg))).foldl (fun t e => flushFor t c e.1 (BitVec.allOnes 32) before sc) s
  else s

/-- FENCE_COMPLETE (R222, R223): the waits are met, the read-ahead buffer is emptied, and the bundle goes on. -/
def execFenceComplete (c l : Nat) (s : State) : Outcome :=
  match laneFrame s c l with
  | none => .next s
  | some f => match f.clause, f.fence with
    | some cl, some h =>
      let ready := match h.path with
        | none => released s c l cl.lanes h.op h.scope
        | some p => xReady s c f.wg p h.op h.scope
      if ready then
        let s1 := modLF (emptyReadAhead s c) c l (fun f => { f with fence := none })
        .next (advance s1 ⟨c, l, { f with fence := none }, cl⟩)
      else .next (match h.path with
        | none => flushFor s c l cl.lanes h.op h.scope
        | some p => xFlush s c f.wg p h.op h.scope)
    | _, _ => .next s

end Sys2Proof.Machine
end

