-- ==== Sys2Proof/Machine/Sync.lean ====
section
/-!
DEFINITION. Machine/Sync.lean: host-pointer words (R209, R340), monitors (R216 to R220), fences (R222, R223) and
page-attribute requests (R224) as the issuing word makes them.
-/
namespace Sys2Proof.Machine

/-! ## Host pointers (R209, R327, R340) -/

/-- The host pages of an access, the lower first. -/
def hostPages (a w : Nat) : List Nat :=
  let x := a / 4096
  let y := (a + w - 1) % 2 ^ 64 / 4096
  if x = y then [x] else [min x y, max x y]

/-- A host translation that allows an access. -/
def hostTrans (s : State) (c page : Nat) (write : Bool) : Option HostTrans :=
  (core s c).hstore.find? (fun t => decide (t.pasid = ctxPasid s ∧ t.page = page) && (t.write || !write))

/-- A miss sends one Translation Request for the page, unless one or a page request is outstanding (R340). -/
def atsMiss (s : State) (c page : Nat) (write : Bool) : State :=
  if (core s c).ats.any (fun q => q.pasid = ctxPasid s ∧ q.page = page) then s
  else modCore s c (fun k => { k with ats := k.ats ++ [⟨ctxPasid s, page, write, false, false, s.cycle, false, false⟩] })

/-- The first host page, in lane order, whose translation the core does not hold. -/
def hostMiss (s : State) (c : Nat) (addrs : Table Nat) (w : Nat) (write : Bool) : Option Nat :=
  addrs.findSome? (fun e => (hostPages e.2 w).find? (fun p => (hostTrans s c p write).isNone))

/-- The host physical byte of a host virtual address. -/
def hostByte (s : State) (c a : Nat) (write : Bool) : Nat :=
  match hostTrans s c (a / 4096) write with
  | some t => Config.hostBase + (t.hostPage * 4096 + a % 4096) % 2 ^ 64
  | none => Config.hostBase + a

/-- LDH (R209): the bundle parks on a miss; else the read goes out under the translation it found. -/
def loadHost (s : State) (w : Nat) (r : BitVec 4) (fs : Side) (b : Src) (x : BitVec 9) : Outcome :=
  match issuing s with
  | none => .next (hold s)
  | some u =>
    if writeHeld u (regsOf r.toNat (slotsOf w)) || acquiring s u then .next (hold s)
    else
      match eachLane u (fun i => (read64 u b i).map (fun v => (((v.toNat : Int) + off9 x * w) % (2 ^ 64 : Nat)).toNat)) with
      | none => .next (hold s)
      | some addrs =>
        match hostMiss s u.c addrs w false with
        | some p => .next (parkAll (atsMiss s u.c p false) u (.host p))
        | none =>
          let f : LoadForm := ⟨w, false, .host, 1, .region⟩
          let o := loadOp s u f r.toNat (u.flag fs) (addrs.map (fun e => (e.1, .host (ctxPasid s) e.2))) []
          let k := slotsOf w
          let s1 := undoShifts (fresh s) u k
          let s2 := modLF s1 u.c u.l (fun y => selectFlags (pend y u.cl.lanes o.op k r.toNat true u.pc) u.cl.lanes (u.flag fs) u.pc)
          let s3 := modCore s2 u.c (fun y => { y with ops := y.ops ++ [o] })
          let s4 := (partsOf (laneBytes o.addrs w (fun _ => []))).foldl (fun t p =>
            addReq t u.c { blankReq u o.op .load p (u.flag fs) 1 with
              phase := .sent
              entAt := s.cycle
              ent := match p.space with
                | .host _ a => (hostTrans s u.c (a / 4096) false).map (fun t => BitVec.ofNat 64 t.hostPage)
                | _ => none }) s3
          .next (advance s4 u)

/-- STH (R209): posted writes under the translation found at issue. -/
def storeHost (s : State) (w : Nat) (r : BitVec 4) (fs : Side) (b : Src) (x : BitVec 9) : Outcome :=
  match issuing s with
  | none => .next (hold s)
  | some u =>
    if acquiring s u then .next (hold s)
    else
      match eachLane u (fun i => (read64 u b i).map (fun v => (((v.toNat : Int) + off9 x * w) % (2 ^ 64 : Nat)).toNat)),
          eachLane u (storeData u w r) with
      | some addrs, some vals =>
        match hostMiss s u.c addrs w true with
        | some p => .next (parkAll (atsMiss s u.c p true) u (.host p))
        | none =>
          let places : Table Space := addrs.map (fun e => (e.1, .host (ctxPasid s) e.2))
          let op := s.ops
          let s1 := modLF (fresh s) u.c u.l (fun y => selectFlags y u.cl.lanes (u.flag fs) u.pc)
          let s2 := (partsOf (laneBytes places w (fun i => look vals i []))).foldl (fun t p =>
            addReq t u.c { blankReq u op .store p (u.flag fs) 1 with
              ent := match p.space with
                | .host _ a => (hostTrans s u.c (a / 4096) true).map (fun t => BitVec.ofNat 64 t.hostPage)
                | _ => none }) s1
          .next (advance s2 u)
      | _, _ => .next (hold s)

/-! ## Monitors (R216, R217, R220) -/

/-- What a strong read of one lane finds: it waits, a stop kind, or the storage number of its word. -/
inductive StrongAt where
  | wait
  | bad (kind : Nat)
  | at_ (n : Nat)
deriving DecidableEq, Repr

/-- A strong read's way to its home (R215): the orderings, the home, and the fill or promotion that the access asks for (R50). The request
stands for the lane's read. -/
def strongRead (s : State) (u : Iss) (r : Req) (x : Space) : StrongAt × State :=
  if !loadReady s u.c r then (.wait, s)
  else
    match x, r.ent with
    | .virt ctx va, some e =>
      let vpn := va / 4096 % 2 ^ 36
      let who : Filler := ⟨some u.f.wg, false⟩
      match homeCheck s u.c ctx va e true with
      | .wait | .back => (.wait, forget s u.c ctx vpn)
      | .reject => (.wait, forget s u.c ctx vpn)
      | .noKey => (.bad 24, s)
      | .gone => (.bad 29, s)
      | .redirect k => (.wait, (installRedirect s u.c ctx vpn e k).2)
      | .serve n =>
        let s0 := if entKind e = 1 then refFrame s (entFrame e) else s
        (.at_ n, if entKind e = 2 ∨ promotes u.c e then askPlace s0 u.c ctx vpn e who (thrField u.l u.low) u.pc else s0)
    | .scr n, _ => (.at_ n, s)
    | _, _ => (.wait, s)

/-- The request that stands for a lane's strong read of `w` bytes. -/
def strongReq (s : State) (u : Iss) (lane : Nat) (x : Space) (w : Nat) (ents : Table DWord) : Req :=
  let m := (List.range w).foldl (fun m i => m ||| BitVec.twoPow 128 ((x.plus i).key % 128)) 0
  { blankReq u s.ops .load ⟨x.block, BitVec.twoPow 32 lane, m, [], []⟩ none (orderOf ents x) with
    id := s.ops
    acq := true
    ent := match x with | .virt _ _ => lookup ents x.page | _ => none }

/-- The reads of every lane in turn: all of them, a lane that must wait, or a stop kind with its page. -/
def strongAll (s : State) (u : Iss) (w : Nat) (ents : Table DWord) : Table Space → Except (Option (Nat × Nat)) (Table Nat) × State
  | [] => (.ok [], s)
  | (i, x) :: r =>
    match strongRead s u (strongReq s u i x w ents) x with
    | (.wait, s1) => (.error none, s1)
    | (.bad k, s1) => (.error (some (k, x.page)), s1)
    | (.at_ n, s1) =>
      match strongAll s1 u w ents r with
      | (.ok t, s2) => (.ok ((i, n) :: t), s2)
      | e => e

/-- The monitor's location of a place. -/
def locOf (x : Space) (n : Nat) : Loc :=
  match x with
  | .virt c va => .virt c va
  | _ => .store n

/-- The number of monitors that a group holds (R217). -/
def armedIn (s : State) (g : Nat) : Nat := (s.monitors.filter (fun m => m.armed && decide (m.group = g))).length

/-- A monitor for one lane: the threads of one bundle that wait on the same word, condition and B share one (R217). -/
def armLane (s : State) (u : Iss) (cond : MonCond) (lane : Nat) (x : Space) (n : Nat) (b : Word) (first : Nat) : State :=
  match s.monitors.find? (fun m => decide (first ≤ m.id ∧ m.loc = locOf x n ∧ m.b = b)) with
  | some m =>
    let s1 := { s with monitors := s.monitors.map (fun y =>
      if y.id = m.id then { y with lanes := y.lanes ||| BitVec.twoPow 32 lane } else y) }
    modLF s1 u.c u.l (fun f => modThread f lane (fun t => { t with parked := true, wait := some (.monitor m.id) }))
  | none =>
    let g := groupOf n
    let m : Monitor :=
      { id := s.ops, loc := locOf x n, cond := cond, b := b, core := u.c, lf := u.l, lanes := BitVec.twoPow 32 lane, group := g
        armed := decide (armedIn s g < 256), due := s.cycle + 1024, fired := false, call := none }
    modLF { fresh s with monitors := s.monitors ++ [m] } u.c u.l
      (fun f => modThread f lane (fun t => { t with parked := true, wait := some (.monitor m.id) }))

/-- The STORE records of a waiting word's reads, one for each block (R348: family 7). -/
def recordMonitor (s : State) (u : Iss) (off : Nat) (addrs : Table Space) (nums : Table Nat) : State :=
  (partsOf (laneBytes (addrs.map (fun e => (e.1, e.2.plus off))) 4 (fun _ => []))).foldl (fun t p =>
    let n := look nums (lowest p.lanes) 0
    let a := match p.space with | .scr _ => clusterAddr s (n / 128 * 128) | .virt _ va => va | .host _ a => a
    recordAccess t u.c 4 (thrField u.l (lowest p.lanes)) u.pc (grainAddr a p.mask) (if n < 2 ^ 40 then 1 else 0) (grainOf p.mask)) s

/-- A waiting word once its places are known (R216): lanes whose condition holds take their value and go on; the others arm
monitors and park. -/
def issueMonitor (s : State) (u : Iss) (cond : MonCond) (reg : Nat) (flag : Option Nat) (addrs : Table Space)
    (ents : Table DWord) (nums : Table Nat) (bs : Table Word) : State :=
  let val (i : Nat) : Nat :=
    let n := look nums i 0
    let x := look addrs i (.scr 0)
    monValue s cond (locKey s (locOf x n)) n
  let off : Nat := match cond with | .gen => 8 | _ => 0
  let bad (i : Nat) : Bool := spoiled s (look nums i 0 + off)
  let go := maskOf (u.lanes.filter (fun i => bad i || condHolds cond (val i) (look bs i 0)))
  let stay := u.cl.lanes &&& ~~~go
  let v : Iss := { u with cl := { u.cl with lanes := go } }
  let s1 := recordMonitor (emptyReadAhead s u.c) u off addrs nums
  let s2 :=
    if go = 0 then s1
    else
      let o := { loadOp s1 v ⟨4, false, .monitor, 4, .either⟩ reg flag (addrs.filter (fun e => go.getLsbD e.1)) ents with
        acq := true
        got := (lanesOf go).flatMap (fun i => (leBytes 4 (val i)).mapIdx (fun k b => (i * 16 + k, b)))
        failed := ((lanesOf go).filter bad).map (fun i => (i, (look addrs i (.scr 0)).page)) }
      let t1 := undoShifts (fresh s1) v 1
      let t2 := modLF t1 u.c u.l (fun x => selectFlags (pend x go o.op 1 reg true u.pc) go flag u.pc)
      modCore t2 u.c (fun x => { x with ops := x.ops ++ [o] })
  let first := s2.ops
  let s3 := (lanesOf stay).foldl (fun s i => armLane s u cond i (look addrs i (.scr 0)) (look nums i 0) (look bs i 0) first) s2
  goOn (recordPark s3 u.c u.l false stay u.pc 3) u go

/-- MON.WAIT and ARRIVE.WAIT (R216, R220). -/
def monitorWord (s : State) (cond : MonCond) (w : Nat) (r : Reach) (d : BitVec 4) (fs : Side) (b : BitVec 5) (a : Src) :
    Outcome :=
  match issuing s with
  | none => .next (hold s)
  | some u =>
    if writeHeld u (regsOf d.toNat 1) || acquiring s u then .next (hold s)
    else
      match eachLane u (fun i => readSC u b i) with
      | none => .next (hold s)
      | some bs =>
        match findPlaces s u r w w 0 false (fun i => (read32 u a i).map (fun v => effective v 0)) with
        | (.hold, s1) => .next (hold s1)
        | (.trap k e, s1) => .next (trap s1 u k e)
        | (.cap p, s1) => .next (parkCap s1 u p 0 none)
        | (.ok addrs ents, s1) =>
          match strongAll s1 u w ents addrs with
          | (.error none, s2) => .next (hold s2)
          | (.error (some (k, p)), s2) => .next (trap s2 u k (pageDetail p 0))
          | (.ok nums, s2) => .next (issueMonitor s2 u cond d.toNat (u.flag fs) addrs ents nums bs)

/-! ## Fences (R222, R223) -/

/-- FENCE, and FENCE.X whose later path is .thr: the bundle holds at the word until FENCE_COMPLETE. -/
def fenceWord (s : State) (c : Scope) (p : Option Path) : Outcome :=
  match issuing s with
  | none => .next (hold s)
  | some u => .next { modLF (fresh s) u.c u.l (fun f => { f with fence := some ⟨s.ops, c, p⟩ }) with at_ := none }

/-- FENCE.X (R223, R88): one path twice is FENCE of the scope; else later accesses of path `later` of the workgroup wait. -/
def fenceXWord (s : State) (c : Scope) (earlier later : Path) : Outcome :=
  if earlier = later then fenceWord s c none
  else if later = .thr then fenceWord s c (some earlier)
  else
    match issuing s with
    | none => .next (hold s)
    | some u =>
      .next (advance (modCore (fresh s) u.c (fun k => modC k (fun y =>
        { y with xholds := y.xholds ++ [⟨s.ops, u.f.wg, earlier, later, c⟩] }))) u)

/-! ## Page-attribute requests (R224) -/

/-- Whether a control word has a reserved bit or value (R224). -/
def badControl (hint : Bool) (ctl : Word) : Bool :=
  if hint then decide (bits ctl.toNat 15 3 ≠ 0 ∨ 6 ≤ bits ctl.toNat 2 0)
  else decide (bits ctl.toNat 15 6 ≠ 0 ∨ bits ctl.toNat 3 2 = 3) || ctl.getLsbD 0

/-- The pages of a request: `n` pages from the one that holds an address, within the thread region. -/
def attrPages (va n : Nat) : List Nat := (List.range n).map (fun i => regionAdd (va / 4096 * 4096) (4096 * i : Nat) / 4096)

/-- The check of a request's pages at issue (R211, R224): M = 1, or a table that cannot be read. -/
def attrFault (s : State) (ctx : Nat) (pages : List Nat) : Option (Nat × Nat) :=
  pages.findSome? (fun p => match walk s ctx p with
    | .entry e _ => if entM e then some (7, p) else none
    | .bad k => some (k, p)
    | .absent => none)

/-- HINT and PGSET (R224): each present lane's request is entered, and its count is delivered when it completes. DESIGN CHOICE (entry 109): an SA
whose bits 31:25 are 0x7F names a byte of a cluster scratchpad to loads and stores (R202), no page; R211 lists no fault for it here, and
the request is for the page of the thread region that the SA counts to. -/
def attrWord (s : State) (hint : Bool) (d : BitVec 4) (fs : Side) (a : Src) (ctl : Iss → Nat → Option (Word × Word)) :
    Outcome :=
  match issuing s with
  | none => .next (hold s)
  | some u =>
    if writeHeld u (regsOf d.toNat 1) || acquiring s u then .next (hold s)
    else
      match eachLane u (ctl u), eachLane u (read32 u a) with
      | some cs, some eas =>
        if cs.any (fun e => badControl hint e.2.1) then .next (trap s u 3 u.word)
        else
          let va (i : Nat) : Nat := regionVa (regionOf s u.f.wg) (look eas i 0).toNat
          let num (i : Nat) : Nat := bits (look cs i (0, 0)).1.toNat 31 16 + 1
          match u.lanes.findSome? (fun i => attrFault s (ctxId s) (attrPages (va i) (num i))) with
          | some (k, p) => .next (trap s u k (pageDetail p 1))
          | none =>
            let flag := u.flag fs
            let o := { loadOp s u ⟨4, false, .attr, 1, .region⟩ d.toNat flag [] [] with requests := 0 }
            let s1 := undoShifts (fresh s) u 1
            let s2 := modLF s1 u.c u.l (fun x => selectFlags (pend x u.cl.lanes o.op 1 d.toNat true u.pc) u.cl.lanes flag u.pc)
            let s3 := modCore s2 u.c (fun x => { x with ops := x.ops ++ [o] })
            let s4 := u.lanes.foldl (fun t i =>
              let q : PageReq :=
                { id := t.ops, core := u.c, lf := u.l, wg := u.f.wg, pc := u.pc, lane := i, op := o.op, hint := hint
                  ctl := (look cs i (0, 0)).1, ctx := ctxId s, vpn := va i / 4096, left := num i, changed := 0
                  capNext := (look cs i (0, 0)).2.toNat, step := 0, came := s.cycle, since := s.cycle, writes := 0, reads := 0, fired := false }
              modCore (fresh t) u.c (fun k => modC k (fun y => { y with pageReqs := y.pageReqs ++ [q] }))) s3
            .next (advance s4 u)
      | _, _ => .next (hold s)

end Sys2Proof.Machine
end

