-- ==== Sys2Proof/Machine/Traffic.lean ====
section
/-!
DEFINITION. Machine/Traffic.lean: placement sequences as they remap and end (R44, R47, R48), invalidations (R379, R380), HBM
writes charged and made (R64, R65, R397), the windows and channel coding (R63, R66), and monitors that move (R217, R402).
-/
namespace Sys2Proof.Machine

/-! ## Monitors (R217, R402) -/

/-- Monitors go with their words when homes change; without a free place they join the recheck (R217, R402). -/
def moveMonitors (s : State) : State :=
  s.monitors.foldl (fun t m =>
    match locNum t m.loc with
    | none => t
    | some n =>
      let g := groupOf n
      if g = m.group ∨ m.call.isSome ∨ (2 ^ 40 ≤ n ∧ n < Config.frameBase) then t
      else
        let room := decide (armedIn t g < 256)
        { t with monitors := t.monitors.map (fun x => if x.id = m.id then { x with group := g, armed := room, due := t.cycle + 1024 } else x) }) s

/-- Whether a monitor's condition holds now. -/
def monHolds (s : State) (m : Monitor) : Bool :=
  match locNum s m.loc with
  | none => false
  | some n => condHolds m.cond (monValue s m.cond (locKey s m.loc) n) m.b

/-- MONITOR_RECHECK (R217): every 1024 cycles threads without a monitor are checked at the group. -/
def execMonitorRecheck (i : Nat) (s : State) : Outcome :=
  match s.monitors.find? (fun m => m.id = i) with
  | none => .next s
  | some m =>
    if m.armed ∨ m.fired ∨ s.cycle < m.due then .next s
    else if monHolds s m ∨ (locNum s m.loc).isNone then .next (fireMonitor s m)
    else .next { s with monitors := s.monitors.map (fun x => if x.id = i then { x with due := s.cycle + 1024 } else x) }

/-- Every monitor of a group fires (R402). -/
def fireGroup (s : State) (g : Nat) : State :=
  (s.monitors.filter (fun m => m.armed && decide (m.group = g))).foldl fireMonitor s

/-- MONITOR_STORAGE_ERROR (R402). -/
def execMonitorStorageError (die slice : Nat) (s : State) : Outcome := .next (fireGroup s (die * 32 + slice))

/-! ## Sequences (R44, R48) -/

/-- The frames that a sequence remaps at FRAME_REMAP; a promotion's far frame is released at PLACEMENT_DONE. -/
def seqFrames (q : Seq) : List Nat :=
  [q.dst] ++ (match q.victim with | some ⟨_, some t, _⟩ => [t] | _ => [])

/-- FRAME_REMAP (R44, R48 steps 2 to 4): the sequence's frames are remapped once they may be; reservations on them are lost
(R313). -/
def execFrameRemap (i : Nat) (s : State) : Outcome :=
  match s.seqs.find? (fun q => q.id = i) with
  | none => .next s
  | some q =>
    if canRemap s q then .next (remapSeq ((seqFrames q).foldl (fun t k => breakReserve t (frameAt k) 4096) s) q) else .next (readSome s q)

/-- PLACEMENT_DONE (R48 steps 5 and 6). -/
def execPlacementDone (i : Nat) (s : State) : Outcome :=
  match s.seqs.find? (fun q => q.id = i) with
  | none => .next s
  | some q =>
    if canComplete s q then .next (moveMonitors (completeSeq (q.src.toList.foldl (fun t k => breakReserve t (frameAt k) 4096) s) q))
    else .next s

/-! ## Invalidations (R47, R57, R379, R380) -/

def invalOf (s : State) (i : Nat) : Option Inval := s.invals.find? (fun v => v.id = i)
def modInval (s : State) (i : Nat) (f : Inval → Inval) : State :=
  { s with invals := s.invals.map (fun v => if v.id = i then f v else v) }

/-- A core drops what it holds of a page: translations and read-ahead entries (R47, R77). -/
def dropPage (s : State) (c ctx vpn : Nat) : State :=
  modCore (forget s c ctx vpn) c (fun k => { k with
    readAhead := k.readAhead.filter (fun e => !decide (e.1 = ctx ∧ e.2.1 / 4096 % 2 ^ 36 = vpn)) })

/-- INVALIDATION (R47): a core receives an invalidation. -/
def execInvalidation (i : Nat) (s : State) : Outcome :=
  match invalOf s i with
  | none => .next s
  | some v => .next (modInval (dropPage s v.core v.ctx v.vpn) i (fun v => { v with arrived := v.arrived <|> some s.cycle }))

/-- Whether an access that used a translation of a page is still on its way. -/
def usesPage (s : State) (c ctx vpn : Nat) : Bool :=
  (core s c).reqs.any (fun r => r.ent.isSome && (match r.space with
    | .virt d va => decide (d = ctx ∧ va / 4096 % 2 ^ 36 = vpn)
    | _ => false))

/-- Whether an access that used a translation which an invalidation has dropped has neither reached its home nor been rejected there
(R379): one fetched later is no such access, and a store that its home slice has taken has reached it. -/
def usesDropped (s : State) (v : Inval) (at_ : Nat) : Bool :=
  (core s v.core).reqs.any (fun r => r.ent.isSome && decide (r.phase ≠ .taken ∧ r.entAt < at_) && (match r.space with
    | .virt d va => decide (d = v.ctx ∧ va / 4096 % 2 ^ 36 = v.vpn)
    | _ => false))

/-- INVALIDATION_ACK (R379): the acknowledgement reaches the sender. -/
def execInvalidationAck (i : Nat) (s : State) : Outcome :=
  match invalOf s i with
  | none => .next s
  | some v =>
    match v.arrived with
    | some t => .next (if usesDropped s v t then s else { s with invals := s.invals.filter (fun x => x.id != i) })
    | none => .next s

def pageReqs (s : State) : List PageReq := s.cores.flatMap (fun e => e.2.c.pageReqs)
def pageReqOf (s : State) (i : Nat) : Option PageReq := (pageReqs s).find? (fun q => q.id = i)
def modPageReq (s : State) (i : Nat) (f : PageReq → PageReq) : State :=
  { s with cores := s.cores.map (fun e =>
    (e.1, modC e.2 (fun y => { y with pageReqs := y.pageReqs.map (fun q => if q.id = i then f q else q) }))) }

/-- INVALIDATION_RESEND (R380): sent again after 4096 cycles; after the fourth send kind 20. -/
def execInvalidationResend (i : Nat) (s : State) : Outcome :=
  match invalOf s i with
  | none => .next s
  | some v =>
    if s.cycle < v.sent + 4096 ∨ 5 ≤ v.sends then .next s
    else
      let s1 := modInval s i (fun v => { v with sent := s.cycle, sends := v.sends + 1 })
      if v.sends < 4 then .next s1
      else .next (raiseSeq s1 20 v.start.die v.start.core v.start.thr v.start.pc v.core)

/-! ## The Jib (R63 to R65) -/

def hwriteOf (s : State) (i : Nat) : Option HWrite := s.hwrites.find? (fun w => w.id = i)
def modHWrite (s : State) (i : Nat) (f : HWrite → HWrite) : State :=
  { s with hwrites := s.hwrites.map (fun w => if w.id = i then f w else w) }

/-- The rank of a write among those that arrive in one fabric cycle (R65, R74): cores, then host links, then writes charged to no core by
the die that sends them, which `rank` holds until the write enters. -/
def writeRank (w : HWrite) : Nat :=
  match w.charge, w.origin with
  | some c, _ => c
  | none, .host l => 1024 + l
  | none, _ => 2048 + w.rank

/-- Whether a write meets the mark of an offered page, at which all but the migration's own wait (R68). -/
def meetsOffer (s : State) (w : HWrite) : Bool :=
  (marker s w.page).offered && (match w.origin with | .migration _ => false | _ => true)

/-- Whether a write may enter its home slice: those not sent from a queue wait for MAXOUT, in order (R61). -/
def mayEnter (s : State) (w : HWrite) : Bool :=
  !meetsOffer s w &&
  match w.charge, w.origin with
  | none, _ => true
  | some _, .req _ _ | some _, .atomic => true
  | some c, _ => decide (inFlight s c < maxOut s c) &&
      !s.hwrites.any (fun x => decide (x.charge = some c ∧ x.id < w.id) && !x.entered &&
        (match x.origin with | .req _ _ | .atomic => false | _ => true))

/-- The grain of a write in bytes (R60). -/
def grainBytes (m : BitVec 128) : Nat := 16 * 2 ^ grainOf m

/-- HBM_WRITE_CHARGE (R64): a write enters its home slice and is charged; its arrival is the fabric cycle (R2, R65). -/
def execHbmWriteCharge (i : Nat) (s : State) : Outcome :=
  match hwriteOf s i with
  | none => .next s
  | some w =>
    if w.entered || !mayEnter s w then .next s
    else
      let enter (t : State) (ok : Bool) : State :=
        modHWrite t i (fun w => { w with entered := true, inBudget := ok, arrival := s.cycle * 2 / 3, rank := writeRank w })
      match w.charge with
      | none => .next (enter s true)
      | some c =>
        let g := grainBytes w.mask
        if g ≤ (core s c).tokens then .next (enter (modCore s c (fun k => { k with tokens := k.tokens - g })) true)
        else .next (enter s false)

/-- Whether one write goes before another on the lane (R65). -/
def goesBefore (x y : HWrite) : Bool :=
  let key (w : HWrite) : Nat × Nat × Nat := (w.arrival, w.rank, w.id)
  (x.inBudget && !y.inBudget) || (decide (x.inBudget = y.inBudget) &&
    (decide ((key x).1 < (key y).1) || (decide ((key x).1 = (key y).1) &&
      (decide ((key x).2.1 < (key y).2.1) || (decide ((key x).2.1 = (key y).2.1) && decide ((key x).2.2 < (key y).2.2))))))

/-- Whether a write is older than another at its home slice. -/
def olderWrite (x y : HWrite) : Bool :=
  decide (x.arrival < y.arrival) || (decide (x.arrival = y.arrival) &&
    (decide (x.rank < y.rank) || (decide (x.rank = y.rank) && decide (x.id < y.id))))

/-- The write that a free lane takes next (R65). -/
def nextWrite (s : State) (stack chan : Nat) : Option HWrite :=
  let here := s.hwrites.filter (fun w => w.entered && decide (pageStack w.page = stack ∧ pageChan w.page = chan))
  (here.filter (fun w => !here.any (fun x => decide (x.page = w.page) && olderWrite x w))).foldl
    (fun a w => match a with | none => some w | some y => if goesBefore w y then some w else some y) none

/-- The write's data put in place at its page (R393: a write-back stores poison marks); the hardware's own at the page's home. -/
def placeWrite (s : State) (w : HWrite) : State :=
  let n := if w.origin = .hw then homeByte s w.page (w.block * 128) else w.page * 4096 + w.block * 128
  let s1 := applyWrite s w.key n w.data w.dirty
  (List.range 4).foldl (fun s i =>
    if w.poison.getLsbD i then { s with poison := ((n / 32 + i) :: s.poison).dedup } else s) s1

/-- One write of a sequence, request or migration accounted for at its source. -/
def tellSource (s : State) (w : HWrite) : State :=
  match w.origin with
  | .seq i => { s with seqs := s.seqs.map (fun q => if q.id = i then { q with writes := q.writes - 1 } else q) }
  | .pageReq i => modPageReq s i (fun q => { q with writes := q.writes - 1 })
  | .migration i => { s with migrations := s.migrations.map (fun m => if m.id = i then { m with writes := m.writes - 1 } else m) }
  | _ => s

/-- The write of a read-modify-write made (R61): it is logged (R368) and applied, and its request is done. -/
def applyAtomic (s : State) (c : Nat) (r : Req) (w : HWrite) : State :=
  let n := w.page * 4096 + w.block * 128
  let s1 := undoWords s c r.lf (fun _ => lowest r.lanes) (pcAddr r.pc) w.key n (reqAddr s r n / 128 * 128) w.data
  dropReq (applyWrite (dropAhead s1 c r) w.key n w.data w.dirty) c r.id

/-- A write made: applied in its page's order, and known at its source (R61, R65, R207). -/
def finishWrite (s : State) (w : HWrite) : State :=
  let s1 := { s with hwrites := s.hwrites.filter (fun x => x.id != w.id) }
  match w.origin with
  | .req c i =>
    match reqOf s1 c i with
    | some r => if r.act.isAtomic then applyAtomic s1 c r w else applyStore s1 c r w.key (w.page * 4096 + w.block * 128) w.dirty
    | none => placeWrite s1 w
  | _ => tellSource (placeWrite s1 w) w

/-- A write refused for the eighth time: discarded, listed as a lost block, kind 26 raised (R397). -/
def loseWrite (s : State) (w : HWrite) : State :=
  let die := pageStack w.page
  let k := die * 32 + pageSlice w.page
  let l := look s.lost k []
  let full := decide (64 ≤ l.length)
  let s1 := { s with
    hwrites := s.hwrites.filter (fun x => x.id != w.id)
    lost := if full then s.lost else put s.lost k (l ++ [w.page * 32 + w.block])
    lostFull := if l.length + 1 = 64 ∨ full then change s.lostFull k 0 (fun n => n + 1) else s.lostFull }
  let s2 := match w.origin with
    | .req c i => (match reqOf s1 c i with | some r => if r.act.isAtomic then dropReq s1 c i else loseShare s1 c r | none => s1)
    | _ => tellSource s1 w
  let s3 := raise s2 ⟨26, die * 64, 0, 6, noThread, 0, pageChan w.page + die * 2 ^ 8 + w.page % 2 ^ 20 * 2 ^ 12, none⟩
  if full then { s3 with stop := s3.stop.map (fun p => { p with lostFull := if p.lostFull.contains k then p.lostFull else p.lostFull ++ [k] }) } else s3

/-- The lane takes its next request. -/
def takeNext (s : State) (stack chan : Nat) : State :=
  let k := stack * 192 + chan
  let next := if channelOpen s stack chan then nextWrite s stack chan else none
  let units := match next with | some w => grainBytes w.mask / 16 | none => 0
  { s with channels := change s.channels k .reset (fun h => { h with current := next.map (fun w => w.id), units := h.units + units }) }

/-- The lines of HBM that a write waits for the host to give up (R326). -/
def writeLines (s : State) (w : HWrite) : List Nat :=
  trackedLines s w.page ((List.range 128).filterMap (fun i => if w.mask.getLsbD i then some (w.block * 128 + i) else none))

/-- WRITE_LANE_DONE (R65, R397): the transfer in hand ends, good or refused, and the lane takes its next request; a dead
pseudo-channel discards it (R424). -/
def execWriteLaneDone (stack chan : Nat) (crcOk : Bool) (s : State) : Outcome :=
  match (channelOf s (stack * 192 + chan)).current.bind (hwriteOf s) with
  | none => .next (takeNext s stack chan)
  | some w =>
    if chanDead s w.page then .next (takeNext (loseWrite s w) stack chan)
    else if crcOk then
      if !(writeLines s w).isEmpty && !(match w.origin with | .host _ => true | _ => false) then .next (sendSnoops s (writeLines s w))
      else .next (takeNext (finishWrite s w) stack chan)
    else if w.refusals + 1 < 8 then .next (modHWrite s w.id (fun w => { w with refusals := w.refusals + 1 }))
    else .next (takeNext (loseWrite s w) stack chan)

/-! ## Budgets, windows and coding (R63, R66) -/

/-- The ceiling of a core's bucket (R63). -/
def ceiling (j : Word) : Nat :=
  let d := bits j.toNat 11 8
  64 * (if d = 0 then 1 else d) * bits j.toNat 7 0

/-- A core's bucket at the start of a window (R63). -/
def refill (k : Core) : Core :=
  let j := k.jbudNext.getD k.jbud
  { k with jbud := j, jbudNext := none, tokens := min (ceiling j) (min k.tokens (ceiling j) + 64 * bits j.toNat 7 0) }

/-- The start of a window (R63, R66): buckets refilled, byte budgets renewed. -/
def openWindow (s : State) : State :=
  { s with
    cores := (List.range (coreCount s)).map (fun c => (c, refill (core s c)))
    channels := s.channels.map (fun e => (e.1, { e.2 with units := 0 })) }

/-- A write of JBUD (R63, R396): MAXOUT at once, RATE and DEPTH at the next window. -/
def writeJbud (s : State) (c : Nat) (v : Word) : State :=
  let w := v &&& 0x00FF0FFF
  modCore s c (fun k => { k with jbud := (k.jbud &&& 0xFF00FFFF) ||| (w &&& 0x00FF0000), jbudNext := some w })

/-- Data-bus inversion in use on every channel of a stack, both ways. -/
def useInversion (s : State) (stack : Nat) : State :=
  { s with channels := s.channels.map (fun e => if e.1 / 192 = stack then (e.1, { e.2 with lowRead := false, lowWrite := false }) else e) }

/-- HCFG_WRITE (R66): compatibility mode uses data-bus inversion from now on. -/
def execHcfgWrite (stack : Nat) (v : Word) (s : State) : Outcome :=
  .next { (if v.getLsbD 31 then useInversion s stack else s) with hcfg := put s.hcfg stack (v &&& 0x8000FFFF) }

/-- CODE_SWITCH_BOUNDARY (R66): the code with fewer counted transitions; a tie keeps the current one; compatibility mode
always uses data-bus inversion. -/
def execCodeSwitchBoundary (stack chan : Nat) (writes : Bool) (dbi low : Nat) (s : State) : Outcome :=
  let compat := (hcfgOf s stack).getLsbD 31
  let pick (cur : Bool) : Bool := if compat then false else if low < dbi then true else if dbi < low then false else cur
  .next { s with channels := change s.channels (stack * 192 + chan) .reset (fun h =>
    if writes then { h with lowWrite := pick h.lowWrite } else { h with lowRead := pick h.lowRead }) }

end Sys2Proof.Machine
end

