-- ==== Sys2Proof/Machine/Migrate.lean ====
section
/-!
DEFINITION. Machine/Migrate.lean: the capacity tier: pool slots (R67, R383), migrations (R68, R385, R386), the deadline path
(R69, R387), page-attribute requests and demotions (R70, R224, R225), and the busy watchdog with abandonment (R382).
-/
namespace Sys2Proof.Machine

/-! ## B clears -/

/-- The waits on a page for its B. -/
def onPage (vpn : Nat) (w : Wait) : Bool := match w with | .migration p _ => decide (p = vpn) | _ => false

/-- B of a page clears and every thread that waits for it unparks and repeats its access (R68 step 7, R382). -/
def wakePage (s : State) (ctx vpn : Nat) : State := wakeWhere (setEntryB s ctx vpn false) ctx (onPage vpn) 1

/-- B of a page clears, and step 2 of R68 is repeated for the threads that wait on it: they unpark if the page is kind 2; while it is
kind 3 they stay parked, and the fault unit begins again (`faultUnit`). -/
def releasePage (s : State) (ctx vpn : Nat) : State :=
  match walk s ctx vpn with
  | .entry e _ => if entKind e = 3 then setEntryB s ctx vpn false else wakePage s ctx vpn
  | _ => wakePage s ctx vpn

/-- The pages on which threads of a core wait for a migration, each with the lowest such thread's lane frame, lane and word. -/
def waitsOf (k : Core) : List (Nat × Nat × Nat × DWord) :=
  k.c.lfs.flatMap (fun x => x.2.threads.filterMap (fun t =>
    match t.2.live, t.2.wait with
    | true, some (.migration p _) => if p < 2 ^ 36 then some (p, x.1, t.1, t.2.pc) else none
    | _, _ => none))

/-- The fault unit of a core's die at the turn of a fabric cycle, for the threads of the core that wait (R68 steps 2 and 3): a page found
kind 3 with B clear gets its migration, and one found kind 2 lets its threads go. The cores go in ascending order with their queues,
Masts and engines, so the lower die first (R71). -/
def faultUnit (c : Nat) (s : State) : State :=
  if s.slice.isNone then s
  else (waitsOf (core s c)).foldl (fun t w =>
    match walk t (ctxId t) w.1 with
    | .entry x _ =>
      if entKind x = 3 then beginMigration t c (ctxId t) w.1 (thrField w.2.1 w.2.2.1) w.2.2.2
      else if entB x then t else wakePage t (ctxId t) w.1
    | _ => wakePage t (ctxId t) w.1) s

/-- The pages in the capacity tier that hold the words of launches still to be ready get their migrations (R303, R40 step 4), in the
order of the launches. DESIGN CHOICE (entry 81): no core reads those words, so core 0's fault unit moves the pages. -/
def depMigrations (s : State) : State :=
  if !fabricTick s then s
  else s.launches.foldl (fun t x =>
    if x.ready.isSome || x.faulted then t
    else x.deps.foldl (fun t d => beginMigration t 0 x.ctx (d.1 / 4096 % 2 ^ 36) noThread 0) t) s

/-! ## The pool (R67, R383) -/

/-- `n` bytes at a virtual address of a context, where all of them have a home on the part (entry 16). -/
def readVirt (s : State) (ctx va n : Nat) : Option (List Byte) :=
  (List.range n).mapM (fun i => (pageAddr s ctx (va + i)).map (fun a => (hwRead s (keyNow s ctx) a 1).headD 0))

/-- Bytes of the pool written by the fault unit at a virtual address within one page, on the page's lane as its own (entry 80). -/
def writeVirt (s : State) (ctx va : Nat) (b : List Byte) : State :=
  match pageAddr s ctx va with
  | none => s
  | some a => hwWrite s (keyNow s ctx) a b

/-- The HBM page in which the fault unit reads a virtual address of a context; none in a frame. -/
def virtPage (s : State) (ctx va : Nat) : Option Nat :=
  (homeOf s ctx va).bind (fun n => if n < 2 ^ 40 then some (n / 4096) else none)

/-- The pool record of a context: BASE, CAP, HEAD and TAIL. -/
structure Pool where
  rcd : Nat
  base : Nat
  cap : Nat
  head : Nat
  tail : Nat
deriving DecidableEq, Repr

def poolOf (s : State) (ctx : Nat) : Option Pool :=
  (descriptor s ctx).bind (fun d =>
    (readVirt s ctx d.pool 20).map (fun b =>
      ⟨d.pool, leNat (b.take 8), leNat ((b.drop 8).take 4), leNat ((b.drop 12).take 4), leNat ((b.drop 16).take 4)⟩))

/-- Whether CAP and BASE are well formed (R67). -/
def Pool.ok (p : Pool) : Bool :=
  decide (p.base % 8 = 0) && (List.range 17).any (fun i => decide (p.cap = 2 ^ i))

/-- A slot's 64 bits. -/
def slotWord (f u : Bool) (page : Nat) : Nat := bnat f * 2 ^ 63 + bnat u * 2 ^ 62 + page % 2 ^ 32

def migrationOf (s : State) (i : Nat) : Option Migration := s.migrations.find? (fun m => m.id = i)
def modMigration (s : State) (i : Nat) (f : Migration → Migration) : State :=
  { s with migrations := s.migrations.map (fun m => if m.id = i then f m else m) }

/-- What is wrong with a slot that was taken (R383): a cause of kind 22. -/
def slotFault (s : State) (w : Nat) : Option Nat :=
  if !bit w 63 || decide (bits w 61 32 ≠ 0) || decide (bits w 31 28 ≠ 0) then some 1
  else if dies s ≤ pageStack (bits w 27 0) then some 2
  else none

/-- The HBM pages that the fault unit reads for a slot, with the units that it moves there (R66): the pool's record and the slot. -/
def slotReads (s : State) (m : Migration) (p : Pool) : List (Nat × Nat) :=
  ((virtPage s m.ctx p.rcd).map (fun a => (a, 2))).toList ++ ((virtPage s m.ctx (p.base + 8 * (p.head % p.cap))).map (fun a => (a, 1))).toList

/-- Step 3 of R68 for a migration whose pool has a slot. -/
def takeSlot (s : State) (m : Migration) (p : Pool) : State :=
  let head := (p.head + 1) % 2 ^ 32
  let s1 := writeVirt ((slotReads s m p).foldl (fun t e => moveUnits t e.1 e.2) s) m.ctx (p.rcd + 12) (leBytes 4 head)
  let fail (cause : Nat) : State :=
    modMigration (raiseSeq s1 22 m.die m.core m.thr m.pc (head + cause * 2 ^ 32)) m.id (fun m => { m with dead := true })
  if !p.ok then fail 0
  else
    let va := p.base + 8 * (p.head % p.cap)
    match readVirt s1 m.ctx va 8 with
    | none => fail 1
    | some b =>
      let w := leNat b
      match slotFault s w with
      | some c => fail c
      | none =>
        let page := bits w 27 0
        modMarker (modMigration s1 m.id (fun m => { m with
          phase := 1, slot := va, page := page
          reads := (List.range 32).map (fun i => (i, 4 * s.cycle)) })) page (fun k => { k with offered := true })

/-- Whether the slot that a pool offers next is one that a migration can use (R67, R383). -/
def slotGood (s : State) (m : Migration) (p : Pool) : Bool :=
  p.ok && (match readVirt s m.ctx (p.base + 8 * (p.head % p.cap)) 8 with
    | some b => (slotFault s (leNat b)).isNone
    | none => false)

/-- POOL_SLOT_TAKE (R68 step 3): the migration takes the next slot of its context's pool; while the pool is empty, or a pseudo-channel of it
is shut (R66), it waits. A bad slot
is met while the context runs, so that its stop can be raised. -/
def execPoolSlotTake (i : Nat) (s : State) : Outcome :=
  match migrationOf s i with
  | none => .next s
  | some m =>
    match poolOf s m.ctx with
    | none => .next s
    | some p =>
      if m.phase ≠ 0 ∨ m.dead ∨ p.head = p.tail ∨ (!runs s m.ctx && !slotGood s m p) ∨
          (slotReads s m p).any (fun e => !pageOpen s e.1) then .next s else .next (takeSlot s m p)

/-! ## Migration (R68) -/

/-- The writes of a migration that are not on a lane are dropped (R69). -/
def stopWrites (s : State) (m : Migration) : State :=
  let onLane (w : HWrite) : Bool := s.channels.any (fun e => e.2.current = some w.id)
  { s with hwrites := s.hwrites.filter (fun w => onLane w || decide (w.origin ≠ .migration m.id)) }

/-- Whether a write of a migration is still on a lane. -/
def writesOut (s : State) (m : Migration) : Bool := s.hwrites.any (fun w => decide (w.origin = .migration m.id))

/-- The end of a migration that was given up in a phase (R69, R382, R385): a slot that was taken is written back with F = 0, U = 1, the
offered page is free again, and B clears, or stays with the poison. The entry stays kind 3. -/
def endGiveUp (s : State) (m : Migration) (taken : Bool) (phase : Nat) : State :=
  let s1 := if taken then
      writeVirt (modMarker s m.page (fun k => { k with offered := false })) m.ctx m.slot (leBytes 8 (slotWord false true m.page))
    else s
  let s2 := recordMigrate { s1 with migrations := s1.migrations.filter (fun x => x.id != m.id) } m.core m.thr m.pc m.vpn 3
  match phase with
  | 2 => releasePage s2 m.ctx m.vpn
  | 4 => { s2 with migrations := s2.migrations ++ [{ m with phase := 6, dead := true }] }
  | 5 => wakePage s2 m.ctx m.vpn
  | _ => s2

/-- A migration given up: it issues no more writes, and ends once those on the lane have finished. -/
def giveUp (s : State) (m : Migration) (phase : Nat) : State :=
  if m.phase = 0 ∨ m.phase = 6 then endGiveUp s m false phase
  else
    let s1 := stopWrites s m
    if writesOut s1 m then modMigration s1 m.id (fun m => { m with phase := phase })
    else endGiveUp s1 m true phase

/-- The mirror of a capacity-tier page of a context (R384). -/
def mirrorOf (s : State) (ctx p : Nat) : Option Nat :=
  (List.range 8).findSome? (fun i =>
    match lookup s.mirrors (ctx * 8 + i) with
    | some r => if r.lo ≤ p ∧ p < r.lo + r.count then some ((p + r.off) % 2 ^ 32) else none
    | none => none)

/-- The storage number of a block of a capacity-tier page. -/
def capAt (page blk : Nat) : Nat := Config.capBase + page * 4096 + blk * 128

/-- The access kind of R362 of the word at which a thread is parked: 0 load, 1 store, 2 fetch. -/
def accessKind (s : State) (c vpn : Nat) (pc : DWord) : Nat :=
  if pcPos pc = 0 ∨ pcAddr pc / 4096 = vpn then 2
  else match peekWord s c (ctxId s) (pcAddr pc) with
    | none => 2
    | some w => match decodeWord w with
      | .ok i => if (queueUse i).isSome then 1 else 0
      | .error _ => 0

/-- The access kind of R362 of the access that started a sequence (R376). -/
def startKind (s : State) (x : Started) (vpn : Nat) : Nat := if x.thr = noThread then 0 else accessKind s x.core vpn x.pc

/-- What started a migration. -/
def migrationStart (m : Migration) : Started := ⟨m.die, m.core, m.thr, m.pc⟩

/-- Kind 17 for the threads of a lane frame that wait at one word for a page (R385), found by the fault unit (R376): their wait ends and the
stop holds them. -/
def poisonWaiters (s : State) (c l vpn : Nat) (p : Wait → Bool) (pc : DWord) : State :=
  match laneFrame s c l with
  | none => s
  | some f =>
    let m := maskOf ((f.threads.filter (fun e => e.2.live && decide (e.2.pc = pc) &&
      (match e.2.wait with | some w => p w | none => false))).map (fun e => e.1))
    raiseParked (modLF s c l (fun f => modThreads f m (fun _ t => { t with wait := none })))
      ⟨17, c, l, 5, thrField l (lowest m), pc, pageDetail vpn (accessKind s c vpn pc), none⟩ m

/-- Kind 17 for every thread of the running context whose wait satisfies a test. -/
def poisonAll (s : State) (vpn : Nat) (p : Wait → Bool) : State :=
  s.cores.foldl (fun s e => e.2.c.lfs.foldl (fun s x =>
    let pcs := ((x.2.threads.filter (fun t => t.2.live && (match t.2.wait with | some w => p w | none => false))).map (fun t => t.2.pc)).dedup
    pcs.foldl (fun s pc => poisonWaiters s e.1 x.1 vpn p pc) s) s) s

/-- A page is poisoned (R385, R386): the table gets an entry, B stays set, and everything that waits on the page takes kind
17. While the table is full RESUME is blocked instead, and the migration stays, to be abandoned by command 0x1F: the accesses of a context
that is out meet it when they are repeated (R386). `by_` is what started the reads. -/
def poisonPage (s : State) (ctx vpn capPage : Nat) (mirror : Bool) (m : Option Migration) (mark : Wait → Bool) (by_ : Started) : State :=
  let free := (List.range 256).find? (fun i => (lookup s.poisonTab i).isNone)
  let s1 := match m with | some m => giveUp s m (if free.isSome then 3 else 4) | none => s
  let s2 := setEntryB s1 ctx vpn true
  let s3 := match free with
    | some i => { s2 with poisonTab := put s2.poisonTab i ⟨ctx, vpn, capPage, mirror⟩ }
    | none => s2
  let s4 :=
    if runs s3 ctx then poisonAll s3 vpn mark
    else wakeWhere s3 ctx mark 1
  match free, s4.stop with
  | none, some p => { s4 with stop := some { p with blocked := true } }
  | none, none =>
    if runs s4 ctx then
      let s5 := raiseSeq s4 17 by_.die by_.core by_.thr by_.pc (pageDetail vpn (startKind s4 by_ vpn))
      { s5 with stop := s5.stop.map (fun p => { p with blocked := true }) }
    else s4
  | some _, _ => s4

/-- A read of a block came back bad or not at all (R385). -/
def badRead (s : State) (m : Migration) (blk : Nat) : State :=
  let again (k : Nat) : State := modMigration s m.id (fun m => { m with reads := put m.reads blk (k + 4 * s.cycle) })
  match look m.reads blk 0 % 4, mirrorOf s m.ctx m.capPage with
  | 0, _ => again 1
  | 1, some p => modMigration (again 2) m.id (fun m => { m with from_ := put m.from_ blk p })
  | k, _ => poisonPage s m.ctx m.vpn m.capPage (decide (k = 2)) (some m) (onPage m.vpn) (migrationStart m)

/-- Where the read of a block in hand went when it was issued: the page, or its mirror as the ranges stood then (R384). -/
def readFromPage (m : Migration) (blk : Nat) : Nat := look m.from_ blk m.capPage

/-- A block that has arrived is written into the offered page (R68 step 5). -/
def goodRead (s : State) (m : Migration) (blk : Nat) : State :=
  let n := capAt (readFromPage m blk) blk
  let key := keyNow s m.ctx
  let w : HWrite :=
    { id := s.ops, page := m.page, block := blk, mask := BitVec.allOnes 128, data := byteTable (readUnder s key n 128)
      poison := 0, charge := some m.core, entered := false, inBudget := true, arrival := 0, rank := 0, refusals := 0
      key := key, dirty := none, origin := .migration m.id }
  modMigration { fresh s with hwrites := s.hwrites ++ [w] } m.id (fun x => { x with
    got := x.got ||| BitVec.twoPow 32 blk, writes := x.writes + 1
    mirrored := x.mirrored || decide (look m.reads blk 0 % 4 = 2) })

/-- CAP_READ_RETURN (R68 step 4, R385): a bad read, or one that returns poison, is retried, then read from the mirror. -/
def execCapReadReturn (i blk : Nat) (bad : Bool) (s : State) : Outcome :=
  match migrationOf s i with
  | none => .next s
  | some m =>
    if m.phase ≠ 1 ∨ m.dead ∨ 32 ≤ blk ∨ m.got.getLsbD blk then .next s
    else if (keyOf s m.ctx).isNone then
      if runs s m.ctx then
        .next (modMigration (raiseSeq s 24 m.die m.core m.thr m.pc (pageDetail m.vpn (startKind s (migrationStart m) m.vpn))) i (fun m => { m with dead := true }))
      else .next s
    else if bad || (List.range 4).any (fun k => poisoned s (capAt (readFromPage m blk) blk + 32 * k)) then .next (badRead s m blk)
    else .next (goodRead s m blk)

/-- CAP_READ_TIMEOUT (R385): a read without completion after 2^24 cycles is bad. -/
def execCapReadTimeout (i blk : Nat) (s : State) : Outcome :=
  match migrationOf s i with
  | none => .next s
  | some m =>
    if m.phase ≠ 1 ∨ m.dead ∨ 32 ≤ blk ∨ m.got.getLsbD blk ∨ s.cycle < look m.reads blk 0 / 4 + 2 ^ 24 then .next s
    else .next (badRead s m blk)

/-- The global entry of a page as kind 2 or 3 at a new place, with everything else kept and B clear. -/
def moveEntry (e : DWord) (kind page : Nat) : DWord :=
  BitVec.ofNat 64 (kind + e.toNat % 2 ^ 12 / 4 * 4 - bnat (entB e) * 2 ^ 7 + page * 2 ^ 20)

/-- The reads of parked bundles on a page that are not out are dropped when its wait ends. -/
def dropReaders (s : State) (ctx vpn : Nat) : State :=
  if runs s ctx then
    { s with cores := s.cores.map (fun e => (e.1, modC e.2 (fun y =>
        { y with readers := y.readers.filter (fun r => r.issued || decide (r.vpn ≠ vpn)) }))) }
  else s

/-- Step 6 of R68. -/
def finishMigration (s : State) (m : Migration) : State :=
  let s1 := modEntry s m.ctx m.vpn (fun e => moveEntry e 2 m.page)
  let s2 := writeVirt s1 m.ctx m.slot (leBytes 8 (slotWord false false m.capPage))
  let s3 := modMarker s2 m.page (fun k => { k with offered := false })
  let s4 := sendInvals s3 m.ctx m.vpn (List.range (coreCount s)) none ⟨m.die, m.core, m.thr, m.pc⟩
  let s5 := recordMigrate { s4 with migrations := s4.migrations.filter (fun x => x.id != m.id) } m.core m.thr m.pc m.vpn 1
  checkReady (moveMonitors (releasePage (dropReaders s5 m.ctx m.vpn) m.ctx m.vpn))

/-- MIGRATION_COMPLETE (R68 steps 6 and 7); a migration that was given up ends here once its last write has left the lane (R69). -/
def execMigrationComplete (i : Nat) (s : State) : Outcome :=
  match migrationOf s i with
  | none => .next s
  | some m =>
    if m.phase = 1 ∧ !m.dead ∧ m.got = BitVec.allOnes 32 ∧ m.writes = 0 then .next (finishMigration s m)
    else if 2 ≤ m.phase ∧ m.phase ≠ 6 ∧ !writesOut s m then .next (endGiveUp s m true m.phase)
    else .next s

/-! ## The deadline path (R69, R387) -/

/-- Whether a word is a plain load or gather, so that it may take the deadline path. -/
def strongWord (i : Instr) : Bool :=
  (queueUse i).isSome || (match i with
    | .ldAcqB32 _ _ _ _ | .ldAcqB64 _ _ _ _ => true
    | .monWaitEq _ _ _ _ _ | .monWaitNe _ _ _ _ _ | .monWaitGez _ _ _ _ _ | .arriveWait _ _ _ _ _ => true
    | _ => false)

/-- Whether a store, atomic or strong access waits on a page, from any die: a parked thread's, a queued request's, or one of a Mast, an
engine or the scheduler that the migration has noted. -/
def strongWaits (s : State) (ctx vpn : Nat) : Bool :=
  s.migrations.any (fun m => decide (m.ctx = ctx ∧ m.vpn = vpn) && m.strong) ||
  s.cores.any (fun e =>
    e.2.c.lfs.any (fun x => x.2.threads.any (fun t => t.2.live && t.2.wait.any (onPage vpn) && decide (pcPos t.2.pc ≠ 0) &&
      (match peekWord s e.1 ctx (pcAddr t.2.pc) with
       | some w => (match decodeWord w with | .ok i => strongWord i | .error _ => false)
       | none => false))) ||
    e.2.reqs.any (fun r => r.ent.isNone && r.strong && (match r.space with
      | .virt d va => decide (d = ctx ∧ va / 4096 % 2 ^ 36 = vpn)
      | _ => false)))

/-- The threads of a parked bundle, with their direct read out, wait apart from the page's other waiters. -/
def markReader (f : LaneFrame) (r : Reader) : LaneFrame :=
  modThreads f r.op.lanes (fun _ t =>
    match t.wait with
    | some (.migration p n) => if p = r.vpn then { t with wait := some (.migration (p + 2 ^ 36) n) } else t
    | _ => t)

def modReader (s : State) (c op : Nat) (f : Reader → Reader) : State :=
  modCore s c (fun k => modC k (fun y => { y with readers := y.readers.map (fun r => if r.op.op = op then f r else r) }))

/-- The cycle at which a parked bundle's threads parked. -/
def parkedSince (f : LaneFrame) (r : Reader) : Option Nat :=
  match (thread f (lowest r.op.lanes)).wait with
  | some (.migration p n) => if p = r.vpn then some n else none
  | _ => none

/-- A deadline that has passed on a page of the capacity tier: the direct read goes out to it. A migration that has no slot yet is given up
(R387); one that this bundle began is given up unless a write or strong access waits (R69). -/
def passDeadline (s : State) (c l : Nat) (r : Reader) (page : Nat) : State :=
  let ctx := ctxId s
  let s1 := recordMigrate (modReader (modLF s c l (fun f => markReader f r)) c r.op.op (fun r => { r with issued := true, capPage := page })) c
    (thrField l (lowest r.op.lanes)) r.op.pc r.vpn 2
  match s.migrations.find? (fun m => decide (m.ctx = ctx ∧ m.vpn = r.vpn)) with
  | none => s1
  | some m =>
    if (m.phase = 0 ∧ !m.dead) ∨
        (m.core = c ∧ m.pc = r.op.pc ∧ m.thr = thrField l (lowest r.op.lanes) ∧ !strongWaits s1 ctx r.vpn) then
      giveUp s1 m 2
    else s1

/-- MIGRATION_DEADLINE (R69): DL × 256 cycles after the park of a load of a hint-5 page that is still kind 3. -/
def execMigrationDeadline (c l : Nat) (s : State) : Outcome :=
  match laneFrame s c l, (core s c).c.readers.find? (fun r => decide (r.op.lf = l) && !r.issued) with
  | some f, some r =>
    match parkedSince f r, walk s (ctxId s) r.vpn with
    | some n, .entry e _ =>
      let dl := bits (core s c).ctdl.toNat 7 0
      if entKind e = 3 ∧ entHint e = 5 ∧ dl ≠ 0 ∧ n + 256 * dl ≤ s.cycle ∧ s.stop.isNone then .next (passDeadline s c l r (entPage e))
      else .next s
    | _, _ => .next s
  | _, _ => .next s

/-- The capacity-tier page from which the fault unit reads a byte of a parked load: as the read of its block went out, the reader's own page,
or that of another page of the load which lies there too. -/
def directCap (s : State) (r : Reader) (ctx va : Nat) : Option Nat :=
  match lookup r.reads (va / 128) with
  | some x => some (x / 4)
  | none =>
    if va / 4096 % 2 ^ 36 = r.vpn then some r.capPage
    else match walk s ctx (va / 4096 % 2 ^ 36) with
      | .entry e _ => if entKind e = 3 then some (entPage e) else none
      | _ => none

/-- Where the fault unit reads a byte of a parked load: in the capacity tier, or where the byte's own page lies (R69). None where a page has
gone. -/
def directPlace (s : State) (r : Reader) (x : Space) : Option Nat :=
  match x with
  | .virt ctx va =>
    match directCap s r ctx va with
    | some p => some (Config.capBase + p * 4096 + va % 4096)
    | none => match walk s ctx (va / 4096 % 2 ^ 36) with
      | .entry e _ => if entKind e = 2 then some (homeByte s (entPage e) (va % 4096)) else none
      | _ => none
  | .scr n => some n
  | .host _ _ => none

/-- The bytes of a parked load: each lane's index and place. -/
def directBytes (r : Reader) : List (Nat × Space) :=
  r.op.addrs.flatMap (fun e => (List.range r.op.width).map (fun i => (e.1 * 16 + i, e.2.plus i)))

/-- Whether every byte of a direct read has a place. -/
def directAll (s : State) (r : Reader) : Bool := (directBytes r).all (fun e => (lookup r.op.got e.1).isSome || (directPlace s r e.2).isSome)

/-- The 128-byte blocks of the address space that a direct read has still to read. -/
def directLeft (r : Reader) : List Nat :=
  ((directBytes r).filterMap (fun e => match e.2 with
    | .virt _ va => if (lookup r.op.got e.1).isSome then none else some (va / 128)
    | _ => none)).dedup.mergeSort

/-- Whether the data of a block of a direct read are poisoned where they lie. -/
def directPoison (s : State) (r : Reader) (blk : Nat) : Bool :=
  (directBytes r).any (fun e => match e.2 with
    | .virt _ va => decide (va / 128 = blk) && (match directPlace s r e.2 with | some n => poisoned s n | none => false)
    | _ => false)

/-- A good block of a direct read: its bytes arrive. -/
def goodDirect (s : State) (r : Reader) (blk : Nat) : Reader :=
  let here := (directBytes r).filter (fun e => match e.2 with | .virt _ va => decide (va / 128 = blk) | _ => false)
  { r with op := { r.op with got := here.foldl (fun t e =>
      match directPlace s r e.2 with | some n => put t e.1 (byteUnder s (keyNow s (ctxId s)) n) | none => t) r.op.got } }

/-- Whether an atomic of the core that is not yet performed overlaps a parked load: its direct read waits (R62). -/
def readerHeld (s : State) (c : Nat) (r : Reader) : Bool :=
  (core s c).reqs.any (fun q => match q.act with
    | .atomic _ _ _ w => r.op.addrs.any (fun e => placesMeet 1 e.2 r.op.width q.space w)
    | _ => false)

/-- The word after the one at an image, by the COUNT of the header that governs its clause (R137). -/
def imageAfter (hdrWord : Word) (pc : DWord) : DWord :=
  let hdr := regionAdd (pcAddr pc) (-4 * (pcPos pc : Int))
  if (Header.ofWord hdrWord).count.toNat ≤ pcPos pc then pcImage 0 (wordAddr hdr (pcPos pc + 1))
  else pcImage (pcPos pc + 1) (wordAddr hdr (pcPos pc + 1))

/-- The byte that a lane of a parked load receives: the core's own newest store over it, else what was read (R62). -/
def directByte (s : State) (c : Nat) (r : Reader) (e : Nat × Space) : Byte :=
  let own := match e.2 with | .virt ctx va => queueByte s c ctx va s.ops | _ => none
  own.getD (match lookup r.op.got e.1 with
    | some b => b
    | none => match directPlace s r e.2 with | some n => byteUnder s (keyNow s (ctxId s)) n | none => 0)

/-- The reader's threads unpark with the load's results in place, past the load (R69). -/
def serveReader (s : State) (c : Nat) (r : Reader) : State :=
  match laneFrame s c r.op.lf with
  | none => s
  | some f =>
    let o := { r.op with
      op := s.ops
      got := (directBytes r).map (fun e => (e.1, directByte s c r e)) }
    let k := slotsOf o.width
    let u : Iss := ⟨c, o.lf, f, ⟨regionAdd (pcAddr o.pc) (-4 * (pcPos o.pc : Int)), 0, pcPos o.pc, o.lanes, [], 0, 0, false⟩⟩
    let s1 := undoShifts (fresh s) u k
    let s2 := modLF s1 c o.lf (fun f => pend f o.lanes o.op k o.reg true o.pc)
    let s3 := deliverTo s2 c o.lf o.op ((lanesOf o.lanes).map (fun i => (i, laneWords o i)))
    let next := imageAfter r.hdr o.pc
    let s4 := modLF s3 c o.lf (fun f => modThreads f o.lanes (fun _ t => { t with pc := next }))
    let s5 := (partsOf (laneBytes o.addrs o.width (fun _ => []))).foldl (fun s p =>
      recordAccess s c 3 (thrField o.lf (lowest p.lanes)) o.pc (grainAddr p.space.key p.mask) 2 (grainOf p.mask)) s4
    let s6 := modCore s5 c (fun k => modC k (fun y => { y with readers := y.readers.filter (fun x => x.op.op != r.op.op) }))
    arriveAt (wakeLanes s6 c o.lf o.lanes 1) c o.lf o.lanes

/-- The bundle's wait on its page joins the other waiters' again, and its read is over. -/
def endReader (s : State) (c : Nat) (r : Reader) : State :=
  let s1 := modCore s c (fun x => modC x (fun y => { y with readers := y.readers.filter (fun x => x.op.op != r.op.op) }))
  modLF s1 c r.op.lf (fun f => modThreads f r.op.lanes (fun _ t =>
    match t.wait with | some (.migration _ n) => { t with wait := some (.migration r.vpn n) } | _ => t))

/-- A bad read of a block (R385, R387): it is issued once more, then the mirror's copy is read, then the page is poisoned and its readers take
kind 17. -/
def badDirect (s : State) (c : Nat) (r : Reader) (blk : Nat) : State :=
  let vpn := blk / 32 % 2 ^ 36
  let ctx := ctxId s
  let page := match directCap s r ctx (128 * blk) with | some p => p | none => r.capPage
  let again (k p : Nat) : State := modReader s c r.op.op (fun r => { r with reads := put r.reads blk (k + 4 * p) })
  match look r.reads blk 0 % 4, mirrorOf s ctx page with
  | 0, _ => again 1 page
  | 1, some p => again 2 p
  | k, _ =>
    let own := match walk s ctx vpn with | .entry e _ => if entKind e = 3 then entPage e else page | _ => page
    poisonPage (endReader s c r) ctx vpn own (decide (k = 2)) (s.migrations.find? (fun m => decide (m.ctx = ctx ∧ m.vpn = vpn)))
      (fun w => onPage vpn w || onPage r.vpn w) ⟨dieOf c, c, thrField r.op.lf (lowest r.op.lanes), r.op.pc⟩

/-- The reads of a bundle's blocks return (R385): good blocks arrive; of the bad ones the first goes on. `bad` marks an error completion of
the first. With every block there, the load is delivered. -/
def takeDirect (s : State) (c : Nat) (r : Reader) (bad : Bool) : State :=
  let left := directLeft r
  let isBad (b : Nat) : Bool := directPoison s r b || (bad && left.head? == some b)
  let r1 := (left.filter (fun b => !isBad b)).foldl (goodDirect s) r
  let s1 := modReader s c r.op.op (fun _ => r1)
  match left.find? isBad with
  | some b => badDirect s1 c r1 b
  | none => serveReader s1 c r1

/-- DIRECT_READ_RETURN (R69, R387). -/
def execDirectReadReturn (c op : Nat) (bad : Bool) (s : State) : Outcome :=
  match (core s c).c.readers.find? (fun r => decide (r.op.op = op) && r.issued) with
  | none => .next s
  | some r =>
    if s.stop.isSome || readerHeld s c r then .next s
    else if (keyOf s (ctxId s)).isNone then
      .next (raiseParked s ⟨24, c, r.op.lf, 5, thrField r.op.lf (lowest r.op.lanes), r.op.pc, pageDetail r.vpn 0, none⟩ r.op.lanes)
    else if !directAll s r then
      -- another page of the load has gone: the threads repeat the access and meet that
      .next (wakeLanes (modCore s c (fun k => modC k (fun y => { y with readers := y.readers.filter (fun x => x.op.op != op) })))
        c r.op.lf r.op.lanes 1)
    else .next (takeDirect s c r bad)

/-! ## Page-attribute requests (R70, R224, R225) -/

/-- The frames that hold an HBM page. -/
def framesOf (s : State) (page : Nat) : List Nat := (marker s page).frame.toList ++ (marker s page).replicas.map (fun e => e.2)

/-- Whether frames can be emptied now. -/
def freeNow (s : State) (ks : List Nat) : Bool := ks.all (fun k => available s k)

/-- A page released from a frame: its write-back is made (R48, R288). The invalidations of R47 go out at once. -/
def dropFrame (s : State) (q : PageReq) (k : Nat) : State :=
  let f := frame s k
  let o := owed s k
  let s1 := recordRemap (releaseFrame (clearSlot s (keyDie k) f.ctx f.vpn k) k) q.core (thrField q.lf q.lane) q.pc k 2
  o.foldl (fun s o => (holderDies o.1 o.2.1).foldl (fun s d => clearSlot s d o.2.2.1 o.2.2.2 o.1) s) (setBusyFrame s1 k false)

/-- Step 1 of R224: B is set on a page that is not busy, its frames are held and their write-backs queued. -/
def beginPage (s : State) (q : PageReq) (e : DWord) : State :=
  let s1 := modPageReq (setEntryB s q.ctx q.vpn true) q.id (fun q => { q with step := 1, since := s.cycle, fired := false })
  if entKind e = 2 then
    let page := entPage e
    let s2 := markBusy s1 q.ctx q.vpn page q.id true
    (framesOf s page).foldl (fun t k =>
      let t1 := setBusyFrame t k true
      if frameDirty s k then
        modPageReq (pageWrites t1 page (frameAt k) (keyNow t1 q.ctx) (some q.core) (.pageReq q.id)) q.id
          (fun q => { q with writes := q.writes + 32 })
      else t1) s2
  else s1

/-- The monitors of words on a page fire (R402). -/
def firePage (s : State) (ctx vpn : Nat) : State :=
  (s.monitors.filter (fun m => match m.loc with
    | .virt d va => decide (d = ctx ∧ va / 4096 % 2 ^ 36 = vpn)
    | .store _ => false)).foldl fireMonitor s

/-- Whether a request moves its kind 2 page to the capacity tier (R224). -/
def demotes (q : PageReq) (e : DWord) : Bool := !q.hint && q.ctl.getLsbD 5 && decide (entKind e = 2)

/-- Step 2 of R224: the frames are released and every core gets an invalidation of the page (entry 15); a demotion fires the page's
monitors (R402). -/
def evictPage (s : State) (q : PageReq) (e : DWord) : State :=
  let s1 :=
    if entKind e = 2 then
      modMarker ((framesOf s (entPage e)).foldl (fun t k => dropFrame (breakReserve t (frameAt k) 4096) q k) s) (entPage e)
        (fun m => { m with frame := none, replicas := [] })
    else s
  modPageReq (sendInvals (if demotes q e then firePage s1 q.ctx q.vpn else moveMonitors s1) q.ctx q.vpn (List.range (coreCount s)) (some q.id)
    ⟨dieOf q.core, q.core, thrField q.lf q.lane, q.pc⟩) q.id (fun q => { q with step := 3 })

/-- The attributes of a global entry after step 3 of R224. -/
def newAttrs (q : PageReq) (e : DWord) : DWord :=
  if q.hint then BitVec.ofNat 64 (e.toNat - entHint e * 256 + bits q.ctl.toNat 2 0 * 256)
  else BitVec.ofNat 64 (e.toNat - e.toNat % 64 + entKind e + bits q.ctl.toNat 3 2 * 4 + bnat (q.ctl.getLsbD 1) * 16 +
    bnat (q.ctl.getLsbD 4) * 32)

/-- A lane's request has done its last page: its count is delivered and its flag clears (R224, R207). -/
def endPageReq (s : State) (q : PageReq) : State :=
  let s1 := modCore s q.core (fun k => modC k (fun y => { y with pageReqs := y.pageReqs.filter (fun x => x.id != q.id) }))
  match opOf s1 q.core q.op with
  | none => s1
  | some o =>
    let m : LaneMask := BitVec.twoPow 32 q.lane
    let s2 := finishFlags (deliverTo s1 q.core q.lf q.op [(q.lane, [BitVec.ofNat 32 q.changed])]) q.core q.lf m o.flag
    let rest := o.lanes &&& ~~~m
    if rest = 0 then dropOp s2 q.core q.op else modOp s2 q.core q.op (fun o => { o with lanes := rest })

/-- The request goes on to its next page. -/
def nextPage (s : State) (q : PageReq) (changed : Bool) : State :=
  let q1 := { q with
    vpn := regionAdd (q.vpn * 4096) 4096 / 4096, left := q.left - 1, changed := q.changed + bnat changed, step := 0
    came := s.cycle, fired := false }
  if q1.left = 0 then endPageReq s q1 else modPageReq s q.id (fun _ => q1)

/-- Step 5 of R224: B clears; a hint of 4 on a kind 3 page starts its move to HBM. -/
def endPage (s : State) (q : PageReq) (e : DWord) : State :=
  let s1 := if entKind e = 2 then markBusy s q.ctx q.vpn (entPage e) q.id false else s
  let s2 := nextPage (releasePage s1 q.ctx q.vpn) q true
  if q.hint ∧ entKind e = 3 ∧ bits q.ctl.toNat 2 0 = 4 then beginMigration s2 q.core q.ctx q.vpn (thrField q.lf q.lane) q.pc else checkReady s2

/-- Whether an invalidation of a request is still to be acknowledged (R379). -/
def acksOut (s : State) (q : PageReq) : Bool := s.invals.any (fun v => v.forReq = some q.id)

/-- The step of a request that a stop has met at a step; B stays as that step has it. -/
def stoppedStep (k : Nat) : Nat := k + 4

/-- A stop that a request meets: it goes no further, and its flag stays busy. DESIGN CHOICE (entry 75): R362 names no access kind for
a page-attribute word; DETAIL gives 1, since the word changes the page's entry. -/
def failPageReq (s : State) (q : PageReq) (kind : Nat) : State :=
  modPageReq (raise s ⟨kind, q.core, q.lf, 5, thrField q.lf q.lane, q.pc, pageDetail q.vpn 1, none⟩) q.id (fun q => { q with step := stoppedStep q.step })

/-- Whether another request reached the page first (R225): an earlier fabric cycle, or the same one and a lower core. -/
def cameFirst (s : State) (q : PageReq) : Bool :=
  let key (x : PageReq) : Nat := (x.came * 2 / 3) * 1024 + x.core
  (pageReqs s).any (fun x => decide (x.ctx = q.ctx ∧ x.vpn = q.vpn ∧ x.id ≠ q.id ∧ x.step < 4) &&
    (decide (key x < key q) || (decide (key x = key q) && decide (x.id < q.id))))

/-- One step of a request at its page: to begin (0), evicting (1), copying down (2), waiting for acknowledgements (3); from 4
on it has stopped at one of these steps (4 to 7) or was abandoned (9). A stop lets none begin (R358). DESIGN CHOICE (entry 74): R55 keeps a hint-4 page in
HBM and R224 demotes each kind 2 page; PGSET DEMOTE of a hint-4 page copies it down, and it stays there. -/
def stepPage (s : State) (q : PageReq) (e : DWord) : State :=
  match q.step with
  | 0 =>
    if entM e then failPageReq s q 7
    else if s.stop.isSome || cameFirst s q then s
    else if entB e || (entKind e = 2 && (markerBusy s (entPage e) || (marker s (entPage e)).offered)) then s
    else if decide (q.writes ≠ 0) || (entKind e = 2 && !freeNow s (framesOf s (entPage e))) then s
    else if entKind e = 2 && (framesOf s (entPage e)).any (frameDirty s) && (keyOf s q.ctx).isNone then failPageReq s q 24
    else beginPage s q e
  | 1 => if q.writes = 0 ∧ (framesOf s (entPage e)).all (fun k => !tooSoon s (frame s k) && (frame s k).holds.isEmpty) ∨ entKind e ≠ 2
      then evictPage s q e else s
  | 3 =>
    if acksOut s q || entryPending s q.ctx q.vpn || (s.stop.isSome && q.hint && decide (entKind e = 3)) then s
    else
      let s1 := modEntry s q.ctx q.vpn (newAttrs q)
      if demotes q e then modPageReq s1 q.id (fun q => { q with step := 2 })
      else endPage s1 q e
  | _ => s

/-- PAGE_ATTR_PAGE (R224): a page-attribute request does the next thing it can at its page; absent pages are skipped. -/
def execPageAttrPage (i : Nat) (s : State) : Outcome :=
  match pageReqOf s i with
  | none => .next s
  | some q =>
    if !runs s q.ctx ∨ 4 ≤ q.step then .next s
    else match walk s q.ctx q.vpn with
      | .absent => .next (nextPage s q false)
      | .bad k => .next (failPageReq s q k)
      | .entry e _ => .next (stepPage s q e)

/-- The page copied to the capacity tier and its entry rewritten as kind 3 (R224 step 4). DESIGN CHOICE (entry 99): on a part whose CAPTIER is
0, PGSET with DEMOTE is one that R374 gives no trap and R224 no outcome of its own; the page is copied to the capacity tier's storage and
its entry rewritten all the same. -/
def demote (s : State) (q : PageReq) (e : DWord) : State :=
  let src := entPage e * 4096
  let dst := capAt q.capNext 0
  let key := keyNow s q.ctx
  let units := (List.range 128).filter (fun k => spoiled s (src + 32 * k))
  let s1 := storeUnder (moveUnits s (entPage e) (8 * (32 - q.reads))) key dst (byteTable (readUnder s key src 4096))
  let s2 := { s1 with
    poison := s1.poison.filter (fun u => !(decide (dst / 32 ≤ u) && decide (u < dst / 32 + 128))) ++ units.map (fun k => dst / 32 + k) }
  let s3 := markBusy s2 q.ctx q.vpn (entPage e) q.id false
  let s4 := modEntry s3 q.ctx q.vpn (fun x => moveEntry x 3 q.capNext)
  moveMonitors (nextPage (releasePage s4 q.ctx q.vpn) { q with capNext := (q.capNext + 1) % 2 ^ 32, reads := 0 } true)

/-- The reads of a demotion's copy that the page's pseudo-channel takes in this window (R66). -/
def copySome (s : State) (q : PageReq) (page : Nat) : State :=
  modPageReq (moveUnits s page (8 * blocksOpen s page)) q.id (fun q => { q with reads := q.reads + blocksOpen s page })

/-- DEMOTION_COMPLETE (R70, R224): once no write of the page is on its way and no access uses its HBM page. -/
def execDemotionComplete (i : Nat) (s : State) : Outcome :=
  match pageReqOf s i with
  | none => .next s
  | some q =>
    match walk s q.ctx q.vpn with
    | .entry e _ =>
      if q.step ≠ 2 ∨ entKind e ≠ 2 ∨ !runs s q.ctx ∨ s.hwrites.any (fun w => decide (w.page = entPage e)) ∨
          (List.range (coreCount s)).any (fun c => usesPage s c q.ctx q.vpn) then .next s
      else if (keyOf s q.ctx).isNone then .next (failPageReq s q 24)
      else if blocksOpen s (entPage e) < 32 - q.reads then .next (copySome s q (entPage e))
      else .next (demote s q e)
    | _ => .next s

/-! ## The busy watchdog and abandonment (R382) -/

def seqOf (s : State) (i : Nat) : Option Seq := s.seqs.find? (fun q => q.id = i)

/-- The watchdog's time. -/
def watchTime : Nat := 2 ^ 22

/-- BUSY_WATCHDOG_EXPIRY: a sequence that has held B for 2^22 cycles raises kind 21, or kind 22 with cause 3 when it waits for a
pool slot. -/
def execBusyWatchdogExpiry (i : Nat) (s : State) : Outcome :=
  match seqOf s i, migrationOf s i, pageReqOf s i with
  | some q, _, _ =>
    if q.fired ∨ s.cycle < q.start + watchTime ∨ !runs s q.ctx then .next s
    else .next (raiseSeq { s with seqs := s.seqs.map (fun x => if x.id = i then { x with fired := true } else x) } 21 (keyDie q.dst)
      q.core q.thr q.pc (pageDetail q.vpn 0))
  | none, some m, _ =>
    if m.fired ∨ s.cycle < m.start + watchTime ∨ !runs s m.ctx then .next s
    else
      let s1 := modMigration s i (fun m => { m with fired := true })
      if m.phase = 0 ∧ !m.dead then
        .next (raiseSeq s1 22 m.die m.core m.thr m.pc ((match poolOf s m.ctx with | some p => p.head | none => 0) + 3 * 2 ^ 32))
      else .next (raiseSeq s1 21 m.die m.core m.thr m.pc (pageDetail m.vpn 1))
  | none, none, some q =>
    if q.fired ∨ q.step = 0 ∨ q.step = 4 ∨ q.step = 9 ∨ s.cycle < q.since + watchTime ∨ !runs s q.ctx then .next s
    else .next (raise (modPageReq s i (fun q => { q with fired := true }))
      ⟨21, q.core, q.lf, 5, thrField q.lf q.lane, q.pc, pageDetail q.vpn (if q.step = 2 ∨ q.step = 6 then 3 else 2), none⟩)
  | none, none, none => .next s

/-- Whether a placement sequence holds B on a page. -/
def seqHolds (ctx vpn : Nat) (q : Seq) : Bool :=
  (decide (q.kind ≠ .eviction) && decide (q.ctx = ctx ∧ q.vpn = vpn)) ||
  (match q.victim with
   | some v => decide (v.page.ctx = ctx ∧ v.page.vpn = vpn) || (match v.out with | some o => decide (o.ctx = ctx ∧ o.vpn = vpn) | none => false)
   | none => false)

/-- The page that a chosen frame held leaves the chip when its fill or promotion is abandoned (R382: the destination frame is released): a
dirty one that was to move to a slice is written back instead. DESIGN CHOICE (entry 100): R382 does not say where it goes. -/
def dropVictim (s : State) (q : Seq) (v : Victim) : State :=
  let s1 := if v.take.isSome && v.page.dirty then
      pageWrites s v.page.backing (frameAt q.dst) (keyNow s v.page.ctx) q.charge .none
    else s
  moveMarker (clearSlot s1 (keyDie q.dst) v.page.ctx v.page.vpn q.dst) v.page.backing v.page.w (keyDie q.dst) none

/-- A fill, promotion or eviction abandoned (R382): the destination frame of a fill or promotion is released, the page keeps its old place,
and B clears; an eviction leaves its frame as it was. One whose frames are remapped already is completed (entry 17). -/
def abandonSeq (s : State) (q : Seq) : State :=
  if q.remapped then moveMonitors (completeSeq s q)
  else
    let s0 := if q.kind = .eviction then s
      else
        let o := owed s q.dst
        let s1 := recordRemap (releaseFrame (match q.victim with | some v => dropVictim s q v | none => s) q.dst) q.core q.thr q.pc q.dst 2
        o.foldl (fun t x => sendOwed t x (seqStart q)) (breakReserve s1 (frameAt q.dst) 4096)
    let s1 := markPages s0 q false
    let s2 := (seqFrames q ++ q.src.toList).foldl (fun t k => setBusyFrame t k false) s1
    moveMonitors { s2 with seqs := s2.seqs.filter (fun x => x.id != q.id) }

/-- A page-attribute request abandoned: its page keeps what it has, and its flag stays busy (R382). -/
def abandonPageReq (s : State) (q : PageReq) : State :=
  let s1 := match walk s q.ctx q.vpn with
    | .entry e _ =>
      if entKind e = 2 then markBusy ((framesOf s (entPage e)).foldl (fun t k => setBusyFrame t k false) s) q.ctx q.vpn (entPage e) q.id false
      else s
    | _ => s
  wakePage (modPageReq s1 q.id (fun q => { q with step := 9 })) q.ctx q.vpn

/-- The sequence that holds B on a page abandoned, if there is one (mailbox command 0x1F). -/
def abandonBusy (s : State) (ctx vpn : Nat) : Option State :=
  match s.migrations.find? (fun m => decide (m.ctx = ctx ∧ m.vpn = vpn)) with
  | some m => some (giveUp (dropReaders s ctx vpn) m 5)
  | none =>
    match (pageReqs s).find? (fun q => decide (q.ctx = ctx ∧ q.vpn = vpn ∧ q.step ≠ 0 ∧ q.step ≠ 4 ∧ q.step ≠ 9)) with
    | some q => some (abandonPageReq s q)
    | none => (s.seqs.find? (seqHolds ctx vpn)).map (abandonSeq s)

end Sys2Proof.Machine
end

