-- ==== Sys2Proof/Machine/Engine.lean ====
section
/-!
DEFINITION. Machine/Engine.lean: what the matrix unit, the Grove engine, the copy engine and the collective engine share: the
matrix queue (R229, R230), cross-path fences that hold engine work (R88), engine reads and writes of memory (R232, R233), engine
faults (R409, R410), and an entry's end (R231).
-/
namespace Sys2Proof.Machine

/-- The bundle that commands an engine operation, with the engine's code (R360) and path. -/
structure Cmd where
  c : Nat
  wg : Nat
  lf : Nat
  lanes : LaneMask
  pc : DWord
  engine : Nat
  path : Path
  id : Nat
deriving DecidableEq, Repr

/-! ## Cross-path fences (R88) -/

/-- Whether a cross-path fence issued before an operation still holds a path of its workgroup. -/
def xHeld (s : State) (u : Cmd) : Bool :=
  (core s u.c).c.xholds.any (fun h =>
    decide (h.wg = u.wg ∧ h.later = u.path ∧ h.id < u.id) && !xReady s u.c h.wg h.earlier h.id h.scope)

/-- The fences of a core whose earlier path is finished are done with; one that waits for flushing reads sends them. -/
def dropFences (s : State) (c : Nat) : State :=
  modCore ((core s c).c.xholds.foldl (fun t h => xFlush t c h.wg h.earlier h.id h.scope) s) c (fun k => modC k (fun y =>
    { y with xholds := y.xholds.filter (fun h => !xReady s c h.wg h.earlier h.id h.scope) }))

/-- Whether an engine of a core stands still: no context runs, a switch has begun, or a stop has reached the core (R308, R358). -/
def engineHeld (s : State) (c : Nat) : Bool := coreHeld s c

/-! ## Faults found by an engine (R233, R410) -/

/-- A stop raised by an engine, naming the commanding bundle. -/
def raiseCmd (s : State) (u : Cmd) (kind detail : Nat) : State :=
  raise s ⟨kind, u.c, u.lf, u.engine, thrField u.lf (lowest u.lanes), u.pc, detail, none⟩

/-- MMXERR (R409): the first engine-raised fault of kind 10, 13, 14 or 25 of a core in a stop; its cause is DETAIL's bits 37:32. -/
def noteError (s : State) (c kind detail unit index record lane : Nat) : State :=
  if kind = 10 ∨ kind = 13 ∨ kind = 14 ∨ kind = 25 then
    modCore s c (fun k => if k.mmxerr.getLsbD 63 then k else { k with
      mmxerr := BitVec.ofNat 64 (2 ^ 63 + unit % 4 * 2 ^ 61 + bits detail 37 32 * 2 ^ 48 + index % 65536 * 2 ^ 32 + record % 32 * 2 ^ 24 + lane % 32) })
  else s

/-- What an engine's access to memory finds: it waits, a stop kind, or the bytes. -/
inductive Got where
  | wait
  | fail (kind : Nat)
  | bytes (l : List Byte)
deriving DecidableEq, Repr

/-- Whether an atomic of the core that is not yet performed overlaps a range (R62). -/
def atomicOver (s : State) (c ctx va n : Nat) : Bool :=
  (core s c).reqs.any (fun r => match r.act, r.space with
    | .atomic _ _ _ w, .virt d a => decide (d = ctx ∧ a < va + n ∧ va < a + w)
    | _, _ => false)

/-- The storage number from which an engine's read through a translation of kind 1 or 2 is served. -/
def enginePlace (s : State) (va : Nat) (e : DWord) : Nat :=
  if entKind e = 1 then frameAt (entFrame e) + va % 4096
  else if entW e then homeByte s (entPage e) (va % 4096) else entPage e * 4096 + va % 4096

/-- The grain code of a range within one 128-byte block (R60, R348). -/
def rangeGrain (a n : Nat) : Nat :=
  let within (g : Nat) : Bool := decide (a / g = (a + n - 1) / g)
  if within 16 then 0 else if within 32 then 1 else if within 64 then 2 else 3

/-- The record of an engine's read of a range within one block (R348, R351): the thread and the word of its command, at the read's grain. -/
def recordRead (s : State) (u : Cmd) (addr n place : Nat) : State :=
  let g := 16 * 2 ^ rangeGrain addr n
  recordAccess s u.c 3 (thrField u.lf (lowest u.lanes)) u.pc (addr / g * g) place (rangeGrain addr n)

/-- What an engine's read through a translation starts at its home: REF of a frame (R43), a promotion or a fill (R50), the units that a read
of HBM moves (R66), and its record (R348). -/
def engineTouch (s : State) (u : Cmd) (va a n : Nat) (e : DWord) : State :=
  let who : Filler := ⟨some u.wg, false⟩
  let thr := thrField u.lf (lowest u.lanes)
  let s0 := recordRead s u va n (if a < 2 ^ 40 then 1 else 0)
  if entKind e = 1 then
    let s1 := refFrame s0 (entFrame e)
    if promotes u.c e then askPlace s1 u.c (ctxId s) (va / 4096) e who thr u.pc else s1
  else if a < 2 ^ 40 then askPlace (moveUnits s0 (entPage e) ((n + 15) / 16)) u.c (ctxId s) (va / 4096) e who thr u.pc
  else s0

/-- An engine's read of a range within one block through a translation of kind 1 or 2 that passed its checks: the seal check of R43, the
home's wait or error, the bytes with the core's own writes over them. -/
def engineServe (s : State) (u : Cmd) (va n : Nat) (e : DWord) : Got × State :=
  let ctx := ctxId s
  let a := enginePlace s va e
  if atomicOver s u.c ctx va n then (.wait, s)
  else if entKind e = 1 && !sealOk s (entFrame e) ctx (entSeal e) then (.wait, forget s u.c ctx (va / 4096))
  else if entGone s e then (.fail 29, s)
  else if entFenced s u.c e || (entKind e = 2 && ((marker s (entPage e)).offered || !pageOpen s (entPage e))) then (.wait, s)
  else if entKind e = 2 && (keyOf s ctx).isNone then (.fail 24, s)
  else
    let own (i : Nat) : Option Byte := queueByte s u.c ctx (va + i) s.ops
    let s1 := engineTouch s u va a n e
    if (List.range n).any (fun i => (own i).isNone && spoiled s (a + i)) then (.fail 25, s1)
    else (.bytes ((List.range n).map (fun i => (own i).getD (byteUnder s (keyNow s ctx) (a + i)))), s1)

/-- An engine's access to a page in the capacity tier: it waits for the migration, or fails (R68, R374, R385). -/
def engineCap (s : State) (u : Cmd) (vpn : Nat) (strong : Bool) : Got × State :=
  match meetCap s u.c (ctxId s) vpn (thrField u.lf (lowest u.lanes)) u.pc strong with
  | (.poisoned, s1) => (.fail 17, s1)
  | (.bad k, s1) => (.fail k, s1)
  | (.stale, s1) | (.wait, s1) => (.wait, s1)

/-- The bytes of a range within one 128-byte block, read by an engine as a weak load (R232). -/
def engineRead (s : State) (u : Cmd) (va n : Nat) : Got × State :=
  let ctx := ctxId s
  let vpn := va / 4096
  if 2 ^ 48 ≤ va then (.fail 6, s)
  else if fetchWaits s u.c ctx vpn then (.wait, s)
  else match fetchTrans s u.c ctx vpn with
    | (.error k, s1) => (.fail k, s1)
    | (.ok e0, s0) =>
      match resolve s0 u.c ctx vpn e0 with
      | (e, s1) =>
        match reCheck e false with
        | some k => (.fail k, s1)
        | none => if entKind e = 3 then engineCap s1 u vpn false else engineServe s1 u va n e

/-- How many bytes of a range lie in its first 128-byte block. -/
def inBlock (va n : Nat) : Nat := min n (128 - va % 128)

/-- How many bytes of a range lie in its first page. -/
def inPage (va n : Nat) : Nat := min n (4096 - va % 4096)

/-- A range read block by block: the bytes of the blocks before the first that does not deliver, and what that one finds (R233, R394). -/
def engineReadRun (s : State) (u : Cmd) : Nat → Nat → Nat → List Byte × Got × State
  | 0, _, _ => ([], .bytes [], s)
  | fuel + 1, va, n =>
    if n = 0 then ([], .bytes [], s)
    else match engineRead s u va (inBlock va n) with
      | (.bytes l, s1) =>
        match engineReadRun s1 u fuel (va + inBlock va n) (n - inBlock va n) with
        | (t, g, s2) => (l ++ t, g, s2)
      | (g, s1) => ([], g, s1)

/-- A range read as a whole, with the address of the block that decides. What waits is read again whole, so only the waiting block's own
request is made in the meantime. -/
def engineReadAll (s : State) (u : Cmd) (va n : Nat) : Got × Nat × State :=
  match engineReadRun s u (n / 128 + 2) va n with
  | (l, .bytes _, s1) => (.bytes l, va, s1)
  | (l, .wait, _) => (.wait, va + l.length, (engineRead s u (va + l.length) (inBlock (va + l.length) (n - l.length))).2)
  | (l, .fail k, s1) => (.fail k, va + l.length, s1)

/-- DETAIL of an engine's failing access (R362: access kind 3; unit 2 where the capacity tier is absent, R374). -/
def engineDetail (kind va : Nat) : Nat := stopDetail kind (va / 4096) 3

/-- A write of one 128-byte block entered in the core's write queue for an engine (R232); the page is checked first (R233). -/
def engineWrite (s : State) (u : Cmd) (va : Nat) (data : Table Byte) : Got × State :=
  let ctx := ctxId s
  let vpn := va / 4096
  if 2 ^ 48 ≤ va then (.fail 6, s)
  else if fetchWaits s u.c ctx vpn then (.wait, s)
  else match fetchTrans s u.c ctx vpn with
    | (.error k, s1) => (.fail k, s1)
    | (.ok e, s1) =>
      match reCheck e true with
      | some k => (.fail k, s1)
      | none =>
        if entKind e = 3 then engineCap s1 u vpn true
        else if !queueRoom s1 u.c 1 then (.wait, s1)
        else
          let r : Req :=
            { id := 0, op := u.id, lf := u.lf, wg := u.wg, pc := u.pc, lanes := u.lanes, act := .store
              who := [], space := .virt ctx (va / 128 * 128)
              mask := data.foldl (fun m e => m ||| BitVec.twoPow 128 (va % 128 + e.1)) 0
              data := data.map (fun e => (va % 128 + e.1, e.2)), flag := none, ordering := 2, acq := false, rel := none
              path := u.path, engine := some u.id, phase := .queued, ent := none, entAt := 0, left := 0, rejects := 0 }
          (.bytes [], addReq s1 u.c r)

/-- A scratchpad byte of a workgroup written or read by an engine. -/
def scratchBytesAt (s : State) (w : Workgroup) (off n : Nat) : List Byte :=
  (List.range n).map (fun i => Mem.byte s.mem (scratchByte w (off + i)))

/-- Whether a unit that scratchpad bytes lie in is poisoned. -/
def scratchPoison (s : State) (w : Workgroup) (off n : Nat) : Bool :=
  (List.range n).any (fun i => poisoned s (scratchByte w (off + i)))

/-- Whether the writes that an engine entered for an operation are all applied (R89, R231): none waits, and none was lost on the lane (R397). -/
def engineDrained (s : State) (c id : Nat) : Bool :=
  !(core s c).reqs.any (fun r => decide (r.engine = some id)) && !(core s c).unfinished.any (fun e => decide (e.1 = id))

/-- Bytes written in a core's own storage (operand buffer, accumulators, Grove entries) behind `done` bytes that the same operation has
written before them; marks of the units that it has then written whole clear (R414, R416). -/
def writeBehind (s : State) (base done : Nat) (l : List Byte) : State :=
  let k := min done 31
  let s1 := clearMarks s (base - k) (List.range (k + l.length))
  { s1 with mem := Mem.write s1.mem base l }

/-- Bytes written in a core's own storage by one step. -/
def writeLocal (s : State) (base : Nat) (l : List Byte) : State := writeBehind s base 0 l

/-- Whether any unit of a range of a core's own storage is poisoned. -/
def localPoison (s : State) (base n : Nat) : Bool :=
  s.poison.any (fun u => decide (32 * u < base + n) && decide (base < 32 * u + 32))

/-! ## The matrix queue (R229, R230) -/

/-- Things that entries name: records (0 to 31), tiles (100 to 163), Grove tables (200 to 207). -/
def mqNames : MqKind → List Nat
  | .rsvFree r => [r]
  | .mxld r _ => [r]
  | .mma _ o _ _ => [bits o.toNat 4 0, bits o.toNat 9 5, 100 + bits o.toNat 15 10]
  | .accZero t | .accLd t _ _ | .accSt t _ _ | .accFree t => [100 + t]
  | .accRd sel => (sel.map (fun e => 100 + bits e.2.toNat 5 0)).dedup
  | .groveVt ctl _ => [200 + bits ctl.toNat 2 0]
  | .groveSwap t => [200 + t]
  | .groveRd sel => (sel.map (fun e => 200 + bits e.2.toNat 2 0)).dedup
  | .groveRow _ _ _ => (List.range 8).map (fun t => 200 + t)
  | .short => []

/-- Whether an earlier entry of the same workgroup still names a thing that an entry names (R230). -/
def mqBehind (s : State) (c : Nat) (e : MqEntry) : Bool :=
  (core s c).c.mq.any (fun x => decide (x.wg = e.wg ∧ x.id < e.id) && (mqNames x.kind).any (fun n => (mqNames e.kind).contains n))

/-- The path of an entry's memory traffic (R232). -/
def mqPath : MqKind → Path
  | .groveVt _ _ | .groveRow _ _ _ | .groveRd _ | .groveSwap _ => .grove
  | _ => .mx

/-- The commanding bundle of an entry. -/
def mqCmd (c : Nat) (e : MqEntry) : Cmd :=
  ⟨c, e.wg, e.lf, e.lanes, e.pc, (match mqPath e.kind with | .grove => 2 | _ => 1), mqPath e.kind, e.id⟩

/-- A fault that an engine finds in an entry (R410): the entry stops, its flag stays busy, and MMXERR describes it (R409). -/
def mqFault (s : State) (c : Nat) (e : MqEntry) (kind detail unit index record lane : Nat) : State :=
  noteError (modMq (raiseCmd s (mqCmd c e) kind detail) c e.id (fun e => { e with fault := some (kind, detail) }))
    c kind detail unit index record lane

/-- An access of an entry to memory that fails at a page; `record` is the record or table that the entry names. -/
def mqMemFault (s : State) (c : Nat) (e : MqEntry) (kind va record : Nat) : State :=
  mqFault s c e kind (engineDetail kind va) (match mqPath e.kind with | .grove => 3 | _ => 1) 0 record 0

/-- Whether the matrix queue has room (R229). -/
def mqRoom (s : State) (c : Nat) : Bool := decide ((core s c).c.mq.length < 32)

/-- An entry for the issuing bundle; its flag is selected and the bundle goes on. -/
def enqueue (s : State) (u : Iss) (kind : MqKind) (reg : Nat) (flag : Option Nat) : State :=
  let e : MqEntry :=
    { id := s.ops, lf := u.l, wg := u.f.wg, pc := u.pc, lanes := u.cl.lanes, reg := reg, flag := flag, kind := kind
      started := false, finished := false, progress := 0, group := 0, fault := none, exps := none, list := none, acc := 0
      cycle := s.cycle, hdr := u.cl.hdr }
  let s1 := modCore (fresh s) u.c (fun k => modC k (fun y => { y with mq := y.mq ++ [e] }))
  modLF s1 u.c u.l (fun f => selectFlags f u.cl.lanes flag u.pc)

/-- A workgroup-level word of the matrix queue: its first operand from the lowest present lane (R26), then its effect. -/
def mqWord (s : State) (a : Src) (g : Iss → Word → State) : Outcome :=
  match issuing s with
  | none => .next (hold s)
  | some u =>
    match read32 u a u.low with
    | none => .next (hold s)
    | some x => if mqRoom s u.c then .next (g u x) else .next (hold s)

/-- The same with a 64-bit first operand and a 32-bit second one. -/
def mqWord64 (s : State) (b : BitVec 5) (a : Src) (g : Iss → DWord → Word → State) : Outcome :=
  match issuing s with
  | none => .next (hold s)
  | some u =>
    match read64 u a u.low, readSC u b u.low with
    | some x, some y => if mqRoom s u.c then .next (g u x y) else .next (hold s)
    | _, _ => .next (hold s)

/-- A matrix-queue kind's trap with the first operand and a cause in DETAIL (R362, R406). -/
def causeTrap (s : State) (u : Iss) (kind operand cause : Nat) : State :=
  trap s u kind (operand % 2 ^ 32 + cause * 2 ^ 32)

/-- An operand trap at issue. -/
def operandTrap (s : State) (u : Iss) : State := trap s u 3 u.word

/-! ## Reservation records (R114, R235) -/

def recOf (s : State) (c r : Nat) : Option Rsv := lookup (core s c).c.recs r

/-- A live record of a workgroup. -/
def ownRec (s : State) (c wg r : Nat) : Option Rsv :=
  match recOf s c r with
  | some x => if x.owner = wg then some x else none
  | none => none

/-- A record's fields. -/
structure RecView where
  fmt : Nat
  blk : Nat
  nbits : Nat
  rows : Nat
  cols : Nat
  base : Nat
  scoff : Nat
deriving DecidableEq, Repr

def recView (b : BitVec 128) : RecView :=
  let n := b.toNat
  ⟨bits n 11 8, if bit n 13 then 64 else 32, bits n 19 16, bits n 63 48 + 1, bits n 47 32 + 1, bits n 91 74, bits n 109 92⟩

/-- The main and exponent ranges of a record (R235). -/
def RecView.mainLen (v : RecView) : Nat := if v.fmt = 2 then v.rows * v.cols * v.nbits / 8 else 2 * v.rows * v.cols
def RecView.expLen (v : RecView) : Nat := if v.fmt = 2 then v.rows * v.cols / v.blk else 0

/-- The storage number of a byte of a core's operand buffer. -/
def bufAt (c off : Nat) : Nat := Config.opBufBase + c * 2 ^ 18 + off

/-! ## Tiles (R240, R309, R373) -/

/-- The storage number of an element of a tile. -/
def tileAt (c t row col : Nat) : Nat := Config.accBase + c * 2 ^ 19 + t * 8192 + row * 128 + col * 4

/-- The tile's contents in the save area of the running context, if they were spilled. -/
def spillOf (s : State) (c t : Nat) : Option Spill :=
  s.spills.find? (fun x => decide (x.core = c ∧ x.num = t ∧ x.tile.ctx = ctxId s))

/-- Whether a tile belongs to another workgroup of the running context. -/
def tileOther (s : State) (c wg t : Nat) : Bool :=
  (match lookup s.tiles (c * 64 + t) with | some x => decide (x.ctx = ctxId s ∧ x.owner ≠ wg) | none => false) ||
  (match spillOf s c t with | some x => decide (x.tile.owner ≠ wg) | none => false)

/-- A tile claimed, if it is unowned (R240). -/
def claimTile (s : State) (c wg t : Nat) : State :=
  if (lookup s.tiles (c * 64 + t)).isNone ∧ (spillOf s c t).isNone then
    { s with tiles := put s.tiles (c * 64 + t) ⟨wg, ctxId s⟩ }
  else s

/-- Whether a tile is spilled or brought back before an entry that names it starts (R373). -/
def needsSpill (s : State) (c t : Nat) : Bool :=
  (match lookup s.tiles (c * 64 + t) with | some x => decide (x.ctx ≠ ctxId s) | none => false) || (spillOf s c t).isSome

/-- The save area of a context (R308): where a core's image goes. DESIGN CHOICE (entry 54): within a core's 4 MiB, the reserved scratchpad
frames stand at 0, the operand buffer at 2 MiB, the Grove entries at 2 MiB + 256 KiB, tile t at 2 MiB + 512 KiB + 8 KiB × t, the allocator,
records, tables, gangs, latches and queues from 3 MiB, and lane frame f at 3 MiB + 128 KiB + 12 KiB × f. -/
def saveAt (d : Descriptor) (c off : Nat) : Nat := d.save + 2 ^ 22 * c + off
def saveBuf : Nat := 2 ^ 21
def saveGrove : Nat := 2 ^ 21 + 2 ^ 18
def saveTile (t : Nat) : Nat := 2 ^ 21 + 2 ^ 19 + 8192 * t
def saveState : Nat := 3 * 2 ^ 20
def saveFrame (f : Nat) : Nat := 3 * 2 ^ 20 + 2 ^ 17 + 12288 * f

/-- Units of 16 bytes that the pseudo-channels of a range's pages move (R66). -/
def moveRange (s : State) (a n : Nat) : State :=
  (List.range ((a + n + 4095) / 4096 - a / 4096)).foldl (fun t i =>
    let p := a / 4096 + i
    moveUnits t p ((min (a + n) (4096 * p + 4096) - max a (4096 * p)) / 16)) s

/-- Whether a write waits for the lane at a page of a range: a save there comes after it (R65). -/
def writesWait (s : State) (a n : Nat) : Bool := s.hwrites.any (fun w => decide (a < 4096 * w.page + 4096 ∧ 4096 * w.page < a + n))

/-- `n` bytes, a multiple of 128, copied to a save area in HBM: encrypted under a key (R59), with the marks of poisoned units (R393), charged
to no core (R308, R373). -/
def saveCopy (s : State) (key src dst n : Nat) : State :=
  if 2 ^ 40 < dst + n then s
  else
    let u := dst / 16
    let within (a b k : Nat) : Bool := decide (a ≤ k) && decide (k < b)
    { moveRange s dst n with
      mem := Mem.copy s.mem src dst n
      cipher := s.cipher.filter (fun e => decide (e.1 < u)) ++ (List.range (n / 16)).map (fun i => (u + i, key)) ++
        s.cipher.filter (fun e => decide (u + n / 16 ≤ e.1))
      poison := s.poison.filter (fun k => !within (dst / 32) (dst / 32 + n / 32) k) ++
        (s.poison.filter (within (src / 32) (src / 32 + n / 32))).map (fun k => k - src / 32 + dst / 32)
      lost := s.lost.map (fun e => (e.1, e.2.filter (fun k => !within (dst / 128) (dst / 128 + n / 128) k))) }

/-- A tile's image in its owner's save area. -/
def saveTileOf (s : State) (c t ctx : Nat) : State :=
  match descriptor s ctx with
  | none => s
  | some d => saveCopy s (keyNow s ctx) (tileAt c t 0 0) (saveAt d c (saveTile t)) 8192

/-- Whether a write still waits at the place of a tile in its owner's save area. -/
def spillWaits (s : State) (c t : Nat) : Bool :=
  match (lookup s.tiles (c * 64 + t)).bind (fun x => descriptor s x.ctx) with
  | some d => writesWait s (saveAt d c (saveTile t)) 8192
  | none => false

/-- The spill trap (R373): another context's tile goes to its owner's save area and becomes unowned, or the running context's
own image comes back. -/
def spillTrap (s : State) (c t : Nat) : State :=
  let a := tileAt c t 0 0
  match lookup s.tiles (c * 64 + t) with
  | some x =>
    if x.ctx ≠ ctxId s ∧ !spillWaits s c t then
      freeTile { saveTileOf s c t x.ctx with spills := s.spills ++ [⟨c, t, x, (Mem.range s.mem a 8192).map (fun e => (e.1 - a, e.2)),
        (s.poison.filter (fun u => decide (a / 32 ≤ u) && decide (u < a / 32 + 256))).map (fun u => u - a / 32)⟩] } c t
    else s
  | none =>
    match spillOf s c t with
    | none => s
    | some x =>
      { s with
        tiles := put s.tiles (c * 64 + t) x.tile
        mem := Mem.restore s.mem (x.cells.map (fun e => (e.1 + a, e.2)))
        poison := s.poison ++ x.poison.map (fun u => u + a / 32)
        spills := s.spills.filter (fun y => !decide (y.core = c ∧ y.num = t ∧ y.tile.ctx = ctxId s)) }

/-- The tiles that an entry names. -/
def mqTiles (k : MqKind) : List Nat := ((mqNames k).filter (fun n => decide (100 ≤ n ∧ n < 200))).map (fun n => n - 100)

/-! ## Grove tables (R251) -/

def groveTab (s : State) (c t : Nat) : Option GroveTab := lookup (core s c).c.grove t

def groveOther (s : State) (c wg t : Nat) : Bool := match groveTab s c t with | some x => decide (x.owner ≠ wg) | none => false

/-- A table claimed, if it is unowned. -/
def claimTable (s : State) (c wg t : Nat) : State :=
  match groveTab s c t with
  | some _ => s
  | none => modCore s c (fun k => modC k (fun y => { y with grove := put y.grove t ⟨wg, false, 0, 0⟩ }))

/-- ACTIVE of a table once every swap of it in the queue has taken effect (R252, R256). -/
def activeAfter (s : State) (c t : Nat) : Bool :=
  (core s c).c.mq.foldl (fun a e => match e.kind with | .groveSwap x => if x = t && !e.finished then !a else a | _ => a)
    (match groveTab s c t with | some x => x.active | none => false)

/-! ## The end of an entry (R231) -/

/-- What a workgroup that is gone left behind is released once nothing of it remains in a core's engines. -/
def sweepGone (s : State) (c wg : Nat) : State :=
  let k := (core s c).c
  if (workgroup s wg).isNone ∧ !(k.mq.any (fun x => decide (x.wg = wg))) ∧ !(k.eng.any (fun x => decide (x.wg = wg))) then
    postDones (releaseOwned s c wg)
  else s

/-- An entry removed from the queue. -/
def dropEntry (s : State) (c : Nat) (e : MqEntry) : State :=
  sweepGone (modCore s c (fun k => modC k (fun y => { y with mq := y.mq.filter (fun x => x.id != e.id) }))) c e.wg

end Sys2Proof.Machine
end

