-- ==== Sys2Proof/Machine/Matrix.lean ====
section
/-!
DEFINITION. Machine/Matrix.lean: the words of the matrix unit as they issue (R235 to R250), the rendezvous latch (R27, R250, R412,
R413), and the work of its queue entries (R115 to R117, R239 to R248, R410).
-/
namespace Sys2Proof.Machine

/-! ## Reservations (R236 to R238) -/

/-- Whether the images of RSV.SET have a reserved bit or value (R236, first row). -/
def rsvBad (a b : DWord) : Bool :=
  let x := a.toNat
  let fmt := bits x 11 8
  bit x 0 || decide (bits x 31 20 ≠ 0 ∨ bits x 15 14 ≠ 0 ∨ bits x 12 12 ≠ 0 ∨ bits x 7 1 ≠ 0) ||
  decide (bits b.toNat 31 18 ≠ 0 ∨ bits b.toNat 63 50 ≠ 0) || decide (3 ≤ fmt) ||
  decide (fmt ≤ 1 ∧ (bits x 19 16 ≠ 0 ∨ bit x 13 = true ∨ bits b.toNat 49 32 ≠ 0)) ||
  decide (fmt = 2 ∧ (bits x 19 16 = 0 ∨ 9 ≤ bits x 19 16))

/-- The record that RSV.SET writes, VALID included (R114). -/
def rsvBits (a b : DWord) : BitVec 128 :=
  BitVec.ofNat 128 (a.toNat / 2 * 2 + 1 + bits b.toNat 17 0 * 2 ^ 74 + bits b.toNat 49 32 * 2 ^ 92)

/-- Whether two byte ranges meet. -/
def rangesMeet (a n b m : Nat) : Bool := decide (0 < n ∧ 0 < m ∧ a < b + m ∧ b < a + n)

/-- Whether the ranges of two records meet. -/
def recsMeet (v w : RecView) : Bool :=
  rangesMeet v.base v.mainLen w.base w.mainLen || rangesMeet v.base v.mainLen w.scoff w.expLen ||
  rangesMeet v.scoff v.expLen w.base w.mainLen || rangesMeet v.scoff v.expLen w.scoff w.expLen

/-- The cause of RSV.SET's matrix-operand trap, if any (R407 causes 1 to 5). -/
def rsvCause (s : State) (c wg : Nat) (v : RecView) : Option Nat :=
  let recs := (core s c).c.recs
  if (List.range 32).all (fun r => (lookup recs r).isSome) then some 1
  else if v.base % 64 ≠ 0 then some 2
  else if v.fmt = 2 ∧ v.cols % v.blk ≠ 0 then some 3
  else if 262144 < v.base + v.mainLen ∨ (v.fmt = 2 ∧ 262144 < v.scoff + v.expLen) then some 4
  else if recs.any (fun r => decide (r.2.owner ≠ wg) && recsMeet v (recView r.2.bits)) then some 5
  else none

/-- RSV.SET (R236). -/
def execRsvSet (d : BitVec 4) (b : BitVec 5) (a : Src) (s : State) : Outcome :=
  match issuing s with
  | none => .next (hold s)
  | some u =>
    match read64 u a u.low, readSC64 u b u.low with
    | some x, some y =>
      if writeHeld u (regsOf d.toNat 1) || !mqRoom s u.c then .next (hold s)
      else if rsvBad x y then .next (operandTrap s u)
      else
        let w := rsvBits x y
        match rsvCause s u.c u.f.wg (recView w) with
        | some k => .next (causeTrap s u 10 x.toNat k)
        | none =>
          let r := ((List.range 32).find? (fun r => (lookup (core s u.c).c.recs r).isNone)).getD 0
          let s1 := modCore s u.c (fun k => modC k (fun y => { y with recs := put y.recs r ⟨w, u.f.wg⟩ }))
          .next (issueVals (enqueue s1 u .short 0 none) u 8 1 d (u.lanes.map (fun i => (i, [BitVec.ofNat 32 r]))))
    | _, _ => .next (hold s)

/-- RSV.FREE (R237): the record is cleared in queue order. -/
def execRsvFree (a : Src) (s : State) : Outcome :=
  mqWord s a (fun u x =>
    if x.toNat / 32 ≠ 0 then operandTrap s u
    else if (ownRec s u.c u.f.wg x.toNat).isNone then causeTrap s u 10 x.toNat 6
    else advance (enqueue s u (.rsvFree x.toNat) 0 none) u)

/-- Whether an RSV.FREE of a workgroup's record stands in the queue. -/
def freeQueued (s : State) (c wg r : Nat) : Bool :=
  (core s c).c.mq.any (fun e => decide (e.wg = wg) && !e.finished && (match e.kind with | .rsvFree k => decide (k = r) | _ => false))

/-- What RSV.GET reads (R238): its place in queue order is behind the workgroup's earlier RSV.FREE of the record (R230), after which the
record is clear. -/
def rsvImage (s : State) (c wg : Nat) (x : Word) : DWord :=
  match (if freeQueued s c wg (bits x.toNat 4 0) then none else ownRec s c wg (bits x.toNat 4 0)) with
  | none => 0
  | some r =>
    if x.getLsbD 5 then BitVec.ofNat 64 (bits r.bits.toNat 91 74 + bits r.bits.toNat 109 92 * 2 ^ 32)
    else r.bits.extractLsb' 0 64

/-- RSV.GET (R238). -/
def execRsvGet (d : BitVec 4) (a : Src) (s : State) : Outcome :=
  mqWord s a (fun u x =>
    if writeHeld u (regsOf d.toNat 2) then hold s
    else if x.toNat / 64 ≠ 0 then operandTrap s u
    else issueVals (enqueue s u .short 0 none) u 4 2 d (u.lanes.map (fun i => (i, out64 (rsvImage s u.c u.f.wg x)))))

/-- MXLD (R239). -/
def execMxld (f : Side) (b : BitVec 5) (a : Src) (s : State) : Outcome :=
  mqWord64 s b a (fun u x y =>
    if y.toNat / 32 ≠ 0 then operandTrap s u
    else if x.toNat % 16 ≠ 0 then trap s u 4 (x.toNat % 2 ^ 32)
    else if (ownRec s u.c u.f.wg y.toNat).isNone then causeTrap s u 10 x.toNat 6
    else advance (enqueue s u (.mxld y.toNat x.toNat) 0 (u.flag f)) u)

/-! ## Accumulator words (R240 to R243) -/

/-- ACC.ZERO and ACC.FREE. -/
def accWord (s : State) (a : Src) (claims : Bool) (k : Nat → MqKind) : Outcome :=
  mqWord s a (fun u x =>
    if x.toNat / 64 ≠ 0 then operandTrap s u
    else if tileOther s u.c u.f.wg x.toNat then causeTrap s u 11 x.toNat 1
    else
      let s1 := if claims then claimTile s u.c u.f.wg x.toNat else s
      advance (enqueue s1 u (k x.toNat) 0 none) u)

/-- ACC.ZERO (R241). -/
def execAccZero (a : Src) (s : State) : Outcome := accWord s a true .accZero

/-- ACC.FREE (R241). -/
def execAccFree (a : Src) (s : State) : Outcome := accWord s a false .accFree

/-- ACC.LD and ACC.ST (R242). -/
def accMove (s : State) (f : Side) (b : BitVec 5) (a : Src) (claims : Bool) (k : Nat → Nat → Bool → MqKind) : Outcome :=
  mqWord64 s b a (fun u x y =>
    let t := bits y.toNat 5 0
    if bits y.toNat 31 9 ≠ 0 ∨ bits y.toNat 7 6 ≠ 0 then operandTrap s u
    else if x.toNat % 128 ≠ 0 then trap s u 4 (x.toNat % 2 ^ 32)
    else if tileOther s u.c u.f.wg t then causeTrap s u 11 x.toNat 1
    else
      let s1 := if claims then claimTile s u.c u.f.wg t else s
      advance (enqueue s1 u (k t x.toNat (y.getLsbD 8)) 0 (u.flag f)) u)

/-- ACC.LD (R242). -/
def execAccLd (f : Side) (b : BitVec 5) (a : Src) (s : State) : Outcome := accMove s f b a true .accLd

/-- ACC.ST (R242). -/
def execAccSt (f : Side) (b : BitVec 5) (a : Src) (s : State) : Outcome := accMove s f b a false .accSt

/-- A word that delivers a value to each present lane from the engines (R243, R254): queues shift, the flag is selected. -/
def laneEngineWord (s : State) (u : Iss) (k : MqKind) (d : BitVec 4) (flag : Option Nat) : State :=
  let op := s.ops
  let s1 := enqueue (undoShifts s u 1) u k d.toNat flag
  advance (modLF s1 u.c u.l (fun f => pend f u.cl.lanes op 1 d.toNat true u.pc)) u

/-- ACC.RD (R243). -/
def execAccRd (d : BitVec 4) (f : Side) (a : Src) (s : State) : Outcome :=
  match issuing s with
  | none => .next (hold s)
  | some u =>
    match eachLane u (read32 u a) with
    | none => .next (hold s)
    | some sel =>
      if writeHeld u (regsOf d.toNat 1) || !mqRoom s u.c then .next (hold s)
      else if sel.any (fun e => decide (bits e.2.toNat 31 17 ≠ 0)) then .next (operandTrap s u)
      else match sel.find? (fun e => tileOther s u.c u.f.wg (bits e.2.toNat 5 0)) with
        | some e => .next (causeTrap s u 11 e.2.toNat 1)
        | none => .next (laneEngineWord s u (.accRd sel) d (u.flag f))

/-! ## Products at issue (R244, R245) -/

/-- FMT of a form's operands. -/
def MmaForm.fmt : MmaForm → Nat
  | .bf16 => 0 | .f16 => 1 | .k | .kOl => 2
def MmaForm.plane : MmaForm → Bool
  | .k | .kOl => true
  | _ => false

def opA (o : Word) : Nat := bits o.toNat 4 0
def opB (o : Word) : Nat := bits o.toNat 9 5
def opTile (o : Word) : Nat := bits o.toNat 15 10

/-- The checks of R245 at issue: a stop kind and DETAIL. DEDUCED (entry 101): with PLANE 0 the forms MMA.k and MMA.k.g alone trap (R374,
R415). -/
def mmaCheck (s : State) (u : Iss) (form : MmaForm) (o : Word) (list : Nat) (joint : Bool) : Option (Nat × Nat) :=
  let bad (k cause : Nat) : Option (Nat × Nat) := some (k, o.toNat + cause * 2 ^ 32)
  if form = .k ∧ !s.caps.getLsbD 1 then some (9, 1)
  else if form = .kOl ∧ !s.caps.getLsbD 0 then some (9, 0)
  else if bits o.toNat 31 17 ≠ 0 then some (3, u.word)
  else match ownRec s u.c u.f.wg (opA o), (if joint then none else ownRec s u.c u.f.wg (opB o)) with
    | none, _ => bad 10 6
    | some ra, rb =>
      let va := recView ra.bits
      let vb : Option RecView := rb.map (fun r => recView r.bits)
      if !joint && vb.isNone then bad 10 6
      else if va.fmt ≠ form.fmt ∨ vb.any (fun v => decide (v.fmt ≠ form.fmt)) then bad 10 7
      else if form.plane && vb.any (fun v => decide (v.blk ≠ va.blk)) then bad 10 8
      else if vb.any (fun v => decide (v.cols ≠ va.cols)) then bad 10 9
      else if 64 < va.rows then bad 10 10
      else if vb.any (fun (v : RecView) => decide (32 < v.rows)) then bad 10 11
      else if tileOther s u.c u.f.wg (opTile o) then bad 11 1
      else if form = .kOl ∧ (list % 8 ≠ 0 ∨ scratchBytes s u.f.wg < list + 8) then some (5, list)
      else none

/-- Whether the plane datapath of a core's die is off (R331): the word holds its bundle. -/
def planeOff (s : State) (c : Nat) (form : MmaForm) : Bool := form.plane && decide (s.dieState.getD (dieOf c) 0 = 3)

/-- The operands of an MMA word from the lowest present lane: the operation word and, for .ol, the list's offset. -/
def mmaOperands (u : Iss) (a : Src) (b : Option (BitVec 5)) : Option (Word × Nat) :=
  (read32 u a u.low).bind (fun o => match b with
    | none => some (o, 0)
    | some x => (readSC u x u.low).map (fun y => (o, y.toNat)))

/-- An MMA form of slots 8 to 11 (R244 to R247). -/
def mmaWord (s : State) (form : MmaForm) (f : Side) (a : Src) (b : Option (BitVec 5)) : Outcome :=
  match issuing s with
  | none => .next (hold s)
  | some u =>
    match mmaOperands u a b with
    | none => .next (hold s)
    | some (o, list) =>
      if !mqRoom s u.c || planeOff s u.c form then .next (hold s)
      else match mmaCheck s u form o list false with
        | some (k, d) => .next (trap s u k d)
        | none => .next (advance (enqueue (claimTile s u.c u.f.wg (opTile o)) u (.mma form o list false) 0 (u.flag f)) u)

def execMmaBf16 (f : Side) (a : Src) (s : State) : Outcome := mmaWord s .bf16 f a none
def execMmaF16 (f : Side) (a : Src) (s : State) : Outcome := mmaWord s .f16 f a none
def execMmaK (f : Side) (a : Src) (s : State) : Outcome := mmaWord s .k f a none
def execMmaKOl (f : Side) (b : BitVec 5) (a : Src) (s : State) : Outcome := mmaWord s .kOl f a (some b)

/-! ## Gangs (R27, R249, R250) -/

/-- Whether a workgroup has a joint word parked at the latch or in flight. -/
def jointOut (s : State) (c wg : Nat) : Bool :=
  (core s c).c.mq.any (fun e => decide (e.wg = wg) && (match e.kind with | .mma _ _ _ j => j | _ => false))

/-- The cause of GANG.SET's gang trap (R249, R407). -/
def gangCause (s : State) (wg : Nat) (v : Word) : Option Nat :=
  let r := gangRanks v
  match workgroup s wg, launchOf s wg with
  | some w, some x =>
    if r.isEmpty then none
    else if !r.contains w.rank then some 1
    else if r.any (fun k => decide (x.wgPerCl ≤ k)) then some 2
    else if (r.map (fun k => k % 8)).dedup.length ≠ r.length then some 3
    else none
  | _, _ => none

/-- GANG.SET (R249). -/
def execGangSet (a : Src) (s : State) : Outcome :=
  mqWord s a (fun u x =>
    let n := bits x.toNat 26 24
    if jointOut s u.c u.f.wg then hold s
    else if bits x.toNat 31 27 ≠ 0 ∨ n = 1 ∨ n = 7 ∨ bits x.toNat 23 0 / 16 ^ n ≠ 0 then operandTrap s u
    else match gangCause s u.f.wg x with
      | some k => causeTrap s u 12 x.toNat k
      | none => advance (enqueue (modWG s u.f.wg (fun w => { w with gang := x, joint := 0 })) u .short 0 none) u)

/-- GANG.GET (R249). -/
def execGangGet (d : BitVec 4) (s : State) : Outcome :=
  match issuing s with
  | none => .next (hold s)
  | some u =>
    if writeHeld u (regsOf d.toNat 1) || !mqRoom s u.c then .next (hold s)
    else
      let v := match workgroup s u.f.wg with | some w => w.gang | none => 0
      .next (issueVals (enqueue s u .short 0 none) u 4 1 d (u.lanes.map (fun i => (i, [v]))))

/-- A workgroup's place in a latch's list (R249), none where it is not listed. -/
def memberIx (gang : Word) (rank : Nat) : Option Nat :=
  let r := gangRanks gang
  if r.contains rank then some (r.findIdx (fun k => k == rank)) else none

def modLatch (s : State) (i : Nat) (f : Latch → Latch) : State :=
  { s with latches := s.latches.map (fun x => if x.id = i then f x else x) }

/-- The latch of a queue entry of a workgroup. -/
def latchFor (s : State) (wg ent : Nat) : Option Latch := s.latches.find? (fun x => x.arrived.contains (wg, ent))

/-- The members of a latch with their queue entries. -/
def members (s : State) (x : Latch) : List (Workgroup × MqEntry) :=
  x.arrived.filterMap (fun a => (workgroup s a.1).bind (fun w => (mqOf s w.core a.2).map (fun e => (w, e))))

/-- Member 0 of a latch. -/
def memberZero (s : State) (x : Latch) : Option (Workgroup × MqEntry) :=
  (members s x).find? (fun e => decide (e.1.rank = x.gang.toNat % 16))

/-- Whether every listed member has arrived. -/
def latchFull (s : State) (x : Latch) : Bool :=
  (gangRanks x.gang).all (fun r => (members s x).any (fun e => decide (e.1.rank = r)))

def mmaOf (e : MqEntry) : Option (MmaForm × Word × Nat) :=
  match e.kind with | .mma f o l true => some (f, o, l) | _ => none

/-- The record of A of a member. -/
def memberA (s : State) (e : Workgroup × MqEntry) : Option RecView :=
  (mmaOf e.2).bind (fun m => (ownRec s e.1.core e.1.id (opA m.2.1)).map (fun r => recView r.bits))

/-- The cause of a gang trap at release (R250, R407 causes 5 to 10; a B of more than 32 rows counts as an invalid record, entry
18). -/
def latchCause (s : State) (x : Latch) : Option Nat :=
  let ms := members s x
  if ms.any (fun e => decide (e.1.gang ≠ x.gang)) then some 5
  else match memberZero s x with
    | none => some 7
    | some z =>
      match mmaOf z.2 with
      | none => some 6
      | some (form, o, _) =>
        if ms.any (fun e => match mmaOf e.2 with | some m => decide (m.1 ≠ form) | none => true) then some 6
        else match ownRec s z.1.core z.1.id (opB o) with
          | none => some 7
          | some r =>
            let v := recView r.bits
            if 32 < v.rows then some 7
            else if v.fmt ≠ form.fmt then some 8
            else if form.plane && ms.any (fun e => (memberA s e).any (fun a => decide (a.blk ≠ v.blk))) then some 9
            else if ms.any (fun e => (memberA s e).any (fun a => decide (a.cols ≠ v.cols))) then some 10
            else none

/-- The latch tested (R27): when every listed member has arrived, all are released, or all take the gang trap. -/
def tryRelease (s : State) (x : Latch) : State :=
  if x.fired || !latchFull s x || (members s x).any (fun e => e.2.fault.isSome) then s
  else match latchCause s x with
    | some k => raiseLatch s x 12 (fun o => o.toNat + k * 2 ^ 32)
    | none => x.arrived.foldl (fun s a => modWG s a.1 (fun w => { w with joint := w.joint + 1 }))
        (modLatch s x.id (fun y => { y with fired := true }))

/-- A member's arrival at the latch with its k-th joint word. -/
def arriveLatch (s : State) (w : Workgroup) (ent : Nat) : State :=
  let waiting := (s.latches.filter (fun x => !x.fired && x.arrived.any (fun a => a.1 = w.id))).length
  let k := w.joint + waiting
  let joins (x : Latch) : Bool :=
    decide (x.launch = w.launch ∧ x.cluster = w.cluster ∧ x.joint = k) && !x.fired && !(x.arrived.any (fun a => a.1 = w.id)) &&
    ((gangRanks x.gang).contains w.rank ||
      (members s x).any (fun e => (gangRanks w.gang).contains e.1.rank))
  match s.latches.find? joins with
  | some x =>
    let s1 := modLatch s x.id (fun x => { x with arrived := x.arrived ++ [(w.id, ent)] })
    match s1.latches.find? (fun y => y.id = x.id) with | some y => tryRelease s1 y | none => s1
  | none =>
    let x : Latch := ⟨s.ops, w.launch, w.cluster, w.gang, k, [(w.id, ent)], s.cycle, false⟩
    tryRelease { fresh s with latches := s.latches ++ [x] } x

/-- A joint form (R250): the member's own checks, then its threads park at the latch. -/
def jointWord (s : State) (form : MmaForm) (f : Side) (a : Src) (b : Option (BitVec 5)) : Outcome :=
  match issuing s with
  | none => .next (hold s)
  | some u =>
    match mmaOperands u a b with
    | none => .next (hold s)
    | some (o, list) =>
      if !mqRoom s u.c || planeOff s u.c form then .next (hold s)
      else match mmaCheck s u form o list true, workgroup s u.f.wg with
        | some (k, d), _ => .next (trap s u k d)
        | none, none => .next (causeTrap s u 12 o.toNat 4)
        | none, some w =>
          if bits w.gang.toNat 26 24 = 0 then .next (causeTrap s u 12 o.toNat 4)
          else
            let e : MqEntry :=
              { id := s.ops, lf := u.l, wg := u.f.wg, pc := u.pc, lanes := u.cl.lanes, reg := 0, flag := u.flag f
                kind := .mma form o list true, started := false, finished := false, progress := 0, group := 0, fault := none
                exps := none, list := none, acc := 0, cycle := s.cycle, hdr := u.cl.hdr }
            let s1 := modCore (fresh (claimTile s u.c u.f.wg (opTile o))) u.c (fun k => modC k (fun y => { y with mq := y.mq ++ [e] }))
            .next (arriveLatch (parkAll s1 u .latch) w e.id)

def execMmaBf16G (f : Side) (a : Src) (s : State) : Outcome := jointWord s .bf16 f a none
def execMmaF16G (f : Side) (a : Src) (s : State) : Outcome := jointWord s .f16 f a none
def execMmaKG (f : Side) (a : Src) (s : State) : Outcome := jointWord s .k f a none
def execMmaKOlG (f : Side) (b : BitVec 5) (a : Src) (s : State) : Outcome := jointWord s .kOl f a (some b)

/-- The threads of a released member unpark past the word, by the COUNT of their clause's copy of the header (R137), its flag busy from then on
(R27 step 4). -/
def unparkMember (s : State) (c : Nat) (e : MqEntry) : State :=
  match laneFrame s c e.lf with
  | none => s
  | some f =>
    let m := waiting f (fun w => decide (w = .latch)) &&& e.lanes
    let next := imageAfter e.hdr e.pc
    let s1 := modLF s c e.lf (fun f => modThreads (selectFlags f m e.flag e.pc) m (fun _ t => { t with pc := next }))
    arriveAt (wakeLanes (modMq s1 c e.id (fun e => { e with lanes := m })) c e.lf m 5) c e.lf m

/-- A thread's part in an arrival withdrawn (R413); a member without threads at the latch has not arrived. -/
def withdrawLane (s : State) (c l lane : Nat) : State :=
  let here (e : MqEntry) : Bool := decide (e.lf = l) && !e.started && (match e.kind with | .mma _ _ _ true => true | _ => false)
  (((core s c).c.mq.filter here)).foldl (fun s e =>
    let rest := e.lanes &&& ~~~(BitVec.twoPow 32 lane)
    if rest ≠ 0 then modMq s c e.id (fun e => { e with lanes := rest })
    else
      let s1 := modCore s c (fun k => modC k (fun y => { y with mq := y.mq.filter (fun x => x.id != e.id) }))
      let less := s1.latches.map (fun (x : Latch) => { x with arrived := x.arrived.filter (fun a => a.2 != e.id) })
      { s1 with latches := less.filter (fun x => !x.arrived.isEmpty) }) s

/-- ARRIVED of kind 28 (R406): bit i for member i. -/
def arrivedMask (s : State) (x : Latch) : Nat :=
  (members s x).foldl (fun n e => match memberIx x.gang e.1.rank with | some i => n ||| 2 ^ i | none => n) 0

/-- GANG_WATCHDOG_EXPIRY (R412): 2^24 running cycles after the first arrival without a release; another event of the same cycle does not
hide it. -/
def execGangWatchdogExpiry (i : Nat) (s : State) : Outcome :=
  match s.latches.find? (fun x => x.id = i) with
  | none => .next s
  | some x =>
    let here := match launchById s x.launch with | some l => runs s l.ctx | none => false
    if x.fired || !here || s.stop.any (fun p => decide (p.cycle ≠ s.cycle)) || decide (s.cycle < x.first + 2 ^ 24) then .next s
    else .next (raiseLatch s x 28 (fun _ => x.gang.toNat % 2 ^ 27 + arrivedMask s x * 2 ^ 27))

/-! ## Products (R115 to R117, R246, R247) -/

/-- Where an MMA's operands lie: its own core and A, the core and record of B, and the block exponents of A and then of B, as read before
the first element changes (R246). -/
structure MmaRun where
  a : RecView
  b : RecView
  bc : Nat
  ar : Nat
  br : Nat
  exps : List Nat
deriving DecidableEq, Repr

/-- The number of blocks of a plane operand; none of another. -/
def RecView.blocks (v : RecView) : Nat := if v.fmt = 2 then v.rows * (v.cols / v.blk) else 0

/-- The block exponents of an operand in block order, as they lie in the operand buffer now. -/
def expsOf (s : State) (c : Nat) (v : RecView) : List Nat :=
  (List.range v.blocks).map (fun i => (Mem.byte s.mem (bufAt c (v.scoff + i))).toNat)

/-- The exponents of A and B for an entry: those it has read, or those that lie there now. -/
def runExps (s : State) (e : MqEntry) (c : Nat) (a : RecView) (bc : Nat) (b : RecView) : List Nat :=
  e.exps.getD (expsOf s c a ++ expsOf s bc b)

/-- The operands of a running MMA: of a joint form, B is member 0's (R250). -/
def mmaRun (s : State) (c : Nat) (e : MqEntry) (o : Word) (joint : Bool) : Option MmaRun :=
  (ownRec s c e.wg (opA o)).bind (fun ra =>
    if joint then
      ((latchFor s e.wg e.id).bind (memberZero s)).bind (fun z =>
        (mmaOf z.2).bind (fun m => (ownRec s z.1.core z.1.id (opB m.2.1)).map (fun rb =>
          ⟨recView ra.bits, recView rb.bits, z.1.core, opA o, opB m.2.1,
            runExps s e c (recView ra.bits) z.1.core (recView rb.bits)⟩)))
    else (ownRec s c e.wg (opB o)).map (fun rb =>
      ⟨recView ra.bits, recView rb.bits, c, opA o, opB o, runExps s e c (recView ra.bits) c (recView rb.bits)⟩))

/-- The number of chunks of R115, or blocks of R116. -/
def MmaRun.dense (r : MmaRun) : Nat := if r.a.fmt = 2 then r.a.cols / r.a.blk else (r.a.cols + 15) / 16

/-- A 16-bit element of an operand (R235). -/
def elem16 (s : State) (c : Nat) (v : RecView) (row col : Nat) : Nat :=
  leNat (Mem.read s.mem (bufAt c (v.base + 2 * (row * v.cols + col))) 2)

/-- The number of a block in its record, and its first byte (R113). -/
def blockIx (v : RecView) (row b : Nat) : Nat := row * (v.cols / v.blk) + b
def blockOff (v : RecView) (row b : Nat) : Nat := v.base + blockIx v row b * v.nbits * v.blk / 8
/-- The exponent of a block of A, and of B. -/
def MmaRun.expA (r : MmaRun) (row b : Nat) : Nat := r.exps.getD (blockIx r.a row b) 0
def MmaRun.expB (r : MmaRun) (row b : Nat) : Nat := r.exps.getD (r.a.blocks + blockIx r.b row b) 0

/-- Plane j of a block. -/
def plane (s : State) (c : Nat) (v : RecView) (row b j : Nat) : Nat :=
  leNat (Mem.read s.mem (bufAt c (blockOff v row b + j * (v.blk / 8))) (v.blk / 8))

/-- The number of set bits. -/
def popcount (x : Nat) : Nat := ((List.range 64).filter (fun i => x.testBit i)).length

/-- An element of a plane operand (R113). -/
def planeElem (s : State) (c : Nat) (v : RecView) (row col : Nat) : Int :=
  let bit_ (j : Nat) : Int := if (plane s c v row (col / v.blk) j).testBit (col % v.blk) then 1 else 0
  (List.range (v.nbits - 1)).foldl (fun n j => n + 2 ^ j * bit_ j) (-(2 ^ (v.nbits - 1) * bit_ (v.nbits - 1)))

/-- The exact sum of a chunk's products, rounded (R115). -/
def chunkSum (s : State) (c : Nat) (r : MmaRun) (f : Fmt) (m n i : Nat) : Nat :=
  let prod (k : Nat) : FVal := mulVal (unpack f (elem16 s c r.a m k)) (unpack f (elem16 s r.bc r.b n k))
  let ks := (List.range (min 16 (r.a.cols - 16 * i))).map (fun j => 16 * i + j)
  match ks with
  | [] => 0
  | k :: t => pack fp32 .rn (t.foldl (fun a j => addVal .rn a (prod j)) (prod k))

/-- The exact sum of a block's plane products (R116). -/
def blockSum (s : State) (c : Nat) (r : MmaRun) (m n b : Nat) : Int :=
  (List.range r.a.nbits).foldl (fun d j =>
    let w := plane s c r.a m b j
    (List.range r.b.nbits).foldl (fun d i =>
      let p : Int := 2 ^ (j + i) * (popcount (w &&& plane s r.bc r.b n b i) : Nat)
      if xor (decide (j + 1 = r.a.nbits)) (decide (i + 1 = r.b.nbits)) then d - p else d + p) d) 0

/-- An accumulator element after chunk or block `i`. -/
def accAfter (s : State) (c : Nat) (r : MmaRun) (form : MmaForm) (m n i acc : Nat) : Nat :=
  match form with
  | .bf16 => fadd fp32 .rn acc (chunkSum s c r bf16 m n i)
  | .f16 => fadd fp32 .rn acc (chunkSum s c r fp16 m n i)
  | .k | .kOl =>
    let d := blockSum s c r m n i
    if d = 0 then acc
    else
      let x : FVal := .fin (decide (d < 0)) d.natAbs ((r.expA m i : Int) + r.expB n i - 254)
      pack fp32 .rn (addVal .rn (unpack fp32 acc) x)

/-- An element of a tile. -/
def tileElem (s : State) (c t row col : Nat) : Nat := leNat (Mem.read s.mem (tileAt c t row col) 4)

/-- Chunk or block `i` applied to every covered element. -/
def denseStep (s : State) (c : Nat) (r : MmaRun) (form : MmaForm) (o : Word) (i : Nat) : State :=
  let t := opTile o
  let fresh0 := o.getLsbD 16 && decide (i = 0)
  (List.range r.a.rows).foldl (fun z m =>
    writeLocal z (tileAt c t m 0) ((List.range r.b.rows).flatMap (fun n =>
      leBytes 4 (accAfter s c r form m n i (if fresh0 then 0 else tileElem s c t m n))))) s

/-- The first block exponent of 255: its block number and record (R246). -/
def MmaRun.badExp (r : MmaRun) : Option (Nat × Nat) :=
  ((List.range r.exps.length).find? (fun i => r.exps.getD i 0 == 255)).map (fun i =>
    if i < r.a.blocks then (i, r.ar) else (i - r.a.blocks, r.br))

/-- Whether the elements of an operand that chunk or block `i` reads lie in a poisoned unit (R414). -/
def chunkPoison (s : State) (c : Nat) (v : RecView) (i : Nat) : Bool :=
  (List.range v.rows).any (fun m =>
    if v.fmt = 2 then localPoison s (bufAt c (blockOff v m i)) (v.nbits * v.blk / 8)
    else localPoison s (bufAt c (v.base + 2 * (m * v.cols + 16 * i))) (2 * min 16 (v.cols - 16 * i)))

/-- Whether the block exponents of an operand lie in a poisoned unit. -/
def expPoison (s : State) (c : Nat) (v : RecView) : Bool := localPoison s (bufAt c v.scoff) v.expLen

/-- Whether the elements of a column of a plane operand lie in a poisoned unit. -/
def columnPoison (s : State) (c : Nat) (v : RecView) (col : Nat) : Bool :=
  (List.range v.rows).any (fun n => (List.range v.nbits).any (fun j =>
    localPoison s (bufAt c (blockOff v n (col / v.blk) + j * (v.blk / 8) + col % v.blk / 8)) 1))

/-- Whether the covered part of a tile holds a poisoned unit. -/
def tilePoison (s : State) (c t m n : Nat) : Bool := (List.range m).any (fun i => localPoison s (tileAt c t i 0) (4 * n))

/-! ## Outliers (R117, R247) -/

/-- A doubleword of a workgroup's scratchpad. -/
def scratchDword (s : State) (w : Workgroup) (off : Nat) : Nat := leNat (scratchBytesAt s w off 8)

/-- What is wrong with an outlier list: a cause of kind 10 and the entry's index (R247, R407). -/
def listFault (s : State) (w : Workgroup) (r : MmaRun) (off : Nat) : Option (Nat × Nat) :=
  let h := scratchDword s w off
  let n := h % 2 ^ 16
  if h / 2 ^ 16 ≠ 0 then some (13, 0)
  else if 1024 < n then some (14, 0)
  else if scratchBytes s w.id < off + 8 + 8 * n then some (15, 0)
  else (List.range n).findSome? (fun i =>
    let x := scratchDword s w (off + 8 + 8 * i)
    if bit x 63 || decide (bits x 61 54 ≠ 0) || (bit x 62 && decide (bits x 31 16 ≠ 0)) then some (13, i)
    else if r.a.rows ≤ bits x 53 48 ∨ r.a.cols ≤ bits x 47 32 then some (16, i)
    else none)

/-- The entries of a list that is well formed. -/
def listOf (s : State) (w : Workgroup) (off : Nat) : List Nat :=
  (List.range (scratchDword s w off % 2 ^ 16)).map (fun i => scratchDword s w (off + 8 + 8 * i))

/-- One outlier entry applied (R117). -/
def outlierStep (s : State) (c : Nat) (r : MmaRun) (o : Word) (x : Nat) : State :=
  let row := bits x 53 48
  let col := bits x 47 32
  let v := if bit x 62 then unpack bf16 (bits x 15 0) else unpack fp32 (bits x 31 0)
  writeLocal s (tileAt c (opTile o) row 0) ((List.range r.b.rows).flatMap (fun n =>
    let e := planeElem s r.bc r.b n col
    let act : FVal := .fin (decide (e < 0)) e.natAbs ((r.expB n (col / r.b.blk) : Int) - 127)
    leBytes 4 (pack fp32 .rn (addVal .rn (unpack fp32 (tileElem s c (opTile o) row n)) (mulVal v act)))))

/-! ## The work of an entry -/

def stepped (s : State) (c : Nat) (e : MqEntry) (n : Nat) (done : Bool) : State :=
  modMq s c e.id (fun e => { e with started := true, progress := n, finished := done })

/-- A fault that an MMA finds: kind, DETAIL, and the unit, index and record of MMXERR (R409). -/
structure MmaErr where
  kind : Nat
  detail : Nat
  unit : Nat
  index : Nat
  record : Nat
deriving DecidableEq, Repr

def mmaFail (s : State) (c : Nat) (e : MqEntry) (x : MmaErr) : State := mqFault s c e x.kind x.detail x.unit x.index x.record 0

/-- A poisoned unit that a unit of the matrix engine consumes (R414). -/
def poisonErr (unit record : Nat) : Option MmaErr := some ⟨25, pageDetail 0 3, unit, 0, record⟩

/-- The record whose block exponents lie in a poisoned unit, when they are to be read. -/
def badExps (s : State) (c : Nat) (e : MqEntry) (r : MmaRun) : Option Nat :=
  if e.exps.isSome then none
  else if expPoison s c r.a then some r.ar
  else if expPoison s r.bc r.b then some r.br
  else none

/-- What stops an MMA before its next chunk or block: another owner of the tile, an exponent of 255 before any element has changed
(R246), or a poisoned unit in what it reads (R414). DESIGN CHOICE (entry 101): for a unit of the tile MMXERR names record 0. -/
def denseErr (s : State) (c : Nat) (e : MqEntry) (form : MmaForm) (o : Word) (r : MmaRun) : Option MmaErr :=
  if tileOther s c e.wg (opTile o) then some ⟨11, o.toNat + 2 ^ 32, 1, 0, 0⟩
  else match badExps s c e r with
    | some k => poisonErr 1 k
    | none => match (if form.plane then r.badExp else none) with
      | some (i, k) => some ⟨10, o.toNat + 12 * 2 ^ 32, 1, i, k⟩
      | none =>
        if chunkPoison s c r.a e.progress then poisonErr 1 r.ar
        else if chunkPoison s r.bc r.b e.progress then poisonErr 1 r.br
        else if !o.getLsbD 16 && tilePoison s c (opTile o) r.a.rows r.b.rows then poisonErr 1 0
        else none

/-- One chunk or block of an MMA (R246, R248). -/
def denseRun (s : State) (c : Nat) (e : MqEntry) (form : MmaForm) (o : Word) (r : MmaRun) : State :=
  let n := e.progress + 1
  modMq (stepped (denseStep (claimTile s c e.wg (opTile o)) c r form o e.progress) c e n (decide (n = r.dense ∧ form ≠ .kOl))) c e.id
    (fun e => { e with exps := some r.exps })

/-- What stops the outlier phase of an MMA before its next step: a list in a poisoned unit or not well formed (R247), or a poisoned unit that
the entry in hand reads (R414). -/
def listErr (s : State) (c : Nat) (e : MqEntry) (o : Word) (list : Nat) (r : MmaRun) : Option MmaErr :=
  match workgroup s e.wg, e.list with
  | none, _ => none
  | some _, some l =>
    match l[e.progress - r.dense]? with
    | none => none
    | some x =>
      match badExps s c e r with
      | some k => poisonErr 2 k
      | none =>
        if columnPoison s r.bc r.b (bits x 47 32) then poisonErr 2 r.br
        else if !o.getLsbD 16 && localPoison s (tileAt c (opTile o) (bits x 53 48) 0) (4 * r.b.rows) then poisonErr 2 0
        else none
  | some w, none =>
    if scratchPoison s w list 8 || scratchPoison s w (list + 8) (8 * (min 1024 (scratchDword s w list % 2 ^ 16))) then poisonErr 2 0
    else (listFault s w r list).map (fun k => ⟨10, o.toNat + k.1 * 2 ^ 32, 2, k.2, 0⟩)

/-- One step of the outlier phase of an MMA: the whole list is read and checked once (R247), and then its entries are applied one by one. -/
def listRun (s : State) (c : Nat) (e : MqEntry) (o : Word) (list : Nat) (r : MmaRun) : State :=
  match e.list, workgroup s e.wg with
  | _, none => stepped s c e e.progress true
  | some l, some _ =>
    let i := e.progress - r.dense
    match l[i]? with
    | some x =>
      modMq (stepped (outlierStep s c r o x) c e (e.progress + 1) (decide (i + 1 = l.length))) c e.id (fun e => { e with exps := some r.exps })
    | none => stepped s c e e.progress true
  | none, some w => modMq s c e.id (fun e => { e with list := some (listOf s w list), finished := (listOf s w list).isEmpty })

/-- A running product: its core and entry, its form, operation word and list, and its operands. -/
structure MmaPart where
  c : Nat
  e : MqEntry
  form : MmaForm
  o : Word
  list : Nat
  r : MmaRun
deriving DecidableEq, Repr

/-- What stops a product before its next chunk, block or outlier step. -/
def MmaPart.err (s : State) (m : MmaPart) : Option MmaErr :=
  if m.e.progress < m.r.dense then denseErr s m.c m.e m.form m.o m.r else listErr s m.c m.e m.o m.list m.r

/-- The next chunk, block or outlier step of a product. -/
def MmaPart.run (s : State) (m : MmaPart) : State :=
  if m.e.progress < m.r.dense then denseRun s m.c m.e m.form m.o m.r else listRun s m.c m.e m.o m.list m.r

/-- The members of a latch whose part of the product is not done. -/
def unfinishedMembers (s : State) (x : Latch) : List (Workgroup × MqEntry) := (members s x).filter (fun m => !m.2.finished)

/-- Their parts as they run. -/
def jointParts (s : State) (x : Latch) : List MmaPart :=
  (unfinishedMembers s x).filterMap (fun m => (mmaOf m.2).bind (fun k =>
    (mmaRun s m.1.core m.2 k.2.1 true).map (fun r => ⟨m.1.core, m.2, k.1, k.2.1, k.2.2, r⟩)))

/-- Whether every member can take the next step of the lockstep: all have started, none is faulted or has lost its records, every core runs,
and no tile is still to be brought back (R250, R416). -/
def jointReady (s : State) (x : Latch) : Bool :=
  (unfinishedMembers s x).all (fun m => m.2.started && m.2.fault.isNone && !engineHeld s m.1.core) &&
  decide ((jointParts s x).length = (unfinishedMembers s x).length) &&
  (jointParts s x).all (fun m => (mqTiles m.e.kind).all (fun t => !needsSpill s m.c t))

/-- One k, one block or one outlier step of a joint product: every member that has one takes it, or, where one finds a fault, none does, so
that all stand at the same progress index (R27, R250, R416). -/
def jointStep (s : State) (x : Latch) : State :=
  let ms := jointParts s x
  if !jointReady s x then s
  else
    let bad := ms.filterMap (fun m => (m.err s).map (fun k => (m, k)))
    if bad.isEmpty then ms.foldl MmaPart.run s
    else bad.foldl (fun t b => mmaFail t b.1.c b.1.e b.2) s

/-- The next part of an MMA: a chunk or block and then the outlier list (R246 to R248); those of a joint form's members go together, at the
turn of the first that is not done (R250). -/
def mmaStep (s : State) (c : Nat) (e : MqEntry) (form : MmaForm) (o : Word) (list : Nat) (joint : Bool) : State :=
  match mmaRun s c e o joint with
  | none => mmaFail s c e ⟨10, o.toNat + 6 * 2 ^ 32, 1, 0, opA o⟩
  | some r =>
    if joint then
      match latchFor s e.wg e.id with
      | some x => if (unfinishedMembers s x).head?.any (fun z => decide (z.2.id = e.id ∧ z.1.core = c)) then jointStep s x else s
      | none => s
    else
      let m : MmaPart := ⟨c, e, form, o, list, r⟩
      match m.err s with
      | some k => mmaFail s c e k
      | none => m.run s

/-- An entry that finds, behind its good blocks, one that does not deliver: it waits there, or it stops there (R233, R394). -/
def readEnd (s : State) (c : Nat) (e : MqEntry) (g : Got) (va record : Nat) : State :=
  match g with
  | .fail k => mqMemFault s c e k va record
  | _ => s

/-- MXLD: the blocks of the image that lie in the next page (R239). DESIGN CHOICE (entry 83): a word that passed its check at issue, after
an RSV.FREE of its record was queued and before the record was cleared, finds no record here and raises kind 10 cause 6. -/
def mxldStep (s : State) (c : Nat) (e : MqEntry) (rec va : Nat) : State :=
  match ownRec s c e.wg rec with
  | none => mqFault s c e 10 (va % 2 ^ 32 + 6 * 2 ^ 32) 1 0 rec 0
  | some r =>
    let v := recView r.bits
    let total := v.mainLen + v.expLen
    let p := e.progress
    let n := if p < v.mainLen then inPage (va + p) (v.mainLen - p) else inPage (va + p) (total - p)
    match engineReadRun s (mqCmd c e) 33 (va + p) n with
    | (l, g, s1) =>
      let q := p + l.length
      let s2 := if p < v.mainLen then writeBehind s1 (bufAt c (v.base + p)) p l
        else writeBehind s1 (bufAt c (v.scoff + (p - v.mainLen))) (p - v.mainLen) l
      readEnd (stepped s2 c e q (decide (q = total))) c e g (va + q) rec

/-- ACC.LD: the blocks of the image that lie in the next page (R242). -/
def accLdStep (s : State) (c : Nat) (e : MqEntry) (t va : Nat) (cvt : Bool) : State :=
  if tileOther s c e.wg t then mqFault s c e 11 (va % 2 ^ 32 + 2 ^ 32) 1 0 0 0
  else
    let total := if cvt then 4096 else 8192
    let p := e.progress
    let n := inPage (va + p) (total - p)
    match engineReadRun s (mqCmd c e) 33 (va + p) n with
    | (l, g, s1) =>
      let q := p + l.length
      let wide := (List.range (l.length / 2)).flatMap (fun i => leBytes 4 (fcvt bf16 fp32 .rn (leNat ((l.drop (2 * i)).take 2))))
      let s2 := claimTile s1 c e.wg t
      readEnd (stepped (writeLocal s2 (tileAt c t 0 0 + (if cvt then 2 * p else p)) (if cvt then wide else l)) c e q (decide (q = total)))
        c e g (va + q) 0

/-- ACC.ST: the next 128 bytes of the image enter the write queue (R242, R232). -/
def accStStep (s : State) (c : Nat) (e : MqEntry) (t va : Nat) (cvt : Bool) : State :=
  if tileOther s c e.wg t then mqFault s c e 11 (va % 2 ^ 32 + 2 ^ 32) 1 0 0 0
  else
    let p := e.progress
    let total := if cvt then 32 else 64
    let a := tileAt c t 0 0 + (if cvt then 256 * p else 128 * p)
    if localPoison s a (if cvt then 256 else 128) then mqFault s c e 25 (pageDetail 0 3) 1 0 0 0
    else
      let l := if cvt then (List.range 64).flatMap (fun i => leBytes 2 (fcvt fp32 bf16 .rn (leNat (Mem.read s.mem (a + 4 * i) 4))))
        else Mem.read s.mem a 128
      match engineWrite s (mqCmd c e) (va + 128 * p) (byteTable l) with
      | (.wait, s1) => s1
      | (.fail k, s1) => mqMemFault s1 c e k (va + 128 * p) 0
      | (.bytes _, s1) => stepped s1 c e (p + 1) (decide (p + 1 = total))

/-- A tile set to +0 in every element (R241). -/
def zeroTile (s : State) (c t : Nat) : State := writeLocal s (tileAt c t 0 0) (List.replicate 8192 0)

end Sys2Proof.Machine
end

