-- ==== Sys2Proof/Machine/Grove.lean ====
section
/-!
DEFINITION. Machine/Grove.lean: the words of the Grove engine (R251 to R256), the sum of a row (R118), its checks (R255, R408), and
the events of the matrix queue: an entry starts and works, a lane's row is done, an entry ends (R230, R231).
-/
namespace Sys2Proof.Machine

/-! ## Words at issue -/

/-- The checks of GROVE.VT's control word and binding (R252): a stop kind and DETAIL. DESIGN CHOICE (entry 102): R251 gives NACT the range 1
to 32768 and R252 names no check of it; a larger one is taken as written. -/
def groveVtCheck (s : State) (u : Iss) (x : DWord) (y : Word) : Option (Nat × Nat) :=
  let c := y.toNat
  let t := bits c 2 0
  let bank := y.getLsbD 3
  let b := x.toNat
  let size := if bit b 24 then 2 else 4
  if bits c 30 25 ≠ 0 ∨ bits c 23 20 ≠ 0 then some (3, u.word)
  else if !bit c 31 && decide (255 < bits c 11 4 + bits c 19 12) then some (3, u.word)
  else if bit c 31 && decide (bits c 30 4 ≠ 0) then some (3, u.word)
  else if bit c 31 && (decide (bits b 63 48 ≠ 0 ∨ bits b 31 25 ≠ 0 ∨ bits b 23 21 ≠ 0 ∨ bits b 20 0 % size ≠ 0 ∨
      scratchBytes s u.f.wg < bits b 20 0 + bits b 47 32 * size)) then some (5, bits b 20 0)
  else if !bit c 31 && decide (b % (if bit c 24 then 2 else 4) ≠ 0) then some (4, b % 2 ^ 32)
  else if groveOther s u.c u.f.wg t then some (13, b % 2 ^ 32 + 2 * 2 ^ 32)
  else if bank = activeAfter s u.c t then some (13, b % 2 ^ 32 + 2 ^ 32)
  else none

/-- GROVE.VT (R252). -/
def execGroveVt (f : Side) (b : BitVec 5) (a : Src) (s : State) : Outcome :=
  mqWord64 s b a (fun u x y =>
    match groveVtCheck s u x y with
    | some (k, d) => trap s u k d
    | none => advance (enqueue (claimTable s u.c u.f.wg (bits y.toNat 2 0)) u (.groveVt y x) 0 (u.flag f)) u)

/-- GROVE.SWAP (R253). -/
def execGroveSwap (f : Side) (a : Src) (s : State) : Outcome :=
  mqWord s a (fun u x =>
    if x.toNat / 8 ≠ 0 then operandTrap s u
    else if groveOther s u.c u.f.wg x.toNat then causeTrap s u 13 x.toNat 2
    else advance (enqueue (claimTable s u.c u.f.wg x.toNat) u (.groveSwap x.toNat) 0 (u.flag f)) u)

/-- GROVE.RD (R254). -/
def execGroveRd (d : BitVec 4) (f : Side) (a : Src) (s : State) : Outcome :=
  match issuing s with
  | none => .next (hold s)
  | some u =>
    match eachLane u (read32 u a) with
    | none => .next (hold s)
    | some sel =>
      if writeHeld u (regsOf d.toNat 1) || !mqRoom s u.c then .next (hold s)
      else if sel.any (fun e => decide (bits e.2.toNat 31 12 ≠ 0)) then .next (operandTrap s u)
      else match sel.find? (fun e => groveOther s u.c u.f.wg (bits e.2.toNat 2 0)) with
        | some e => .next (causeTrap s u 13 e.2.toNat 2)
        | none => .next (laneEngineWord s u (.groveRd sel) d (u.flag f))

/-- ACTIVE of the eight tables as a queued row sees it (R256). -/
def activeBanks (s : State) (c : Nat) : BitVec 8 :=
  (List.range 8).foldl (fun m t => if activeAfter s c t then m ||| BitVec.twoPow 8 t else m) 0

/-- GROVE.ROW (R256): each lane's row address is R201's; it must be 4-byte aligned. -/
def execGroveRow (r : BitVec 4) (f : Side) (b : Src) (x : BitVec 9) (s : State) : Outcome :=
  match issuing s with
  | none => .next (hold s)
  | some u =>
    match eachLane u (read32 u b) with
    | none => .next (hold s)
    | some base =>
      if writeHeld u (regsOf r.toNat 1) || !mqRoom s u.c then .next (hold s)
      else
        let eas := base.map (fun e => (e.1, effective e.2 (off9 x * 4)))
        match eas.find? (fun e => decide (e.2 % 4 ≠ 0)) with
        | some e => .next (trap s u 4 e.2)
        | none =>
          let rows := eas.map (fun e => (e.1, regionVa (regionOf s u.f.wg) e.2))
          .next (laneEngineWord s u (.groveRow rows (activeBanks s u.c) base) r (u.flag f))

/-! ## Rows (R118, R255, R408) -/

/-- A binding's fields (R251). -/
structure Binding where
  nact : Nat
  size : Nat
  off : Nat
deriving DecidableEq, Repr

def bindingOf (b : DWord) : Binding := ⟨bits b.toNat 47 32, if b.getLsbD 24 then 2 else 4, bits b.toNat 20 0⟩

/-- The binding of a bank of a table; an unowned table's is unbound. -/
def tableBinding (s : State) (c t : Nat) (bank : Bool) : Binding :=
  match groveTab s c t with
  | none => bindingOf 0
  | some g => bindingOf (if bank then g.bind1 else g.bind0)

def isKnot (h : Nat) : Bool := bit h 15

/-- The first failing check of a row's halves: cause and half index (R408). -/
def rowFaultFrom (nact : Nat) : Nat → Nat → List Nat → Option (Nat × Nat)
  | _, _, [] => none
  | i, knots, h :: t =>
    if i = 0 ∧ !isKnot h then some (3, i)
    else if isKnot h then
      if bits h 14 8 ≠ 0 then some (4, i)
      else if (match t with | [] => true | n :: _ => isKnot n) then some (5, i)
      else if knots = 64 then some (6, i)
      else rowFaultFrom nact (i + 1) (knots + 1) t
    else if nact ≤ h then some (7, i)
    else rowFaultFrom nact (i + 1) knots t

/-- A row's groups in order: value index and positions. -/
def rowGroups (l : List Nat) : List (Nat × List Nat) :=
  l.foldl (fun g h =>
    if isKnot h then g ++ [(h % 256, [])]
    else match g.reverse with
      | [] => g
      | (v, ps) :: r => r.reverse ++ [(v, ps ++ [h])]) []

/-- A group's value times the sum of its activations (R118), as FP32 bits: `v` a group's value, `x` an activation. -/
def groupPart (v x : Nat → Nat) (e : Nat × List Nat) : Nat :=
  match e.2 with
  | [] => 0
  | p :: r => fmul fp32 .rn (v e.1) (r.foldl (fun s q => fadd fp32 .rn s (x q)) (x p))

/-- The sum over the first groups with one more added (R118). -/
def addGroup (v x : Nat → Nat) (first : Bool) (y : Nat) (e : Nat × List Nat) : Nat :=
  if first then groupPart v x e else fadd fp32 .rn y (groupPart v x e)

/-- The sum of a row (R118): `v` a group's value, `x` an activation, as FP32 bits. -/
def rowSum (g : List (Nat × List Nat)) (v x : Nat → Nat) : Nat :=
  match g with
  | [] => 0
  | e :: r => r.foldl (addGroup v x false) (addGroup v x true 0 e)

/-- An activation, widened exactly (R108). -/
def activation (s : State) (w : Workgroup) (b : Binding) (p : Nat) : Nat :=
  let n := leNat (scratchBytesAt s w (b.off + p * b.size) b.size)
  if b.size = 2 then fcvt bf16 fp32 .rn n else n

/-- The storage number of a value entry. -/
def groveEntry (c t : Nat) (bank : Bool) (i : Nat) : Nat := groveAt c t (bnat bank) i

/-- A lane's result delivered, and its share of the flag finished (R231). -/
def deliverEntry (s : State) (c : Nat) (e : MqEntry) (vals : Table Word) : State :=
  finishFlags (deliverTo s c e.lf e.id (vals.map (fun v => (v.1, [v.2])))) c e.lf (maskOf (vals.map (fun v => v.1))) e.flag

/-- A lane's row read and checked before any sum (R255, R256): its header and halves are kept in hand. The sum goes on from
the group that the progress index names (R371, R410). -/
def rowRead (s : State) (c : Nat) (e : MqEntry) (active : BitVec 8) (opd : Word) (lane va : Nat) : State :=
  let u := mqCmd c e
  match engineReadAll s u va 4 with
  | (.wait, _, s1) => s1
  | (.fail k, a, s1) => mqFault s1 c e k (engineDetail k a) 3 0 0 lane
  | (.bytes hd, _, s1) =>
    let h := leNat hd
    let t := bits h 18 16
    let n := bits h 15 0
    let len := (n + 1) / 2 * 4
    let format (z : State) (cause ix : Nat) : State := mqFault z c e 14 (va % 2 ^ 32 + cause * 2 ^ 32) 3 ix t lane
    if bits h 31 19 ≠ 0 then format s1 1 0
    else if n < 2 then format s1 2 0
    else if groveOther s1 c e.wg t then mqFault s1 c e 13 (opd.toNat + 2 * 2 ^ 32) 3 0 t lane
    else match engineReadAll s1 u (va + 4) len with
      | (.wait, _, s2) => s2
      | (.fail k, a, s2) => mqFault s2 c e k (engineDetail k a) 3 0 t lane
      | (.bytes body, _, s2) =>
        let halves := (List.range n).map (fun i => leNat ((body.drop (2 * i)).take 2))
        match rowFaultFrom (tableBinding s2 c t (active.getLsbD t)).nact 0 0 halves with
        | some (cause, ix) => format s2 cause ix
        | none => modMq s2 c e.id (fun e => { e with list := some (h :: halves) })

/-- The table and the groups of the row in hand. -/
def rowInHand (l : List Nat) : Nat × List (Nat × List Nat) := (bits (l.headD 0) 18 16, rowGroups (l.drop 1))

/-- The next group of the row in hand added to its sum (R118); the progress index counts it (R256). -/
def groupStep (s : State) (c : Nat) (e : MqEntry) (active : BitVec 8) (lane : Nat) (l : List Nat) : State :=
  let t := (rowInHand l).1
  let bank := active.getLsbD t
  let b := tableBinding s c t bank
  match (rowInHand l).2[e.group]?, workgroup s e.wg with
  | none, _ => s
  | some _, none => modMq s c e.id (fun e => { e with finished := true })
  | some g, some w =>
    if poisoned s (groveEntry c t bank g.1) || g.2.any (fun p => scratchPoison s w (b.off + p * b.size) b.size) then
      mqFault s c e 25 (pageDetail 0 3) 3 0 t lane
    else
      let y := addGroup (fun i => leNat (Mem.read s.mem (groveEntry c t bank i) 4)) (activation s w b) (decide (e.group = 0)) e.acc.toNat g
      modMq s c e.id (fun e => { e with group := e.group + 1, acc := BitVec.ofNat 32 y })

/-- The next part of the row of the lane in hand: the row is read, or one group is summed (R256). -/
def rowPart (s : State) (c : Nat) (e : MqEntry) (rows : Table Nat) (active : BitVec 8) (opds : Table Word) : State :=
  match rows[e.progress]?, e.list with
  | none, _ => modMq s c e.id (fun e => { e with finished := true })
  | some (lane, va), none => rowRead s c e active (look opds lane 0) lane va
  | some (lane, _), some l => groupStep s c e active lane l

/-- The row of the lane in hand is done when its last group is summed: its result is delivered, and the next lane's row comes (R256). -/
def rowStep (s : State) (c : Nat) (e : MqEntry) (rows : Table Nat) : State :=
  match rows[e.progress]?, e.list with
  | some (lane, _), some l =>
    if (rowInHand l).2.length ≤ e.group then
      deliverEntry (modMq s c e.id (fun e => { e with
        progress := e.progress + 1, group := 0, list := none, acc := 0, finished := decide (rows.length ≤ e.progress + 1) }))
        c e [(lane, e.acc)]
    else s
  | _, _ => s

/-! ## GROVE.VT's work (R252) -/

def setBinding (g : GroveTab) (bank : Bool) (b : DWord) : GroveTab := if bank then { g with bind1 := b } else { g with bind0 := b }

/-- The binding written, or the entries that the blocks of the next page hold. -/
def vtStep (s : State) (c : Nat) (e : MqEntry) (ctl : Word) (x : DWord) : State :=
  let t := bits ctl.toNat 2 0
  let bank := ctl.getLsbD 3
  if ctl.getLsbD 31 then
    stepped (modCore s c (fun k => modC k (fun y => { y with grove := changeIf y.grove t (fun g => setBinding g bank x) }))) c e 0 true
  else
    let size := if ctl.getLsbD 24 then 2 else 4
    let total := (bits ctl.toNat 19 12 + 1) * size
    let p := e.progress
    let n := inPage (x.toNat + p) (total - p)
    match engineReadRun s (mqCmd c e) 33 (x.toNat + p) n with
    | (l, g, s1) =>
      let q := p + l.length
      let vals := if size = 2 then (List.range (l.length / 2)).flatMap (fun i => leBytes 4 (fcvt bf16 fp32 .rn (leNat ((l.drop (2 * i)).take 2)))) else l
      readEnd (stepped (writeBehind s1 (groveEntry c t bank (bits ctl.toNat 11 4 + p / size)) (p / size * 4) vals) c e q (decide (q = total)))
        c e g (x.toNat + q) t

/-! ## The events of the matrix queue -/

/-- The next part of an entry's work. -/
def entryStep (s : State) (c : Nat) (e : MqEntry) : State :=
  match e.kind with
  | .rsvFree r =>
    stepped (if (ownRec s c e.wg r).isSome then modCore s c (fun k => modC k (fun y => { y with recs := drop y.recs r })) else s) c e 0 true
  | .mxld r va => mxldStep s c e r va
  | .mma form o list joint => mmaStep s c e form o list joint
  | .accZero t =>
    if tileOther s c e.wg t then mqFault s c e 11 (t + 2 ^ 32) 1 0 0 0 else stepped (zeroTile (claimTile s c e.wg t) c t) c e 0 true
  | .accLd t va cvt => accLdStep s c e t va cvt
  | .accSt t va cvt => accStStep s c e t va cvt
  | .accFree t =>
    if tileOther s c e.wg t then mqFault s c e 11 (t + 2 ^ 32) 1 0 0 0 else stepped (freeTile s c t) c e 0 true
  | .accRd _ | .groveRd _ | .short => stepped s c e 0 true
  | .groveVt ctl x => vtStep s c e ctl x
  | .groveSwap t =>
    stepped (modCore s c (fun k => modC k (fun y => { y with grove := changeIf y.grove t (fun g => { g with active := !g.active }) }))) c e 0 true
  | .groveRow rows active opds => rowPart (modMq s c e.id (fun e => { e with started := true })) c e rows active opds

/-- A joint entry at the latch: once released its threads unpark and it starts; before, the latch is tested again. -/
def startJoint (s : State) (c : Nat) (e : MqEntry) : State :=
  match latchFor s e.wg e.id with
  | none => s
  | some x => if x.fired then unparkMember (modMq s c e.id (fun e => { e with started := true })) c e else tryRelease s x

/-- Whether an entry is a joint one that has not started. -/
def atLatch (e : MqEntry) : Bool := !e.started && (match e.kind with | .mma _ _ _ j => j | _ => false)

/-- Whether an entry may work now: its engine runs, nothing before it names the same things, no fence holds its path (R230, R88). -/
def entryReady (s : State) (c : Nat) (e : MqEntry) : Bool :=
  !e.finished && e.fault.isNone && !engineHeld s c && !mqBehind s c e && !xHeld s (mqCmd c e)

/-- The work of an entry that may proceed: another context's tile is spilled first (R373). -/
def startEntry (s : State) (c : Nat) (e : MqEntry) : State :=
  match (mqTiles e.kind).find? (fun t => needsSpill s c t) with
  | some t => spillTrap s c t
  | none => if atLatch e then startJoint s c e else entryStep s c e

/-- The next part of a matrix-queue entry's work, if it may proceed (R230, R248, R233). -/
def mqStart (s : State) (c : Nat) (e : MqEntry) : State := if entryReady s c e then startEntry s c e else s

/-- GROVE_LANE_DONE (R256): the row of the next present lane, in lane order. -/
def execGroveLaneDone (c i : Nat) (s : State) : Outcome :=
  match mqOf s c i with
  | none => .next s
  | some e => match e.kind with
    | .groveRow rows _ _ =>
      if e.started && entryReady s c e then .next (rowStep s c e rows) else .next s
    | _ => .next s

/-- Lanes whose element lies in a poisoned unit fail (R414, R394); the others receive theirs. -/
def deliverReads (s : State) (c : Nat) (e : MqEntry) (place : Word → Nat) (sel : Table Word) : State :=
  let bad := sel.filter (fun x => poisoned s (place x.2))
  let good := sel.filter (fun x => !poisoned s (place x.2))
  let s1 := deliverEntry s c e (good.map (fun x => (x.1, BitVec.ofNat 32 (leNat (Mem.read s.mem (place x.2) 4)))))
  let m := maskOf (bad.map (fun x => x.1))
  let s2 := finishFlags (failLanes s1 c e.lf e.id 1 m) c e.lf m e.flag
  if m = 0 then s2
  else
    let u := mqCmd c e
    noteError (raise s2 ⟨25, c, e.lf, u.engine, thrField e.lf (lowest m), e.pc, pageDetail 0 3, none⟩) c 25 (pageDetail 0 3)
      (if u.engine = 2 then 3 else 1) 0 (if u.engine = 2 then bits (look sel (lowest m) 0).toNat 2 0 else 0) (if u.engine = 2 then lowest m else 0)

/-- The lane of ACC.RD or GROVE.RD whose element lies, at its turn, in a tile or table of another workgroup (R240, R251). DEDUCED (entry 83):
the trap of the issue's check is raised by the engine then. -/
def readOther (s : State) (c : Nat) (e : MqEntry) : Option (Nat × Word) :=
  match e.kind with
  | .accRd sel => sel.find? (fun x => tileOther s c e.wg (bits x.2.toNat 5 0))
  | .groveRd sel => sel.find? (fun x => groveOther s c e.wg (bits x.2.toNat 2 0))
  | _ => none

/-- The trap of such a lane; no lane of the word receives a value. -/
def otherFault (s : State) (c : Nat) (e : MqEntry) (x : Nat × Word) : State :=
  match e.kind with
  | .groveRd _ => mqFault s c e 13 (x.2.toNat + 2 * 2 ^ 32) 3 0 (bits x.2.toNat 2 0) x.1
  | _ => mqFault s c e 11 (x.2.toNat + 2 ^ 32) 1 0 0 0

/-- Whether the entry of a joint form is member 0's while another member still needs its B: for its chunks or blocks, or for its outlier
list (R117, R250). -/
def jointBusy (s : State) (e : MqEntry) : Bool :=
  match latchFor s e.wg e.id with
  | none => false
  | some x => (memberZero s x).any (fun z => decide (z.2.id = e.id)) && (members s x).any (fun m => !m.2.finished)

/-- A latch whose members have all ended goes. -/
def sweepLatches (s : State) : State :=
  { s with latches := s.latches.filter (fun x => !x.fired || !(members s x).isEmpty) }

/-- An entry whose work is done clears its flag and leaves the queue (R231). -/
def mqFinish (s : State) (c : Nat) (e : MqEntry) : State :=
  if !e.finished || e.fault.isSome || !engineDrained s c e.id || jointBusy s e then s
  else match readOther s c e with
  | some x => otherFault s c e x
  | none =>
    let s1 := match e.kind with
      | .accRd sel => deliverReads s c e (fun x => tileAt c (bits x.toNat 5 0) (bits x.toNat 11 6) (bits x.toNat 16 12)) sel
      | .groveRd sel => deliverReads s c e (fun x => groveEntry c (bits x.toNat 2 0) (x.getLsbD 3) (bits x.toNat 11 4)) sel
      | .groveRow _ _ _ => s
      | _ => finishFlags s c e.lf e.lanes e.flag
    sweepLatches (dropEntry s1 c e)

end Sys2Proof.Machine
end

