-- ==== Sys2Proof/Machine/Async.lean ====
section
/-!
DEFINITION. Machine/Async.lean: the engine commands XFER, COLL and LAUNCH as they issue (R274 to R283), launch records (R23, R302),
and the work of the copy and collective engines with their completion (R221, R279, R282, R427, R428).
-/
namespace Sys2Proof.Machine

/-! ## Command records (R274) -/

/-- The offset or address e of an engine command. -/
def engineE (base : Word) (x : BitVec 9) : Nat := effective base (off9 x * 64)

/-- A field of a record: `n` bytes from an offset. -/
def field (b : List Byte) (off n : Nat) : Nat := leNat ((b.drop off).take n)

/-- A field read as two's complement. -/
def fieldInt (b : List Byte) (off : Nat) : Int := toInt 32 (field b off 4)

/-- Whether a write of the issuing threads to scratchpad is still on its way: a record read at issue comes after it. -/
def recordPending (s : State) (u : Iss) : Bool :=
  (core s u.c).reqs.any (fun r => !r.act.isLoad && sameThread u.l u.cl.lanes r && (match r.space with | .scr _ => true | _ => false))

/-- A completion field (R277), none where it breaks the layout. -/
def doneOf (x : Nat) : Option Done :=
  let a := bits x 47 0
  if bits x 61 48 ≠ 0 then none
  else match x / 2 ^ 62 with
    | 0 => if a = 0 then some .none else none
    | 1 => if a % 4 = 0 then some (.word a) else none
    | 2 => if a % 16 = 0 ∧ a < 2 ^ 32 then some (.arrival (BitVec.ofNat 32 a)) else none
    | _ => none

/-! ## Shapes (R275) -/

/-- The five values of a per-dimension field: width `w` bytes from an offset. -/
def dims (b : List Byte) (off w n : Nat) : List Nat := (List.range n).map (fun i => field b (off + w * i) w)

/-- A shape record as read; none where a field is out of range or a reserved one is not zero. `tiled` is set for a source. -/
def shapeOf (b : List Byte) (tiled : Bool) : Option Shape :=
  let base := field b 0 8
  let rank := field b 8 1
  let efmt := field b 9 1
  let ext := dims b 16 4 5
  let str := dims b 36 4 4
  let tile := dims b 52 2 5
  let sp := bit base 63
  let okBase := if sp then decide (bits base 62 32 = 0) else decide (bits base 62 48 = 0)
  let zeroFrom (l : List Nat) (n : Nat) : Bool := (l.drop n).all (fun x => x == 0)
  if okBase && decide (1 ≤ rank ∧ rank ≤ 5 ∧ efmt ≤ 3) && decide (field b 10 6 = 0 ∧ field b 62 2 = 0) &&
      (ext.take rank).all (fun x => x != 0) && zeroFrom ext rank && zeroFrom str (rank - 1) && zeroFrom tile rank &&
      (!tiled || (tile.take rank).all (fun x => x != 0)) then
    some ⟨sp, if sp then base % 2 ^ 32 else base % 2 ^ 48, rank, 2 ^ efmt, ext.take rank, str.take (rank - 1), tile.take rank⟩
  else none

/-- The byte offset of an index in a shape: the sum of R275, modulo 2^48. -/
def shapeOff (x : Shape) (i : List Nat) : Nat :=
  ((i.zip (x.esize :: x.str)).map (fun p => p.1 * p.2)).sum % 2 ^ 48

/-- The elements of a tile. -/
def tileCount (x : Shape) : Nat := x.tile.foldl (fun n t => n * t) 1

/-! ## XFER at issue (R277, R278, R280) -/

/-- The command that a record describes, and its completion; none for an engine-command trap. -/
def xferOf (s : State) (w : Workgroup) (u : Iss) (b : List Byte) : Option (EngKind × Done) :=
  let limit := scratchBytes s w.id
  let ss := field b 0 4
  let ds := field b 4 4
  if ss % 64 ≠ 0 ∨ ds % 64 ≠ 0 ∨ limit ≤ ss ∨ limit ≤ ds ∨ (b.drop 36).any (fun x => x != 0) then none
  else match shapeOf (scratchBytesAt s w ss 64) true, shapeOf (scratchBytesAt s w ds 64) false, doneOf (field b 8 8) with
    | some x, some y, some d =>
      let dc := (List.range 5).map (fun i => fieldInt b (16 + 4 * i))
      if x.rank ≠ y.rank ∨ x.esize ≠ y.esize ∨ 2 ^ 24 < tileCount x * x.esize ∨ (dc.drop x.rank).any (fun v => v != 0) then none
      else
        let org := (List.range x.rank).map (fun i => ((thread u.f u.low).n.getD (8 + i) 0).toInt)
        some (.xfer x y org (dc.take x.rank), d)
    | _, _, _ => none

/-- Whether n8 to n12 of the lowest present lane may be read (R162). -/
def originReady (u : Iss) : Bool := (List.range 5).all (fun i => (readNamed (thread u.f u.low) (8 + i)).isSome)

/-- An engine command entered: its result slot pends, its flag is selected, and the bundle goes on. -/
def enterEngine (s : State) (u : Iss) (k : EngKind) (d : Done) (e : Nat) (reg : Nat) (flag : Option Nat) (num : Word) : State :=
  let op := s.ops
  let x : EngOp :=
    { id := op, lf := u.l, wg := u.f.wg, pc := u.pc, lanes := u.cl.lanes, reg := reg, flag := flag, number := num, kind := k, done := d
      e := e, progress := 0, sent := 0, data := [], ended := false, fault := none, cycle := s.cycle, missed := [] }
  let s1 := undoShifts (fresh s) u 1
  let s2 := modCore s1 u.c (fun k => modC k (fun y => { y with eng := y.eng ++ [x] }))
  advance (modLF s2 u.c u.l (fun f => selectFlags (pend f u.cl.lanes op 1 reg true u.pc) u.cl.lanes flag u.pc)) u

/-- XFER and COLL: the record at scratchpad offset e, read on the thread path, so after an earlier acquire has returned (R80, R274).
`start` makes the command. -/
def scratchCommand (s : State) (r : BitVec 4) (b : Src) (x : BitVec 9) (ready : Iss → Bool)
    (start : Iss → Workgroup → List Byte → Nat → State) : Outcome :=
  match issuing s with
  | none => .next (hold s)
  | some u =>
    match read32 u b u.low, workgroup s u.f.wg with
    | none, _ => .next (hold s)
    | some base, ow =>
      let e := engineE base x
      if writeHeld u (regsOf r.toNat 1) || acquiring s u || recordPending s u || !ready u then .next (hold s)
      else if e % 64 ≠ 0 then .next (trap s u 4 e)
      else if scratchBytes s u.f.wg ≤ e then .next (trap s u 5 e)
      else match ow with
        | none => .next (trap s u 5 e)
        | some w =>
          if scratchPoison s w e 64 then .next (trap s u 25 (pageDetail 0 3))
          else .next (start u w (scratchBytesAt s w e 64) e)

/-- XFER (R277). -/
def execXfer (r : BitVec 4) (f : Side) (b : Src) (x : BitVec 9) (s : State) : Outcome :=
  scratchCommand s r b x originReady (fun u w l e =>
    match xferOf s w u l with
    | none => trap s u 15 e
    | some (k, d) =>
      let n := (core s u.c).copyNo
      enterEngine (modCore s u.c (fun y => { y with copyNo := y.copyNo + 1 })) u k d e r.toNat (u.flag f) n)

/-! ## COLL at issue (R281, R282, R329) -/

/-- The fields of a member word: part, core and context. -/
def memberPart (w : DWord) : Nat := bits w.toNat 19 0
def memberCore (w : DWord) : Nat := bits w.toNat 29 20
def memberCtx (w : DWord) : Nat := bits w.toNat 45 30

/-- The element size of EFMT. -/
def collSize (efmt : Nat) : Nat := if efmt = 1 then 2 else 4

/-- The member list of a group (R329): the words at LIST, read from HBM. -/
def groupList (s : State) (g : Nat) : Option (List DWord × Nat) :=
  match lookup s.groups g with
  | some (w :: list :: _) =>
    let n := bits w.toNat 12 0
    if bit w.toNat 31 ∧ 2 ≤ n ∧ n ≤ 4096 ∧ bits w.toNat 63 32 < n then
      some ((List.range n).map (fun i =>
        BitVec.ofNat 64 (leNat (granuleBytes s (list.toNat + 8 * i) 8))), bits w.toNat 63 32)
    else none
  | _ => none

/-- The member index of a core in a group: the first member of this part on the core with the context, else the entry's own M
(entry 19). -/
def memberIndex (l : List DWord) (m c ctx : Nat) : Nat :=
  let part := memberPart (l.getD m 0)
  match l.findIdx? (fun w => decide (memberPart w = part ∧ memberCore w = c ∧ memberCtx w = ctx)) with
  | some i => i
  | none => m

/-- The collective that a record describes; `none` for an engine-command trap. -/
def collOf (s : State) (c : Nat) (b : List Byte) : Option (Collective × Done) :=
  let op := field b 0 1
  let red := field b 1 1
  let efmt := field b 2 1
  let size := collSize efmt
  let count := field b 24 4
  let root := field b 28 4
  let src := field b 8 8
  let dsta := field b 16 8
  if 3 ≤ op ∨ 3 ≤ red ∨ (op ≠ 0 ∧ red ≠ 0) ∨ 3 ≤ efmt ∨ field b 3 1 ≠ 0 ∨ 4096 ≤ field b 4 4 ∨ 2 ^ 48 ≤ src ∨ 2 ^ 48 ≤ dsta ∨
      src % size ≠ 0 ∨ dsta % size ≠ 0 ∨ count = 0 ∨ 2 ^ 28 < count ∨ (op ≠ 2 ∧ root ≠ 0) ∨ (b.drop 40).any (fun x => x != 0) then none
  else match groupList s (field b 4 4), doneOf (field b 32 8) with
    | some (l, m), some d =>
      if op = 2 ∧ l.length ≤ root then none
      else
        let me := memberIndex l m c (ctxId s)
        some (⟨op, red, efmt, field b 4 4, src, dsta, count, root, l, me, look s.groupSeq (field b 4 4 * 65536 + me) 0⟩, d)
    | _, _ => none

/-- Whether a member lies on this part. -/
def Collective.onPart (x : Collective) (j : Nat) : Bool := decide (memberPart (x.mems.getD j 0) = memberPart (x.mems.getD x.me 0))

/-- COLL (R281). -/
def execColl (r : BitVec 4) (f : Side) (b : Src) (x : BitVec 9) (s : State) : Outcome :=
  scratchCommand s r b x (fun _ => true) (fun u _ l e =>
    match collOf s u.c l with
    | none => trap s u 15 e
    | some (y, d) =>
      if !s.caps.getLsbD 3 && (List.range y.mems.length).any (fun j => !y.onPart j) then trap s u 9 3
      else
        let n := (core s u.c).collNo
        let s1 := { s with groupSeq := put s.groupSeq (y.group * 65536 + y.me) (y.k + 1) }
        enterEngine (modCore s1 u.c (fun k => { k with collNo := k.collNo + 1 })) u (.coll y) d e r.toNat (u.flag f) n)

/-! ## Launch records (R23, R302) and LAUNCH (R283) -/

/-- Whether a field of a launch record is out of range (R23, R302). DESIGN CHOICE (entry 104): ENTRY or DONE with bits 63:48 not zero counts as
out of range; R23 states only their alignment. -/
def recordBad (b : List Byte) : Bool :=
  let n := field b 16 4 * field b 20 4 * field b 24 4
  let sched := field b 36 4
  decide (field b 0 8 % 4 ≠ 0 ∨ 2 ^ 48 ≤ field b 0 8 ∨ field b 8 8 % 4 ≠ 0 ∨ 2 ^ 48 ≤ field b 8 8 ∨ n = 0 ∨ 2 ^ 32 < n ∨
    field b 28 2 = 0 ∨ 1024 < field b 28 2 ∨ field b 30 1 = 0 ∨ 16 < field b 30 1 ∨ field b 31 1 = 0 ∨ 8 < field b 31 1 ∨
    n % field b 31 1 ≠ 0 ∨ 512 < field b 32 2 ∨ 1536 < field b 34 2 ∨ bits sched 31 16 ≠ 0 ∨ 64 < bits sched 15 8 ∨
    bits sched 7 6 ≠ 0 ∨ 4 < bits sched 5 3)

/-- NDEP of a record. -/
def recordDeps (b : List Byte) : Nat := bits (field b 36 4) 5 3

/-- Whether a dependence entry is malformed (R283, R302). -/
def depBad (b : List Byte) (i : Nat) : Bool :=
  decide (field b (16 * i) 8 % 4 ≠ 0 ∨ 2 ^ 48 ≤ field b (16 * i) 8 ∨ field b (16 * i + 12) 4 ≠ 0)

def depOf (b : List Byte) (i : Nat) : Nat × Nat := (field b (16 * i) 8, field b (16 * i + 8) 4)

/-- A launch from its record. -/
def launchFrom (id ctx : Nat) (num : Word) (b : List Byte) (deps : List (Nat × Nat)) (prio source : Nat) : Launch where
  id := id
  number := num
  ctx := ctx
  entry := field b 0 8
  doneAt := field b 8 8
  x := field b 16 4
  y := field b 20 4
  z := field b 24 4
  wgThreads := field b 28 2
  wgPerCl := field b 30 1
  stages := field b 31 1
  scratch := field b 32 2
  nearGrant := field b 34 2
  tiles := bits (field b 36 4) 15 8
  prio := prio
  args := (List.range 6).map (fun i => BitVec.ofNat 32 (field b (40 + 4 * i) 4))
  source := source
  deps := deps
  ready := none
  placed := 0
  finished := 0
  posted := false
  gang := false
  faulted := false
  hostWrites := []

/-- A record read at issue as a load of the lowest present lane (R274, R211): the state to stop in, or the bytes. -/
def readRecord (s : State) (u : Iss) (va n : Nat) : Except State (List Byte) × State :=
  let ctx := ctxId s
  match checkPages s u.c ctx [(u.low, .virt ctx va)] n 0 false with
  | (.hold, s1) => (.error (hold s1), s1)
  | (.trap k d, s1) => (.error (trap s1 u k d), s1)
  | (.cap p, s1) => (.error (parkCap s1 u p 0 none), s1)
  | (.ok _ _, s1) =>
    match engineReadAll s1 ⟨u.c, u.f.wg, u.l, u.cl.lanes, u.pc, 0, .thr, s.ops⟩ va n with
    | (.wait, _, s2) => (.error (hold s2), s2)
    | (.fail k, a, s2) => (.error (trap s2 u k (stopDetail k (a / 4096) 0)), s2)
    | (.bytes l, _, s2) => (.ok l, s2)

/-- The dependence list of a record at `va`. -/
def readDeps (s : State) (u : Iss) (va n : Nat) : Except State (List Byte) × State :=
  if n = 0 then (.ok [], s) else readRecord s u (regionAdd va 64) (16 * n)

/-- LAUNCH (R283). -/
def execLaunch (r : BitVec 4) (f : Side) (b : Src) (x : BitVec 9) (s : State) : Outcome :=
  match issuing s with
  | none => .next (hold s)
  | some u =>
    match read32 u b u.low with
    | none => .next (hold s)
    | some base =>
      let e := engineE base x
      let va := regionVa (regionOf s u.f.wg) e
      if writeHeld u (regsOf r.toNat 1) || acquiring s u then .next (hold s)
      else if e % 64 ≠ 0 then .next (trap s u 4 e)
      else match readRecord s u va 64 with
        | (.error t, _) => .next t
        | (.ok l, s1) =>
          if recordBad l then .next (trap s1 u 15 e)
          else match readDeps s1 u va (recordDeps l) with
            | (.error t, _) => .next t
            | (.ok d, s2) =>
              if (List.range (recordDeps l)).any (depBad d) then .next (trap s2 u 15 e)
              else if !released s2 u.c u.l u.cl.lanes s2.ops .dev then .next (hold s2)
              else
                let p := min (bits (field l 36 4) 2 0) (match launchOf s2 u.f.wg with | some y => y.prio | none => 0)
                let n := look s2.launchNo (ctxId s2) 0
                let s3 := { s2 with launchNo := put s2.launchNo (ctxId s2) (n + 1) }
                .next (enterEngine s3 u (.launch l ((List.range (recordDeps l)).map (depOf d)) p) .none e r.toNat (u.flag f) n)

/-! ## Engine operations -/

def engOf (s : State) (c i : Nat) : Option EngOp := (core s c).c.eng.find? (fun e => e.id = i)
def modEng (s : State) (c i : Nat) (f : EngOp → EngOp) : State :=
  modCore s c (fun k => modC k (fun y => { y with eng := y.eng.map (fun e => if e.id = i then f e else e) }))

def engCmd (c : Nat) (e : EngOp) : Cmd :=
  ⟨c, e.wg, e.lf, e.lanes, e.pc, (match e.kind with | .xfer _ _ _ _ => 3 | .coll _ => 4 | .launch _ _ _ => 5),
    (match e.kind with | .coll _ => .coll | _ => .copy), e.id⟩

/-- A fault found by the copy or collective engine (R233): it stops with its flag busy. -/
def engFault (s : State) (c : Nat) (e : EngOp) (kind detail : Nat) : State :=
  noteError (modEng (raiseCmd s (engCmd c e) kind detail) c e.id (fun e => { e with fault := some (kind, detail) })) c kind detail 0 0 0 0

/-- The flag clears and the number is delivered (R274, R279). -/
def endEngine (s : State) (c : Nat) (e : EngOp) : State :=
  finishFlags (deliverTo s c e.lf e.id ((lanesOf e.lanes).map (fun i => (i, [e.number])))) c e.lf e.lanes e.flag

def dropEngine (s : State) (c : Nat) (e : EngOp) : State :=
  sweepGone (modCore s c (fun k => modC k (fun y => { y with eng := y.eng.filter (fun x => x.id != e.id) }))) c e.wg

/-! ## Scratchpad addresses of engines -/

/-- The storage number of a byte at an offset from a cluster scratchpad address, for a workgroup of the cluster; none outside the
target scratchpad (R208, R280). -/
def clusterByte (s : State) (wg base off : Nat) : Option Nat :=
  if !isCluster base then none
  else match workgroup s wg, launchOf s wg with
    | some w, some x =>
      let o := clusterOff base + off
      if clusterRank base < x.wgPerCl ∧ o < scratchBytes s wg then some (mateByte s w (clusterRank base) o)
      else none
    | _, _ => none

/-- A write of bytes into scratchpad entered as requests, one for each 128-byte block of storage. -/
def scratchWrite (s : State) (u : Cmd) (cells : List (Nat × Byte)) : State :=
  (partsOf (cells.map (fun e => (lowest u.lanes, .scr e.1, e.2)))).foldl (fun s p =>
    addReq s u.c
      { id := 0, op := u.id, lf := u.lf, wg := u.wg, pc := u.pc, lanes := u.lanes, act := .store, who := [], space := p.space, mask := p.mask
        data := p.data, flag := none, ordering := 1, acq := false, rel := none, path := u.path, engine := some u.id
        phase := .sent, ent := none, entAt := 0, left := 0, rejects := 0 }) s

/-- Bytes written from a virtual address, one write-queue entry for each 128-byte block; nothing is entered unless all may be. -/
def engineWriteAll (s : State) (u : Cmd) (va : Nat) (l : List Byte) : Got × State :=
  let n := min l.length (128 - va % 128)
  if l.length ≤ n then engineWrite s u va (byteTable l)
  else if !queueRoom s u.c 2 then (.wait, s)
  else match engineWrite s u (va + n) (byteTable (l.drop n)) with
    | (.bytes _, s1) =>
      match engineWrite s1 u va (byteTable (l.take n)) with
      | (.bytes x, s2) => (.bytes x, s2)
      | (r, s2) => (r, modCore s2 u.c (fun k => { k with reqs := k.reqs.filter (fun r => decide (r.engine ≠ some u.id)) }))
    | r => r

/-! ## XFER's parts (R278, R279) -/

/-- The indices of a tile's rows along dimension 0: t[1] fastest. -/
def tileRows : List Nat → List (List Nat)
  | [] => [[]]
  | n :: r => (tileRows r).flatMap (fun t => (List.range n).map (fun i => i :: t))

/-- An index shifted by an origin, if it lies in the extents. -/
def inExtents (ext : List Nat) (o : List Int) (t : List Nat) : Option (List Nat) :=
  (ext.zip (o.zip t)).mapM (fun p =>
    let q := p.2.1 + (p.2.2 : Int)
    if 0 ≤ q ∧ q < (p.1 : Int) then some q.toNat else none)

/-- An element that an XFER writes: its byte offset in the destination and, where it is copied and not filled with zero, in the
source. -/
structure Elem where
  dst : Nat
  src : Option Nat
deriving DecidableEq, Repr

/-- The elements of a tile row, in ascending t[0]. -/
def rowElems (x y : Shape) (org dc : List Int) (t : List Nat) : List Elem :=
  (List.range (x.tile.headD 1)).filterMap (fun i =>
    (inExtents y.ext dc (i :: t)).map (fun q => ⟨shapeOff y q, (inExtents x.ext org (i :: t)).map (shapeOff x)⟩))

/-- The address of an element's first byte, by which parts are told apart. DESIGN CHOICE (entry 103): an element that straddles two 128-byte
blocks belongs to the part of its first byte; R279 does not say. -/
def destAddr (y : Shape) (e : Elem) : Nat := if y.sp then y.base + e.dst else (y.base + e.dst) % 2 ^ 48

/-- A row split where the 128-byte block of the destination changes. -/
def splitParts (y : Shape) : List Elem → List (List Elem)
  | [] => []
  | e :: r =>
    match splitParts y r with
    | [] => [[e]]
    | [] :: t => [e] :: t
    | (f :: p) :: t => if destAddr y e / 128 = destAddr y f / 128 then (e :: f :: p) :: t else [e] :: (f :: p) :: t

/-- The parts of an XFER in the order of R278. -/
def xferParts (x y : Shape) (org dc : List Int) : List (List Elem) :=
  (tileRows x.tile.tail).flatMap (fun t => splitParts y (rowElems x y org dc t))

/-- The source of a run of elements: their number of bytes and the offset of the first, none for elements filled with zero. -/
structure SrcRun where
  off : Option Nat
  len : Nat
deriving DecidableEq, Repr

/-- An element put before the runs of those after it: it joins the first where its bytes lie just before that one's, in the same 128-byte
block (R60). -/
def addRun (x : Shape) (e : Elem) (l : List SrcRun) : List SrcRun :=
  match e.src, l with
  | none, ⟨none, n⟩ :: t => ⟨none, x.esize + n⟩ :: t
  | some o, ⟨some q, n⟩ :: t =>
    if o + x.esize = q ∧ (x.base + o) % 2 ^ 48 / 128 = (x.base + q) % 2 ^ 48 / 128 then ⟨some o, x.esize + n⟩ :: t
    else ⟨some o, x.esize⟩ :: l
  | o, _ => ⟨o, x.esize⟩ :: l

/-- The runs of a part's source, in its order. -/
def srcRuns (x : Shape) (p : List Elem) : List SrcRun := p.foldr (addRun x) []

/-- The first offset of a run that lies outside the target scratchpad. -/
def badOffset (s : State) (wg : Nat) (x : Shape) (o n : Nat) : Nat :=
  ((List.range n).find? (fun i => (clusterByte s wg x.base (o + i)).isNone)).getD 0 / x.esize * x.esize + o

/-- A run's bytes, with the address at which a failing read lies. -/
def readSrc (s : State) (u : Cmd) (x : Shape) (r : SrcRun) : Got × Nat × State :=
  match r.off with
  | none => (.bytes (List.replicate r.len 0), 0, s)
  | some o =>
    if x.sp then
      match (List.range r.len).mapM (fun i => clusterByte s u.wg x.base (o + i)) with
      | none => (.fail 5, x.base + badOffset s u.wg x o r.len, s)
      | some ns =>
        let s1 := recordRead s u (x.base + o) r.len 0
        if ns.any (poisoned s) then (.fail 25, x.base + o, s1) else (.bytes (ns.map (byteUnder s 0)), x.base + o, s1)
    else engineReadAll s u ((x.base + o) % 2 ^ 48) r.len

/-- The bytes of runs, with the address at which a failing read lies, and the run that waits. -/
def readRuns (s : State) (u : Cmd) (x : Shape) : List SrcRun → Got × Nat × Option SrcRun × State
  | [] => (.bytes [], 0, none, s)
  | r :: t =>
    match readSrc s u x r with
    | (.bytes l, _, s1) =>
      match readRuns s1 u x t with
      | (.bytes m, q) => (.bytes (l ++ m), q)
      | q => q
    | (g, a, s1) => (g, a, some r, s1)

/-- The bytes of a part, with the address at which a failing read lies. What waits is read again whole, so only the waiting run's own
request is made in the meantime. -/
def readPart (s : State) (u : Cmd) (x : Shape) (p : List Elem) : Got × Nat × State :=
  match readRuns s u x (srcRuns x p) with
  | (.wait, a, some r, _) => (.wait, a, (readSrc s u x r).2.2)
  | (g, a, _, s1) => (g, a, s1)

/-- DETAIL of an engine's failing access: the page, or the offending scratchpad address. -/
def placeDetail (kind : Nat) (sp : Bool) (a : Nat) : Nat := if kind = 5 then a % 2 ^ 32 else if sp then pageDetail 0 3 else engineDetail kind (a % 2 ^ 48)

/-- The next part read and its writes entered. -/
def sendPart (s : State) (c : Nat) (e : EngOp) (x y : Shape) (p : List Elem) : State :=
  let u := engCmd c e
  let first := match p with | f :: _ => f.dst | [] => 0
  match readPart s u x p with
  | (.wait, _, s1) => s1
  | (.fail k, a, s1) => engFault s1 c e k (placeDetail k x.sp a)
  | (.bytes l, _, s1) =>
    if y.sp then
      match (List.range l.length).mapM (fun i => clusterByte s1 e.wg y.base (first + i)) with
      | none => engFault s1 c e 5 (placeDetail 5 true (y.base + first))
      | some ns => modEng (scratchWrite s1 u (ns.zip l)) c e.id (fun e => { e with sent := e.progress + 1 })
    else
      match engineWriteAll s1 u ((y.base + first) % 2 ^ 48) l with
      | (.wait, s2) => s2
      | (.fail k, s2) => engFault s2 c e k (placeDetail k false (y.base + first))
      | (.bytes _, s2) => modEng s2 c e.id (fun e => { e with sent := e.progress + 1 })

/-- A byte count added to the arrival word of a command as an ARRIVE.ADD (R221). -/
def addArrival (s : State) (c : Nat) (e : EngOp) (n : Nat) : Option State :=
  match e.done with
  | .arrival a =>
    match clusterByte s e.wg a.toNat 0, clusterByte s e.wg a.toNat 15 with
    | some k, some _ =>
      let r := atomEffect s .arriveAdd 0 k (BitVec.ofNat 32 n) 0
      if spoiled s k then some (engFault s c e 25 (pageDetail 0 3)) else some (applyWrite s 0 k r.2 none)
    | _, _ => some (engFault s c e 5 a.toNat)
  | _ => some s

/-! ## COLL's work (R282, R427) -/

/-- Elements of a member's output. -/
def Collective.total (x : Collective) : Nat := if x.op = 1 then x.mems.length * x.count else x.count

/-- The end of the chunk that an element count lies in. -/
def Collective.chunkEnd (x : Collective) (n : Nat) : Nat := min x.total ((n / 8192 + 1) * 8192)

/-- The inputs on this part that a chunk needs are all there. -/
def collReady (s : State) (x : Collective) : Bool :=
  (List.range x.mems.length).all (fun j =>
    !x.onPart j || (x.op = 2 && decide (j ≠ x.root)) || s.collIn.any (fun y => decide (y.group = x.group ∧ y.k = x.k ∧ y.member = j)))

/-- Element i of a member's input, as stored bits; a member on another part sends what the model does not know (entry 8). -/
def inputOf (s : State) (x : Collective) (j i : Nat) : Nat :=
  let w := collSize x.efmt
  if x.onPart j then
    match s.collIn.find? (fun y => decide (y.group = x.group ∧ y.k = x.k ∧ y.member = j)) with
    | some y => leNat ((y.data.drop (w * i)).take w)
    | none => 0
  else (Config.remoteInput x.group j (x.k * 2 ^ 28 + i)).toNat % 2 ^ (8 * w)

/-- An all-reduce element (R282): combined in ascending member index. -/
def reduced (s : State) (x : Collective) (i : Nat) : Nat :=
  let v := (List.range x.mems.length).map (fun j => inputOf s x j i)
  let fold (f : Nat → Nat → Nat) (l : List Nat) : Nat := match l with | [] => 0 | a :: r => r.foldl f a
  match x.red, x.efmt with
  | 0, 0 => fold (fadd fp32 .rn) v
  | 0, 1 => fcvt fp32 bf16 .rn (fold (fadd fp32 .rn) (v.map (fcvt bf16 fp32 .rn)))
  | 0, _ => fold (fun a b => (a + b) % 2 ^ 32) v
  | 1, 0 => fold (fmax fp32) v
  | 1, 1 => fold (fmax bf16) v
  | 1, _ => fold (fun a b => if toInt 32 a < toInt 32 b then b else a) v
  | _, 0 => fold (fmin fp32) v
  | _, 1 => fold (fmin bf16) v
  | _, _ => fold (fun a b => if toInt 32 b < toInt 32 a then b else a) v

/-- Element i of a member's output. -/
def outputOf (s : State) (x : Collective) (i : Nat) : Nat :=
  match x.op with
  | 0 => reduced s x i
  | 1 => inputOf s x (i / x.count) (i % x.count)
  | _ => inputOf s x x.root i

/-- The members of this part of a collective. -/
def Collective.locals (x : Collective) : List Nat := (List.range x.mems.length).filter x.onPart

/-- The next blocks of a member's input read, of one page; the whole input is there before anything is written (R282). -/
def collRead (s : State) (c : Nat) (e : EngOp) (x : Collective) : State :=
  let total := x.count * collSize x.efmt
  let p := e.data.length
  let n := inPage (x.src + p) (total - p)
  match engineReadRun s (engCmd c e) 33 (x.src + p) n with
  | (l, g, s1) =>
    let q := p + l.length
    let s2 := modEng s1 c e.id (fun e => { e with data := e.data ++ l })
    let s3 := if q = total then { s2 with collIn := s2.collIn ++ [⟨x.group, x.k, x.me, e.data ++ l, x.locals⟩] } else s2
    match g with
    | .fail k => engFault s3 c e k (engineDetail k (x.src + q))
    | _ => s3

/-- The next output elements of the chunk in hand entered: those in one 128-byte block. -/
def collWrite (s : State) (c : Nat) (e : EngOp) (x : Collective) : State :=
  let w := collSize x.efmt
  let va := x.dsta + e.sent * w
  let n := min (x.chunkEnd e.progress - e.sent) ((128 - va % 128) / w)
  match engineWrite s (engCmd c e) va (byteTable ((List.range n).flatMap (fun i => leBytes w (outputOf s x (e.sent + i))))) with
  | (.wait, s1) => s1
  | (.fail k, s1) => engFault s1 c e k (engineDetail k va)
  | (.bytes _, s1) => modEng s1 c e.id (fun e => { e with sent := e.sent + n })

/-- The gang launch that a workgroup belongs to, when its group is a collective's (R429). -/
def gangFor (s : State) (wg group : Nat) : Option Gang :=
  match launchOf s wg with
  | some l => if l.gang then (match lookup s.gangs l.id with | some g => if g.group = group then some g else none | none => none) else none
  | none => none

/-- Whether a collective waits for members that have not acknowledged their gang launch (R429 step 3). -/
def gangWaits (s : State) (wg : Nat) (x : Collective) : Bool :=
  match gangFor s wg x.group with
  | none => false
  | some g => (List.range x.mems.length).any (fun j => !x.onPart j && !g.acks.contains j)

/-- Whether a member has missed beats for 2^26 cycles (R427). -/
def unreachable (s : State) (e : EngOp) : Bool := e.missed.any (fun m => m.2.2 && decide (m.2.1 + 2 ^ 26 ≤ s.cycle))

/-- Whether a collective completes with a member absent now (R428): at the deadline of its gang launch, or later, when a member has not
acknowledged it or is absent; else when a member is absent. -/
def absentDue (s : State) (e : EngOp) (x : Collective) : Bool :=
  match gangFor s e.wg x.group with
  | some g => g.past && ((List.range x.mems.length).any (fun j => !x.onPart j && !g.acks.contains j) || unreachable s e)
  | none => unreachable s e

/-- Whether the next part of a collective's output can be written: every input is there, and no member is awaited. -/
def collGoes (s : State) (e : EngOp) (x : Collective) : Bool :=
  collReady s x && !gangWaits s e.wg x && !e.missed.any (fun m => m.2.2)

/-- Whether an engine operation may work now. -/
def engReady (s : State) (c : Nat) (e : EngOp) : Bool :=
  e.fault.isNone && !e.ended && !engineHeld s c && !xHeld s (engCmd c e)

/-- The inputs that a member no longer needs. -/
def leaveColl (s : State) (x : Collective) : State :=
  let upd (y : CollIn) : CollIn := if y.group = x.group ∧ y.k = x.k then { y with need := y.need.filter (fun j => j != x.me) } else y
  { s with collIn := (s.collIn.map upd).filter (fun y => !y.need.isEmpty) }

/-- An amount added to a completion word as an atomic with release semantics at .dev (R279, R428): done, waiting, or failed. -/
def addWord (s : State) (c : Nat) (e : EngOp) (va inc : Nat) : Got × State :=
  let ctx := ctxId s
  let vpn := va / 4096
  match mayWrite s ctx vpn with
  | .error k => (.fail k, s)
  | .ok g =>
    if entKind g = 3 then
      match meetCap s c ctx vpn (thrField e.lf (lowest e.lanes)) e.pc true with
      | (.poisoned, s1) => (.fail 17, s1)
      | (.bad k, s1) => (.fail k, s1)
      | (_, s1) => (.wait, s1)
    else if (marker s (entPage g)).offered || pageFenced s (entPage g) then (.wait, s)
    else if markerBusy s (entPage g) || entB g then (.wait, yieldDemotion s ctx vpn)
    else match keyOf s ctx with
      | none => (.fail 24, s)
      | some key =>
        let n := homeByte s (entPage g) (va % 4096)
        if n < 2 ^ 40 ∧ (s.hwrites.any (fun w => w.page = entPage g) ∨ !pageOpen s (entPage g)) then (.wait, s)
        else if spoiled s n then (.fail 25, s)
        else if !(trackedLines s (entPage g) [va % 4096]).isEmpty then (.wait, sendSnoops s (trackedLines s (entPage g) [va % 4096]))
        else
          (.bytes [], laneWrite s n key (byteTable (leBytes 4 ((leNat (readUnder s key n 4) + inc) % 2 ^ 32))) (some c) .atomic (some (ctx, vpn)))

/-- The completion of an operation whose flag has cleared: with KIND 1 its word is raised, and then it is gone. -/
def completeEngine (s : State) (c : Nat) (e : EngOp) (inc : Nat) : State :=
  match e.done with
  | .word va =>
    match addWord s c e va inc with
    | (.wait, s1) => s1
    | (.fail k, s1) => engFault s1 c e k (engineDetail k va)
    | (.bytes _, s1) => dropEngine s1 c e
  | _ => dropEngine s c e

/-- Bytes left undefined (R428): each takes a free value at its home. -/
def freeBytes (s : State) (ctx va n : Nat) : State :=
  (List.range n).foldl (fun s i =>
    match homeOf s ctx (va + i) with
    | none => s
    | some k => { applyWrite s (keyNow s ctx) k [(0, (Config.freeWord s.free).extractLsb' 0 8)] (some (ctx, (va + i) / 4096)) with free := s.free + 1 }) s

/-- A collective that completes with status member absent (R428). -/
def absentEnd (s : State) (c : Nat) (e : EngOp) (x : Collective) : State :=
  let w := collSize x.efmt
  let rest := (x.total - e.progress) * w
  let s0 := modCore s c (fun k => { k with reqs := k.reqs.filter (fun r => decide (r.engine ≠ some e.id)) })
  let s1 := leaveColl (freeBytes s0 (ctxId s) (x.dsta + e.progress * w) rest) x
  let s2 := match addArrival s1 c e rest with | some t => t | none => s1
  let e1 := { e with ended := true, sent := 2 ^ 40 }
  completeEngine (modEng (endEngine s2 c e) c e.id (fun _ => e1)) c e1 0x00010000

/-- The next part of an engine operation's work. -/
def engStart (s : State) (c : Nat) (e : EngOp) : State :=
  if !engReady s c e then s
  else match e.kind with
    | .xfer x y org dc =>
      if e.sent ≠ e.progress then s
      else match (xferParts x y org dc)[e.progress]? with
        | none => s
        | some p => sendPart s c e x y p
    | .coll x =>
      if absentDue s e x then absentEnd s c e x
      else if e.data.length < x.count * collSize x.efmt then collRead s c e x
      else if e.sent < x.chunkEnd e.progress ∧ collGoes s e x then collWrite s c e x
      else s
    | .launch _ _ _ => s

/-- ENGINE_ENTRY_START (R230): a matrix-queue entry starts, and each further event of a started entry does its next part: a chunk,
block or outlier entry (R248), or the bytes of a page (R233). For the copy and collective engines the next part of the operation is
read and its writes enter (R278, R282). -/
def execEngineEntryStart (c i : Nat) (s : State) : Outcome :=
  let t := dropFences s c
  match mqOf t c i, engOf t c i with
  | some e, _ => .next (mqStart t c e)
  | none, some e => .next (engStart t c e)
  | none, none => .next s

/-- XFER_PART_APPLIED (R279, R221): the part whose bytes have been applied is counted, and added to the arrival word. -/
def execXferPartApplied (c i : Nat) (s : State) : Outcome :=
  match engOf s c i with
  | none => .next s
  | some e => match e.kind with
    | .xfer x y org dc =>
      match (xferParts x y org dc)[e.progress]? with
      | none => .next s
      | some p =>
        if e.sent ≠ e.progress + 1 ∨ e.fault.isSome ∨ !engineDrained s c i then .next s
        else match addArrival (modEng s c i (fun e => { e with progress := e.progress + 1 })) c e (p.length * x.esize) with
          | some t => .next t
          | none => .next s
    | _ => .next s

/-- COLL_CHUNK_DONE (R282, R427): the chunk whose bytes have been applied is counted. -/
def execCollChunkDone (c i : Nat) (s : State) : Outcome :=
  match engOf s c i with
  | none => .next s
  | some e => match e.kind with
    | .coll x =>
      if e.progress = x.total ∨ e.sent ≠ x.chunkEnd e.progress ∨ e.fault.isSome ∨ !engineDrained s c i then .next s
      else match addArrival (modEng s c i (fun e => { e with progress := e.sent, missed := [] })) c e ((e.sent - e.progress) * collSize x.efmt) with
        | some t => .next t
        | none => .next s
    | _ => .next s

/-- Whether an operation's writes are all applied and counted. -/
def engDone (s : State) (c : Nat) (e : EngOp) : Bool :=
  engineDrained s c e.id && (match e.kind with
    | .xfer x y org dc => decide ((xferParts x y org dc).length ≤ e.progress)
    | .coll x => decide (x.total ≤ e.progress)
    | .launch _ _ _ => false)

/-- An operation that is done clears its flag and delivers its number, then raises its completion word (R279). An operation whose
collective ended with a member absent owes 0x0001_0000 (R428). -/
def engFinish (s : State) (c : Nat) (e : EngOp) : State :=
  if e.fault.isSome then s
  else if e.ended then completeEngine s c e (if e.sent = 2 ^ 40 then 0x00010000 else 1)
  else if engDone s c e then
    let s1 := match e.kind with | .coll x => leaveColl s x | _ => s
    completeEngine (modEng (endEngine s1 c e) c e.id (fun e => { e with ended := true })) c { e with ended := true } 1
  else s

/-- ENGINE_ENTRY_FINISH (R231, R279): an entry whose work is done clears its flag and ends. -/
def execEngineEntryFinish (c i : Nat) (s : State) : Outcome :=
  match mqOf s c i, engOf s c i with
  | some e, _ => .next (mqFinish s c e)
  | none, some e => .next (engFinish s c e)
  | none, none => .next s

/-- LAUNCH_RECORD_COPY (R283, R303): the scheduler copies the record, the flag clears, and the launch's dependences are read. -/
def execLaunchRecordCopy (c i : Nat) (s : State) : Outcome :=
  match engOf s c i with
  | none => .next s
  | some e => match e.kind with
    | .launch l deps p =>
      let x := launchFrom s.ops (ctxId s) e.number l deps p 64
      let s1 := { fresh s with launches := s.launches ++ [x] }
      .next (checkReady (dropEngine (endEngine s1 c e) c e))
    | _ => .next s

/-- A beat missed by a member: it is out of reach until the tree is rebuilt, and its first missed beat since the last finished chunk is
noted (R427; entry 8). -/
def noteMissed (s : State) (c : Nat) (e : EngOp) (j : Nat) : State :=
  modEng s c e.id (fun e => { e with missed := put e.missed j ((look e.missed j (s.cycle, true)).1, true) })

/-- COLL_MEMBER_ABSENT (R427, R428): a member of another part misses a beat. -/
def execCollMemberAbsent (c i j : Nat) (s : State) : Outcome :=
  match engOf s c i with
  | none => .next s
  | some e => match e.kind with
    | .coll x =>
      if x.mems.length ≤ j ∨ x.onPart j ∨ e.ended ∨ engineHeld s c then .next s
      else
        let t := noteMissed s c e j
        .next (match engOf t c i with | some z => if absentDue t z x then absentEnd t c z x else t | none => t)
    | _ => .next s

/-- FABRIC_PORT_FAILURE (R427): the tree is rebuilt, and partial chunks are discarded and replayed from their first elements. -/
def replayChunks (s : State) : State :=
  { s with cores := s.cores.map (fun k => (k.1, modC k.2 (fun y => { y with eng := y.eng.map (fun e =>
      match e.kind with
      | .coll x =>
        if !e.ended && (List.range x.mems.length).any (fun j => !x.onPart j) then
          { e with sent := e.progress, missed := e.missed.map (fun m => (m.1, (m.2.1, false))) }
        else e
      | _ => e) }))) }

end Sys2Proof.Machine
end

