-- ==== Sys2Proof/Machine/Lanes.lean ====
section
/-!
DEFINITION. Machine/Lanes.lean: lane, vote and special-register instructions, ELECT, MSIG and MARK (chapters 09 and 12).
-/
namespace Sys2Proof.Machine

/-- LANE.SEL.b32 (R196): A read from the lane that B[4:0] names. -/
def execLaneSelB32 (d : BitVec 4) (b : Src) (a : BitVec 5) (s : State) : Outcome :=
  .next (aluWord s 6 1 d (fun u i => (read32 u b i).bind (fun y => (readFrom u.f (y.toNat % 32) a.toNat).map out32)))

/-! ## Votes (R197) -/

/-- A for every present lane. -/
def ballot (u : Iss) (a : Src) : Option (Table Word) := eachLane u (read32 u a)

def voteAnyOf (t : Table Word) : Word := if t.any (fun e => e.2 != 0) then 1 else 0
def voteAllOf (t : Table Word) : Word := if t.all (fun e => e.2 != 0) then 1 else 0
def voteBalOf (t : Table Word) : Word := maskOf ((t.filter (fun e => e.2 != 0)).map (fun e => e.1))
def voteUniOf (t : Table Word) : Word := if t.all (fun e => e.2 == (t.map (fun e => e.2)).headD 0) then 1 else 0

/-- VOTE.ANY (R197). -/
def execVoteAny (d : BitVec 4) (a : Src) (s : State) : Outcome :=
  aluAll s 6 d (fun u => (ballot u a).map (fun t _ => voteAnyOf t))
/-- VOTE.ALL (R197). -/
def execVoteAll (d : BitVec 4) (a : Src) (s : State) : Outcome :=
  aluAll s 6 d (fun u => (ballot u a).map (fun t _ => voteAllOf t))
/-- VOTE.BAL (R197). -/
def execVoteBal (d : BitVec 4) (a : Src) (s : State) : Outcome :=
  aluAll s 6 d (fun u => (ballot u a).map (fun t _ => voteBalOf t))
/-- VOTE.UNI (R197). -/
def execVoteUni (d : BitVec 4) (a : Src) (s : State) : Outcome :=
  aluAll s 6 d (fun u => (ballot u a).map (fun t _ => voteUniOf t))

/-- ELECT (R267). -/
def execElect (d : BitVec 4) (s : State) : Outcome :=
  aluAll s 4 d (fun u => some (fun i => if i = u.low then 1 else 0))

/-! ## Special registers (R20, R198, R299, R371) -/

/-- An unfinished operation that %pi may name: the cycle and lane frame of its issue, its KIND and its COUNT. -/
structure Progress where
  cycle : Nat
  lf : Nat
  kind : Nat
  count : Nat
deriving DecidableEq, Repr

/-- The progress of a matrix-queue entry of a workgroup, if it is an MMA or a GROVE.ROW (R371). -/
def entryProgress (wg : Nat) (e : MqEntry) : Option Progress :=
  if e.wg = wg ∧ !e.finished then
    match e.kind with
    | .mma _ _ _ _ => some ⟨e.cycle, e.lf, 1, e.progress⟩
    | .groveRow _ _ _ => some ⟨e.cycle, e.lf, 2, e.progress % 64 + e.group % 128 * 64⟩
    | _ => none
  else none

/-- The progress of an engine operation of a workgroup; one whose flag has cleared is finished, though its completion word may still be
owed (R207, R279). -/
def engineProgress (wg : Nat) (e : EngOp) : Option Progress :=
  if e.wg = wg ∧ !e.ended then
    match e.kind with
    | .xfer _ _ _ _ => some ⟨e.cycle, e.lf, 3, e.progress⟩
    | .coll _ => some ⟨e.cycle, e.lf, 4, e.progress⟩
    | .launch _ _ _ => none
  else none

def gatherProgress (k : Core) (lf lane : Nat) (o : MemOp) : Option Progress :=
  if o.kind = .gather ∧ o.lf = lf ∧ o.lanes.getLsbD lane then
    some ⟨o.cycle, o.lf, 5, o.requests - (k.reqs.filter (fun r => r.op = o.op)).length⟩
  else none

/-- The most recently issued of two (R371): the later cycle, then the higher lane frame. -/
def later (x y : Progress) : Progress := if x.cycle * 64 + x.lf ≤ y.cycle * 64 + y.lf then y else x

/-- %pi (R371). -/
def piReg (s : State) (u : Iss) (lane : Nat) : Word :=
  let k := core s u.c
  let l := k.c.mq.filterMap (entryProgress u.f.wg) ++ k.c.eng.filterMap (engineProgress u.f.wg) ++
    k.ops.filterMap (gatherProgress k u.l lane)
  match l with
  | [] => 0
  | x :: r => let p := r.foldl later x; BitVec.ofNat 32 (p.kind * 2 ^ 28 + p.count % 2 ^ 28)

/-- The special register of an index (R154, R198) for a lane of the issuing bundle. -/
def specialReg (s : State) (u : Iss) (i lane : Nat) : Word :=
  let w := workgroup s u.f.wg
  let x := launchOf s u.f.wg
  let both (g : Workgroup → Launch → Word) : Word := match w, x with | some w, some x => g w x | _, _ => 0
  match i with
  | 0 => tidOf u.f lane
  | 1 => match w with | some w => wgReg w | none => 0
  | 2 => both (fun w x => BitVec.ofNat 32 (clusterX x w.cluster))
  | 3 => both (fun w x => BitVec.ofNat 32 (clusterY x w.cluster))
  | 4 => both (fun w x => BitVec.ofNat 32 (clusterZ x w.cluster))
  | 5 => match w with | some w => BitVec.ofNat 32 w.cluster | none => 0
  | 6 => both (fun w x => stageReg x w.cluster)
  | 7 => u.cl.lanes
  | 8 => BitVec.ofNat 32 u.l
  | 9 => piReg s u lane
  | 10 => s.caps
  | _ => ctxReg s

/-- SREG (R198). -/
def execSreg (d : BitVec 4) (i : BitVec 9) (s : State) : Outcome :=
  aluAll s 4 d (fun u => some (specialReg s u i.toNat))

/-! ## MSIG and MARK (R272, R273) -/

/-- MSIG (R272): a release of scope .dev, a message from the lowest present lane, and 1 or 0 to every present lane. -/
def execMsig (d : BitVec 4) (b a : Src) (s : State) : Outcome :=
  match issuing s with
  | none => .next (hold s)
  | some u =>
    match read32 u a u.low, read32 u b u.low with
    | some x, some y =>
      if writeHeld u (regsOf d.toNat 1) then .next (hold s)
      else if x.toNat / 32 ≠ 0 then .next (trap s u 3 u.word)
      else if !released s u.c u.l u.cl.lanes s.ops .dev then .next (hold s)
      else
        let m := (core s u.c).mast
        let room := decide (m.msgs.length < 16)
        let msg : Msg := ⟨x.toNat, y, ctxId s, u.l, u.f.wlf * 32 + u.low⟩
        let s1 := if room then modCore s u.c (fun k => { k with mast := { k.mast with msgs := k.mast.msgs ++ [msg] } }) else s
        .next (issueVals s1 u 6 1 d (u.lanes.map (fun i => (i, [if room then 1 else 0]))))
    | _, _ => .next (hold s)

/-- MARK (R273): one MARK record for each present lane. -/
def execMark (a : Src) (s : State) : Outcome :=
  match issuing s with
  | none => .next (hold s)
  | some u =>
    match ballot u a with
    | none => .next (hold s)
    | some t => .next (advance (t.foldl (fun s e => record s u.c 12 (thrField u.l e.1) u.pc e.2.toNat) s) u)

end Sys2Proof.Machine
end

