-- ==== Sys2Proof/Machine/Queues.lean ====
section
/-!
DEFINITION. Machine/Queues.lean: host launch queues (R300, R301, R403, R404) and gang launches (R429).
-/
namespace Sys2Proof.Machine

/-! ## Messages to the world outside -/

def tell (s : State) (m : HostMsg) : State := { s with sent := m :: s.sent }

/-! ## Queue registers (R300, R404) -/

def queue (s : State) (q : Nat) : Queue := look s.queues q .reset
def modQueue (s : State) (q : Nat) (f : Queue → Queue) : State := { s with queues := change s.queues q .reset f }

def Queue.on (x : Queue) : Bool := x.qcfg.getLsbD 31
def Queue.stopped (x : Queue) : Bool := x.qerr.getLsbD 31
def Queue.size (x : Queue) : Nat := 2 ^ bits x.qcfg.toNat 27 24
def Queue.ctx (x : Queue) : Nat := bits x.qcfg.toNat 15 0
def Queue.prio (x : Queue) : Nat := bits x.qcfg.toNat 30 28
def Queue.tries (x : Queue) : Nat := bits x.qerr.toNat 11 8
/-- Whether the ring's base is a host virtual address. -/
def Queue.inHost (x : Queue) : Bool := x.qbase.getLsbD 0
/-- The address of the entry at HEAD (R301). -/
def Queue.entryAt (x : Queue) : Nat := x.qbase.toNat / 4096 * 4096 + 256 * (x.head.toNat % x.size)

/-- QERR: STOP, TRIES and CODE. -/
def qerrOf (stop : Bool) (tries code : Nat) : Word := BitVec.ofNat 32 (bnat stop * 2 ^ 31 + tries % 16 * 2 ^ 8 + code % 256)

/-- A queue that stops on an error (R404): the function's interrupt is raised; the context goes on. -/
def stopQueue (s : State) (q tries code : Nat) : State :=
  if (queue s q).stopped then s
  else tell (modQueue s q (fun x => { x with qerr := qerrOf true tries code, refetchAt := none })) (.queueInterrupt q)

/-- What a read of QNOTIFY returns: HEAD, the count of entries ever taken (R300). -/
def qnotifyRead (s : State) (q : Nat) : Word := (queue s q).head

/-- QNOTIFY_WRITE (R300, R403): TAIL is set; a write that would overrun the ring is ignored and stops the queue with code 7. -/
def execQnotifyWrite (q : Nat) (v : Word) (s : State) : Outcome :=
  if 64 ≤ q then .next s
  else
    let x := queue s q
    if x.size < (v - x.head).toNat then .next (stopQueue s q x.tries 7)
    else .next (modQueue s q (fun x => { x with tail := v }))

/-- QERR_WRITE (R404): a 1 in STOP clears STOP, TRIES and CODE, and HEAD is fetched again. -/
def execQerrWrite (q : Nat) (v : Word) (s : State) : Outcome :=
  if 64 ≤ q ∨ !v.getLsbD 31 then .next s
  else .next (modQueue s q (fun x => { x with qerr := 0, refetchAt := none }))

/-! ## The ring read (R301) -/

/-- A range within one page read by the package scheduler (R303): through the context, at the home, charged to no core. -/
def schedRead (s : State) (ctx va n : Nat) : Got × State :=
  let vpn := va / 4096 % 2 ^ 36
  if 2 ^ 48 ≤ va then (.fail 6, s)
  else match walk s ctx vpn with
    | .absent => (.fail 6, s)
    | .bad k => (.fail k, s)
    | .entry e _ =>
      match reCheck e false with
      | some k => (.fail k, s)
      | none =>
        if entKind e = 3 then
          match meetCap s 0 ctx vpn noThread 0 false with
          | (.poisoned, s1) => (.fail 17, s1)
          | (.bad k, s1) => (.fail k, s1)
          | (_, s1) => (.wait, s1)
        else if entGone s e then (.fail 29, s)
        else
          let a := homeByte s (entPage e) (va % 4096)
          if (marker s (entPage e)).offered || pageFenced s (entPage e) || (decide (a < 2 ^ 40) && !pageOpen s (entPage e)) then (.wait, s)
          else match keyOf s ctx with
            | none => (.fail 24, s)
            | some key =>
              if (List.range n).any (fun i => spoiled s (a + i)) then (.fail 25, s)
              else (.bytes (readUnder s key a n), if a < 2 ^ 40 then moveUnits s (entPage e) ((n + 15) / 16) else s)

/-- A host translation of core 0, which makes the scheduler's host reads (entry 22). -/
def ringTrans (s : State) (pasid page : Nat) : Option HostTrans :=
  (core s 0).hstore.find? (fun t => decide (t.pasid = pasid ∧ t.page = page))

/-- A range of host memory read through ATS (R300, R209): without a translation a request is sent and the read waits. -/
def hostRead (s : State) (pasid va n : Nat) : Got × State :=
  match ringTrans s pasid (va / 4096) with
  | some t => (.bytes (Mem.read s.mem (Config.hostBase + (t.hostPage * 4096 + va % 4096) % 2 ^ 64) n), s)
  | none =>
    if (core s 0).ats.any (fun x => decide (x.pasid = pasid ∧ x.page = va / 4096)) then (.wait, s)
    else (.wait, modCore s 0 (fun k => { k with ats := k.ats ++ [⟨pasid, va / 4096, false, false, false, s.cycle, false, false⟩] }))

/-- The words of a context's descriptor in CTXTAB, if they can be read. -/
def readableDesc (s : State) (ctx : Nat) : Option (List Byte) :=
  match s.ctxtab with
  | none => none
  | some t =>
    let a := t + 64 * ctx
    if pageGone s (a / 4096) || (List.range 64).any (fun i => spoiled s (homeByte s ((a + i) / 4096) ((a + i) % 4096))) then none
    else descBytes s ctx

/-- The descriptor in CTXTAB of a context, if it can be read and used (R298, R404 code 6). -/
def usableDesc (s : State) (ctx : Nat) : Option Descriptor :=
  (readableDesc s ctx).bind (fun b => if descOk ctx b then some (descOf ctx b) else none)

/-- Whether a context's descriptor is one that a slice of it has read (R298). -/
def descRead (s : State) (ctx : Nat) : Bool :=
  (match s.slice with | some x => decide (x.desc.ctx = ctx) | none => false) || (lookup s.descs ctx).isSome

/-- The descriptor through which a queue's ring is read: the one that the context's last slice read, since a change takes effect at its next
slice (R298), else the one in CTXTAB as far as it can be read. -/
def queueDesc (s : State) (x : Queue) : Option Descriptor :=
  if descRead s x.ctx then descriptor s x.ctx else (readableDesc s x.ctx).map (descOf x.ctx)

/-- Whether a queue's descriptor can be used (R404 code 6). -/
def queueUsable (s : State) (x : Queue) : Bool := descRead s x.ctx || (usableDesc s x.ctx).isSome

/-- The queues whose next ring read waits for a host page of a PASID stop with code 5: its translation failed (R404). -/
def failRing (s : State) (pasid page : Nat) : State :=
  (List.range 64).foldl (fun s q =>
    let x := queue s q
    match queueDesc s x with
    | some d =>
      if x.on && !x.stopped && x.inHost && decide (x.head ≠ x.tail ∧ d.pasid = pasid ∧ x.entryAt / 4096 = page) then
        stopQueue s q x.tries 5
      else s
    | none => s) s

/-! ## Checking an entry (R404) -/

/-- Whether KIND or a reserved byte of an entry is not 0 (code 2). -/
def entryBad (b : List Byte) : Bool :=
  ((b.drop 4).take 60).any (fun x => x != 0) || ((b.drop 192).take 64).any (fun x => x != 0)

/-- Whether the word that a dependence names fails a check of R211 (code 4). -/
def depFails (s : State) (ctx : Nat) (d : Nat × Nat) : Bool :=
  match evalDep s ctx d with
  | .bad 25 => false
  | .bad _ => true
  | _ => false

/-- The code of the first rule after SEQ that an entry breaks (R404). -/
def entryCode (s : State) (ctx : Nat) (b : List Byte) : Option Nat :=
  let l := (b.drop 64).take 64
  let d := (b.drop 128).take 64
  if entryBad b then some 2
  else if recordBad l then some 3
  else if (List.range (recordDeps l)).any (fun i => depBad d i || depFails s ctx (depOf d i)) then some 4
  else none

/-! ## Taking an entry (R301, R429) -/

/-- The member index of this part in a fabric group (R329: M). -/
def groupMe (s : State) (g : Nat) : Nat := match lookup s.groups g with | some (w :: _) => bits w.toNat 63 32 | _ => 0
/-- The member count of a fabric group (R329: G). -/
def groupSize (s : State) (g : Nat) : Nat := match lookup s.groups g with | some (w :: _) => bits w.toNat 12 0 | _ => 0

/-- The launch of an entry copied, HEAD raised; the first launch after command 0x26 is a gang launch (R429 step 1). -/
def takeEntry (s : State) (q : Nat) (x : Queue) (b : List Byte) : State :=
  let l := (b.drop 64).take 64
  let d := (b.drop 128).take 64
  let id := s.ops
  let y := launchFrom id x.ctx 0 l ((List.range (recordDeps l)).map (depOf d)) (min (bits (field l 36 4) 2 0) x.prio) q
  let s1 := modQueue { fresh s with launches := s.launches ++ [{ y with gang := x.gangArm.isSome }] } q
    (fun x => { x with head := x.head + 1, qerr := 0, refetchAt := none, gangArm := none })
  match x.gangArm with
  | none => checkReady s1
  | some (g, dl) =>
    let early := x.acks.filter (fun j => decide (j < groupSize s g))
    let s2 := modQueue s1 q (fun x => { x with acks := [] })
    checkReady (tell { s2 with gangs := put s2.gangs id ⟨q, g, s.cycle + dl, (groupMe s g :: early).dedup, false, 0, 0⟩ } (.gangAck g))

/-- A stale read (R403): read again after 2048 cycles, at most 8 times. -/
def staleEntry (s : State) (q : Nat) (x : Queue) : State :=
  if 8 ≤ x.tries then stopQueue s q 8 1
  else modQueue s q (fun y => { y with qerr := qerrOf false (x.tries + 1) 0, refetchAt := some (s.cycle + 2048) })

/-- Entry HEAD read and used (R301, R403), with the codes in R404's order; a ring that no descriptor leads to cannot be read, and that is
code 6. -/
def readEntry (s : State) (q : Nat) (x : Queue) : State :=
  match queueDesc s x with
  | none => stopQueue s q x.tries 6
  | some d =>
    match (if x.inHost then hostRead s d.pasid x.entryAt 256 else schedRead s x.ctx x.entryAt 256) with
    | (.wait, s1) => s1
    | (.fail _, s1) => stopQueue s1 q x.tries 5
    | (.bytes b, s1) =>
      if field b 0 4 ≠ x.head.toNat then staleEntry s1 q x
      else if !queueUsable s1 x then stopQueue s1 q x.tries 6
      else match entryCode s1 x.ctx b with
        | some k => stopQueue s1 q x.tries k
        | none => takeEntry s1 q x b

/-- Whether a queue may take an entry now. -/
def queueWorks (x : Queue) : Bool := x.on && !x.stopped && decide (x.head ≠ x.tail)

/-- QUEUE_ENTRY_FETCH (R301). -/
def execQueueEntryFetch (q : Nat) (s : State) : Outcome :=
  let x := queue s q
  if 64 ≤ q ∨ !queueWorks x ∨ x.refetchAt.isSome then .next s else .next (readEntry s q x)

/-- QUEUE_ENTRY_REFETCH (R403): 2048 cycles after a stale read. -/
def execQueueEntryRefetch (q : Nat) (s : State) : Outcome :=
  let x := queue s q
  match x.refetchAt with
  | none => .next s
  | some t => if 64 ≤ q ∨ !queueWorks x ∨ s.cycle < t then .next s else .next (readEntry s q x)

/-! ## Gang launches (R429) -/

/-- The last gang launch of a queue. -/
def lastGang (s : State) (q : Nat) : Option (Nat × Gang) := (s.gangs.filter (fun e => decide (e.2.queue = q))).getLast?

/-- A queue's gang launches whose deadline has not passed, the earliest first. -/
def openGangs (s : State) (q : Nat) : List (Nat × Gang) := s.gangs.filter (fun e => decide (e.2.queue = q) && !e.2.past)

/-- GANG_ACK: an acknowledgement that comes by the deadline counts (R432: in its cycle too). DESIGN CHOICE (entry 105): it is for the
earliest launch of the queue that still waits for the member, else for the next one taken. -/
def execGangAck (q j : Nat) (s : State) : Outcome :=
  match (openGangs s q).find? (fun e => !e.2.acks.contains j && decide (s.cycle ≤ e.2.deadline ∧ j < groupSize s e.2.group)) with
  | some (i, g) => .next { s with gangs := put s.gangs i { g with acks := (j :: g.acks).dedup } }
  | none =>
    if (queue s q).gangArm.isSome ∧ j < 4096 then .next (modQueue s q (fun x => { x with acks := (j :: x.acks).dedup })) else .next s

/-- The deadline of a gang launch: the members that have not acknowledged are absent for it. -/
def passGang (s : State) (i : Nat) (g : Gang) : State :=
  let gone := (List.range (groupSize s g.group)).filter (fun j => !g.acks.contains j)
  { s with gangs := put s.gangs i { g with past := true, absent := gone.length, lowest := gone.headD 0 } }

/-- GANG_DEADLINE: every gang launch of the queue whose deadline has come passes it. -/
def execGangDeadline (q : Nat) (s : State) : Outcome :=
  .next ((openGangs s q).foldl (fun t e => if e.2.deadline ≤ t.cycle then passGang t e.1 e.2 else t) s)

end Sys2Proof.Machine
end

