-- ==== Sys2Proof/Machine/Hosts.lean ====
section
/-!
DEFINITION. Machine/Hosts.lean: the host's side: address translation through ATS and PRI (R327, R340, R388, R389), host accesses
through CXL.mem (R325, R390, R394, R419, R424), the snoop filter (R326) and CXL.cache snoops (R324).
-/
namespace Sys2Proof.Machine

/-! ## Contexts by PASID -/

/-- Whether a context that is out has a PASID. -/
def hasPasid (s : State) (ctx pasid : Nat) : Bool :=
  match descriptor s ctx with | some d => decide (d.pasid = pasid) | none => false

/-- The function that owns the context of a PASID. -/
def fnOfPasid (s : State) (pasid : Nat) : Nat :=
  if s.slice.isSome ∧ ctxPasid s = pasid then (match s.slice with | some x => x.desc.fn | none => 0)
  else match s.images.find? (fun t => hasPasid s t.1 pasid) with
    | some t => (match descriptor s t.1 with | some d => d.fn | none => 0)
    | none => 0

/-! ## Outstanding requests (R340) -/

/-- The wait for a host page. -/
def onHost (page : Nat) (w : Wait) : Bool := decide (w = .host page)

/-- Whether a failure is to come for a bundle of a context that is out (R388). -/
def failsLater (s : State) (ctx c l page : Nat) (pc : DWord) : Bool :=
  s.hostFails.any (fun h => decide (h.ctx = ctx ∧ h.core = c ∧ h.lf = l ∧ h.page = page ∧ h.pc = pc))

/-- The bundles of a core that wait for a host page unpark; those of a context that is out, in its image, but for one with a failure to come
(R308, R340). -/
def wakeHost (s : State) (c pasid page : Nat) : State :=
  let s1 :=
    if s.slice.isSome ∧ ctxPasid s = pasid then
      (core s c).c.lfs.foldl (fun s x => wakeLanes s c x.1 (waiting x.2 (onHost page)) 2) s
    else s
  let wake (ctx : Nat) (e : Nat × CoreImg) : Nat × CoreImg :=
    if e.1 = c then
      (e.1, { e.2 with c := { e.2.c with lfs := e.2.c.lfs.map (fun x =>
        (x.1, modThreads x.2 (waiting x.2 (onHost page)) (fun _ t =>
          if failsLater s1 ctx c x.1 page t.pc then t else { t with woken := 2 }))) } })
    else e
  { s1 with images := s1.images.map (fun t => if hasPasid s1 t.1 pasid then (t.1, t.2.map (wake t.1)) else t) }

/-- One bundle that waits for a host page takes a failure (R388): its threads keep the word's program counter. -/
def failHostAt (s : State) (c l page kind detail : Nat) (pc : DWord) : State :=
  match laneFrame s c l with
  | none => s
  | some f =>
    let m := maskOf ((f.threads.filter (fun e => e.2.live && decide (e.2.pc = pc) &&
      (match e.2.wait with | some w => onHost page w | none => false))).map (fun e => e.1))
    raiseParked (modLF s c l (fun f => modThreads f m (fun _ t => { t with wait := none })))
      ⟨kind, c, l, 0, thrField l (lowest m), pc, detail, none⟩ m

/-- Whether the word at an image is a store through a host pointer. -/
def isHostStore (s : State) (c ctx : Nat) (pc : DWord) : Bool :=
  match peekWord s c ctx (pcAddr pc) with
  | none => false
  | some w => match decodeWord w with
    | .ok (.sthB32 _ _ _ _) | .ok (.sthB64 _ _ _ _) => true
    | _ => false

/-- The words at which the bundles of a lane frame wait for a host page, of those that a test picks. -/
def hostParked (f : LaneFrame) (page : Nat) (pick : DWord → Bool) : List DWord :=
  ((f.threads.filter (fun t => t.2.live && pick t.2.pc &&
    (match t.2.wait with | some w => onHost page w | none => false))).map (fun t => t.2.pc)).dedup

/-- The failures that the bundles of a context that is out take when it runs again (entry 20). -/
def laterFails (ctx : Nat) (img : List (Nat × CoreImg)) (c page kind detail : Nat) (pick : DWord → Bool) : List HostFail :=
  (img.filter (fun e => e.1 = c)).flatMap (fun e => e.2.c.lfs.flatMap (fun x =>
    (hostParked x.2 page pick).map (fun pc => ⟨ctx, c, x.1, page, kind, detail, pc⟩)))

/-- Every bundle of a core that waits for a host page at a word that a test picks takes a failure, in the order of R357; those of a context
that is out take it when the context runs again (entry 20). A launch queue that waits for the page stops (R404). -/
def failHost (s : State) (c pasid page kind detail : Nat) (pick : Nat → DWord → Bool) : State :=
  let s0 := if c = 0 ∧ kind = 23 then failRing s pasid page else s
  let s1 := { s0 with hostFails := s0.hostFails ++ (s0.images.filter (fun t => hasPasid s0 t.1 pasid)).flatMap (fun t =>
    laterFails t.1 t.2 c page kind detail (pick t.1)) }
  if s1.slice.isSome ∧ ctxPasid s1 = pasid then
    (core s1 c).c.lfs.foldl (fun s x =>
      (hostParked x.2 page (pick (ctxId s1))).foldl (fun s pc => failHostAt s c x.1 page kind detail pc) s) s1
  else s1

/-- The failures that came while a context was out, taken as it comes in, in the order of R357. -/
def takeFails (s : State) : State :=
  let l := s.hostFails.filter (fun h => h.ctx = ctxId s)
  (List.range (coreCount s)).foldl (fun t c => (l.filter (fun h => h.core = c)).foldl (fun t h =>
      failHostAt t c h.lf h.page h.kind h.detail h.pc) t)
    { s with hostFails := s.hostFails.filter (fun h => h.ctx ≠ ctxId s) }

/-- DETAIL of kind 23 (R388): the host page and a subcode. -/
def hostDetail (page sub : Nat) : Nat := page % 2 ^ 36 + sub * 2 ^ 36

def dropAts (s : State) (c : Nat) (q : AtsReq) : State :=
  modCore s c (fun k => { k with ats := k.ats.filter (fun x => x != q) })
def setAts (s : State) (c : Nat) (q r : AtsReq) : State :=
  modCore s c (fun k => { k with ats := k.ats.map (fun x => if x = q then r else x) })

/-- The page requests of a function that are outstanding (R324: 512 at most). -/
def pagesOut (s : State) (fn : Nat) : Nat :=
  s.cores.foldl (fun n e => n + (e.2.ats.filter (fun q => q.pri && !q.held && decide (fnOfPasid s q.pasid = fn))).length) 0

/-- A page request that waits for a place is sent when one is free, the lowest core's first (R388). -/
def sendHeld (s : State) (fn : Nat) : State :=
  if 512 ≤ pagesOut s fn then s
  else match s.cores.findSome? (fun e => (e.2.ats.find? (fun q => q.held && decide (fnOfPasid s q.pasid = fn))).map (fun q => (e.1, q))) with
    | none => s
    | some (c, q) => setAts s c q { q with held := false, cycle := s.cycle }

/-- A completion that grants too little sends a Page Request for the page (R327 step 2), unless PRI is stopped (R388). -/
def askPage (s : State) (c : Nat) (q : AtsReq) : State :=
  let fn := fnOfPasid s q.pasid
  if s.priStopped.contains fn then failHost (dropAts s c q) c q.pasid q.page 23 (hostDetail q.page 2) (fun _ _ => true)
  else setAts s c q { q with pri := true, dead := false, after := false, held := decide (512 ≤ pagesOut s fn), cycle := s.cycle }

/-- A host translation installed (R327 step 1: one 4 KiB page). -/
def installHost (s : State) (c : Nat) (t : HostTrans) : State :=
  modCore s c (fun k => { k with hstore := t :: k.hstore.filter (fun x => !decide (x.pasid = t.pasid ∧ x.page = t.page)) })

/-- A translation that has been granted (R327, R340, R388). A store's request that gets no write access asks for the page once;
after that page request's success it takes kind 7. -/
def grant (s : State) (c : Nat) (q : AtsReq) (hostPage : Nat) (write : Bool) : State :=
  let s1 := installHost s c ⟨q.pasid, q.page, hostPage, write⟩
  if q.write && !write then
    if q.after then
      let s2 := failHost (dropAts s1 c q) c q.pasid q.page 7 (pageDetail q.page 1) (isHostStore s1 c)
      wakeHost s2 c q.pasid q.page
    else askPage s1 c q
  else wakeHost (dropAts s1 c q) c q.pasid q.page

/-- ATS_TRANSLATION_COMPLETION (R327, R340, R388). A completion that an invalidation has overtaken is not installed, and a new
request is sent. -/
def execAtsTranslationCompletion (c : Nat) (p : HostPage) (st : AtsStatus) (s : State) : Outcome :=
  match (core s c).ats.find? (fun q => decide (q.pasid = p.pasid ∧ q.page = p.page) && !q.pri) with
  | none => .next s
  | some q =>
    match st with
    | .error => .next (failHost (dropAts s c q) c q.pasid p.page 23 (hostDetail p.page 0) (fun _ _ => true))
    | .granted hostPage write =>
      if q.dead then .next (setAts s c q { q with dead := false, cycle := s.cycle }) else .next (grant s c q hostPage write)
    | .noAccess =>
      if q.dead then .next (setAts s c q { q with dead := false, cycle := s.cycle }) else .next (askPage s c q)

/-- ATS_TIMEOUT (R388): no completion within 2^24 cycles. -/
def execAtsTimeout (c : Nat) (p : HostPage) (s : State) : Outcome :=
  match (core s c).ats.find? (fun q => decide (q.pasid = p.pasid ∧ q.page = p.page) && !q.pri) with
  | none => .next s
  | some q =>
    if s.cycle < q.cycle + 2 ^ 24 then .next s
    else .next (failHost (dropAts s c q) c q.pasid p.page 23 (hostDetail p.page 0) (fun _ _ => true))

/-- PAGE_REQUEST_GROUP_RESPONSE (R327, R388): success requests the translation again. -/
def execPageRequestGroupResponse (c : Nat) (p : HostPage) (resp : PriResp) (s : State) : Outcome :=
  match (core s c).ats.find? (fun q => decide (q.pasid = p.pasid ∧ q.page = p.page) && q.pri && !q.held) with
  | none => .next s
  | some q =>
    let fn := fnOfPasid s q.pasid
    let s1 := match resp with
      | .success => setAts s c q { q with pri := false, after := true, dead := false, cycle := s.cycle }
      | .invalidRequest => failHost (dropAts s c q) c q.pasid p.page 23 (hostDetail p.page 1) (fun _ _ => true)
      | .failure =>
        failHost { dropAts s c q with priStopped := (fn :: s.priStopped).dedup } c q.pasid p.page 23 (hostDetail p.page 2) (fun _ _ => true)
    .next (sendHeld s1 fn)

/-! ## Invalidations (R327, R340, R389) -/

/-- The host requests of a core that use an entry for one of the pages that is still in a store: one whose entry an earlier invalidation
dropped is waited for by that one (R327, R340). -/
def hostUsers (s : State) (pasid page count : Nat) : List (Nat × Nat) :=
  (s.cores.flatMap (fun e => (e.2.reqs.filter (fun r => match r.space with
    | .host p a => decide (p = pasid ∧ page ≤ a / 4096 ∧ a / 4096 < page + count)
    | _ => false)).map (fun r => (e.1, r.id)))).filter (fun u => !s.hostInvals.any (fun v => v.waits.contains u))

/-- ATS_INVALIDATION_REQUEST (R327 step 3): every matching entry of every core is dropped at once; the completion goes when the
accesses that used one are done. An outstanding Translation Request for a page is marked (R340). -/
def execAtsInvalidationRequest (pasid page count : Nat) (s : State) : Outcome :=
  let hit (p n : Nat) : Bool := decide (p = pasid ∧ page ≤ n ∧ n < page + count)
  let s1 := { s with cores := s.cores.map (fun e => (e.1, { e.2 with
    hstore := e.2.hstore.filter (fun t => !hit t.pasid t.page)
    ats := e.2.ats.map (fun q => if hit q.pasid q.page && !q.pri then { q with dead := true } else q) })) }
  let users := hostUsers s pasid page count
  if users.isEmpty then .next (tell s1 (.invalidationDone pasid page count))
  else .next { fresh s1 with hostInvals := s1.hostInvals ++ [⟨s1.ops, pasid, page, count, users⟩] }

/-- INVALIDATION_COMPLETION (R327 step 3). -/
def execInvalidationCompletion (i : Nat) (s : State) : Outcome :=
  match s.hostInvals.find? (fun v => v.id = i) with
  | none => .next s
  | some v =>
    if v.waits.any (fun w => (reqOf s w.1 w.2).isSome) then .next s
    else .next (tell { s with hostInvals := s.hostInvals.filter (fun x => x.id != i) } (.invalidationDone v.pasid v.page v.count))

/-- HOST_READ_TIMEOUT (R388): a host-pointer read came back with an error, or not at all within 2^24 cycles. It delivers nothing
from the host; its lanes fail as R394 has lanes fail (entry 13). -/
def execHostReadTimeout (c op : Nat) (err : Bool) (s : State) : Outcome :=
  match opOf s c op with
  | none => .next s
  | some o =>
    if o.kind ≠ .host ∨ (!err && decide (s.cycle < o.cycle + 2 ^ 24)) then .next s
    else
      let s1 := modCore s c (fun k => { k with reqs := k.reqs.filter (fun r => r.op != op) })
      let s2 := finishFlags (failLanes s1 c o.lf op (slotsOf o.width) o.lanes) c o.lf o.lanes o.flag
      let page := match lookup o.addrs (lowest o.lanes) with | some x => x.page | none => 0
      .next (raise (regroupTest (dropOp s2 c op) o.wg)
        ⟨23, c, o.lf, 0, thrField o.lf (lowest o.lanes), o.pc, hostDetail page 3, none⟩)

/-! ## Host accesses to HBM (R325, R326) -/

/-- The end of the HDM range (R325): 64 GiB for each stack, one stack on each die. -/
def hdmEnd (s : State) : Nat := dies s * 2 ^ 36

/-- Whether a link may face a host (R2). -/
def hostFacing (link : Nat) : Bool := decide (link < 2)

/-- The capsule area (R419): HBM pages 0xFE_C000 to 0xFF_FFFF of stack 0. -/
def capsulePage (page : Nat) : Bool := decide (0xFEC000 ≤ page ∧ page ≤ 0xFFFFFF)

/-- The pages of a range. -/
def rangePages (a n : Nat) : List Nat := if n = 0 then [] else (List.range ((a + n - 1) / 4096 - a / 4096 + 1)).map (fun i => a / 4096 + i)

/-- Whether a host read of a byte returns data marked poison (R390, R394, R424). -/
def hostPoison (s : State) (a : Nat) : Bool :=
  pageGone s (a / 4096) || (hostKey s a).isNone || spoiled s (homeByte s (a / 4096) (a % 4096))

/-- A byte as the host reads it: the home's, under the granule's key (R37, R325); the capsule area reads zero (R419). -/
def hostReadByte (s : State) (a : Nat) : Byte × Bool :=
  if capsulePage (a / 4096) then (0, false)
  else if hostPoison s a then (0, true)
  else (byteUnder s ((hostKey s a).getD 0) (homeByte s (a / 4096) (a % 4096)), false)

/-- The set of the snoop filter that a 64-byte line falls in: its base die's, by the low bits of the line (entry 21). -/
def snoopSet (line : Nat) : Nat := line / 2 ^ 30 * 2 ^ 18 + line % 2 ^ 18

/-- The entries of a line's set, the oldest allocation first. -/
def snoopWays (s : State) (line : Nat) : List (Nat × Nat) := s.snoopFilter.filter (fun e => decide (snoopSet e.1 = snoopSet line))

/-- The lines that a caching read must track and that find their set full: the oldest entry of each is to be evicted (R326). -/
def snoopEvictions (s : State) (lines : List Nat) : List Nat :=
  (lines.filterMap (fun l =>
    let w := snoopWays s l
    if w.any (fun e => e.1 = l) ∨ w.length < 16 then none else (w.head?).map (fun e => e.1))).dedup

/-- Lines entered in the filter. -/
def trackLines (s : State) (lines : List Nat) : State :=
  lines.foldl (fun s l =>
    if s.snoopFilter.any (fun e => e.1 = l) then s
    else { fresh s with snoopFilter := s.snoopFilter ++ [(l, s.ops)] }) s

/-- The 64-byte lines of a range. -/
def rangeLines (a n : Nat) : List Nat := if n = 0 then [] else (List.range ((a + n - 1) / 64 - a / 64 + 1)).map (fun i => a / 64 + i)

/-- A host access counted in the home agent's log when the granule's key is invalid (R390). -/
def countHost (s : State) (a : Nat) : State := if (hostKey s a).isNone then { s with rasHost := s.rasHost + 1 } else s

/-- Whether an HBM page is served from HBM and not from a frame (R37). -/
def inHbm (s : State) (page : Nat) : Bool := decide (homeByte s page 0 < 2 ^ 40)

/-- Whether a host request to an earlier page of a list waits at its home slice. -/
def hostOlder (s : State) (pages : List Nat) : Bool :=
  s.hostReqs.any (fun q => match q with
    | .read _ a n _ => (rangePages a n).any pages.contains
    | .write _ a d => (rangePages a d.length).any pages.contains
    | .notify _ _ _ _ => false)

/-- Whether a host request waits at the home slices of its pages: a page is on the move (R325, R68), a write meets B (R49), a
pseudo-channel accepts nothing more in the window (R66), its die is fenced (R424), or an older host request of the page waits. -/
def hostHeld (s : State) (pages : List Nat) (write : Bool) : Bool :=
  hostOlder s pages ||
  pages.any (fun p => (marker s p).offered || pageFenced s p || (write && markerBusy s p) || (inHbm s p && !pageOpen s p))

/-- A host request that waits keeps its place (R325). -/
def holdHost (s : State) (q : HostReq) : State := { s with hostReqs := s.hostReqs ++ [q] }

/-- The units of 16 bytes that a host read moves in the pseudo-channels of its pages (R66). -/
def countReads (s : State) (a n : Nat) : State :=
  (rangePages a n).foldl (fun t p =>
    if inHbm s p then moveUnits t p ((min (a + n) (4096 * p + 4096) + 15) / 16 - max a (4096 * p) / 16) else t) s

/-- HOST_MEM_READ (R325, R326): it waits while a migration has its page busy, and while its lines' sets have no free way. -/
def execHostMemRead (link a n : Nat) (caching : Bool) (s : State) : Outcome :=
  if !hostFacing link then .next s
  else if hdmEnd s < a + n then .fault (.outsideRange a)
  else if hostHeld s (rangePages a n) false then .next (holdHost s (.read link a n caching))
  else
    let lines := if caching then rangeLines a n else []
    let out := snoopEvictions s lines
    if !out.isEmpty then .next (holdHost (sendSnoops s out) (.read link a n caching))
    else
      let b := (List.range n).map (fun i => hostReadByte s (a + i))
      .next (tell (trackLines (countHost (countReads s a n) a) lines) (.readData link a (b.map (fun x => x.1)) (b.map (fun x => x.2))))

/-- One 128-byte block's share of a host write applied (R37, R64: always in budget): at the frame that holds the page, or
through the write lane. -/
def hostBlock (s : State) (link block : Nat) (d : Table Byte) : State :=
  let page := block / 32
  let n := homeByte s page (block % 32 * 128)
  if 2 ^ 40 ≤ n then applyWrite s 0 n d none
  else
    let m := d.foldl (fun m e => m ||| BitVec.twoPow 128 e.1) 0
    { fresh s with hwrites := s.hwrites ++ [
      { id := s.ops, page := page, block := block % 32, mask := m, data := d, poison := 0, charge := none, entered := false
        inBudget := true, arrival := 0, rank := 0, refusals := 0, key := (hostKey s (block * 128)).getD 0, dirty := none
        origin := .host link }] }

/-- The blocks of a host write, with each block's bytes by offset. -/
def hostBlocks (a : Nat) (data : List Byte) : Table (Table Byte) :=
  (data.mapIdx (fun i b => (a + i, b))).foldl (fun t e => change t (e.1 / 128) [] (fun d => put d (e.1 % 128) e.2)) []

/-- HOST_MEM_WRITE (R325): it waits while its page is busy; a write to the capsule area, under an invalid key, or to a die that
gives error replies is discarded (R390, R419, R424). -/
def execHostMemWrite (link a : Nat) (data : List Byte) (s : State) : Outcome :=
  if !hostFacing link then .next s
  else if hdmEnd s < a + data.length then .fault (.outsideRange a)
  else if hostHeld s (rangePages a data.length) true then .next (holdHost s (.write link a data))
  else .next ((hostBlocks a data).foldl (fun s e =>
    if capsulePage (e.1 / 32) then s
    else if pageGone s (e.1 / 32) ∨ (hostKey s (e.1 * 128)).isNone then { s with rasHost := s.rasHost + 1 }
    else hostBlock s link e.1 e.2) s)

/-- BACK_INVALIDATE_RESPONSE (R326): the host has given the line up. -/
def execBackInvalidateResponse (i : Nat) (s : State) : Outcome :=
  match s.snoops.find? (fun x => x.id = i) with
  | none => .next s
  | some x => .next { s with
      snoops := s.snoops.filter (fun y => y.id != i)
      snoopFilter := s.snoopFilter.filter (fun e => e.1 != x.line) }

/-- CXL_CACHE_SNOOP (R324): the part holds no host line, so every snoop is a miss. Only links 0 and 1 may carry one. -/
def execCxlCacheSnoop (link a : Nat) (s : State) : Outcome := .next (if hostFacing link then tell s (.snoopMiss link a) else s)

end Sys2Proof.Machine
end

