-- ==== Sys2Proof/Machine/Boot.lean ====
section
/-!
DEFINITION. Machine/Boot.lean: the boot window: how a block of the image is fetched, checked and read (R330, R430, R334).
-/
namespace Sys2Proof.Machine

/-- The bytes of a digest: byte i in bits 8 i + 7 to 8 i. -/
def digestBytes (d : BitVec 384) : List Byte := (List.range 48).map (fun i => d.extractLsb' (8 * i) 8)

/-- Bytes that the ROM reads from the host's bus addresses on link 0. -/
def busRead (s : State) (a n : Nat) : List Byte := Mem.read s.mem (Config.hostBase + a) n

/-- Boot stopped with a code (R430). -/
def failBoot (s : State) (code block : Nat) : State := { s with boot := { s.boot with code := code, block := block, ready := false } }

/-- The storage number of a byte of the boot window: slices 0 to 3 of die 0, one after the other (entry 28). -/
def windowByte (n : Nat) : Nat := frameAt (frameKey 0 (64 + n / 4096 / 1024) (n / 4096 % 1024)) + n % 4096

/-- The frames that a block of the window takes, one for each of its pages. -/
def blockFrames (blk : Nat) : List Nat := (List.range 16).map (fun p => (windowByte (blk * 65536 + p * 4096) - Config.frameBase) / 4096)

/-- A block's bytes placed in the boot window, page by page. -/
def placeBlock16 (s : State) (blk : Nat) (b : List Byte) : State :=
  (List.range 16).foldl (fun s p =>
    { s with mem := Mem.write s.mem (windowByte (blk * 65536 + p * 4096)) ((b.drop (4096 * p)).take 4096) }) s

/-- A block fetched (R330, R430): a block on its first touch is read, checked against its manifest entry and only then usable; a
failed read is tried 3 times more, a digest that does not match once more. Of two dies that touch a block together the first finds it
unchecked and fetches it, and the other uses the checked copy (R334). Pages that lie in the block's frames, when the window opens again
after a warm reset, are evicted first. -/
def bootFetch (s : State) (blk : Nat) (readOk : Bool) : State :=
  let x := s.boot
  if !x.ready ∨ x.manifest.length / 48 ≤ blk ∨ x.checked.contains blk ∨ !windowOpen s ∨ dieGone s 0 then s
  else if (blockFrames blk).any (fun k => (frame s k).valid || (frame s k).busy) then
    (blockFrames blk).foldl (fun t k => startEviction t k none) s
  else
    let again (k : Nat) : State := { s with boot := { x with retries := put x.retries k (look x.retries k 0 + 1) } }
    if !readOk then (if look x.retries (2 * blk) 0 < 3 then again (2 * blk) else failBoot s 8 blk)
    else
      let b := busRead s (x.base + 65536 * blk) 65536
      if digestBytes (Config.sha384 b) ≠ (x.manifest.drop (48 * blk)).take 48 then
        (if look x.retries (2 * blk + 1) 0 < 1 then again (2 * blk + 1) else failBoot s 7 blk)
      else { placeBlock16 s blk b with boot := { x with checked := blk :: x.checked } }

/-- BOOT_BLOCK_FETCH (R330, R430). -/
def execBootBlockFetch (blk : Nat) (readOk : Bool) (s : State) : Outcome := .next (bootFetch s blk readOk)

/-- Whether a core's Mast finds an address in the image as the boot window maps it: from 0 on, until its die's full service (R330;
entry 28). -/
def bootMapped (s : State) (c a n : Nat) : Bool :=
  s.boot.ready && (lookup s.booting (dieOf c)).isSome && decide (a + n ≤ s.boot.manifest.length / 48 * 65536)

/-- A read of the boot window: the first touch of a block fetches it, and only a checked block delivers (R330). -/
def bootRead (s : State) (a n : Nat) : Option (List Byte) × State :=
  if dieGone s 0 || dieFenced s 0 then (none, s)
  else if s.boot.checked.contains (a / 65536) then (some (Mem.read s.mem (windowByte a) n), s) else (none, bootFetch s (a / 65536) true)

/-- After a failed boot die 0 serves only the mailbox commands 0x10, 0x15, 0x17 and 0x2C (R430). -/
def served (s : State) (code : Nat) : Bool :=
  decide (s.boot.code = 0) || decide (code = 0x10 ∨ code = 0x15 ∨ code = 0x17 ∨ code = 0x2C)

end Sys2Proof.Machine
end

