-- ==== Sys2Proof/Machine/Mast.lean ====
section
/-!
DEFINITION. Machine/Mast.lean: the Mast's accesses (R312, R313, R318, R322, R323), the window onto threads and the device range
(R316), notify registers (R321), the call ring (R270, R271, R317, R319, R335) and the message queue (R320).
-/
namespace Sys2Proof.Machine

def mast (s : State) (c : Nat) : Mast := (core s c).mast
def modMast (s : State) (c : Nat) (f : Mast → Mast) : State := modCore s c (fun k => { k with mast := f k.mast })

/-- Whether the Mast of a core runs: its die is in firmware or a later state and, if it is not the die's first, has been started (R330
step 4, R331, R424); or it is core 0's in the ROM. -/
def mastUp (s : State) (c : Nat) : Bool :=
  let st := s.dieState.getD (dieOf c) 0
  decide (c < coreCount s) &&
  ((decide (2 ≤ st ∧ st ≤ 5) && (decide (c % 64 = 0) || decide (lookup s.booting (dieOf c) ≠ some 1))) || decide (st = 1 ∧ c = 0))

/-- An x register written; x0 discards (RISC-V). -/
def setX (s : State) (c rd : Nat) (v : DWord) : State :=
  if rd = 0 ∨ 32 ≤ rd then s else modMast s c (fun m => { m with x := m.x.set rd v })

/-! ## RISC-V exceptions and interrupts of the Mast (R314, R315, R323; entry 89) -/

def Priv.code : Priv → Nat
  | .u => 0 | .s => 1 | .m => 3

/-- A trap taken to S mode: the cause, the program counter and the mode are saved, and the vector follows. -/
def trapS (m : Mast) (cause tval vec : DWord) : Mast :=
  { m with
    scause := cause, sepc := m.pc, stval := tval, spp := m.mode.code % 2, spie := m.sie, sie := false
    mode := .s, pc := (m.stvec &&& ~~~3) + vec }

/-- A trap taken to M mode. -/
def trapM (m : Mast) (cause tval vec : DWord) : Mast :=
  { m with
    mcause := cause, mepc := m.pc, mtval := tval, mpp := m.mode.code, gpie := m.gie, gie := false
    mode := .m, pc := (m.mtvec &&& ~~~3) + vec }

/-- An exception taken by a Mast: to S mode when medeleg delegates it, else to M mode. -/
def mastTrap (s : State) (c cause : Nat) (tval : DWord) : State :=
  modMast s c (fun m =>
    if m.mode ≠ .m && m.medeleg.getLsbD cause then trapS m (BitVec.ofNat 64 cause) tval 0
    else trapM m (BitVec.ofNat 64 cause) tval 0)

/-- Kinds of access: 0 load, 1 store or AMO, 2 fetch; their RISC-V causes. -/
def accessCause (k : Nat) : Nat := if k = 2 then 1 else if k = 1 then 7 else 5
def misalignedCause (k : Nat) : Nat := if k = 2 then 0 else if k = 1 then 6 else 4

/-- mip: the bits that software sets, and the local interrupts that are pending (R315, R363): 16 notify, 17 call, 18 message,
19 context stopped. -/
def mastPending (s : State) (c : Nat) : DWord :=
  let m := mast s c
  m.mip ||| BitVec.ofNat 64 (bnat (m.mntpend &&& m.mntie != 0) * 2 ^ 16 + bnat (m.head != m.tail) * 2 ^ 17 +
    bnat (!m.msgs.isEmpty) * 2 ^ 18 + bnat s.stop.isSome * 2 ^ 19)

/-- The interrupts that a Mast may take, in the order of their priority: supervisor external, software and timer, then the local ones
in ascending order (entry 89). -/
def intOrder : List Nat := [9, 1, 5, 16, 17, 18, 19]

/-- The interrupt that a Mast takes before its next instruction, and whether S mode takes it (RISC-V): one pending and enabled; one that
is not delegated interrupts the lower modes always and M mode when MIE is 1, a delegated one U mode always and S mode when SIE is 1. -/
def mastInterrupt (s : State) (c : Nat) : Option (Nat × Bool) :=
  let m := mast s c
  let p := mastPending s c &&& m.mie
  let high := decide (m.mode ≠ .m) || m.gie
  let low := decide (m.mode = .u) || (decide (m.mode = .s) && m.sie)
  match intOrder.find? (fun i => p.getLsbD i && !m.mideleg.getLsbD i && high) with
  | some i => some (i, false)
  | none => (intOrder.find? (fun i => p.getLsbD i && m.mideleg.getLsbD i && low)).map (fun i => (i, true))

/-- Where an interrupt goes beyond the vector base: 4 × its number in vectored mode. -/
def vecOff (tvec : DWord) (i : Nat) : DWord := if tvec &&& 3 = 1 then BitVec.ofNat 64 (4 * i) else 0

/-- An interrupt taken: the trap of its mode, with bit 63 of the cause set. -/
def takeInterrupt (s : State) (c i : Nat) (sup : Bool) : State :=
  let cause := BitVec.ofNat 64 (2 ^ 63 + i)
  modMast s c (fun m => if sup then trapS m cause 0 (vecOff m.stvec i) else trapM m cause 0 (vecOff m.mtvec i))

/-! ## PMP and the sandbox (R312, R323) -/

/-- The range of a PMP entry, none when it is off. -/
def pmpRange (m : Mast) (i : Nat) : Option (Nat × Nat) :=
  let a := (m.pmpaddr.getD i 0).toNat % 2 ^ 54
  match bits (m.pmpcfg.getD i 0).toNat 4 3 with
  | 0 => none
  | 1 => some (if i = 0 then 0 else (m.pmpaddr.getD (i - 1) 0).toNat % 2 ^ 54 * 4, a * 4)
  | 2 => some (a * 4, a * 4 + 4)
  | _ =>
    let n := (List.range 54).findIdx (fun j => !a.testBit j)
    let lo := a / 2 ^ (n + 1) * 2 ^ (n + 1) * 4
    some (lo, lo + 2 ^ (n + 3))

/-- The mode whose rights an access has: MPRV gives loads and stores those of MPP (RISC-V). -/
def accessMode (m : Mast) (k : Nat) : Priv :=
  if m.mode = .m && m.mprv && decide (k ≠ 2) then (match m.mpp with | 0 => .u | 1 => .s | _ => .m) else m.mode

/-- Whether PMP allows an access made with the rights of a mode: the lowest entry that it touches must hold all of it and grant it; M
mode is bound by none (R312: PMP checks apply in S and U modes). -/
def pmpAllows (m : Mast) (p : Priv) (a n k : Nat) : Bool :=
  decide (p = .m) ||
  (match (List.range 16).findSome? (fun i => (pmpRange m i).bind (fun r => if r.1 < a + n ∧ a < r.2 then some (i, r) else none)) with
   | some (i, r) => decide (r.1 ≤ a) && decide (a + n ≤ r.2) && (m.pmpcfg.getD i 0).getLsbD k
   | none => false)

/-- Whether a region of U mode's key grants an access (R323). -/
def regionAllows (m : Mast) (a n k : Nat) : Bool :=
  (List.range 16).any (fun i =>
    let b := (m.mrgnb.getD i 0).toNat
    let l := (m.mrgnl.getD i 0).toNat
    decide (bits l 3 0 = m.mukey) && decide (bits b 47 12 * 4096 ≤ a) && decide (a + n ≤ bits l 47 12 * 4096) && bit l (4 + k))

/-! ## Access through a context (R312, R318) -/

/-- Where a Mast access goes: it waits, fails a check, or lies at a storage number under a key, with the page whose entry takes
D. -/
inductive MastAt where
  | wait
  | fail (kind : Nat)
  | place (n key : Nat) (dirty : Option (Nat × Nat))
deriving DecidableEq, Repr

/-- The fill or promotion that a Mast access asks for (R50, R318). -/
def mastFill (s : State) (c ctx vpn : Nat) (e : DWord) (n : Nat) : State :=
  let who : Filler := ⟨none, true⟩
  if entKind e = 2 ∧ n < 2 ^ 40 then askPlace s c ctx vpn e who noThread 0
  else if entKind e = 1 ∧ promotes c e then askPlace s c ctx vpn e who noThread 0
  else s

/-- The lines and writes that a Mast store to an HBM page or a frame waits for (R326; R61: a page's earlier writes). -/
def mastStoreWaits (s : State) (n page off len : Nat) : Bool :=
  !(trackedLines s page ((List.range len).map (fun i => off + i))).isEmpty ||
  (decide (n < 2 ^ 40) && s.hwrites.any (fun w => decide (w.page = n / 4096)))

/-- Whether a store of a core's Mast waits on a write lane: the Mast makes no further access until it is applied, so that its accesses keep
their order (R313). -/
def mastWriting (s : State) (c : Nat) : Bool := s.hwrites.any (fun w => decide (w.origin = .mast c))

/-- The page that holds the home of a translated access. -/
def entBacking (s : State) (e : DWord) : Nat := if entKind e = 1 then (frame s (entFrame e)).backing else entPage e

/-- A Mast access of `len` bytes within one page, of kind `k`; `sup` says that it is made in S or M mode (R312). It waits while a fill
has the page's B set (R49) and while an earlier store of the Mast is on its lane, and on HBM while the pseudo-channel takes nothing more in the window (R66); a read moves its units there. -/
def mastPlace (s : State) (c ctx va len k : Nat) (sup : Bool) : MastAt × State :=
  let vpn := va / 4096 % 2 ^ 36
  if fetchWaits s c ctx vpn || mastWriting s c then (.wait, s) else
  match fetchTrans s c ctx vpn with
  | (.error j, s1) => (.fail j, s1)
  | (.ok e0, s0) =>
    match resolve s0 c ctx vpn e0 with
    | (e, s1) =>
    if entOrd e = 3 then (.fail 6, s1)
    else if (entM e && !sup) || (decide (k = 1) && !entW e) || (decide (k = 2) && !entX e) then (.fail 7, s1)
    else if entKind e = 3 then
      match meetCap s1 c ctx vpn noThread 0 (decide (k = 1)) with
      | (.poisoned, s2) => (.fail 17, s2)
      | (.bad j, s2) => (.fail j, s2)
      | (_, s2) => (.wait, s2)
    else
      match homeCheck s1 c ctx va e (decide (k = 1)) with
      | .gone => (.fail 29, s1)
      | .noKey => (.fail 24, s1)
      | .wait => (.wait, s1)
      | .reject => (.wait, forget s1 c ctx vpn)
      | .back => (.wait, forget (yieldDemotion s1 ctx vpn) c ctx vpn)
      | .redirect f => (.place (frameAt f + va % 4096) 0 none, refFrame s1 f)
      | .serve n =>
        if n < 2 ^ 40 && !pageOpen s1 (entPage e) then (.wait, s1) else
        let s2 := mastFill (if n < 2 ^ 40 ∧ k ≠ 1 then moveUnits s1 (entPage e) ((len + 15) / 16) else s1) c ctx vpn e n
        let s3 := if entKind e = 1 then refFrame s2 (entFrame e) else s2
        let at_ : MastAt := .place n (keyNow s1 ctx) (if n < 2 ^ 40 then some (ctx, vpn) else none)
        if k = 1 then
          match homeCheck s3 c ctx va e true with
          | .serve _ =>
            if mastStoreWaits s3 n (entBacking s3 e) (va % 4096) len then
              (.wait, sendSnoops s3 (trackedLines s3 (entBacking s3 e) ((List.range len).map (fun i => va % 4096 + i))))
            else (at_, s3)
          | _ => (.wait, s3)
        else (at_, s3)

/-- Bytes read by a Mast. -/
def mastRead (s : State) (c ctx va len k : Nat) (sup : Bool) : Got × State :=
  match mastPlace s c ctx va len k sup with
  | (.wait, s1) => (.wait, s1)
  | (.fail j, s1) => (.fail j, s1)
  | (.place n key _, s1) =>
    if (List.range len).any (fun i => spoiled s1 (n + i)) then (.fail 25, s1) else (.bytes (readUnder s1 key n len), s1)

/-- Bytes written by a Mast at their home (R313), at HBM on the write lane, charged to its core (R64). -/
def mastWrite (s : State) (c ctx va : Nat) (d : List Byte) (sup : Bool) : Got × State :=
  match mastPlace s c ctx va d.length 1 sup with
  | (.wait, s1) => (.wait, s1)
  | (.fail j, s1) => (.fail j, s1)
  | (.place n key dirty, s1) => (.bytes [], laneWrite s1 n key (byteTable d) (some c) (.mast c) dirty)

/-! ## Notify registers (R321) -/

/-- A write of a notify register: the value is stored and bit k of MNTPEND set. One to a die that gives no service is dropped (R331,
R424). -/
def notifyWrite (s : State) (c k : Nat) (v : Word) : State :=
  if coreCount s ≤ c ∨ 32 ≤ k ∨ dieGone s (dieOf c) then s
  else modMast s c (fun m => { m with notify := m.notify.set k v, mntpend := m.mntpend ||| BitVec.twoPow 32 k })

/-- Whether an earlier write of a host through a link is not applied yet: a notify write stays behind it (R321, R81). -/
def hostWritesLeft (s : State) (link : Nat) : Bool :=
  s.hwrites.any (fun w => decide (w.origin = .host link)) ||
  s.hostReqs.any (fun q => match q with
    | .read _ _ _ _ => false
    | .write l _ _ => decide (l = link)
    | .notify l _ _ _ => decide (l = link))

/-- NOTIFY_WRITE (R321): a host's write through BAR0, in its order behind the writes of its link; it waits outside a fenced die (R424). -/
def execNotifyWrite (x : HostCore) (k : Nat) (v : Word) (s : State) : Outcome :=
  .next (if !hostFacing x.link then s
    else if hostWritesLeft s x.link || dieFenced s (dieOf x.core) then holdHost s (.notify x.link x.core k v)
    else notifyWrite s x.core k v)

/-- A host request that waited, made again. -/
def serveHost (q : HostReq) (s : State) : Outcome :=
  match q with
  | .read link a n caching => execHostMemRead link a n caching s
  | .write link a d => execHostMemWrite link a d s
  | .notify link c k v => execNotifyWrite ⟨link, c⟩ k v s

/-- MNTPEND_WRITE (R314): a 1 clears its bit; the CSR is not for U mode. -/
def execMntpendWrite (c : Nat) (v : DWord) (s : State) : Outcome :=
  if !mastUp s c then .next s
  else if (mast s c).mode = .u then .next (mastTrap s c 2 0)
  else .next (modMast s c (fun m => { m with mntpend := m.mntpend &&& ~~~(v.setWidth 32) }))

/-! ## The window onto threads (R316) -/

/-- STATE of a thread record. -/
def stateWord (t : Thread) : Word :=
  BitVec.ofNat 32 (bnat t.live + bnat (t.live && t.parked) * 2 +
    ((List.range 12).foldl (fun n i => n + bnat (flagBusy t i) * 2 ^ (2 + i)) 0) +
    ((List.range 16).foldl (fun n i => n + bnat (decide ((t.q.getD i ⟨0, 0, 0⟩).tok ≠ 0)) * 2 ^ (14 + i)) 0))

/-- A word of a thread record. -/
def threadWord (t : Thread) (w : Nat) : Word :=
  if w = 0 then 0
  else if w < 16 then t.n.getD w 0
  else if w < 32 then (t.q.getD (w - 16) ⟨0, 0, 0⟩).val
  else if w = 32 then t.pc.extractLsb' 0 32
  else if w = 33 then t.pc.extractLsb' 32 32
  else if w = 34 then stateWord t
  else if w = 35 then t.stamp
  else 0

/-- Whether the window takes writes to a thread: it is live and Parked. -/
def windowTakes (t : Thread) : Bool := t.live && t.parked

/-- A thread's share of its monitor released (R217): all of it, or all but a call's. -/
def dropShare (s : State) (c l lane : Nat) (calls : Bool) : State :=
  let less := s.monitors.map (fun (m : Monitor) =>
    if m.core = c ∧ m.lf = l ∧ (calls || m.call.isNone) then { m with lanes := m.lanes &&& ~~~(BitVec.twoPow 32 lane) } else m)
  { s with monitors := less.filter (fun m => m.lanes != 0) }

/-- A lane leaves the call that it is parked in; a slot whose lanes have all resumed or ended is free (R319). -/
def leaveCall (s : State) (c l lane : Nat) : State :=
  modMast s c (fun m =>
    let less := m.calls.map (fun e =>
      if e.2.ctx = ctxId s ∧ e.2.lf = l then (e.1, { e.2 with lanes := e.2.lanes &&& ~~~(BitVec.twoPow 32 lane) }) else e)
    { m with calls := less.filter (fun e => e.2.lanes != 0) })

/-- A lane leaves the direct read that its bundle waits for (R69). -/
def leaveReader (s : State) (c l lane : Nat) : State :=
  modCore s c (fun k => modC k (fun y =>
    let less := y.readers.map (fun (r : Reader) =>
      if r.op.lf = l then { r with op := { r.op with lanes := r.op.lanes &&& ~~~(BitVec.twoPow 32 lane) } } else r)
    { y with readers := less.filter (fun (r : Reader) => r.op.lanes != 0) }))

/-- What a thread waits for is given up when a handler moves, ends or frees it (R217, R316, R413). -/
def leaveWaits (s : State) (c l lane : Nat) (t : Thread) (calls : Bool) : State :=
  let s1 := leaveReader (dropShare s c l lane calls) c l lane
  let s2 := if t.wait = some .latch then withdrawLane s1 c l lane else s1
  if calls then leaveCall s2 c l lane else s2

/-- A word of a record written to a Parked thread. -/
def putThreadWord (t : Thread) (w : Nat) (v : Word) : Thread :=
  if w = 0 then t
  else if w < 16 then { t with n := t.n.set w v }
  else if w < 32 then
    let x := t.q.getD (w - 16) ⟨0, 0, 0⟩
    if x.tok = 0 then { t with q := t.q.set (w - 16) { x with val := v } } else { t with winq := put t.winq x.tok v }
  else if w = 32 then { t with pc := (t.pc &&& 0xFFFFFFFF00000000) ||| ((v &&& 0xFFFFFFFC).setWidth 64) }
  else { t with pc := (t.pc &&& 0x00000000FFFFFFFF) ||| ((v &&& 0xF000FFFF).setWidth 64 <<< 32) }

/-- A write of words 0 to 33 of a Parked thread; a moved thread leaves its monitor and its regroup point (R217, R265). -/
def windowRegister (s : State) (c l lane w : Nat) (v : Word) : State :=
  match laneFrame s c l with
  | none => s
  | some f =>
    let t := thread f lane
    if !windowTakes t ∨ 34 ≤ w ∨ 32 ≤ lane then s
    else
      let s1 := modLF s c l (fun f => modThread f lane (fun t => putThreadWord t w v))
      if w < 32 then s1 else arriveAt (leaveWaits s1 c l lane t false) c l (BitVec.twoPow 32 lane)

/-- WINDOW_REGISTER_WRITE (R316). -/
def execWindowRegisterWrite (c l lane w : Nat) (v : Word) (s : State) : Outcome := .next (windowRegister s c l lane w v)

/-- A Parked thread ends. -/
def windowEnd (s : State) (c l lane : Nat) : State :=
  match laneFrame s c l with
  | none => s
  | some f =>
    let t := thread f lane
    if !windowTakes t then s
    else
      let s1 := modLF s c l (fun f => modThread f lane (fun t =>
        { t with live := false, parked := false, stop := false, wait := none, regroup := false }))
      regroupTest (leaveWaits s1 c l lane t true) f.wg

/-- WINDOW_END (R316). -/
def execWindowEnd (c l lane : Nat) (s : State) : Outcome := .next (windowEnd s c l lane)

/-- A Parked thread becomes eligible at its saved program counter; a stop keeps it parked (R364). The Mast's earlier writes come before
its accesses, so the core's read-ahead buffer is emptied (R89, R77). -/
def windowUnpark (s : State) (c l lane : Nat) : State :=
  match laneFrame s c l with
  | none => s
  | some f =>
    let t := thread f lane
    if !windowTakes t then s
    else
      let m : LaneMask := BitVec.twoPow 32 lane
      let s1 := modLF (emptyReadAhead (leaveWaits s c l lane t true) c) c l (fun f => wakeLF f m)
      let s2 := if t.wait.isSome then recordPark s1 c l true m t.pc 6 else s1
      arriveAt s2 c l m

/-- WINDOW_UNPARK (R316). -/
def execWindowUnpark (c l lane : Nat) (s : State) : Outcome := .next (windowUnpark s c l lane)

/-- A word of the window at an offset; the mailbox stands at 0xC_0000 (R328; its registers in the order command, arguments,
response: entry 24). -/
def windowRead (s : State) (c off : Nat) : Word :=
  if off < 0x80000 then
    match laneFrame s c (off / 0x2000) with
    | some f => threadWord (thread f (off / 0x100 % 32)) (off % 0x100 / 4)
    | none => 0
  else if off < 0x80080 then (mast s c).notify.getD ((off - 0x80000) / 4) 0
  else if 0xC0008 ≤ off ∧ off < 0xC0048 then
    ((s.mbxArgs.getD ((off - 0xC0008) / 8) 0).extractLsb' (8 * (off % 8)) 32)
  else if off = 0xC0048 then s.mbxResp
  else 0

/-- A word written to the window. DESIGN CHOICE (entry 108): R328 names only a command that is written while BUSY is 1; an argument
doubleword written then is taken, and a command that waits finds it. A command that the part does not serve is ignored (R430; entry 25). -/
def windowStore (s : State) (c off : Nat) (v : Word) : State :=
  if off < 0x80000 then
    let l := off / 0x2000
    let lane := off / 0x100 % 32
    let w := off % 0x100 / 4
    if w < 34 then windowRegister s c l lane w v
    else if w = 34 then (if v.getLsbD 30 then windowEnd s c l lane else if v.getLsbD 31 then windowUnpark s c l lane else s)
    else s
  else if off < 0x80080 then notifyWrite s c ((off - 0x80000) / 4) v
  else if 0xC0008 ≤ off ∧ off < 0xC0048 ∧ (mast s c).mode = .m then
    let i := (off - 0xC0008) / 8
    let old := s.mbxArgs.getD i 0
    let new : DWord := if off % 8 = 0 then (old &&& 0xFFFFFFFF00000000) ||| v.setWidth 64 else (old &&& 0xFFFFFFFF) ||| (v.setWidth 64 <<< 32)
    { s with mbxArgs := s.mbxArgs.set i new }
  else if off = 0xC0000 ∧ (mast s c).mode = .m ∧ s.mbxCmd.isNone ∧ served s v.toNat then { s with mbxCmd := some (v.toNat, c), mbxResp := 0x80000000 }
  else s

/-- A word of the device range (R316): the notify registers of every core. -/
def deviceRead (s : State) (off : Nat) : Word :=
  let r := off % 0x100000
  if off / 0x100000 < coreCount s ∧ 0x80000 ≤ r ∧ r < 0x80080 then (mast s (off / 0x100000)).notify.getD ((r - 0x80000) / 4) 0 else 0

def deviceStore (s : State) (off : Nat) (v : Word) : State :=
  let r := off % 0x100000
  if off / 0x100000 < coreCount s ∧ 0x80000 ≤ r ∧ r < 0x80080 then notifyWrite s (off / 0x100000) ((r - 0x80000) / 4) v else s

/-- What an address of the device range finds at the edge of the die it names (R424): `some none` is an error reply, `some (some ())` a wait
outside a fenced die that is not the Mast's own. -/
def deviceEdge (s : State) (c a : Nat) : Option (Option Unit) :=
  let d := dieOf ((a - 0xC00000000000) / 0x100000)
  if a < 0xC00000000000 ∨ dies s ≤ d then none
  else if dieGone s d then some none
  else if dieFenced s d && decide (d ≠ dieOf c) then some (some ())
  else none

/-- The word at an address with bit 47 set. -/
def ioRead (s : State) (c a : Nat) : Word :=
  if a < 0xC00000000000 then windowRead s c (a - 0x800000000000) else deviceRead s (a - 0xC00000000000)
def ioStore (s : State) (c a : Nat) (v : Word) : State :=
  if a < 0xC00000000000 then windowStore s c (a - 0x800000000000) v else deviceStore s (a - 0xC00000000000) v

/-- A naturally aligned read of `n` bytes there; each word is read whole (R183). -/
def ioBytes (s : State) (c a n : Nat) : List Byte :=
  (List.range n).map (fun i => (ioRead s c ((a + i) / 4 * 4)).extractLsb' (8 * ((a + i) % 4)) 8)

/-- A naturally aligned write there, word by word from the lower address; a shorter write replaces its bytes of the word
(entry 24). -/
def ioWrite (s : State) (c a : Nat) (d : List Byte) : State :=
  if d.length < 4 then
    let old := ioRead s c (a / 4 * 4)
    let b := (List.range 4).map (fun i =>
      if a % 4 ≤ i ∧ i < a % 4 + d.length then d.getD (i - a % 4) 0 else old.extractLsb' (8 * i) 8)
    ioStore s c (a / 4 * 4) (BitVec.ofNat 32 (leNat b))
  else
    (List.range (d.length / 4)).foldl (fun s i => ioStore s c (a + 4 * i) (BitVec.ofNat 32 (leNat ((d.drop (4 * i)).take 4)))) s

/-! ## Loads, stores, AMOs, LR, SC and fences of the Mast (R312, R313) -/

/-- A loaded value extended to 64 bits. -/
def extendTo64 (signed : Bool) (l : List Byte) : DWord :=
  if signed then BitVec.ofInt 64 (toInt (8 * l.length) (leNat l)) else BitVec.ofNat 64 (leNat l)

/-- Whether an access passes the checks on the address as issued (R312, R323): its kind's access fault otherwise. -/
def issueAllows (s : State) (c a n k : Nat) : Bool :=
  let m := mast s c
  let p := accessMode m k
  decide (a < 2 ^ 48) && pmpAllows m p a n k &&
  (decide (p ≠ .u) || (decide (a < 2 ^ 47) && regionAllows m a n k))

/-- Whether an access of a kind is made with the rights of S or M mode. -/
def isSup (s : State) (c k : Nat) : Bool := decide (accessMode (mast s c) k ≠ .u)

/-- How an access of a Mast ends: it is done, it changes nothing and is made again, or an exception was taken. -/
inductive MastEnd where
  | done (s : State)
  | wait (s : State)
  | trapped (s : State)

def MastEnd.state : MastEnd → State
  | .done s => s
  | .wait s => s
  | .trapped s => s

/-- A Mast load or fetch of `n` bytes: the bytes, a wait, or an exception. In M mode the image is read through the boot window while
boot lasts (R330). -/
def mastLoad (s : State) (c a n k : Nat) : Except MastEnd (List Byte) × State :=
  if a % n ≠ 0 then (.error (.trapped (mastTrap s c (misalignedCause k) (BitVec.ofNat 64 a))), s)
  else if !issueAllows s c a n k ∨ (2 ^ 47 ≤ a ∧ k = 2) then (.error (.trapped (mastTrap s c (accessCause k) (BitVec.ofNat 64 a))), s)
  else if 2 ^ 47 ≤ a then
    match deviceEdge s c a with
    | none => (.ok (ioBytes s c a n), s)
    | some none => (.error (.trapped (mastTrap s c (accessCause k) (BitVec.ofNat 64 a))), s)
    | some (some ()) => (.error (.wait s), s)
  else if accessMode (mast s c) k = .m ∧ bootMapped s c a n then
    match bootRead s a n with
    | (some l, s1) => (.ok l, s1)
    | (none, s1) => (.error (.wait s1), s1)
  else match mastRead s c (mast s c).mctx a n k (isSup s c k) with
    | (.fail _, s1) => (.error (.trapped (mastTrap s1 c (accessCause k) (BitVec.ofNat 64 a))), s1)
    | (.wait, s1) => (.error (.wait s1), s1)
    | (.bytes l, s1) => (.ok l, s1)

/-- A Mast store. -/
def mastStore (s : State) (c n a d : Nat) : MastEnd :=
  if a % n ≠ 0 then .trapped (mastTrap s c 6 (BitVec.ofNat 64 a))
  else if !issueAllows s c a n 1 then .trapped (mastTrap s c 7 (BitVec.ofNat 64 a))
  else if 2 ^ 47 ≤ a then
    match deviceEdge s c a with
    | none => .done (ioWrite s c a (leBytes n d))
    | some none => .trapped (mastTrap s c 7 (BitVec.ofNat 64 a))
    | some (some ()) => .wait s
  else match mastWrite s c (mast s c).mctx a (leBytes n d) (isSup s c 1) with
    | (.fail _, s1) => .trapped (mastTrap s1 c 7 (BitVec.ofNat 64 a))
    | (.wait, s1) => .wait s1
    | (.bytes _, s1) => .done s1

/-- A Mast load into an x register. -/
def mastLoadX (s : State) (c n a rd : Nat) (signed : Bool) : MastEnd :=
  match mastLoad s c a n 0 with
  | (.ok l, s1) => .done (setX s1 c rd (extendTo64 signed l))
  | (.error e, _) => e

/-- The new value of an AMO, on `w` bits. -/
def amoValue (o : AmoOp) (w old d : Nat) : Nat :=
  let a := old % 2 ^ w
  let b := d % 2 ^ w
  match o with
  | .swap => b
  | .add => (a + b) % 2 ^ w
  | .xor => a ^^^ b
  | .and => a &&& b
  | .or => a ||| b
  | .min => if toInt w a ≤ toInt w b then a else b
  | .max => if toInt w b ≤ toInt w a then a else b
  | .minu => min a b
  | .maxu => max a b

/-- Whether an AMO, LR or SC may go to memory: aligned, allowed, and to a page (entry 23: no atomic access to the window). -/
def atomicTrap (s : State) (c a n k : Nat) : Option Nat :=
  if a % n ≠ 0 then some (misalignedCause k)
  else if !issueAllows s c a n k ∨ 2 ^ 47 ≤ a then some (accessCause k)
  else none

/-- An AMO (R313). DESIGN CHOICE (entry 107): of the rights of a region in U mode (R323) it needs W, the access kind of a store, and not R. It
is a read-modify-write at the location's home; aq and rl order at .dev, which a step that is applied whole does, and an
acquiring one empties the core's read-ahead buffer first (R77). -/
def mastAmo (s : State) (c : Nat) (o : AmoOp) (n : Nat) (aq : Bool) (a d : DWord) (rd : Nat) : MastEnd :=
  match atomicTrap s c a.toNat n 1 with
  | some k => .trapped (mastTrap s c k a)
  | none =>
    match mastPlace s c (mast s c).mctx a.toNat n 1 (isSup s c 1) with
    | (.wait, s1) => .wait s1
    | (.fail _, s1) => .trapped (mastTrap s1 c 7 a)
    | (.place p key dirty, s1) =>
      if (List.range n).any (fun i => spoiled s1 (p + i)) then .trapped (mastTrap s1 c 7 a)
      else
        let old := readUnder s1 key p n
        let new := leBytes n (amoValue o (8 * n) (leNat old) d.toNat)
        let s2 := if aq then emptyReadAhead s1 c else s1
        .done (setX (laneWrite s2 p key (byteTable new) (some c) (.mast c) dirty) c rd (extendTo64 true old))

/-- MAST_AMO (R313). -/
def execMastAmo (c : Nat) (o : AmoOp) (n : Nat) (aq _rl : Bool) (a d : DWord) (rd : Nat) (s : State) : Outcome :=
  .next (if !mastUp s c ∨ !([4, 8].contains n) then s else (mastAmo s c o n aq a d rd).state)

/-- An LR (R313): one naturally aligned word or doubleword is reserved. -/
def mastLr (s : State) (c n : Nat) (a : DWord) (rd : Nat) : MastEnd :=
  match atomicTrap s c a.toNat n 0 with
  | some k => .trapped (mastTrap s c k a)
  | none =>
    match mastRead s c (mast s c).mctx a.toNat n 0 (isSup s c 0) with
    | (.wait, s1) => .wait s1
    | (.fail _, s1) => .trapped (mastTrap s1 c 5 a)
    | (.bytes l, s1) =>
      .done (setX (modMast s1 c (fun m => { m with reserve := some (.virt m.mctx a.toNat, n, true) })) c rd (extendTo64 true l))

/-- MAST_LR (R313). -/
def execMastLr (c n : Nat) (a : DWord) (rd : Nat) (s : State) : Outcome :=
  .next (if !mastUp s c ∨ !([4, 8].contains n) then s else (mastLr s c n a rd).state)

/-- An SC (R313): it fails with 1 if the unit was written or its frame remapped since the LR; success writes 0 to rd. -/
def mastSc (s : State) (c n : Nat) (a d : DWord) (rd : Nat) : MastEnd :=
  match atomicTrap s c a.toNat n 1 with
  | some k => .trapped (mastTrap s c k a)
  | none =>
    let clear (t : State) : State := modMast t c (fun m => { m with reserve := none })
    if (mast s c).reserve ≠ some (.virt (mast s c).mctx a.toNat, n, true) then .done (setX (clear s) c rd 1)
    else match mastWrite s c (mast s c).mctx a.toNat (leBytes n d.toNat) (isSup s c 1) with
      | (.wait, s1) => .wait s1
      | (.fail _, s1) => .trapped (mastTrap (clear s1) c 7 a)
      | (.bytes _, s1) => .done (setX (clear s1) c rd 0)

/-- MAST_SC (R313). -/
def execMastSc (c n : Nat) (a d : DWord) (rd : Nat) (s : State) : Outcome :=
  .next (if !mastUp s c ∨ !([4, 8].contains n) then s else (mastSc s c n a d rd).state)

/-- MAST_FENCE (R313): a FENCE of scope .dev empties the core's read-ahead buffer (R77); the Mast's own stores are applied when
their step ends. Code is read at its home, so FENCE.I has nothing more to do. -/
def execMastFence (c : Nat) (_instr : Bool) (s : State) : Outcome :=
  if !mastUp s c then .next s else .next (emptyReadAhead s c)

/-! ## Messages (R320) and the call ring (R270, R271, R317, R319, R335) -/

/-- A read of MMSGA (R320): the oldest message's image, its value latched in MMSGB. -/
def popMessage (s : State) (c : Nat) : DWord × State :=
  match (mast s c).msgs with
  | [] => (0, s)
  | x :: r =>
    (BitVec.ofNat 64 (2 ^ 63 + x.tid % 1024 * 2 ^ 53 + x.ctx % 65536 * 2 ^ 37 + x.lf % 64 * 2 ^ 31 + x.chan % 32),
      modMast s c (fun m => { m with msgs := r, mmsgb := x.value.setWidth 64 }))

/-- A read of MCALLQ (R319): the slot of the oldest posted call. -/
def popCall (s : State) (c : Nat) : DWord × State :=
  match (mast s c).posted with
  | [] => (0, s)
  | x :: r => (BitVec.ofNat 64 (2 ^ 63 + x % 16), modMast s c (fun m => { m with posted := r, head := m.head + 1 }))

/-- A read that takes an entry, as an event: the value goes to an x register; the CSR is not for U mode (R314). -/
def popInto (s : State) (c rd : Nat) (pop : State → Nat → DWord × State) : State :=
  if !mastUp s c then s
  else if (mast s c).mode = .u then mastTrap s c 2 0
  else setX (pop s c).2 c rd (pop s c).1

/-- MMSGA_READ (R320). -/
def execMmsgaRead (c rd : Nat) (s : State) : Outcome := .next (popInto s c rd popMessage)

/-- MCALLQ_READ (R319). -/
def execMcallqRead (c rd : Nat) (s : State) : Outcome := .next (popInto s c rd popCall)

/-- The address of a slot of a core's ring (R317). -/
def slotVa (m : Mast) (i : Nat) : Nat := bits m.mring.toNat 47 11 * 2048 + 2048 * i

/-- The bytes that a call writes to its slot (R271), by offset; none while a register that it takes is pending. -/
def slotBytes (s : State) (u : Iss) (svc : Word) : Option (Table Byte) :=
  let m := mast s u.c
  let wg : Word := match workgroup s u.f.wg with | some w => wgReg w | none => 0
  let head := leBytes 4 0 ++ leBytes 4 (svc.toNat % 2 ^ 24) ++ leBytes 4 u.cl.lanes.toNat ++ leBytes 2 (ctxId s) ++ leBytes 1 u.l ++ leBytes 1 0 ++
    leBytes 8 u.pc.toNat ++ leBytes 4 m.seqNo.toNat ++ leBytes 4 wg.toNat ++ leBytes 32 0
  let arg (i : Nat) : Option (Table Byte) :=
    ((List.range 6).mapM (fun j => readNamed (thread u.f i) (j + 1))).map (fun l =>
      ((l.flatMap (fun v => leBytes 4 v.toNat)) ++ leBytes 4 (tidOf u.f i).toNat ++ leBytes 4 0).mapIdx (fun k b => (64 + 32 * i + k, b)))
  (u.lanes.mapM arg).map (fun l => byteTable head ++ l.flatten)

/-- The monitor of a call: a wait for a non-zero STATUS (R270 step 4). -/
def callMonitor (s : State) (c slot l : Nat) (lanes : LaneMask) : Monitor :=
  let m := mast s c
  let loc : Loc := .virt m.ringCtx (slotVa m slot)
  let g := match locNum s loc with | some n => groupOf n | none => 0
  { id := s.ops, loc := loc, cond := .ne, b := 0, core := c, lf := l, lanes := lanes, group := g, armed := decide (armedIn s g < 256)
    due := s.cycle + 1024, fired := false, call := some slot }

/-- Step 3 of R270: the slot is written at its home; on HBM it takes the page's write lane. -/
def writeCall (s : State) (u : Iss) (n key : Nat) (dirty : Option (Nat × Nat)) (d : Table Byte) : State :=
  modLF (laneWrite s n key d (some u.c) (.mast u.c) dirty) u.c u.l (fun f => { f with call := f.call.map (fun h => { h with written := true }) })

/-- Step 4 of R270, once the slot is written: TAIL advances, and the threads park. -/
def postCall (s : State) (u : Iss) (slot op : Nat) : State :=
  let s3 := modMast s u.c (fun m => { m with
    tail := m.tail + 1, posted := m.posted ++ [slot], seqNo := m.seqNo + 1
    calls := put m.calls slot ⟨ctxId s, u.l, u.cl.lanes, op, u.pc⟩ })
  let s4 := { fresh s3 with monitors := s3.monitors ++ [callMonitor s3 u.c slot u.l u.cl.lanes] }
  let pc := pcImage 0 u.next
  let s5 := modLF s4 u.c u.l (fun f => modThreads { f with call := none, callSlot := none } u.cl.lanes (fun _ t =>
    { t with pc := pc, parked := true, wait := some (.syscall slot) }))
  endClause (recordPark s5 u.c u.l false u.cl.lanes pc 4) u

/-- The slot of a bundle that holds at SYSCALL (R270 step 1): the one that it has taken, else the lowest free one. -/
def callSlotOf (s : State) (c : Nat) (f : LaneFrame) : Option Nat :=
  match f.callSlot with
  | some i => some i
  | none => freeSlot (core s c)

/-- Whether the ring accesses of a core's calls pass the checks of S-mode Mast accesses on the address (R318, R312); while they do not,
the call waits (entry 93). -/
def ringAllows (s : State) (c slot k : Nat) : Bool := pmpAllows (mast s c) .s (slotVa (mast s c) slot) 2048 k

/-- The call of a bundle as a command on the Mast path of its workgroup (R88). -/
def callCmd (u : Iss) (op : Nat) : Cmd := { c := u.c, wg := u.f.wg, lf := u.l, lanes := u.cl.lanes, pc := u.pc, engine := 0, path := .mast, id := op }

/-- A bundle with a slot goes on with steps 2 and 3 of R270 once it is released at .dev, no fence holds its Mast accesses and the registers
that it hands over are filled, and with step 4 once the slot's write is applied. A fence of scope .sys that holds it sends the flushing
reads that it waits for (R88, R90). A failing check of the slot's page traps the bundle, but for the protection fault, which does not
apply (R318): there it waits (entry 93). -/
def callGo (s : State) (u : Iss) (h : CallHold) (slot : Nat) : State :=
  if h.written then (if mastWriting s u.c then s else postCall s u slot h.op)
  else if xHeld s (callCmd u h.op) then dropFences s u.c
  else if !released s u.c u.l u.cl.lanes h.op .dev || !ringAllows s u.c slot 1 then s
  else match slotBytes s u h.svc with
    | none => s
    | some d =>
      match mastPlace s u.c (mast s u.c).ringCtx (slotVa (mast s u.c) slot) 2048 1 true with
      | (.wait, s1) => s1
      | (.fail k, s1) => if k = 7 then s1 else trap s1 u k (stopDetail k (slotVa (mast s u.c) slot / 4096) 1)
      | (.place n key dirty, s1) => writeCall s1 u n key dirty d

/-- CALL_RING_POST (R270): a bundle that holds at SYSCALL takes the lowest free slot and keeps it; then it posts its call. -/
def execCallRingPost (c l : Nat) (s : State) : Outcome :=
  match laneFrame s c l with
  | none => .next s
  | some f => match f.clause, f.call, callSlotOf s c f with
    | some cl, some h, some slot =>
      if coreHeld s c then .next s
      else .next (callGo (modLF s c l (fun f => { f with callSlot := some slot }))
        ⟨c, l, { f with callSlot := some slot }, cl⟩ h slot)
    | _, _, _ => .next s

/-- The words n1 that a call returns, lane by lane (R270 step 5): the word 0 of each lane's ARG block. -/
def returnWords (s : State) (c slot : Nat) : List Nat → Except (Option Nat) (Table Word) × State
  | [] => (.ok [], s)
  | i :: r =>
    match mastRead s c (mast s c).ringCtx (slotVa (mast s c) slot + 64 + 32 * i) 4 0 true with
    | (.wait, s1) => (.error none, s1)
    | (.fail k, s1) => (.error (some k), s1)
    | (.bytes b, s1) =>
      match returnWords s1 c slot r with
      | (.ok t, s2) => (.ok ((i, BitVec.ofNat 32 (leNat b)) :: t), s2)
      | q => q

/-- The registers n1 that a call's return replaces are logged (R368, KIND 2), at the SYSCALL's address. -/
def undoReturn (s : State) (c l : Nat) (m : LaneMask) (pc : DWord) : State :=
  match laneFrame s c l with
  | none => s
  | some f => (lanesOf m).foldl (fun t i => undoLog t c l 2 i 1 0 (pcAddr pc) ((thread f i).n.getD 1 0).toNat 0) s

/-- The threads of a call that are still parked in it load n1 and unpark together (R335); the slot is free. The return acquires at .dev
(R270 step 5), so the core's read-ahead buffer is emptied (R77). -/
def returnCall (s : State) (c slot l : Nat) (m : LaneMask) (v : Table Word) : State :=
  let pc := match lookup (mast s c).calls slot with | some x => x.pc | none => 0
  let s1 := modLF (undoReturn s c l m pc) c l (fun f => modThreads f m (fun i t => { t with n := t.n.set 1 (look v i 0) }))
  let s2 := modMast { s1 with monitors := s1.monitors.filter (fun x => !decide (x.core = c ∧ x.call = some slot)) } c
    (fun x => { x with calls := drop x.calls slot })
  arriveAt (wakeLanes (emptyReadAhead s2 c) c l m 4) c l m

/-- What the threads of a call whose monitor has fired find (R335): STATUS is read first, so that a spurious wake only arms the
monitor again (R336, R402); then each lane's return value. -/
def syscallReturn (s : State) (c slot : Nat) (x : CallSlot) (f : LaneFrame) : State :=
  let m := waiting f (fun w => decide (w = .syscall slot)) &&& x.lanes
  let fail (t : State) (k : Nat) : State :=
    if t.stop.isSome ∨ k = 7 then t
    else raise t ⟨k, c, x.lf, 0, thrField x.lf (lowest m), (thread f (lowest m)).pc, stopDetail k (slotVa (mast s c) slot / 4096) 0, none⟩
  if !ringAllows s c slot 0 then s else
  match mastRead s c (mast s c).ringCtx (slotVa (mast s c) slot) 4 0 true with
  | (.wait, s1) => s1
  | (.fail k, s1) => fail s1 k
  | (.bytes b, s1) =>
    if leNat b = 0 then
      let old := s1.monitors.filter (fun y => !decide (y.core = c ∧ y.call = some slot))
      { fresh s1 with monitors := old ++ [callMonitor { s1 with monitors := old } c slot x.lf x.lanes] }
    else match returnWords s1 c slot (lanesOf m) with
      | (.error none, s2) => s2
      | (.error (some k), s2) => fail s2 k
      | (.ok v, s2) => returnCall s2 c slot x.lf m v

/-- SYSCALL_RETURN (R335): the slot's monitor has fired. -/
def execSyscallReturn (c slot : Nat) (s : State) : Outcome :=
  match lookup (mast s c).calls slot, s.monitors.find? (fun m => decide (m.core = c ∧ m.call = some slot)) with
  | some x, some mon =>
    if !mon.fired ∨ x.ctx ≠ ctxId s ∨ s.slice.isNone then .next s
    else match laneFrame s c x.lf with
      | none => .next s
      | some f => .next (syscallReturn s c slot x f)
  | _, _ => .next s

end Sys2Proof.Machine
end

