-- ==== Sys2Proof/Machine/Slices.lean ====
section
/-!
DEFINITION. Machine/Slices.lean: time slices: which context comes next (R307), the slice switch with its save and restore (R308,
R217, R310, R336), and the two ends of a slice.
-/
namespace Sys2Proof.Machine

/-! ## Which context comes next (R307) -/

/-- Whether a core's part of a context has a live thread or engine work. -/
def coreWork (y : CoreCtx) : Bool :=
  !y.mq.isEmpty || !y.eng.isEmpty || !y.pageReqs.isEmpty || y.lfs.any (fun l => l.2.threads.any (fun t => t.2.live))

/-- Whether a context has a live thread, a placed or ready launch, or engine work (R307). -/
def hasWork (s : State) (ctx : Nat) : Bool :=
  (if runs s ctx then s.cores.any (fun e => coreWork e.2.c) else (look s.images ctx []).any (fun e => coreWork e.2.c)) ||
  s.wgs.any (fun w => decide (w.ctx = ctx)) || s.launches.any (fun x => decide (x.ctx = ctx) && x.ready.isSome)

/-- An entry of a quantum table that is to run: its function, number, context and slice length. -/
structure Visit where
  fn : Nat
  entry : Nat
  ctx : Nat
  quant : Nat
deriving DecidableEq, Repr

/-- The entry, unless it is skipped (R307); one whose descriptor cannot be used is skipped as well (entry 22). -/
def entryFor (s : State) (fn i : Nat) : Option Visit :=
  match lookup s.quantum (fn * 64 + i) with
  | none => none
  | some w =>
    let q := bits w.toNat 30 16
    let x := bits w.toNat 15 0
    if w.getLsbD 31 && decide (q ≠ 0) && hasWork s x && (usableDesc s x).isSome then some ⟨fn, i, x, q⟩ else none

/-- The entry that a visit to a function runs: the first from its pointer on. -/
def pickEntry (s : State) (fn : Nat) : Option Visit :=
  (List.range 64).findSome? (fun j => entryFor s fn ((look s.entryPtr fn 0 + j) % 64))

/-- The next slice: functions in ascending order, with wrap-around. -/
def pickNext (s : State) : Option Visit := (List.range 65).findSome? (fun j => pickEntry s ((s.fnPtr + j) % 65))

/-- The pointers after a visit. -/
def visited (s : State) (v : Visit) : State :=
  { s with fnPtr := (v.fn + 1) % 65, entryPtr := put s.entryPtr v.fn ((v.entry + 1) % 64) }

/-! ## The switch (R308) -/

/-- A SLICE record on every core (R348); phase 0 at step 1, 1 at step 5. -/
def sliceRecord (s : State) (old new phase : Nat) : State :=
  (List.range (coreCount s)).foldl (fun t c =>
    record t c 9 noThread 0 (old % 2 ^ 16 + new % 2 ^ 16 * 2 ^ 16 + phase * 2 ^ 32)) s

/-- A context number that no slice gives: a free value (entry 6). -/
def noContext (s : State) : Nat := (Config.freeWord s.free).toNat

/-- Bundles stop at their next word; their threads keep its image. Offers dissolve. -/
def stopIssue (y : CoreCtx) : CoreCtx :=
  { y with
    slots := []
    lfs := y.lfs.map (fun l => (l.1, { l.2 with clause := none, offer := none, fence := none, call := none, callSlot := none })) }

/-- Step 1 of R308: nothing more is accepted or placed; the next context is chosen. -/
def beginSwitch (s : State) : State :=
  match s.slice with
  | none => s
  | some sl =>
    let v := pickNext s
    let s1 := match v with | some x => visited s x | none => { s with free := s.free + 1 }
    let s2 := sliceRecord s1 sl.desc.ctx (match v with | some x => x.ctx | none => noContext s) 0
    { s2 with
      cores := s2.cores.map (fun e => (e.1, modC e.2 stopIssue))
      slice := some { sl with switching := true, next := v.map (fun x => (x.ctx, x.quant)) }
      at_ := none }

/-- Whether what a core has issued is complete (R308 steps 1 to 3, R165): results, memory words, queued writes, direct reads,
record copies, a move of the compaction under way (one that waits for a busy lane frame is saved with the core), and page-attribute
requests between pages. -/
def coreDrained (k : Core) : Bool :=
  k.deliveries.isEmpty && k.ops.all (fun o => decide (o.kind = .attr)) && k.reqs.isEmpty && !k.c.compaction.any (fun x => x.moving) &&
  k.c.eng.all (fun e => match e.kind with | .launch _ _ _ => e.fault.isSome | _ => true) &&
  k.c.pageReqs.all (fun q => decide (q.step = 0 ∨ 4 ≤ q.step) && decide (q.writes = 0)) &&
  k.c.readers.all (fun r => !r.issued)

/-- Whether the old context can be saved: the cores are drained, no release of a thread waits for a flushing read (R90), and no write waits for
the lane in the save areas (R65). -/
def switchReady (s : State) : Bool :=
  s.stop.isNone && s.cores.all (fun e => coreDrained e.2) && s.flushes.all (fun x => x.launch.isSome) &&
  !s.slice.any (fun x => writesWait s x.desc.save (2 ^ 22 * coreCount s))

/-- The storage of a core's operand buffer and Grove entries. -/
def bufStart (c : Nat) : Nat := Config.opBufBase + c * 2 ^ 18
def groveStart (c : Nat) : Nat := Config.groveBase + c * 2 ^ 14

/-- The storage numbers at which the scratchpad frames of a context's workgroups on a core begin, in their order; a reserved frame that is
still to be emptied holds another page (R31). -/
def scratchStarts (s : State) (ctx c : Nat) : List Nat :=
  (s.wgs.filter (fun w => decide (w.ctx = ctx ∧ w.core = c))).flatMap (fun w =>
    (w.scratch.filter (fun x => !w.emptying.contains x)).map (fun x => frameAt (nearKey c x)))

/-- The ranges of storage that a core's image holds: its operand buffer, its Grove entries, and the scratchpad frames. -/
def imageRanges (s : State) (ctx c : Nat) : List (Nat × Nat) :=
  (bufStart c, 2 ^ 18) :: (groveStart c, 2 ^ 14) :: (scratchStarts s ctx c).map (fun a => (a, 4096))

/-- Whether a 32-byte unit lies in one of some ranges. -/
def inRanges (l : List (Nat × Nat)) (u : Nat) : Bool := l.any (fun r => decide (r.1 / 32 ≤ u) && decide (u < (r.1 + r.2) / 32))

/-- A core's image (R308 step 4). -/
def imageOf (s : State) (ctx c : Nat) (k : Core) : CoreImg where
  c := k.c
  ops := k.ops
  cells := (imageRanges s ctx c).flatMap (fun r => Mem.range s.mem r.1 r.2)
  poison := s.poison.filter (inRanges (imageRanges s ctx c))

/-- Whether a latch belongs to a context. -/
def latchOf (s : State) (ctx : Nat) (x : Latch) : Bool :=
  match launchById s x.launch with | some l => decide (l.ctx = ctx) | none => false

/-- Numbers as 32-bit words, little-endian. -/
def imgWords (l : List Nat) : List Byte := l.flatMap (leBytes 4)

/-- A thread in its lane frame's image: 384 bytes (entry 54). -/
def threadBytes (e : Nat × Thread) : List Byte :=
  let t := e.2
  let b := leBytes 8 t.pc.toNat ++ imgWords ([t.stamp.toNat, bnat t.live + 2 * bnat t.parked + 4 * bnat t.occupied + 8 * bnat t.regroup +
    16 * bnat t.through, match t.wait with | some w => w.cause | none => 0] ++ t.n.map (fun x => x.toNat) ++
    t.q.flatMap (fun x => [x.val.toNat, bnat (decide (x.tok ≠ 0))]) ++ t.flags)
  b.take 384 ++ List.replicate (384 - b.length) 0

/-- A lane frame's image: its threads by lane. -/
def frameBytes (f : LaneFrame) : Table Byte :=
  f.threads.flatMap (fun e => (threadBytes e).mapIdx (fun i b => (384 * e.1 + i, b)))

/-- A matrix-queue entry in the image: its lane frame, lanes, word, flag and progress. -/
def entryWords (e : MqEntry) : List Nat :=
  [e.lf, e.lanes.toNat, e.pc.toNat % 2 ^ 32, e.pc.toNat / 2 ^ 32, (e.flag.map (fun x => x + 1)).getD 0, bnat e.started + 2 * bnat e.finished,
    e.progress, e.group]

/-- An operation of the copy or collective engine in the image. -/
def opWords (e : EngOp) : List Nat :=
  [e.lf, e.lanes.toNat, e.pc.toNat % 2 ^ 32, e.pc.toNat / 2 ^ 32, (e.flag.map (fun x => x + 1)).getD 0, e.number.toNat, e.progress, e.e]

/-- The image of a core's allocator, reservation records, Grove tables, gangs, latches and queues: eight words for each item, at multiples of
32 bytes (entry 54). -/
def stateBytes (s : State) (ctx c : Nat) : Table Byte :=
  let y := (core s c).c
  let at_ (base : Nat) (l : List (List Nat)) : Table Byte :=
    l.zipIdx.flatMap (fun e => (imgWords (e.1.take 8)).mapIdx (fun i b => (base + 32 * e.2 + i, b)))
  let halves (x : DWord) : List Nat := [x.toNat % 2 ^ 32, x.toNat / 2 ^ 32]
  let mine := s.wgs.filter (fun w => decide (w.ctx = ctx ∧ w.core = c))
  at_ 0 (y.lfs.map (fun e => [e.1, e.2.wg, e.2.wlf, e.2.count.toNat, e.2.aging, e.2.lastAccept])) ++
    at_ 0x800 (y.recs.map (fun e => [e.1, e.2.owner] ++ halves (e.2.bits.extractLsb' 0 64) ++ halves (e.2.bits.extractLsb' 64 64))) ++
    at_ 0xC00 (y.grove.map (fun e => [e.1, e.2.owner, bnat e.2.active] ++ halves e.2.bind0 ++ halves e.2.bind1)) ++
    at_ 0xD00 (mine.map (fun w => [w.id, w.launch, w.cluster, w.rank, w.threads, w.gang.toNat, w.joint])) ++
    at_ 0x1500 ((s.latches.filter (latchOf s ctx)).map (fun x => [x.id, x.launch, x.cluster, x.gang.toNat, x.joint, x.arrived.length, bnat x.fired])) ++
    at_ 0x2000 (y.mq.map entryWords) ++ at_ 0x2400 (y.eng.map opWords)

/-- Bytes of an image stored in a save area in HBM, charged to no core. -/
def saveBytes (s : State) (key dst : Nat) (l : Table Byte) : State :=
  let n := l.foldl (fun m e => max m (e.1 + 1)) 0
  if 2 ^ 40 < dst + n then s else storeUnder (moveRange s dst ((n + 127) / 128 * 128)) key dst l

/-- The bytes of a core's image written to its save area in HBM (R308 step 4; entry 54 for their places). -/
def saveCore (d : Descriptor) (s : State) (c : Nat) : State :=
  let key := keyNow s d.ctx
  let s1 := (scratchStarts s d.ctx c).zipIdx.foldl (fun t e => saveCopy t key e.1 (saveAt d c (4096 * e.2)) 4096) s
  let s2 := saveCopy (saveCopy s1 key (bufStart c) (saveAt d c saveBuf) (2 ^ 18)) key (groveStart c) (saveAt d c saveGrove) (2 ^ 14)
  let s3 := saveBytes s2 key (saveAt d c saveState) (stateBytes s d.ctx c)
  (core s c).c.lfs.foldl (fun t e => saveBytes t key (saveAt d c (saveFrame e.1)) (frameBytes e.2)) s3

/-- A core once its part of a context is saved: read-ahead buffers and the context's translations are dropped (R308 step 3). -/
def clearCore (d : Descriptor) (k : Core) : Core :=
  { k with
    c := .reset
    ops := []
    readAhead := []
    tstore := k.tstore.filter (fun (t : Trans) => t.ctx != d.ctx)
    hstore := k.hstore.filter (fun (t : HostTrans) => t.pasid != d.pasid) }

/-- Steps 3 and 4 of R308: monitors are released, the context is saved, and its state leaves the cores. A latch keeps the running
cycles that its watchdog has counted (R412). -/
def saveContext (s : State) (d : Descriptor) : State :=
  let gone := s.cores.flatMap (fun e => imageRanges s d.ctx e.1)
  let s1 := (s.cores.map (fun e => e.1)).foldl (saveCore d) s
  { s1 with
    images := put s.images d.ctx (s.cores.map (fun e => (e.1, imageOf s d.ctx e.1 e.2)))
    cores := s.cores.map (fun e => (e.1, clearCore d e.2))
    mem := gone.foldl (fun m r => Mem.clear m r.1 r.2) s1.mem
    poison := s1.poison.filter (fun u => !inRanges gone u)
    monitors := []
    latches := s.latches.map (fun x => if latchOf s d.ctx x then { x with first := s.cycle - x.first } else x)
    at_ := none
    slice := none }

/-- A core's image put back. -/
def putImage (t : Table Core) (e : Nat × CoreImg) : Table Core :=
  change t e.1 .reset (fun k => { k with c := e.2.c, ops := e.2.ops })

/-- The calls of the context that comes back are looked at again (R336): STATUS is read as an acquire of scope .dev, so the core's
read-ahead buffer is empty (R77), and a call whose STATUS is set, or that has no home to read, returns through SYSCALL_RETURN, which reads
STATUS once more; another's monitor is armed again. -/
def rearmCalls (s : State) : State :=
  s.cores.foldl (fun t e => e.2.mast.calls.foldl (fun t0 x =>
    if x.2.ctx = ctxId t0 then
      let t := emptyReadAhead t0 e.1
      let m := callMonitor t e.1 x.1 x.2.lf x.2.lanes
      { fresh t with monitors := t.monitors ++ [{ m with fired := monHolds t m || (locNum t m.loc).isNone }] }
    else t0) t) s

/-- The threads whose wake-up came while their context was out unpark, each cause with its record (R308, R348). -/
def wakeWoken (s : State) : State :=
  s.cores.foldl (fun t e => e.2.c.lfs.foldl (fun t x =>
    (List.range 8).foldl (fun t k =>
      wakeLanes t e.1 x.1 (maskOf ((x.2.threads.filter (fun y => y.2.live && decide (y.2.woken = k + 1))).map (fun y => y.1))) (k + 1)) t) t) s

/-- A context with a workgroup on a die that was lost stops with kind 29 when it runs (R426); no access fails, so DETAIL is a free
value (entry 6). -/
def lostStop (s : State) (c : Nat) : State :=
  if s.slice.isSome && s.wgs.any (fun w => decide (w.ctx = ctxId s) && s.lostDies.contains (dieOf w.core)) then
    raise { s with free := s.free + 1 } ⟨29, c, 0, 0, noThread, 0, (Config.freeWord s.free).toNat, none⟩
  else s

/-- Core 0 of the lowest die that serves. -/
def firstCore (s : State) : Nat := 64 * ((List.range (dies s)).find? (fun d => !dieGone s d)).getD 0

/-- Step 5 of R308: a context comes in, with its descriptor read anew; threads that waited on monitors issue their words again
(R217), dependences are evaluated (R303), and host failures that came meanwhile are taken (R388). Without a usable descriptor nothing runs. -/
def restoreContext (s : State) (ctx quant old : Nat) : State :=
  match usableDesc s ctx with
  | none => s
  | some d =>
    let img := look s.images ctx []
    let back := img.foldl putImage s.cores
    let s1 : State := { s with
      images := drop s.images ctx
      cores := back.map (fun e => (e.1, { e.2 with rcd := { e.2.rcd with lastThr := 0xFFFF } }))
      mem := img.foldl (fun m e => Mem.restore m e.2.cells) s.mem
      poison := img.foldl (fun p e => p ++ e.2.poison) s.poison
      latches := s.latches.map (fun x => if latchOf s ctx x then { x with first := s.cycle - x.first } else x)
      descs := put s.descs ctx d
      slice := some ⟨d, s.cycle + 4096 * quant, none, false, none⟩ }
    let s2 := wakeWoken (sliceRecord s1 old ctx 1)
    let s3 := wakeWhere s2 ctx (fun w => match w with | .monitor _ => true | _ => false) 3
    let s4 := takeFails (checkReady (rearmCalls s3))
    lostStop s4 (firstCore s4)

/-- The old context saved and the next one restored. -/
def finishSwitch (s : State) (sl : Slice) : State :=
  let s1 := saveContext s sl.desc
  match sl.next with
  | none => s1
  | some (ctx, quant) => restoreContext s1 ctx quant sl.desc.ctx

/-- A slice that begins while no context runs. -/
def beginSlice (s : State) : State :=
  match pickNext s with
  | none => s
  | some v => restoreContext { visited s v with free := s.free + 1 } v.ctx v.quant (noContext s)

/-! ## The end of a slice -/

/-- SLICE_EXPIRY (R307, R308, R370): at the end of its quantum a slice gives way; a switch that has begun completes once the
package has drained; during a stop the expiry is deferred. While no context runs, the first slice begins. -/
def execSliceExpiry (s : State) : Outcome :=
  match s.slice, s.stop with
  | none, none => .next (beginSlice s)
  | none, some _ => .next s
  | some sl, none =>
    if sl.switching then .next (if switchReady s then finishSwitch s sl else s)
    else .next (if sl.fin ≤ s.cycle then beginSwitch s else s)
  | some sl, some p =>
    .next (if !sl.switching && decide (sl.fin ≤ s.cycle) then { s with stop := some { p with expiry := true } } else s)

/-- SLICE_IDLE_END (R307): a slice whose context has had no work for 4096 cycles ends. -/
def execSliceIdleEnd (s : State) : Outcome :=
  match s.slice with
  | none => .next s
  | some sl =>
    if sl.switching || s.stop.isSome then .next s
    else if hasWork s sl.desc.ctx then .next { s with slice := some { sl with idleSince := none } }
    else match sl.idleSince with
      | none => .next { s with slice := some { sl with idleSince := some s.cycle } }
      | some t => .next (if t + 4096 ≤ s.cycle then beginSwitch s else s)

end Sys2Proof.Machine
end

