-- ==== Sys2Proof/Machine/Stops.lean ====
section
/-!
DEFINITION. Machine/Stops.lean: the halt line and what each core records (R357 to R362), resuming and ending a stopped context
(R365, R366), and debugging: DBGCTL, HALTREQ, the undo log and stepping back (R367 to R369). The management mailbox's answers
start here, because the debugger works through it (R328).
-/
namespace Sys2Proof.Machine

/-! ## The halt line (R357 to R361) -/

/-- A record of kind 0 (R361) for an engine or a bundle that the line has stopped. -/
def haltRecord (s : State) (c engine lf : Nat) (lanes : LaneMask) (pc : DWord) (detail : Nat) : State :=
  record s c 11 (thrField lf (lowest lanes)) pc (stopData 0 engine detail)

/-- Step 3 of R361: the running bundles, in lane frame order, each with the word it would issue next. -/
def haltBundles (s : State) (c : Nat) : State :=
  (core s c).c.lfs.foldl (fun t e =>
    match e.2.clause with
    | none => t
    | some cl => haltRecord t c 0 e.1 cl.lanes (thread e.2 (lowest cl.lanes)).pc 0) s

/-- Whether a matrix-queue entry is at work in its engine. -/
def entryRuns (s : State) (c : Nat) (e : MqEntry) : Bool :=
  !e.finished && e.fault.isNone && !atLatch e && !mqBehind s c e

/-- %pi of an operation (R371); 0 for one that it does not cover. -/
def progressImage (p : Option Progress) : Nat := match p with | some x => x.kind * 2 ^ 28 + x.count % 2 ^ 28 | none => 0

/-- The thread and word of the sequence or migration that the fault unit works on for a core. -/
def faultUnitWork (s : State) (c : Nat) : Option (BitVec 16 × DWord) :=
  match s.seqs.find? (fun q => decide (q.core = c) && !q.mast), s.migrations.find? (fun m => decide (m.core = c ∧ m.phase ≤ 1)) with
  | some q, _ => some (q.thr, q.pc)
  | none, some m => some (m.thr, m.pc)
  | none, none => none

/-- The fault unit's record of kind 0 (R358, R360): %pi covers none of its operations, so DETAIL is 0. -/
def faultUnitHalt (k : Core) (s : State) (c : Nat) : State :=
  if k.raised.contains 5 then s
  else match faultUnitWork s c with
    | some (thr, pc) => record s c 11 thr pc (stopData 0 5 0)
    | none => s

/-- Step 4 of R361: the matrix unit, the Grove engine, the copy engine and the collective engine, in that order, each with the
first operation it works on; then the fault unit, with a placement sequence or migration that a thread of the core began (entry 87). An
engine that has raised an event has its record already. -/
def haltEngines (s : State) (c : Nat) : State :=
  let k := core s c
  let unit (g : Nat) (t : State) : State :=
    if k.raised.contains g then t
    else match k.c.mq.find? (fun e => decide ((mqCmd c e).engine = g) && entryRuns s c e) with
      | some e => haltRecord t c g e.lf e.lanes e.pc (progressImage (entryProgress e.wg e))
      | none => t
  let engine (g : Nat) (t : State) : State :=
    if k.raised.contains g then t
    else match k.c.eng.find? (fun e => decide ((engCmd c e).engine = g) && e.fault.isNone && !e.ended) with
      | some e => haltRecord t c g e.lf e.lanes e.pc (progressImage (engineProgress e.wg e))
      | none => t
  faultUnitHalt k (engine 4 (engine 3 (unit 2 (unit 1 s)))) c

/-- Every live thread is held by the stop (R359); one that is Parked keeps its own wait. -/
def holdThreads (y : CoreCtx) : CoreCtx :=
  { y with lfs := y.lfs.map (fun l => (l.1, { l.2 with
      threads := l.2.threads.map (fun t => (t.1, if t.2.live then { t.2 with parked := true, stop := true } else t.2)) })) }

/-- The line reaches a core: its bundles stop at their next word, its engines at their boundaries; records are written, and
recording stops. -/
def haltArrive (s : State) (c : Nat) : State :=
  match s.stop with
  | none => s
  | some p =>
    if p.arrived.contains c then s
    else
      let s1 := haltEngines (haltBundles s c) c
      let s2 := modCore s1 c (fun k => { k with c := holdThreads (stopIssue k.c), rcd := { k.rcd with off := true } })
      { s2 with stop := some { p with arrived := c :: p.arrived }, at_ := none }

/-- The bound within which the line reaches a core (R357): 24 cycles on the die of the primary event, else 64. -/
def lineBound (p : Stop) (c : Nat) : Nat := if dieOf c = dieOf p.core then 24 else 64

/-- HALT_LINE_ARRIVE: the line reaches a core `skid` cycles after the event, and at its bound at the latest. -/
def execHaltLineArrive (c skid : Nat) (s : State) : Outcome :=
  match s.stop with
  | none => .next s
  | some p =>
    if c < coreCount s ∧ p.cycle + min skid (lineBound p c) ≤ s.cycle then .next (haltArrive s c) else .next s

/-- The line has reached every core. -/
def settle (s : State) : State := (List.range (coreCount s)).foldl haltArrive s

/-- A stop raised without a thread: THREAD 0xFFFF and PC 0, in the ring of a core. -/
def raiseBare (s : State) (kind c engine detail : Nat) : State := raise s ⟨kind, c, 0, engine, noThread, 0, detail, none⟩

/-! ## The mailbox's answers (R328) -/

/-- Who may issue mailbox commands: the physical function and Masts in M mode. Others are ignored. -/
def mayCommand : MbxMaster → Bool
  | .pf | .mastM _ => true
  | _ => false

/-- Argument doublewords replaced. -/
def setArgs (s : State) (l : List (Nat × DWord)) : State :=
  { s with mbxArgs := l.foldl (fun a e => a.set e.1 e.2) s.mbxArgs }

/-- How a pending command is noted: the core of the Mast that wrote it, or 1024 for the physical function. -/
def masterNo : MbxMaster → Nat
  | .mastM c | .mastS c => c
  | .pf | .vf _ => 1024

/-- A number as an argument doubleword. -/
def argOf (n : Nat) : DWord := BitVec.ofNat 64 n

/-- A command begun: its arguments are stored and BUSY is set (R328). -/
def begun (s : State) (args : List (Nat × DWord)) : State := { setArgs s args with mbxResp := 0x80000000 }

/-- A command carried out, if its master may issue it, the part serves it, and no other is in progress (R334). Its arguments are stored
and BUSY set; a command that cannot complete yet stays pending with BUSY read as 1 (R328). -/
def command (s : State) (m : MbxMaster) (code : Nat) (args : List (Nat × DWord)) (f : State → State) : Outcome :=
  .next (if mayCommand m && served s code && s.mbxCmd.isNone then
      let t := f (begun s args)
      if t.mbxResp.getLsbD 31 then { t with mbxCmd := some (code, masterNo m) } else t
    else s)

/-- The response register with a code, and the returned arguments. -/
def answer (s : State) (code : Nat) (l : List (Nat × DWord)) : State :=
  { setArgs s l with mbxResp := BitVec.ofNat 32 (code % 256) }

/-- A response whose code the manual does not state: a free value (entry 25). -/
def answerOpen (s : State) : State :=
  { s with mbxResp := (Config.freeWord s.free) &&& 0xFF, free := s.free + 1 }

/-! ## Resuming (R365, R370, R372) -/

/-- Whether the debugged context of DBGCTL runs (R367). -/
def debugged (s : State) : Bool := s.slice.isSome && decide (bits s.dbgctl.toNat 15 0 = ctxId s)

/-- A faulted entry goes on from its progress index (R410): block exponents, outlier list and row are read again. -/
def rereadEntry (e : MqEntry) : MqEntry := if e.fault.isSome then { e with fault := none, exps := none, list := none } else e

/-- The engines' operations go on from their progress indices: their own faults may be raised again (R365 step 4, R410). -/
def clearFaults (y : CoreCtx) : CoreCtx :=
  { y with
    mq := y.mq.map rereadEntry
    eng := y.eng.map (fun (e : EngOp) => { e with fault := none })
    pageReqs := y.pageReqs.map (fun (q : PageReq) => if 4 ≤ q.step ∧ q.step ≤ 7 then { q with step := q.step - 4 } else q) }

/-- What a resume changes besides the threads and recorders: operations go on, watchdogs of latches start again (R412), STEP lets one clause
run (R367), and the read-ahead buffers are empty, so that unparked threads find what Masts wrote before (R89). -/
def readyToGo (s : State) : State :=
  let step := debugged s && s.dbgctl.getLsbD 19
  let l := s.latches.map (fun (x : Latch) => if latchOf s (ctxId s) x then { x with first := s.cycle } else x)
  let ls := s.launches.map (fun (x : Launch) => { x with faulted := false })
  let cs := s.cores.map (fun (e : Nat × Core) => (e.1, { modC e.2 clearFaults with readAhead := [] }))
  { s with cores := cs, launches := ls, latches := l, stepped := step }

/-- The context goes on. A deferred expiry is taken first (R365 step 1, R370): the switch begins in this very cycle, no bundle is
accepted, and no dependence of the context is looked at; else its dependences are read again, and one that still fails stops it
anew. The records of the cycle stand in R352's order. -/
def resume (s : State) (p : Stop) : State :=
  let s1 := unstop (readyToGo (settle s))
  let late := match s1.slice with | some sl => p.expiry && !sl.switching | none => false
  if late then beginSwitch s1 else checkReady s1

/-- Whether a capsule is still to be taken or in assembly: the package waits for it (R418). -/
def capsuleOpen (s : State) : Bool := !s.capDue.isEmpty

/-- A write of RESUME: ignored while the context is not stopped, by a Mast during a debugger halt, while a table that R386 or R397
names is full, and while a capsule is due. -/
def writeResume (s : State) (mast : Bool) : State :=
  match s.stop with
  | none => s
  | some p => if (mast && p.dbg) || p.blocked || !p.lostFull.isEmpty || capsuleOpen s then s else resume s p

/-- A write of MHALT by a Mast: an S-mode CSR (R363), so that U mode takes the illegal-instruction exception (R314). -/
def haltWrite (s : State) (c : Nat) (f : State → State) : State :=
  if !mastUp s c then s else if (mast s c).mode = .u then mastTrap s c 2 0 else f s

/-- CONTEXT_RESUME (R365): RESUME through MHALT or command 0x1E, which returns MHALT. -/
def execContextResume (w : StopMaster) (s : State) : Outcome :=
  match w with
  | .mast c => .next (haltWrite s c (fun s => writeResume s true))
  | .mailbox m => command s m 0x1E [(0, 1)] (fun s => let t := writeResume s false; answer t 0 [(0, mhalt t)])

/-! ## Ending a context (R366) -/

/-- A core's part of a context ended: threads, engine operations, records and tables are gone; writes already queued stay. -/
def endCore (ctx : Nat) (k : Core) : Core :=
  { k with
    c := .reset
    ops := []
    deliveries := []
    reqs := k.reqs.filter (fun (r : Req) => !r.act.isLoad)
    readAhead := []
    mast := { k.mast with calls := k.mast.calls.filter (fun (e : Nat × CallSlot) => e.2.ctx != ctx) } }

/-- The tiles that a context holds, on a core or spilled, released (R240). -/
def freeTiles (s : State) (ctx : Nat) : State :=
  let s1 := (s.tiles.filter (fun (t : Nat × Tile) => t.2.ctx = ctx)).foldl (fun s t => freeTile s (t.1 / 64) (t.1 % 64)) s
  { s1 with spills := s1.spills.filter (fun (x : Spill) => x.tile.ctx != ctx) }

/-- What a context leaves when it ends: workgroups, ready launches and those in progress, latches. A launch that is not ready
stays (R366 discards the ready ones). -/
def endWork (s : State) (ctx : Nat) : State :=
  { s with
    wgs := s.wgs.filter (fun (w : Workgroup) => w.ctx != ctx)
    latches := s.latches.filter (fun x => !latchOf s ctx x)
    launches := s.launches.filter (fun (x : Launch) => !(decide (x.ctx = ctx) && x.ready.isSome)) }

/-- The running context ended (R366): writes already queued still complete. -/
def endRunning (s : State) : State :=
  let ctx := ctxId s
  let s1 := endWork (freeTiles s ctx) ctx
  let m1 := Mem.clear s1.mem Config.opBufBase (2 ^ 18 * (coreCount s))
  { s1 with
    cores := s1.cores.map (fun e => (e.1, endCore ctx e.2))
    mem := Mem.clear m1 Config.groveBase (2 ^ 14 * (coreCount s))
    poison := s1.poison.filter (fun u => decide (u < Config.opBufBase / 32) || decide (Config.hostBase / 32 ≤ u))
    monitors := []
    images := drop s1.images ctx
    at_ := none }

/-- A context that is out ended: its image goes (R366, R424). -/
def endSaved (s : State) (ctx : Nat) : State :=
  let s1 := endWork (freeTiles s ctx) ctx
  { s1 with
    images := drop s1.images ctx
    hostFails := s1.hostFails.filter (fun h => h.ctx ≠ ctx)
    cores := s1.cores.map (fun e => (e.1, { e.2 with mast := { e.2.mast with
      calls := e.2.mast.calls.filter (fun (x : Nat × CallSlot) => x.2.ctx != ctx) } })) }

/-- The capsule that a stop asks for (R418), with MHALT as it stands. -/
def dueCapsule (s : State) (p : Stop) (flags : Nat) (ended : Bool) : CapsuleDue :=
  ⟨ctxId s, (match s.slice with | some x => x.desc.fn | none => 0), p.kind, p.core, p.cycle, flags, mhalt s, ended⟩

/-- The end of a stop whose context has ended: recorders go on, and the slice switch follows at once (R366). -/
def leaveStop (s : State) : State := beginSwitch (unstop { s with stepped := false })

/-- A stopped context ended. Its capsule is due when it was stopped by something else than the end itself (R418); the slice switch
then waits for the capsule. -/
def endStopped (s : State) (capsule : Bool) (flags : Nat) : State :=
  match s.stop with
  | none => s
  | some p =>
    let s1 := settle s
    if capsule then { endRunning s1 with capDue := s1.capDue ++ [dueCapsule s1 p flags true] } else leaveStop (endRunning s1)

/-- A write of ENDCTX: a running context is stopped first, by a stop of kind 0 on core 0. -/
def writeEnd (s : State) : State :=
  if s.slice.isNone || capsuleOpen s then s
  else if s.stop.isSome then endStopped s true 0 else endStopped (raiseBare s 0 0 0 0) false 0

/-- CONTEXT_END (R366): ENDCTX through MHALT or command 0x1E. -/
def execContextEnd (w : StopMaster) (s : State) : Outcome :=
  match w with
  | .mast c => .next (haltWrite s c writeEnd)
  | .mailbox m => command s m 0x1E [(0, 2)] (fun s => let t := writeEnd s; answer t 0 [(0, mhalt t)])

/-- HALT_STATUS_READ (R363): command 0x1E with neither control bit. -/
def execHaltStatusRead (m : MbxMaster) (s : State) : Outcome := command s m 0x1E [(0, 0)] (fun s => answer s 0 [(0, mhalt s)])

/-! ## Debugging (R367) -/

/-- A debugger halt raised by HALTREQ on core 0, while the debugged context runs. -/
def haltNow (s : State) : State := if debugged s then raiseBare s 16 0 0 (2 ^ 24) else s

/-- Every undo log cleared (R367). -/
def clearLogs (s : State) : State :=
  let wipe (y : CoreCtx) : CoreCtx := { y with lfs := y.lfs.map (fun l => (l.1, { l.2 with undoBase := l.2.undo })) }
  { s with
    cores := s.cores.map (fun e => (e.1, modC e.2 wipe))
    images := s.images.map (fun t => (t.1, t.2.map (fun e => (e.1, { e.2 with c := wipe e.2.c })))) }

/-- A write of DBGCTL: HALTREQ reads 0; any write of the UNDO bit clears every log. -/
def writeDbgctl (s : State) (v : DWord) : State :=
  let t := clearLogs { s with dbgctl := v &&& ~~~(BitVec.twoPow 64 18) }
  if v.getLsbD 18 then haltNow t else t

/-- DBGCTL_WRITE (R367). -/
def execDbgctlWrite (m : MbxMaster) (v : DWord) (s : State) : Outcome :=
  command s m 0x1C [(1, v), (2, 1)] (fun s => answer (writeDbgctl s v) 0 [(1, v)])

/-- DBGCTL_READ (R367): the value is returned in the argument that carries it. -/
def execDbgctlRead (m : MbxMaster) (s : State) : Outcome := command s m 0x1C [(2, 0)] (fun s => answer s 0 [(1, s.dbgctl)])

/-- HALTREQ (R367): a write of DBGCTL that sets HALTREQ and leaves the other fields as they are. -/
def execHaltreq (m : MbxMaster) (s : State) : Outcome :=
  command s m 0x1C [(1, setBit s.dbgctl 18 true), (2, 1)] (fun s => answer (haltNow (clearLogs s)) 0 [])

/-- UNDO_LOG_CLEAR (R367): a write of the UNDO bit. -/
def execUndoLogClear (m : MbxMaster) (undo : Bool) (s : State) : Outcome :=
  command s m 0x1C [(1, setBit s.dbgctl 17 undo), (2, 1)] (fun s => answer (clearLogs { s with dbgctl := setBit s.dbgctl 17 undo }) 0 [])

/-! ## Stepping back (R368, R369) -/

/-- The undo entries that a lane frame holds: at most the newest 4096 since the log was cleared. -/
def undoHeld (f : LaneFrame) : Nat := min 4096 (f.undo - f.undoBase)

/-- The entry `i` places behind the newest (0 is the newest), as 16 bytes. -/
def undoEntry (s : State) (c l : Nat) (f : LaneFrame) (i : Nat) : List Byte :=
  hwRead s (keyNow s (ctxId s)) (bits s.dbgctl.toNat 63 36 * 2 ^ 20 + 65536 * (64 * c + l) + 16 * ((f.undo - 1 - i) % 4096)) 16

/-- A restored word whose home is HBM: its write takes its place on the lane, behind the page's older ones, and is charged to no core. -/
def undoHbm (s : State) (n va : Nat) (d : Table Byte) : State :=
  let o := n % 128
  { fresh s with hwrites := s.hwrites ++ [
    { id := s.ops, page := n / 4096, block := n % 4096 / 128, mask := d.foldl (fun m e => m ||| BitVec.twoPow 128 (o + e.1)) 0
      data := d.map (fun e => (o + e.1, e.2)), poison := 0, charge := none, entered := false, inBudget := true, arrival := 0, rank := 0
      refusals := 0, key := keyNow s (ctxId s), dirty := some (ctxId s, va / 4096 % 2 ^ 36), origin := .none }] }

/-- A memory word restored under its mask at its home, as an ordinary write (R369). -/
def undoWrite (s : State) (wg addr mask old : Nat) : State :=
  let d : Table Byte := ((List.range 4).filter (fun i => bit mask i)).map (fun i => (i, BitVec.ofNat 8 (old >>> (8 * i))))
  if isCluster addr then
    match workgroup s wg with
    | none => s
    | some w => match clusterMate s w (clusterRank addr) with
      | none => s
      | some x => applyWrite s 0 (scratchByte x (clusterOff addr)) d none
  else
    let va := regionVa (regionOf s wg) addr
    match homeOf s (ctxId s) va with
    | none => s
    | some n => if n < 2 ^ 40 then undoHbm s n va d else applyWrite s 0 n d none

/-- One entry undone. -/
def undoOne (s : State) (c l : Nat) (f : LaneFrame) (e : List Byte) : State :=
  let x := leNat e
  let lane := bits x 12 8
  let which := bits x 23 16
  let old := bits x 95 64
  match bits x 7 0 with
  | 1 =>
    let pc := pcImage (bits x 31 24) (regionVa (regionOf s f.wg) (bits x 63 32))
    modLF s c l (fun f => modThreads f (BitVec.ofNat 32 old) (fun _ t => { t with pc := pc }))
  | 2 => modLF s c l (fun f => modThread f lane (fun t => { t with n := t.n.set which (BitVec.ofNat 32 old) }))
  | 3 => modLF s c l (fun f => modThread f lane (fun t => { t with q := t.q.drop 1 ++ [⟨BitVec.ofNat 32 old, 0, 0⟩] }))
  | 4 => undoWrite s f.wg (bits x 127 96) which old
  | _ => s

/-- The lanes that the undone acceptances name. -/
def undoLanes (l : List (List Byte)) : LaneMask :=
  l.foldl (fun m e => if bits (leNat e) 7 0 = 1 then m ||| BitVec.ofNat 32 (bits (leNat e) 95 64) else m) 0

/-- The newest K entries undone, newest first; threads that come to a regroup header arrive there (R265). -/
def stepBack (s : State) (c l k : Nat) (f : LaneFrame) : State :=
  let es := (List.range k).map (undoEntry s c l f)
  let s1 := es.foldl (fun t e => undoOne t c l f e) s
  arriveAt (modLF s1 c l (fun f => { f with undo := f.undo - k })) c l (undoLanes es)

/-- Whether a lane frame has a busy flag or a pending slot (R369). -/
def unsettled (f : LaneFrame) : Bool := f.threads.any (fun t => anyBusy t.2 || t.2.q.any (fun x => x.tok != 0))

/-- The code that command 0x1D returns. -/
def stepCode (s : State) (c l k : Nat) : Nat :=
  match s.stop, laneFrame s c l with
  | none, _ => 2
  | some _, none => 3
  | some _, some f =>
    if !debugged s || unsettled f then 2
    else if undoHeld f < k then 3
    else if bits (leNat (undoEntry s c l f (k - 1))) 7 0 ≠ 1 then 4
    else 0

/-- STEP_BACK (R369): command 0x1D; a count of 0 has no stated answer. -/
def execStepBack (m : MbxMaster) (c l k : Nat) (s : State) : Outcome :=
  command s m 0x1D [(0, argOf c), (1, argOf l), (2, argOf k)] (fun s =>
    if k = 0 then answerOpen s
    else match stepCode s c l k, laneFrame s c l with
      | 0, some f => answer (stepBack s c l k f) 0 []
      | n, _ => answer s n [])

end Sys2Proof.Machine
end

