-- ==== Sys2Proof/Machine/Mailbox.lean ====
section
/-!
DEFINITION. Machine/Mailbox.lean: the commands of the management mailbox (R328) but for those that stop, end or debug a context
(Stops.lean) and that reset a die (Devices.lean).
-/
namespace Sys2Proof.Machine

/-! ## HBM as the mailbox reaches it -/

/-- Whether a range lies in HBM on stacks that answer. -/
def hbmRange (s : State) (a n : Nat) : Bool := decide (a + n ≤ hdmEnd s) && (rangePages a n).all (fun p => !pageGone s p)

/-- Whether a range waits: a page is busy (R68), an older write of a page is not applied yet (R65), or a pseudo-channel takes nothing more
in the window (R66). -/
def hbmHeld (s : State) (a n : Nat) : Bool :=
  (rangePages a n).any (fun p => markerBusy s p || (marker s p).offered || s.hwrites.any (fun w => decide (w.page = p)) ||
    (inHbm s p && !pageOpen s p))

/-- The tracked 64-byte lines of a range. -/
def hbmTracked (s : State) (a n : Nat) : List Nat := (rangeLines a n).filter (fun l => s.snoopFilter.any (fun e => e.1 = l))

/-- The key under which the mailbox reaches a device physical address: its host granule's, as the host reads and writes it (R325;
entry 26). -/
def mbxKey (s : State) (a : Nat) : Nat := (hostKey s a).getD 0

/-- Bytes at an HBM address, as they stand at their homes (entry 26). -/
def hbmRead (s : State) (a n : Nat) : List Byte :=
  (List.range n).map (fun i => byteUnder s (mbxKey s (a + i)) (homeByte s ((a + i) / 4096) ((a + i) % 4096)))

/-- Bytes stored within one page at their home, encrypted there under the granule's key (R59). -/
def hbmStorePage (s : State) (a : Nat) (l : List Byte) : State :=
  applyWrite (if inHbm s (a / 4096) then moveUnits s (a / 4096) ((l.length + 15) / 16) else s) (mbxKey s a)
    (homeByte s (a / 4096) (a % 4096)) (byteTable l) none

/-- Bytes stored at an HBM address, page by page (entry 26). -/
def hbmStore (s : State) (a : Nat) (l : List Byte) : State :=
  (rangePages a l.length).foldl (fun s p =>
    let lo := max a (p * 4096)
    let hi := min (a + l.length) (p * 4096 + 4096)
    hbmStorePage s lo ((l.drop (lo - a)).take (hi - lo))) s

/-- A command that stores bytes in HBM: it waits while the range is held, and completes with the bytes in place. -/
def storeCommand (s : State) (a : Nat) (l : List Byte) (done : State → State) : State :=
  if !hbmRange s a l.length then answerOpen s
  else if hbmHeld s a l.length then s
  else if !(hbmTracked s a l.length).isEmpty then sendSnoops s (hbmTracked s a l.length)
  else done (hbmStore s a l)

/-! ## Capability, tables, die state, measurement, BOOTADDR (R328) -/

/-- 0x10 (R6). -/
def execReadCapabilityWord (m : MbxMaster) (s : State) : Outcome :=
  command s m 0x10 [] (fun s => answer s 0 [(0, s.caps.setWidth 64)])

/-- 0x11 (R298). -/
def execSetCtxtab (m : MbxMaster) (a0 : DWord) (s : State) : Outcome :=
  command s m 0x11 [(0, a0)] (fun s =>
    if a0.toNat % 64 ≠ 0 ∨ hdmEnd s ≤ a0.toNat then answerOpen s else answer { s with ctxtab := some a0.toNat } 0 [(0, a0)])

/-- 0x12 (R307). -/
def execWriteQuantumEntry (m : MbxMaster) (fn entry : Nat) (v : Word) (s : State) : Outcome :=
  command s m 0x12 [(0, argOf (fn + entry * 2 ^ 8)), (1, v.setWidth 64)] (fun s =>
    if 64 < fn ∨ 64 ≤ entry then answerOpen s else answer { s with quantum := put s.quantum (fn * 64 + entry) v } 0 [])

/-- 0x13 (R329): a COLL in flight keeps the entry that it has read. -/
def execWriteFabricGroup (m : MbxMaster) (group : Nat) (a1 a2 a3 a4 : DWord) (s : State) : Outcome :=
  command s m 0x13 [(0, argOf group), (1, a1), (2, a2), (3, a3), (4, a4)] (fun s =>
    if 4096 ≤ group then answerOpen s
    else answer { s with groups := put s.groups group [a1, a2, a3, a4] } 0 [(1, a1), (2, a2), (3, a3), (4, a4)])

/-- 0x14 (R325). -/
def execWriteHostKeyTable (m : MbxMaster) (granule key : Nat) (s : State) : Outcome :=
  command s m 0x14 [(0, argOf granule), (1, argOf key)] (fun s =>
    if 1024 ≤ granule ∨ 2048 ≤ key then answerOpen s else answer { s with keyTable := put s.keyTable granule key } 0 [])

/-- 0x15 (R331): a die number not below DIES returns 0x03. -/
def execReadDieState (m : MbxMaster) (die : Nat) (s : State) : Outcome :=
  command s m 0x15 [(0, argOf die)] (fun s =>
    if dies s ≤ die then answer s 3 [] else answer s 0 [(0, BitVec.ofNat 64 (s.dieState.getD die 0 % 8))])

/-- 0x16 (R332): byte i of MEAS in byte i of arguments 0 to 5. -/
def execReadMeasurement (m : MbxMaster) (s : State) : Outcome :=
  command s m 0x16 [] (fun s => answer s 0 ((List.range 6).map (fun i => (i, s.measure.extractLsb' (64 * i) 64))))

/-- 0x17 (R330): kept in retention storage, and first used at the next package reset. -/
def execWriteBootaddr (m : MbxMaster) (a0 : DWord) (s : State) : Outcome :=
  command s m 0x17 [(0, a0)] (fun s => if a0.toNat % 4096 ≠ 0 then answer s 3 [] else answer { s with bootaddr := a0 } 0 [(0, a0)])

/-! ## The recorder (R351, R354, R355) -/

/-- The bytes of a record. -/
def recordBytes (x : BitVec 128) : List Byte := leBytes 16 x.toNat

/-- A ring record by its sequence number: empty when it was overwritten or is not yet written. -/
def ringRecord (r : Recorder) (i : Nat) : BitVec 128 := if i + 7168 < r.w ∨ r.w ≤ i then 0 else look r.ring (i % 7168) 0

/-- A capture entry; empty beyond those captured. -/
def captureRecord (r : Recorder) (i : Nat) : BitVec 128 := if r.capCount ≤ i then 0 else look r.capture i 0

/-- Whether the arguments of command 0x18 are in their ranges (R355). -/
def copyOk (s : State) (a0 a1 a2 a3 : DWord) : Bool :=
  decide (bits a0.toNat 9 0 < coreCount s) && decide (a2.toNat % 16 = 0) && decide (a3.toNat ≠ 0) && decide (a3.toNat ≤ 8192) &&
  (!a0.getLsbD 16 || decide (a1.toNat + a3.toNat ≤ 1024))

/-- 0x18 (R355). -/
def execCopyRecords (m : MbxMaster) (a0 a1 a2 a3 : DWord) (s : State) : Outcome :=
  command s m 0x18 [(0, a0), (1, a1), (2, a2), (3, a3)] (fun s =>
    let r := rcdAt (core s (bits a0.toNat 9 0)).rcd s.cycle
    let one (i : Nat) : BitVec 128 := if a0.getLsbD 16 then captureRecord r i else ringRecord r i
    if !copyOk s a0 a1 a2 a3 then answer s 3 []
    else storeCommand s a2.toNat ((List.range a3.toNat).flatMap (fun i => recordBytes (one (a1.toNat + i)))) (fun t =>
      answer t 0 [(0, BitVec.ofNat 64 r.w), (1, BitVec.ofNat 64 r.capState)]))

/-- 0x19 (R355): a frame number that names no frame returns 0, and a die that the part does not have is refused. -/
def execReadSealWord (m : MbxMaster) (a0 : DWord) (s : State) : Outcome :=
  command s m 0x19 [(0, a0)] (fun s =>
    let k := frameKey (bits a0.toNat 3 0) (bits a0.toNat 10 4) (bits a0.toNat 21 11)
    if dies s ≤ bits a0.toNat 3 0 then answer s 3 []
    else answer s 0 [(0, if frameExists s k then (sealWord (frame s k)).setWidth 64 else 0)])

/-- Whether a core number of the recorder's commands names core `c`: 0x3FF names every core (R355). -/
def namesCore (a0 : DWord) (c : Nat) : Bool := decide (a0.toNat = 0x3FF ∨ a0.toNat = c)

/-- The recorders of the named cores changed, as they stand in the cycle. -/
def modRecorders (s : State) (a0 : DWord) (f : Recorder → Recorder) : State :=
  (List.range (coreCount s)).foldl (fun t c => if namesCore a0 c then modRcd t c (fun r => f (rcdAt r s.cycle)) else t) s

/-- Whether an argument names a core or every core (R355). -/
def coreArg (s : State) (a0 : DWord) : Bool := decide (a0.toNat < coreCount s) || decide (a0.toNat = 0x3FF)

/-- 0x1A (R354). -/
def execRearmCapture (m : MbxMaster) (a0 : DWord) (s : State) : Outcome :=
  command s m 0x1A [(0, a0)] (fun s =>
    if !coreArg s a0 then answer s 3 []
    else answer (modRecorders s a0 (fun r => { r with capture := [], capCount := 0, capState := 0, queue := r.queue.map (fun e => (false, e.2)) })) 0 [(0, a0)])

/-- RCTL as a write leaves it (R351). -/
def rctlOf (v : Word) : Word := (v &&& 0x0FFF11FE) ||| 0x0000EE01

/-- The core whose RCTL command 0x1B returns: core 0 for 0x3FF (R355). -/
def rctlCore (a0 : DWord) : Nat := if a0 = 0x3FF then 0 else a0.toNat

/-- 0x1B, writing (R351, R355): all three sampling counters restart. -/
def execWriteRctl (m : MbxMaster) (a0 : DWord) (v : Word) (s : State) : Outcome :=
  command s m 0x1B [(0, a0), (1, v.setWidth 64), (2, 1)] (fun s =>
    if !coreArg s a0 then answer s 3 []
    else answer (modRecorders s a0 (fun r => { r with rctl := rctlOf v, cntStall := s.cycle, cntMem := 0, cntIssue := 0 })) 0
      [(0, (rctlOf v).setWidth 64), (1, v.setWidth 64)])

/-- 0x1B, reading (R351, R355). -/
def execReadRctl (m : MbxMaster) (a0 : DWord) (s : State) : Outcome :=
  command s m 0x1B [(0, a0), (2, 0)] (fun s =>
    if !coreArg s a0 then answer s 3 [] else answer s 0 [(0, (core s (rctlCore a0)).rcd.rctl.setWidth 64)])

/-! ## Placement, the capacity tier, keys (R382, R384, R386, R390) -/

/-- 0x1F (R382). -/
def execAbandonBusySequence (m : MbxMaster) (ctx va : Nat) (s : State) : Outcome :=
  command s m 0x1F [(0, argOf ctx), (1, argOf va)] (fun s =>
    match abandonBusy s ctx (va / 4096 % 2 ^ 36) with
    | none => answer s 2 []
    | some t => answer t 0 [])

/-- 0x20 (R384). -/
def execSetMirrorRange (m : MbxMaster) (a0 a1 a2 a3 : DWord) (s : State) : Outcome :=
  command s m 0x20 [(0, a0), (1, a1), (2, a2), (3, a3)] (fun s =>
    let k := bits a0.toNat 15 0 * 8 + bits a0.toNat 18 16
    let n := bits a2.toNat 31 0
    let args := [(0, a0), (1, a1), (2, a2), (3, a3)]
    if !a0.getLsbD 31 then answer { s with mirrors := drop s.mirrors k } 0 args
    else if n = 0 then answer s 3 args
    else answer { s with mirrors := put s.mirrors k ⟨bits a1.toNat 31 0, n, bits a3.toNat 31 0⟩ } 0 args)

/-- 0x21, reading (R386): context, virtual address, and the capacity-tier page with the mirror bit above it (entry 27); an entry
that is not in use returns free values. -/
def execReadPoisonEntry (m : MbxMaster) (entry : Nat) (s : State) : Outcome :=
  command s m 0x21 [(0, argOf entry)] (fun s =>
    match lookup s.poisonTab (entry % 256) with
    | some e =>
      answer s 0 [(0, BitVec.ofNat 64 e.ctx), (1, BitVec.ofNat 64 (e.vpn * 4096)), (2, BitVec.ofNat 64 (e.capPage + bnat e.mirror * 2 ^ 32))]
    | none =>
      answer { s with free := s.free + 3 } 0 ((List.range 3).map (fun i => (i, (Config.freeWord (s.free + i)).setWidth 64))))

/-- 0x21, clearing (R386): the entry goes, B clears in the page's global entry, and RESUME is heeded again. -/
def execClearPoisonEntry (m : MbxMaster) (entry : Nat) (s : State) : Outcome :=
  command s m 0x21 [(0, argOf (entry % 2 ^ 8 + 2 ^ 8))] (fun s =>
    match lookup s.poisonTab (entry % 256) with
    | none => answer s 0 []
    | some e =>
      let t := releasePage { s with poisonTab := drop s.poisonTab (entry % 256) } e.ctx e.vpn
      answer { t with stop := t.stop.map (fun p => { p with blocked := false }) } 0 [])

/-- Whether an access under a slot's key is in flight (R390): a migration, an HBM write, a sequence that moves a page of the key, a
request, or a direct read. -/
def keyBusy (s : State) (slot : Nat) : Bool :=
  let uses (ctx : Nat) : Bool := match descriptor s ctx with | some d => decide (d.key = slot) | none => false
  s.migrations.any (fun g => uses g.ctx) || s.hwrites.any (fun w => decide (some w.key = keyOfSlot s slot)) || 
  s.seqs.any (fun q => uses q.ctx || (backPages q.victim).any (fun p => uses p.ctx)) ||
  s.cores.any (fun e => e.2.reqs.any (fun r => match r.space with | .virt ctx _ => uses ctx | _ => false) ||
    (e.2.c.readers.any (fun r => r.issued) && uses (ctxId s)))

/-- 0x22 (R390): the material is read and zeroed; the command waits for accesses under the old key. -/
def execWriteKeySlot (m : MbxMaster) (a0 a1 : DWord) (s : State) : Outcome :=
  command s m 0x22 [(0, a0), (1, a1)] (fun s =>
    let slot := bits a0.toNat 10 0
    if a1.toNat % 64 ≠ 0 then answerOpen s
    else if keyBusy s slot then s
    else
      let k := hbmRead s a1.toNat 64
      storeCommand s a1.toNat (List.replicate 64 0) (fun t =>
        answer { t with keySlots := if a0.getLsbD 31 then put t.keySlots slot k else drop t.keySlots slot } 0 [(0, a0), (1, a1)]))

/-! ## RAS counters and lost blocks (R395, R397) -/

/-- 0x23 (R395). -/
def execReadRasCounters (m : MbxMaster) (num : Nat) (frames clear : Bool) (s : State) : Outcome :=
  command s m 0x23 [(0, argOf (num + bnat frames * 2 ^ 8)), (1, argOf (bnat clear))] (fun s =>
    if dies s ≤ num then answer s 3 []
    else
      let k := num * 2 + bnat frames
      let used := ((List.range 32).map (fun i => (look s.lost (num * 32 + i) []).length)).foldl (fun a b => a + b) 0
      let t := if clear then
          { s with rasCorrected := drop s.rasCorrected k, rasPoisoned := drop s.rasPoisoned k }
        else s
      answer t 0 [(0, BitVec.ofNat 64 (min (look s.rasCorrected k 0) (2 ^ 32 - 1))),
        (1, BitVec.ofNat 64 (min (look s.rasPoisoned k 0) (2 ^ 32 - 1))),
        (2, BitVec.ofNat 64 (look s.rasLast k 0)), (3, BitVec.ofNat 64 (used % 128))])

/-- 0x24, reading (R397): the byte address with the stack above it (R33); an entry not in use returns a free value. -/
def execReadLostBlock (m : MbxMaster) (die slice entry : Nat) (s : State) : Outcome :=
  command s m 0x24 [(0, argOf (die % 2 ^ 4 + slice % 2 ^ 5 * 2 ^ 4 + entry % 2 ^ 6 * 2 ^ 9))] (fun s =>
    match (look s.lost (die % 16 * 32 + slice % 32) [])[entry % 64]? with
    | some b => answer s 0 [(0, BitVec.ofNat 64 (b * 128))]
    | none => answer { s with free := s.free + 1 } 0 [(0, (Config.freeWord s.free).setWidth 64)])

/-- 0x24, clearing (R397): RESUME is heeded again once an entry of the slice's full list has been cleared. -/
def execClearLostBlock (m : MbxMaster) (die slice entry : Nat) (s : State) : Outcome :=
  command s m 0x24 [(0, argOf (die % 2 ^ 4 + slice % 2 ^ 5 * 2 ^ 4 + entry % 2 ^ 6 * 2 ^ 9 + 2 ^ 15))] (fun s =>
    let k := die % 16 * 32 + slice % 32
    let l := look s.lost k []
    if l.length ≤ entry % 64 then answer s 0 []
    else
      let t := { s with lost := put s.lost k (l.eraseIdx (entry % 64)) }
      answer { t with stop := t.stop.map (fun p => { p with lostFull := p.lostFull.filter (fun x => x != k) }) } 0 [])

/-! ## Faulted entries (R411) -/

/-- The lanes that a faulted entry still owes: for GROVE.ROW those not delivered, else all. -/
def owedLanes (e : MqEntry) : LaneMask :=
  match e.kind with
  | .groveRow _ _ _ => maskOf ((lanesOf e.lanes).drop e.progress)
  | _ => e.lanes

/-- A faulted entry abandoned: GROVE.ROW lanes get 0 in their slots, the flag clears, and later entries proceed. -/
def abandonEntry (s : State) (c : Nat) (e : MqEntry) : State :=
  let m := owedLanes e
  let s1 := match e.kind with | .groveRow _ _ _ => failLanes s c e.lf e.id 1 m | _ => s
  sweepLatches (dropEntry (finishFlags s1 c e.lf m e.flag) c e)

/-- The unit of an entry in command 0x25: 0 for the matrix unit and the side unit, 1 for the Grove engine. -/
def entryUnit (c : Nat) (e : MqEntry) : Nat := if (mqCmd c e).engine = 2 then 1 else 0

/-- 0x25 (R411); an entry whose threads are still parked at the latch has not started, and no unit has it. -/
def execAbandonEngineEntry (m : MbxMaster) (a0 : DWord) (s : State) : Outcome :=
  command s m 0x25 [(0, a0)] (fun s =>
    let c := bits a0.toNat 9 0
    if a0 &&& ~~~0x103FF ≠ 0 ∨ coreCount s ≤ c then answer s 3 [(0, a0)]
    else match s.stop, (core s c).c.mq.find? (fun e => e.fault.isSome && !atLatch e && decide (entryUnit c e = bits a0.toNat 16 16)) with
      | some _, some e => answer (abandonEntry s c e) 0 [(0, a0)]
      | _, _ => answer s 2 [(0, a0)])

/-! ## Gang launches (R429) -/

/-- 0x26: the next entry taken from the queue runs as a gang launch. -/
def execArmGangLaunch (m : MbxMaster) (a0 a1 : DWord) (s : State) : Outcome :=
  command s m 0x26 [(0, a0), (1, a1)] (fun s =>
    if a1 = 0 ∨ 2 ^ 32 ≤ a1.toNat then answerOpen s
    else answer (modQueue s (bits a0.toNat 5 0) (fun x => { x with gangArm := some (bits a0.toNat 27 16, a1.toNat * 2 ^ 16) })) 0
      [(0, a0), (1, a1)])

/-- 0x27: BROKEN, the absent count and the lowest absent member of the queue's last gang launch; before the first, a free value. -/
def execReadGangStatus (m : MbxMaster) (q : Nat) (s : State) : Outcome :=
  command s m 0x27 [(0, argOf q)] (fun s =>
    match lastGang s q with
    | some (_, g) =>
      answer s 0 [(0, BitVec.ofNat 64 (bnat (decide (0 < g.absent)) * 2 ^ 31 + g.absent % 2 ^ 12 * 2 ^ 16 + g.lowest % 2 ^ 12))]
    | none => answer { s with free := s.free + 1 } 0 [(0, (Config.freeWord s.free).setWidth 64)])

/-! ## Capsules (R419, R423) -/

/-- The capsule slots: 160 MiB each. -/
def slotBytesCount : Nat := 160 * 2 ^ 20
def slotBase (i : Nat) : Nat := 0xFEC000 * 4096 + i * slotBytesCount

def capsule (s : State) (i : Nat) : Capsule := s.capsules.getD i ⟨0, 0, 0⟩
def setCapsule (s : State) (i : Nat) (x : Capsule) : State := { s with capsules := s.capsules.set i x }

/-- 0x28 (R423): a summary that was never written copies nothing and names no slot. -/
def execCopyCapsuleSummary (m : MbxMaster) (index : Nat) (dst : DWord) (s : State) : Outcome :=
  command s m 0x28 [(0, argOf index), (1, dst)] (fun s =>
    if 4 ≤ index ∨ dst.toNat % 8 ≠ 0 then answerOpen s
    else match s.summaries[index]? with
      | none => answer s 0 [(0, 0xFF), (1, 0)]
      | some x => storeCommand s dst.toNat x.bytes (fun t =>
          answer t 0 [(0, if x.slot < 2 then BitVec.ofNat 64 x.slot else 0xFF), (1, BitVec.ofNat 64 (capsule t x.slot).state)]))

/-- 0x29 (R423). -/
def execCopyCapsuleSlot (m : MbxMaster) (slot : Nat) (dst : DWord) (off len : Nat) (s : State) : Outcome :=
  command s m 0x29 [(0, argOf slot), (1, dst), (2, argOf off), (3, argOf len)] (fun s =>
    if (capsule s slot).state ≠ 2 then answer s 2 []
    else if dst.toNat % 64 ≠ 0 ∨ 2 ^ 26 < len ∨ slotBytesCount < off + len then answerOpen s
    else storeCommand s dst.toNat (Mem.read s.mem (slotBase slot + off) len) (fun t =>
      answer t 0 [(0, BitVec.ofNat 64 ((capsule t slot).size + 30176))]))

/-- 0x2A (R423). -/
def execReleaseCapsuleSlot (m : MbxMaster) (slot : Nat) (s : State) : Outcome :=
  command s m 0x2A [(0, argOf slot)] (fun s =>
    if (capsule s slot).state ≠ 2 then answer s 2 [] else answer (setCapsule s slot ⟨0, 0, 0⟩) 0 [])

/-! ## Boot code and unknown commands -/

/-- 0x2C (R430). -/
def execReadBootCode (m : MbxMaster) (s : State) : Outcome :=
  command s m 0x2C [] (fun s =>
    answer s 0 ((0, BitVec.ofNat 64 s.boot.code) ::
      (if s.boot.code = 7 ∨ s.boot.code = 8 then [(1, BitVec.ofNat 64 s.boot.block)] else [])))

/-- A command code that no table lists returns 0x01 (R328). -/
def execMailboxUnknownCommand (m : MbxMaster) (code : Nat) (s : State) : Outcome :=
  if 0x10 ≤ code ∧ code ≤ 0x2C then .next s else command s m code [] (fun s => answer s 1 [])

end Sys2Proof.Machine
end

