-- ==== Sys2Proof/Machine/Registers.lean ====
section
/-!
DEFINITION. Machine/Registers.lean: writes of the registers that have no row of their own: Mast CSRs (R314, R317, R322, R323), queue
registers (R300), capability word 0 (R6), PRI Enable (R388), firmware's extension of MEAS (R332); and JBUD, which M mode alone reaches (R63, R396).
-/
namespace Sys2Proof.Machine

/-- A CSR write by a Mast: an illegal-instruction exception below the mode that the CSR needs (R314, under RISC-V rules); `m` says
that only M mode reaches it. -/
def csrWrite (s : State) (c : Nat) (m : Bool) (f : State → State) : State :=
  if !mastUp s c then s
  else if (mast s c).mode = .u ∨ (m ∧ (mast s c).mode ≠ .m) then mastTrap s c 2 0
  else f s

/-- JBUD_WRITE (R63, R314, R396). -/
def execJbudWrite (c : Nat) (v : Word) (s : State) : Outcome := .next (csrWrite s c true (fun s => writeJbud s c v))

/-- MRING (R317): SIZE above 4 reads back as 4; the Mast context is the one in MCTX at the write. -/
def writeRing (s : State) (c : Nat) (v : DWord) : State :=
  let size := min 4 (v.toNat % 16)
  modMast s c (fun m => { m with
    mring := BitVec.ofNat 64 (bits v.toNat 47 10 * 2 ^ 10 + size), ringCtx := m.mctx })

/-- mstatus.MPP: a value that names no mode, and U without the sandbox, leave it as it is (R322; entry 2). -/
def writeMpp (s : State) (c : Nat) (v : DWord) : State :=
  let n := v.toNat % 4
  if n = 2 ∨ (n = 0 ∧ !s.caps.getLsbD 4) then s else modMast s c (fun m => { m with mpp := n })

/-- sstatus.SPP: U cannot be held without the sandbox (R322). -/
def writeSpp (s : State) (c : Nat) (v : DWord) : State :=
  if v.getLsbD 0 = false ∧ !s.caps.getLsbD 4 then s else modMast s c (fun m => { m with spp := v.toNat % 2 })

/-- Whether a PMP address register is locked (RISC-V): by its own entry, or by a locked entry above it that ranges down to it. -/
def pmpLocked (m : Mast) (k : Nat) : Bool :=
  (m.pmpcfg.getD k 0).getLsbD 7 || ((m.pmpcfg.getD (k + 1) 0).getLsbD 7 && decide (bits (m.pmpcfg.getD (k + 1) 0).toNat 4 3 = 1))

/-- A PMP configuration byte (RISC-V): W without R is reserved and leaves it as it is. -/
def writePmpcfg (s : State) (c k : Nat) (v : DWord) : State :=
  let b : Byte := v.setWidth 8 &&& 0x9F
  if (mast s c).pmpcfg.getD k 0 &&& 0x80 ≠ 0 ∨ (b.getLsbD 1 ∧ !b.getLsbD 0) then s
  else modMast s c (fun m => { m with pmpcfg := m.pmpcfg.set k b })

/-- A PMP address register: 54 bits (RISC-V). -/
def writePmpaddr (s : State) (c k : Nat) (v : DWord) : State :=
  if pmpLocked (mast s c) k then s else modMast s c (fun m => { m with pmpaddr := m.pmpaddr.set k (v &&& 0x3FFFFFFFFFFFFF) })

/-- PRI Enable of a function (R388): PRI that was stopped works again once the host has cleared and then set it. -/
def writePri (s : State) (fn : Nat) (on : Bool) : State :=
  if !on then (if s.priStopped.contains fn then { s with priCleared := (fn :: s.priCleared).dedup } else s)
  else if s.priCleared.contains fn then
    { s with priStopped := s.priStopped.filter (fun f => f != fn), priCleared := s.priCleared.filter (fun f => f != fn) }
  else s

/-- A register written: reserved bits read 0, and a read-only register ignores the write; MCORE stands in the read-only range, where a
write is illegal (R314, RISC-V). Firmware, in M mode, extends MEAS with a digest (R332; entry 28). -/
def writeRegister (s : State) (r : RegName) (v : DWord) : State :=
  match r with
  | .mctx c => csrWrite s c true (fun s => modMast s c (fun m => { m with mctx := v.toNat % 2 ^ 16 }))
  | .mctdl c => csrWrite s c true (fun s => modCore s c (fun k => { k with ctdl := v.setWidth 32 &&& 0xFF }))
  | .mring c => csrWrite s c false (fun s => writeRing s c v)
  | .mntie c => csrWrite s c false (fun s => modMast s c (fun m => { m with mntie := v.setWidth 32 }))
  | .mukey c => csrWrite s c false (fun s => modMast s c (fun m => { m with mukey := v.toNat % 16 }))
  | .mrgnb c k => csrWrite s c false (fun s => modMast s c (fun m => { m with mrgnb := m.mrgnb.set k (v &&& 0x0000FFFFFFFFF000) }))
  | .mrgnl c k => csrWrite s c false (fun s => modMast s c (fun m => { m with mrgnl := m.mrgnl.set k (v &&& 0x0000FFFFFFFFF07F) }))
  | .mcallht c => csrWrite s c false id
  | .mmsgb c => csrWrite s c false id
  | .mcore c => if !mastUp s c then s else mastTrap s c 2 0
  | .mtrap c => csrWrite s c false id
  | .mmxerr c => csrWrite s c false id
  | .reservedCsr c _ => if !mastUp s c then s else mastTrap s c 2 0
  | .satp c => csrWrite s c false id
  | .mpp c => csrWrite s c true (fun s => writeMpp s c v)
  | .spp c => csrWrite s c false (fun s => writeSpp s c v)
  | .medeleg c => csrWrite s c true (fun s => modMast s c (fun m => { m with medeleg := v }))
  | .mtvec c => csrWrite s c true (fun s => modMast s c (fun m => { m with mtvec := v }))
  | .stvec c => csrWrite s c false (fun s => modMast s c (fun m => { m with stvec := v }))
  | .mie c => csrWrite s c true (fun s => modMast s c (fun m => { m with mie := v }))
  | .pmpcfg c k => csrWrite s c true (fun s => writePmpcfg s c k v)
  | .pmpaddr c k => csrWrite s c true (fun s => writePmpaddr s c k v)
  | .qbase q => if 64 ≤ q then s else modQueue s q (fun x => { x with qbase := v &&& 0xFFFFFFFFFFFFF001 })
  | .qcfg q => if 64 ≤ q then s else modQueue s q (fun x => { x with qcfg := v.setWidth 32 &&& 0xFF00FFFF })
  | .caps => s
  | .priEnable fn => writePri s fn (v.getLsbD 0)
  | .meas c d => csrWrite s c true (fun s => { s with measure := Config.sha384 (digestBytes s.measure ++ digestBytes d) })

/-- REGISTER_WRITE (R314, R300, R6, R69, R317, R322, R388, R396). -/
def execRegisterWrite (r : RegName) (v : DWord) (s : State) : Outcome := .next (writeRegister s r v)

end Sys2Proof.Machine
end

