-- ==== Sys2Proof/Machine/Capsules.lean ====
section
/-!
DEFINITION. Machine/Capsules.lean: crash capsules: what they hold, with the fields of other contexts replaced (R420, R421), their
signatures and slots (R419, R422) and summaries (R423), and the event that assembles one (R418).
-/
namespace Sys2Proof.Machine

/-! ## Redaction (R421) -/

/-- The leading `n` bits of the HMAC of a context number and a value under this boot's redaction key. -/
def redacted (s : State) (ctx value n : Nat) : Nat :=
  ((Config.hmac384 s.bootNo (leBytes 2 ctx ++ leBytes 8 value)).extractLsb' (384 - n) n).toNat

/-- Bits hi to lo of a number replaced. -/
def replaceBits (x hi lo v : Nat) : Nat := x - bits x hi lo * 2 ^ lo + v % 2 ^ (hi + 1 - lo) * 2 ^ lo

/-- Bits hi to lo of a record replaced by their redaction. -/
def redactBits (s : State) (ctx x hi lo : Nat) : Nat := replaceBits x hi lo (redacted s ctx (bits x hi lo) (hi + 1 - lo))

/-- The kinds of stop whose DETAIL is an address. -/
def addressKind (k : Nat) : Bool := decide (k = 6 ∨ k = 7 ∨ (17 ≤ k ∧ k ≤ 25) ∨ k = 29)

/-- The field of DATA (bits 103:56 of a record) that R421 names for a record. -/
def namedField (x : Nat) : Option (Nat × Nat) :=
  match bits x 7 0 with
  | 2 | 12 => some (56 + 31, 56)
  | 3 | 4 => some (56 + 47, 56 + 4)
  | 5 => some (56 + 47, 56 + 12)
  | 6 => some (56 + 47, 56 + 32)
  | 11 => if addressKind (bits x 65 60) then some (56 + 45, 56 + 10) else none
  | _ => none

/-- A record of another context: PC and the named field are replaced. -/
def redactRecord (s : State) (ctx : Nat) (r : BitVec 128) : BitVec 128 :=
  let x := redactBits s ctx r.toNat 55 24
  BitVec.ofNat 128 (match namedField r.toNat with | some (hi, lo) => redactBits s ctx x hi lo | none => x)

/-- Records in order, each under the context it belongs to; `ctx` is the one that the first belongs to. -/
def redactFrom (s : State) (mine : Nat) : Nat → List (BitVec 128) → List (BitVec 128)
  | _, [] => []
  | ctx, r :: l =>
    let out := if ctx = mine ∨ r = 0 then r else redactRecord s ctx r
    let next := match sliceOf r with | some (new, _, true) => new | _ => ctx
    out :: redactFrom s mine next l

/-- The ring's records redacted for a capsule's context. -/
def redactAll (s : State) (mine : Nat) (l : List (BitVec 128)) : List (BitVec 128) :=
  redactFrom s mine (match l.findSome? sliceOf with | some (_, old, _) => old | none => mine) l

/-! ## Contents (R420) -/

/-- A list of bytes padded with zeros, or cut, to a length. -/
def fit (n : Nat) (l : List Byte) : List Byte := l.take n ++ List.replicate (n - l.length) 0

/-- The state section of a core; zero for a core on a lost die. -/
def coreSection (s : State) (d : CapsuleDue) (c : Nat) : List Byte :=
  let k := core s c
  let r := rcdAt k.rcd s.cycle
  fit 4096 (if s.lostDies.contains (dieOf c) then []
    else leBytes 8 d.mhalt.toNat ++ leBytes 8 k.mtrap.toNat ++ leBytes 8 k.mmxerr.toNat ++ leBytes 8 r.w ++
      leBytes 4 r.rctl.toNat ++ leBytes 4 r.capState ++ leBytes 8 k.mast.mcause.toNat ++ leBytes 8 k.mast.mepc.toNat)

/-- The ring records W − 7168 to W − 1, with 16 zero bytes for numbers never written. -/
def ringInOrder (r : Recorder) : List (BitVec 128) :=
  (List.range 7168).map (fun j => if r.w + j < 7168 then 0 else ringRecord r (r.w + j - 7168))

/-- The recorder section of a core: the ring, then the capture area, both redacted. A captured record belongs to the context that it belonged to
in the ring, which the ring may have passed since: no foreign address shows in clear (R421). -/
def recorderSection (s : State) (d : CapsuleDue) (c : Nat) : List Byte :=
  let r := rcdAt (core s c).rcd s.cycle
  fit 131072 (if s.lostDies.contains (dieOf c) then []
    else (redactAll s d.ctx (ringInOrder r) ++ redactFrom s d.ctx r.capCtx ((List.range 1024).map (captureRecord r))).flatMap recordBytes)

/-- A poison-table entry in 32 bytes (entry 27); the address of another context's is replaced. -/
def poisonBytes (s : State) (d : CapsuleDue) (i : Nat) : List Byte :=
  match lookup s.poisonTab i with
  | none => List.replicate 32 0
  | some e =>
    let v := if e.ctx = d.ctx then e.vpn else redacted s e.ctx e.vpn 36
    fit 32 (leBytes 2 e.ctx ++ leBytes 2 (bnat e.mirror + 2) ++ leBytes 4 e.capPage ++ leBytes 8 (v * 4096))

/-- A lost-block entry in 16 bytes (entry 27). -/
def lostBytes (s : State) (k i : Nat) : List Byte :=
  match (look s.lost k [])[i]? with
  | none => List.replicate 16 0
  | some b => fit 16 (leBytes 8 (b * 128) ++ [1])

/-- SIZE of R420. -/
def capsuleSize (s : State) : Nat := 0x401000 + 131072 * coreCount s + 0x2000 + 32768 * dies s

/-- Bytes 256 to SIZE − 1; the recorder sections begin at 0x40_1000 whatever the number of cores. -/
def capsuleBody (s : State) (d : CapsuleDue) : List Byte :=
  List.replicate (4096 - 256) 0 ++ (List.range (coreCount s)).flatMap (coreSection s d) ++ List.replicate (4096 * (1024 - coreCount s)) 0 ++
  (List.range (coreCount s)).flatMap (recorderSection s d) ++
  (List.range 256).flatMap (poisonBytes s d) ++
  (List.range (32 * dies s)).flatMap (fun k => (List.range 64).flatMap (lostBytes s k))

/-- The header (R420): 256 bytes. -/
def capsuleHeader (s : State) (d : CapsuleDue) (number flags : Nat) (digest : BitVec 384) : List Byte :=
  fit 256 (leBytes 4 0x5041435A ++ leBytes 4 1 ++ leBytes 8 number ++ leBytes 8 d.time ++ leBytes 2 d.ctx ++ leBytes 1 d.fn ++
    leBytes 1 d.kind ++ leBytes 2 d.core ++ leBytes 1 (dies s) ++ leBytes 1 flags ++ leBytes 8 (capsuleSize s) ++
    digestBytes s.measure ++ digestBytes digest)

/-- FLAGS of a capsule (R420): bit 1 is set while sections of a lost die are zero in it. -/
def capsuleFlags (s : State) (d : CapsuleDue) : Nat := d.flags ||| (if s.lostDies.isEmpty then 0 else 2)

/-- The capsule of a slot: header, body, and both signatures over the header (R422). -/
def capsuleBytes (s : State) (d : CapsuleDue) (number : Nat) : List Byte :=
  let body := capsuleBody s d
  let h := capsuleHeader s d number (capsuleFlags s d) (Config.sha384 body)
  h ++ body ++ (List.range 384).map (Config.rsaSign h) ++ (List.range 29792).map (Config.slhSign h)

/-! ## Assembly (R418, R419, R423) -/

/-- The lowest slot in a state. -/
def slotIn (s : State) (st : Nat) : Option Nat := (List.range 2).find? (fun i => (capsule s i).state = st)

/-- A summary: the first 136 bytes of the header; the four newest are kept. -/
def addSummary (s : State) (x : Summary) : State := { s with summaries := (x :: s.summaries).take 4 }

/-- Assembly begins in a slot: its summary has FLAGS bit 1 set until it ends. -/
def beginCapsule (s : State) (d : CapsuleDue) (i : Nat) : State :=
  let s1 := setCapsule s i ⟨1, capsuleSize s, s.capSeq⟩
  addSummary { s1 with capSeq := s.capSeq + 1 } ⟨(capsuleHeader s d s.capSeq (d.flags ||| 2) 0).take 136, i⟩

/-- No slot is empty: a summary alone, with DROPPED. -/
def dropCapsule (s : State) (d : CapsuleDue) : State :=
  addSummary { s with capSeq := s.capSeq + 1 } ⟨(capsuleHeader s d s.capSeq (capsuleFlags s d ||| 4) 0).take 136, 2⟩

/-- Assembly ends: the slot holds the signed capsule, and the newest summary is written again. -/
def holdCapsule (s : State) (d : CapsuleDue) (i : Nat) : State :=
  let x := capsule s i
  let b := capsuleBytes s d x.number
  let s1 := setCapsule s i ⟨2, x.size, x.number⟩
  { s1 with
    mem := Mem.write s1.mem (slotBase i) b
    cipher := s1.cipher.filter (fun e => !(decide (slotBase i / 16 ≤ e.1) && decide (e.1 < (slotBase i + slotBytesCount) / 16)))
    summaries := (⟨b.take 136, i⟩ : Summary) :: s1.summaries.drop 1 }

/-- The compute dies off, the base dies in self-refresh (R431): HBM and what lies outside the package stay. -/
def darkPackage (s : State) : State :=
  { s with
    cores := [], images := [], tiles := [], spills := [], wgs := [], launches := [], latches := [], slice := none, stop := none
    frames := [], dieLayer := [], markers := [], seqs := [], fillReqs := [], flushes := [], invals := [], monitors := [], hwrites := [], migrations := []
    mem := s.mem.filter (fun e => decide (e.1 < Config.frameBase ∨ Config.hostBase ≤ e.1))
    poison := s.poison.filter (fun u => decide (u < Config.frameBase / 32 ∨ Config.hostBase / 32 ≤ u))
    boot := { s.boot with ready := false, checked := [] }, booting := []
    dieState := List.replicate 16 0, vf := List.replicate 16 0, at_ := none, capDue := [] }

/-- A capsule is done: the next one, the slice switch of an ended context, or the package going dark. -/
def capsuleDone (s : State) (d : CapsuleDue) : State :=
  let s1 := { s with capDue := s.capDue.drop 1 }
  if bit d.flags 0 then darkPackage s1
  else if d.ended then leaveStop s1
  else s1

/-- Whether a due capsule may be taken: every core has written its stop records (R418), and a fatal one is taken at VF 0 (R431). -/
def capsuleReady (s : State) (d : CapsuleDue) : Bool :=
  (match s.stop with | some p => (List.range (coreCount s)).all (fun c => p.arrived.contains c) | none => true) &&
  (!bit d.flags 0 || s.vf.all (fun v => v = 0))

/-- CAPSULE_ASSEMBLY (R418): the oldest due capsule begins, and with the next such event it is held. -/
def execCapsuleAssembly (s : State) : Outcome :=
  match s.capDue with
  | [] => .next s
  | d :: _ =>
    if !capsuleReady s d then .next s
    else match slotIn s 1, slotIn s 0 with
      | some i, _ => .next (capsuleDone (holdCapsule s d i) d)
      | none, some i => .next (beginCapsule s d i)
      | none, none => .next (capsuleDone (dropCapsule s d) d)

end Sys2Proof.Machine
end

