-- ==== Sys2Proof/Machine/Devices.lean ====
section
/-!
DEFINITION. Machine/Devices.lean: the package as a device: boot (R330, R332, R430), die states (R331), warm reset of a die (R424), power
and heat (R63, R333, R353, R431), links and ports (R426, R427), and resets (R419).
-/
namespace Sys2Proof.Machine

/-! ## Boot (R330, R332, R430) -/

/-- What a package reset leaves: retention storage, HBM with its capsule slots, what lies outside the package, and the inputs to come.
The keys are lost, so what they wrote no longer decrypts (R390; entry 28). -/
def afterReset (s : State) : State :=
  { State.reset with
    caps := s.caps, agenda := s.agenda, hostStores := s.hostStores, hwErrors := s.hwErrors, ops := s.ops, free := s.free, sent := s.sent
    mem := s.mem.filter (fun e => decide (e.1 < Config.frameBase ∨ Config.hostBase ≤ e.1))
    poison := s.poison.filter (fun u => decide (u < Config.frameBase / 32 ∨ Config.hostBase / 32 ≤ u))
    lost := s.lost, lostFull := s.lostFull, cipher := s.cipher
    capsules := s.capsules.map (fun (x : Capsule) => if x.state = 2 then x else ⟨0, 0, 0⟩)
    summaries := s.summaries, capSeq := s.capSeq, bootaddr := s.bootaddr, bootNo := s.bootNo + 1 }

/-- A field of the manifest. -/
def manifestField (s : State) (off n : Nat) : Nat := leNat (busRead s (s.bootaddr.toNat + off) n)

/-- N of R332, for a SIZE within its limits. -/
def blockCount (s : State) : Nat := manifestField s 8 8 / 65536

/-- Whether SIZE is within its limits (R332). -/
def sizeOk (s : State) : Bool := decide (manifestField s 8 8 % 65536 = 0) && decide (manifestField s 8 8 ≤ 2 ^ 24)

/-- The code of R430 for a manifest that was read; 0 for one that the ROM accepts. The checks are in the order of the codes, but that a
SIZE out of limits is code 6 before the signatures, whose places it gives (entry 28). -/
def manifestCode (s : State) : Nat :=
  let at_ := s.bootaddr.toNat
  let body := busRead s at_ (512 + 48 * blockCount s)
  if Config.sha384 (busRead s (at_ + 64) 448) ≠ Config.fusedKeyDigest then 3
  else if !sizeOk s then 6
  else if !Config.rsaVerifies (busRead s (at_ + 64) 384) body (busRead s (at_ + 512 + 48 * blockCount s) 384) then 4
  else if !Config.slhVerifies (busRead s (at_ + 448) 64) body (busRead s (at_ + 896 + 48 * blockCount s) 29792) then 5
  else if manifestField s 0 4 ≠ 0x464D5A4B ∨ manifestField s 4 4 < Config.fusedMinSvn then 6
  else 0

/-- A core's Mast starts at ENTRYOFF of the image in M mode (R330 step 4; entry 28). -/
def startMast (s : State) (c : Nat) : State := modMast s c (fun m => { m with mode := .m, pc := BitVec.ofNat 64 s.boot.entry })

/-- The Masts of a die, but its first, started by the first (R330 step 4). -/
def startRest (s : State) (d : Nat) : State :=
  (List.range 63).foldl (fun t i => startMast t (64 * d + i + 1)) { s with booting := put s.booting d 2 }

/-- The manifest accepted: MEAS is extended with its digest, the image is mapped, and the Mast of core 0 goes to ENTRYOFF in it. -/
def acceptManifest (s : State) : State :=
  let d := Config.sha384 (busRead s s.bootaddr.toNat (512 + 48 * blockCount s))
  let s1 := { s with
    measure := Config.sha384 (digestBytes s.measure ++ digestBytes d)
    boot := ⟨0, 0, true, busRead s (s.bootaddr.toNat + 512) (48 * blockCount s), [], s.bootaddr.toNat + 0x100000, [], manifestField s 16 8⟩
    dieState := s.dieState.set 0 2, booting := [(0, 1)] }
  startMast s1 0

/-- PACKAGE_RESET (R330): the ROM of die 0 trains link 0 and reads and verifies the manifest; `readOk` is the outcome of the read with its
3 retries (R430). -/
def execPackageReset (linkUp readOk : Bool) (s : State) : Outcome :=
  let s1 := { afterReset s with dieState := (List.replicate 16 0).set 0 1 }
  if !linkUp then .next (failBoot s1 1 0)
  else if !readOk then .next (failBoot s1 2 0)
  else if manifestCode s1 ≠ 0 then .next (failBoot s1 (manifestCode s1) 0)
  else .next (acceptManifest s1)

/-! ## Die states (R331, R424) -/

/-- Whether a die may pass from a state to another once its Masts, HBM and links have come up; one in firmware enters it again when its first
Mast starts the others (R330 step 4). -/
def mayEnterState (s : State) (d st : Nat) : Bool :=
  let old := s.dieState.getD d 0
  decide (s.boot.code = 0) && s.boot.ready && !s.lostDies.contains d &&
  ((decide (st = 2) && decide ((old = 0 ∧ d ≠ 0 ∧ 2 ≤ s.dieState.getD 0 0 ∧ s.dieState.getD 0 0 ≤ 4) ∨ (old = 2 ∧ lookup s.booting d = some 1))) ||
   (decide (st = 3) && decide (old = 2 ∨ old = 6)) || (decide (st = 4) && decide (old = 3)))

/-- The boot window closed when no die needs it any more: its blocks are gone (R330). -/
def closeWindow (s : State) : State := if windowOpen s then s else { s with boot := { s.boot with checked := [] } }

/-- A die enters a state. In firmware first the Mast of its core 0 runs, which starts the others (R330 step 4), at the latest when the die goes
on to reduced service (R331: its Masts have come up); out of a warm reset all start from the boot window (R424 step 5), and full
service ends the window for the die. -/
def enterState (s : State) (d st : Nat) : State :=
  let old := s.dieState.getD d 0
  let t := { s with dieState := s.dieState.set d st }
  if st = 4 then closeWindow { t with booting := drop t.booting d }
  else if st = 2 ∧ old = 0 then startMast { t with booting := put t.booting d 1 } (64 * d)
  else if old = 6 then startRest (startMast t (64 * d)) d
  else if lookup t.booting d = some 1 then startRest t d
  else t

/-- DIE_STATE_CHANGE (R331). -/
def execDieStateChange (d st : Nat) (s : State) : Outcome :=
  if d < dies s ∧ mayEnterState s d st then .next (enterState s d st) else .next s

/-! ## Warm reset (R424) -/

def onDie (s : State) (d : Nat) (ctx : Nat) : Bool := s.wgs.any (fun w => decide (w.ctx = ctx ∧ dieOf w.core = d))

/-- The contexts that are out and hold a placed workgroup on a die. -/
def savedOn (s : State) (d : Nat) : List Nat :=
  ((s.wgs.filter (fun w => decide (dieOf w.core = d) && !runs s w.ctx)).map (fun w => w.ctx)).dedup

/-- A context that is out ended for a reset, with its capsule (R418, R424). -/
def endForReset (s : State) (ctx : Nat) : State :=
  let fn := match descriptor s ctx with | some x => x.fn | none => 0
  { endSaved s ctx with capDue := s.capDue ++ [⟨ctx, fn, 0, 0, s.cycle, 0, mhalt s, false⟩] }

/-- Step 1: the die is fenced, and the contexts with workgroups on it are ended, the running one first. -/
def fenceDie (s : State) (d : Nat) : State :=
  let s1 := { s with dieState := s.dieState.set d 5 }
  let s2 := if s1.slice.isSome && onDie s1 d (ctxId s1) then
      endStopped (if s1.stop.isSome then s1 else raiseBare s1 0 0 0 0) true 0
    else s1
  (savedOn s2 d).foldl endForReset s2

/-- Whether nothing of a die is on its way (step 2): its sequences and migrations are done, its cores hold no request, and no write waits for a
lane of its stack or at a page that its frames go back to (R65). -/
def dieQuiet (s : State) (d : Nat) : Bool :=
  !s.seqs.any (fun q => decide (keyDie q.dst = d)) && !s.migrations.any (fun m => decide (m.die = d)) &&
  s.hwrites.all (fun w => decide (pageStack w.page ≠ d) &&
    !s.frames.any (fun e => decide (keyDie e.1 = d ∧ e.2.backing = w.page) && e.2.valid)) &&
  (List.range 64).all (fun i => (core s (64 * d + i)).reqs.isEmpty && (core s (64 * d + i)).ops.isEmpty)

/-- Step 3 for one frame: a dirty page goes home, the frame is released, and its holders are told (R47, R48). -/
def evictNow (s : State) (k : Nat) : State :=
  let f := frame s k
  if !f.valid then s
  else
    let key := (keyOf s f.ctx).getD 0
    let s1 :=
      if frameDirty s k then
        let t := storeUnder (clearMarks s (f.backing * 4096) (List.range 4096)) key (f.backing * 4096) (byteTable (Mem.read s.mem (frameAt k) 4096))
        { t with poison := t.poison ++ ((List.range 128).filter (fun i => poisoned s (frameAt k + 32 * i))).map (fun i => f.backing * 128 + i) }
      else s
    let s2 := (owed s k).foldl (fun t o => sendOwed t o ⟨keyDie k, 64 * keyDie k, noThread, 0⟩) (clearSlot s1 (keyDie k) f.ctx f.vpn k)
    moveMarker (releaseFrame s2 k) f.backing (decide ((marker s f.backing).frame = some k)) (keyDie k) none

/-- The frame keys of a die. -/
def framesOn (s : State) (d : Nat) : List Nat := (s.frames.map (fun e => e.1)).filter (fun k => keyDie k = d)

/-- Steps 3 and 4: write-back, monitors fire (R402), the die layer is cleared, and the die is reset. -/
def resetDie (s : State) (d : Nat) : State :=
  let s1 := moveMonitors ((framesOn s d).foldl (fun t k => evictNow (breakReserve t (frameAt k) 4096) k) s)
  let s2 := (List.range 32).foldl (fun t g => fireGroup t (d * 32 + g)) s1
  let a := frameAt (frameKey d 0 0)
  { s2 with
    dieLayer := s2.dieLayer.filter (fun e => decide (e.1 / 2 ^ 18 ≠ d))
    frames := s2.frames.filter (fun e => decide (keyDie e.1 ≠ d))
    mem := Mem.clear s2.mem a (2 ^ 30)
    poison := s2.poison.filter (fun u => !(decide (a / 32 ≤ u) && decide (u < a / 32 + 2 ^ 25)))
    cores := s2.cores.filter (fun e => decide (dieOf e.1 ≠ d))
    invals := s2.invals.filter (fun (v : Inval) => dieOf v.core != d)
    tiles := s2.tiles.filter (fun e => decide (dieOf (e.1 / 64) ≠ d))
    badBuckets := s2.badBuckets.filter (fun b => decide (b / 2 ^ 16 ≠ d))
    deadChans := s2.deadChans.filter (fun k => decide (k / 192 ≠ d))
    lostFull := s2.lostFull.filter (fun e => decide (e.1 / 32 ≠ d))
    links := s2.links.filter (fun e => decide (e.1 / 16 ≠ d ∧ e.1 % 16 ≠ d))
    lostDies := s2.lostDies.filter (fun x => x != d)
    booting := drop s2.booting d
    boot := if d = 0 then { s2.boot with checked := [] } else s2.boot
    dieState := s2.dieState.set d 6 }

/-- Steps 2 to 4, once the capsules of the contexts ended are held (R432) and the die is quiet. -/
def goOnReset (s : State) (d : Nat) : State := if s.capDue.isEmpty && dieQuiet s d then resetDie s d else s

/-- WARM_RESET_DIE (R424): command 0x2B. Fencing and the steps up to state 6; DIE_STATE_CHANGE readmits the die. It waits while a capsule
is open (R432). -/
def execWarmResetDie (m : MbxMaster) (d : Nat) (force : Bool) (s : State) : Outcome :=
  command s m 0x2B [(0, argOf (d + bnat force * 2 ^ 8))] (fun s =>
    if dies s ≤ d then answerOpen s
    else if s.dieState.getD d 0 = 5 then
      let t := goOnReset s d
      if t.dieState.getD d 0 = 6 then answer t 0 [] else t
    else if s.dieState.getD d 0 = 6 then answer s 0 []
    else if capsuleOpen s then s
    else if !force && s.wgs.any (fun w => decide (dieOf w.core = d)) then answer s 2 []
    else fenceDie s d)

/-! ## Errors of the hardware (R378, R393, R395, R424) -/

/-- The RAS counter set of a storage number: a stack's for HBM, a die's for frames; none elsewhere (R395). -/
def rasKey (n : Nat) : Option Nat :=
  if n < 2 ^ 40 then some (2 * pageStack (n / 4096))
  else if Config.frameBase ≤ n ∧ n < Config.opBufBase then some (2 * keyDie ((n - Config.frameBase) / 4096) + 1)
  else none

/-- How command 0x23 names a unit (R395): its byte address in HBM; for a frame R33's fields, with bits 11:1 of the unit's offset in bits
52:42 (entry 95). -/
def rasName (n : Nat) : Nat :=
  if n < 2 ^ 40 then n / 32 * 32
  else
    let k := (n - Config.frameBase) / 4096
    keyDie k * 2 ^ 20 + keySel k * 2 ^ 24 + keyFrame k * 2 ^ 31 + n % 4096 / 32 * 16 * 2 ^ 42

/-- A unit marked poisoned, and counted where it was not (R393, R395). -/
def poisonUnit (s : State) (n : Nat) : State :=
  if s.poison.contains (n / 32) then s
  else
    let t := { s with poison := (n / 32) :: s.poison }
    match rasKey n with
    | none => t
    | some k => { t with rasPoisoned := change t.rasPoisoned k 0 (fun x => x + 1), rasLast := put t.rasLast k (rasName n) }

/-- An error of the hardware. A corrected unit is counted; nothing else comes of a correction (R378, R393). -/
def hwFault (s : State) : HwFault → State
  | .corrected n =>
    match rasKey n with
    | none => s
    | some k => { s with rasCorrected := change s.rasCorrected k 0 (fun x => x + 1) }
  | .uncorrectable n => poisonUnit s n
  | .sealWord k => if frameExists s k then modFrame s k (fun f => { f with damaged := true }) else s
  | .holderMask k => if frameExists s k then modFrame s k (fun f => { f with maskBad := true }) else s
  | .bucket b => { s with badBuckets := (b :: s.badBuckets).dedup }
  | .training k => if s.dieState.getD (k / 192) 0 = 6 then { s with deadChans := (k :: s.deadChans).dedup } else s

/-- The errors whose cycle has come, in their order. -/
def hardwareErrors (s : State) : State :=
  (s.hwErrors.filter (fun e => decide (e.cycle ≤ s.cycle))).foldl (fun t e => hwFault t e.what)
    { s with hwErrors := s.hwErrors.filter (fun e => decide (s.cycle < e.cycle)) }

/-! ## Power and heat (R333, R353, R431) -/

/-- One millisecond of the 3.3 GHz reference, in cycles (R346). -/
def millisecond : Nat := 3300000

/-- BYTECAP for a stack cap in tenths of a watt (R333): P × 1024 / 86.1696 W. -/
def byteCap (p : Nat) : Nat := min 0xFFFF (p * 1024000 / 861696)

/-- POWER_ARBITER_TICK (R333): die caps in watts, stack caps in tenths of a watt; together at most 5,600 W. Stacks in compatibility mode
get their BYTECAP. A forced VF 0 that is in force ends with the new caps (entry 29); one that a boundary has yet to bring is kept, and so is
that of a package that goes dark. -/
def execPowerArbiterTick (dieCaps stackCaps : List Nat) (s : State) : Outcome :=
  let sum (l : List Nat) : Nat := l.foldl (fun a b => a + b) 0
  if s.cycle % millisecond ≠ 0 ∨ dieCaps.length ≠ dies s ∨ stackCaps.length ≠ dies s ∨ 56000 < sum dieCaps * 10 + sum stackCaps then .next s
  else
    let cfg (t : Table Word) (i : Nat) : Table Word :=
      let v := hcfgOf s i
      if v.getLsbD 31 then put t i ((v &&& 0xFFFF0000) ||| BitVec.ofNat 32 (byteCap (stackCaps.getD i 0))) else t
    .next { s with
      dieCap := dieCaps, stackCap := stackCaps, hcfg := (List.range (dies s)).foldl cfg s.hcfg
      vfNext := if s.capDue.any (fun x => bit x.flags 0) then s.vfNext else s.vfNext.filter (fun e => e.2 != 2) }

/-- Whether a die is held at VF 0: by heat until it has cooled, by overdraw or a fatal event (0 in `vfNext` asks for it, 2 says that it is
in force), or in reduced service (R331, R431). -/
def heldAtZero (s : State) (d : Nat) : Bool :=
  (lookup s.hotSince d).isSome || s.vfNext.contains (d, 0) || s.vfNext.contains (d, 2) || decide (s.dieState.getD d 0 = 3)

/-- The cap that a hot die gets at a boundary: a lower one, of a value the manual does not state (entry 6). -/
def lowerCap (s : State) (d : Nat) : Nat :=
  let old := s.dieCap.getD d 0
  if s.vfNext.contains (d, 1) then (Config.freeWord (s.free + d)).toNat % (if old = 0 then 1 else old) else old

/-- A THROTTLE record on every core of a die (R348, R349): old and new state, the cap in watts, the cause. -/
def throttle (s : State) (d old new cause : Nat) : State :=
  (List.range 64).foldl (fun t i =>
    let r := (core t (64 * d + i)).rcd
    record t (64 * d + i) 10 r.lastThr r.lastPc (old + new * 2 ^ 8 + t.dieCap.getD d 0 % 2 ^ 16 * 2 ^ 16 + cause * 2 ^ 32)) s

/-- The highest state whose predicted power, from the activity that a die's controller saw, is under the die's cap (R333; entry 91); 0
where none is. -/
def underCap (s : State) (d act : Nat) : Nat :=
  ((List.range 12).reverse.find? (fun v => decide (Config.predictedPower d v act ≤ s.dieCap.getD d 0))).getD 0

/-- The state that a die takes at a boundary. -/
def nextVf (s : State) (act : List Nat) (d : Nat) : Nat := if heldAtZero s d then 0 else underCap s d (act.getD d 0)

/-- The states of all dies at a boundary, each change with its records (R353). -/
def changeVf (s : State) (vf : List Nat) : State :=
  (List.range (dies s)).foldl (fun t d =>
    let old := s.vf.getD d 0
    let new := nextVf s vf d
    if old = new then t
    else throttle { t with vf := t.vf.set d new } d old new (bnat ((lookup s.hotSince d).isSome || s.vfNext.contains (d, 1)))) s

/-- What a kind 30 stop does (R417, R418, R431): it is raised on a core without a thread, and a capsule is due. -/
def powerStop (s : State) (d cause flags : Nat) : State :=
  let c := 64 * d
  let due (t : State) (p : Option Stop) : CapsuleDue :=
    ⟨ctxId t, (match t.slice with | some x => x.desc.fn | none => 0), (match p with | some q => q.kind | none => 30),
      (match p with | some q => q.core | none => c), (match p with | some q => q.cycle | none => t.cycle), flags, mhalt t, false⟩
  if s.slice.isSome then
    let t := settle (raiseBare s 30 c 0 (d % 16 + cause * 16))
    { t with capDue := t.capDue ++ [due t t.stop] }
  else { s with capDue := s.capDue ++ [due s none] }

/-- Kind 30, cause 0 or 1: package-fatal. Every die goes to VF 0 at the next boundary, where the capsule is taken. -/
def fatalStop (s : State) (d cause : Nat) : State :=
  if s.capDue.any (fun x => bit x.flags 0) then s
  else
    let t := powerStop s d cause 1
    { t with vfNext := t.vfNext ++ (List.range (dies s)).map (fun i => (i, 0)) }

/-- What the junction readings of a window ask for (R431): at 115 °C or more VF 0 until the die has cooled; at 105 °C or more a lower cap;
a die that is held counts its cooling from the last reading of 105 °C or more. -/
def heat (s : State) (junction : List Nat) : State :=
  (List.range (dies s)).foldl (fun t d =>
    let j := junction.getD d 0
    let hot := decide (115 ≤ j) || ((lookup t.hotSince d).isSome && decide (105 ≤ j))
    let t1 := if hot then { t with hotSince := put t.hotSince d t.cycle } else t
    if 105 ≤ j then { t1 with vfNext := (t1.vfNext.filter (fun e => e != (d, 1))) ++ [(d, 1)] } else t1) s

/-- WINDOW_BOUNDARY (R63, R66, R353, R431): buckets and byte budgets are renewed, dies change state, junctions are read. `vf` gives the
activity from which each die's controller predicts its power, `junction` the readings in °C. DESIGN CHOICE (entry 106): R63 adds tokens at
the start of each window and gives T as 0 at reset; the window that begins with the reset, in cycle 0, adds none. -/
def execWindowBoundary (vf junction : List Nat) (s : State) : Outcome :=
  if s.cycle % 1024 ≠ 0 ∨ s.cycle = 0 ∨ s.lastWindow = s.cycle + 1 then .next s
  else
    let s1 := { openWindow s with lastWindow := s.cycle + 1, dieCap := (List.range (dies s)).map (lowerCap s), free := s.free + 16 }
    let s2 := changeVf s1 vf
    let s3 := heat { s2 with vfNext := ((s2.vfNext.filter (fun e => e.2 ≠ 1)).map (fun e => (e.1, 2))).dedup } junction
    match (List.range (dies s)).find? (fun d => decide (125 ≤ junction.getD d 0)) with
    | some d => .next (fatalStop s3 d 0)
    | none => .next s3

/-- THERMAL_COOLDOWN (R431): a die that has stayed below 105 °C for 1 ms is released. -/
def execThermalCooldown (d : Nat) (s : State) : Outcome :=
  match lookup s.hotSince d with
  | none => .next s
  | some t => .next (if t + millisecond ≤ s.cycle then { s with hotSince := drop s.hotSince d } else s)

/-- PACKAGE_OVERDRAW (R431): every die runs at VF 0 from the next boundary. -/
def execPackageOverdraw (s : State) : Outcome :=
  .next { s with vfNext := s.vfNext.filter (fun e => e.2 != 0) ++ (List.range (dies s)).map (fun i => (i, 0)) }

/-- COOLANT_LOSS (R431): kind 30, cause 1. -/
def execCoolantLoss (d : Nat) (s : State) : Outcome := if dies s ≤ d then .next s else .next (fatalStop s d 1)

/-- SUPPLY_FAULT (R431): kind 30, cause 2, on the die's core 0; then the hardware applies command 0x2B with FORCE, which a later event
of the kind carries on once the capsules are held. -/
def execSupplyFault (d : Nat) (s : State) : Outcome :=
  if dies s ≤ d then .next s
  else if s.dieState.getD d 0 = 5 then .next (goOnReset s d)
  else if capsuleOpen s ∨ s.dieState.getD d 0 = 6 then .next s
  else .next (fenceDie (powerStop s d 2 0) d)

/-! ## Links and ports (R426, R427) -/

/-- The key of a link between two dies, the lower first. -/
def linkKey (a b : Nat) : Nat := min a b * 16 + max a b

/-- Whether two dies are neighbours in the arrangement of rows of four: 4 × 4, or 2 × 4 on a Z9-8 (R3, R4). -/
def adjacent (s : State) (a b : Nat) : Bool :=
  decide (a < dies s ∧ b < dies s) &&
  ((decide (a / 4 = b / 4) && decide (a % 4 + 1 = b % 4 ∨ b % 4 + 1 = a % 4)) ||
   (decide (a % 4 = b % 4) && decide (a / 4 + 1 = b / 4 ∨ b / 4 + 1 = a / 4)))

/-- FLIT_CRC_ERROR (R426): a link-level retry; nothing else changes. -/
def execFlitCrcError (_a _b : Nat) (s : State) : Outcome := .next s

/-- One event counted in a die's RAS counters (R426; entry 30). -/
def countRas (s : State) (d : Nat) : State := { s with rasCorrected := change s.rasCorrected (2 * d + 1) 0 (fun n => n + 1) }

/-- LINK_LANE_FAILURE (R426): repaired onto a spare lane without loss, or the link goes to half width and the event is counted. -/
def execLinkLaneFailure (a b : Nat) (spares : Bool) (s : State) : Outcome :=
  if spares ∨ !adjacent s a b then .next s
  else
    let t := match lookup s.links (linkKey a b) with
      | some x => if x.st = 0 then { s with links := put s.links (linkKey a b) ⟨1, s.cycle⟩ } else s
      | none => { s with links := put s.links (linkKey a b) ⟨1, s.cycle⟩ }
    .next (countRas (countRas t a) b)

/-- LINK_DOWN (R426): a retrain that succeeds leaves the link up; otherwise traffic goes round it from now on. -/
def execLinkDown (a b : Nat) (retrained : Bool) (s : State) : Outcome :=
  if retrained ∨ !adjacent s a b then .next s
  else match lookup s.links (linkKey a b) with
    | some x => .next (if x.st = 2 then s else { s with links := put s.links (linkKey a b) ⟨2, s.cycle⟩ })
    | none => .next { s with links := put s.links (linkKey a b) ⟨2, s.cycle⟩ }

/-- LINK_COMES_BACK (R426): traffic returns to the link. -/
def execLinkComesBack (a b : Nat) (s : State) : Outcome := .next { s with links := drop s.links (linkKey a b) }

/-- Whether every link of a die has been down for 1 ms. -/
def cutOff (s : State) (d : Nat) : Bool :=
  ((List.range (dies s)).filter (adjacent s d)).all (fun b =>
    match lookup s.links (linkKey d b) with | some x => decide (x.st = 2) && decide (x.since + millisecond ≤ s.cycle) | none => false)

/-- The capsule of a die lost while a context runs (R418): its sections are incomplete. -/
def lostCapsule (s : State) (c : Nat) : State :=
  match s.slice with
  | none => s
  | some x =>
    { s with capDue := s.capDue ++ [⟨x.desc.ctx, x.desc.fn, (match s.stop with | some p => p.kind | none => 29),
      (match s.stop with | some p => p.core | none => c), (match s.stop with | some p => p.cycle | none => s.cycle), 2, mhalt s, false⟩] }

/-- DIE_LOST (R426): the die enters state 0, its accesses raise kind 29, and a running context with workgroups on it stops on core 0 of
the lowest die that is left. -/
def execDieLost (d : Nat) (s : State) : Outcome :=
  if dies s ≤ d ∨ s.lostDies.contains d ∨ s.dieState.getD d 0 = 0 ∨ !cutOff s d then .next s
  else
    let s1 := { s with
      dieState := s.dieState.set d 0, lostDies := d :: s.lostDies, booting := drop s.booting d
      hwrites := s.hwrites.filter (fun (w : HWrite) => pageStack w.page != d) }
    let s2 := lostStop s1 (firstCore s1)
    .next (lostCapsule (if s2.stop.isSome then settle s2 else s2) (firstCore s1))

/-- FABRIC_PORT_FAILURE (R427): partial chunks are discarded and replayed. The part has 36 ports (R2). -/
def execFabricPortFailure (p : Nat) (s : State) : Outcome :=
  .next (if 36 ≤ p then s else replayChunks (if (lookup s.ports p).isSome then s else { s with ports := put s.ports p s.cycle }))

/-- PORT_REMOVED_FROM_TREE (R426): a port that has been down for 1 ms leaves every group's tree. -/
def execPortRemovedFromTree (p : Nat) (s : State) : Outcome :=
  match lookup s.ports p with
  | none => .next s
  | some t => .next (if p < 36 ∧ t + millisecond ≤ s.cycle then { s with portsOut := (p :: s.portsOut).dedup } else s)

/-! ## Loss of power and function-level reset (R419) -/

/-- POWER_LOSS (R419): capsule slots and all volatile state are lost; retention storage keeps BOOTADDR, SEQ and the summaries. The
package stays off until PACKAGE_RESET. -/
def execPowerLoss (s : State) : Outcome :=
  let t := afterReset s
  .next { t with
    mem := t.mem.filter (fun e => decide (2 ^ 40 ≤ e.1))
    poison := t.poison.filter (fun u => decide (2 ^ 35 ≤ u))
    lost := [], lostFull := []
    cipher := t.cipher.filter (fun e => decide (2 ^ 36 ≤ e.1))
    capsules := [⟨0, 0, 0⟩, ⟨0, 0, 0⟩]
    bootNo := s.bootNo, powered := false }

/-- FUNCTION_LEVEL_RESET (R419): the capsule slots survive it; the manual gives it no other effect on the part. -/
def execFunctionLevelReset (_fn : Nat) (s : State) : Outcome := .next s

end Sys2Proof.Machine
end

