-- ==== Sys2Proof/Machine/Float.lean ====
section
/-!
DEFINITION. Machine/Float.lean: scalar, packed, conversion, transcendental and fused floating instructions (chapter 09).
-/
namespace Sys2Proof.Machine

/-! ## Scalar operands and results (R185) -/

def un (f : Fmt) (g : Nat → Nat) (a : Word) : Word := BitVec.ofNat 32 (g (scalar f a))
def bin (f : Fmt) (g : Nat → Nat → Nat) (a b : Word) : Word := BitVec.ofNat 32 (g (scalar f a) (scalar f b))
def tri (f : Fmt) (g : Nat → Nat → Nat → Nat) (a b c : Word) : Word :=
  BitVec.ofNat 32 (g (scalar f a) (scalar f b) (scalar f c))
/-- FSET (R189). -/
def fset (f : Fmt) (c : FCond) (a b : Word) : Word := if fcondHolds f c (scalar f a) (scalar f b) then 1 else 0
/-- PACK (R194): element 0 from A, element 1 from B. -/
def packPair (f : Fmt) (a b : Word) : Word :=
  BitVec.ofNat 32 (fcvt fp32 f .rn a.toNat + fcvt fp32 f .rn b.toNat * 2 ^ 16)

/-! ## Scalar arithmetic (R186 to R190) -/

/-- round(A + B, mode) (R186). -/
def execFaddF32 (m : Rnd) (d : BitVec 4) (b a : Src) (s : State) : Outcome :=
  alu2 s 4 d b a (bin fp32 (fadd fp32 m))

/-- round(A − B, mode) (R186). -/
def execFsubF32 (m : Rnd) (d : BitVec 4) (b a : Src) (s : State) : Outcome :=
  alu2 s 4 d b a (bin fp32 (fsub fp32 m))

/-- round(A × B, mode) (R186). -/
def execFmulF32 (m : Rnd) (d : BitVec 4) (b a : Src) (s : State) : Outcome :=
  alu2 s 4 d b a (bin fp32 (fmul fp32 m))

/-- The smaller operand (R187). -/
def execFminF32 (d : BitVec 4) (b a : Src) (s : State) : Outcome :=
  alu2 s 4 d b a (bin fp32 (fmin fp32))

/-- The larger operand (R187). -/
def execFmaxF32 (d : BitVec 4) (b a : Src) (s : State) : Outcome :=
  alu2 s 4 d b a (bin fp32 (fmax fp32))

/-- The sign bit cleared (R188). -/
def execFabsF32 (d : BitVec 4) (a : Src) (s : State) : Outcome :=
  alu1 s 4 d a (un fp32 (fabs fp32))

/-- The sign bit inverted (R188). -/
def execFnegF32 (d : BitVec 4) (a : Src) (s : State) : Outcome :=
  alu1 s 4 d a (un fp32 (fneg fp32))

/-- 1 when the condition holds, else 0 (R189). -/
def execFsetF32 (c : FCond) (d : BitVec 4) (b a : Src) (s : State) : Outcome :=
  alu2 s 4 d b a (fset fp32 c)

/-- A rounded to an integral value (R190). -/
def execFrndF32 (m : Rnd) (d : BitVec 4) (a : Src) (s : State) : Outcome :=
  alu1 s 4 d a (un fp32 (frnd fp32 m))

/-- round(A + B, mode) (R186). -/
def execFaddF16 (m : Rnd) (d : BitVec 4) (b a : Src) (s : State) : Outcome :=
  alu2 s 4 d b a (bin fp16 (fadd fp16 m))

/-- round(A − B, mode) (R186). -/
def execFsubF16 (m : Rnd) (d : BitVec 4) (b a : Src) (s : State) : Outcome :=
  alu2 s 4 d b a (bin fp16 (fsub fp16 m))

/-- round(A × B, mode) (R186). -/
def execFmulF16 (m : Rnd) (d : BitVec 4) (b a : Src) (s : State) : Outcome :=
  alu2 s 4 d b a (bin fp16 (fmul fp16 m))

/-- The smaller operand (R187). -/
def execFminF16 (d : BitVec 4) (b a : Src) (s : State) : Outcome :=
  alu2 s 4 d b a (bin fp16 (fmin fp16))

/-- The larger operand (R187). -/
def execFmaxF16 (d : BitVec 4) (b a : Src) (s : State) : Outcome :=
  alu2 s 4 d b a (bin fp16 (fmax fp16))

/-- The sign bit cleared (R188). -/
def execFabsF16 (d : BitVec 4) (a : Src) (s : State) : Outcome :=
  alu1 s 4 d a (un fp16 (fabs fp16))

/-- The sign bit inverted (R188). -/
def execFnegF16 (d : BitVec 4) (a : Src) (s : State) : Outcome :=
  alu1 s 4 d a (un fp16 (fneg fp16))

/-- 1 when the condition holds, else 0 (R189). -/
def execFsetF16 (c : FCond) (d : BitVec 4) (b a : Src) (s : State) : Outcome :=
  alu2 s 4 d b a (fset fp16 c)

/-- A rounded to an integral value (R190). -/
def execFrndF16 (m : Rnd) (d : BitVec 4) (a : Src) (s : State) : Outcome :=
  alu1 s 4 d a (un fp16 (frnd fp16 m))

/-! ## Packed arithmetic (R192) -/

/-- Packed addition (R192). -/
def execFaddBf16x2 (m : Rnd) (d : BitVec 4) (b a : Src) (s : State) : Outcome :=
  alu2 s 4 d b a (packed2 (fadd bf16 m))

/-- Packed multiplication (R192). -/
def execFmulBf16x2 (m : Rnd) (d : BitVec 4) (b a : Src) (s : State) : Outcome :=
  alu2 s 4 d b a (packed2 (fmul bf16 m))

/-- Packed minimum (R192). -/
def execFminBf16x2 (d : BitVec 4) (b a : Src) (s : State) : Outcome :=
  alu2 s 4 d b a (packed2 (fmin bf16))

/-- Packed maximum (R192). -/
def execFmaxBf16x2 (d : BitVec 4) (b a : Src) (s : State) : Outcome :=
  alu2 s 4 d b a (packed2 (fmax bf16))

/-- Packed addition (R192). -/
def execFaddF16x2 (m : Rnd) (d : BitVec 4) (b a : Src) (s : State) : Outcome :=
  alu2 s 4 d b a (packed2 (fadd fp16 m))

/-- Packed multiplication (R192). -/
def execFmulF16x2 (m : Rnd) (d : BitVec 4) (b a : Src) (s : State) : Outcome :=
  alu2 s 4 d b a (packed2 (fmul fp16 m))

/-- Packed minimum (R192). -/
def execFminF16x2 (d : BitVec 4) (b a : Src) (s : State) : Outcome :=
  alu2 s 4 d b a (packed2 (fmin fp16))

/-- Packed maximum (R192). -/
def execFmaxF16x2 (d : BitVec 4) (b a : Src) (s : State) : Outcome :=
  alu2 s 4 d b a (packed2 (fmax fp16))

/-! ## Conversions (R193, R194) -/

/-- A converted in the mode (R193). -/
def execCvtF16F32 (m : Rnd) (d : BitVec 4) (a : Src) (s : State) : Outcome :=
  alu1 s 4 d a (un fp32 (fcvt fp32 fp16 m))

/-- A converted in the mode (R193). -/
def execCvtBf16F32 (m : Rnd) (d : BitVec 4) (a : Src) (s : State) : Outcome :=
  alu1 s 4 d a (un fp32 (fcvt fp32 bf16 m))

/-- A converted in the mode (R193). -/
def execCvtBf16F16 (m : Rnd) (d : BitVec 4) (a : Src) (s : State) : Outcome :=
  alu1 s 4 d a (un fp16 (fcvt fp16 bf16 m))

/-- A converted in the mode (R193). -/
def execCvtF16Bf16 (m : Rnd) (d : BitVec 4) (a : Src) (s : State) : Outcome :=
  alu1 s 4 d a (un bf16 (fcvt bf16 fp16 m))

/-- A widened exactly (R193). -/
def execCvtF32F16 (d : BitVec 4) (a : Src) (s : State) : Outcome :=
  alu1 s 4 d a (un fp16 (fcvt fp16 fp32 .rn))

/-- A widened exactly (R193). -/
def execCvtF32Bf16 (d : BitVec 4) (a : Src) (s : State) : Outcome :=
  alu1 s 4 d a (un bf16 (fcvt bf16 fp32 .rn))

/-- A and B rounded to BF16 and packed (R194). -/
def execPackBf16x2F32 (d : BitVec 4) (b a : Src) (s : State) : Outcome :=
  alu2 s 4 d b a (packPair bf16)

/-- A and B rounded to FP16 and packed (R194). -/
def execPackF16x2F32 (d : BitVec 4) (b a : Src) (s : State) : Outcome :=
  alu2 s 4 d b a (packPair fp16)

/-- A as an integer of the type, saturated (R193). -/
def execCvtIntF32 (m : Rnd) (d : BitVec 4) (t : IntTy) (a : Src) (s : State) : Outcome :=
  alu1 s 4 d a (fun x => floatToInt fp32 m t (scalar fp32 x))

/-- A as an integer of the type, saturated (R193). -/
def execCvtIntF16 (m : Rnd) (d : BitVec 4) (t : IntTy) (a : Src) (s : State) : Outcome :=
  alu1 s 4 d a (fun x => floatToInt fp16 m t (scalar fp16 x))

/-- A as an integer of the type, saturated (R193). -/
def execCvtIntBf16 (m : Rnd) (d : BitVec 4) (t : IntTy) (a : Src) (s : State) : Outcome :=
  alu1 s 4 d a (fun x => floatToInt bf16 m t (scalar bf16 x))

/-- An integer of the type as a floating value (R193). -/
def execCvtF32Int (m : Rnd) (d : BitVec 4) (t : IntTy) (a : Src) (s : State) : Outcome :=
  alu1 s 4 d a (fun x => BitVec.ofNat 32 (intToFloat fp32 m t x))

/-- An integer of the type as a floating value (R193). -/
def execCvtF16Int (m : Rnd) (d : BitVec 4) (t : IntTy) (a : Src) (s : State) : Outcome :=
  alu1 s 4 d a (fun x => BitVec.ofNat 32 (intToFloat fp16 m t x))

/-- An integer of the type as a floating value (R193). -/
def execCvtBf16Int (m : Rnd) (d : BitVec 4) (t : IntTy) (a : Src) (s : State) : Outcome :=
  alu1 s 4 d a (fun x => BitVec.ofNat 32 (intToFloat bf16 m t x))

/-! ## Transcendental forms (R195) -/

/-- The function of R120 for A (R195). -/
def execRcpF32 (d : BitVec 4) (a : Src) (s : State) : Outcome :=
  alu1 s 12 d a (un fp32 (rcp fp32 0))

/-- The function of R120 for A (R195). -/
def execRsqF32 (d : BitVec 4) (a : Src) (s : State) : Outcome :=
  alu1 s 12 d a (un fp32 (rsq fp32 1))

/-- The function of R120 for A (R195). -/
def execSqrtF32 (d : BitVec 4) (a : Src) (s : State) : Outcome :=
  alu1 s 20 d a (un fp32 (sqrt fp32 2))

/-- The function of R120 for A (R195). -/
def execEx2F32 (d : BitVec 4) (a : Src) (s : State) : Outcome :=
  alu1 s 12 d a (un fp32 (ex2 fp32 3))

/-- The function of R120 for A (R195). -/
def execLg2F32 (d : BitVec 4) (a : Src) (s : State) : Outcome :=
  alu1 s 12 d a (un fp32 (lg2 fp32 4))

/-- The function of R120 and R121 for A (R195). -/
def execSinF32 (d : BitVec 4) (a : Src) (s : State) : Outcome :=
  alu1 s 24 d a (un fp32 (trig fp32 false 5))

/-- The function of R120 and R121 for A (R195). -/
def execCosF32 (d : BitVec 4) (a : Src) (s : State) : Outcome :=
  alu1 s 24 d a (un fp32 (trig fp32 true 6))

/-- The function of R120 for A (R195). -/
def execRcpF16 (d : BitVec 4) (a : Src) (s : State) : Outcome :=
  alu1 s 12 d a (un fp16 (rcp fp16 8))

/-- The function of R120 for A (R195). -/
def execRsqF16 (d : BitVec 4) (a : Src) (s : State) : Outcome :=
  alu1 s 12 d a (un fp16 (rsq fp16 9))

/-- The function of R120 for A (R195). -/
def execSqrtF16 (d : BitVec 4) (a : Src) (s : State) : Outcome :=
  alu1 s 20 d a (un fp16 (sqrt fp16 10))

/-- The function of R120 for A (R195). -/
def execEx2F16 (d : BitVec 4) (a : Src) (s : State) : Outcome :=
  alu1 s 12 d a (un fp16 (ex2 fp16 11))

/-- The function of R120 for A (R195). -/
def execLg2F16 (d : BitVec 4) (a : Src) (s : State) : Outcome :=
  alu1 s 12 d a (un fp16 (lg2 fp16 12))

/-- The function of R120 and R121 for A (R195). -/
def execSinF16 (d : BitVec 4) (a : Src) (s : State) : Outcome :=
  alu1 s 24 d a (un fp16 (trig fp16 false 13))

/-- The function of R120 and R121 for A (R195). -/
def execCosF16 (d : BitVec 4) (a : Src) (s : State) : Outcome :=
  alu1 s 24 d a (un fp16 (trig fp16 true 14))

/-! ## Fused forms (R191) -/

/-- round(A × B + C, rn) (R191). -/
def execFmaF32 (d : BitVec 4) (c : BitVec 5) (b a : Src) (s : State) : Outcome :=
  alu3 s 4 d c b a (tri fp32 (ffma fp32))

/-- round(A × B − C, rn) (R191). -/
def execFmsF32 (d : BitVec 4) (c : BitVec 5) (b a : Src) (s : State) : Outcome :=
  alu3 s 4 d c b a (tri fp32 (ffms fp32))

/-- round(A × B + C, rn) in FP16 (R191). -/
def execFmaF16 (d : BitVec 4) (c : BitVec 5) (b a : Src) (s : State) : Outcome :=
  alu3 s 4 d c b a (tri fp16 (ffma fp16))

/-- Packed BF16 fused multiply-add (R191). -/
def execFmaBf16x2 (d : BitVec 4) (c : BitVec 5) (b a : Src) (s : State) : Outcome :=
  alu3 s 4 d c b a (packed3 (ffma bf16))

/-- Packed FP16 fused multiply-add (R191). -/
def execFmaF16x2 (d : BitVec 4) (c : BitVec 5) (b a : Src) (s : State) : Outcome :=
  alu3 s 4 d c b a (packed3 (ffma fp16))

end Sys2Proof.Machine
end

