-- ==== Sys2Proof/Machine/Integer.lean ====
section
/-!
DEFINITION. Machine/Integer.lean: integer, logic, compare and address instructions (chapter 08): the value each form
computes, and its meaning.
-/
namespace Sys2Proof.Machine

/-! ## What the forms compute -/

/-- sat of R110 for a 32-bit result. -/
def satS (x : Int) : Word := BitVec.ofInt 32 (sat .s32 x)
def satZ (x : Int) : Word := BitVec.ofInt 32 (sat .z32 x)
def satAddS (a b : Word) : Word := satS (a.toInt + b.toInt)
def satAddZ (a b : Word) : Word := satZ (a.toNat + b.toNat : Nat)
def satSubS (a b : Word) : Word := satS (a.toInt - b.toInt)
def satSubZ (a b : Word) : Word := satZ ((a.toNat : Int) - (b.toNat : Int))
/-- The exact products of R166. -/
def mulWideS (a b : Word) : DWord := BitVec.ofInt 64 (a.toInt * b.toInt)
def mulWideZ (a b : Word) : DWord := BitVec.ofNat 64 (a.toNat * b.toNat)
def mulHiS (a b : Word) : Word := (mulWideS a b).extractLsb' 32 32
def mulHiZ (a b : Word) : Word := (mulWideZ a b).extractLsb' 32 32
def minS (a b : Word) : Word := if a.toInt < b.toInt then a else b
def maxS (a b : Word) : Word := if b.toInt < a.toInt then a else b
def minZ (a b : Word) : Word := if a.toNat < b.toNat then a else b
def maxZ (a b : Word) : Word := if b.toNat < a.toNat then a else b
def absS (a : Word) : Word := if a.toInt < 0 then -a else a
/-- Division (R167). -/
def divS (a b : Word) : Word :=
  if b = 0 then BitVec.allOnes 32 else BitVec.ofInt 32 (a.toInt.tdiv b.toInt)
def divZ (a b : Word) : Word := if b = 0 then BitVec.allOnes 32 else BitVec.ofNat 32 (a.toNat / b.toNat)
def remS (a b : Word) : Word := if b = 0 then a else BitVec.ofInt 32 (a.toInt.tmod b.toInt)
def remZ (a b : Word) : Word := if b = 0 then a else BitVec.ofNat 32 (a.toNat % b.toNat)
/-- Shifts (R170): an amount of the width or more empties the word. -/
def shl32 (a b : Word) : Word := if 32 ≤ b.toNat then 0 else a <<< b.toNat
def shrZ32 (a b : Word) : Word := if 32 ≤ b.toNat then 0 else a >>> b.toNat
def shrS32 (a b : Word) : Word :=
  if 32 ≤ b.toNat then (if a.toInt < 0 then BitVec.allOnes 32 else 0) else a.sshiftRight b.toNat
def rol32 (a b : Word) : Word :=
  let k := b.toNat % 32
  (a <<< k) ||| (a >>> (32 - k))
def shl64 (a : DWord) (b : Word) : DWord := if 64 ≤ b.toNat then 0 else a <<< b.toNat
def shrZ64 (a : DWord) (b : Word) : DWord := if 64 ≤ b.toNat then 0 else a >>> b.toNat
def shrS64 (a : DWord) (b : Word) : DWord :=
  if 64 ≤ b.toNat then (if a.toInt < 0 then BitVec.allOnes 64 else 0) else a.sshiftRight b.toNat
/-- Bit counts (R171). -/
def popCount (a : Word) : Word := BitVec.ofNat 32 (lanesOf a).length
def leadingZeros (a : Word) : Word :=
  BitVec.ofNat 32 (((List.range 32).reverse.takeWhile (fun i => !a.getLsbD i)).length)
def trailingZeros (a : Word) : Word := BitVec.ofNat 32 (((List.range 32).takeWhile (fun i => !a.getLsbD i)).length)
def reverseBits (a : Word) : Word := maskOf ((lanesOf a).map (fun i => 31 - i))
/-- The position and width of a field (R172). -/
def fieldPos (b : Word) : Nat := b.toNat % 32
def fieldLen (b : Word) : Nat := min (bits b.toNat 13 8) (32 - fieldPos b)
def fieldZ (a b : Word) : Word := BitVec.ofNat 32 (a.toNat / 2 ^ fieldPos b % 2 ^ fieldLen b)
def fieldS (a b : Word) : Word :=
  if fieldLen b = 0 then 0 else BitVec.ofInt 32 (toInt (fieldLen b) (a.toNat / 2 ^ fieldPos b))

/-- The ten conditions of ISET (R173). -/
inductive ICond where
  | eq | ne | ltS | leS | gtS | geS | ltZ | leZ | gtZ | geZ
deriving DecidableEq, Repr

def icondHolds (c : ICond) (a b : Word) : Bool :=
  match c with
  | .eq => decide (a = b)
  | .ne => decide (a ≠ b)
  | .ltS => decide (a.toInt < b.toInt)
  | .leS => decide (a.toInt ≤ b.toInt)
  | .gtS => decide (b.toInt < a.toInt)
  | .geS => decide (b.toInt ≤ a.toInt)
  | .ltZ => decide (a.toNat < b.toNat)
  | .leZ => decide (a.toNat ≤ b.toNat)
  | .gtZ => decide (b.toNat < a.toNat)
  | .geZ => decide (b.toNat ≤ a.toNat)

def iset (c : ICond) (a b : Word) : Word := if icondHolds c a b then 1 else 0
/-- ADR (R177). -/
def adrOf (hdr : Nat) (i : BitVec 11) : Word := BitVec.ofInt 32 ((hdr : Int) + 4 * i.toInt)
/-- CONSTHI (R176). -/
def constHi (i : BitVec 24) : Word := BitVec.ofNat 32 (i.toNat * 256)
/-- IMAD (R179). -/
def madS (a b c : Word) : Word := satS (a.toInt * b.toInt + c.toInt)
def madZ (a b c : Word) : Word := satZ (a.toNat * b.toNat + c.toNat : Nat)

/-! ## Addition, subtraction, multiplication (R166) -/

/-- wrap32(A + B) (R166). -/
def execAddS32 (d : BitVec 4) (b a : Src) (s : State) : Outcome :=
  alu2 s 4 d b a (· + ·)

/-- sat(A.s + B.s, s32) (R166). -/
def execAddS32Sat (d : BitVec 4) (b a : Src) (s : State) : Outcome :=
  alu2 s 4 d b a satAddS

/-- sat(A.z + B.z, z32) (R166). -/
def execAddZ32Sat (d : BitVec 4) (b a : Src) (s : State) : Outcome :=
  alu2 s 4 d b a satAddZ

/-- wrap32(A − B) (R166). -/
def execSubS32 (d : BitVec 4) (b a : Src) (s : State) : Outcome :=
  alu2 s 4 d b a (· - ·)

/-- sat(A.s − B.s, s32) (R166). -/
def execSubS32Sat (d : BitVec 4) (b a : Src) (s : State) : Outcome :=
  alu2 s 4 d b a satSubS

/-- sat(A.z − B.z, z32) (R166). -/
def execSubZ32Sat (d : BitVec 4) (b a : Src) (s : State) : Outcome :=
  alu2 s 4 d b a satSubZ

/-- wrap32(A.s × B.s) (R166). -/
def execMulS32 (d : BitVec 4) (b a : Src) (s : State) : Outcome :=
  alu2 s 8 d b a (· * ·)

/-- Bits 63:32 of A.s × B.s (R166). -/
def execMulhiS32 (d : BitVec 4) (b a : Src) (s : State) : Outcome :=
  alu2 s 8 d b a mulHiS

/-- Bits 63:32 of A.z × B.z (R166). -/
def execMulhiZ32 (d : BitVec 4) (b a : Src) (s : State) : Outcome :=
  alu2 s 8 d b a mulHiZ

/-! ## Minimum, maximum, absolute value, negation, move (R168) -/

/-- min(A.s, B.s) (R168). -/
def execMinS32 (d : BitVec 4) (b a : Src) (s : State) : Outcome :=
  alu2 s 4 d b a minS

/-- max(A.s, B.s) (R168). -/
def execMaxS32 (d : BitVec 4) (b a : Src) (s : State) : Outcome :=
  alu2 s 4 d b a maxS

/-- min(A.z, B.z) (R168). -/
def execMinZ32 (d : BitVec 4) (b a : Src) (s : State) : Outcome :=
  alu2 s 4 d b a minZ

/-- max(A.z, B.z) (R168). -/
def execMaxZ32 (d : BitVec 4) (b a : Src) (s : State) : Outcome :=
  alu2 s 4 d b a maxZ

/-- wrap32(|A.s|) (R168). -/
def execAbsS32 (d : BitVec 4) (a : Src) (s : State) : Outcome :=
  alu1 s 4 d a absS

/-- wrap32(−A.s) (R168). -/
def execNegS32 (d : BitVec 4) (a : Src) (s : State) : Outcome :=
  alu1 s 4 d a (- ·)

/-- A, through its pattern (R168). -/
def execMovB32 (d : BitVec 4) (a : Src) (s : State) : Outcome :=
  alu1 s 4 d a id

/-! ## Logic (R169) -/

/-- A and B (R169). -/
def execAndB32 (d : BitVec 4) (b a : Src) (s : State) : Outcome :=
  alu2 s 4 d b a (· &&& ·)

/-- A or B (R169). -/
def execOrB32 (d : BitVec 4) (b a : Src) (s : State) : Outcome :=
  alu2 s 4 d b a (· ||| ·)

/-- A xor B (R169). -/
def execXorB32 (d : BitVec 4) (b a : Src) (s : State) : Outcome :=
  alu2 s 4 d b a (· ^^^ ·)

/-- A and not B (R169). -/
def execAndnB32 (d : BitVec 4) (b a : Src) (s : State) : Outcome :=
  alu2 s 4 d b a (fun x y => x &&& ~~~y)

/-- not A (R169). -/
def execNotB32 (d : BitVec 4) (a : Src) (s : State) : Outcome :=
  alu1 s 4 d a (~~~ ·)

/-! ## 64-bit results (R166) -/

/-- A64 + B64 modulo 2^64 (R166). -/
def execAddB64 (d : BitVec 4) (b a : Src) (s : State) : Outcome :=
  alu64 s 4 d b a (· + ·)

/-- A64 − B64 modulo 2^64 (R166). -/
def execSubB64 (d : BitVec 4) (b a : Src) (s : State) : Outcome :=
  alu64 s 4 d b a (· - ·)

/-- The exact A.s × B.s in 64 bits (R166). -/
def execMulwS32 (d : BitVec 4) (b a : Src) (s : State) : Outcome :=
  aluWide s 8 d b a mulWideS

/-- The exact A.z × B.z in 64 bits (R166). -/
def execMulwZ32 (d : BitVec 4) (b a : Src) (s : State) : Outcome :=
  aluWide s 8 d b a mulWideZ

/-! ## Division (R167) -/

/-- Signed quotient toward zero (R167). -/
def execDivS32 (d : BitVec 4) (b a : Src) (s : State) : Outcome :=
  alu2 s 36 d b a divS

/-- Unsigned quotient (R167). -/
def execDivZ32 (d : BitVec 4) (b a : Src) (s : State) : Outcome :=
  alu2 s 36 d b a divZ

/-- Signed remainder with the sign of the dividend (R167). -/
def execRemS32 (d : BitVec 4) (b a : Src) (s : State) : Outcome :=
  alu2 s 36 d b a remS

/-- Unsigned remainder (R167). -/
def execRemZ32 (d : BitVec 4) (b a : Src) (s : State) : Outcome :=
  alu2 s 36 d b a remZ

/-! ## Shifts and rotation (R170) -/

/-- A shifted left (R170). -/
def execShlB32 (d : BitVec 4) (b a : Src) (s : State) : Outcome :=
  alu2 s 4 d b a shl32

/-- A shifted right, zeros in (R170). -/
def execShrZ32 (d : BitVec 4) (b a : Src) (s : State) : Outcome :=
  alu2 s 4 d b a shrZ32

/-- A shifted right, sign in (R170). -/
def execShrS32 (d : BitVec 4) (b a : Src) (s : State) : Outcome :=
  alu2 s 4 d b a shrS32

/-- A rotated left (R170). -/
def execRolB32 (d : BitVec 4) (b a : Src) (s : State) : Outcome :=
  alu2 s 4 d b a rol32

/-- A64 shifted left (R170). -/
def execShlB64 (d : BitVec 4) (b a : Src) (s : State) : Outcome :=
  aluShift64 s 4 d b a shl64

/-- A64 shifted right, zeros in (R170). -/
def execShrZ64 (d : BitVec 4) (b a : Src) (s : State) : Outcome :=
  aluShift64 s 4 d b a shrZ64

/-- A64 shifted right, sign in (R170). -/
def execShrS64 (d : BitVec 4) (b a : Src) (s : State) : Outcome :=
  aluShift64 s 4 d b a shrS64

/-! ## Bit counts and fields (R171, R172) -/

/-- The number of 1 bits (R171). -/
def execPopcB32 (d : BitVec 4) (a : Src) (s : State) : Outcome :=
  alu1 s 4 d a popCount

/-- The number of leading zeros (R171). -/
def execClzB32 (d : BitVec 4) (a : Src) (s : State) : Outcome :=
  alu1 s 4 d a leadingZeros

/-- The number of trailing zeros (R171). -/
def execCtzB32 (d : BitVec 4) (a : Src) (s : State) : Outcome :=
  alu1 s 4 d a trailingZeros

/-- The bits reversed (R171). -/
def execBrevB32 (d : BitVec 4) (a : Src) (s : State) : Outcome :=
  alu1 s 4 d a reverseBits

/-- A field of A, sign-extended (R172). -/
def execBfxS32 (d : BitVec 4) (b a : Src) (s : State) : Outcome :=
  alu2 s 4 d b a fieldS

/-- A field of A, zero-extended (R172). -/
def execBfxZ32 (d : BitVec 4) (b a : Src) (s : State) : Outcome :=
  alu2 s 4 d b a fieldZ

/-! ## Compare and select (R173, R174) -/

/-- 1 when A = B, else 0 (R173). -/
def execIsetEqB32 (d : BitVec 4) (b a : Src) (s : State) : Outcome :=
  alu2 s 4 d b a (iset .eq)

/-- 1 when A ≠ B, else 0 (R173). -/
def execIsetNeB32 (d : BitVec 4) (b a : Src) (s : State) : Outcome :=
  alu2 s 4 d b a (iset .ne)

/-- 1 when A.s < B.s, else 0 (R173). -/
def execIsetLtS32 (d : BitVec 4) (b a : Src) (s : State) : Outcome :=
  alu2 s 4 d b a (iset .ltS)

/-- 1 when A.s ≤ B.s, else 0 (R173). -/
def execIsetLeS32 (d : BitVec 4) (b a : Src) (s : State) : Outcome :=
  alu2 s 4 d b a (iset .leS)

/-- 1 when A.s > B.s, else 0 (R173). -/
def execIsetGtS32 (d : BitVec 4) (b a : Src) (s : State) : Outcome :=
  alu2 s 4 d b a (iset .gtS)

/-- 1 when A.s ≥ B.s, else 0 (R173). -/
def execIsetGeS32 (d : BitVec 4) (b a : Src) (s : State) : Outcome :=
  alu2 s 4 d b a (iset .geS)

/-- 1 when A.z < B.z, else 0 (R173). -/
def execIsetLtZ32 (d : BitVec 4) (b a : Src) (s : State) : Outcome :=
  alu2 s 4 d b a (iset .ltZ)

/-- 1 when A.z ≤ B.z, else 0 (R173). -/
def execIsetLeZ32 (d : BitVec 4) (b a : Src) (s : State) : Outcome :=
  alu2 s 4 d b a (iset .leZ)

/-- 1 when A.z > B.z, else 0 (R173). -/
def execIsetGtZ32 (d : BitVec 4) (b a : Src) (s : State) : Outcome :=
  alu2 s 4 d b a (iset .gtZ)

/-- 1 when A.z ≥ B.z, else 0 (R173). -/
def execIsetGeZ32 (d : BitVec 4) (b a : Src) (s : State) : Outcome :=
  alu2 s 4 d b a (iset .geZ)

/-- A when the thread's own Q[1] is not zero, else B (R174). -/
def execSelB32 (d : BitVec 4) (b a : Src) (s : State) : Outcome :=
  .next (aluWord s 4 1 d (fun u l =>
    (readAge (thread u.f l) 0).bind (fun q => (read32 u a l).bind (fun x => (read32 u b l).map (fun y =>
      out32 (if q ≠ 0 then x else y))))))

/-! ## Immediate forms (R175) -/

/-- wrap32(A + IMM11) (R166, R175). -/
def execAddS32Imm (d : BitVec 4) (i : BitVec 11) (a : Src) (s : State) : Outcome :=
  aluI s 4 d i a (· + ·)

/-- sat(A.s + IMM11, s32) (R166, R175). -/
def execAddS32SatImm (d : BitVec 4) (i : BitVec 11) (a : Src) (s : State) : Outcome :=
  aluI s 4 d i a satAddS

/-- wrap32(A.s × IMM11) (R166, R175). -/
def execMulS32Imm (d : BitVec 4) (i : BitVec 11) (a : Src) (s : State) : Outcome :=
  aluI s 8 d i a (· * ·)

/-- A and IMM11 (R169, R175). -/
def execAndB32Imm (d : BitVec 4) (i : BitVec 11) (a : Src) (s : State) : Outcome :=
  aluI s 4 d i a (· &&& ·)

/-- A or IMM11 (R169, R175). -/
def execOrB32Imm (d : BitVec 4) (i : BitVec 11) (a : Src) (s : State) : Outcome :=
  aluI s 4 d i a (· ||| ·)

/-- A xor IMM11 (R169, R175). -/
def execXorB32Imm (d : BitVec 4) (i : BitVec 11) (a : Src) (s : State) : Outcome :=
  aluI s 4 d i a (· ^^^ ·)

/-- A shifted left by IMM11 (R170, R175). -/
def execShlB32Imm (d : BitVec 4) (i : BitVec 11) (a : Src) (s : State) : Outcome :=
  aluI s 4 d i a shl32

/-- A shifted right by IMM11, zeros in (R170, R175). -/
def execShrZ32Imm (d : BitVec 4) (i : BitVec 11) (a : Src) (s : State) : Outcome :=
  aluI s 4 d i a shrZ32

/-- A shifted right by IMM11, sign in (R170, R175). -/
def execShrS32Imm (d : BitVec 4) (i : BitVec 11) (a : Src) (s : State) : Outcome :=
  aluI s 4 d i a shrS32

/-- min(A.s, IMM11) (R168, R175). -/
def execMinS32Imm (d : BitVec 4) (i : BitVec 11) (a : Src) (s : State) : Outcome :=
  aluI s 4 d i a minS

/-- max(A.s, IMM11) (R168, R175). -/
def execMaxS32Imm (d : BitVec 4) (i : BitVec 11) (a : Src) (s : State) : Outcome :=
  aluI s 4 d i a maxS

/-- The sign-extended IMM11 (R168). -/
def execMovB32Imm (d : BitVec 4) (i : BitVec 11) (s : State) : Outcome :=
  aluAll s 4 d (fun _ => some (fun _ => imm11 i))

/-- Bits 31:0 of the clause header address + 4 × IMM11 (R177). -/
def execAdr (d : BitVec 4) (i : BitVec 11) (s : State) : Outcome :=
  aluAll s 4 d (fun u => some (fun _ => adrOf u.cl.hdrAddr i))

/-- 1 when A = B with B = IMM11, else 0 (R173, R175). -/
def execIsetEqB32Imm (d : BitVec 4) (i : BitVec 11) (a : Src) (s : State) : Outcome :=
  aluI s 4 d i a (iset .eq)

/-- 1 when A ≠ B with B = IMM11, else 0 (R173, R175). -/
def execIsetNeB32Imm (d : BitVec 4) (i : BitVec 11) (a : Src) (s : State) : Outcome :=
  aluI s 4 d i a (iset .ne)

/-- 1 when A.s < B.s with B = IMM11, else 0 (R173, R175). -/
def execIsetLtS32Imm (d : BitVec 4) (i : BitVec 11) (a : Src) (s : State) : Outcome :=
  aluI s 4 d i a (iset .ltS)

/-- 1 when A.s ≤ B.s with B = IMM11, else 0 (R173, R175). -/
def execIsetLeS32Imm (d : BitVec 4) (i : BitVec 11) (a : Src) (s : State) : Outcome :=
  aluI s 4 d i a (iset .leS)

/-- 1 when A.s > B.s with B = IMM11, else 0 (R173, R175). -/
def execIsetGtS32Imm (d : BitVec 4) (i : BitVec 11) (a : Src) (s : State) : Outcome :=
  aluI s 4 d i a (iset .gtS)

/-- 1 when A.s ≥ B.s with B = IMM11, else 0 (R173, R175). -/
def execIsetGeS32Imm (d : BitVec 4) (i : BitVec 11) (a : Src) (s : State) : Outcome :=
  aluI s 4 d i a (iset .geS)

/-- 1 when A.z < B.z with B = IMM11, else 0 (R173, R175). -/
def execIsetLtZ32Imm (d : BitVec 4) (i : BitVec 11) (a : Src) (s : State) : Outcome :=
  aluI s 4 d i a (iset .ltZ)

/-- 1 when A.z ≤ B.z with B = IMM11, else 0 (R173, R175). -/
def execIsetLeZ32Imm (d : BitVec 4) (i : BitVec 11) (a : Src) (s : State) : Outcome :=
  aluI s 4 d i a (iset .leZ)

/-- 1 when A.z > B.z with B = IMM11, else 0 (R173, R175). -/
def execIsetGtZ32Imm (d : BitVec 4) (i : BitVec 11) (a : Src) (s : State) : Outcome :=
  aluI s 4 d i a (iset .gtZ)

/-- 1 when A.z ≥ B.z with B = IMM11, else 0 (R173, R175). -/
def execIsetGeZ32Imm (d : BitVec 4) (i : BitVec 11) (a : Src) (s : State) : Outcome :=
  aluI s 4 d i a (iset .geZ)

/-! ## Constants and fused integer forms (R176, R178, R179) -/

/-- The sign-extended IMM24 into the age queue (R176). -/
def execConst (i : BitVec 24) (s : State) : Outcome :=
  aluAll s 4 0 (fun _ => some (fun _ => i.signExtend 32))

/-- IMM24 × 256 into the age queue (R176). -/
def execConsthi (i : BitVec 24) (s : State) : Outcome :=
  aluAll s 4 0 (fun _ => some (fun _ => constHi i))

/-- sat(A.s × B.s + C.s, s32) (R179). -/
def execImadS32 (d : BitVec 4) (c : BitVec 5) (b a : Src) (s : State) : Outcome :=
  alu3 s 8 d c b a madS

/-- sat(A.z × B.z + C.z, z32) (R179). -/
def execImadZ32 (d : BitVec 4) (c : BitVec 5) (b a : Src) (s : State) : Outcome :=
  alu3 s 8 d c b a madZ

/-- wrap32((A << C[4:0]) + B) (R178). -/
def execShladd (d : BitVec 4) (c : BitVec 5) (b a : Src) (s : State) : Outcome :=
  alu3 s 4 d c b a (fun x y z => (x <<< (z.toNat % 32)) + y)

end Sys2Proof.Machine
end

