-- ==== Sys2Proof/Machine/MemWords.lean ====
section
/-!
DEFINITION. Machine/MemWords.lean: the memory, atomic and synchronisation instructions (chapter 10), each over the shared
operations of Access.lean and Sync.lean.
-/
namespace Sys2Proof.Machine

/-! ## Loads (R204, R205) -/

/-- LD.S8 (R204, R205). -/
def execLdS8 (r : BitVec 4) (f : Side) (b : Src) (x : BitVec 9) (s : State) : Outcome :=
  loadM s ⟨1, true, .load, 1, .region⟩ 1 r f b x

/-- LD.Z8 (R204, R205). -/
def execLdZ8 (r : BitVec 4) (f : Side) (b : Src) (x : BitVec 9) (s : State) : Outcome :=
  loadM s ⟨1, false, .load, 1, .region⟩ 1 r f b x

/-- LD.S16 (R204, R205). -/
def execLdS16 (r : BitVec 4) (f : Side) (b : Src) (x : BitVec 9) (s : State) : Outcome :=
  loadM s ⟨2, true, .load, 1, .region⟩ 2 r f b x

/-- LD.Z16 (R204, R205). -/
def execLdZ16 (r : BitVec 4) (f : Side) (b : Src) (x : BitVec 9) (s : State) : Outcome :=
  loadM s ⟨2, false, .load, 1, .region⟩ 2 r f b x

/-- LD.B32 (R204, R205). -/
def execLdB32 (r : BitVec 4) (f : Side) (b : Src) (x : BitVec 9) (s : State) : Outcome :=
  loadM s ⟨4, false, .load, 1, .region⟩ 4 r f b x

/-- LD.B64 (R204, R205). -/
def execLdB64 (r : BitVec 4) (f : Side) (b : Src) (x : BitVec 9) (s : State) : Outcome :=
  loadM s ⟨8, false, .load, 1, .region⟩ 8 r f b x

/-- LD.B128 (R204, R205). -/
def execLdB128 (r : BitVec 4) (f : Side) (b : Src) (x : BitVec 9) (s : State) : Outcome :=
  loadM s ⟨16, false, .load, 1, .region⟩ 16 r f b x

/-! ## Stores (R204, R206) -/

/-- ST.B8 (R204, R206). -/
def execStB8 (r : BitVec 4) (f : Side) (b : Src) (x : BitVec 9) (s : State) : Outcome :=
  storeM s 1 1 .region 1 r f b x

/-- ST.B16 (R204, R206). -/
def execStB16 (r : BitVec 4) (f : Side) (b : Src) (x : BitVec 9) (s : State) : Outcome :=
  storeM s 2 1 .region 2 r f b x

/-- ST.B32 (R204, R206). -/
def execStB32 (r : BitVec 4) (f : Side) (b : Src) (x : BitVec 9) (s : State) : Outcome :=
  storeM s 4 1 .region 4 r f b x

/-- ST.B64 (R204, R206). -/
def execStB64 (r : BitVec 4) (f : Side) (b : Src) (x : BitVec 9) (s : State) : Outcome :=
  storeM s 8 1 .region 8 r f b x

/-- ST.B128 (R204, R206). -/
def execStB128 (r : BitVec 4) (f : Side) (b : Src) (x : BitVec 9) (s : State) : Outcome :=
  storeM s 16 1 .region 16 r f b x

/-! ## Scratchpad (R208) -/

/-- LDS.B32 (R208). -/
def execLdsB32 (r : BitVec 4) (f : Side) (b : Src) (x : BitVec 9) (s : State) : Outcome :=
  loadM s ⟨4, false, .load, 4, .own⟩ 4 r f b x

/-- LDS.B64 (R208). -/
def execLdsB64 (r : BitVec 4) (f : Side) (b : Src) (x : BitVec 9) (s : State) : Outcome :=
  loadM s ⟨8, false, .load, 8, .own⟩ 8 r f b x

/-- LDS.B128 (R208). -/
def execLdsB128 (r : BitVec 4) (f : Side) (b : Src) (x : BitVec 9) (s : State) : Outcome :=
  loadM s ⟨16, false, .load, 16, .own⟩ 16 r f b x

/-- STS.B32 (R208). -/
def execStsB32 (r : BitVec 4) (f : Side) (b : Src) (x : BitVec 9) (s : State) : Outcome :=
  storeM s 4 4 .own 4 r f b x

/-- STS.B64 (R208). -/
def execStsB64 (r : BitVec 4) (f : Side) (b : Src) (x : BitVec 9) (s : State) : Outcome :=
  storeM s 8 8 .own 8 r f b x

/-- STS.B128 (R208). -/
def execStsB128 (r : BitVec 4) (f : Side) (b : Src) (x : BitVec 9) (s : State) : Outcome :=
  storeM s 16 16 .own 16 r f b x

/-- LDR.B32 (R208). -/
def execLdrB32 (r : BitVec 4) (f : Side) (b : Src) (x : BitVec 9) (s : State) : Outcome :=
  loadM s ⟨4, false, .load, 4, .cluster⟩ 4 r f b x

/-- LDR.B64 (R208). -/
def execLdrB64 (r : BitVec 4) (f : Side) (b : Src) (x : BitVec 9) (s : State) : Outcome :=
  loadM s ⟨8, false, .load, 8, .cluster⟩ 8 r f b x

/-- STR.B32 (R208). -/
def execStrB32 (r : BitVec 4) (f : Side) (b : Src) (x : BitVec 9) (s : State) : Outcome :=
  storeM s 4 4 .cluster 4 r f b x

/-- STR.B64 (R208). -/
def execStrB64 (r : BitVec 4) (f : Side) (b : Src) (x : BitVec 9) (s : State) : Outcome :=
  storeM s 8 8 .cluster 8 r f b x

/-! ## Gather (R210) -/

/-- GATHER.b32 (R210). -/
def execGatherB32 (r : BitVec 4) (f : Side) (b : Src) (x : BitVec 9) (s : State) : Outcome :=
  loadM s ⟨4, false, .gather, 1, .region⟩ 4 r f b x

/-! ## Host pointers (R209) -/

/-- LDH.B32 (R209). -/
def execLdhB32 (r : BitVec 4) (f : Side) (b : Src) (x : BitVec 9) (s : State) : Outcome :=
  loadHost s 4 r f b x

/-- LDH.B64 (R209). -/
def execLdhB64 (r : BitVec 4) (f : Side) (b : Src) (x : BitVec 9) (s : State) : Outcome :=
  loadHost s 8 r f b x

/-- STH.B32 (R209). -/
def execSthB32 (r : BitVec 4) (f : Side) (b : Src) (x : BitVec 9) (s : State) : Outcome :=
  storeHost s 4 r f b x

/-- STH.B64 (R209). -/
def execSthB64 (r : BitVec 4) (f : Side) (b : Src) (x : BitVec 9) (s : State) : Outcome :=
  storeHost s 8 r f b x

/-! ## Atomics (R212 to R214) -/

/-- ATM.ADD.Z32 (R212, R213). -/
def execAtmAddZ32 (q : Qual) (d : BitVec 4) (c : Scope) (f : Side) (b : BitVec 5) (a : Src) (s : State) : Outcome :=
  atomic s .add q d c f b a

/-- ATM.ADD.F32 (R212, R213). -/
def execAtmAddF32 (q : Qual) (d : BitVec 4) (c : Scope) (f : Side) (b : BitVec 5) (a : Src) (s : State) : Outcome :=
  atomic s .addF q d c f b a

/-- ATM.MIN.S32 (R212, R213). -/
def execAtmMinS32 (q : Qual) (d : BitVec 4) (c : Scope) (f : Side) (b : BitVec 5) (a : Src) (s : State) : Outcome :=
  atomic s .mins q d c f b a

/-- ATM.MAX.S32 (R212, R213). -/
def execAtmMaxS32 (q : Qual) (d : BitVec 4) (c : Scope) (f : Side) (b : BitVec 5) (a : Src) (s : State) : Outcome :=
  atomic s .maxs q d c f b a

/-- ATM.MIN.Z32 (R212, R213). -/
def execAtmMinZ32 (q : Qual) (d : BitVec 4) (c : Scope) (f : Side) (b : BitVec 5) (a : Src) (s : State) : Outcome :=
  atomic s .minz q d c f b a

/-- ATM.MAX.Z32 (R212, R213). -/
def execAtmMaxZ32 (q : Qual) (d : BitVec 4) (c : Scope) (f : Side) (b : BitVec 5) (a : Src) (s : State) : Outcome :=
  atomic s .maxz q d c f b a

/-- ATM.AND.B32 (R212, R213). -/
def execAtmAndB32 (q : Qual) (d : BitVec 4) (c : Scope) (f : Side) (b : BitVec 5) (a : Src) (s : State) : Outcome :=
  atomic s .and q d c f b a

/-- ATM.OR.B32 (R212, R213). -/
def execAtmOrB32 (q : Qual) (d : BitVec 4) (c : Scope) (f : Side) (b : BitVec 5) (a : Src) (s : State) : Outcome :=
  atomic s .or q d c f b a

/-- ATM.XOR.B32 (R212, R213). -/
def execAtmXorB32 (q : Qual) (d : BitVec 4) (c : Scope) (f : Side) (b : BitVec 5) (a : Src) (s : State) : Outcome :=
  atomic s .xor q d c f b a

/-- ATM.EXCH.B32 (R212, R213). -/
def execAtmExchB32 (q : Qual) (d : BitVec 4) (c : Scope) (f : Side) (b : BitVec 5) (a : Src) (s : State) : Outcome :=
  atomic s .exch q d c f b a

/-- ATM.CAS.b32 (R212, R213). -/
def execAtmCasB32 (q : Qual) (d : BitVec 4) (c : Scope) (f : Side) (b : BitVec 5) (a : Src) (s : State) : Outcome :=
  atomicCas s q d c f b a

/-! ## Acquire loads and release stores (R215) -/

/-- LD.acq.b32 (R215). -/
def execLdAcqB32 (d : BitVec 4) (c : Scope) (f : Side) (a : Src) (s : State) : Outcome :=
  loadAcq s 4 d f a

/-- LD.acq.b64 (R215). -/
def execLdAcqB64 (d : BitVec 4) (c : Scope) (f : Side) (a : Src) (s : State) : Outcome :=
  loadAcq s 8 d f a

/-- ST.rel.b32 (R215). -/
def execStRelB32 (c : Scope) (f : Side) (b : BitVec 5) (a : Src) (s : State) : Outcome :=
  storeRel s 4 c f b a

/-- ST.rel.b64 (R215). -/
def execStRelB64 (c : Scope) (f : Side) (b : BitVec 5) (a : Src) (s : State) : Outcome :=
  storeRel s 8 c f b a

/-! ## Monitors and arrival words (R216 to R220) -/

/-- MON.WAIT.eq (R216). -/
def execMonWaitEq (d : BitVec 4) (c : Scope) (f : Side) (b : BitVec 5) (a : Src) (s : State) : Outcome :=
  monitorWord s .eq 4 .either d f b a

/-- MON.WAIT.ne (R216). -/
def execMonWaitNe (d : BitVec 4) (c : Scope) (f : Side) (b : BitVec 5) (a : Src) (s : State) : Outcome :=
  monitorWord s .ne 4 .either d f b a

/-- MON.WAIT.gez (R216). -/
def execMonWaitGez (d : BitVec 4) (c : Scope) (f : Side) (b : BitVec 5) (a : Src) (s : State) : Outcome :=
  monitorWord s .gez 4 .either d f b a

/-- ARRIVE.INIT (R219). -/
def execArriveInit (d : BitVec 4) (f : Side) (b : BitVec 5) (a : Src) (s : State) : Outcome :=
  arrival s .arriveInit d f none b a

/-- ARRIVE.ADD (R219), with release semantics at .cl. -/
def execArriveAdd (d : BitVec 4) (f : Side) (b : BitVec 5) (a : Src) (s : State) : Outcome :=
  arrival s .arriveAdd d f (some .cl) b a

/-- ARRIVE.WAIT (R220). -/
def execArriveWait (d : BitVec 4) (c : Scope) (f : Side) (b : BitVec 5) (a : Src) (s : State) : Outcome :=
  monitorWord s .gen 16 .arrive d f b a

/-! ## Fences (R222, R223) -/

/-- FENCE (R222). -/
def execFence (c : Scope) (s : State) : Outcome :=
  fenceWord s c none

/-- FENCE.X (R223): path P is `p`, path Q is `r`. -/
def execFenceX (c : Scope) (r p : Path) (s : State) : Outcome :=
  fenceXWord s c p r

/-! ## Page-attribute requests (R224) -/

/-- HINT (R224). -/
def execHint (d : BitVec 4) (f : Side) (b : BitVec 5) (a : Src) (s : State) : Outcome :=
  attrWord s true d f a (fun u i => (readSC u b i).map (fun v => (v, 0)))

/-- PGSET (R224). -/
def execPgset (d : BitVec 4) (f : Side) (b : BitVec 5) (a : Src) (s : State) : Outcome :=
  attrWord s false d f a (fun u i => (readSC64 u b i).map (fun v => (v.extractLsb' 0 32, v.extractLsb' 32 32)))

end Sys2Proof.Machine
end

