-- ==== Sys2Proof/Machine/RvCsr.lean ====
section
/-!
DEFINITION. Machine/RvCsr.lean: the control and status registers of a Mast as its instructions read and write them: the Kalyel registers
(R314 to R323, R363, R409) and those of RISC-V (R312; PRESUMED from the RISC-V privileged architecture, entry 89).
-/
namespace Sys2Proof.Machine

/-! ## Fields and counters -/

/-- misa: RV64 with A, C, D, F, I, M, S, and U where the sandbox is (R322). -/
def misaImage (s : State) : DWord :=
  BitVec.ofNat 64 (2 ^ 63 + 2 ^ 0 + 2 ^ 2 + 2 ^ 3 + 2 ^ 5 + 2 ^ 8 + 2 ^ 12 + 2 ^ 18 + bnat (s.caps.getLsbD 4) * 2 ^ 20)

/-- The fields of mstatus that sstatus shows: SIE, SPIE, SPP, FS, SUM, MXR, UXL, SD. -/
def sstatusMask : DWord := 0x80000003000C6122

/-- mstatus; UXL reads 2 where U mode is, SXL reads 2. -/
def mstatusImage (s : State) (m : Mast) : DWord :=
  BitVec.ofNat 64 (bnat m.sie * 2 ^ 1 + bnat m.gie * 2 ^ 3 + bnat m.spie * 2 ^ 5 + bnat m.gpie * 2 ^ 7 + m.spp % 2 * 2 ^ 8 +
    m.mpp % 4 * 2 ^ 11 + m.fs % 4 * 2 ^ 13 + bnat m.mprv * 2 ^ 17 + bnat m.sum * 2 ^ 18 + bnat m.mxr * 2 ^ 19 + bnat m.tvm * 2 ^ 20 +
    bnat m.tw * 2 ^ 21 + bnat m.tsr * 2 ^ 22 + bnat (s.caps.getLsbD 4) * 2 ^ 33 + 2 ^ 35 + bnat (decide (m.fs = 3)) * 2 ^ 63)

/-- The fields of mstatus that both views write. -/
def writeSstatus (s : State) (c : Nat) (v : DWord) : State :=
  writeSpp (modMast s c (fun m => { m with
    sie := v.getLsbD 1, spie := v.getLsbD 5, fs := bits v.toNat 14 13, sum := v.getLsbD 18, mxr := v.getLsbD 19 })) c (v >>> 8)

def writeMstatus (s : State) (c : Nat) (v : DWord) : State :=
  writeMpp (modMast (writeSstatus s c v) c (fun m => { m with
    gie := v.getLsbD 3, gpie := v.getLsbD 7, mprv := v.getLsbD 17, tvm := v.getLsbD 20, tw := v.getLsbD 21, tsr := v.getLsbD 22 }))
    c (v >>> 11)

/-- The Mast's clock since reset: 2.0 GHz against the core's 3.3 GHz (R312, R2). -/
def mastCycles (s : State) : DWord := BitVec.ofNat 64 (s.cycle * 20 / 33)

/-- mcycle: what the clock adds to it, unless it is inhibited. -/
def mcycleImage (s : State) (m : Mast) : DWord := if m.mcountinhibit.getLsbD 0 then m.clock else m.clock + mastCycles s

/-- mcountinhibit: bits 0 and 2. mcycle keeps its value when its bit changes. -/
def writeInhibit (s : State) (c : Nat) (v : DWord) : State :=
  modMast s c (fun m =>
    let now := mcycleImage s m
    { m with
      mcountinhibit := v.setWidth 32 &&& 5
      clock := if v.getLsbD 0 then now else now - mastCycles s })

def writeMcycle (s : State) (c : Nat) (v : DWord) : State :=
  modMast s c (fun m => { m with clock := if m.mcountinhibit.getLsbD 0 then v else v - mastCycles s })

/-- Whether a mode below M may read user counter `i`: mcounteren lets S mode, scounteren as well U mode. -/
def counterOpen (m : Mast) (i : Nat) : Bool :=
  decide (m.mode = .m) || (m.mcounteren.getLsbD i && (decide (m.mode = .s) || m.scounteren.getLsbD i))

/-- Eight PMP configuration bytes from entry `k` on. -/
def pmpcfgImage (m : Mast) (k : Nat) : DWord := BitVec.ofNat 64 (leNat ((m.pmpcfg.drop k).take 8))

def writePmpcfg8 (s : State) (c k : Nat) (v : DWord) : State :=
  (List.range 8).foldl (fun t i => writePmpcfg t c (k + i) ((v >>> (8 * i)) &&& 0xFF)) s

/-- fcsr written in part; the unit's state becomes dirty. -/
def setFcsr (s : State) (c : Nat) (v mask : BitVec 8) : State :=
  modMast s c (fun m => { m with fcsr := (m.fcsr &&& ~~~mask) ||| (v &&& mask), fs := 3 })

/-! ## Reads -/

/-- A Kalyel register (R314, R363, R409): the value and the state after the read, which pops an entry or acquires; none for a reserved
number. MJBUD reads as last written, also before RATE and DEPTH take effect (R63, R396; entry 66). -/
def readKalyel (s : State) (c n : Nat) : Option (DWord × State) :=
  let m := mast s c
  match n with
  | 0x7C0 => some (BitVec.ofNat 64 m.mctx, s)
  | 0x7C1 => some (((core s c).jbudNext.getD (core s c).jbud).setWidth 64, s)
  | 0x7C2 => some ((core s c).ctdl.setWidth 64, s)
  | 0x5C0 => some (m.mring, s)
  | 0x5C1 => some (popCall s c)
  | 0x5C2 => some (m.head.setWidth 64 <<< 32 ||| m.tail.setWidth 64, s)
  | 0x5C3 => some (popMessage s c)
  | 0x5C4 => some (m.mmsgb, s)
  | 0x5C5 => some (m.mntpend.setWidth 64, emptyReadAhead s c)
  | 0x5C6 => some (m.mntie.setWidth 64, s)
  | 0x5C7 => some (BitVec.ofNat 64 m.mukey, s)
  | 0x5C8 => some (mhalt s, s)
  | 0x5C9 => some ((core s c).mtrap, s)
  | 0x5CA => some ((core s c).mmxerr, s)
  | 0xDC0 => some (BitVec.ofNat 64 c, s)
  | _ =>
    if 0x5D0 ≤ n ∧ n < 0x5E0 then some (m.mrgnb.getD (n - 0x5D0) 0, s)
    else if 0x5E0 ≤ n ∧ n < 0x5F0 then some (m.mrgnl.getD (n - 0x5E0) 0, s)
    else none

/-- A register of M mode. -/
def readM (s : State) (c n : Nat) : Option DWord :=
  let m := mast s c
  match n with
  | 0xF11 | 0xF12 | 0xF13 | 0xF15 => some 0
  | 0xF14 => some (BitVec.ofNat 64 c)
  | 0x300 => some (mstatusImage s m)
  | 0x301 => some (misaImage s)
  | 0x302 => some m.medeleg
  | 0x303 => some m.mideleg
  | 0x304 => some m.mie
  | 0x305 => some m.mtvec
  | 0x306 => some (m.mcounteren.setWidth 64)
  | 0x30A => some m.menvcfg
  | 0x320 => some (m.mcountinhibit.setWidth 64)
  | 0x340 => some m.mscratch
  | 0x341 => some m.mepc
  | 0x342 => some m.mcause
  | 0x343 => some m.mtval
  | 0x344 => some (mastPending s c)
  | 0xB00 => some (mcycleImage s m)
  | 0xB02 => some m.instret
  | _ =>
    if (0x323 ≤ n ∧ n < 0x340) ∨ (0xB03 ≤ n ∧ n < 0xB20) then some 0
    else if 0x3A0 ≤ n ∧ n < 0x3B0 ∧ n % 2 = 0 then some (pmpcfgImage m (4 * (n - 0x3A0)))
    else if 0x3B0 ≤ n ∧ n < 0x3F0 then some (m.pmpaddr.getD (n - 0x3B0) 0)
    else none

/-- A register of S mode; satp is closed to S mode while TVM is 1. -/
def readS (s : State) (c n : Nat) : Option DWord :=
  let m := mast s c
  match n with
  | 0x100 => some (mstatusImage s m &&& sstatusMask)
  | 0x104 => some (m.mie &&& m.mideleg)
  | 0x105 => some m.stvec
  | 0x106 => some (m.scounteren.setWidth 64)
  | 0x10A => some m.senvcfg
  | 0x140 => some m.sscratch
  | 0x141 => some m.sepc
  | 0x142 => some m.scause
  | 0x143 => some m.stval
  | 0x144 => some (mastPending s c &&& m.mideleg)
  | 0x180 => if m.mode = .s ∧ m.tvm then none else some 0
  | _ => none

/-- A register of U mode: fflags, frm and fcsr while the floating unit is on, and the counters that the mode may read. `time` is the
time counter of R346. -/
def readU (s : State) (c n : Nat) : Option DWord :=
  let m := mast s c
  if n = 1 ∨ n = 2 ∨ n = 3 then
    if m.fs = 0 then none
    else some ((if n = 1 then m.fcsr &&& 0x1F else if n = 2 then m.fcsr >>> 5 else m.fcsr).setWidth 64)
  else if 0xC00 ≤ n ∧ n < 0xC20 ∧ counterOpen m (n - 0xC00) then
    some (match n with | 0xC00 => mcycleImage s m | 0xC01 => BitVec.ofNat 64 s.cycle | 0xC02 => m.instret | _ => 0)
  else none

/-- A CSR as an instruction reads it; none where there is none for the Mast's mode. -/
def readCsr (s : State) (c n : Nat) : Option (DWord × State) :=
  let need := bits n 9 8
  if (mast s c).mode.code < need ∨ need = 2 then none
  else if bits n 7 6 = 3 ∧ (n / 256 = 7 ∨ n / 256 = 5 ∨ n / 256 = 13) then readKalyel s c n
  else (match need with | 0 => readU s c n | 1 => readS s c n | _ => readM s c n).map (fun v => (v, s))

/-! ## Writes -/

/-- A Kalyel register written; those that are read-only ignore it (entry 66). A write of MHALT resumes or ends the context (R363). -/
def writeKalyel (s : State) (c n : Nat) (v : DWord) : State :=
  let reg (r : RegName) : State := writeRegister s r v
  match n with
  | 0x7C0 => reg (.mctx c)
  | 0x7C1 => writeJbud s c (v.setWidth 32)
  | 0x7C2 => reg (.mctdl c)
  | 0x5C0 => reg (.mring c)
  | 0x5C5 => modMast s c (fun m => { m with mntpend := m.mntpend &&& ~~~(v.setWidth 32) })
  | 0x5C6 => reg (.mntie c)
  | 0x5C7 => reg (.mukey c)
  | 0x5C8 => if v.getLsbD 2 then writeEnd s else if v.getLsbD 1 then writeResume s true else s
  | _ =>
    if 0x5D0 ≤ n ∧ n < 0x5E0 then reg (.mrgnb c (n - 0x5D0))
    else if 0x5E0 ≤ n ∧ n < 0x5F0 then reg (.mrgnl c (n - 0x5E0))
    else s

/-- A register of M mode written; the bits of mip that software sets are SSIP, STIP and SEIP. The instruction that writes minstret does not
count itself on top of the value (RISC-V: the write comes in place of the increment). -/
def writeM (s : State) (c n : Nat) (v : DWord) : State :=
  let m (f : Mast → Mast) : State := modMast s c f
  match n with
  | 0x300 => writeMstatus s c v
  | 0x302 => m (fun x => { x with medeleg := v })
  | 0x303 => m (fun x => { x with mideleg := v &&& 0xF0222 })
  | 0x304 => m (fun x => { x with mie := v })
  | 0x305 => m (fun x => { x with mtvec := v })
  | 0x306 => m (fun x => { x with mcounteren := v.setWidth 32 })
  | 0x30A => m (fun x => { x with menvcfg := v &&& 1 })
  | 0x320 => writeInhibit s c v
  | 0x340 => m (fun x => { x with mscratch := v })
  | 0x341 => m (fun x => { x with mepc := v &&& ~~~1 })
  | 0x342 => m (fun x => { x with mcause := v })
  | 0x343 => m (fun x => { x with mtval := v })
  | 0x344 => m (fun x => { x with mip := v &&& 0x222 })
  | 0xB00 => writeMcycle s c v
  | 0xB02 => m (fun x => { x with instret := if x.mcountinhibit.getLsbD 2 then v else v - 1 })
  | 0x3A0 => writePmpcfg8 s c 0 v
  | 0x3A2 => writePmpcfg8 s c 8 v
  | _ => if 0x3B0 ≤ n ∧ n < 0x3C0 then writePmpaddr s c (n - 0x3B0) v else s

/-- A register of S mode written; satp stays 0 (R312). -/
def writeS (s : State) (c n : Nat) (v : DWord) : State :=
  let m (f : Mast → Mast) : State := modMast s c f
  match n with
  | 0x100 => writeSstatus s c v
  | 0x104 => m (fun x => { x with mie := (x.mie &&& ~~~x.mideleg) ||| (v &&& x.mideleg) })
  | 0x105 => m (fun x => { x with stvec := v })
  | 0x106 => m (fun x => { x with scounteren := v.setWidth 32 })
  | 0x10A => m (fun x => { x with senvcfg := v &&& 1 })
  | 0x140 => m (fun x => { x with sscratch := v })
  | 0x141 => m (fun x => { x with sepc := v &&& ~~~1 })
  | 0x142 => m (fun x => { x with scause := v })
  | 0x143 => m (fun x => { x with stval := v })
  | 0x144 => m (fun x => { x with mip := (x.mip &&& ~~~(x.mideleg &&& 2)) ||| (v &&& x.mideleg &&& 2) })
  | _ => s

/-- fflags, frm or fcsr written. -/
def writeU (s : State) (c n : Nat) (v : DWord) : State :=
  match n with
  | 1 => setFcsr s c (v.setWidth 8) 0x1F
  | 2 => setFcsr s c ((v <<< 5).setWidth 8) 0xE0
  | _ => setFcsr s c (v.setWidth 8) 0xFF

/-- A CSR written by an instruction whose read of it was allowed; its number is not in the read-only ranges. -/
def writeCsr (s : State) (c n : Nat) (v : DWord) : State :=
  if bits n 7 6 = 3 ∧ (n / 256 = 7 ∨ n / 256 = 5) then writeKalyel s c n v
  else match bits n 9 8 with
    | 0 => writeU s c n v
    | 1 => writeS s c n v
    | _ => writeM s c n v

end Sys2Proof.Machine
end

