-- ==== Sys2Proof/Machine/RvFloat.lean ====
section
/-!
DEFINITION. Machine/RvFloat.lean: the F and D arithmetic of the Mast's RV64GC (R312; PRESUMED from RISC-V, entry 89): exact values rounded
once in the five RISC-V modes, with the exception flags of fflags: NV 16, DZ 8, OF 4, UF 2, NX 1.
-/
namespace Sys2Proof.Machine

def fp64 : Fmt := ⟨11, 52⟩

/-- A result and the flags that it raises. -/
abbrev Flagged := Nat × Nat

/-- Whether a mode (RNE 0, RTZ 1, RDN 2, RUP 3, RMM 4) rounds a magnitude up: sign, quotient, remainder, divisor. -/
def rvUp (rm : Nat) (neg : Bool) (q r d : Nat) : Bool :=
  match rm with
  | 0 => roundsUp .rn neg q r d
  | 1 => false
  | 2 => roundsUp .rd neg q r d
  | 3 => roundsUp .ru neg q r d
  | _ => decide (d ≤ 2 * r)

/-- The result when the rounded magnitude passes the largest finite value. -/
def rvOverflow (f : Fmt) (rm : Nat) (neg : Bool) : Nat :=
  overflowBits f (match rm with | 1 => .rz | 2 => .rd | 3 => .ru | _ => .rn) neg

/-- A positive magnitude num ÷ den × 2^e cut to a last place of exponent `q`: quotient, remainder and divisor. -/
def cutAt (num den : Nat) (e q : Int) : Nat × Nat × Nat :=
  let n := if q ≤ e then num <<< (e - q).toNat else num
  let d := if q ≤ e then den else den <<< (q - e).toNat
  (n / d, n % d, d)

/-- The exponent of the leading bit of num ÷ den × 2^e. -/
def topExp (num den : Nat) (e : Int) : Int :=
  let k : Int := (Nat.log2 num : Int) - (Nat.log2 den : Int)
  let below : Bool := if 0 ≤ k then decide (num < den <<< k.toNat) else decide (num <<< (-k).toNat < den)
  (if below then k - 1 else k) + e

/-- ±(num ÷ den) × 2^e rounded once; underflow is found after rounding. -/
def rvRound (f : Fmt) (rm : Nat) (neg : Bool) (num den : Nat) (e : Int) : Flagged :=
  if num = 0 then (withSign f neg 0, 0) else
  let top := topExp num den e
  let free := top - (f.fb : Int)
  let q := max free (fmtMinExp f)
  let x := cutAt num den e q
  let b := (q - fmtMinExp f).toNat * 2 ^ f.fb + x.1 + bnat (rvUp rm neg x.1 x.2.1 x.2.2)
  if fmtInf f ≤ b then (rvOverflow f rm neg, 5)
  else
    let y := cutAt num den e free
    let carries := decide (y.1 + bnat (rvUp rm neg y.1 y.2.1 y.2.2) = 2 ^ (f.fb + 1))
    let least := fmtMinExp f + (f.fb : Int)
    let tiny := decide (top < least) && !(decide (top + 1 = least) && carries)
    (withSign f neg b, if x.2.1 = 0 then 0 else if tiny then 3 else 1)

/-- A value rounded into a format. -/
def rvPack (f : Fmt) (rm : Nat) : FVal → Flagged
  | .nan => (fmtNaN f, 0)
  | .inf neg => (withSign f neg (fmtInf f), 0)
  | .fin neg m e => rvRound f rm neg m 1 e

/-- A signaling NaN: one whose leading fraction bit is clear. -/
def isSNaN (f : Fmt) (a : Nat) : Bool := isNaN f a && !bit a (f.fb - 1)

/-- A result of operands: a NaN where an operand is one, with NV for a signaling one; NV as well for a NaN that none brought. -/
def rvResult (f : Fmt) (rm : Nat) (l : List Nat) (v : FVal) : Flagged :=
  if v = .nan then (fmtNaN f, if l.any (isSNaN f) || !l.any (isNaN f) then 16 else 0) else rvPack f rm v

/-- The mode by which the sign of an exact zero sum is chosen. -/
def zeroMode (rm : Nat) : Rnd := if rm = 2 then .rd else .rn

def rvAdd (f : Fmt) (rm a b : Nat) : Flagged := rvResult f rm [a, b] (addVal (zeroMode rm) (unpack f a) (unpack f b))
def rvSub (f : Fmt) (rm a b : Nat) : Flagged := rvResult f rm [a, b] (addVal (zeroMode rm) (unpack f a) (negVal (unpack f b)))
def rvMul (f : Fmt) (rm a b : Nat) : Flagged := rvResult f rm [a, b] (mulVal (unpack f a) (unpack f b))

/-- ±(a × b) ± c, rounded once; ∞ × 0 raises NV whatever c is. -/
def rvFma (f : Fmt) (rm : Nat) (negP negC : Bool) (a b c : Nat) : Flagged :=
  let p := mulVal (unpack f a) (unpack f b)
  let c' := if negC then negVal (unpack f c) else unpack f c
  let r := rvResult f rm [a, b, c] (addVal (zeroMode rm) (if negP then negVal p else p) c')
  if p = .nan && !isNaN f a && !isNaN f b then (r.1, 16) else r

/-- A quotient. -/
def rvDiv (f : Fmt) (rm a b : Nat) : Flagged :=
  match unpack f a, unpack f b with
  | .nan, _ => rvResult f rm [a, b] .nan
  | _, .nan => rvResult f rm [a, b] .nan
  | .inf _, .inf _ => rvResult f rm [a, b] .nan
  | .inf s, .fin t _ _ => (withSign f (s != t) (fmtInf f), 0)
  | .fin s _ _, .inf t => (withSign f (s != t) 0, 0)
  | .fin s m e, .fin t n d =>
    if n = 0 then (if m = 0 then rvResult f rm [a, b] .nan else (withSign f (s != t) (fmtInf f), 8))
    else rvRound f rm (s != t) m n (e - d)

/-- A square root: the integer root of the scaled magnitude, with one more bit that says whether anything was left over. -/
def rvSqrt (f : Fmt) (rm a : Nat) : Flagged :=
  match unpack f a with
  | .nan => rvResult f rm [a] .nan
  | .inf s => if s then rvResult f rm [a] .nan else (withSign f false (fmtInf f), 0)
  | .fin s m e =>
    if m = 0 then (withSign f s 0, 0)
    else if s then rvResult f rm [a] .nan
    else
      let odd := e % 2 ≠ 0
      let n := (if odd then 2 * m else m) <<< (2 * (f.fb + 4))
      let r := Nat.sqrt n
      rvRound f rm false (2 * r + bnat (decide (r * r ≠ n))) 2 ((if odd then e - 1 else e) / 2 - (f.fb + 4 : Int))

/-- FMIN and FMAX: a signaling NaN raises NV. -/
def rvMinMax (f : Fmt) (maxi : Bool) (a b : Nat) : Flagged :=
  (if maxi then fmax f a b else fmin f a b, if isSNaN f a || isSNaN f b then 16 else 0)

/-- FEQ (2), FLT (1), FLE (0): a comparison that is not FEQ raises NV for any NaN. -/
def rvCmp (f : Fmt) (k a b : Nat) : Flagged :=
  let any := isNaN f a || isNaN f b
  let nv := if k = 2 then isSNaN f a || isSNaN f b else any
  (bnat (!any && (if k = 2 then decide (orderKey f a = orderKey f b)
    else if k = 1 then decide (orderKey f a < orderKey f b) else decide (orderKey f a ≤ orderKey f b))), if nv then 16 else 0)

/-- FCLASS. -/
def rvClass (f : Fmt) (a : Nat) : Nat :=
  let neg := bit a (f.eb + f.fb)
  match unpack f a with
  | .nan => if isSNaN f a then 2 ^ 8 else 2 ^ 9
  | .inf s => if s then 1 else 2 ^ 7
  | .fin _ m _ =>
    if m = 0 then (if neg then 2 ^ 3 else 2 ^ 4)
    else if m < 2 ^ f.fb then (if neg then 2 ^ 2 else 2 ^ 5)
    else (if neg then 2 else 2 ^ 6)

/-- A value converted to an integer of `w` bits, signed or not, as a bit pattern of `w` bits; out of range the nearest limit and NV. -/
def rvToInt (f : Fmt) (rm w : Nat) (sgn : Bool) (a : Nat) : Flagged :=
  let lo : Int := if sgn then -(2 ^ (w - 1) : Nat) else 0
  let hi : Int := if sgn then (2 ^ (w - 1) : Nat) - 1 else (2 ^ w : Nat) - 1
  let bitsOf (x : Int) : Nat := (x % (2 ^ w : Nat)).toNat
  match unpack f a with
  | .nan => (bitsOf hi, 16)
  | .inf s => (bitsOf (if s then lo else hi), 16)
  | .fin s m e =>
    let x := cutAt m 1 e 0
    let v := signed s (x.1 + bnat (rvUp rm s x.1 x.2.1 x.2.2))
    if v < lo then (bitsOf lo, 16) else if hi < v then (bitsOf hi, 16) else (bitsOf v, if x.2.1 = 0 then 0 else 1)

/-- An integer converted to a format. -/
def rvFromInt (f : Fmt) (rm : Nat) (v : Int) : Flagged := rvRound f rm (decide (v < 0)) v.natAbs 1 0

/-- A value of one format converted to another. -/
def rvConvert (src dst : Fmt) (rm a : Nat) : Flagged :=
  match unpack src a with
  | .nan => (fmtNaN dst, if isSNaN src a then 16 else 0)
  | v => rvPack dst rm v

/-- FSGNJ (0), FSGNJN (1), FSGNJX (2). -/
def rvSgnj (f : Fmt) (k a b : Nat) : Nat :=
  let s := bit b (f.eb + f.fb)
  withSign f (match k with | 0 => s | 1 => !s | _ => s != bit a (f.eb + f.fb)) (a % 2 ^ (f.eb + f.fb))

end Sys2Proof.Machine
end

