-- ==== Sys2Proof/Machine/Rv.lean ====
section
/-!
DEFINITION. Machine/Rv.lean: the Mast runs RV64GC instructions (R312; PRESUMED from the RISC-V unprivileged and privileged architectures,
entry 89): compressed words expanded, base, multiply, atomic, floating, CSR and privileged instructions, and MAST_LOAD_STORE, whose
fetch at the program counter runs one of them.
-/
namespace Sys2Proof.Machine

/-! ## Words of 32 bits put together -/

def rvI (op f3 rd rs1 imm : Nat) : Nat := imm % 2 ^ 12 * 2 ^ 20 + rs1 * 2 ^ 15 + f3 * 2 ^ 12 + rd * 2 ^ 7 + op
def rvR (op f3 f7 rd rs1 rs2 : Nat) : Nat := f7 * 2 ^ 25 + rs2 * 2 ^ 20 + rs1 * 2 ^ 15 + f3 * 2 ^ 12 + rd * 2 ^ 7 + op
def rvS (op f3 rs1 rs2 imm : Nat) : Nat := bits imm 11 5 * 2 ^ 25 + rs2 * 2 ^ 20 + rs1 * 2 ^ 15 + f3 * 2 ^ 12 + bits imm 4 0 * 2 ^ 7 + op
def rvB (f3 rs1 rs2 imm : Nat) : Nat :=
  bits imm 12 12 * 2 ^ 31 + bits imm 10 5 * 2 ^ 25 + rs2 * 2 ^ 20 + rs1 * 2 ^ 15 + f3 * 2 ^ 12 + bits imm 4 1 * 2 ^ 8 + bits imm 11 11 * 2 ^ 7 + 0x63
def rvJ (rd imm : Nat) : Nat :=
  bits imm 20 20 * 2 ^ 31 + bits imm 10 1 * 2 ^ 21 + bits imm 11 11 * 2 ^ 20 + bits imm 19 12 * 2 ^ 12 + rd * 2 ^ 7 + 0x6F

/-- A field of `w` bits sign-extended into `n` bits. -/
def sext (w n x : Nat) : Nat := if bit x (w - 1) then x % 2 ^ w + 2 ^ n - 2 ^ w else x % 2 ^ w

/-! ## Compressed words -/

/-- The 6-bit immediate of most compressed words, sign-extended to 12 bits. -/
def cImm (h : Nat) : Nat := sext 6 12 (bits h 12 12 * 32 + bits h 6 2)
def cShamt (h : Nat) : Nat := bits h 12 12 * 32 + bits h 6 2
/-- The offset of a doubleword access, and of a word access. -/
def cOffD (h : Nat) : Nat := bits h 12 10 * 8 + bits h 6 5 * 64
def cOffW (h : Nat) : Nat := bits h 12 10 * 8 + bits h 6 6 * 4 + bits h 5 5 * 64

/-- Quadrant 0: register-based loads and stores. -/
def expand0 (h : Nat) : Option Nat :=
  let rd := 8 + bits h 4 2
  let rs := 8 + bits h 9 7
  match bits h 15 13 with
  | 0 =>
    let i := bits h 12 11 * 16 + bits h 10 7 * 64 + bits h 6 6 * 4 + bits h 5 5 * 8
    if i = 0 then none else some (rvI 0x13 0 rd 2 i)
  | 1 => some (rvI 0x07 3 rd rs (cOffD h))
  | 2 => some (rvI 0x03 2 rd rs (cOffW h))
  | 3 => some (rvI 0x03 3 rd rs (cOffD h))
  | 5 => some (rvS 0x27 3 rs rd (cOffD h))
  | 6 => some (rvS 0x23 2 rs rd (cOffW h))
  | 7 => some (rvS 0x23 3 rs rd (cOffD h))
  | _ => none

/-- The register arithmetic of quadrant 1. -/
def expandArith (h : Nat) : Option Nat :=
  let rd := 8 + bits h 9 7
  let rs := 8 + bits h 4 2
  match bits h 11 10, bits h 12 12, bits h 6 5 with
  | 0, _, _ => some (rvI 0x13 5 rd rd (cShamt h))
  | 1, _, _ => some (rvI 0x13 5 rd rd (0x400 + cShamt h))
  | 2, _, _ => some (rvI 0x13 7 rd rd (cImm h))
  | _, 0, 0 => some (rvR 0x33 0 0x20 rd rd rs)
  | _, 0, 1 => some (rvR 0x33 4 0 rd rd rs)
  | _, 0, 2 => some (rvR 0x33 6 0 rd rd rs)
  | _, 0, _ => some (rvR 0x33 7 0 rd rd rs)
  | _, _, 0 => some (rvR 0x3B 0 0x20 rd rd rs)
  | _, _, 1 => some (rvR 0x3B 0 0 rd rd rs)
  | _, _, _ => none

/-- C.ADDI16SP and C.LUI. -/
def expandLui (h : Nat) : Option Nat :=
  let rd := bits h 11 7
  if cShamt h = 0 then none
  else if rd = 2 then
    some (rvI 0x13 0 2 2 (sext 10 12 (bits h 12 12 * 512 + bits h 6 6 * 16 + bits h 5 5 * 64 + bits h 4 3 * 128 + bits h 2 2 * 32)))
  else some (sext 6 20 (cShamt h) * 2 ^ 12 + rd * 2 ^ 7 + 0x37)

/-- Quadrant 1: immediates, jumps and branches. -/
def expand1 (h : Nat) : Option Nat :=
  let rd := bits h 11 7
  let off := sext 9 13 (bits h 12 12 * 256 + bits h 11 10 * 8 + bits h 6 5 * 64 + bits h 4 3 * 2 + bits h 2 2 * 32)
  match bits h 15 13 with
  | 0 => some (rvI 0x13 0 rd rd (cImm h))
  | 1 => if rd = 0 then none else some (rvI 0x1B 0 rd rd (cImm h))
  | 2 => some (rvI 0x13 0 rd 0 (cImm h))
  | 3 => expandLui h
  | 4 => expandArith h
  | 5 => some (rvJ 0 (sext 12 21 (bits h 12 12 * 2048 + bits h 11 11 * 16 + bits h 10 9 * 256 + bits h 8 8 * 1024 + bits h 7 7 * 64 +
      bits h 6 6 * 128 + bits h 5 3 * 2 + bits h 2 2 * 32)))
  | 6 => some (rvB 0 (8 + bits h 9 7) 0 off)
  | _ => some (rvB 1 (8 + bits h 9 7) 0 off)

/-- C.JR, C.MV, C.EBREAK, C.JALR and C.ADD. -/
def expandJr (h : Nat) : Option Nat :=
  let rd := bits h 11 7
  let rs := bits h 6 2
  match decide (bits h 12 12 = 1), decide (rd = 0), decide (rs = 0) with
  | false, true, true => none
  | false, false, true => some (rvI 0x67 0 0 rd 0)
  | false, _, false => some (rvR 0x33 0 0 rd 0 rs)
  | true, true, true => some 0x00100073
  | true, false, true => some (rvI 0x67 0 1 rd 0)
  | true, _, false => some (rvR 0x33 0 0 rd rd rs)

/-- Quadrant 2: stack-based loads and stores, and register moves. -/
def expand2 (h : Nat) : Option Nat :=
  let rd := bits h 11 7
  let offD := bits h 12 12 * 32 + bits h 6 5 * 8 + bits h 4 2 * 64
  match bits h 15 13 with
  | 0 => some (rvI 0x13 1 rd rd (cShamt h))
  | 1 => some (rvI 0x07 3 rd 2 offD)
  | 2 => if rd = 0 then none else some (rvI 0x03 2 rd 2 (bits h 12 12 * 32 + bits h 6 4 * 4 + bits h 3 2 * 64))
  | 3 => if rd = 0 then none else some (rvI 0x03 3 rd 2 offD)
  | 4 => expandJr h
  | 5 => some (rvS 0x27 3 2 (bits h 6 2) (bits h 12 10 * 8 + bits h 9 7 * 64))
  | 6 => some (rvS 0x23 2 2 (bits h 6 2) (bits h 12 9 * 4 + bits h 8 7 * 64))
  | _ => some (rvS 0x23 3 2 (bits h 6 2) (bits h 12 10 * 8 + bits h 9 7 * 64))

/-- The word that a compressed word stands for; none for a reserved one. -/
def expandC (h : Nat) : Option Nat :=
  match h % 4 with
  | 0 => expand0 h
  | 1 => expand1 h
  | _ => expand2 h

/-! ## Immediates and registers -/

def immI (w : Nat) : DWord := BitVec.ofInt 64 (toInt 12 (bits w 31 20))
def immS (w : Nat) : DWord := BitVec.ofInt 64 (toInt 12 (bits w 31 25 * 32 + bits w 11 7))
def immB (w : Nat) : DWord := BitVec.ofInt 64 (toInt 13 (bits w 31 31 * 4096 + bits w 7 7 * 2048 + bits w 30 25 * 32 + bits w 11 8 * 2))
def immU (w : Nat) : DWord := BitVec.ofInt 64 (toInt 32 (bits w 31 12 * 4096))
def immJ (w : Nat) : DWord :=
  BitVec.ofInt 64 (toInt 21 (bits w 31 31 * 2 ^ 20 + bits w 19 12 * 2 ^ 12 + bits w 20 20 * 2 ^ 11 + bits w 30 21 * 2))

def xReg (s : State) (c i : Nat) : DWord := (mast s c).x.getD i 0
def fReg (s : State) (c i : Nat) : DWord := (mast s c).f.getD i 0

/-- The low 32 bits of a value sign-extended. -/
def sext32 (v : DWord) : DWord := (v.setWidth 32).signExtend 64

/-- How an instruction ends: the next one follows, another address follows, nothing happens and it is fetched again, or a trap was
taken. -/
inductive RvEnd where
  | next (s : State)
  | go (s : State) (pc : DWord)
  | wait (s : State)
  | trapped (s : State)

/-- The illegal-instruction exception (2); tval 0 (entry 89). -/
def rvIllegal (s : State) (c : Nat) : RvEnd := .trapped (mastTrap s c 2 0)

def ofAccess : MastEnd → RvEnd
  | .done s => .next s
  | .wait s => .wait s
  | .trapped s => .trapped s

/-! ## Integer arithmetic -/

/-- OP and OP-IMM by funct3, `alt` for SUB and SRA. -/
def rvAlu (f3 : Nat) (alt : Bool) (a b : DWord) : DWord :=
  let sh := b.toNat % 64
  match f3 with
  | 0 => if alt then a - b else a + b
  | 1 => a <<< sh
  | 2 => if a.slt b then 1 else 0
  | 3 => if a.ult b then 1 else 0
  | 4 => a ^^^ b
  | 5 => if alt then a.sshiftRight sh else a >>> sh
  | 6 => a ||| b
  | _ => a &&& b

/-- The word forms: ADDW, SUBW, SLLW, SRLW, SRAW. -/
def rvAluW (f3 : Nat) (alt : Bool) (a b : DWord) : Option DWord :=
  let x : Word := a.setWidth 32
  let sh := b.toNat % 32
  match f3 with
  | 0 => some ((if alt then x - b.setWidth 32 else x + b.setWidth 32).signExtend 64)
  | 1 => some ((x <<< sh).signExtend 64)
  | 5 => some ((if alt then x.sshiftRight sh else x >>> sh).signExtend 64)
  | _ => none

/-- The quotient and the remainder of two integers of `w` bits, toward zero: a divisor of 0 gives −1 and the dividend. -/
def rvQuot (a b : Int) : Int := if b = 0 then -1 else a.tdiv b
def rvRem (a b : Int) : Int := if b = 0 then a else a.tmod b

/-- M extension, 64 bits. -/
def rvMulDiv (f3 : Nat) (a b : DWord) : DWord :=
  match f3 with
  | 0 => a * b
  | 1 => BitVec.ofInt 64 (a.toInt * b.toInt / (2 ^ 64 : Nat))
  | 2 => BitVec.ofInt 64 (a.toInt * (b.toNat : Int) / (2 ^ 64 : Nat))
  | 3 => BitVec.ofNat 64 (a.toNat * b.toNat / 2 ^ 64)
  | 4 => BitVec.ofInt 64 (rvQuot a.toInt b.toInt)
  | 5 => if b = 0 then ~~~0 else BitVec.ofNat 64 (a.toNat / b.toNat)
  | 6 => BitVec.ofInt 64 (rvRem a.toInt b.toInt)
  | _ => if b = 0 then a else BitVec.ofNat 64 (a.toNat % b.toNat)

/-- M extension, 32 bits, sign-extended. -/
def rvMulDivW (f3 : Nat) (a b : DWord) : Option DWord :=
  let x : Word := a.setWidth 32
  let y : Word := b.setWidth 32
  let r : Option Word := match f3 with
    | 0 => some (x * y)
    | 4 => some (BitVec.ofInt 32 (rvQuot x.toInt y.toInt))
    | 5 => some (if y = 0 then ~~~0 else BitVec.ofNat 32 (x.toNat / y.toNat))
    | 6 => some (BitVec.ofInt 32 (rvRem x.toInt y.toInt))
    | 7 => some (if y = 0 then x else BitVec.ofNat 32 (x.toNat % y.toNat))
    | _ => none
  r.map (fun v => v.signExtend 64)

/-- A result of integer arithmetic: OP-IMM, OP-IMM-32, OP and OP-32; none for a reserved word. -/
def rvInt (s : State) (c w : Nat) : Option DWord :=
  let f3 := bits w 14 12
  let f7 := bits w 31 25
  let a := xReg s c (bits w 19 15)
  let b := xReg s c (bits w 24 20)
  match w % 128 with
  | 0x13 =>
    if f3 = 1 then (if bits w 31 26 = 0 then some (rvAlu 1 false a (immI w)) else none)
    else if f3 = 5 then (if bits w 31 26 = 0 ∨ bits w 31 26 = 0x10 then some (rvAlu 5 (bit w 30) a (immI w)) else none)
    else some (rvAlu f3 false a (immI w))
  | 0x1B =>
    if f3 = 0 then rvAluW 0 false a (immI w)
    else if f7 = 0 ∨ (f7 = 0x20 ∧ f3 = 5) then rvAluW f3 (bit w 30) a (immI w)
    else none
  | 0x33 =>
    if f7 = 1 then some (rvMulDiv f3 a b)
    else if f7 = 0 ∨ (f7 = 0x20 ∧ (f3 = 0 ∨ f3 = 5)) then some (rvAlu f3 (bit w 30) a b)
    else none
  | _ =>
    if f7 = 1 then rvMulDivW f3 a b
    else if f7 = 0 ∨ (f7 = 0x20 ∧ (f3 = 0 ∨ f3 = 5)) then rvAluW f3 (bit w 30) a b
    else none

/-- Whether a branch is taken; none for a reserved condition. -/
def rvBranch (f3 : Nat) (a b : DWord) : Option Bool :=
  match f3 with
  | 0 => some (a == b)
  | 1 => some (a != b)
  | 4 => some (a.slt b)
  | 5 => some (!a.slt b)
  | 6 => some (a.ult b)
  | 7 => some (!a.ult b)
  | _ => none

/-! ## Atomics -/

/-- The AMO of a funct5. -/
def amoOf (f5 : Nat) : Option AmoOp :=
  match f5 with
  | 0 => some .add | 1 => some .swap | 4 => some .xor | 8 => some .or | 12 => some .and
  | 16 => some .min | 20 => some .max | 24 => some .minu | 28 => some .maxu
  | _ => none

/-- LR, SC and the AMOs on words and doublewords. -/
def rvAtomic (s : State) (c w : Nat) : RvEnd :=
  let f3 := bits w 14 12
  let n := if f3 = 2 then 4 else 8
  let a := xReg s c (bits w 19 15)
  let d := xReg s c (bits w 24 20)
  let rd := bits w 11 7
  if f3 ≠ 2 ∧ f3 ≠ 3 then rvIllegal s c
  else match bits w 31 27 with
    | 2 => if bits w 24 20 = 0 then ofAccess (mastLr s c n a rd) else rvIllegal s c
    | 3 => ofAccess (mastSc s c n a d rd)
    | k => match amoOf k with
      | some o => ofAccess (mastAmo s c o n (bit w 26) a d rd)
      | none => rvIllegal s c

/-! ## Floating point -/

/-- An f register written: a single is boxed with ones above it, and the unit's state becomes dirty. -/
def setF (s : State) (c rd : Nat) (dbl : Bool) (v : Nat) : State :=
  let x : DWord := if dbl then BitVec.ofNat 64 v else BitVec.ofNat 64 (v % 2 ^ 32 + (2 ^ 64 - 2 ^ 32))
  modMast s c (fun m => { m with f := m.f.set rd x, fs := 3 })

/-- Exception flags accrued. -/
def accrue (s : State) (c flags : Nat) : State :=
  modMast s c (fun m => { m with fcsr := m.fcsr ||| BitVec.ofNat 8 (flags % 32), fs := if flags = 0 then m.fs else 3 })

def fmtOf (dbl : Bool) : Fmt := if dbl then fp64 else fp32

/-- An f register as an operand: a single that is not boxed reads as the canonical NaN. -/
def fVal (s : State) (c i : Nat) (dbl : Bool) : Nat :=
  let v := fReg s c i
  if dbl then v.toNat else if v.toNat / 2 ^ 32 = 2 ^ 32 - 1 then v.toNat % 2 ^ 32 else fmtNaN fp32

/-- The rounding mode of a word: its own, or that of frm; none for a reserved one. -/
def rvMode (s : State) (c w : Nat) : Option Nat :=
  let r := bits w 14 12
  let m := if r = 7 then (mast s c).fcsr.toNat / 32 else r
  if m ≤ 4 then some m else none

/-- A floating result and its flags written. -/
def doneF (s : State) (c rd : Nat) (dbl : Bool) (r : Flagged) : RvEnd := .next (accrue (setF s c rd dbl r.1) c r.2)

/-- FMADD, FMSUB, FNMSUB and FNMADD. -/
def rvFused (s : State) (c w : Nat) : RvEnd :=
  let dbl := bit w 25
  let v (i : Nat) := fVal s c i dbl
  match rvMode s c w, bits w 26 26 with
  | some rm, 0 => doneF s c (bits w 11 7) dbl
      (rvFma (fmtOf dbl) rm (bit w 3) (bit w 2) (v (bits w 19 15)) (v (bits w 24 20)) (v (bits w 31 27)))
  | _, _ => rvIllegal s c

/-- FCVT between an f and an x register: `k` names W, WU, L, LU. -/
def rvToX (s : State) (c w rm : Nat) (dbl : Bool) (k : Nat) : RvEnd :=
  let width := if k < 2 then 32 else 64
  let r := rvToInt (fmtOf dbl) rm width (decide (k % 2 = 0)) (fVal s c (bits w 19 15) dbl)
  let v : DWord := if k < 2 then sext32 (BitVec.ofNat 64 r.1) else BitVec.ofNat 64 r.1
  .next (accrue (setX s c (bits w 11 7) v) c r.2)

def rvFromX (s : State) (c w rm : Nat) (dbl : Bool) (k : Nat) : RvEnd :=
  let x := xReg s c (bits w 19 15)
  let v : Int := match k with
    | 0 => toInt 32 (x.toNat % 2 ^ 32)
    | 1 => (x.toNat % 2 ^ 32 : Nat)
    | 2 => x.toInt
    | _ => (x.toNat : Nat)
  doneF s c (bits w 11 7) dbl (rvFromInt (fmtOf dbl) rm v)

/-- FMV.X and FCLASS. -/
def rvMoveX (s : State) (c w : Nat) (dbl : Bool) : RvEnd :=
  let i := bits w 19 15
  let rd := bits w 11 7
  if bits w 24 20 ≠ 0 then rvIllegal s c
  else match bits w 14 12 with
    | 0 => .next (setX s c rd (if dbl then fReg s c i else sext32 (fReg s c i)))
    | 1 => .next (setX s c rd (BitVec.ofNat 64 (rvClass (fmtOf dbl) (fVal s c i dbl))))
    | _ => rvIllegal s c

/-- OP-FP words that round: by funct7 / 4. -/
def rvOpRound (s : State) (c w rm : Nat) (dbl : Bool) : RvEnd :=
  let f := fmtOf dbl
  let k := bits w 24 20
  let a := fVal s c (bits w 19 15) dbl
  let b := fVal s c k dbl
  let rd := bits w 11 7
  match bits w 31 27 with
  | 0 => doneF s c rd dbl (rvAdd f rm a b)
  | 1 => doneF s c rd dbl (rvSub f rm a b)
  | 2 => doneF s c rd dbl (rvMul f rm a b)
  | 3 => doneF s c rd dbl (rvDiv f rm a b)
  | 0x0B => if k = 0 then doneF s c rd dbl (rvSqrt f rm a) else rvIllegal s c
  | 0x08 =>
    if k = bnat (!dbl) then doneF s c rd dbl (rvConvert (fmtOf (!dbl)) f rm (fVal s c (bits w 19 15) (!dbl))) else rvIllegal s c
  | 0x18 => if k < 4 then rvToX s c w rm dbl k else rvIllegal s c
  | 0x1A => if k < 4 then rvFromX s c w rm dbl k else rvIllegal s c
  | _ => rvIllegal s c

/-- OP-FP words whose funct3 names the operation and not a rounding mode. -/
def rvOpPlain (s : State) (c w : Nat) (dbl : Bool) : Option RvEnd :=
  let f := fmtOf dbl
  let f3 := bits w 14 12
  let a := fVal s c (bits w 19 15) dbl
  let b := fVal s c (bits w 24 20) dbl
  let rd := bits w 11 7
  match bits w 31 27 with
  | 0x04 => some (if f3 < 3 then .next (setF s c rd dbl (rvSgnj f f3 a b)) else rvIllegal s c)
  | 0x05 => some (if f3 < 2 then doneF s c rd dbl (rvMinMax f (decide (f3 = 1)) a b) else rvIllegal s c)
  | 0x14 =>
    let r := rvCmp f f3 a b
    some (if f3 < 3 then .next (accrue (setX s c rd (BitVec.ofNat 64 r.1)) c r.2) else rvIllegal s c)
  | 0x1C => some (rvMoveX s c w dbl)
  | 0x1E =>
    some (if f3 = 0 ∧ bits w 24 20 = 0 then .next (setF s c rd dbl (xReg s c (bits w 19 15)).toNat) else rvIllegal s c)
  | _ => none

/-- OP-FP. -/
def rvOpFp (s : State) (c w : Nat) : RvEnd :=
  if bit w 26 then rvIllegal s c
  else match rvOpPlain s c w (bit w 25) with
    | some e => e
    | none => match rvMode s c w with
      | some rm => rvOpRound s c w rm (bit w 25)
      | none => rvIllegal s c

/-- FLW, FLD, FSW and FSD. -/
def rvLoadF (s : State) (c w : Nat) : RvEnd :=
  let dbl := bit w 12
  match mastLoad s c (xReg s c (bits w 19 15) + immI w).toNat (if dbl then 8 else 4) 0 with
  | (.ok l, s1) => .next (setF s1 c (bits w 11 7) dbl (leNat l))
  | (.error e, _) => ofAccess e

def rvStoreF (s : State) (c w : Nat) : RvEnd :=
  ofAccess (mastStore s c (if bit w 12 then 8 else 4) (xReg s c (bits w 19 15) + immS w).toNat (fReg s c (bits w 24 20)).toNat)

/-- A floating word: illegal while FS is Off. -/
def rvFloat (s : State) (c w : Nat) : RvEnd :=
  let wide := bits w 14 12 = 2 ∨ bits w 14 12 = 3
  if (mast s c).fs = 0 then rvIllegal s c
  else match w % 128 with
    | 0x07 => if wide then rvLoadF s c w else rvIllegal s c
    | 0x27 => if wide then rvStoreF s c w else rvIllegal s c
    | 0x53 => rvOpFp s c w
    | _ => rvFused s c w

/-! ## System instructions -/

/-- MRET: the mode and enable of before the trap; MPP takes the least mode that the part has (R322). -/
def rvMret (s : State) (c : Nat) : RvEnd :=
  let m := mast s c
  let back : Priv := match m.mpp with | 0 => .u | 1 => .s | _ => .m
  if m.mode ≠ .m then rvIllegal s c
  else .go (modMast s c (fun m => { m with
    mode := back, gie := m.gpie, gpie := true, mpp := if s.caps.getLsbD 4 then 0 else 3, mprv := m.mprv && decide (back = .m) })) m.mepc

/-- SRET: illegal in U mode, and in S mode while TSR is 1. -/
def rvSret (s : State) (c : Nat) : RvEnd :=
  let m := mast s c
  if m.mode = .u ∨ (m.mode = .s ∧ m.tsr) then rvIllegal s c
  else .go (modMast s c (fun m => { m with
    mode := if m.spp = 0 then .u else .s, sie := m.spie, spie := true, spp := if s.caps.getLsbD 4 then 0 else 1, mprv := false })) m.sepc

/-- The CSR instructions: CSRRW does not read for rd = x0; CSRRS and CSRRC do not write for a zero source field. A write into the read-only
ranges is illegal. -/
def rvCsr (s : State) (c w : Nat) : RvEnd :=
  let n := bits w 31 20
  let f3 := bits w 14 12
  let src := bits w 19 15
  let rd := bits w 11 7
  let v : DWord := if 4 ≤ f3 then BitVec.ofNat 64 src else xReg s c src
  let writes := decide (f3 % 4 = 1) || decide (src ≠ 0)
  if writes ∧ bits n 11 10 = 3 then rvIllegal s c
  else match readCsr s c n with
    | none => rvIllegal s c
    | some (old, t) =>
      let s1 := if f3 % 4 = 1 ∧ rd = 0 then s else t
      let new := match f3 % 4 with | 1 => v | 2 => old ||| v | _ => old &&& ~~~v
      .next (setX (if writes then writeCsr s1 c n new else s1) c rd old)

/-- ECALL, EBREAK, MRET, SRET, WFI and SFENCE.VMA. WFI may end at once; without translation SFENCE.VMA has nothing to do. -/
def rvPriv (s : State) (c w : Nat) : RvEnd :=
  let m := mast s c
  if w = 0x00000073 then .trapped (mastTrap s c (8 + m.mode.code) 0)
  else if w = 0x00100073 then .trapped (mastTrap s c 3 m.pc)
  else if w = 0x30200073 then rvMret s c
  else if w = 0x10200073 then rvSret s c
  else if w = 0x10500073 then (if m.mode = .u ∨ (m.mode = .s ∧ m.tw) then rvIllegal s c else .next s)
  else if bits w 31 25 = 9 ∧ bits w 11 7 = 0 then (if m.mode = .u ∨ (m.mode = .s ∧ m.tvm) then rvIllegal s c else .next s)
  else rvIllegal s c

/-! ## One instruction -/

/-- A load into an x register by funct3. -/
def rvLoad (s : State) (c w : Nat) : RvEnd :=
  let a := (xReg s c (bits w 19 15) + immI w).toNat
  let f3 := bits w 14 12
  if f3 = 7 then rvIllegal s c else ofAccess (mastLoadX s c (2 ^ (f3 % 4)) a (bits w 11 7) (decide (f3 < 4)))

def rvStore (s : State) (c w : Nat) : RvEnd :=
  let a := (xReg s c (bits w 19 15) + immS w).toNat
  let f3 := bits w 14 12
  if 4 ≤ f3 then rvIllegal s c else ofAccess (mastStore s c (2 ^ f3) a (xReg s c (bits w 24 20)).toNat)

/-- An instruction of 32 bits whose successor in memory lies `len` bytes on. -/
def rvExec (s : State) (c w len : Nat) : RvEnd :=
  let pc := (mast s c).pc
  let rd := bits w 11 7
  let a := xReg s c (bits w 19 15)
  let link := pc + BitVec.ofNat 64 len
  let result (o : Option DWord) : RvEnd := match o with | some v => .next (setX s c rd v) | none => rvIllegal s c
  match w % 128 with
  | 0x37 => result (some (immU w))
  | 0x17 => result (some (pc + immU w))
  | 0x6F => .go (setX s c rd link) (pc + immJ w)
  | 0x67 => if bits w 14 12 = 0 then .go (setX s c rd link) ((a + immI w) &&& ~~~1) else rvIllegal s c
  | 0x63 =>
    match rvBranch (bits w 14 12) a (xReg s c (bits w 24 20)) with
    | some t => if t then .go s (pc + immB w) else .next s
    | none => rvIllegal s c
  | 0x03 => rvLoad s c w
  | 0x23 => rvStore s c w
  | 0x13 | 0x1B | 0x33 | 0x3B => result (rvInt s c w)
  | 0x0F => if bits w 14 12 < 2 then .next (emptyReadAhead s c) else rvIllegal s c
  | 0x2F => rvAtomic s c w
  | 0x07 | 0x27 | 0x43 | 0x47 | 0x4B | 0x4F | 0x53 => rvFloat s c w
  | 0x73 => if bits w 14 12 = 0 then rvPriv s c w else if bits w 14 12 = 4 then rvIllegal s c else rvCsr s c w
  | _ => rvIllegal s c

/-- An instruction retires: the next program counter, and minstret unless it is inhibited. -/
def retire (s : State) (c : Nat) (pc : DWord) : State :=
  modMast s c (fun m => { m with pc := pc, instret := if m.mcountinhibit.getLsbD 2 then m.instret else m.instret + 1 })

/-- The instruction run, from a word or an expanded compressed word. -/
def rvRun (s : State) (c : Nat) (w : Option Nat) (len : Nat) : State :=
  match (match w with | some x => rvExec s c x len | none => rvIllegal s c) with
  | .next t => retire t c ((mast s c).pc + BitVec.ofNat 64 len)
  | .go t pc => retire t c pc
  | .wait t => t
  | .trapped t => t

/-- One instruction at the program counter: an interrupt that may be taken is (R315, RISC-V); else the parcels are fetched, 16 bits at a
time, and the instruction runs. A fetch that must wait changes nothing else and is made again. -/
def mastStep (s : State) (c : Nat) : State :=
  match mastInterrupt s c with
  | some (i, sup) => takeInterrupt s c i sup
  | none =>
    let pc := (mast s c).pc.toNat
    match mastLoad s c pc 2 2 with
    | (.error e, _) => e.state
    | (.ok l, s1) =>
      if leNat l % 4 ≠ 3 then rvRun s1 c (expandC (leNat l)) 2
      else match mastLoad s1 c ((pc + 2) % 2 ^ 64) 2 2 with
        | (.error e, _) => e.state
        | (.ok r, s2) => rvRun s2 c (some (leNat l + leNat r * 2 ^ 16)) 4

/-- MAST_LOAD_STORE (R312, R313, R323). A fetch at the program counter runs the instruction there; a fetch elsewhere only makes the access.
An access that must wait changes nothing else and is made again. -/
def execMastLoadStore (c : Nat) (k : MastAccess) (n : Nat) (a d : DWord) (rd : Nat) (s : State) : Outcome :=
  .next (if !mastUp s c ∨ !([1, 2, 4, 8].contains n) then s
    else match k with
      | .store => (mastStore s c n a.toNat d.toNat).state
      | .loadS => (mastLoadX s c n a.toNat rd true).state
      | .loadZ => (mastLoadX s c n a.toNat rd false).state
      | .fetch =>
        if a = (mast s c).pc then mastStep s c
        else match mastLoad s c a.toNat n 2 with
          | (.ok _, s1) => s1
          | (.error e, _) => e.state)

end Sys2Proof.Machine
end

