-- ==== Sys2Proof/Machine/Dispatch.lean ====
section
/-!
DEFINITION. Machine/Dispatch.lean: one arm for each instruction and event, each a call of its meaning.
-/
namespace Sys2Proof.Machine

/-- What an instruction or event does to the machine. -/
def exec (i : Instr) (s : State) : Host.Outcome State Fault Refusal :=
  match i with
  | .addS32 d b a => Sys2Proof.Machine.execAddS32 d b a s
  | .addS32Sat d b a => Sys2Proof.Machine.execAddS32Sat d b a s
  | .addZ32Sat d b a => Sys2Proof.Machine.execAddZ32Sat d b a s
  | .subS32 d b a => Sys2Proof.Machine.execSubS32 d b a s
  | .subS32Sat d b a => Sys2Proof.Machine.execSubS32Sat d b a s
  | .subZ32Sat d b a => Sys2Proof.Machine.execSubZ32Sat d b a s
  | .mulS32 d b a => Sys2Proof.Machine.execMulS32 d b a s
  | .mulhiS32 d b a => Sys2Proof.Machine.execMulhiS32 d b a s
  | .mulhiZ32 d b a => Sys2Proof.Machine.execMulhiZ32 d b a s
  | .minS32 d b a => Sys2Proof.Machine.execMinS32 d b a s
  | .maxS32 d b a => Sys2Proof.Machine.execMaxS32 d b a s
  | .minZ32 d b a => Sys2Proof.Machine.execMinZ32 d b a s
  | .maxZ32 d b a => Sys2Proof.Machine.execMaxZ32 d b a s
  | .absS32 d a => Sys2Proof.Machine.execAbsS32 d a s
  | .negS32 d a => Sys2Proof.Machine.execNegS32 d a s
  | .movB32 d a => Sys2Proof.Machine.execMovB32 d a s
  | .andB32 d b a => Sys2Proof.Machine.execAndB32 d b a s
  | .orB32 d b a => Sys2Proof.Machine.execOrB32 d b a s
  | .xorB32 d b a => Sys2Proof.Machine.execXorB32 d b a s
  | .andnB32 d b a => Sys2Proof.Machine.execAndnB32 d b a s
  | .notB32 d a => Sys2Proof.Machine.execNotB32 d a s
  | .addB64 d b a => Sys2Proof.Machine.execAddB64 d b a s
  | .subB64 d b a => Sys2Proof.Machine.execSubB64 d b a s
  | .mulwS32 d b a => Sys2Proof.Machine.execMulwS32 d b a s
  | .mulwZ32 d b a => Sys2Proof.Machine.execMulwZ32 d b a s
  | .divS32 d b a => Sys2Proof.Machine.execDivS32 d b a s
  | .divZ32 d b a => Sys2Proof.Machine.execDivZ32 d b a s
  | .remS32 d b a => Sys2Proof.Machine.execRemS32 d b a s
  | .remZ32 d b a => Sys2Proof.Machine.execRemZ32 d b a s
  | .shlB32 d b a => Sys2Proof.Machine.execShlB32 d b a s
  | .shrZ32 d b a => Sys2Proof.Machine.execShrZ32 d b a s
  | .shrS32 d b a => Sys2Proof.Machine.execShrS32 d b a s
  | .rolB32 d b a => Sys2Proof.Machine.execRolB32 d b a s
  | .shlB64 d b a => Sys2Proof.Machine.execShlB64 d b a s
  | .shrZ64 d b a => Sys2Proof.Machine.execShrZ64 d b a s
  | .shrS64 d b a => Sys2Proof.Machine.execShrS64 d b a s
  | .popcB32 d a => Sys2Proof.Machine.execPopcB32 d a s
  | .clzB32 d a => Sys2Proof.Machine.execClzB32 d a s
  | .ctzB32 d a => Sys2Proof.Machine.execCtzB32 d a s
  | .brevB32 d a => Sys2Proof.Machine.execBrevB32 d a s
  | .bfxS32 d b a => Sys2Proof.Machine.execBfxS32 d b a s
  | .bfxZ32 d b a => Sys2Proof.Machine.execBfxZ32 d b a s
  | .isetEqB32 d b a => Sys2Proof.Machine.execIsetEqB32 d b a s
  | .isetNeB32 d b a => Sys2Proof.Machine.execIsetNeB32 d b a s
  | .isetLtS32 d b a => Sys2Proof.Machine.execIsetLtS32 d b a s
  | .isetLeS32 d b a => Sys2Proof.Machine.execIsetLeS32 d b a s
  | .isetGtS32 d b a => Sys2Proof.Machine.execIsetGtS32 d b a s
  | .isetGeS32 d b a => Sys2Proof.Machine.execIsetGeS32 d b a s
  | .isetLtZ32 d b a => Sys2Proof.Machine.execIsetLtZ32 d b a s
  | .isetLeZ32 d b a => Sys2Proof.Machine.execIsetLeZ32 d b a s
  | .isetGtZ32 d b a => Sys2Proof.Machine.execIsetGtZ32 d b a s
  | .isetGeZ32 d b a => Sys2Proof.Machine.execIsetGeZ32 d b a s
  | .selB32 d b a => Sys2Proof.Machine.execSelB32 d b a s
  | .faddF32 m d b a => Sys2Proof.Machine.execFaddF32 m d b a s
  | .fsubF32 m d b a => Sys2Proof.Machine.execFsubF32 m d b a s
  | .fmulF32 m d b a => Sys2Proof.Machine.execFmulF32 m d b a s
  | .faddF16 m d b a => Sys2Proof.Machine.execFaddF16 m d b a s
  | .fsubF16 m d b a => Sys2Proof.Machine.execFsubF16 m d b a s
  | .fmulF16 m d b a => Sys2Proof.Machine.execFmulF16 m d b a s
  | .fminF32 d b a => Sys2Proof.Machine.execFminF32 d b a s
  | .fmaxF32 d b a => Sys2Proof.Machine.execFmaxF32 d b a s
  | .fminF16 d b a => Sys2Proof.Machine.execFminF16 d b a s
  | .fmaxF16 d b a => Sys2Proof.Machine.execFmaxF16 d b a s
  | .fabsF32 d a => Sys2Proof.Machine.execFabsF32 d a s
  | .fnegF32 d a => Sys2Proof.Machine.execFnegF32 d a s
  | .fabsF16 d a => Sys2Proof.Machine.execFabsF16 d a s
  | .fnegF16 d a => Sys2Proof.Machine.execFnegF16 d a s
  | .fsetF32 c d b a => Sys2Proof.Machine.execFsetF32 c d b a s
  | .fsetF16 c d b a => Sys2Proof.Machine.execFsetF16 c d b a s
  | .frndF32 m d a => Sys2Proof.Machine.execFrndF32 m d a s
  | .frndF16 m d a => Sys2Proof.Machine.execFrndF16 m d a s
  | .faddBf16x2 m d b a => Sys2Proof.Machine.execFaddBf16x2 m d b a s
  | .fmulBf16x2 m d b a => Sys2Proof.Machine.execFmulBf16x2 m d b a s
  | .faddF16x2 m d b a => Sys2Proof.Machine.execFaddF16x2 m d b a s
  | .fmulF16x2 m d b a => Sys2Proof.Machine.execFmulF16x2 m d b a s
  | .fminBf16x2 d b a => Sys2Proof.Machine.execFminBf16x2 d b a s
  | .fmaxBf16x2 d b a => Sys2Proof.Machine.execFmaxBf16x2 d b a s
  | .fminF16x2 d b a => Sys2Proof.Machine.execFminF16x2 d b a s
  | .fmaxF16x2 d b a => Sys2Proof.Machine.execFmaxF16x2 d b a s
  | .cvtF16F32 m d a => Sys2Proof.Machine.execCvtF16F32 m d a s
  | .cvtBf16F32 m d a => Sys2Proof.Machine.execCvtBf16F32 m d a s
  | .cvtBf16F16 m d a => Sys2Proof.Machine.execCvtBf16F16 m d a s
  | .cvtF16Bf16 m d a => Sys2Proof.Machine.execCvtF16Bf16 m d a s
  | .cvtF32F16 d a => Sys2Proof.Machine.execCvtF32F16 d a s
  | .cvtF32Bf16 d a => Sys2Proof.Machine.execCvtF32Bf16 d a s
  | .packBf16x2F32 d b a => Sys2Proof.Machine.execPackBf16x2F32 d b a s
  | .packF16x2F32 d b a => Sys2Proof.Machine.execPackF16x2F32 d b a s
  | .cvtIntF32 m d t a => Sys2Proof.Machine.execCvtIntF32 m d t a s
  | .cvtIntF16 m d t a => Sys2Proof.Machine.execCvtIntF16 m d t a s
  | .cvtIntBf16 m d t a => Sys2Proof.Machine.execCvtIntBf16 m d t a s
  | .cvtF32Int m d t a => Sys2Proof.Machine.execCvtF32Int m d t a s
  | .cvtF16Int m d t a => Sys2Proof.Machine.execCvtF16Int m d t a s
  | .cvtBf16Int m d t a => Sys2Proof.Machine.execCvtBf16Int m d t a s
  | .rcpF32 d a => Sys2Proof.Machine.execRcpF32 d a s
  | .rsqF32 d a => Sys2Proof.Machine.execRsqF32 d a s
  | .sqrtF32 d a => Sys2Proof.Machine.execSqrtF32 d a s
  | .ex2F32 d a => Sys2Proof.Machine.execEx2F32 d a s
  | .lg2F32 d a => Sys2Proof.Machine.execLg2F32 d a s
  | .sinF32 d a => Sys2Proof.Machine.execSinF32 d a s
  | .cosF32 d a => Sys2Proof.Machine.execCosF32 d a s
  | .rcpF16 d a => Sys2Proof.Machine.execRcpF16 d a s
  | .rsqF16 d a => Sys2Proof.Machine.execRsqF16 d a s
  | .sqrtF16 d a => Sys2Proof.Machine.execSqrtF16 d a s
  | .ex2F16 d a => Sys2Proof.Machine.execEx2F16 d a s
  | .lg2F16 d a => Sys2Proof.Machine.execLg2F16 d a s
  | .sinF16 d a => Sys2Proof.Machine.execSinF16 d a s
  | .cosF16 d a => Sys2Proof.Machine.execCosF16 d a s
  | .laneSelB32 d b a => Sys2Proof.Machine.execLaneSelB32 d b a s
  | .voteAny d a => Sys2Proof.Machine.execVoteAny d a s
  | .voteAll d a => Sys2Proof.Machine.execVoteAll d a s
  | .voteBal d a => Sys2Proof.Machine.execVoteBal d a s
  | .voteUni d a => Sys2Proof.Machine.execVoteUni d a s
  | .elect d => Sys2Proof.Machine.execElect d s
  | .sreg d n => Sys2Proof.Machine.execSreg d n s
  | .msig d b a => Sys2Proof.Machine.execMsig d b a s
  | .mark a => Sys2Proof.Machine.execMark a s
  | .rsvSet d b a => Sys2Proof.Machine.execRsvSet d b a s
  | .rsvFree a => Sys2Proof.Machine.execRsvFree a s
  | .rsvGet d a => Sys2Proof.Machine.execRsvGet d a s
  | .mxld f b a => Sys2Proof.Machine.execMxld f b a s
  | .mmaBf16 f a => Sys2Proof.Machine.execMmaBf16 f a s
  | .mmaF16 f a => Sys2Proof.Machine.execMmaF16 f a s
  | .mmaK f a => Sys2Proof.Machine.execMmaK f a s
  | .mmaKOl f b a => Sys2Proof.Machine.execMmaKOl f b a s
  | .mmaBf16G f a => Sys2Proof.Machine.execMmaBf16G f a s
  | .mmaF16G f a => Sys2Proof.Machine.execMmaF16G f a s
  | .mmaKG f a => Sys2Proof.Machine.execMmaKG f a s
  | .mmaKOlG f b a => Sys2Proof.Machine.execMmaKOlG f b a s
  | .gangSet a => Sys2Proof.Machine.execGangSet a s
  | .gangGet d => Sys2Proof.Machine.execGangGet d s
  | .accZero a => Sys2Proof.Machine.execAccZero a s
  | .accLd f b a => Sys2Proof.Machine.execAccLd f b a s
  | .accSt f b a => Sys2Proof.Machine.execAccSt f b a s
  | .accRd d f a => Sys2Proof.Machine.execAccRd d f a s
  | .accFree a => Sys2Proof.Machine.execAccFree a s
  | .groveVt f b a => Sys2Proof.Machine.execGroveVt f b a s
  | .groveSwap f a => Sys2Proof.Machine.execGroveSwap f a s
  | .groveRd d f a => Sys2Proof.Machine.execGroveRd d f a s
  | .atmAddZ32 q d c f b a => Sys2Proof.Machine.execAtmAddZ32 q d c f b a s
  | .atmAddF32 q d c f b a => Sys2Proof.Machine.execAtmAddF32 q d c f b a s
  | .atmMinS32 q d c f b a => Sys2Proof.Machine.execAtmMinS32 q d c f b a s
  | .atmMaxS32 q d c f b a => Sys2Proof.Machine.execAtmMaxS32 q d c f b a s
  | .atmMinZ32 q d c f b a => Sys2Proof.Machine.execAtmMinZ32 q d c f b a s
  | .atmMaxZ32 q d c f b a => Sys2Proof.Machine.execAtmMaxZ32 q d c f b a s
  | .atmAndB32 q d c f b a => Sys2Proof.Machine.execAtmAndB32 q d c f b a s
  | .atmOrB32 q d c f b a => Sys2Proof.Machine.execAtmOrB32 q d c f b a s
  | .atmXorB32 q d c f b a => Sys2Proof.Machine.execAtmXorB32 q d c f b a s
  | .atmExchB32 q d c f b a => Sys2Proof.Machine.execAtmExchB32 q d c f b a s
  | .atmCasB32 q d c f b a => Sys2Proof.Machine.execAtmCasB32 q d c f b a s
  | .ldAcqB32 d c f a => Sys2Proof.Machine.execLdAcqB32 d c f a s
  | .ldAcqB64 d c f a => Sys2Proof.Machine.execLdAcqB64 d c f a s
  | .stRelB32 c f b a => Sys2Proof.Machine.execStRelB32 c f b a s
  | .stRelB64 c f b a => Sys2Proof.Machine.execStRelB64 c f b a s
  | .monWaitEq d c f b a => Sys2Proof.Machine.execMonWaitEq d c f b a s
  | .monWaitNe d c f b a => Sys2Proof.Machine.execMonWaitNe d c f b a s
  | .monWaitGez d c f b a => Sys2Proof.Machine.execMonWaitGez d c f b a s
  | .arriveInit d f b a => Sys2Proof.Machine.execArriveInit d f b a s
  | .arriveAdd d f b a => Sys2Proof.Machine.execArriveAdd d f b a s
  | .arriveWait d c f b a => Sys2Proof.Machine.execArriveWait d c f b a s
  | .fence c => Sys2Proof.Machine.execFence c s
  | .fenceX c r p => Sys2Proof.Machine.execFenceX c r p s
  | .hint d f b a => Sys2Proof.Machine.execHint d f b a s
  | .pgset d f b a => Sys2Proof.Machine.execPgset d f b a s
  | .fmaF32 d c b a => Sys2Proof.Machine.execFmaF32 d c b a s
  | .fmsF32 d c b a => Sys2Proof.Machine.execFmsF32 d c b a s
  | .fmaF16 d c b a => Sys2Proof.Machine.execFmaF16 d c b a s
  | .fmaBf16x2 d c b a => Sys2Proof.Machine.execFmaBf16x2 d c b a s
  | .fmaF16x2 d c b a => Sys2Proof.Machine.execFmaF16x2 d c b a s
  | .imadS32 d c b a => Sys2Proof.Machine.execImadS32 d c b a s
  | .imadZ32 d c b a => Sys2Proof.Machine.execImadZ32 d c b a s
  | .shladd d c b a => Sys2Proof.Machine.execShladd d c b a s
  | .addS32Imm d n a => Sys2Proof.Machine.execAddS32Imm d n a s
  | .addS32SatImm d n a => Sys2Proof.Machine.execAddS32SatImm d n a s
  | .mulS32Imm d n a => Sys2Proof.Machine.execMulS32Imm d n a s
  | .andB32Imm d n a => Sys2Proof.Machine.execAndB32Imm d n a s
  | .orB32Imm d n a => Sys2Proof.Machine.execOrB32Imm d n a s
  | .xorB32Imm d n a => Sys2Proof.Machine.execXorB32Imm d n a s
  | .shlB32Imm d n a => Sys2Proof.Machine.execShlB32Imm d n a s
  | .shrZ32Imm d n a => Sys2Proof.Machine.execShrZ32Imm d n a s
  | .shrS32Imm d n a => Sys2Proof.Machine.execShrS32Imm d n a s
  | .minS32Imm d n a => Sys2Proof.Machine.execMinS32Imm d n a s
  | .maxS32Imm d n a => Sys2Proof.Machine.execMaxS32Imm d n a s
  | .movB32Imm d n => Sys2Proof.Machine.execMovB32Imm d n s
  | .adr d n => Sys2Proof.Machine.execAdr d n s
  | .isetEqB32Imm d n a => Sys2Proof.Machine.execIsetEqB32Imm d n a s
  | .isetNeB32Imm d n a => Sys2Proof.Machine.execIsetNeB32Imm d n a s
  | .isetLtS32Imm d n a => Sys2Proof.Machine.execIsetLtS32Imm d n a s
  | .isetLeS32Imm d n a => Sys2Proof.Machine.execIsetLeS32Imm d n a s
  | .isetGtS32Imm d n a => Sys2Proof.Machine.execIsetGtS32Imm d n a s
  | .isetGeS32Imm d n a => Sys2Proof.Machine.execIsetGeS32Imm d n a s
  | .isetLtZ32Imm d n a => Sys2Proof.Machine.execIsetLtZ32Imm d n a s
  | .isetLeZ32Imm d n a => Sys2Proof.Machine.execIsetLeZ32Imm d n a s
  | .isetGtZ32Imm d n a => Sys2Proof.Machine.execIsetGtZ32Imm d n a s
  | .isetGeZ32Imm d n a => Sys2Proof.Machine.execIsetGeZ32Imm d n a s
  | .ldS8 r f b x => Sys2Proof.Machine.execLdS8 r f b x s
  | .ldZ8 r f b x => Sys2Proof.Machine.execLdZ8 r f b x s
  | .ldS16 r f b x => Sys2Proof.Machine.execLdS16 r f b x s
  | .ldZ16 r f b x => Sys2Proof.Machine.execLdZ16 r f b x s
  | .ldB32 r f b x => Sys2Proof.Machine.execLdB32 r f b x s
  | .ldB64 r f b x => Sys2Proof.Machine.execLdB64 r f b x s
  | .ldB128 r f b x => Sys2Proof.Machine.execLdB128 r f b x s
  | .stB8 r f b x => Sys2Proof.Machine.execStB8 r f b x s
  | .stB16 r f b x => Sys2Proof.Machine.execStB16 r f b x s
  | .stB32 r f b x => Sys2Proof.Machine.execStB32 r f b x s
  | .stB64 r f b x => Sys2Proof.Machine.execStB64 r f b x s
  | .stB128 r f b x => Sys2Proof.Machine.execStB128 r f b x s
  | .ldsB32 r f b x => Sys2Proof.Machine.execLdsB32 r f b x s
  | .ldsB64 r f b x => Sys2Proof.Machine.execLdsB64 r f b x s
  | .ldsB128 r f b x => Sys2Proof.Machine.execLdsB128 r f b x s
  | .stsB32 r f b x => Sys2Proof.Machine.execStsB32 r f b x s
  | .stsB64 r f b x => Sys2Proof.Machine.execStsB64 r f b x s
  | .stsB128 r f b x => Sys2Proof.Machine.execStsB128 r f b x s
  | .ldrB32 r f b x => Sys2Proof.Machine.execLdrB32 r f b x s
  | .ldrB64 r f b x => Sys2Proof.Machine.execLdrB64 r f b x s
  | .strB32 r f b x => Sys2Proof.Machine.execStrB32 r f b x s
  | .strB64 r f b x => Sys2Proof.Machine.execStrB64 r f b x s
  | .ldhB32 r f b x => Sys2Proof.Machine.execLdhB32 r f b x s
  | .ldhB64 r f b x => Sys2Proof.Machine.execLdhB64 r f b x s
  | .sthB32 r f b x => Sys2Proof.Machine.execSthB32 r f b x s
  | .sthB64 r f b x => Sys2Proof.Machine.execSthB64 r f b x s
  | .gatherB32 r f b x => Sys2Proof.Machine.execGatherB32 r f b x s
  | .xfer r f b x => Sys2Proof.Machine.execXfer r f b x s
  | .coll r f b x => Sys2Proof.Machine.execColl r f b x s
  | .launch r f b x => Sys2Proof.Machine.execLaunch r f b x s
  | .groveRow r f b x => Sys2Proof.Machine.execGroveRow r f b x s
  | .bra n => Sys2Proof.Machine.execBra n s
  | .brz n => Sys2Proof.Machine.execBrz n s
  | .brnz n => Sys2Proof.Machine.execBrnz n s
  | .call n => Sys2Proof.Machine.execCall n s
  | .ret => Sys2Proof.Machine.execRet s
  | .endThread => Sys2Proof.Machine.execEndThread s
  | .trap n => Sys2Proof.Machine.execTrap n s
  | .syscall n => Sys2Proof.Machine.execSyscall n s
  | .brk n => Sys2Proof.Machine.execBrk n s
  | .const n => Sys2Proof.Machine.execConst n s
  | .consthi n => Sys2Proof.Machine.execConsthi n s
  | .bundleTurn core lf => Sys2Proof.Machine.execBundleTurn core lf s
  | .bundleAccept core slot => Sys2Proof.Machine.execBundleAccept core slot s
  | .resultDeliver core op => Sys2Proof.Machine.execResultDeliver core op s
  | .workgroupFinish wg => Sys2Proof.Machine.execWorkgroupFinish wg s
  | .clusterPlace => Sys2Proof.Machine.execClusterPlace s
  | .laneFrameMove core => Sys2Proof.Machine.execLaneFrameMove core s
  | .scratchFrameEmpty core frame => Sys2Proof.Machine.execScratchFrameEmpty core frame s
  | .workgroupStart wg => Sys2Proof.Machine.execWorkgroupStart wg s
  | .translationWalk core req => Sys2Proof.Machine.execTranslationWalk core req s
  | .translationExpiry core ctx vpn => Sys2Proof.Machine.execTranslationExpiry core ctx vpn s
  | .frameAccess core req => Sys2Proof.Machine.execFrameAccess core req s
  | .homeSliceAccess core req => Sys2Proof.Machine.execHomeSliceAccess core req s
  | .frameRemap seq => Sys2Proof.Machine.execFrameRemap seq s
  | .placementDone seq => Sys2Proof.Machine.execPlacementDone seq s
  | .invalidation inv => Sys2Proof.Machine.execInvalidation inv s
  | .invalidationAck inv => Sys2Proof.Machine.execInvalidationAck inv s
  | .invalidationResend inv => Sys2Proof.Machine.execInvalidationResend inv s
  | .writeQueueDepart core req => Sys2Proof.Machine.execWriteQueueDepart core req s
  | .hbmWriteCharge wr => Sys2Proof.Machine.execHbmWriteCharge wr s
  | .writeLaneDone stack chan crcOk => Sys2Proof.Machine.execWriteLaneDone stack chan crcOk s
  | .windowBoundary vf junction => Sys2Proof.Machine.execWindowBoundary vf junction s
  | .codeSwitchBoundary stack chan writes dbi low => Sys2Proof.Machine.execCodeSwitchBoundary stack chan writes dbi low s
  | .jbudWrite core v => Sys2Proof.Machine.execJbudWrite core v s
  | .hcfgWrite stack v => Sys2Proof.Machine.execHcfgWrite stack v s
  | .poolSlotTake mig => Sys2Proof.Machine.execPoolSlotTake mig s
  | .capReadReturn mig blk bad => Sys2Proof.Machine.execCapReadReturn mig blk bad s
  | .capReadTimeout mig blk => Sys2Proof.Machine.execCapReadTimeout mig blk s
  | .migrationComplete mig => Sys2Proof.Machine.execMigrationComplete mig s
  | .migrationDeadline core lf => Sys2Proof.Machine.execMigrationDeadline core lf s
  | .directReadReturn core op bad => Sys2Proof.Machine.execDirectReadReturn core op bad s
  | .loadReturn core op => Sys2Proof.Machine.execLoadReturn core op s
  | .atomicPerform core req => Sys2Proof.Machine.execAtomicPerform core req s
  | .atomicReply core op => Sys2Proof.Machine.execAtomicReply core op s
  | .atomicTimeout core op => Sys2Proof.Machine.execAtomicTimeout core op s
  | .monitorRecheck mon => Sys2Proof.Machine.execMonitorRecheck mon s
  | .monitorStorageError die slice => Sys2Proof.Machine.execMonitorStorageError die slice s
  | .fenceComplete core lf => Sys2Proof.Machine.execFenceComplete core lf s
  | .pageAttrPage req => Sys2Proof.Machine.execPageAttrPage req s
  | .atsTranslationCompletion core page st => Sys2Proof.Machine.execAtsTranslationCompletion core page st s
  | .atsTimeout core page => Sys2Proof.Machine.execAtsTimeout core page s
  | .pageRequestGroupResponse core page resp => Sys2Proof.Machine.execPageRequestGroupResponse core page resp s
  | .atsInvalidationRequest pasid page count => Sys2Proof.Machine.execAtsInvalidationRequest pasid page count s
  | .invalidationCompletion req => Sys2Proof.Machine.execInvalidationCompletion req s
  | .hostReadTimeout core op err => Sys2Proof.Machine.execHostReadTimeout core op err s
  | .engineEntryStart core ent => Sys2Proof.Machine.execEngineEntryStart core ent s
  | .engineEntryFinish core ent => Sys2Proof.Machine.execEngineEntryFinish core ent s
  | .groveLaneDone core ent => Sys2Proof.Machine.execGroveLaneDone core ent s
  | .xferPartApplied core ent => Sys2Proof.Machine.execXferPartApplied core ent s
  | .collChunkDone core ent => Sys2Proof.Machine.execCollChunkDone core ent s
  | .launchRecordCopy core ent => Sys2Proof.Machine.execLaunchRecordCopy core ent s
  | .callRingPost core lf => Sys2Proof.Machine.execCallRingPost core lf s
  | .syscallReturn core slot => Sys2Proof.Machine.execSyscallReturn core slot s
  | .qnotifyWrite q v => Sys2Proof.Machine.execQnotifyWrite q v s
  | .queueEntryFetch q => Sys2Proof.Machine.execQueueEntryFetch q s
  | .queueEntryRefetch q => Sys2Proof.Machine.execQueueEntryRefetch q s
  | .qerrWrite q v => Sys2Proof.Machine.execQerrWrite q v s
  | .sliceExpiry => Sys2Proof.Machine.execSliceExpiry s
  | .sliceIdleEnd => Sys2Proof.Machine.execSliceIdleEnd s
  | .mcallqRead core rd => Sys2Proof.Machine.execMcallqRead core rd s
  | .mmsgaRead core rd => Sys2Proof.Machine.execMmsgaRead core rd s
  | .mntpendWrite core v => Sys2Proof.Machine.execMntpendWrite core v s
  | .notifyWrite core k v => Sys2Proof.Machine.execNotifyWrite core k v s
  | .windowRegisterWrite core lf lane word v => Sys2Proof.Machine.execWindowRegisterWrite core lf lane word v s
  | .windowEnd core lf lane => Sys2Proof.Machine.execWindowEnd core lf lane s
  | .windowUnpark core lf lane => Sys2Proof.Machine.execWindowUnpark core lf lane s
  | .mastLoadStore core k size addr data rd => Sys2Proof.Machine.execMastLoadStore core k size addr data rd s
  | .mastAmo core o size aq rl addr data rd => Sys2Proof.Machine.execMastAmo core o size aq rl addr data rd s
  | .mastLr core size addr rd => Sys2Proof.Machine.execMastLr core size addr rd s
  | .mastSc core size addr data rd => Sys2Proof.Machine.execMastSc core size addr data rd s
  | .mastFence core instr => Sys2Proof.Machine.execMastFence core instr s
  | .hostMemRead link addr len caching => Sys2Proof.Machine.execHostMemRead link addr len caching s
  | .hostMemWrite link addr data => Sys2Proof.Machine.execHostMemWrite link addr data s
  | .backInvalidateResponse snoop => Sys2Proof.Machine.execBackInvalidateResponse snoop s
  | .cxlCacheSnoop link addr => Sys2Proof.Machine.execCxlCacheSnoop link addr s
  | .readCapabilityWord m => Sys2Proof.Machine.execReadCapabilityWord m s
  | .setCtxtab m a0 => Sys2Proof.Machine.execSetCtxtab m a0 s
  | .writeQuantumEntry m fn entry v => Sys2Proof.Machine.execWriteQuantumEntry m fn entry v s
  | .writeFabricGroup m group a1 a2 a3 a4 => Sys2Proof.Machine.execWriteFabricGroup m group a1 a2 a3 a4 s
  | .writeHostKeyTable m granule key => Sys2Proof.Machine.execWriteHostKeyTable m granule key s
  | .readDieState m die => Sys2Proof.Machine.execReadDieState m die s
  | .readMeasurement m => Sys2Proof.Machine.execReadMeasurement m s
  | .writeBootaddr m a0 => Sys2Proof.Machine.execWriteBootaddr m a0 s
  | .copyRecords m a0 a1 a2 a3 => Sys2Proof.Machine.execCopyRecords m a0 a1 a2 a3 s
  | .readSealWord m a0 => Sys2Proof.Machine.execReadSealWord m a0 s
  | .rearmCapture m a0 => Sys2Proof.Machine.execRearmCapture m a0 s
  | .writeRctl m a0 v => Sys2Proof.Machine.execWriteRctl m a0 v s
  | .readRctl m a0 => Sys2Proof.Machine.execReadRctl m a0 s
  | .dbgctlWrite m v => Sys2Proof.Machine.execDbgctlWrite m v s
  | .dbgctlRead m => Sys2Proof.Machine.execDbgctlRead m s
  | .haltreq m => Sys2Proof.Machine.execHaltreq m s
  | .undoLogClear m undo => Sys2Proof.Machine.execUndoLogClear m undo s
  | .stepBack m core lf k => Sys2Proof.Machine.execStepBack m core lf k s
  | .haltStatusRead m => Sys2Proof.Machine.execHaltStatusRead m s
  | .contextResume by_ => Sys2Proof.Machine.execContextResume by_ s
  | .contextEnd by_ => Sys2Proof.Machine.execContextEnd by_ s
  | .abandonBusySequence m ctx va => Sys2Proof.Machine.execAbandonBusySequence m ctx va s
  | .setMirrorRange m a0 a1 a2 a3 => Sys2Proof.Machine.execSetMirrorRange m a0 a1 a2 a3 s
  | .readPoisonEntry m entry => Sys2Proof.Machine.execReadPoisonEntry m entry s
  | .clearPoisonEntry m entry => Sys2Proof.Machine.execClearPoisonEntry m entry s
  | .writeKeySlot m a0 a1 => Sys2Proof.Machine.execWriteKeySlot m a0 a1 s
  | .readRasCounters m num frames clear => Sys2Proof.Machine.execReadRasCounters m num frames clear s
  | .readLostBlock m die slice entry => Sys2Proof.Machine.execReadLostBlock m die slice entry s
  | .clearLostBlock m die slice entry => Sys2Proof.Machine.execClearLostBlock m die slice entry s
  | .abandonEngineEntry m a0 => Sys2Proof.Machine.execAbandonEngineEntry m a0 s
  | .armGangLaunch m a0 a1 => Sys2Proof.Machine.execArmGangLaunch m a0 a1 s
  | .readGangStatus m q => Sys2Proof.Machine.execReadGangStatus m q s
  | .copyCapsuleSummary m index dst => Sys2Proof.Machine.execCopyCapsuleSummary m index dst s
  | .copyCapsuleSlot m slot dst off len => Sys2Proof.Machine.execCopyCapsuleSlot m slot dst off len s
  | .releaseCapsuleSlot m slot => Sys2Proof.Machine.execReleaseCapsuleSlot m slot s
  | .warmResetDie m die force => Sys2Proof.Machine.execWarmResetDie m die force s
  | .readBootCode m => Sys2Proof.Machine.execReadBootCode m s
  | .mailboxUnknownCommand m code => Sys2Proof.Machine.execMailboxUnknownCommand m code s
  | .registerWrite r v => Sys2Proof.Machine.execRegisterWrite r v s
  | .packageReset linkUp readOk => Sys2Proof.Machine.execPackageReset linkUp readOk s
  | .bootBlockFetch blk readOk => Sys2Proof.Machine.execBootBlockFetch blk readOk s
  | .dieStateChange die st => Sys2Proof.Machine.execDieStateChange die st s
  | .powerArbiterTick dieCaps stackCaps => Sys2Proof.Machine.execPowerArbiterTick dieCaps stackCaps s
  | .thermalCooldown die => Sys2Proof.Machine.execThermalCooldown die s
  | .packageOverdraw => Sys2Proof.Machine.execPackageOverdraw s
  | .coolantLoss die => Sys2Proof.Machine.execCoolantLoss die s
  | .supplyFault die => Sys2Proof.Machine.execSupplyFault die s
  | .stallSample core => Sys2Proof.Machine.execStallSample core s
  | .timebaseWrap => Sys2Proof.Machine.execTimebaseWrap s
  | .lostRecord core => Sys2Proof.Machine.execLostRecord core s
  | .haltLineArrive core skid => Sys2Proof.Machine.execHaltLineArrive core skid s
  | .capsuleAssembly => Sys2Proof.Machine.execCapsuleAssembly s
  | .busyWatchdogExpiry seq => Sys2Proof.Machine.execBusyWatchdogExpiry seq s
  | .gangWatchdogExpiry latch => Sys2Proof.Machine.execGangWatchdogExpiry latch s
  | .flitCrcError die1 die2 => Sys2Proof.Machine.execFlitCrcError die1 die2 s
  | .linkLaneFailure die1 die2 spares => Sys2Proof.Machine.execLinkLaneFailure die1 die2 spares s
  | .linkDown die1 die2 retrained => Sys2Proof.Machine.execLinkDown die1 die2 retrained s
  | .dieLost die => Sys2Proof.Machine.execDieLost die s
  | .fabricPortFailure port => Sys2Proof.Machine.execFabricPortFailure port s
  | .collMemberAbsent core ent member => Sys2Proof.Machine.execCollMemberAbsent core ent member s
  | .gangAck q member => Sys2Proof.Machine.execGangAck q member s
  | .gangDeadline q => Sys2Proof.Machine.execGangDeadline q s
  | .illegalInstruction k w => Sys2Proof.Machine.execIllegalInstruction k w s
  | .demotionComplete req => Sys2Proof.Machine.execDemotionComplete req s
  | .linkComesBack die1 die2 => Sys2Proof.Machine.execLinkComesBack die1 die2 s
  | .portRemovedFromTree port => Sys2Proof.Machine.execPortRemovedFromTree port s
  | .powerLoss => Sys2Proof.Machine.execPowerLoss s
  | .functionLevelReset fn => Sys2Proof.Machine.execFunctionLevelReset fn s

end Sys2Proof.Machine
end

