-- ==== Sys2Proof/Machine/Schedule.lean ====
section
/-!
DEFINITION. Machine/Schedule.lean: which instruction or event the machine takes next (entry 4). In each cycle a window boundary comes
first (R353), then the agenda (inputs and events from outside), then the events of the part that are due, once each, then the words that
running clauses issue, one by one, then the ends of slices and the latches' watchdogs; then the clock goes on.
-/
namespace Sys2Proof.Machine

/-- What comes next: an instruction or event to run in a state, or the outcome of what is due. -/
inductive Choice where
  | run (i : Instr) (s : State)
  | out (o : Outcome)

/-- The link of a request from a host. -/
def fromLink (i : Instr) : Option Nat :=
  match i with
  | .hostMemRead l _ _ _ => some l
  | .hostMemWrite l _ _ => some l
  | .notifyWrite x _ _ => some x.link
  | _ => none

/-- Whether a read of a seal word is asked for. -/
def readsSeal (i : Instr) : Bool := match i with | .readSealWord _ _ => true | _ => false

/-- Whether an agenda entry can run now. Requests from hosts reach the homes in fabric cycles, after the cores (R74), and a seal word is
read after the remaps of its cycle (R355). -/
def agendaReady (s : State) (e : Nat × Instr) : Bool :=
  decide (e.1 ≤ s.cycle) &&
  (if (fromLink e.2).isSome then fabricTick s && decide (s.cycle < s.swept) else !readsSeal e.2 || decide (s.cycle < s.swept))

/-- The agenda's first entry that can run now and passes a test; of the hosts' requests those of link 0 go first (R74). -/
def dueAgenda (s : State) (p : Instr → Bool) : Option (Instr × State) :=
  let ready := s.agenda.filter (fun e => agendaReady s e && p e.2)
  ((ready.find? (fun e => decide (fromLink e.2 ≠ some 1))) <|> ready.head?).map (fun e => (e.2, { s with agenda := s.agenda.erase e }))

/-- Whether an entry of the agenda is a window boundary. -/
def isBoundary (i : Instr) : Bool := match i with | .windowBoundary _ _ => true | _ => false

/-- Whether a window begins in this cycle and has not begun yet: every record of the cycle carries the state that the boundary brings
(R353). -/
def windowDue (s : State) : Bool := s.powered && decide (s.cycle % 1024 = 0 ∧ s.cycle ≠ 0 ∧ s.lastWindow ≠ s.cycle + 1)

/-! ## Words -/

/-- The word at the point that a running clause has reached (R136, R137, R161): it decodes, it is illegal, its fetch failed, or
its page lies in the capacity tier. -/
def wordChoice (s : State) (u : Iss) : Choice :=
  match u.cl.words.getD (u.cl.pos - 1) (.word 0) with
  | .word w =>
    match decodeIn u.hdr.cls (lastWord u) w with
    | .ok i => .run i s
    | .error k => .out (execIllegalInstruction k w s)
  | .bad k d => .out (.next (trap s u k d))
  | .cap p => .out (.next (parkCap s u p 2 none))
  | .wait => .out (.next (hold s))

/-- The meaning of the word that a bundle has reached, if it is one that reads its word at the home as it issues (MON.WAIT, ARRIVE.WAIT):
it takes its core's turn among the accesses of a fabric cycle (R74). -/
def waitWord (u : Iss) : Option (State → Outcome) :=
  if u.hdr.cls ≠ 1 then none
  else match u.cl.words.getD (u.cl.pos - 1) (.word 0) with
    | .word w => match decodeIn u.hdr.cls (lastWord u) w with
      | .ok (.monWaitEq d c f b a) => some (execMonWaitEq d c f b a)
      | .ok (.monWaitNe d c f b a) => some (execMonWaitNe d c f b a)
      | .ok (.monWaitGez d c f b a) => some (execMonWaitGez d c f b a)
      | .ok (.arriveWait d c f b a) => some (execArriveWait d c f b a)
      | _ => none
    | _ => none

/-- Whether a lane frame's running clause may issue a word in this cycle (R163: at most one a cycle); a lost die's does not (R426). -/
def mayIssue (s : State) (c : Nat) (f : LaneFrame) : Bool :=
  match f.clause with
  | some cl => decide (cl.nextAt ≤ s.cycle) && f.fence.isNone && f.call.isNone && !dieGone s (dieOf c)
  | none => false

/-- The first lane frame of a core whose word issues of itself. -/
def readyLf (s : State) (c : Nat) : Option Nat :=
  ((core s c).c.lfs.find? (fun e => mayIssue s c e.2 && (match e.2.clause with
    | some cl => (waitWord ⟨c, e.1, e.2, cl⟩).isNone
    | none => false))).map (fun e => e.1)

/-- A lane frame's word issues: a word that holds is offered again in the next cycle. -/
def atWord (s : State) (c l : Nat) : State :=
  { modLF s c l (fun f => { f with clause := f.clause.map (fun k => { k with nextAt := s.cycle + 1 }) }) with at_ := some (c, l) }

/-- The next lane frame whose word issues. -/
def selectWord (s : State) : Option State :=
  (s.cores.findSome? (fun e => (readyLf s e.1).map (fun l => (e.1, l)))).map (fun e => atWord s e.1 e.2)

/-! ## Commands that a Mast has written to the mailbox (R328) -/

/-- The meaning of a command with the arguments in the mailbox. -/
def mailboxCommand (m : MbxMaster) (code : Nat) (s : State) : Outcome :=
  let a (i : Nat) : DWord := s.mbxArgs.getD i 0
  let n (i : Nat) : Nat := (a i).toNat
  match code with
  | 0x10 => execReadCapabilityWord m s
  | 0x11 => execSetCtxtab m (a 0) s
  | 0x12 => execWriteQuantumEntry m (bits (n 0) 6 0) (bits (n 0) 13 8) ((a 1).setWidth 32) s
  | 0x13 => execWriteFabricGroup m (n 0) (a 1) (a 2) (a 3) (a 4) s
  | 0x14 => execWriteHostKeyTable m (n 0) (n 1) s
  | 0x15 => execReadDieState m (n 0) s
  | 0x16 => execReadMeasurement m s
  | 0x17 => execWriteBootaddr m (a 0) s
  | 0x18 => execCopyRecords m (a 0) (a 1) (a 2) (a 3) s
  | 0x19 => execReadSealWord m (a 0) s
  | 0x1A => execRearmCapture m (a 0) s
  | 0x1B => if (a 2).getLsbD 0 then execWriteRctl m (a 0) ((a 1).setWidth 32) s else execReadRctl m (a 0) s
  | 0x1C => if (a 2).getLsbD 0 then execDbgctlWrite m (a 1) s else execDbgctlRead m s
  | 0x1D => execStepBack m (n 0) (n 1) (n 2) s
  | 0x1E =>
    if (a 0).getLsbD 1 then execContextEnd (.mailbox m) s
    else if (a 0).getLsbD 0 then execContextResume (.mailbox m) s
    else execHaltStatusRead m s
  | 0x1F => execAbandonBusySequence m (n 0) (n 1) s
  | 0x20 => execSetMirrorRange m (a 0) (a 1) (a 2) (a 3) s
  | 0x21 => if (a 0).getLsbD 8 then execClearPoisonEntry m (n 0) s else execReadPoisonEntry m (n 0) s
  | 0x22 => execWriteKeySlot m (a 0) (a 1) s
  | 0x23 => execReadRasCounters m (bits (n 0) 3 0) ((a 0).getLsbD 8) ((a 1).getLsbD 0) s
  | 0x24 =>
    if (a 0).getLsbD 15 then execClearLostBlock m (bits (n 0) 3 0) (bits (n 0) 8 4) (bits (n 0) 14 9) s
    else execReadLostBlock m (bits (n 0) 3 0) (bits (n 0) 8 4) (bits (n 0) 14 9) s
  | 0x25 => execAbandonEngineEntry m (a 0) s
  | 0x26 => execArmGangLaunch m (a 0) (a 1) s
  | 0x27 => execReadGangStatus m (bits (n 0) 5 0) s
  | 0x28 => execCopyCapsuleSummary m (n 0) (a 1) s
  | 0x29 => execCopyCapsuleSlot m (n 0) (a 1) (n 2) (n 3) s
  | 0x2A => execReleaseCapsuleSlot m (n 0) s
  | 0x2B => execWarmResetDie m (bits (n 0) 3 0) ((a 0).getLsbD 8) s
  | 0x2C => execReadBootCode m s
  | k => execMailboxUnknownCommand m k s

/-- A pending command tried, of core `c`'s Mast or (1024) of the physical function: while BUSY still reads 1 it stays pending. One that the
part has ceased to serve (R430) goes; what it answers is a free value (entry 25). -/
def pendingCommand (s : State) : State :=
  match s.mbxCmd with
  | none => s
  | some (code, c) =>
    if !served s code then answerOpen { s with mbxCmd := none }
    else match mailboxCommand (if c = 1024 then .pf else .mastM c) code { s with mbxCmd := none } with
      | .next t => if t.mbxResp.getLsbD 31 then { t with mbxCmd := some (code, c) } else t
      | _ => s

/-! ## The events of the part that are due -/

/-- A due event's outcome as a state: what may not happen now leaves the state as it is. -/
def settleOut (s : State) (o : Outcome) : State :=
  match o with
  | .next t => t
  | _ => s

/-- An event tried for each item of a list. -/
def each {α : Type} (s : State) (l : List α) (f : α → State → Outcome) : State := l.foldl (fun t x => settleOut t (f x t)) s

/-- The cores whose state has been touched. -/
def liveCores (s : State) : List Nat := s.cores.map (fun e => e.1)

/-- An event tried for each item that each core lists. -/
def eachCore {α : Type} (s : State) (items : Core → List α) (f : Nat → α → State → Outcome) : State :=
  (liveCores s).foldl (fun t c => each t (items (core t c)) (f c)) s

def lfsOf (k : Core) : List Nat := k.c.lfs.map (fun e => e.1)
def reqIds (k : Core) : List Nat := k.reqs.map (fun r => r.id)
def opIds (k : Core) : List Nat := k.ops.map (fun o => o.op)
def engineIds (k : Core) : List Nat := k.c.mq.map (fun e => e.id) ++ k.c.eng.map (fun e => e.id)

/-- The clock's own events after a window's start: time base, samples, lost-record notes (R346, R348, R350). -/
def sweepClock (s : State) : State :=
  let s2 := settleOut s (execTimebaseWrap s)
  let s3 := each s2 (List.range (coreCount s2)) execStallSample
  let s4 := each s3 (liveCores s3) execLostRecord
  let s5 := each s4 (s4.hotSince.map (fun e => e.1)) execThermalCooldown
  let s6 := each s5 (s5.ports.map (fun e => e.1)) execPortRemovedFromTree
  each s6 ((List.range (dies s6)).filter (fun d => decide (s6.dieState.getD d 0 = 5))) execSupplyFault

/-- The halt line, capsules and lost dies (R357, R418, R426). -/
def sweepStops (s : State) : State :=
  let skid (p : Stop) (c : Nat) : Nat := if c = p.core then 1 else 64
  let s1 := match s.stop with
    | some p => each s (List.range (coreCount s)) (fun c => execHaltLineArrive c (skid p c))
    | none => s
  let s2 := settleOut s1 (execCapsuleAssembly s1)
  if s2.links.isEmpty then s2 else each s2 (List.range (dies s2)) execDieLost

/-- The busy watchdogs of the sequences, migrations and requests that have not completed in the cycle (R382, R391). -/
def sweepBusy (s : State) : State :=
  each s (s.seqs.map (fun q => q.id) ++ s.migrations.map (fun m => m.id) ++ (pageReqs s).map (fun q => q.id)) execBusyWatchdogExpiry

/-- The cycles that the part spends from a sequence's start to its remap, and from there to its end. DESIGN CHOICE (entry 85): R48 gives no
times; R290's reads assume that a fill is over before its frames may be remapped again. -/
def seqCycles : Nat := 32

/-- The frames whose seal words have an uncorrectable error are retired, once no sequence has them (R378). -/
def retireBad (s : State) : State :=
  (s.frames.filter (fun e => e.2.damaged && !e.2.busy)).foldl (fun t e =>
    retireFrame t (if keySel e.1 < 64 then ownerOf e.1 else 64 * keyDie e.1) e.1) s

/-- Placement: remaps, invalidations, expiries, write lanes (R39, R41, R44, R47, R48, R64, R65). -/
def sweepPlacement (s : State) : State :=
  let s0 := each s ((s.seqs.filter (fun q => decide (q.start + seqCycles ≤ s.cycle))).map (fun q => q.id)) execFrameRemap
  let s1 := retireBad (each s0
    ((s0.seqs.filter (fun q => q.remapped && decide (q.remappedAt + seqCycles ≤ s.cycle))).map (fun q => q.id)) execPlacementDone)
  let inv := s1.invals.map (fun v => v.id)
  let s2 := each (each (each s1 inv execInvalidation) inv execInvalidationAck) inv execInvalidationResend
  let s3 := eachCore s2 (fun k => k.tstore.map (fun t => (t.ctx, t.vpn))) (fun c e => execTranslationExpiry c e.1 e.2)
  let lanes := (s3.hwrites.map (fun w => (pageStack w.page, pageChan w.page))).dedup
  let s4 := each s3 (s3.hwrites.map (fun w => w.id)) execHbmWriteCharge
  let s5 := each s4 lanes (fun e => execWriteLaneDone e.1 e.2 true)
  each s5 (s5.monitors.map (fun m => m.id)) execMonitorRecheck

/-- The capacity tier and page attributes (R68 to R70, R224); reads come back good unless the agenda says otherwise. -/
def sweepMigration (s : State) : State :=
  let ids := s.migrations.map (fun m => m.id)
  let s1 := each (depMigrations s) ids execPoolSlotTake
  let s2 := each s1 (ids.flatMap (fun i => (List.range 32).map (fun b => (i, b)))) (fun e => execCapReadReturn e.1 e.2 false)
  let s3 := each s2 ids execMigrationComplete
  let s4 := each s3 ((pageReqs s3).map (fun q => q.id)) execPageAttrPage
  let s5 := each s4 ((pageReqs s4).map (fun q => q.id)) execDemotionComplete
  let s6 := eachCore s5 (fun k => k.c.readers.map (fun r => r.op.lf)) execMigrationDeadline
  eachCore s6 (fun k => k.c.readers.map (fun r => r.op.op)) (fun c i => execDirectReadReturn c i false)

/-- The rank of a workgroup (R57); 16 for a core's Mast, which has none. -/
def rankOf (s : State) (wg : Option Nat) : Nat := match wg.bind (workgroup s) with | some w => w.rank | none => 16

/-- The requests of a core that can reach their homes in this fabric cycle, in the order in which they do: loads by the rank of their
workgroup (R57), then the entries of the write queue in its order (R74). -/
def homeOrder (s : State) (c : Nat) : List Nat :=
  let l := (core s c).reqs
  ((List.range 17).flatMap (fun k => l.filter (fun r => r.act.isLoad && decide (rankOf s (some r.wg) = k)))).map (fun r => r.id) ++
    (l.filter (fun r => !r.act.isLoad)).map (fun r => r.id)

/-- A request tried at its home, whatever its class (R74). -/
def homeAccess (c i : Nat) (s : State) : Outcome :=
  let s1 := settleOut s (execFrameAccess c i s)
  let s2 := settleOut s1 (execHomeSliceAccess c i s1)
  .next (settleOut s2 (execAtomicPerform c i s2))

/-- The fill that a request of a core is about to call for at its home slice (R50), begun in its workgroup's turn (R57 row 3). -/
def requestFill (s : State) (c i : Nat) : State :=
  match reqOf s c i with
  | none => s
  | some r => match r.space, r.ent with
    | .virt ctx va, some e =>
      if r.phase = .sent ∧ entKind e = 2 ∧ reqReady s c r ∧ pageOpen s (entPage e) then
        match homeCheck s c ctx va e r.strong with
        | .serve _ => fillFor s c r e ctx (va / 4096 % 2 ^ 36)
        | _ => s
      else s
    | _, _ => s

/-- The fills and promotions of a core in a fabric cycle, in ascending workgroup rank (R57 row 3): those asked for before, then those that
requests now call for; its Mast's last. -/
def fillPass (s : State) (c : Nat) : State :=
  (List.range 17).foldl (fun t k =>
    let t1 := (t.fillReqs.filter (fun r => decide (r.core = c ∧ rankOf t r.wg = k))).foldl (fun t r => if fillDue t r then takeFill t r else t) t
    (((core t1 c).reqs.filter (fun r => decide (rankOf t1 (some r.wg) = k))).map (fun r => r.id)).foldl (fun t i => requestFill t c i) t1) s

/-- The words of a core that read at a home as they issue, each in its turn. -/
def waitWords (s : State) (c : Nat) : State :=
  (lfsOf (core s c)).foldl (fun t l =>
    match laneFrame t c l with
    | none => t
    | some f => match f.clause with
      | none => t
      | some cl =>
        if !mayIssue t c f then t
        else match waitWord ⟨c, l, f, cl⟩ with
          | none => t
          | some g => { settleOut t (g (atWord t c l)) with at_ := none }) s

/-- How many Mast cycles have begun since the fabric cycle before: 2.0 GHz against 2.2 GHz, counted in cycles of 3.3 GHz (R2). -/
def mastBeats (s : State) : Nat :=
  let f := s.cycle * 2 / 3
  if f = 0 then 1 else s.cycle * 20 / 33 - (3 * f - 2) / 2 * 20 / 33

/-- The Mast of a core whose die runs firmware: it runs the instruction at its program counter (R312). DESIGN CHOICE (entry 89): one in a
Mast cycle; the spec gives no times. -/
def mastTurn (s : State) (c : Nat) : State :=
  if mastUp s c ∧ 2 ≤ s.dieState.getD (dieOf c) 0 then
    each s (List.range (mastBeats s)) (fun _ t => execMastLoadStore c .fetch 2 (mast t c).pc 0 0 t)
  else s

/-- The engines of a core (R229 to R262, R274 to R283); members of other parts miss a beat only when the agenda says so. -/
def engineTurn (s : State) (c : Nat) : State :=
  let s1 := each s (engineIds (core s c)) (execEngineEntryStart c)
  let s2 := each s1 (engineIds (core s1 c)) (execGroveLaneDone c)
  let s3 := each s2 (engineIds (core s2 c)) (execXferPartApplied c)
  let s4 := each s3 (engineIds (core s3 c)) (execCollChunkDone c)
  let s5 := each s4 (engineIds (core s4 c)) (execLaunchRecordCopy c)
  each s5 (engineIds (core s5 c)) (execEngineEntryFinish c)

/-- A core's turn in a fabric cycle (R74, R39, R71): its fault unit, its queue's departures and walks, its fills, its accesses at their
homes, its waiting words, its Mast and its engines. -/
def coreTurn (s : State) (c : Nat) : State :=
  let s1 := faultUnit c s
  let s2 := each s1 (reqIds (core s1 c)) (execWriteQueueDepart c)
  let s3 := each s2 (reqIds (core s2 c)) (execTranslationWalk c)
  let s4 := fillPass s3 c
  let s5 := each s4 (homeOrder s4 c) (homeAccess c)
  engineTurn (mastTurn (waitWords s5 c) c) c

/-- The hosts' requests that wait at the part made again in their order, those of link 0 first (R74, R325). -/
def serveHosts (s : State) : State :=
  let link (q : HostReq) : Nat := match q with | .read l _ _ _ => l | .write l _ _ => l | .notify l _ _ _ => l
  each { s with hostReqs := [] } (s.hostReqs.filter (fun q => link q = 0) ++ s.hostReqs.filter (fun q => link q ≠ 0)) serveHost

/-- What reaches the homes in a fabric cycle (R74): the adds to DONE, which come after the hosts' requests of the fabric cycle before, then
the cores in ascending order, then the hosts; then workgroups end. -/
def sweepFabric (s : State) : State :=
  if fabricTick s then
    let s1 := settleOut s (execWorkgroupFinish 0 s)
    let s2 := serveHosts ((liveCores s1).foldl coreTurn s1)
    each s2 (s2.wgs.map (fun w => w.id)) execWorkgroupFinish
  else s

/-- What comes back to the cores (R90, R205, R209, R213, R222, R340, R388, R401). -/
def sweepReturns (s : State) : State :=
  let s5 := eachCore s opIds execAtomicReply
  let s6 := eachCore s5 opIds execLoadReturn
  let s7 := each s6 s6.flushes (fun x => execLoadReturn x.core x.id)
  let s8 := eachCore s7 opIds execAtomicTimeout
  let s9 := eachCore s8 opIds (fun c i => execHostReadTimeout c i false)
  let s10 := eachCore s9 (fun k => k.ats.map (fun q => (⟨q.pasid, q.page⟩ : HostPage))) execAtsTimeout
  let s11 := each s10 (s10.hostInvals.map (fun v => v.id)) execInvalidationCompletion
  eachCore s11 lfsOf execFenceComplete

/-- The package scheduler (R29, R31, R301 to R306, R403, R429). -/
def sweepScheduler (s : State) : State :=
  let queues := s.queues.map (fun e => e.1)
  let s1 := each (each (each s queues execQueueEntryFetch) queues execQueueEntryRefetch) queues execGangDeadline
  let s2 := settleOut s1 (execClusterPlace s1)
  let s3 := each s2 (liveCores s2) execLaneFrameMove
  let s4 := each s3 (s3.wgs.flatMap (fun w => w.emptying.map (fun f => (w.core, f)))) (fun e => execScratchFrameEmpty e.1 e.2)
  each s4 (s4.wgs.map (fun w => w.id)) execWorkgroupStart

/-- Results, calls, bundles (R14, R163, R270, R306, R335). -/
def sweepBundles (s : State) : State :=
  let s1 := eachCore s (fun k => k.deliveries.map (fun d => d.op)) execResultDeliver
  let s2 := eachCore s1 lfsOf execCallRingPost
  let s3 := eachCore s2 (fun k => k.mast.calls.map (fun e => e.1)) execSyscallReturn
  let s4 := eachCore s3 lfsOf execBundleTurn
  eachCore s4 (fun _ => List.range 4) execBundleAccept

/-- The hosts' writes of their own memory whose cycle has come, in their order; the part hears nothing of them (R344). -/
def hostMemoryWrites (s : State) : State :=
  { s with
    mem := (s.hostStores.filter (fun w => decide (w.cycle ≤ s.cycle))).foldl (fun m w => Mem.write m (Config.hostBase + w.addr) w.data) s.mem
    hostStores := s.hostStores.filter (fun w => decide (s.cycle < w.cycle)) }

/-- Every event of the part that is due in a cycle; while the package has no power there is none. -/
def dueEvents (s : State) : State :=
  let t := { hardwareErrors (hostMemoryWrites s) with swept := s.cycle + 1 }
  if !s.powered then t
  else sweepBundles (sweepScheduler (sweepReturns (sweepFabric (pendingCommand (sweepBusy (sweepMigration (sweepPlacement
    (sweepStops (sweepClock t)))))))))

/-- What ends a cycle, after the words that issue in it: a latch's watchdog, which the last arrival of the cycle forestalls (R416), and the
end of a slice, which the cycle's faults and halts precede (R307, R308, R370). -/
def endCycle (s : State) : State :=
  if !s.powered then s
  else
    let s1 := each s (s.latches.map (fun x => x.id)) execGangWatchdogExpiry
    let s2 := settleOut s1 (execSliceExpiry s1)
    settleOut s2 (execSliceIdleEnd s2)

/-- What the machine does next. -/
def chooseNext (s : State) : Choice :=
  match dueAgenda s (fun i => !windowDue s || isBoundary i) with
  | some (i, t) => .run i t
  | none =>
    match issuing s with
    | some u => wordChoice s u
    | none =>
      if windowDue s then .out (execWindowBoundary [] [] s)
      else if s.swept ≤ s.cycle then .out (.next (dueEvents s))
      else match selectWord s with
        | some t => .out (.next t)
        | none => .out (.next { endCycle s with cycle := s.cycle + 1, at_ := none })

/-- A test instruction's place (see Step.lean): core 0, lane frame 63, one live thread in lane 0. -/
def placeWord (s : State) (w : Word) : State :=
  let i := (Raw.ofWord w).cls
  let c : BitVec 3 := i.code
  let h : Header := ⟨5, false, false, 15, 15, 0, c, 1⟩
  let t : Thread := { Thread.empty with pc := pcImage 1 4, live := true, occupied := true }
  let cl : Clause :=
    { hdrAddr := 0, hdr := h.toWord, pos := 1, lanes := 1, words := [.word w], nextAt := s.cycle, since := s.cycle
      aging := false }
  let f : LaneFrame :=
    { wg := 0, wlf := 0, threads := [(0, t)], count := 0, aging := 0, clause := some cl, offer := none, lastAccept := 0
      yielding := false, fence := none, call := none, callSlot := none, rows := [], undo := 0, undoBase := 0, still := false }
  { setLF s 0 63 f with agenda := [], stop := none, at_ := some (0, 63) }

end Sys2Proof.Machine
end

