-- ==== Sys2Proof/Machine/Step.lean ====
section
/-!
DEFINITION. Machine/Step.lean: one step of the machine.
-/
namespace Sys2Proof.Machine

/-- One step: the next instruction or event runs (Machine/Schedule.lean chooses it), or the clock goes on. -/
def step (s : State) : Host.Outcome State Fault Refusal :=
  match chooseNext s with
  | .run i t => exec i t
  | .out o => o

/-- The state with an instruction word where step fetches its next instruction: the one word of a clause that core 0 runs in
lane frame 63 (entry 3). -/
def State.withFetchWord (s : State) (_nbits w : Nat) : State := placeWord s (BitVec.ofNat 32 w)

end Sys2Proof.Machine
end

