-- ==== Sys2Proof/Safety.lean ====
section
/-!
DEFINITION. Safety.lean: what a safe run is, in the terms that statements use.
-/
namespace Sys2Proof.Machine

/-- The invariant of the model's state: memory is in its canonical form. -/
def State.Inv (s : State) : Prop := Mem.wf s.mem = true

/-- A step that ends in a next state. -/
def Runs (s : State) : Prop := ∃ t, step s = .next t

end Sys2Proof.Machine
end

