-- ==== Sys2Proof/Certificates/Slice0/Obligations.lean ====
section
/-!
DEFINITION. Obligations.lean: what the provers are asked to prove about the model, each statement citing the rules it follows.
-/

namespace Sys2Proof.Spec
open Sys2Proof.Machine

/-! ## Vocabulary: words that deliver a value after a fixed latency -/

/-- A fixed-latency word as chapters 08, 09 and 12 give it: its latency in cycles (R163), how many 32-bit words it delivers
(R111), its DST, and what a present lane delivers, the lowest-addressed word first; none while a source is pending (R162). -/
structure Value where
  lat : Nat
  words : Nat
  dst : BitVec 4
  lane : Iss → Nat → Option (List Word)

/-- The instruction completes with a value: whenever a bundle issues, no register that the word writes is pending and every
present lane's sources can be read, the step answers the state in which those values are on their way and the bundle goes on.
What that state holds is said by IssueEffect, WordGoesOn and ClauseEnds. -/
def Delivers (i : Instr) (v : Value) : Prop :=
  ∀ (s : State) (u : Iss) (vals : Table (List Word)),
    issuing s = some u → writeHeld u (regsOf v.dst.toNat v.words) = false → eachLane u (v.lane u) = some vals →
    exec i s = .next (issueVals s u v.lat v.words v.dst vals)

/-- One 32-bit source and a 32-bit result. -/
def src1 (lat : Nat) (d : BitVec 4) (a : Src) (g : Word → Word) : Value :=
  ⟨lat, 1, d, fun u i => (read32 u a i).map (fun x => [g x])⟩

/-- Sources A and B and a 32-bit result. -/
def src2 (lat : Nat) (d : BitVec 4) (b a : Src) (g : Word → Word → Word) : Value :=
  ⟨lat, 1, d, fun u i => (read32 u a i).bind (fun x => (read32 u b i).map (fun y => [g x y]))⟩

/-- Source A, the sign-extended IMM11 as B (R175), and a 32-bit result. -/
def srcI (lat : Nat) (d : BitVec 4) (n : BitVec 11) (a : Src) (g : Word → Word → Word) : Value :=
  ⟨lat, 1, d, fun u i => (read32 u a i).map (fun x => [g x (BitVec.ofInt 32 n.toInt)])⟩

/-- Sources A, B and C (C without a pattern, R140) and a 32-bit result. -/
def src3 (lat : Nat) (d : BitVec 4) (c : BitVec 5) (b a : Src) (g : Word → Word → Word → Word) : Value :=
  ⟨lat, 1, d, fun u i =>
    (read32 u a i).bind (fun x => (read32 u b i).bind (fun y => (readSC u c i).map (fun z => [g x y z])))⟩

/-- The words of a 64-bit result, the low word first (R111). -/
def words64 (x : DWord) : List Word := [BitVec.ofNat 32 (x.toNat % 2 ^ 32), BitVec.ofNat 32 (x.toNat / 2 ^ 32)]

/-- 64-bit sources A and B and a 64-bit result. -/
def src64 (lat : Nat) (d : BitVec 4) (b a : Src) (g : DWord → DWord → DWord) : Value :=
  ⟨lat, 2, d, fun u i => (read64 u a i).bind (fun x => (read64 u b i).map (fun y => words64 (g x y)))⟩

/-- A 64-bit source A, a 32-bit source B and a 64-bit result. -/
def srcBy (lat : Nat) (d : BitVec 4) (b a : Src) (g : DWord → Word → DWord) : Value :=
  ⟨lat, 2, d, fun u i => (read64 u a i).bind (fun x => (read32 u b i).map (fun y => words64 (g x y)))⟩

/-- 32-bit sources A and B and a 64-bit result. -/
def srcWide (lat : Nat) (d : BitVec 4) (b a : Src) (g : Word → Word → DWord) : Value :=
  ⟨lat, 2, d, fun u i => (read32 u a i).bind (fun x => (read32 u b i).map (fun y => words64 (g x y)))⟩

/-- A result that the bundle alone decides, lane by lane. -/
def fromBundle (lat : Nat) (d : BitVec 4) (g : Iss → Nat → Word) : Value := ⟨lat, 1, d, fun u i => some [g u i]⟩

/-- wrap32, and sat of R110 for the two 32-bit types, on an exact integer. -/
def wrap (x : Int) : Word := BitVec.ofInt 32 x
def satSigned (x : Int) : Word := BitVec.ofInt 32 (max (-2147483648) (min 2147483647 x))
def satUnsigned (x : Int) : Word := BitVec.ofInt 32 (max 0 (min 4294967295 x))
/-- The unsigned reading of a word as an integer. -/
def uint (x : Word) : Int := (x.toNat : Int)
/-- 1 when a condition holds, else 0 (R173). -/
def truth (p : Prop) [Decidable p] : Word := if p then 1 else 0

/-- The field of R172: its lowest bit position and its length, cut at bit 31. -/
def fieldAt (y : Word) : Nat := y.toNat % 32
def fieldWidth (y : Word) : Nat := min (y.toNat / 256 % 64) (32 - fieldAt y)
def fieldBits (x y : Word) : Nat := x.toNat / 2 ^ fieldAt y % 2 ^ fieldWidth y

end Sys2Proof.Spec

open Sys2Proof Sys2Proof.Machine Sys2Proof.Spec

/-! ## Chapter 08: integer and address words -/

/-- R166 and R168: additions, subtractions, multiplications, minimum, maximum, absolute value, negation and move
compute their exact result on the typed operands and then wrap or saturate it. R167: quotients truncate toward zero
and remainders take the sign of the dividend; a zero divisor gives all ones and the dividend, and the most negative
number by −1 gives itself and 0. -/
def Obligations.IntegerArithmetic : Prop :=
  (∀ (d : BitVec 4) (b a : Src),
      Delivers (.addS32 d b a) (src2 4 d b a (fun x y => wrap (x.toInt + y.toInt))) ∧
      Delivers (.addS32Sat d b a) (src2 4 d b a (fun x y => satSigned (x.toInt + y.toInt))) ∧
      Delivers (.addZ32Sat d b a) (src2 4 d b a (fun x y => satUnsigned (uint x + uint y))) ∧
      Delivers (.subS32 d b a) (src2 4 d b a (fun x y => wrap (x.toInt - y.toInt))) ∧
      Delivers (.subS32Sat d b a) (src2 4 d b a (fun x y => satSigned (x.toInt - y.toInt))) ∧
      Delivers (.subZ32Sat d b a) (src2 4 d b a (fun x y => satUnsigned (uint x - uint y))) ∧
      Delivers (.mulS32 d b a) (src2 8 d b a (fun x y => wrap (x.toInt * y.toInt))) ∧
      Delivers (.mulhiS32 d b a) (src2 8 d b a (fun x y => wrap (x.toInt * y.toInt / 2 ^ 32))) ∧
      Delivers (.mulhiZ32 d b a) (src2 8 d b a (fun x y => wrap (uint x * uint y / 2 ^ 32))) ∧
      Delivers (.minS32 d b a) (src2 4 d b a (fun x y => wrap (min x.toInt y.toInt))) ∧
      Delivers (.maxS32 d b a) (src2 4 d b a (fun x y => wrap (max x.toInt y.toInt))) ∧
      Delivers (.minZ32 d b a) (src2 4 d b a (fun x y => wrap (min (uint x) (uint y)))) ∧
      Delivers (.maxZ32 d b a) (src2 4 d b a (fun x y => wrap (max (uint x) (uint y)))) ∧
      Delivers (.absS32 d a) (src1 4 d a (fun x => wrap x.toInt.natAbs)) ∧
      Delivers (.negS32 d a) (src1 4 d a (fun x => wrap (-x.toInt))) ∧
      Delivers (.movB32 d a) (src1 4 d a (fun x => x))) ∧
  (∀ (d : BitVec 4) (b a : Src),
      Delivers (.divS32 d b a) (src2 36 d b a (fun x y =>
        if y = 0 then 0xFFFFFFFF else if x = 0x80000000 ∧ y = 0xFFFFFFFF then 0x80000000 else wrap (x.toInt.tdiv y.toInt))) ∧
      Delivers (.divZ32 d b a) (src2 36 d b a (fun x y => if y = 0 then 0xFFFFFFFF else wrap (uint x / uint y))) ∧
      Delivers (.remS32 d b a) (src2 36 d b a (fun x y =>
        if y = 0 then x else if x = 0x80000000 ∧ y = 0xFFFFFFFF then 0
        else wrap (x.toInt - x.toInt.tdiv y.toInt * y.toInt))) ∧
      Delivers (.remZ32 d b a) (src2 36 d b a (fun x y => if y = 0 then x else wrap (uint x - uint x / uint y * uint y))))

/-- R169 to R172: logic, shifts, rotation, bit counts, reversal and bit fields. A shift by the width or more empties
the word; ROL alone takes its amount modulo 32. R166 and R170: the forms with a 64-bit result, delivered low word
first (R111). -/
def Obligations.LogicShiftsAndWideForms : Prop :=
  (∀ (d : BitVec 4) (b a : Src),
      Delivers (.andB32 d b a) (src2 4 d b a (fun x y => x &&& y)) ∧
      Delivers (.orB32 d b a) (src2 4 d b a (fun x y => x ||| y)) ∧
      Delivers (.xorB32 d b a) (src2 4 d b a (fun x y => x ^^^ y)) ∧
      Delivers (.andnB32 d b a) (src2 4 d b a (fun x y => x &&& ~~~y)) ∧
      Delivers (.notB32 d a) (src1 4 d a (fun x => ~~~x)) ∧
      Delivers (.shlB32 d b a) (src2 4 d b a (fun x y => if 32 ≤ y.toNat then 0 else wrap (uint x * 2 ^ y.toNat))) ∧
      Delivers (.shrZ32 d b a) (src2 4 d b a (fun x y => if 32 ≤ y.toNat then 0 else wrap (uint x / 2 ^ y.toNat))) ∧
      Delivers (.shrS32 d b a) (src2 4 d b a (fun x y =>
        if 32 ≤ y.toNat then (if x.toInt < 0 then 0xFFFFFFFF else 0) else wrap (x.toInt / 2 ^ y.toNat))) ∧
      Delivers (.rolB32 d b a) (src2 4 d b a (fun x y => x.rotateLeft (y.toNat % 32))) ∧
      Delivers (.popcB32 d a) (src1 4 d a (fun x => BitVec.ofNat 32 ((List.range 32).countP (fun i => x.getLsbD i)))) ∧
      Delivers (.clzB32 d a) (src1 4 d a (fun x => if x = 0 then 32 else BitVec.ofNat 32 (31 - Nat.log2 x.toNat))) ∧
      Delivers (.ctzB32 d a) (src1 4 d a (fun x =>
        BitVec.ofNat 32 (((List.range 32).find? (fun i => x.getLsbD i)).getD 32))) ∧
      Delivers (.brevB32 d a) (src1 4 d a (fun x => x.reverse)) ∧
      Delivers (.bfxS32 d b a) (src2 4 d b a (fun x y =>
        if fieldWidth y = 0 then 0
        else if 2 ^ (fieldWidth y - 1) ≤ fieldBits x y then wrap ((fieldBits x y : Int) - 2 ^ fieldWidth y)
        else wrap (fieldBits x y))) ∧
      Delivers (.bfxZ32 d b a) (src2 4 d b a (fun x y => wrap (fieldBits x y)))) ∧
  (∀ (d : BitVec 4) (b a : Src),
      Delivers (.addB64 d b a) (src64 4 d b a (fun x y => BitVec.ofNat 64 (x.toNat + y.toNat))) ∧
      Delivers (.subB64 d b a) (src64 4 d b a (fun x y => BitVec.ofInt 64 ((x.toNat : Int) - y.toNat))) ∧
      Delivers (.mulwS32 d b a) (srcWide 8 d b a (fun x y => BitVec.ofInt 64 (x.toInt * y.toInt))) ∧
      Delivers (.mulwZ32 d b a) (srcWide 8 d b a (fun x y => BitVec.ofInt 64 (uint x * uint y))) ∧
      Delivers (.shlB64 d b a) (srcBy 4 d b a (fun x y => if 64 ≤ y.toNat then 0 else BitVec.ofNat 64 (x.toNat * 2 ^ y.toNat))) ∧
      Delivers (.shrZ64 d b a) (srcBy 4 d b a (fun x y => if 64 ≤ y.toNat then 0 else BitVec.ofNat 64 (x.toNat / 2 ^ y.toNat))) ∧
      Delivers (.shrS64 d b a) (srcBy 4 d b a (fun x y =>
        if 64 ≤ y.toNat then (if x.toInt < 0 then BitVec.allOnes 64 else 0) else BitVec.ofInt 64 (x.toInt / 2 ^ y.toNat))))

/-- R173 and R174: the ten comparisons deliver 1 or 0; SEL takes A when the thread's own Q[1] is not zero, else B.
R175 to R177: format I computes what its mnemonic computes with B replaced by the sign-extended IMM11; MOV delivers
it, ADR the low half of the clause header's address plus four times it; CONST and CONSTHI write the age queue only
(DST 0). -/
def Obligations.CompareSelectAndImmediates : Prop :=
  (∀ (d : BitVec 4) (b a : Src),
      Delivers (.isetEqB32 d b a) (src2 4 d b a (fun x y => truth (x = y))) ∧
      Delivers (.isetNeB32 d b a) (src2 4 d b a (fun x y => truth (x ≠ y))) ∧
      Delivers (.isetLtS32 d b a) (src2 4 d b a (fun x y => truth (x.toInt < y.toInt))) ∧
      Delivers (.isetLeS32 d b a) (src2 4 d b a (fun x y => truth (x.toInt ≤ y.toInt))) ∧
      Delivers (.isetGtS32 d b a) (src2 4 d b a (fun x y => truth (x.toInt > y.toInt))) ∧
      Delivers (.isetGeS32 d b a) (src2 4 d b a (fun x y => truth (x.toInt ≥ y.toInt))) ∧
      Delivers (.isetLtZ32 d b a) (src2 4 d b a (fun x y => truth (x.toNat < y.toNat))) ∧
      Delivers (.isetLeZ32 d b a) (src2 4 d b a (fun x y => truth (x.toNat ≤ y.toNat))) ∧
      Delivers (.isetGtZ32 d b a) (src2 4 d b a (fun x y => truth (x.toNat > y.toNat))) ∧
      Delivers (.isetGeZ32 d b a) (src2 4 d b a (fun x y => truth (x.toNat ≥ y.toNat))) ∧
      Delivers (.selB32 d b a) ⟨4, 1, d, fun u i => (readAge (thread u.f i) 0).bind (fun q =>
        (read32 u a i).bind (fun x => (read32 u b i).map (fun y => [if q = 0 then y else x])))⟩) ∧
  ((∀ (d : BitVec 4) (n : BitVec 11) (a : Src),
      Delivers (.addS32Imm d n a) (srcI 4 d n a (fun x y => wrap (x.toInt + y.toInt))) ∧
      Delivers (.addS32SatImm d n a) (srcI 4 d n a (fun x y => satSigned (x.toInt + y.toInt))) ∧
      Delivers (.mulS32Imm d n a) (srcI 8 d n a (fun x y => wrap (x.toInt * y.toInt))) ∧
      Delivers (.andB32Imm d n a) (srcI 4 d n a (fun x y => x &&& y)) ∧
      Delivers (.orB32Imm d n a) (srcI 4 d n a (fun x y => x ||| y)) ∧
      Delivers (.xorB32Imm d n a) (srcI 4 d n a (fun x y => x ^^^ y)) ∧
      Delivers (.shlB32Imm d n a) (srcI 4 d n a (fun x y => if 32 ≤ y.toNat then 0 else wrap (uint x * 2 ^ y.toNat))) ∧
      Delivers (.shrZ32Imm d n a) (srcI 4 d n a (fun x y => if 32 ≤ y.toNat then 0 else wrap (uint x / 2 ^ y.toNat))) ∧
      Delivers (.shrS32Imm d n a) (srcI 4 d n a (fun x y =>
        if 32 ≤ y.toNat then (if x.toInt < 0 then 0xFFFFFFFF else 0) else wrap (x.toInt / 2 ^ y.toNat))) ∧
      Delivers (.minS32Imm d n a) (srcI 4 d n a (fun x y => wrap (min x.toInt y.toInt))) ∧
      Delivers (.maxS32Imm d n a) (srcI 4 d n a (fun x y => wrap (max x.toInt y.toInt))) ∧
      Delivers (.movB32Imm d n) (fromBundle 4 d (fun _ _ => BitVec.ofInt 32 n.toInt)) ∧
      Delivers (.adr d n) (fromBundle 4 d (fun u _ => wrap ((u.cl.hdrAddr : Int) + 4 * n.toInt))) ∧
      Delivers (.isetEqB32Imm d n a) (srcI 4 d n a (fun x y => truth (x = y))) ∧
      Delivers (.isetNeB32Imm d n a) (srcI 4 d n a (fun x y => truth (x ≠ y))) ∧
      Delivers (.isetLtS32Imm d n a) (srcI 4 d n a (fun x y => truth (x.toInt < y.toInt))) ∧
      Delivers (.isetLeS32Imm d n a) (srcI 4 d n a (fun x y => truth (x.toInt ≤ y.toInt))) ∧
      Delivers (.isetGtS32Imm d n a) (srcI 4 d n a (fun x y => truth (x.toInt > y.toInt))) ∧
      Delivers (.isetGeS32Imm d n a) (srcI 4 d n a (fun x y => truth (x.toInt ≥ y.toInt))) ∧
      Delivers (.isetLtZ32Imm d n a) (srcI 4 d n a (fun x y => truth (x.toNat < y.toNat))) ∧
      Delivers (.isetLeZ32Imm d n a) (srcI 4 d n a (fun x y => truth (x.toNat ≤ y.toNat))) ∧
      Delivers (.isetGtZ32Imm d n a) (srcI 4 d n a (fun x y => truth (x.toNat > y.toNat))) ∧
      Delivers (.isetGeZ32Imm d n a) (srcI 4 d n a (fun x y => truth (x.toNat ≥ y.toNat)))) ∧
    (∀ n : BitVec 24,
      Delivers (.const n) (fromBundle 4 0 (fun _ _ => BitVec.ofInt 32 n.toInt)) ∧
      Delivers (.consthi n) (fromBundle 4 0 (fun _ _ => BitVec.ofNat 32 (n.toNat * 256)))))

/-- R178, R179 and R191: the three-source words. IMAD saturates the exact A × B + C; SHLADD wraps; the fused floating forms
round A × B ± C once. -/
def Obligations.ThreeSourceForms : Prop :=
  ∀ (d : BitVec 4) (c : BitVec 5) (b a : Src),
    Delivers (.imadS32 d c b a) (src3 8 d c b a (fun x y z => satSigned (x.toInt * y.toInt + z.toInt))) ∧
    Delivers (.imadZ32 d c b a) (src3 8 d c b a (fun x y z => satUnsigned (uint x * uint y + uint z))) ∧
    Delivers (.shladd d c b a) (src3 4 d c b a (fun x y z => wrap (uint x * 2 ^ (z.toNat % 32) + uint y))) ∧
    Delivers (.fmaF32 d c b a) (src3 4 d c b a (tri fp32 (ffma fp32))) ∧
    Delivers (.fmsF32 d c b a) (src3 4 d c b a (tri fp32 (ffms fp32))) ∧
    Delivers (.fmaF16 d c b a) (src3 4 d c b a (tri fp16 (ffma fp16))) ∧
    Delivers (.fmaBf16x2 d c b a) (src3 4 d c b a (packed3 (ffma bf16))) ∧
    Delivers (.fmaF16x2 d c b a) (src3 4 d c b a (packed3 (ffma fp16)))

/-! ## Chapter 09: floating words -/

/-- R186 to R190: the scalar floating forms in FP32 and FP16, an operand being the low bits of its word (R185). R192:
each 16-bit element of a packed form is computed on its own. R193 and R194: the conversions, to and from the six
integer types, and packing of two FP32 values. -/
def Obligations.FloatForms : Prop :=
  (∀ (m : Rnd) (k : FCond) (d : BitVec 4) (b a : Src),
      Delivers (.faddF32 m d b a) (src2 4 d b a (bin fp32 (fadd fp32 m))) ∧
      Delivers (.fsubF32 m d b a) (src2 4 d b a (bin fp32 (fsub fp32 m))) ∧
      Delivers (.fmulF32 m d b a) (src2 4 d b a (bin fp32 (fmul fp32 m))) ∧
      Delivers (.faddF16 m d b a) (src2 4 d b a (bin fp16 (fadd fp16 m))) ∧
      Delivers (.fsubF16 m d b a) (src2 4 d b a (bin fp16 (fsub fp16 m))) ∧
      Delivers (.fmulF16 m d b a) (src2 4 d b a (bin fp16 (fmul fp16 m))) ∧
      Delivers (.fminF32 d b a) (src2 4 d b a (bin fp32 (fmin fp32))) ∧
      Delivers (.fmaxF32 d b a) (src2 4 d b a (bin fp32 (fmax fp32))) ∧
      Delivers (.fminF16 d b a) (src2 4 d b a (bin fp16 (fmin fp16))) ∧
      Delivers (.fmaxF16 d b a) (src2 4 d b a (bin fp16 (fmax fp16))) ∧
      Delivers (.fabsF32 d a) (src1 4 d a (fun x => x &&& 0x7FFFFFFF)) ∧
      Delivers (.fnegF32 d a) (src1 4 d a (fun x => x ^^^ 0x80000000)) ∧
      Delivers (.fabsF16 d a) (src1 4 d a (fun x => x &&& 0x00007FFF)) ∧
      Delivers (.fnegF16 d a) (src1 4 d a (fun x => (x &&& 0x0000FFFF) ^^^ 0x00008000)) ∧
      Delivers (.fsetF32 k d b a) (src2 4 d b a (fun x y => truth (fcondHolds fp32 k (scalar fp32 x) (scalar fp32 y) = true))) ∧
      Delivers (.fsetF16 k d b a) (src2 4 d b a (fun x y => truth (fcondHolds fp16 k (scalar fp16 x) (scalar fp16 y) = true))) ∧
      Delivers (.frndF32 m d a) (src1 4 d a (un fp32 (frnd fp32 m))) ∧
      Delivers (.frndF16 m d a) (src1 4 d a (un fp16 (frnd fp16 m)))) ∧
  (∀ (m : Rnd) (d : BitVec 4) (b a : Src),
      Delivers (.faddBf16x2 m d b a) (src2 4 d b a (packed2 (fadd bf16 m))) ∧
      Delivers (.fmulBf16x2 m d b a) (src2 4 d b a (packed2 (fmul bf16 m))) ∧
      Delivers (.faddF16x2 m d b a) (src2 4 d b a (packed2 (fadd fp16 m))) ∧
      Delivers (.fmulF16x2 m d b a) (src2 4 d b a (packed2 (fmul fp16 m))) ∧
      Delivers (.fminBf16x2 d b a) (src2 4 d b a (packed2 (fmin bf16))) ∧
      Delivers (.fmaxBf16x2 d b a) (src2 4 d b a (packed2 (fmax bf16))) ∧
      Delivers (.fminF16x2 d b a) (src2 4 d b a (packed2 (fmin fp16))) ∧
      Delivers (.fmaxF16x2 d b a) (src2 4 d b a (packed2 (fmax fp16)))) ∧
  (∀ (m : Rnd) (t : IntTy) (d : BitVec 4) (b a : Src),
      Delivers (.cvtF16F32 m d a) (src1 4 d a (un fp32 (fcvt fp32 fp16 m))) ∧
      Delivers (.cvtBf16F32 m d a) (src1 4 d a (un fp32 (fcvt fp32 bf16 m))) ∧
      Delivers (.cvtBf16F16 m d a) (src1 4 d a (un fp16 (fcvt fp16 bf16 m))) ∧
      Delivers (.cvtF16Bf16 m d a) (src1 4 d a (un bf16 (fcvt bf16 fp16 m))) ∧
      Delivers (.cvtF32F16 d a) (src1 4 d a (un fp16 (fcvt fp16 fp32 .rn))) ∧
      Delivers (.cvtF32Bf16 d a) (src1 4 d a (un bf16 (fcvt bf16 fp32 .rn))) ∧
      Delivers (.packBf16x2F32 d b a) (src2 4 d b a (packPair bf16)) ∧
      Delivers (.packF16x2F32 d b a) (src2 4 d b a (packPair fp16)) ∧
      Delivers (.cvtIntF32 m d t a) (src1 4 d a (fun x => floatToInt fp32 m t (scalar fp32 x))) ∧
      Delivers (.cvtIntF16 m d t a) (src1 4 d a (fun x => floatToInt fp16 m t (scalar fp16 x))) ∧
      Delivers (.cvtIntBf16 m d t a) (src1 4 d a (fun x => floatToInt bf16 m t (scalar bf16 x))) ∧
      Delivers (.cvtF32Int m d t a) (src1 4 d a (fun x => BitVec.ofNat 32 (intToFloat fp32 m t x))) ∧
      Delivers (.cvtF16Int m d t a) (src1 4 d a (fun x => BitVec.ofNat 32 (intToFloat fp16 m t x))) ∧
      Delivers (.cvtBf16Int m d t a) (src1 4 d a (fun x => BitVec.ofNat 32 (intToFloat bf16 m t x))))

/-- R120, R121 and R195: the transcendental forms deliver the model's result for the operand; which result within the
stated bound that is, is a free choice (entry 7). R120 and R104: what the table of R120 gives exactly, whatever the
free choice: NaN inputs give the canonical NaN, and the special inputs of each FP32 row give the value it states. -/
def Obligations.TranscendentalForms : Prop :=
  (∀ (d : BitVec 4) (a : Src),
      Delivers (.rcpF32 d a) (src1 12 d a (un fp32 (rcp fp32 0))) ∧
      Delivers (.rsqF32 d a) (src1 12 d a (un fp32 (rsq fp32 1))) ∧
      Delivers (.sqrtF32 d a) (src1 20 d a (un fp32 (sqrt fp32 2))) ∧
      Delivers (.ex2F32 d a) (src1 12 d a (un fp32 (ex2 fp32 3))) ∧
      Delivers (.lg2F32 d a) (src1 12 d a (un fp32 (lg2 fp32 4))) ∧
      Delivers (.sinF32 d a) (src1 24 d a (un fp32 (trig fp32 false 5))) ∧
      Delivers (.cosF32 d a) (src1 24 d a (un fp32 (trig fp32 true 6))) ∧
      Delivers (.rcpF16 d a) (src1 12 d a (un fp16 (rcp fp16 8))) ∧
      Delivers (.rsqF16 d a) (src1 12 d a (un fp16 (rsq fp16 9))) ∧
      Delivers (.sqrtF16 d a) (src1 20 d a (un fp16 (sqrt fp16 10))) ∧
      Delivers (.ex2F16 d a) (src1 12 d a (un fp16 (ex2 fp16 11))) ∧
      Delivers (.lg2F16 d a) (src1 12 d a (un fp16 (lg2 fp16 12))) ∧
      Delivers (.sinF16 d a) (src1 24 d a (un fp16 (trig fp16 false 13))) ∧
      Delivers (.cosF16 d a) (src1 24 d a (un fp16 (trig fp16 true 14)))) ∧
  ((∀ x, unpack fp32 x = .nan → rcp fp32 0 x = 0x7FC00000 ∧ rsq fp32 1 x = 0x7FC00000 ∧ sqrt fp32 2 x = 0x7FC00000 ∧
      ex2 fp32 3 x = 0x7FC00000 ∧ lg2 fp32 4 x = 0x7FC00000 ∧ trig fp32 false 5 x = 0x7FC00000 ∧
      trig fp32 true 6 x = 0x7FC00000) ∧
    rcp fp32 0 0 = 0x7F800000 ∧ rcp fp32 0 0x80000000 = 0xFF800000 ∧ rcp fp32 0 0x7F800000 = 0 ∧
      rcp fp32 0 0xFF800000 = 0x80000000 ∧
    rsq fp32 1 0 = 0x7F800000 ∧ rsq fp32 1 0x80000000 = 0xFF800000 ∧ rsq fp32 1 0x7F800000 = 0 ∧
      rsq fp32 1 0xBF800000 = 0x7FC00000 ∧
    sqrt fp32 2 0 = 0 ∧ sqrt fp32 2 0x80000000 = 0x80000000 ∧ sqrt fp32 2 0x7F800000 = 0x7F800000 ∧
      sqrt fp32 2 0xBF800000 = 0x7FC00000 ∧
    ex2 fp32 3 0xFF800000 = 0 ∧ ex2 fp32 3 0x7F800000 = 0x7F800000 ∧
    lg2 fp32 4 0 = 0xFF800000 ∧ lg2 fp32 4 0x80000000 = 0xFF800000 ∧ lg2 fp32 4 0x3F800000 = 0 ∧
      lg2 fp32 4 0x7F800000 = 0x7F800000 ∧ lg2 fp32 4 0xBF800000 = 0x7FC00000 ∧
    trig fp32 false 5 0 = 0 ∧ trig fp32 false 5 0x80000000 = 0x80000000 ∧ trig fp32 true 6 0 = 0x3F800000 ∧
      trig fp32 true 6 0x80000000 = 0x3F800000 ∧ trig fp32 false 5 0x7F800000 = 0x7FC00000 ∧
      trig fp32 true 6 0xFF800000 = 0x7FC00000)

/-! ## Rounding -/

namespace Sys2Proof.Spec
open Sys2Proof.Machine

/-- The exact value of a pattern of a format, where it is finite (R101, R102). -/
def realOf (f : Fmt) (b : Nat) : Option Rat :=
  match unpack f b with
  | .fin s m e => some ((if s then -1 else 1) * (m : Rat) * (2 : Rat) ^ e)
  | _ => none

/-- A pattern is an exact value rounded once to a format (R106). -/
def Rounds (f : Fmt) (m : Rnd) (x : Rat) (b : Nat) : Prop :=
  ∃ (neg : Bool) (n : Nat) (e : Int), 0 < n ∧ (if neg then -1 else 1) * (n : Rat) * (2 : Rat) ^ e = x ∧ b = roundRat f m neg n 1 e

end Sys2Proof.Spec

/-- R105, R186 and R191: for finite operands the sum, the difference, the product and the fused sums and differences
are the exact rational values of their operands, rounded once; an exact result of 0 is left to the rows for zeros.
R106: whatever exact value other than 0 is rounded, a finite result is the nearest representable value in round to
nearest, and in the directed modes it is the last representable value on its side of the exact one. -/
def Obligations.RoundingChoosesTheRepresentableValue : Prop :=
  (∀ (f : Fmt) (m : Rnd) (a b c : Nat) (x y z : Rat), realOf f a = some x → realOf f b = some y → realOf f c = some z →
      (x + y ≠ 0 → Rounds f m (x + y) (fadd f m a b)) ∧
      (x - y ≠ 0 → Rounds f m (x - y) (fsub f m a b)) ∧
      (x * y ≠ 0 → Rounds f m (x * y) (fmul f m a b)) ∧
      (x * y + z ≠ 0 → Rounds f .rn (x * y + z) (ffma f a b c)) ∧
      (x * y - z ≠ 0 → Rounds f .rn (x * y - z) (ffms f a b c))) ∧
  (∀ (f : Fmt) (neg : Bool) (n d : Nat) (e : Int) (m : Rnd) (r : Rat), f ∈ [fp32, fp16, bf16] → 0 < n → 0 < d →
      realOf f (roundRat f m neg n d e) = some r →
      let x : Rat := (if neg then -1 else 1) * ((n : Rat) / d) * (2 : Rat) ^ e
      ∀ (b : Nat) (v : Rat), realOf f b = some v →
        (m = .rn → |r - x| ≤ |v - x|) ∧
        (m = .rz → |r| ≤ |x| ∧ (|v| ≤ |x| → |v| ≤ |r|)) ∧
        (m = .rd → r ≤ x ∧ (v ≤ x → v ≤ r)) ∧
        (m = .ru → x ≤ r ∧ (x ≤ v → r ≤ v)))

/-! ## Lanes, votes, special registers, messages (chapters 09 and 12) -/

namespace Sys2Proof.Spec
open Sys2Proof.Machine

/-- A result that every present lane's A decides together (R197). -/
def ofVote (d : BitVec 4) (a : Src) (g : Table Word → Word) : Value :=
  ⟨6, 1, d, fun u _ => (eachLane u (read32 u a)).map (fun t => [g t])⟩

/-- The special registers of R198 for a lane, of a workgroup of a launch in a running context. -/
def sregValue (s : State) (u : Iss) (w : Workgroup) (x : Launch) (sl : Slice) (i lane : Nat) : Word :=
  match i with
  | 0 => BitVec.ofNat 32 (u.f.wlf * 32 + lane)
  | 1 => BitVec.ofNat 32 (w.core * 16 + w.rank)
  | 2 => BitVec.ofNat 32 (w.cluster % x.x)
  | 3 => BitVec.ofNat 32 (w.cluster / x.x % x.y)
  | 4 => BitVec.ofNat 32 (w.cluster / x.x / x.y)
  | 5 => BitVec.ofNat 32 w.cluster
  | 6 => BitVec.ofNat 32 ((x.stages - 1) * 8 + w.cluster % x.stages)
  | 7 => u.cl.lanes
  | 8 => BitVec.ofNat 32 u.l
  | 9 => piReg s u lane
  | 10 => s.caps
  | _ => BitVec.ofNat 32 (sl.desc.fn % 128 * 65536 + sl.desc.ctx % 65536)

end Sys2Proof.Spec

/-- R196, R197 and R267: LANE.SEL reads A from the lane that B names; a vote gives every present lane one answer about
the present lanes' values; ELECT gives 1 to the lowest present lane. R198, R20 and R299: SREG delivers the special
register that its index names. R272 and R273: MSIG waits for the release, hands the Mast one message while fewer than
16 wait there, and says so in every present lane; a channel above 31 is an operand trap. MARK records every present
lane's A. -/
def Obligations.LaneMessageAndSpecialWords : Prop :=
  (∀ (d : BitVec 4) (b a : Src) (sel : BitVec 5),
      Delivers (.laneSelB32 d b sel) ⟨6, 1, d, fun u i =>
        (read32 u b i).bind (fun y => (readFrom u.f (y.toNat % 32) sel.toNat).map (fun v => [v]))⟩ ∧
      Delivers (.voteAny d a) (ofVote d a (fun t => truth (∃ e ∈ t, e.2 ≠ 0))) ∧
      Delivers (.voteAll d a) (ofVote d a (fun t => truth (∀ e ∈ t, e.2 ≠ 0))) ∧
      Delivers (.voteBal d a) (ofVote d a (fun t => maskOf ((t.filter (fun e => decide (e.2 ≠ 0))).map (fun e => e.1)))) ∧
      Delivers (.voteUni d a) (ofVote d a (fun t => truth (∀ e ∈ t, ∀ e' ∈ t, e.2 = e'.2))) ∧
      Delivers (.elect d) (fromBundle 4 d (fun u i => truth (i = lowest u.cl.lanes)))) ∧
  (∀ (d : BitVec 4) (i : BitVec 9) (s : State) (u : Iss) (w : Workgroup) (x : Launch) (sl : Slice),
      issuing s = some u → writeHeld u (regsOf d.toNat 1) = false → workgroup s u.f.wg = some w → launchOf s u.f.wg = some x →
      s.slice = some sl →
      exec (.sreg d i) s = .next (issueVals s u 4 1 d (u.lanes.map (fun l => (l, [sregValue s u w x sl i.toNat l]))))) ∧
  ((∀ (d : BitVec 4) (b a : Src) (s : State) (u : Iss) (x y : Word),
      issuing s = some u → read32 u a (lowest u.cl.lanes) = some x → read32 u b (lowest u.cl.lanes) = some y →
      writeHeld u (regsOf d.toNat 1) = false →
      (32 ≤ x.toNat → exec (.msig d b a) s = .next (trap s u 3 u.word)) ∧
      (x.toNat < 32 → released s u.c u.l u.cl.lanes s.ops .dev = true →
        ((Machine.core s u.c).mast.msgs.length < 16 →
          exec (.msig d b a) s = .next (issueVals
            (modCore s u.c (fun k => { k with mast := { k.mast with
              msgs := k.mast.msgs ++ [⟨x.toNat, y, ctxId s, u.l, u.f.wlf * 32 + lowest u.cl.lanes⟩] } }))
            u 6 1 d (u.lanes.map (fun i => (i, [1]))))) ∧
        (16 ≤ (Machine.core s u.c).mast.msgs.length →
          exec (.msig d b a) s = .next (issueVals s u 6 1 d (u.lanes.map (fun i => (i, [0]))))))) ∧
    (∀ (a : Src) (s : State) (u : Iss) (t : Table Word), issuing s = some u → eachLane u (read32 u a) = some t →
      exec (.mark a) s = .next (advance (t.foldl (fun s e => record s u.c 12 (thrField u.l e.1) u.pc e.2.toNat) s) u)))

/-! ## Chapter 10: memory words -/

namespace Sys2Proof.Spec
open Sys2Proof.Machine

/-- A format M address (R201): the base plus the scaled offset, modulo 2^32. -/
def based (b : Src) (n : Int) (u : Iss) (i : Nat) : Option Nat := (read32 u b i).map (fun v => ((uint v + n) % 2 ^ 32).toNat)

/-- The address in a register operand. -/
def direct (a : Src) (u : Iss) (i : Nat) : Option Nat := (read32 u a i).map (fun v => v.toNat)

/-- A load word: when its registers are free, no earlier acquire of its threads is outstanding and the address phase finds every
lane's place, it goes out; when the address phase finds a failing check, that trap is taken. -/
def Loads (i : Instr) (f : LoadForm) (reg : Nat) (fs : Side) (ea : Iss → Nat → Option Nat) : Prop :=
  ∀ (s s1 : State) (u : Iss), issuing s = some u → writeHeld u (regsOf reg (slotsOf f.width)) = false → acquiring s u = false →
    (∀ addrs ents, findPlaces s u f.reach f.align f.width 0 false (ea u) = (.ok addrs ents, s1) →
      exec i s = .next (issueLoad s1 u f reg (u.flag fs) addrs ents)) ∧
    (∀ k d, findPlaces s u f.reach f.align f.width 0 false (ea u) = (.trap k d, s1) → exec i s = .next (trap s1 u k d))

/-- A store word, likewise: its data can be read and the write queue takes its blocks. -/
def Stores (i : Instr) (w align : Nat) (r : Reach) (fs : Side) (rel : Option Scope) (ea : Iss → Nat → Option Nat)
    (data : Iss → Nat → Option (List Byte)) : Prop :=
  ∀ (s s1 : State) (u : Iss) (vals : Table (List Byte)), issuing s = some u → acquiring s u = false →
    eachLane u (data u) = some vals →
    (∀ addrs ents, findPlaces s u r align w 1 true (ea u) = (.ok addrs ents, s1) →
      queueRoom s1 u.c ((partsOf (laneBytes addrs w (fun i => look vals i []))).filter (fun p => p.space.isVirt)).length = true →
      exec i s = .next (issueStore s1 u w (u.flag fs) rel addrs ents (fun i => look vals i []))) ∧
    (∀ k d, findPlaces s u r align w 1 true (ea u) = (.trap k d, s1) → exec i s = .next (trap s1 u k d))

/-- An atomic word, likewise: a return-slot row is free and the write queue takes its requests. -/
def Atomics (i : Instr) (o : AtomOp) (w : Nat) (r : Reach) (reg : Nat) (fs : Side) (acq : Bool) (rel : Option Scope)
    (ea : Iss → Nat → Option Nat) (val : Iss → Nat → Option (Word × Word)) : Prop :=
  ∀ (s s1 : State) (u : Iss) (vals : Table (Word × Word)), issuing s = some u → writeHeld u (regsOf reg 1) = false →
    acquiring s u = false → eachLane u (val u) = some vals →
    (∀ addrs ents, findPlaces s u r w w 1 true (ea u) = (.ok addrs ents, s1) → u.f.rows.length < 4 →
      queueRoom s1 u.c (addrs.filter (fun e => e.2.isVirt)).length = true →
      exec i s = .next (issueAtomic s1 u o w reg (u.flag fs) acq rel addrs ents vals)) ∧
    (∀ k d, findPlaces s u r w w 1 true (ea u) = (.trap k d, s1) → exec i s = .next (trap s1 u k d))

/-- The low bytes of a named register (R206). -/
def low (w : Nat) (r : BitVec 4) (u : Iss) (i : Nat) : Option (List Byte) :=
  (readNamed (thread u.f i) r.toNat).map (fun v => leBytes w v.toNat)

/-- The bytes of consecutive named registers, the first lowest (R111, R145). -/
def regBytes (n : Nat) (r : BitVec 4) (u : Iss) (i : Nat) : Option (List Byte) :=
  ((List.range n).mapM (fun k => readNamed (thread u.f i) (r.toNat + k))).map (fun l => l.flatMap (fun v => leBytes 4 v.toNat))

/-- A word or doubleword operand as an atomic's operands: the first and the second word. -/
def oneWord (b : BitVec 5) (u : Iss) (i : Nat) : Option (Word × Word) := (readSC u b i).map (fun v => (v, 0))
def twoWords (b : BitVec 5) (u : Iss) (i : Nat) : Option (Word × Word) :=
  (readSC64 u b i).map (fun v => (BitVec.ofNat 32 (v.toNat % 2 ^ 32), BitVec.ofNat 32 (v.toNat / 2 ^ 32)))

end Sys2Proof.Spec

/-- R201, R204, R205, R208 and R210: the loads of the thread region, of the own scratchpad and of the cluster's, and
GATHER. R201, R204, R206 and R208: the stores of the thread region, of the own scratchpad and of the cluster's. -/
def Obligations.LoadAndStoreWords : Prop :=
  (∀ (r : BitVec 4) (f : Side) (b : Src) (x : BitVec 9),
      Loads (.ldS8 r f b x) ⟨1, true, .load, 1, .region⟩ r.toNat f (based b x.toInt) ∧
      Loads (.ldZ8 r f b x) ⟨1, false, .load, 1, .region⟩ r.toNat f (based b x.toInt) ∧
      Loads (.ldS16 r f b x) ⟨2, true, .load, 1, .region⟩ r.toNat f (based b (2 * x.toInt)) ∧
      Loads (.ldZ16 r f b x) ⟨2, false, .load, 1, .region⟩ r.toNat f (based b (2 * x.toInt)) ∧
      Loads (.ldB32 r f b x) ⟨4, false, .load, 1, .region⟩ r.toNat f (based b (4 * x.toInt)) ∧
      Loads (.ldB64 r f b x) ⟨8, false, .load, 1, .region⟩ r.toNat f (based b (8 * x.toInt)) ∧
      Loads (.ldB128 r f b x) ⟨16, false, .load, 1, .region⟩ r.toNat f (based b (16 * x.toInt)) ∧
      Loads (.ldsB32 r f b x) ⟨4, false, .load, 4, .own⟩ r.toNat f (based b (4 * x.toInt)) ∧
      Loads (.ldsB64 r f b x) ⟨8, false, .load, 8, .own⟩ r.toNat f (based b (8 * x.toInt)) ∧
      Loads (.ldsB128 r f b x) ⟨16, false, .load, 16, .own⟩ r.toNat f (based b (16 * x.toInt)) ∧
      Loads (.ldrB32 r f b x) ⟨4, false, .load, 4, .cluster⟩ r.toNat f (based b (4 * x.toInt)) ∧
      Loads (.ldrB64 r f b x) ⟨8, false, .load, 8, .cluster⟩ r.toNat f (based b (8 * x.toInt)) ∧
      Loads (.gatherB32 r f b x) ⟨4, false, .gather, 1, .region⟩ r.toNat f (based b (4 * x.toInt))) ∧
  (∀ (r : BitVec 4) (f : Side) (b : Src) (x : BitVec 9),
      Stores (.stB8 r f b x) 1 1 .region f none (based b x.toInt) (low 1 r) ∧
      Stores (.stB16 r f b x) 2 1 .region f none (based b (2 * x.toInt)) (low 2 r) ∧
      Stores (.stB32 r f b x) 4 1 .region f none (based b (4 * x.toInt)) (low 4 r) ∧
      Stores (.stB64 r f b x) 8 1 .region f none (based b (8 * x.toInt)) (regBytes 2 r) ∧
      Stores (.stB128 r f b x) 16 1 .region f none (based b (16 * x.toInt)) (regBytes 4 r) ∧
      Stores (.stsB32 r f b x) 4 4 .own f none (based b (4 * x.toInt)) (low 4 r) ∧
      Stores (.stsB64 r f b x) 8 8 .own f none (based b (8 * x.toInt)) (regBytes 2 r) ∧
      Stores (.stsB128 r f b x) 16 16 .own f none (based b (16 * x.toInt)) (regBytes 4 r) ∧
      Stores (.strB32 r f b x) 4 4 .cluster f none (based b (4 * x.toInt)) (low 4 r) ∧
      Stores (.strB64 r f b x) 8 8 .cluster f none (based b (8 * x.toInt)) (regBytes 2 r))

/-- R212 to R214 and R219: the atomics with their qualifiers, and the arrival words' INIT and ADD (a release at .cl).
That an arrival word takes a return-slot row at issue, as an atomic does, is the model's choice (entry 79). R215:
acquire loads and release stores, aligned, of the thread region or the cluster's scratchpads. -/
def Obligations.AtomicWords : Prop :=
  (∀ (q : Qual) (d : BitVec 4) (c : Scope) (f : Side) (b : BitVec 5) (a : Src),
      let acq := decide (q = .acq ∨ q = .ar)
      let rel := if q = .rel ∨ q = .ar then some c else none
      Atomics (.atmAddZ32 q d c f b a) .add 4 .either d.toNat f acq rel (direct a) (oneWord b) ∧
      Atomics (.atmAddF32 q d c f b a) .addF 4 .either d.toNat f acq rel (direct a) (oneWord b) ∧
      Atomics (.atmMinS32 q d c f b a) .mins 4 .either d.toNat f acq rel (direct a) (oneWord b) ∧
      Atomics (.atmMaxS32 q d c f b a) .maxs 4 .either d.toNat f acq rel (direct a) (oneWord b) ∧
      Atomics (.atmMinZ32 q d c f b a) .minz 4 .either d.toNat f acq rel (direct a) (oneWord b) ∧
      Atomics (.atmMaxZ32 q d c f b a) .maxz 4 .either d.toNat f acq rel (direct a) (oneWord b) ∧
      Atomics (.atmAndB32 q d c f b a) .and 4 .either d.toNat f acq rel (direct a) (oneWord b) ∧
      Atomics (.atmOrB32 q d c f b a) .or 4 .either d.toNat f acq rel (direct a) (oneWord b) ∧
      Atomics (.atmXorB32 q d c f b a) .xor 4 .either d.toNat f acq rel (direct a) (oneWord b) ∧
      Atomics (.atmExchB32 q d c f b a) .exch 4 .either d.toNat f acq rel (direct a) (oneWord b) ∧
      Atomics (.atmCasB32 q d c f b a) .cas 4 .either d.toNat f acq rel (direct a) (twoWords b) ∧
      Atomics (.arriveInit d f b a) .arriveInit 16 .arrive d.toNat f false none (direct a) (oneWord b) ∧
      Atomics (.arriveAdd d f b a) .arriveAdd 16 .arrive d.toNat f false (some .cl) (direct a) (oneWord b)) ∧
  (∀ (d : BitVec 4) (c : Scope) (f : Side) (b : BitVec 5) (a : Src),
      Loads (.ldAcqB32 d c f a) ⟨4, false, .acquire, 4, .either⟩ d.toNat f (direct a) ∧
      Loads (.ldAcqB64 d c f a) ⟨8, false, .acquire, 8, .either⟩ d.toNat f (direct a) ∧
      Stores (.stRelB32 c f b a) 4 4 .either f (some c) (direct a) (fun u i => (readSC u b i).map (fun v => leBytes 4 v.toNat)) ∧
      Stores (.stRelB64 c f b a) 8 8 .either f (some c) (direct a) (fun u i => (readSC64 u b i).map (fun v => leBytes 8 v.toNat)))

/-- R203 and R211: the address phase. The lowest lane with a misaligned address raises kind 4 with its address; then
the lowest lane outside its scratchpad or cluster raises kind 5; the pages are looked at only after that. R201, R202
and R208: the places of addresses. A thread-region address takes the region's upper bits; a scratchpad offset must lie
below SCRATCH × 4096; a cluster address names a rank of the launch's clusters and an offset in that rank's scratchpad.
R211: for one page, the page-fault row comes before the protection row, and both before the capacity tier: a table
that could not be read and ordering 3 give their kind or kind 6; M = 1, and W = 0 for a write, give kind 7; kind 3
then meets the capacity tier; else the word has its place. A page whose translation waits for B of a new slot to clear
makes the word hold (R57). -/
def Obligations.AddressPhase : Prop :=
  (∀ (s : State) (u : Iss) (r : Reach) (align w kind : Nat) (write : Bool) (ea : Nat → Option Nat) (eas : Table Nat),
      eachLane u ea = some eas →
      (∀ e, eas.find? (fun e => decide (e.2 % align ≠ 0)) = some e → findPlaces s u r align w kind write ea = (.trap 4 e.2, s)) ∧
      ((∀ e ∈ eas, e.2 % align = 0) →
        (∀ e, eas.find? (fun e => decide (placeOf s u r e.2 = none)) = some e →
          findPlaces s u r align w kind write ea = (.trap 5 e.2, s)) ∧
        ((∀ e ∈ eas, placeOf s u r e.2 ≠ none) →
          ∃ places : Table Space, places.map (fun e => (e.1, some e.2)) = eas.map (fun e => (e.1, placeOf s u r e.2)) ∧
            findPlaces s u r align w kind write ea = checkPages s u.c (ctxId s) places w kind write))) ∧
  (∀ (s : State) (u : Iss) (ea : Nat) (w : Workgroup) (x : Launch), ea < 2 ^ 32 → w.id = u.f.wg → workgroup s u.f.wg = some w →
      launchOf s u.f.wg = some x →
      placeOf s u .region ea = some (.virt (ctxId s) (x.entry / 2 ^ 32 * 2 ^ 32 + ea)) ∧
      (x.scratch * 4096 ≤ ea → placeOf s u .own ea = none) ∧
      (ea < x.scratch * 4096 → placeOf s u .own ea = some (.scr (scratchByte w ea))) ∧
      (ea / 2 ^ 25 ≠ 0x7F → placeOf s u .cluster ea = none ∧ placeOf s u .either ea = placeOf s u .region ea) ∧
      (ea / 2 ^ 25 = 0x7F →
        placeOf s u .either ea = placeOf s u .cluster ea ∧
        (x.wgPerCl ≤ ea / 2 ^ 21 % 16 ∨ x.scratch * 4096 ≤ ea % 2 ^ 21 → placeOf s u .cluster ea = none) ∧
        (∀ m, ea / 2 ^ 21 % 16 < x.wgPerCl → ea % 2 ^ 21 < x.scratch * 4096 → clusterMate s w (ea / 2 ^ 21 % 16) = some m →
          placeOf s u .cluster ea = some (.scr (scratchByte m (ea % 2 ^ 21)))))) ∧
  (∀ (s s1 : State) (c ctx va w kind : Nat) (write : Bool) (lane : Nat) (r : Except Nat DWord),
      0 < w → va % 4096 + w ≤ 4096 → va < 2 ^ 48 → fetchTrans s c ctx (va / 4096) = (r, s1) →
      let got := checkPages s c ctx [(lane, .virt ctx va)] w kind write
      (fetchWaits s c ctx (va / 4096) = true → got = (.hold, s)) ∧
      (fetchWaits s c ctx (va / 4096) = false →
      let detail := va / 4096 + kind * 2 ^ 36
      (∀ k, r = .error k → got = (.trap k detail, s1)) ∧
      (∀ e, r = .ok e →
        (entOrd e = 3 → got = (.trap 6 detail, s1)) ∧
        (entOrd e ≠ 3 → (entM e = true ∨ (write = true ∧ entW e = false)) → got = (.trap 7 detail, s1)) ∧
        (entOrd e ≠ 3 → entM e = false → (write = true → entW e = true) → entKind e = 3 → got = (.cap (va / 4096), s1)) ∧
        (entOrd e ≠ 3 → entM e = false → (write = true → entW e = true) → entKind e ≠ 3 →
          got = (.ok [(lane, .virt ctx va)] [(va / 4096, e)], s1)))))

namespace Sys2Proof.Spec
open Sys2Proof.Machine

/-- A host address (R209): 64 bits, the offset scaled by the access size. -/
def hostBased (b : Src) (n : Int) (u : Iss) (i : Nat) : Option Nat :=
  (read64 u b i).map (fun v => (((v.toNat : Int) + n) % 2 ^ 64).toNat)

/-- The requests that a word forms, one for each 128-byte block in ascending order, numbered from a first one. -/
def blockReqs (first : Nat) (l : List Part) (g : Part → Req) : List Req := l.mapIdx (fun k p => { g p with id := first + k })

/-- A host load: with every lane's page translated it sends its reads out, one a block, under the translations found; a miss asks
for the translation and parks the bundle. -/
def HostLoads (i : Instr) (w : Nat) (r : BitVec 4) (fs : Side) (ea : Iss → Nat → Option Nat) : Prop :=
  ∀ (s : State) (u : Iss) (addrs : Table Nat), issuing s = some u → writeHeld u (regsOf r.toNat (slotsOf w)) = false →
    acquiring s u = false → eachLane u (ea u) = some addrs →
    (hostMiss s u.c addrs w false = none →
      let o := loadOp s u ⟨w, false, .host, 1, .region⟩ r.toNat (u.flag fs) (addrs.map (fun e => (e.1, .host (ctxPasid s) e.2))) []
      ∃ t, exec i s = .next t ∧ (Machine.core t u.c).ops = (Machine.core s u.c).ops ++ [o] ∧
        (Machine.core t u.c).reqs = (Machine.core s u.c).reqs ++ blockReqs (s.ops + 1) (partsOf (laneBytes o.addrs w (fun _ => []))) (fun p =>
          { blankReq u o.op .load p (u.flag fs) 1 with
            phase := .sent
            entAt := s.cycle
            ent := match p.space with
              | .host _ a => (hostTrans s u.c (a / 4096) false).map (fun t => BitVec.ofNat 64 t.hostPage)
              | _ => none }) ∧
        (undoOn s = false → t.mem = s.mem)) ∧
    (∀ p, hostMiss s u.c addrs w false = some p → exec i s = .next (parkAll (atsMiss s u.c p false) u (.host p)))

/-- A host store, likewise. -/
def HostStores (i : Instr) (w : Nat) (fs : Side) (ea : Iss → Nat → Option Nat) (data : Iss → Nat → Option (List Byte)) : Prop :=
  ∀ (s : State) (u : Iss) (addrs : Table Nat) (vals : Table (List Byte)), issuing s = some u → acquiring s u = false →
    eachLane u (ea u) = some addrs → eachLane u (data u) = some vals →
    (hostMiss s u.c addrs w true = none →
      ∃ t, exec i s = .next t ∧ (Machine.core t u.c).ops = (Machine.core s u.c).ops ∧
        (Machine.core t u.c).reqs = (Machine.core s u.c).reqs ++ blockReqs (s.ops + 1)
          (partsOf (laneBytes (addrs.map (fun e => (e.1, .host (ctxPasid s) e.2))) w (fun i => look vals i []))) (fun p =>
          { blankReq u s.ops .store p (u.flag fs) 1 with
            ent := match p.space with
              | .host _ a => (hostTrans s u.c (a / 4096) true).map (fun t => BitVec.ofNat 64 t.hostPage)
              | _ => none }) ∧
        (undoOn s = false → t.mem = s.mem)) ∧
    (∀ p, hostMiss s u.c addrs w true = some p → exec i s = .next (parkAll (atsMiss s u.c p true) u (.host p)))

end Sys2Proof.Spec

/-- R209 and R340: the host-pointer words. -/
def Obligations.HostPointerWords : Prop :=
  ∀ (r : BitVec 4) (f : Side) (b : Src) (x : BitVec 9),
    HostLoads (.ldhB32 r f b x) 4 r f (hostBased b (x.toInt * 4)) ∧
    HostLoads (.ldhB64 r f b x) 8 r f (hostBased b (x.toInt * 8)) ∧
    HostStores (.sthB32 r f b x) 4 f (hostBased b (x.toInt * 4)) (low 4 r) ∧
    HostStores (.sthB64 r f b x) 8 f (hostBased b (x.toInt * 8)) (regBytes 2 r)

namespace Sys2Proof.Spec
open Sys2Proof.Machine

/-- A waiting word (R216): once every lane's place is known and read, the lanes whose condition holds take their value and go on,
and the others arm monitors and park. -/
def Waits (i : Instr) (cond : MonCond) (w : Nat) (r : Reach) (d : BitVec 4) (fs : Side) (b : BitVec 5) (a : Src) : Prop :=
  ∀ (s s1 s2 : State) (u : Iss) (bs : Table Word) (addrs : Table Space) (ents : Table DWord) (nums : Table Nat),
    issuing s = some u → writeHeld u (regsOf d.toNat 1) = false → acquiring s u = false →
    eachLane u (fun i => readSC u b i) = some bs → findPlaces s u r w w 0 false (direct a u) = (.ok addrs ents, s1) →
    strongAll s1 u w ents addrs = (.ok nums, s2) →
    exec i s = .next (issueMonitor s2 u cond d.toNat (u.flag fs) addrs ents nums bs)

end Sys2Proof.Spec

/-- R216 and R220: MON.WAIT and ARRIVE.WAIT; and what their conditions say of the word, or of GEN. R222, R223 and R88:
FENCE holds the bundle at its word under its scope; FENCE.X of one path is a FENCE, of a later path .thr holds the
bundle for the earlier path, and else goes on and holds the workgroup's later accesses of path Q. -/
def Obligations.MonitorAndFenceWords : Prop :=
  ((∀ (d : BitVec 4) (c : Scope) (f : Side) (b : BitVec 5) (a : Src),
      Waits (.monWaitEq d c f b a) .eq 4 .either d f b a ∧
      Waits (.monWaitNe d c f b a) .ne 4 .either d f b a ∧
      Waits (.monWaitGez d c f b a) .gez 4 .either d f b a ∧
      Waits (.arriveWait d c f b a) .gen 16 .arrive d f b a) ∧
    (∀ (v b : Word),
      (condHolds .eq v.toNat b = true ↔ v = b) ∧ (condHolds .ne v.toNat b = true ↔ v ≠ b) ∧
      (condHolds .gez v.toNat b = true ↔ 0 ≤ (v - b).toInt)) ∧
    (∀ (g : Nat) (b : Word), g < 2 ^ 16 →
      (condHolds .gen g b = true ↔ 1 ≤ ((g : Int) - b.toNat) % 2 ^ 16 ∧ ((g : Int) - b.toNat) % 2 ^ 16 ≤ 32767))) ∧
  (∀ (s : State) (u : Iss) (c : Scope) (p r : Path), issuing s = some u →
      let held (x : Option Path) : Outcome :=
        .next { modLF { s with ops := s.ops + 1 } u.c u.l (fun f => { f with fence := some ⟨s.ops, c, x⟩ }) with at_ := none }
      exec (.fence c) s = held none ∧
      (p = r → exec (.fenceX c r p) s = held none) ∧
      (p ≠ r → r = .thr → exec (.fenceX c r p) s = held (some p)) ∧
      (p ≠ r → r ≠ .thr → exec (.fenceX c r p) s =
        .next (advance (modCore { s with ops := s.ops + 1 } u.c (fun k => modC k (fun y =>
          { y with xholds := y.xholds ++ [⟨s.ops, u.f.wg, p, r, c⟩] }))) u)))

namespace Sys2Proof.Spec
open Sys2Proof.Machine

/-- A page-attribute word (R224): each present lane's request is entered, for NPAGES + 1 pages from the page of its address. -/
def PageWords (i : Instr) (hint : Bool) (d : BitVec 4) (fs : Side) (a : Src) (ctl : Iss → Nat → Option (Word × Word)) : Prop :=
  ∀ (s : State) (u : Iss) (cs : Table (Word × Word)) (eas : Table Word), issuing s = some u →
    writeHeld u (regsOf d.toNat 1) = false → acquiring s u = false → eachLane u (ctl u) = some cs →
    eachLane u (read32 u a) = some eas →
    let va (l : Nat) : Nat := regionOf s u.f.wg * 2 ^ 32 + (look eas l 0).toNat
    let num (l : Nat) : Nat := (look cs l (0, 0)).1.toNat / 2 ^ 16 + 1
    (cs.any (fun e => badControl hint e.2.1) = true → exec i s = .next (trap s u 3 u.word)) ∧
    (cs.any (fun e => badControl hint e.2.1) = false →
      (∀ k p, u.lanes.findSome? (fun l => attrFault s (ctxId s) (attrPages (va l) (num l))) = some (k, p) →
        exec i s = .next (trap s u k (p % 2 ^ 36 + 2 ^ 36))) ∧
      ((∀ l ∈ u.lanes, attrFault s (ctxId s) (attrPages (va l) (num l)) = none) →
        ∃ t, exec i s = .next t ∧ (undoOn s = false → t.mem = s.mem) ∧
          (Machine.core t u.c).ops = (Machine.core s u.c).ops ++
            [{ loadOp s u ⟨4, false, .attr, 1, .region⟩ d.toNat (u.flag fs) [] [] with requests := 0 }] ∧
          (Machine.core t u.c).c.pageReqs = (Machine.core s u.c).c.pageReqs ++ u.lanes.mapIdx (fun k l =>
            { id := s.ops + 1 + k, core := u.c, lf := u.l, wg := u.f.wg, pc := u.pc, lane := l, op := s.ops, hint := hint
              ctl := (look cs l (0, 0)).1, ctx := ctxId s, vpn := va l / 4096, left := num l, changed := 0
              capNext := (look cs l (0, 0)).2.toNat, step := 0, came := s.cycle, since := s.cycle, writes := 0, reads := 0
              fired := false })))

end Sys2Proof.Spec

/-- R224: HINT and PGSET; and the control words they refuse. The model's choices: the access kind 1 (store) in the DETAIL of a fault that their
checks raise (entry 75), and that an address in the cluster window names the thread-region page of its number (entry 109). -/
def Obligations.PageAttributeWords : Prop :=
  (∀ (d : BitVec 4) (f : Side) (b : BitVec 5) (a : Src),
    PageWords (.hint d f b a) true d f a (oneWord b) ∧ PageWords (.pgset d f b a) false d f a (twoWords b)) ∧
  (∀ ctl : Word,
    (badControl true ctl = true ↔ ctl.toNat / 8 % 2 ^ 13 ≠ 0 ∨ 6 ≤ ctl.toNat % 8) ∧
    (badControl false ctl = true ↔ ctl.toNat / 64 % 2 ^ 10 ≠ 0 ∨ ctl.toNat / 4 % 4 = 3 ∨ ctl.getLsbD 0 = true))

/-! ## Chapter 11: matrix and Grove words -/

/-- R236: RSV.SET takes the lowest free record for its workgroup and delivers its number; a reserved image is an
operand trap, and a cause of R407 a matrix-operand trap. That the record is taken at issue is the model's reading
(entry 47). R237, R238 and R239: RSV.FREE and MXLD name a live record of their workgroup and enter the matrix queue;
RSV.GET delivers an image of one, or zero. The order of MXLD's checks is the model's reading (entry 48). -/
def Obligations.ReservationWords : Prop :=
  (∀ (d : BitVec 4) (b : BitVec 5) (a : Src) (s : State) (u : Iss) (x y : DWord), issuing s = some u →
      read64 u a (lowest u.cl.lanes) = some x → readSC64 u b (lowest u.cl.lanes) = some y →
      writeHeld u (regsOf d.toNat 1) = false → mqRoom s u.c = true →
      (rsvBad x y = true → exec (.rsvSet d b a) s = .next (trap s u 3 u.word)) ∧
      (∀ k, rsvBad x y = false → rsvCause s u.c u.f.wg (recView (rsvBits x y)) = some k →
        exec (.rsvSet d b a) s = .next (trap s u 10 (x.toNat % 2 ^ 32 + k * 2 ^ 32))) ∧
      (∀ r, rsvBad x y = false → rsvCause s u.c u.f.wg (recView (rsvBits x y)) = none → r < 32 →
        lookup (Machine.core s u.c).c.recs r = none → (∀ q < r, lookup (Machine.core s u.c).c.recs q ≠ none) →
        exec (.rsvSet d b a) s = .next (issueVals
          (enqueue (modCore s u.c (fun k => modC k (fun z => { z with recs := put z.recs r ⟨rsvBits x y, u.f.wg⟩ }))) u .short 0 none)
          u 8 1 d (u.lanes.map (fun i => (i, [BitVec.ofNat 32 r])))))) ∧
  (∀ (d : BitVec 4) (f : Side) (b : BitVec 5) (a : Src) (s : State) (u : Iss), issuing s = some u → mqRoom s u.c = true →
      (∀ x : Word, read32 u a (lowest u.cl.lanes) = some x →
        (32 ≤ x.toNat → exec (.rsvFree a) s = .next (trap s u 3 u.word)) ∧
        (x.toNat < 32 → ownRec s u.c u.f.wg x.toNat = none →
          exec (.rsvFree a) s = .next (trap s u 10 (x.toNat + 6 * 2 ^ 32))) ∧
        (x.toNat < 32 → ownRec s u.c u.f.wg x.toNat ≠ none →
          exec (.rsvFree a) s = .next (advance (enqueue s u (.rsvFree x.toNat) 0 none) u)) ∧
        (writeHeld u (regsOf d.toNat 2) = false → 64 ≤ x.toNat → exec (.rsvGet d a) s = .next (trap s u 3 u.word)) ∧
        (writeHeld u (regsOf d.toNat 2) = false → x.toNat < 64 →
          exec (.rsvGet d a) s = .next (issueVals (enqueue s u .short 0 none) u 4 2 d
            (u.lanes.map (fun i => (i, words64 (rsvImage s u.c u.f.wg x))))))) ∧
      (∀ (x : DWord) (y : Word), read64 u a (lowest u.cl.lanes) = some x → readSC u b (lowest u.cl.lanes) = some y →
        (32 ≤ y.toNat → exec (.mxld f b a) s = .next (trap s u 3 u.word)) ∧
        (y.toNat < 32 → x.toNat % 16 ≠ 0 → exec (.mxld f b a) s = .next (trap s u 4 (x.toNat % 2 ^ 32))) ∧
        (y.toNat < 32 → x.toNat % 16 = 0 → ownRec s u.c u.f.wg y.toNat = none →
          exec (.mxld f b a) s = .next (trap s u 10 (x.toNat % 2 ^ 32 + 6 * 2 ^ 32))) ∧
        (y.toNat < 32 → x.toNat % 16 = 0 → ownRec s u.c u.f.wg y.toNat ≠ none →
          exec (.mxld f b a) s = .next (advance (enqueue s u (.mxld y.toNat x.toNat) 0 (u.flag f)) u))))

/-- R240 to R243: the accumulator words claim an unowned tile where they write it, refuse another workgroup's tile, and enter the
matrix queue; ACC.RD gives every present lane a result to come. That a tile is claimed when its word issues (entry 47) and the order of the
checks (entry 48) are the model's readings. -/
def Obligations.AccumulatorWords : Prop :=
  ∀ (d : BitVec 4) (f : Side) (b : BitVec 5) (a : Src) (s : State) (u : Iss), issuing s = some u → mqRoom s u.c = true →
    (∀ x : Word, read32 u a (lowest u.cl.lanes) = some x →
      (64 ≤ x.toNat → exec (.accZero a) s = .next (trap s u 3 u.word) ∧ exec (.accFree a) s = .next (trap s u 3 u.word)) ∧
      (x.toNat < 64 → tileOther s u.c u.f.wg x.toNat = true →
        exec (.accZero a) s = .next (trap s u 11 (x.toNat + 2 ^ 32)) ∧
        exec (.accFree a) s = .next (trap s u 11 (x.toNat + 2 ^ 32))) ∧
      (x.toNat < 64 → tileOther s u.c u.f.wg x.toNat = false →
        exec (.accZero a) s = .next (advance (enqueue (claimTile s u.c u.f.wg x.toNat) u (.accZero x.toNat) 0 none) u) ∧
        exec (.accFree a) s = .next (advance (enqueue s u (.accFree x.toNat) 0 none) u))) ∧
    (∀ (x : DWord) (y : Word), read64 u a (lowest u.cl.lanes) = some x → readSC u b (lowest u.cl.lanes) = some y →
      (y.toNat / 2 ^ 9 ≠ 0 ∨ y.toNat / 2 ^ 6 % 4 ≠ 0 →
        exec (.accLd f b a) s = .next (trap s u 3 u.word) ∧ exec (.accSt f b a) s = .next (trap s u 3 u.word)) ∧
      (y.toNat / 2 ^ 9 = 0 → y.toNat / 2 ^ 6 % 4 = 0 →
      (x.toNat % 128 ≠ 0 → exec (.accLd f b a) s = .next (trap s u 4 (x.toNat % 2 ^ 32)) ∧
        exec (.accSt f b a) s = .next (trap s u 4 (x.toNat % 2 ^ 32))) ∧
      (x.toNat % 128 = 0 → tileOther s u.c u.f.wg (y.toNat % 64) = true →
        exec (.accLd f b a) s = .next (trap s u 11 (x.toNat % 2 ^ 32 + 2 ^ 32)) ∧
        exec (.accSt f b a) s = .next (trap s u 11 (x.toNat % 2 ^ 32 + 2 ^ 32))) ∧
      (x.toNat % 128 = 0 → tileOther s u.c u.f.wg (y.toNat % 64) = false →
        exec (.accLd f b a) s = .next (advance (enqueue (claimTile s u.c u.f.wg (y.toNat % 64)) u
          (.accLd (y.toNat % 64) x.toNat (y.getLsbD 8)) 0 (u.flag f)) u) ∧
        exec (.accSt f b a) s = .next (advance (enqueue s u (.accSt (y.toNat % 64) x.toNat (y.getLsbD 8)) 0 (u.flag f)) u)))) ∧
    (∀ sel : Table Word, eachLane u (read32 u a) = some sel → writeHeld u (regsOf d.toNat 1) = false →
      (∀ e ∈ sel, e.2.toNat < 2 ^ 17 ∧ tileOther s u.c u.f.wg (e.2.toNat % 64) = false) →
      exec (.accRd d f a) s = .next (laneEngineWord s u (.accRd sel) d (u.flag f)))

namespace Sys2Proof.Spec
open Sys2Proof.Machine

/-- An MMA word (R244, R245): a failing check is its trap, else the tile is claimed and the product enters the matrix queue. -/
def Products (i : Instr) (form : MmaForm) (f : Side) (a : Src) (b : Option (BitVec 5)) : Prop :=
  ∀ (s : State) (u : Iss) (o : Word) (list : Nat), issuing s = some u → mmaOperands u a b = some (o, list) →
    mqRoom s u.c = true → planeOff s u.c form = false →
    (∀ k d, mmaCheck s u form o list false = some (k, d) → exec i s = .next (trap s u k d)) ∧
    (mmaCheck s u form o list false = none →
      exec i s = .next (advance (enqueue (claimTile s u.c u.f.wg (opTile o)) u (.mma form o list false) 0 (u.flag f)) u))

/-- A joint form (R250): without a gang a gang trap, else the member's entry is made and the bundle parks at the latch. -/
def JointProducts (i : Instr) (form : MmaForm) (f : Side) (a : Src) (b : Option (BitVec 5)) : Prop :=
  ∀ (s : State) (u : Iss) (o : Word) (list : Nat) (w : Workgroup), issuing s = some u → mmaOperands u a b = some (o, list) →
    mqRoom s u.c = true → planeOff s u.c form = false → workgroup s u.f.wg = some w →
    (∀ k d, mmaCheck s u form o list true = some (k, d) → exec i s = .next (trap s u k d)) ∧
    (mmaCheck s u form o list true = none →
      (w.gang.toNat / 2 ^ 24 % 8 = 0 → exec i s = .next (trap s u 12 (o.toNat + 4 * 2 ^ 32))) ∧
      (w.gang.toNat / 2 ^ 24 % 8 ≠ 0 →
        exec i s = .next (arriveLatch (parkAll
          (modCore (fresh (claimTile s u.c u.f.wg (opTile o))) u.c (fun k => modC k (fun y => { y with mq := y.mq ++
            [{ id := s.ops, lf := u.l, wg := u.f.wg, pc := u.pc, lanes := u.cl.lanes, reg := 0, flag := u.flag f
               kind := .mma form o list true, started := false, finished := false, progress := 0, group := 0, fault := none
               exps := none, list := none, acc := 0, cycle := s.cycle, hdr := u.cl.hdr }] }))) u .latch) w s.ops)))

end Sys2Proof.Spec

/-- R244 to R247 and R250: the four products and their joint forms. That the tile is claimed when its word issues is
the model's reading (entry 47). R245: the first checks of a product at issue, in their order: the plane datapath,
whose absence stops MMA.k alone (R374, R415; a reading of the model's over R245's wider words, entry 101), and the
outlier unit that the part lacks, reserved bits, records that are not live, formats, block sizes, columns, rows, and
the tile's owner. -/
def Obligations.ProductWords : Prop :=
  (∀ (f : Side) (b : BitVec 5) (a : Src),
      Products (.mmaBf16 f a) .bf16 f a none ∧ Products (.mmaF16 f a) .f16 f a none ∧ Products (.mmaK f a) .k f a none ∧
      Products (.mmaKOl f b a) .kOl f a (some b) ∧
      JointProducts (.mmaBf16G f a) .bf16 f a none ∧ JointProducts (.mmaF16G f a) .f16 f a none ∧
      JointProducts (.mmaKG f a) .k f a none ∧ JointProducts (.mmaKOlG f b a) .kOl f a (some b)) ∧
  (∀ (s : State) (u : Iss) (form : MmaForm) (o : Word) (list : Nat) (ra rb : Rsv),
      (form = .k → s.caps.getLsbD 1 = false → mmaCheck s u form o list false = some (9, 1)) ∧
      ((form = .k → s.caps.getLsbD 1 = true) → (form = .kOl → s.caps.getLsbD 0 = true) →
        (2 ^ 17 ≤ o.toNat → mmaCheck s u form o list false = some (3, u.word)) ∧
        (o.toNat < 2 ^ 17 →
          (ownRec s u.c u.f.wg (o.toNat % 32) = none → mmaCheck s u form o list false = some (10, o.toNat + 6 * 2 ^ 32)) ∧
          (ownRec s u.c u.f.wg (o.toNat % 32) = some ra → ownRec s u.c u.f.wg (o.toNat / 32 % 32) = some rb →
            let va := recView ra.bits
            let vb := recView rb.bits
            (va.fmt ≠ form.fmt ∨ vb.fmt ≠ form.fmt → mmaCheck s u form o list false = some (10, o.toNat + 7 * 2 ^ 32)) ∧
            (va.fmt = form.fmt → vb.fmt = form.fmt →
              (form.plane = true → va.blk ≠ vb.blk → mmaCheck s u form o list false = some (10, o.toNat + 8 * 2 ^ 32)) ∧
              ((form.plane = true → va.blk = vb.blk) →
                (va.cols ≠ vb.cols → mmaCheck s u form o list false = some (10, o.toNat + 9 * 2 ^ 32)) ∧
                (va.cols = vb.cols → 64 < va.rows → mmaCheck s u form o list false = some (10, o.toNat + 10 * 2 ^ 32)) ∧
                (va.cols = vb.cols → va.rows ≤ 64 → 32 < vb.rows →
                  mmaCheck s u form o list false = some (10, o.toNat + 11 * 2 ^ 32)) ∧
                (va.cols = vb.cols → va.rows ≤ 64 → vb.rows ≤ 32 → tileOther s u.c u.f.wg (o.toNat / 2 ^ 10 % 64) = true →
                  mmaCheck s u form o list false = some (11, o.toNat + 2 ^ 32))))))))

/-- R249: GANG.SET writes the workgroup's gang register, and GANG.GET reads it. R252 to R256: the Grove words enter
the matrix queue; GROVE.ROW takes each lane's row at its own 4-byte aligned address. That a table is claimed when its
word issues (entry 47), the order of the checks (entry 48) and the use of an NACT above 32768 as written (entry 102)
are the model's choices. -/
def Obligations.GangAndGroveWords : Prop :=
  (∀ (d : BitVec 4) (a : Src) (s : State) (u : Iss) (x : Word) (w : Workgroup), issuing s = some u → mqRoom s u.c = true →
      workgroup s u.f.wg = some w →
      (writeHeld u (regsOf d.toNat 1) = false →
        exec (.gangGet d) s = .next (issueVals (enqueue s u .short 0 none) u 4 1 d (u.lanes.map (fun i => (i, [w.gang]))))) ∧
      (read32 u a (lowest u.cl.lanes) = some x → jointOut s u.c u.f.wg = false →
        let n := x.toNat / 2 ^ 24 % 8
        (2 ^ 27 ≤ x.toNat ∨ n = 1 ∨ n = 7 ∨ x.toNat % 2 ^ 24 / 16 ^ n ≠ 0 → exec (.gangSet a) s = .next (trap s u 3 u.word)) ∧
        (x.toNat < 2 ^ 27 → n ≠ 1 → n ≠ 7 → x.toNat % 2 ^ 24 / 16 ^ n = 0 →
          (∀ k, gangCause s u.f.wg x = some k → exec (.gangSet a) s = .next (trap s u 12 (x.toNat + k * 2 ^ 32))) ∧
          (gangCause s u.f.wg x = none →
            exec (.gangSet a) s = .next (advance (enqueue
              (modWG s u.f.wg (fun w => { w with gang := x, joint := 0 })) u .short 0 none) u))))) ∧
  (∀ (d : BitVec 4) (f : Side) (b : BitVec 5) (a : Src) (x : BitVec 9) (s : State) (u : Iss), issuing s = some u →
      mqRoom s u.c = true →
      (∀ (p : DWord) (y : Word), read64 u a (lowest u.cl.lanes) = some p → readSC u b (lowest u.cl.lanes) = some y →
        (∀ k e, groveVtCheck s u p y = some (k, e) → exec (.groveVt f b a) s = .next (trap s u k e)) ∧
        (groveVtCheck s u p y = none → exec (.groveVt f b a) s =
          .next (advance (enqueue (claimTable s u.c u.f.wg (y.toNat % 8)) u (.groveVt y p) 0 (u.flag f)) u))) ∧
      (∀ y : Word, read32 u a (lowest u.cl.lanes) = some y →
        (8 ≤ y.toNat → exec (.groveSwap f a) s = .next (trap s u 3 u.word)) ∧
        (y.toNat < 8 → groveOther s u.c u.f.wg y.toNat = true →
          exec (.groveSwap f a) s = .next (trap s u 13 (y.toNat + 2 * 2 ^ 32))) ∧
        (y.toNat < 8 → groveOther s u.c u.f.wg y.toNat = false → exec (.groveSwap f a) s =
          .next (advance (enqueue (claimTable s u.c u.f.wg y.toNat) u (.groveSwap y.toNat) 0 (u.flag f)) u))) ∧
      (∀ sel : Table Word, eachLane u (read32 u a) = some sel → writeHeld u (regsOf d.toNat 1) = false →
        ((∀ e ∈ sel, e.2.toNat < 2 ^ 12 ∧ groveOther s u.c u.f.wg (e.2.toNat % 8) = false) →
          exec (.groveRd d f a) s = .next (laneEngineWord s u (.groveRd sel) d (u.flag f))) ∧
        (let rows := sel.map (fun e => (e.1, ((uint e.2 + 4 * x.toInt) % 2 ^ 32).toNat))
         (∀ e, rows.find? (fun e => decide (e.2 % 4 ≠ 0)) = some e → exec (.groveRow d f a x) s = .next (trap s u 4 e.2)) ∧
         ((∀ e ∈ rows, e.2 % 4 = 0) →
          exec (.groveRow d f a x) s = .next (laneEngineWord s u (.groveRow
            (rows.map (fun e => (e.1, regionOf s u.f.wg * 2 ^ 32 + e.2))) (activeBanks s u.c) sel)
            d (u.flag f))))))

/-! ## Chapter 12: engine commands -/

/-- R274 to R283: XFER and COLL read the 64-byte record at their scratchpad offset, LAUNCH its record in memory; a misaligned or
outlying record traps, and a well-formed one is entered with the next number of its kind. -/
def Obligations.EngineCommandWords : Prop :=
  ∀ (r : BitVec 4) (f : Side) (b : Src) (x : BitVec 9) (s : State) (u : Iss) (base : Word), issuing s = some u →
    read32 u b (lowest u.cl.lanes) = some base → writeHeld u (regsOf r.toNat 1) = false →
    let e := engineE base x
    (acquiring s u = false → recordPending s u = false →
      (e % 64 ≠ 0 → exec (.coll r f b x) s = .next (trap s u 4 e) ∧
        (originReady u = true → exec (.xfer r f b x) s = .next (trap s u 4 e))) ∧
      (e % 64 = 0 → scratchBytes s u.f.wg ≤ e → exec (.coll r f b x) s = .next (trap s u 5 e) ∧
        (originReady u = true → exec (.xfer r f b x) s = .next (trap s u 5 e))) ∧
      (∀ w, e % 64 = 0 → e < scratchBytes s u.f.wg → workgroup s u.f.wg = some w → scratchPoison s w e 64 = false →
        (∀ y d, collOf s u.c (scratchBytesAt s w e 64) = some (y, d) →
          (s.caps.getLsbD 3 = true ∨ ∀ j < y.mems.length, y.onPart j = true) →
          exec (.coll r f b x) s = .next (enterEngine
            (modCore { s with groupSeq := put s.groupSeq (y.group * 65536 + y.me) (y.k + 1) } u.c
              (fun k => { k with collNo := k.collNo + 1 })) u (.coll y) d e r.toNat (u.flag f) (Machine.core s u.c).collNo)) ∧
        (collOf s u.c (scratchBytesAt s w e 64) = none → exec (.coll r f b x) s = .next (trap s u 15 e)) ∧
        (originReady u = true →
          (∀ k d, xferOf s w u (scratchBytesAt s w e 64) = some (k, d) →
            exec (.xfer r f b x) s = .next (enterEngine (modCore s u.c (fun y => { y with copyNo := y.copyNo + 1 })) u k d e
              r.toNat (u.flag f) (Machine.core s u.c).copyNo)) ∧
          (xferOf s w u (scratchBytesAt s w e 64) = none → exec (.xfer r f b x) s = .next (trap s u 15 e))))) ∧
    (acquiring s u = false →
      let va := regionOf s u.f.wg * 2 ^ 32 + e
      (e % 64 ≠ 0 → exec (.launch r f b x) s = .next (trap s u 4 e)) ∧
      (∀ l deps s1 s2, e % 64 = 0 → readRecord s u va 64 = (.ok l, s1) →
        (recordBad l = true → exec (.launch r f b x) s = .next (trap s1 u 15 e)) ∧
        (recordBad l = false → readDeps s1 u va (recordDeps l) = (.ok deps, s2) →
          (∀ i < recordDeps l, depBad deps i = false) → released s2 u.c u.l u.cl.lanes s2.ops .dev = true →
          exec (.launch r f b x) s = .next (enterEngine
            { s2 with launchNo := put s2.launchNo (ctxId s2) (look s2.launchNo (ctxId s2) 0 + 1) } u
            (.launch l ((List.range (recordDeps l)).map (depOf deps))
              (min (bits (field l 36 4) 2 0) (match launchOf s2 u.f.wg with | some y => y.prio | none => 0)))
            .none e r.toNat (u.flag f) (look s2.launchNo (ctxId s2) 0)))))

/-! ## Chapter 12: control words -/

namespace Sys2Proof.Spec
open Sys2Proof.Machine

/-- The target of a branch (R263): bits 31:0 are four times the offset from the clause header, bits 47:32 those of ENTRY. -/
def branchTo (s : State) (u : Iss) (n : BitVec 24) : Nat :=
  regionOf s u.f.wg * 2 ^ 32 + (((u.cl.hdrAddr : Int) + 4 * n.toInt) % 2 ^ 32).toNat

end Sys2Proof.Spec

/-- R263 to R270: where each control word sends the present threads, lane by lane. -/
def Obligations.ControlWords : Prop :=
  ∀ (n : BitVec 24) (s : State) (u : Iss), issuing s = some u →
    exec (.bra n) s = .next (jump s u (fun _ => some (branchTo s u n))) ∧
    (∀ q : Table Word, eachLane u (fun i => readAge (thread u.f i) 0) = some q →
      exec (.brz n) s = .next (jump s u (fun l => some (if look q l 0 = 0 then branchTo s u n else u.next))) ∧
      exec (.brnz n) s = .next (jump s u (fun l => some (if look q l 0 = 0 then u.next else branchTo s u n)))) ∧
    (writeHeld u [14] = false →
      exec (.call n) s = .next (jump
        (sendVals s u 4 1 14 (u.lanes.map (fun l => (l, [BitVec.ofNat 32 u.next])))) u (fun _ => some (branchTo s u n)))) ∧
    (∀ t : Table Word, eachLane u (fun i => readNamed (thread u.f i) 14) = some t →
      (∀ e, t.find? (fun e => decide (e.2.toNat % 4 ≠ 0)) = some e → exec .ret s = .next (trap s u 4 e.2.toNat)) ∧
      ((∀ e ∈ t, e.2.toNat % 4 = 0) →
        exec .ret s = .next (jump s u (fun i => some (regionOf s u.f.wg * 2 ^ 32 + (look t i 0).toNat))))) ∧
    exec .endThread s = .next (regroupTest (jump s u (fun _ => none)) u.f.wg) ∧
    exec (.trap n) s = .next (trap s u 8 n.toNat) ∧
    (writeHeld u [1] = false → exec (.syscall n) s =
      .next { modLF (fresh s) u.c u.l (fun f => { f with call := some ⟨s.ops, BitVec.ofNat 32 n.toNat, false⟩, callSlot := none })
        with at_ := none }) ∧
    (brkEnabled s = false → exec (.brk n) s = .next (jump s u (fun _ => some u.next))) ∧
    (brkEnabled s = true → exec (.brk n) s = .next (raise (jump s u (fun _ => some u.next))
      ⟨16, u.c, u.l, 0, thrField u.l (lowest u.cl.lanes), u.pc, n.toNat, some u.cl.lanes⟩))

/-! ## Steps and decoding -/

/-- When nothing of the agenda is due and a word issues, the step runs what the word decodes to in its clause (R136,
R137, R161). In the order of entry 4, which is the model's choice: a window's boundary comes first in its cycle
(R353); an input or event whose cycle has come is taken before anything else of the cycle; a host's request is taken
in a fabric cycle, after the part's own events, and waits until one (R74), and a seal word is read after the cycle's
remaps (R355); with nothing due, nothing issuing and no word ready, the latches' watchdogs and the slice's end are
seen to and the clock goes on. -/
def Obligations.StepRunsTheDecodedInstruction : Prop :=
  (∀ (s : State) (u : Iss) (w : Word) (i : Instr), dueAgenda s (fun j => !windowDue s || isBoundary j) = none → issuing s = some u →
      u.cl.words.getD (u.cl.pos - 1) (.word 0) = .word w → decodeIn u.hdr.cls (lastWord u) w = .ok i → step s = exec i s) ∧
  ((∀ (s : State) (n : Nat) (i : Instr) (r : List (Nat × Instr)), s.agenda = (n, i) :: r → n ≤ s.cycle →
      (windowDue s = false ∨ isBoundary i = true → fromLink i = none →
        (readsSeal i = false ∨ s.cycle < s.swept) → step s = exec i { s with agenda := r }) ∧
      (∀ k, windowDue s = false → fromLink i = some k → k ≠ 1 → fabricTick s = true → s.cycle < s.swept →
        step s = exec i { s with agenda := r }) ∧
      (∀ k p, fromLink i = some k → r = [] → fabricTick s = false → dueAgenda s p = none)) ∧
    (∀ s : State, dueAgenda s (fun j => !windowDue s || isBoundary j) = none → issuing s = none →
      (windowDue s = true → step s = execWindowBoundary [] [] s) ∧
      (windowDue s = false → s.cycle < s.swept → selectWord s = none →
        step s = .next { endCycle s with cycle := s.cycle + 1, at_ := none })))

/-- R161: the first failing check decides: an unassigned slot, then a word out of its class or place, then a reserved field or an
operand. A word that fails has no effect, and its bundle takes kind 2, or kind 3 for an operand. -/
def Obligations.IllegalWordsTrap : Prop :=
  (∀ (s : State) (u : Iss) (w : Word) (k : IllKind), dueAgenda s (fun j => !windowDue s || isBoundary j) = none →
    issuing s = some u → u.cl.words.getD (u.cl.pos - 1) (.word 0) = .word w → decodeIn u.hdr.cls (lastWord u) w = .error k →
    step s = .next (trap s u (if k = .operand then 3 else 2) w.toNat)) ∧
  (∀ (s : State) (u : Iss) (w : Word) (k : IllKind), issuing s = some u →
    exec (.illegalInstruction k w) s = .next (trap s u (if k = .operand then 3 else 2) w.toNat)) ∧
  (∀ (cls : BitVec 3) (last : Bool) (w : Word),
    (decodeWord w = .error .unassigned → decodeIn cls last w = .error .unassigned) ∧
    (decodeWord w ≠ .error .unassigned →
      let fits := if (Raw.ofWord w).cls = .ctl then last = true else (Raw.ofWord w).cls.code = cls
      (¬fits → decodeIn cls last w = .error .wrongClass) ∧ (fits → decodeIn cls last w = decodeWord w)))

/-- Decoding what an instruction encodes to gives it back, with every operand, for every well-formed instruction. -/
def Obligations.DecodeOfEncode : Prop :=
  ∀ (i : Instr) (w : Word), i.wellFormed = true → encode i = some w → decodeWord w = .ok i

/-- Every word that decodes is the encoding of what it decodes to, and that is well formed: no two words mean the same. -/
def Obligations.EncodeOfDecode : Prop :=
  ∀ (w : Word) (i : Instr), decodeWord w = .ok i → encode i = some w ∧ i.wellFormed = true

/-- Words written out from the encoding tables (R138 to R160) decode to the instructions they stand for. -/
def Obligations.SampleWordsDecode : Prop :=
  decodeWord 0b0_000_000000_0011_0000_10001_0000_00001 = .ok (.addS32 3 ⟨0, 17⟩ ⟨0, 1⟩) ∧
  decodeWord 0b110_00000_0101_11111111111_0000_10010 = .ok (.addS32Imm 5 0x7FF ⟨0, 18⟩) ∧
  decodeWord 0b10_000_0001_10011_0000_00001_0000_00000 = .ok (.fmaF32 1 19 ⟨0, 1⟩ ⟨0, 0⟩) ∧
  decodeWord 0b1110_00100_0011_0_0000_10001_000000010 = .ok (.ldB32 3 .a ⟨0, 17⟩ 2) ∧
  decodeWord 0b1111_0000_111111111111111111111100 = .ok (.bra 0xFFFFFC)

/-! ## Taking a stop and resuming (chapter 21) -/

namespace Sys2Proof.Spec
open Sys2Proof.Machine

/-- The place of an event in the ranking of R357: traps and faults before debugger halts, then core, lane frame, engine. -/
def rank (kind core lf engine : Nat) : Lex (Nat × Lex (Nat × Lex (Nat × Nat))) :=
  toLex (if kind = 16 then 1 else 0, toLex (core, toLex (lf, engine)))

end Sys2Proof.Spec

/-- R357, R359, R360 and R363: what taking a stop does. The first event of a stop is its primary; its STOP record is
staged on the raising core; the threads of a trapped bundle keep their program counters and are parked; MTRAP keeps
the core's first. R357: of the events raised in one cycle, the primary is the first in the ranking. -/
def Obligations.StopEntry : Prop :=
  (∀ (s : State) (e : Event),
      let t := raise s e
      t.mem = s.mem ∧ t.at_ = none ∧ t.cycle = s.cycle ∧
      (s.stop = none →
        t.stop = some ⟨e.kind, e.core, e.lf, e.engine, s.cycle, decide (e.kind = 16), false, false, [], []⟩) ∧
      (∀ p, s.stop = some p → p.cycle ≠ s.cycle → t.stop = some { p with dbg := p.dbg || decide (e.kind = 16) }) ∧
      (Machine.core t e.core).rcd = stage (Machine.core s e.core).rcd s.cycle 11
        (recordBits 11 e.thr e.pc (e.detail % 2 ^ 38 * 2 ^ 10 + e.kind % 64 * 2 ^ 4 + e.engine % 16) (trail s e.core)) ∧
      (∀ m f, e.bundle = some m → laneFrame s e.core e.lf = some f →
        ∃ g, laneFrame t e.core e.lf = some g ∧ g.clause = none ∧ g.offer = none ∧
          ∀ i th, m.getLsbD i = true → lookup f.threads i = some th →
            thread g i = if th.live then { th with parked := true, stop := true } else th) ∧
      (∀ m, e.bundle = some m → (Machine.core t e.core).mtrap =
        if (Machine.core s e.core).mtrap.getLsbD 44 then (Machine.core s e.core).mtrap
        else BitVec.ofNat 64 (2 ^ 44 + e.kind % 64 * 2 ^ 38 + e.lf % 64 * 2 ^ 32 + m.toNat))) ∧
  (∀ (s : State) (e : Event) (p : Stop), s.stop = some p → p.cycle = s.cycle →
      ∃ q, (raise s e).stop = some q ∧
        (q.kind, q.core, q.lf, q.engine) =
          if rank e.kind e.core e.lf e.engine < rank p.kind p.core p.lf p.engine then (e.kind, e.core, e.lf, e.engine)
          else (p.kind, p.core, p.lf, p.engine))

/-- R365: returning from a stop. STOPPED becomes 0, MTRAP and MMXERR are cleared, a thread that only the stop had parked unparks,
with its lane frame's count as its stamp (R15), any other keeps its state, and every core stages a TIMEBASE record. -/
def Obligations.ResumeEffect : Prop :=
  ∀ (s : State) (c : Nat), c < coreCount s →
    let t := unstop s
    t.stop = none ∧ t.mem = s.mem ∧ (Machine.core t c).mtrap = 0 ∧ (Machine.core t c).mmxerr = 0 ∧
    (Machine.core t c).rcd = stage { (Machine.core s c).rcd with off := false } s.cycle 14
      (recordBits 14 0xFFFF 0 (s.cycle / 2 ^ 24 % 2 ^ 40) (trail s c)) ∧
    (∀ l f i th, laneFrame s c l = some f → lookup f.threads i = some th →
      ∃ g, laneFrame t c l = some g ∧ g.clause = f.clause ∧
        lookup g.threads i = some (if th.stop then { th with
          stop := false
          parked := th.wait.isSome && th.parked
          stamp := if th.wait.isSome then th.stamp else f.count } else th))

/-! ## What a word that delivers a value does (R111, R127, R137, R163, R164) -/

/-- When a value word issues, its result goes on its way for the given latency, each present thread's queue shifts by pending
slots, and its named registers get pending writes; nothing else of a thread changes. -/
def Obligations.ValueIssueEffect : Prop :=
  ∀ (s : State) (u : Iss) (lat k : Nat) (d : BitVec 4) (vals : Table (List Word)), issuing s = some u →
    let t := sendVals s u lat k d vals
    t.ops = s.ops + 1 ∧
    (Machine.core t u.c).deliveries = (Machine.core s u.c).deliveries ++ [⟨s.ops, u.l, s.cycle + lat, d.toNat, k, vals⟩] ∧
    ∃ f, laneFrame t u.c u.l = some f ∧ f.clause = some u.cl ∧
      ∀ i th, lookup u.f.threads i = some th →
        thread f i = if u.cl.lanes.getLsbD i then
          { th with
            q := shiftQueue th.q s.ops k u.pc
            np := th.np ++ (regsOf d.toNat k).mapIdx (fun j r => NPend.mk r (token s.ops j) false u.pc) }
          else th

/-- A result of up to four words fills the slots that its word shifted in, the lowest-addressed word deepest, and its named
registers, and leaves every other register as it was (R111, R127, R145, R164). -/
def Obligations.ResultReachesQueueAndRegisters : Prop :=
  ∀ (th : Thread) (op : Nat) (d : BitVec 4) (vals : List Word) (pc : DWord), th.q.length = 16 → th.n.length = 16 → vals.length ≤ 4 →
    (d = 0 ∨ d.toNat + vals.length ≤ 16) →
    (∀ j < 4, (∀ x ∈ th.q, x.tok ≠ token op j) ∧ (∀ p ∈ th.np, p.tok ≠ token op j) ∧ lookup th.winq (token op j) = none) →
    let t := deliverLane { th with
      q := shiftQueue th.q op vals.length pc
      np := th.np ++ (regsOf d.toNat vals.length).mapIdx (fun j r => NPend.mk r (token op j) false pc) } op vals
    t.q.map (fun x => x.val) = (vals.reverse ++ th.q.map (fun x => x.val)).take 16 ∧
    (∀ j < vals.length, (t.q.getD j ⟨0, 1, 0⟩).tok = 0) ∧ t.np = th.np ∧ t.n.length = 16 ∧
    (∀ r < 16, t.n.getD r 0 = if d ≠ 0 ∧ d.toNat ≤ r ∧ r < d.toNat + vals.length then vals.getD (r - d.toNat) 0 else th.n.getD r 0) ∧
    t.pc = th.pc ∧ t.live = th.live ∧ t.parked = th.parked ∧ t.wait = th.wait ∧ t.flags = th.flags ∧ t.stamp = th.stamp

/-- R163: RESULT_DELIVER, once a result's cycle has come, delivers its words to its lanes and takes it off the list; before that
cycle nothing changes. -/
def Obligations.ResultDelivery : Prop :=
  ∀ (s : State) (c op : Nat) (x : Delivery) (f : LaneFrame),
    (Machine.core s c).deliveries.find? (fun y => decide (y.op = op)) = some x → laneFrame s c x.lf = some f →
    (s.cycle < x.due → exec (.resultDeliver c op) s = .next s) ∧
    (x.due ≤ s.cycle → (x.vals.map (fun e => e.1)).Nodup →
      ∃ t g, exec (.resultDeliver c op) s = .next t ∧ laneFrame t c x.lf = some g ∧
        (Machine.core t c).deliveries = (Machine.core s c).deliveries.filter (fun y => y.op != op) ∧
        (undoOn s = false → t.mem = s.mem) ∧
        (∀ e ∈ x.vals, ∀ th, lookup f.threads e.1 = some th → thread g e.1 = deliverLane th op e.2) ∧
        (∀ i th, i ∉ x.vals.map (fun e => e.1) → lookup f.threads i = some th → thread g i = th))

/-- R14 and R137: inside a clause the bundle goes on to the next word with the lanes that stay, no sooner than the
next cycle. R14, R137, R263, R265 and R306: a clause ends with its last word, or with a control word, which sends each
present thread to a header of its own or ends it. The clause is gone and its issue slot is free from the next cycle;
registers are untouched. -/
def Obligations.BundleGoesOn : Prop :=
  (∀ (s : State) (u : Iss) (stay : LaneMask), laneFrame s u.c u.l = some u.f → lastWord u = false → stay ≠ 0 →
      ∃ t f, goOn s u stay = t ∧ t = { s with cores := t.cores, at_ := none } ∧ laneFrame t u.c u.l = some f ∧
        f.clause = some { u.cl with pos := u.cl.pos + 1, lanes := stay, nextAt := s.cycle + 1, since := s.cycle + 1 } ∧
        (∀ i th, lookup u.f.threads i = some th → thread f i =
          if stay.getLsbD i then { th with pc := pcImage (u.cl.pos + 1) (wordAddr u.cl.hdrAddr (u.cl.pos + 1)) } else th) ∧
        (∀ c, c ≠ u.c → Machine.core t c = Machine.core s c)) ∧
  (∀ (s : State) (u : Iss), laneFrame s u.c u.l = some u.f → stepping s = false →
      (∀ tgt : Nat → Option Nat, ∃ f, laneFrame (jump s u tgt) u.c u.l = some f ∧ f.clause = none ∧ f.yielding = u.hdr.yld ∧
        (jump s u tgt).mem = s.mem ∧ (jump s u tgt).at_ = none ∧
        look (Machine.core (jump s u tgt) u.c).c.slots (u.l / 16) 0 = s.cycle + 1 ∧
        ∀ i th, lookup u.f.threads i = some th →
          (thread f i).n = th.n ∧ (thread f i).q = th.q ∧ (thread f i).flags = th.flags ∧
          (thread f i).pc = (if u.cl.lanes.getLsbD i then (match tgt i with | some a => pcImage 0 a | none => th.pc) else th.pc) ∧
          (thread f i).live = (if u.cl.lanes.getLsbD i then (tgt i).isSome && th.live else th.live)) ∧
      (lastWord u = true → ∃ f, laneFrame (advance s u) u.c u.l = some f ∧ f.clause = none ∧ f.yielding = u.hdr.yld ∧
        (advance s u).mem = s.mem ∧ (advance s u).at_ = none ∧
        look (Machine.core (advance s u) u.c).c.slots (u.l / 16) 0 = s.cycle + 1 ∧
        ∀ i th, lookup u.f.threads i = some th →
          (thread f i).n = th.n ∧ (thread f i).q = th.q ∧ (thread f i).flags = th.flags ∧ (thread f i).live = th.live ∧
          (thread f i).pc = (if u.cl.lanes.getLsbD i then pcImage 0 (wordAddr u.cl.hdrAddr (u.cl.pos + 1)) else th.pc)))

/-! ## Frames -/

namespace Sys2Proof.Spec
open Sys2Proof.Machine

/-- What a register-only word leaves alone, over all of the state: every named register of every thread, every thread's flags,
wait and stamp, the queues of every other lane frame and of lanes outside the bundle, and every field of the state but the
cores, the operation counter and the issuing point. -/
def RegisterOnly (s t : State) (u : Iss) : Prop :=
  t = { s with cores := t.cores, ops := t.ops, at_ := t.at_ } ∧
  (∀ c, (Machine.core t c).reqs = (Machine.core s c).reqs ∧ (Machine.core t c).ops = (Machine.core s c).ops ∧
    (Machine.core t c).tstore = (Machine.core s c).tstore ∧ (Machine.core t c).mast = (Machine.core s c).mast ∧
    (Machine.core t c).rcd = (Machine.core s c).rcd ∧ (Machine.core t c).mtrap = (Machine.core s c).mtrap ∧
    (Machine.core t c).mmxerr = (Machine.core s c).mmxerr ∧ (Machine.core t c).jbud = (Machine.core s c).jbud ∧
    (Machine.core t c).ctdl = (Machine.core s c).ctdl ∧ (Machine.core t c).tokens = (Machine.core s c).tokens ∧
    (Machine.core t c).c.recs = (Machine.core s c).c.recs ∧ (Machine.core t c).c.grove = (Machine.core s c).c.grove ∧
    (Machine.core t c).c.mq = (Machine.core s c).c.mq ∧ (Machine.core t c).c.eng = (Machine.core s c).c.eng) ∧
  (∀ c l f, laneFrame s c l = some f → ∃ g, laneFrame t c l = some g ∧ g.rows = f.rows ∧ g.count = f.count ∧
    ∀ i th, lookup f.threads i = some th →
      (thread g i).n = th.n ∧ (thread g i).flags = th.flags ∧ (thread g i).wait = th.wait ∧ (thread g i).stamp = th.stamp ∧
      ((c, l) ≠ (u.c, u.l) ∨ u.cl.lanes.getLsbD i = false → (thread g i).q = th.q ∧ (thread g i).np = th.np ∧
        (thread g i).live = th.live ∧ (thread g i).parked = th.parked ∧ (thread g i).pc = th.pc))

end Sys2Proof.Spec

/-- The frame of the words of chapters 08, 09 and 12 that only deliver values, and of the branches: outside undo logging and
single stepping (R367, R368), memory, every special register, the recorder, every accumulator and record, and every register
outside the result's are unchanged. -/
def Obligations.RegisterWordFrame : Prop :=
  ∀ (s : State) (u : Iss), issuing s = some u → undoOn s = false → stepping s = false →
    (∀ lat k d vals, RegisterOnly s (issueVals s u lat k d vals) u) ∧
    (∀ tgt, RegisterOnly s (jump s u tgt) u)

/-- R205, R206, R212 and R213: what goes out when a memory word issues. A load enters its operation and one request a block; a
store enters one write a block with its data, and memory itself changes only when the write is applied; an atomic, an arrival word among them
by the model's choice (entry 79), takes a return-slot row and enters one request a lane. Named registers are unchanged, and memory is, but
for the undo log. -/
def Obligations.MemoryIssueEffect : Prop :=
  ∀ (s : State) (u : Iss) (addrs : Table Space) (ents : Table DWord), laneFrame s u.c u.l = some u.f → stepping s = false →
    undoOn s = false →
    (∀ (f : LoadForm) (reg : Nat) (flag : Option Nat),
      let t := issueLoad s u f reg flag addrs ents
      t.mem = s.mem ∧ (Machine.core t u.c).ops = (Machine.core s u.c).ops ++ [loadOp s u f reg flag addrs ents] ∧
      (Machine.core t u.c).reqs = (Machine.core s u.c).reqs ++
        blockReqs (s.ops + 1) (partsOf (laneBytes addrs f.width (fun _ => []))) (fun p =>
          { blankReq u s.ops .load p flag (orderOf ents p.space) with
            acq := decide (f.kind = .acquire)
            phase := .sent
            ent := match p.space with | .virt _ _ => lookup ents p.space.page | _ => none
            entAt := fetchedAt s u.c (ctxId s) p.space.page }) ∧
      (∀ c l g i, laneFrame s c l = some g → ∃ h, laneFrame t c l = some h ∧ (thread h i).n = (thread g i).n)) ∧
    (∀ (w : Nat) (flag : Option Nat) (rel : Option Scope) (data : Nat → List Byte),
      queueRoom s u.c ((partsOf (laneBytes addrs w data)).filter (fun p => p.space.isVirt)).length = true →
      let t := issueStore s u w flag rel addrs ents data
      t.mem = s.mem ∧ (Machine.core t u.c).ops = (Machine.core s u.c).ops ∧
      (Machine.core t u.c).reqs = (Machine.core s u.c).reqs ++ blockReqs (s.ops + 1) (partsOf (laneBytes addrs w data)) (fun p =>
        { blankReq u s.ops .store p flag (orderOf ents p.space) with
          rel := rel, phase := if p.space.isVirt then .queued else .sent }) ∧
      (∀ c l g i, laneFrame s c l = some g →
        ∃ h, laneFrame t c l = some h ∧ (thread h i).n = (thread g i).n ∧ (thread h i).q = (thread g i).q)) ∧
    (∀ (o : AtomOp) (size reg : Nat) (flag : Option Nat) (acq : Bool) (rel : Option Scope) (vals : Table (Word × Word)),
      u.f.rows.length < 4 → queueRoom s u.c (addrs.filter (fun e => e.2.isVirt)).length = true →
      let t := issueAtomic s u o size reg flag acq rel addrs ents vals
      t.mem = s.mem ∧
      (Machine.core t u.c).reqs = (Machine.core s u.c).reqs ++ addrs.mapIdx (fun k e =>
        { blankReq u s.ops (.atomic o (look vals e.1 (0, 0)).1 (look vals e.1 (0, 0)).2 size) ⟨e.2, BitVec.twoPow 32 e.1, 0, [], []⟩
            flag (orderOf ents e.2) with
          id := s.ops + 1 + k, acq := acq, rel := rel, phase := if e.2.isVirt then .queued else .sent }) ∧
      (∃ h, laneFrame t u.c u.l = some h ∧ h.rows = u.f.rows ++ [s.ops]) ∧
      (∀ c l g i, laneFrame s c l = some g → ∃ h, laneFrame t c l = some h ∧ (thread h i).n = (thread g i).n))

/-- R206: a store that reaches the frame or the scratchpad that is its home puts exactly its bytes there: each byte of its data
reads back at its place, and every other byte of memory reads as before. -/
def Obligations.StoreReachesItsHome : Prop :=
  ∀ (s : State) (c : Nat) (r : Req) (n : Nat), Config.frameBase ≤ n → n < Config.opBufBase → undoOn s = false →
    (r.data.map (fun e => e.1)).Nodup →
    let t := applyStore s c r 0 n none
    (∀ o b, (o, b) ∈ r.data → Mem.byte t.mem (n + o) = b) ∧
    (∀ a, (∀ e ∈ r.data, a ≠ n + e.1) → Mem.byte t.mem a = Mem.byte s.mem a)

/-- R212 and R219: what an atomic does at its home with the word that it finds there: the old value it replies with, and the bytes
it writes. -/
def Obligations.AtomicOperations : Prop :=
  ∀ (s : State) (n : Nat) (b b2 : Word), (∀ k < 16, encrypted (n + k) = false ∧ isGone (n + k) = false) →
    let old := Mem.word s.mem n
    let total := (Mem.word s.mem n).toNat
    let count := (Mem.word s.mem (n + 4)).toNat
    let gen := leNat (Mem.read s.mem (n + 8) 2)
    let sum := min (count + b.toNat) (2 ^ 32 - 1)
    let done := total ≠ 0 ∧ total ≤ sum
    let put (o : AtomOp) (v : Word) : Prop := atomEffect s o 0 n b b2 = (old, byteTable (leBytes 4 v.toNat))
    put .add (wrap (uint old + uint b)) ∧ put .addF (bin fp32 (fadd fp32 .rn) old b) ∧
    put .mins (wrap (min old.toInt b.toInt)) ∧ put .maxs (wrap (max old.toInt b.toInt)) ∧
    put .minz (wrap (min (uint old) (uint b))) ∧ put .maxz (wrap (max (uint old) (uint b))) ∧
    put .and (old &&& b) ∧ put .or (old ||| b) ∧ put .xor (old ^^^ b) ∧ put .exch b ∧
    (old = b → put .cas b2) ∧ (old ≠ b → atomEffect s .cas 0 n b b2 = (old, [])) ∧
    atomEffect s .arriveInit 0 n b b2 = (BitVec.ofNat 32 gen, byteTable (leBytes 8 b.toNat)) ∧
    (atomEffect s .arriveAdd 0 n b b2).1 = BitVec.ofNat 32 gen ∧
    (atomEffect s .arriveAdd 0 n b b2).2.map (fun e => e.1) = [4, 5, 6, 7, 8, 9] ∧
    leNat ((atomEffect s .arriveAdd 0 n b b2).2.map (fun e => e.2)) =
      (if done then sum - total else sum) + 2 ^ 32 * (if done then (gen + 1) % 2 ^ 16 else gen)

/-! ## Invariants and reset -/

/-- Every step keeps memory in its canonical form, from every state that has it. -/
def Obligations.MemoryStaysCanonical : Prop := ∀ s t : State, s.Inv → step s = .next t → t.Inv

/-- After reset memory is in its canonical form and lists nothing. What reset leaves, where the rules give a value:
JBUD shares the write rate equally (R63), no tokens, notify registers 0 (R321), recorders empty with their RCTL (R345,
R351, R354), no key valid (R390), no mirror range (R384), nothing placed, no stop, every clock hand and pointer 0
(R54, R304, R305), the measurement 0 (R334). -/
def Obligations.ResetState : Prop :=
  (State.reset.Inv ∧ State.reset.mem = []) ∧
  ((∀ c, (Machine.core State.reset c).jbud = 0x00400448 ∧ (Machine.core State.reset c).tokens = 0 ∧
      (Machine.core State.reset c).mast.notify = List.replicate 32 0 ∧ (Machine.core State.reset c).mast.seqNo = 0 ∧
      (Machine.core State.reset c).copyNo = 0 ∧ (Machine.core State.reset c).collNo = 0 ∧ (Machine.core State.reset c).hand = 0 ∧
      (Machine.core State.reset c).rcd.ring = [] ∧ (Machine.core State.reset c).rcd.w = 0 ∧
      (Machine.core State.reset c).rcd.capState = 0 ∧ (Machine.core State.reset c).rcd.pointer = 0 ∧
      (Machine.core State.reset c).rcd.rctl = 0x0A86FFFF ∧ (Machine.core State.reset c).c.lfs = []) ∧
    (∀ k, (frame State.reset k).valid = false ∧ (frame State.reset k).stamp = 0) ∧
    State.reset.stop = none ∧ State.reset.slice = none ∧ State.reset.wgs = [] ∧ State.reset.tiles = [] ∧ State.reset.mirrors = [] ∧
    State.reset.keySlots = [] ∧ State.reset.rigPtr = 0 ∧ State.reset.prioPtr = List.replicate 8 0 ∧ State.reset.fnPtr = 0 ∧
    State.reset.measure = 0 ∧ State.reset.cycle = 0)

/-! ## Bundles (chapters 01 and 16) -/

/-- R14, R15 and R265: the bundle that a lane frame forms is all its ready threads at one program counter: the lowest
one, or, once the aging counter has reached 64, that of a thread whose age is greatest. R14, R17, R135 and R306: a
bundle turn offers a bundle whose header is legal, and traps one whose header is not; a yielding lane frame passes its
turn. A bundle whose header is a regroup point waits there until its threads have passed it (R265). A free issue slot
accepts the startable bundle that it accepted least recently: its clause runs from there, its threads' age starts
again and the lane frame has issued one clause more. -/
def Obligations.BundleFormationAndAcceptance : Prop :=
  (∀ (f : LaneFrame) (b : Form), (f.threads.map (fun e => e.1)).Nodup → (∀ e ∈ f.threads, e.1 < 32) → formBundle f = some b →
      let ready (i : Nat) (th : Thread) : Prop :=
        (i, th) ∈ f.threads ∧ th.live = true ∧ th.parked = false ∧ th.regroup = false
      (∃ i th, ready i th ∧ th.pc = b.pc ∧
        (f.aging < 64 → ∀ j tj, ready j tj → pcKey b.pc ≤ pcKey tj.pc) ∧
        (64 ≤ f.aging → ∀ j tj, ready j tj → (f.count - tj.stamp).toNat ≤ (f.count - th.stamp).toNat)) ∧
      (∀ i, b.lanes.getLsbD i = true ↔ ∃ th, ready i th ∧ pcKey th.pc = pcKey b.pc) ∧
      (b.aging = true ↔ 64 ≤ f.aging) ∧
      (b.left = true ↔ ∃ i th, ready i th ∧ b.lanes.getLsbD i = false)) ∧
  ((∀ (s : State) (c l : Nat) (f : LaneFrame), laneFrame s c l = some f →
      (hasTurn s c l f = false → exec (.bundleTurn c l) s = .next s) ∧
      (hasTurn s c l f = true → f.yielding = true →
        exec (.bundleTurn c l) s = .next (setLF s c l { f with offer := none, yielding := false })) ∧
      (hasTurn s c l f = true → f.yielding = false → ∀ b, formBundle f = some b →
        fetchHeld (setLF s c l { f with offer := none, yielding := false }) c l b.lanes (headerOf b.pc) = true →
        exec (.bundleTurn c l) s = .next (setLF s c l { f with offer := none, yielding := false })) ∧
      (hasTurn s c l f = true → f.yielding = false → ∀ b w s1, formBundle f = some b →
        fetchHeld (setLF s c l { f with offer := none, yielding := false }) c l b.lanes (headerOf b.pc) = false →
        fetchWord (setLF s c l { f with offer := none, yielding := false }) c f.wg (headerOf b.pc) (thrField l (lowest b.lanes))
          (pcImage 0 (headerOf b.pc)) = (.word w, s1) →
        ((Header.ofWord w).legal = true → lateArrivals f b w ≠ 0 → exec (.bundleTurn c l) s = .next (regroupTest
          (modLF s1 c l (fun x => modThreads x (lateArrivals f b w) (fun _ t => { t with regroup := true }))) f.wg)) ∧
        ((Header.ofWord w).legal = true → lateArrivals f b w = 0 → exec (.bundleTurn c l) s =
          .next (modLF s1 c l (fun x => { x with offer := some ⟨b.pc, b.lanes, w, s.cycle, b.aging, b.left⟩ }))) ∧
        ((Header.ofWord w).legal = false → exec (.bundleTurn c l) s =
          .next (raise s1 ⟨1, c, l, 0, thrField l (lowest b.lanes), pcImage 0 (headerOf b.pc), w.toNat, some b.lanes⟩)))) ∧
    (∀ (s : State) (c slot l : Nat) (f : LaneFrame) (o : Offer), coreHeld s c = false → slotFree s c slot = true →
      (l, f) ∈ startable s c slot → (∀ e ∈ startable s c slot, f.lastAccept < e.2.lastAccept ∨ (f.lastAccept = e.2.lastAccept ∧ l ≤ e.1)) → f.offer = some o →
      (wordsReady s c l o = false → exec (.bundleAccept c slot) s = .next s) ∧
      (wordsReady s c l o = true → .wait ∉
        (fetchClause s c f.wg (headerOf o.pc) (thrField l (lowest o.lanes)) (firstWord o) (wordsLeft o)).1 →
      ∃ t g cl, exec (.bundleAccept c slot) s = .next t ∧ laneFrame t c l = some g ∧ g.clause = some cl ∧ g.offer = none ∧
        g.count = f.count + 1 ∧ g.lastAccept = s.cycle + 1 ∧
        g.aging = (if o.aging then 0 else if o.left then f.aging + 1 else 0) ∧
        cl.hdrAddr = headerOf o.pc ∧ cl.hdr = o.hdr ∧ cl.pos = max 1 (pcPos o.pc) ∧ cl.lanes = o.lanes ∧
        ∀ i th, lookup f.threads i = some th → o.lanes.getLsbD i = true →
          (thread g i).stamp = f.count + 1 ∧ (thread g i).n = th.n ∧ (thread g i).q = th.q)))

/-! ## Workgroups (chapters 01 and 16) -/

/-- R29, R31, R304 and R305: at most one cluster is placed in a fabric cycle, on the first rig that fits from the rig pointer on,
or its cores compact first. A cluster that fits is placed: each of its workgroups stands on the rig's core of its rank, not started.
A move begins when its lane frames have come to rest, takes 32 cycles, or 64 for an exchange, and then the frames have changed their
places; a pass ends 64 cycles after its last move. A reserved scratchpad frame is emptied by an eviction, which a stop lets none begin, and
then leaves the list. That the fabric cycle of a core cycle is its number times 2/3 is the model's choice (entry 64), as it is that no
eviction begins under an invalid key (entry 94). -/
def Obligations.PlacementOfClusters : Prop :=
  (∀ (s : State) (sl : Slice), s.slice = some sl → sl.switching = false → s.stop = none →
    s.lastPlace ≠ s.cycle * 2 / 3 + 1 →
    (nextLaunch s = none → exec .clusterPlace s = .next s) ∧
    (∀ x rig, nextLaunch s = some (x, rig) →
      let s2 := { modLaunch s x.id (fun y => { y with placed := y.placed + 1 }) with
        lastPlace := s.cycle * 2 / 3 + 1, prioPtr := s.prioPtr.set x.prio ((x.source + 1) % 65), rigPtr := (rig + 1) % rigCount s }
      (rigFit s x rig = .yes → exec .clusterPlace s = .next (placeCluster s2 x x.placed rig)) ∧
      (rigFit s x rig = .yes → ∃ t, exec .clusterPlace s = .next t ∧ t.lastPlace = s.cycle * 2 / 3 + 1 ∧
        t.rigPtr = (rig + 1) % rigCount s ∧ t.wgs.length = s.wgs.length + x.wgPerCl ∧
        ∀ r < x.wgPerCl, ∃ y ∈ t.wgs, y.launch = x.id ∧ y.cluster = x.placed ∧ y.rank = r ∧ y.core = rig * 8 + r % 8 ∧
          y.started = false) ∧
      (rigFit s x rig ≠ .yes → exec .clusterPlace s = .next ((rigCores rig).foldl (fun t c =>
        if coreFit s x c = .compact then modCore t c (fun k => modC k (fun y =>
          { y with compaction := some ⟨packMoves s c, false, s.cycle, x.id, x.placed, rig⟩ }))
        else t) s2)))) ∧
  (∀ (s : State) (c : Nat) (p : Compaction), (Machine.core s c).c.compaction = some p →
    (s.cycle < p.until_ → exec (.laneFrameMove c) s = .next s) ∧
    (p.until_ ≤ s.cycle → p.moves = [] → coreHeld s c = false → exec (.laneFrameMove c) s = .next (endPass s c p)) ∧
    (∀ a b r f, p.until_ ≤ s.cycle → p.moves = (a, b) :: r → a ≠ b → laneFrame s c a = some f → p.moving = true →
      ∃ t, exec (.laneFrameMove c) s = .next t ∧ laneFrame t c b = some { f with still := false, offer := none } ∧
        laneFrame t c a = (laneFrame s c b).map (fun g => { g with still := false, offer := none }) ∧
        (Machine.core t c).c.compaction = some { p with
          moves := movesAfter a b r, moving := false
          until_ := if (movesAfter a b r).isEmpty then s.cycle + 64 else s.cycle }) ∧
    (∀ a b r f, p.until_ ≤ s.cycle → p.moves = (a, b) :: r → laneFrame s c a = some f → p.moving = false → coreHeld s c = false →
      movable f = true → (∀ g, laneFrame s c b = some g → movable g = true) → ∃ t, exec (.laneFrameMove c) s = .next t ∧
        (∃ g, laneFrame t c a = some g ∧ g.still = true ∧ g.offer = none) ∧
        (Machine.core t c).c.compaction =
          some { p with moving := true, until_ := s.cycle + (if (laneFrame s c b).isSome then 64 else 32) })) ∧
  (∀ (s : State) (c fr : Nat) (w : Workgroup), s.wgs.find? (fun w => decide (w.core = c) && w.emptying.contains fr) = some w →
    (frame s (nearKey c fr)).busy = false →
    ((frame s (nearKey c fr)).valid = true → s.stop.isSome = true → exec (.scratchFrameEmpty c fr) s = .next s) ∧
    ((frame s (nearKey c fr)).valid = true → s.stop = none →
      (∀ k, (frame s k).valid = true → (keyOf s (frame s k).ctx).isSome = true) → ∃ t,
      exec (.scratchFrameEmpty c fr) s = .next t ∧ t = startEviction (leaveLists s c fr) (nearKey c fr) (some c) ∧
      (frame t (nearKey c fr)).busy = true ∧ ∃ q ∈ t.seqs, q.dst = nearKey c fr ∧ q.kind = .eviction ∧ q.remapped = false) ∧
    ((frame s (nearKey c fr)).valid = false → ∃ t,
      exec (.scratchFrameEmpty c fr) s = .next t ∧ t = modWG (leaveLists s c fr) w.id
        (fun w => { w with emptying := w.emptying.filter (fun x => x != fr) }) ∧
      ∃ y, workgroup t w.id = some y ∧ fr ∉ y.emptying))

/-- R24 and R31: once its reserved frames are empty, and outside a stop, a workgroup of the running context starts:
every thread at ENTRY with the launch's arguments in n1 to n6 and zero elsewhere, and a scratchpad of zeros. R25, R240
and R251: a started workgroup of the running context finishes when every thread has ended and no flag is busy: its
lane frames, records, tables and tiles are released and its launch has one workgroup more. The adds to DONE that can
be made are made by a later event of the kind, which names no workgroup: with none owed, or in a stop, there is
none. -/
def Obligations.WorkgroupLifetime : Prop :=
  (∀ (s : State) (id : Nat) (w : Workgroup) (x : Launch), workgroup s id = some w → launchOf s id = some x → w.started = false →
      w.emptying = [] → w.ctx = ctxId s → s.slice.isSome = true → s.stop = none → x.args.length = 6 →
      (s.wgs.map (fun y => y.id)).Nodup → w.lfs.Nodup → (∀ l ∈ w.lfs, (laneFrame s w.core l).isSome = true) →
      ∃ t w', exec (.workgroupStart id) s = .next t ∧ workgroup t id = some w' ∧ w'.started = true ∧
        (∀ fr ∈ w.scratch, ∀ o < 4096, Mem.byte t.mem (frameAt (nearKey w.core fr) + o) = 0) ∧
        (∀ i l, w.lfs[i]? = some l → ∃ f, laneFrame t w.core l = some f ∧ ∀ k < 32,
          (32 * i + k < w.threads → (thread f k).pc = pcImage 0 x.entry ∧ (thread f k).live = true ∧ (thread f k).occupied = true ∧
            (thread f k).parked = false ∧ (thread f k).n.getD 0 0 = 0 ∧ (∀ j < 6, (thread f k).n.getD (1 + j) 0 = x.args.getD j 0) ∧
            (∀ j, 7 ≤ j → j < 16 → (thread f k).n.getD j 0 = 0) ∧ (∀ j < 16, ((thread f k).q.getD j ⟨0, 0, 0⟩).val = 0)) ∧
          (w.threads ≤ 32 * i + k → lookup f.threads k = none))) ∧
  (∀ (s : State) (id : Nat) (w : Workgroup), workgroup s id = some w →
      (wgFinished s w = false → exec (.workgroupFinish id) s = .next s) ∧
      (wgFinished s w = true → ∃ t, exec (.workgroupFinish id) s = .next t ∧ t = finishWG s w ∧ workgroup t id = none ∧
        (∀ x, launchById s w.launch = some x → launchById t w.launch = some { x with finished := x.finished + 1 }) ∧
        (∀ l ∈ w.lfs, laneFrame t w.core l = none) ∧ (∀ r ∈ (Machine.core t w.core).c.recs, r.2.owner ≠ w.id) ∧
        (∀ g ∈ (Machine.core t w.core).c.grove, g.2.owner ≠ w.id)) ∧
      (∀ n, workgroup s n = none → exec (.workgroupFinish n) s = .next (postDones s) ∧
        (s.stop.isSome = true ∨ owedAdds s = [] → exec (.workgroupFinish n) s = .next s)))

/-! ## Translations, frames and home slices (chapters 02 and 03) -/

/-- R40 and R41: a request without a translation fetches one, but waits while its die fills the page (R57) or a
pseudo-channel of its walk is shut (R66), and a read-modify-write while its group is full (R400); a kind-1 translation
is dropped 4096 cycles after its fetch, and no other is. R43, R49, R50, R61, R84 and R208: a request that has been
sent and whose orderings are met acts at its home. R43, R45, R49 and R206: at the frame that its translation names, an
access whose seal no longer matches, or whose translation is older than the frame's last remap, is rejected and its
translation dropped; a store, atomic or strong access that finds B goes back to the queue, and one from outside a
fenced die waits (R424); an admitted access sets REF. -/
def Obligations.HomeAccessEvents : Prop :=
  ((∀ (s s1 : State) (c i ctx va : Nat) (r : Req) (e : DWord), reqOf s c i = some r → r.phase = .sent → r.ent = none →
      reqReady s c r = true → r.space = .virt ctx va → va < 2 ^ 48 →
      (fetchWaits s c ctx (va / 4096) = true → exec (.translationWalk c i) s = .next s) ∧
      (fetchWaits s c ctx (va / 4096) = false → fetchTrans s c ctx (va / 4096) = (.ok e, s1) →
        reCheck e (!r.act.isLoad) = none → entKind e = 2 → r.act.isLoad = true ∨ inFlight s1 c < maxOut s1 c →
        groupFull s1 r e = false → exec (.translationWalk c i) s = .next (modReq s1 c r.id (fun q =>
          { q with ent := some e, entAt := fetchedAt s1 c ctx (va / 4096) })))) ∧
    (∀ (s : State) (c ctx vpn : Nat), ∃ t, exec (.translationExpiry c ctx vpn) s = .next t ∧ t = { s with cores := t.cores } ∧
      ∀ x, x ∈ (Machine.core t c).tstore ↔
        x ∈ (Machine.core s c).tstore ∧ ¬(x.ctx = ctx ∧ x.vpn = vpn ∧ entKind x.ent = 1 ∧ x.cycle + 4096 ≤ s.cycle))) ∧
  (∀ (s : State) (c i : Nat) (r : Req), reqOf s c i = some r → reqReady s c r = true →
      (r.phase = .sent → r.act.isAtomic = false →
        (∀ n, r.space = .scr n →
          (r.act = .load → exec (.frameAccess c i) s =
            .next (takeLoad (if r.acq then emptyReadAhead s c else s) c r 0 n none 0)) ∧
          (r.act = .store → exec (.frameAccess c i) s =
            .next (regroupTest (applyStore (recordStore s c r n 0) c r 0 n none) r.wg))) ∧
        (∀ ctx va e, r.space = .virt ctx va → r.ent = some e →
          (entKind e = 1 → exec (.frameAccess c i) s = .next (applyFrame s c r e ctx va)) ∧
          (entKind e = 2 → exec (.homeSliceAccess c i) s = .next (applySlice s c r e ctx va)))) ∧
      (r.phase = .sent → r.act.isAtomic = true →
        (∀ n o b b2 w, r.space = .scr n → r.act = .atomic o b b2 w →
          exec (.atomicPerform c i) s = .next (atomAt s c r o b b2 w 0 n none)) ∧
        (∀ ctx va e, r.space = .virt ctx va → r.ent = some e → exec (.atomicPerform c i) s =
          .next (if entKind e = 1 then applyFrame s c r e ctx va else applySlice s c r e ctx va))) ∧
      (r.phase = .queued →
        (∀ ctx va s1 e, r.space = .virt ctx va → va < 2 ^ 48 → fetchWaits s c ctx (va / 4096) = false →
          fetchTrans s c ctx (va / 4096) = (.ok e, s1) → reCheck e (!r.act.isLoad) = none → entKind e = 2 →
          busyFor s1 ctx (va / 4096) e = false → inFlight s1 c < maxOut s1 c → groupFull s1 r e = false →
          exec (.writeQueueDepart c i) s =
            .next (modReq (dropAhead s1 c r) c r.id (fun q =>
              { q with phase := .sent, left := s.cycle, ent := some e, entAt := fetchedAt s1 c ctx (va / 4096) }))) ∧
        (∀ p a, r.space = .host p a → exec (.writeQueueDepart c i) s = .next (sendHost s c r a)))) ∧
  (∀ (s : State) (c ctx va : Nat) (r : Req) (e : DWord), heldBehind s c r (entFrame e) = false → entKind e = 1 →
      ((frame s (entFrame e)).damaged = false ∨ (frame s (entFrame e)).busy = true) →
      (sealOk s (entFrame e) ctx (entSeal e) = false ∨ remappedSince s (entFrame e) r.entAt = true →
        applyFrame s c r e ctx va = rejectReq s c r) ∧
      (remappedSince s (entFrame e) r.entAt = false →
      (sealOk s (entFrame e) ctx (entSeal e) = true → entGone s e = true →
        applyFrame s c r e ctx va = failReq s c r 29 (va / 4096 % 2 ^ 36)) ∧
      (sealOk s (entFrame e) ctx (entSeal e) = true → entGone s e = false → entFenced s c e = true → applyFrame s c r e ctx va = s) ∧
      (sealOk s (entFrame e) ctx (entSeal e) = true → entGone s e = false → entFenced s c e = false →
        busyAt s ctx (va / 4096 % 2 ^ 36) (frame s (entFrame e)).backing = true → r.strong = true →
        applyFrame s c r e ctx va = sendBack s c r) ∧
      (sealOk s (entFrame e) ctx (entSeal e) = true → entGone s e = false → entFenced s c e = false →
        (r.strong = true → busyAt s ctx (va / 4096 % 2 ^ 36) (frame s (entFrame e)).backing = false) →
        reqLines s (frame s (entFrame e)).backing r = [] → r.act = .store →
        applyFrame s c r e ctx va = storeAt (modFrame (unhold s c r) (entFrame e) (fun f => { f with ref := true })) c r
          (frameAt (entFrame e) + va % 4096))))

/-! ## Placement sequences and the write lanes (chapters 02 and 03) -/

/-- R44, R47, R48, R66, R379 and R380: a sequence remaps when it may, a fill reading its page as the pseudo-channel's
budget lets it, and then ends; an invalidation is received, acknowledged, sent again after 4096 cycles up to four
times, and then raises kind 20. R44 and R48: remapping a frame raises its SEAL by one, so that no translation made
before it is admitted, and notes the cycle; another remap waits for 32 cycles. -/
def Obligations.PlacementEvents : Prop :=
  ((∀ (s : State) (i : Nat) (q : Seq), s.seqs.find? (fun q => q.id = i) = some q →
      (canRemap s q = false → exec (.frameRemap i) s = .next (readSome s q)) ∧
      (canRemap s q = true → exec (.frameRemap i) s =
        .next (remapSeq ((seqFrames q).foldl (fun t k => breakReserve t (frameAt k) 4096) s) q)) ∧
      (q.remapped = false → exec (.placementDone i) s = .next s) ∧
      (canComplete s q = false → exec (.placementDone i) s = .next s) ∧
      (q.remapped = true → (∀ k, q.src = some k → tooSoon s (frame s k) = false ∧ (frame s k).holds = []) →
        exec (.placementDone i) s =
          .next (moveMonitors (completeSeq (q.src.toList.foldl (fun t k => breakReserve t (frameAt k) 4096) s) q)))) ∧
    (∀ (s : State) (i : Nat) (v : Inval), invalOf s i = some v →
      exec (.invalidation i) s = .next (modInval (dropPage s v.core v.ctx v.vpn) i
        (fun v => { v with arrived := if v.arrived.isSome then v.arrived else some s.cycle })) ∧
      (∀ t, v.arrived = some t → usesDropped s v t = false →
        exec (.invalidationAck i) s = .next { s with invals := s.invals.filter (fun x => x.id != i) }) ∧
      (v.arrived = none ∨ (∃ t, v.arrived = some t ∧ usesDropped s v t = true) → exec (.invalidationAck i) s = .next s) ∧
      (s.cycle < v.sent + 4096 → exec (.invalidationResend i) s = .next s) ∧
      (v.sent + 4096 ≤ s.cycle → v.sends < 4 → exec (.invalidationResend i) s = .next (modInval s i (fun v => { v with sent := s.cycle, sends := v.sends + 1 }))) ∧
      (5 ≤ v.sends → exec (.invalidationResend i) s = .next s) ∧
      (v.sent + 4096 ≤ s.cycle → v.sends = 4 → exec (.invalidationResend i) s = .next (raise
        (modInval s i (fun v => { v with sent := s.cycle, sends := v.sends + 1 }))
        (if v.start.thr = noThread then ⟨20, v.start.die * 64, 0, 5, noThread, 0, v.core, none⟩
         else ⟨20, v.start.core, v.start.thr.toNat / 32 % 64, 5, v.start.thr, v.start.pc, v.core, none⟩))))) ∧
  (∀ (s : State) (k : Nat) (g : Frame → Frame),
      (frame (remap s k g) k).stamp = (g (frame s k)).stamp + 1 ∧ (frame (remap s k g) k).lastRemap = some s.cycle ∧
      (∀ ctx, (g (frame s k)).stamp = (frame s k).stamp → sealOk (remap s k g) k ctx (frame s k).stamp = false) ∧
      (∀ j, j ≠ k → frame (remap s k g) j = frame s j) ∧
      (∀ d < 32, tooSoon { remap s k g with cycle := s.cycle + d } (frame (remap s k g) k) = true))

/-- R61, R64, R65, R397 and R424: an HBM write enters its home slice when it may, charged while its core's budget
holds; the lane makes the write in hand and takes the next; a refused write is repeated, and at its eighth refusal
lost with kind 26, as a write to a dead pseudo-channel is at once. That the fabric cycle of its arrival is the core
cycle's number times 2/3 is the model's choice (entry 64). R65: of the writes that a lane may take, it takes one in
budget before any out of budget, and otherwise the one that arrived first; the writes of one page go in the order of
their arrival. -/
def Obligations.WriteLaneEvents : Prop :=
  ((∀ (s : State) (i : Nat) (w : HWrite), hwriteOf s i = some w →
      let enter (t : State) (ok : Bool) : State :=
        modHWrite t i (fun w => { w with entered := true, inBudget := ok, arrival := s.cycle * 2 / 3, rank := writeRank w })
      (w.entered = true ∨ mayEnter s w = false → exec (.hbmWriteCharge i) s = .next s) ∧
      (w.entered = false → mayEnter s w = true →
        (w.charge = none → exec (.hbmWriteCharge i) s = .next (enter s true)) ∧
        (∀ c, w.charge = some c → grainBytes w.mask ≤ (Machine.core s c).tokens → exec (.hbmWriteCharge i) s =
          .next (enter (modCore s c (fun k => { k with tokens := k.tokens - grainBytes w.mask })) true)) ∧
        (∀ c, w.charge = some c → (Machine.core s c).tokens < grainBytes w.mask →
          exec (.hbmWriteCharge i) s = .next (enter s false)))) ∧
    (∀ (s : State) (stack chan : Nat) (ok : Bool), (channelOf s (stack * 192 + chan)).current = none →
      exec (.writeLaneDone stack chan ok) s = .next (takeNext s stack chan)) ∧
    (∀ (s : State) (stack chan : Nat) (w : HWrite),
      (channelOf s (stack * 192 + chan)).current.bind (hwriteOf s) = some w →
      (chanDead s w.page = true → ∀ ok, exec (.writeLaneDone stack chan ok) s = .next (takeNext (loseWrite s w) stack chan)) ∧
      (chanDead s w.page = false →
      (writeLines s w = [] → exec (.writeLaneDone stack chan true) s = .next (takeNext (finishWrite s w) stack chan)) ∧
      (w.refusals < 7 → exec (.writeLaneDone stack chan false) s =
        .next (modHWrite s w.id (fun w => { w with refusals := w.refusals + 1 }))) ∧
      (7 ≤ w.refusals → exec (.writeLaneDone stack chan false) s = .next (takeNext (loseWrite s w) stack chan))))) ∧
  (∀ (s : State) (stack chan : Nat) (w : HWrite), nextWrite s stack chan = some w →
      let here (x : HWrite) : Prop := x ∈ s.hwrites ∧ x.entered = true ∧ pageStack x.page = stack ∧ pageChan x.page = chan
      here w ∧ (∀ x, here x → x.page = w.page → olderWrite x w = false) ∧
      (∀ x, here x → (∀ y, here y → y.page = x.page → olderWrite y x = false) →
        (x.inBudget = true → w.inBudget = true) ∧
        (x.inBudget = w.inBudget → w.arrival ≤ x.arrival ∧ (w.arrival = x.arrival → w.rank ≤ x.rank))))

/-- R205, R207, R213, R394 and R401: the results of memory words. R79, R88, R222 and R223: a held bundle goes on, with
an empty read-ahead buffer, once the waits of its fence are met, and not before; a fence of scope .sys that waits for
its flushing reads alone sends them (R90). R217 and R402: a thread without a monitor is checked every 1024 cycles, and
a storage error fires every monitor of its group. -/
def Obligations.MemoryWordCompletions : Prop :=
  ((∀ (s : State) (c i : Nat) (o : MemOp), opOf s c i = some o → o.op = i →
      (o.kind ≠ .atomic → o.kind ≠ .attr → o.kind ≠ .host → reqsOf s c i = [] →
        exec (.loadReturn c i) s = .next (regroupTest (dropOp (deliverLanes s c o o.lanes) c i) o.wg)) ∧
      (o.kind = .atomic → repliedLanes o ≠ 0 →
        exec (.atomicReply c i) s = .next (retireLanes (deliverLanes s c o (repliedLanes o)) c o (repliedLanes o))) ∧
      (o.kind = .atomic → repliedLanes o = 0 → exec (.atomicReply c i) s = .next s) ∧
      (o.kind = .atomic → (∀ r ∈ reqsOf s c i, r.phase ≠ .sent ∨ s.cycle < r.left + 2 ^ 24) →
        exec (.atomicTimeout c i) s = .next s) ∧
      (o.kind = .atomic → ∀ late m, late = (reqsOf s c i).filter (fun r => decide (r.phase = .sent ∧ r.left + 2 ^ 24 ≤ s.cycle)) →
        m = late.foldl (fun m r => m ||| r.lanes) 0 &&& o.lanes &&& ~~~(repliedLanes o) → m ≠ 0 →
        exec (.atomicTimeout c i) s = .next (raise
          (retireLanes (finishFlags (failLanes (late.foldl (fun s r => timeoutReq s c r) s) c o.lf o.op 1 m) c o.lf m o.flag) c o m)
          ⟨27, c, o.lf, 0, thrField o.lf (lowest m), o.pc,
            pageDetail (match lookup o.addrs (lowest m) with | some x => x.page | none => 0) 1, none⟩))) ∧
    (∀ (o : MemOp) (lane : Nat), o.kind = .load →
      let b := (List.range o.width).map (fun k => look o.got (lane * 16 + k) 0)
      (o.width = 1 → laneWords o lane = [if o.signed then (b.getD 0 0).signExtend 32 else (b.getD 0 0).setWidth 32]) ∧
      (o.width = 2 → laneWords o lane = [if o.signed then (b.getD 1 0 ++ b.getD 0 0).signExtend 32
        else (b.getD 1 0 ++ b.getD 0 0).setWidth 32]) ∧
      (o.width = 4 → laneWords o lane = [b.getD 3 0 ++ b.getD 2 0 ++ b.getD 1 0 ++ b.getD 0 0]) ∧
      (o.width = 8 → laneWords o lane = [b.getD 3 0 ++ b.getD 2 0 ++ b.getD 1 0 ++ b.getD 0 0,
        b.getD 7 0 ++ b.getD 6 0 ++ b.getD 5 0 ++ b.getD 4 0]) ∧
      (o.width = 16 → laneWords o lane = [b.getD 3 0 ++ b.getD 2 0 ++ b.getD 1 0 ++ b.getD 0 0,
        b.getD 7 0 ++ b.getD 6 0 ++ b.getD 5 0 ++ b.getD 4 0, b.getD 11 0 ++ b.getD 10 0 ++ b.getD 9 0 ++ b.getD 8 0,
        b.getD 15 0 ++ b.getD 14 0 ++ b.getD 13 0 ++ b.getD 12 0]))) ∧
  (∀ (s : State) (c l : Nat) (f : LaneFrame) (cl : Clause) (h : FenceHold), laneFrame s c l = some f → f.clause = some cl →
      f.fence = some h →
      let met := match h.path with
        | none => released s c l cl.lanes h.op h.scope
        | some p => xReady s c f.wg p h.op h.scope
      (met = false → h.scope ≠ .sys → exec (.fenceComplete c l) s = .next s) ∧
      (met = false → exec (.fenceComplete c l) s = .next (match h.path with
        | none => flushFor s c l cl.lanes h.op h.scope
        | some p => xFlush s c f.wg p h.op h.scope)) ∧
      (met = true → exec (.fenceComplete c l) s =
        .next (advance (modLF (emptyReadAhead s c) c l (fun f => { f with fence := none })) ⟨c, l, { f with fence := none }, cl⟩))) ∧
  ((∀ (s : State) (i : Nat) (m : Monitor), s.monitors.find? (fun m => m.id = i) = some m →
      (m.armed = true ∨ m.fired = true ∨ s.cycle < m.due → exec (.monitorRecheck i) s = .next s) ∧
      (m.armed = false → m.fired = false → m.due ≤ s.cycle → monHolds s m = true →
        exec (.monitorRecheck i) s = .next (fireMonitor s m)) ∧
      (m.armed = false → m.fired = false → m.due ≤ s.cycle → monHolds s m = false → locNum s m.loc ≠ none →
        exec (.monitorRecheck i) s = .next { s with
          monitors := s.monitors.map (fun x => if x.id = i then { x with due := s.cycle + 1024 } else x) })) ∧
    (∀ (s : State) (die slice : Nat), exec (.monitorStorageError die slice) s =
      .next ((s.monitors.filter (fun m => m.armed && decide (m.group = die * 32 + slice))).foldl fireMonitor s)))

/-! ## The capacity tier (chapters 03 and 22) -/

/-- R68, R69, R385 and R387: a migration takes a pool slot while there is one, reads its blocks (a bad or late read is repeated
once, then the mirror is read), and moves its page when every block is written. A load whose deadline has passed is served from
the capacity tier, block by block, once no atomic of its core overlaps it (R62). -/
def Obligations.MigrationEvents : Prop :=
  (∀ (s : State) (i : Nat) (m : Migration), migrationOf s i = some m →
    (∀ p, poolOf s m.ctx = some p →
      (p.head = p.tail → exec (.poolSlotTake i) s = .next s) ∧
      (m.phase = 0 → m.dead = false → p.head ≠ p.tail → runs s m.ctx = true → (∀ e ∈ slotReads s m p, pageOpen s e.1 = true) →
        exec (.poolSlotTake i) s = .next (takeSlot s m p))) ∧
    (∀ blk, m.phase = 1 → m.dead = false → blk < 32 → m.got.getLsbD blk = false →
      ((keyOf s m.ctx).isSome = true →
        exec (.capReadReturn i blk true) s = .next (badRead s m blk) ∧
        ((∀ k < 4, poisoned s (capAt (readFromPage m blk) blk + 32 * k) = false) →
          exec (.capReadReturn i blk false) s = .next (goodRead s m blk))) ∧
      (s.cycle < look m.reads blk 0 / 4 + 2 ^ 24 → exec (.capReadTimeout i blk) s = .next s) ∧
      (look m.reads blk 0 / 4 + 2 ^ 24 ≤ s.cycle → exec (.capReadTimeout i blk) s = .next (badRead s m blk))) ∧
    (m.phase = 1 → m.dead = false →
      (m.got = BitVec.allOnes 32 → m.writes = 0 → exec (.migrationComplete i) s = .next (finishMigration s m)) ∧
      (m.got ≠ BitVec.allOnes 32 ∨ m.writes ≠ 0 → exec (.migrationComplete i) s = .next s))) ∧
  (∀ (s : State) (m : Migration) (blk : Nat),
    (look m.reads blk 0 % 4 = 0 →
      badRead s m blk = modMigration s m.id (fun m => { m with reads := put m.reads blk (1 + 4 * s.cycle) })) ∧
    (∀ p, look m.reads blk 0 % 4 = 1 → mirrorOf s m.ctx m.capPage = some p →
      badRead s m blk = modMigration s m.id (fun m => { m with
        reads := put m.reads blk (2 + 4 * s.cycle), from_ := put m.from_ blk p }))) ∧
  (∀ (s : State) (c l n x : Nat) (f : LaneFrame) (r : Reader) (e : DWord), laneFrame s c l = some f →
    (Machine.core s c).c.readers.find? (fun r => decide (r.op.lf = l) && !r.issued) = some r → parkedSince f r = some n →
    walk s (ctxId s) r.vpn = .entry e x →
    let dl := (Machine.core s c).ctdl.toNat % 256
    (entKind e = 3 → entHint e = 5 → dl ≠ 0 → n + 256 * dl ≤ s.cycle → s.stop = none →
      exec (.migrationDeadline c l) s = .next (passDeadline s c l r (entPage e))) ∧
    (entHint e ≠ 5 ∨ dl = 0 ∨ s.cycle < n + 256 * dl → exec (.migrationDeadline c l) s = .next s)) ∧
  (∀ (s : State) (c op : Nat) (bad : Bool) (r : Reader),
    (Machine.core s c).c.readers.find? (fun r => decide (r.op.op = op) && r.issued) = some r →
    (s.stop.isSome = true ∨ readerHeld s c r = true → exec (.directReadReturn c op bad) s = .next s) ∧
    (s.stop = none → readerHeld s c r = false → (keyOf s (ctxId s)).isSome = true → directAll s r = true →
      let isBad (b : Nat) : Bool := directPoison s r b || (bad && (directLeft r).head? == some b)
      let r1 := ((directLeft r).filter (fun b => !isBad b)).foldl (goodDirect s) r
      let s1 := modReader s c r.op.op (fun _ => r1)
      ((∀ b ∈ directLeft r, isBad b = false) → exec (.directReadReturn c op bad) s = .next (serveReader s1 c r1)) ∧
      (∀ b, (directLeft r).find? isBad = some b → exec (.directReadReturn c op bad) s = .next (badDirect s1 c r1 b))))

/-- R70, R224 and R225: a page-attribute request at its page: an absent page is skipped, a page that may not be
changed raises its stop, and a page that is free is made busy for the request that reached it first, leaves its
frames, and takes its new attributes once every invalidation is acknowledged; a kind 2 page that asks for it is copied
down, as fast as its pseudo-channel's budget lets it (R66). R382: a sequence that has held B for 2^22 cycles raises
kind 21 once, or kind 22 with cause 3 while it waits for a pool slot; before that nothing happens. -/
def Obligations.PageRequestEvents : Prop :=
  ((∀ (s : State) (i : Nat) (q : PageReq), pageReqOf s i = some q → runs s q.ctx = true → q.step < 4 →
      (walk s q.ctx q.vpn = .absent → exec (.pageAttrPage i) s = .next (nextPage s q false)) ∧
      (∀ k, walk s q.ctx q.vpn = .bad k → exec (.pageAttrPage i) s = .next (failPageReq s q k)) ∧
      (∀ e x, walk s q.ctx q.vpn = .entry e x →
        (q.step = 0 → entM e = true → exec (.pageAttrPage i) s = .next (failPageReq s q 7)) ∧
        (q.step = 0 → entM e = false → entB e = true → exec (.pageAttrPage i) s = .next s) ∧
        (q.step = 0 → entM e = false → entB e = false → entKind e ≠ 2 → q.writes = 0 → s.stop = none →
          cameFirst s q = false → exec (.pageAttrPage i) s = .next (beginPage s q e)) ∧
        (q.step = 1 → entKind e ≠ 2 → exec (.pageAttrPage i) s = .next (evictPage s q e)) ∧
        (q.step = 3 → acksOut s q = true ∨ entryPending s q.ctx q.vpn = true → exec (.pageAttrPage i) s = .next s) ∧
        (q.step = 0 → entM e = false → s.stop.isSome = true ∨ cameFirst s q = true → exec (.pageAttrPage i) s = .next s) ∧
        (q.step = 3 → acksOut s q = false → entryPending s q.ctx q.vpn = false → q.hint = true ∨ q.ctl.getLsbD 5 = false ∨ entKind e ≠ 2 →
          s.stop = none ∨ q.hint = false ∨ entKind e ≠ 3 → exec (.pageAttrPage i) s = .next (endPage (modEntry s q.ctx q.vpn (newAttrs q)) q e)) ∧
        (q.step = 3 → acksOut s q = false → entryPending s q.ctx q.vpn = false → q.hint = false → q.ctl.getLsbD 5 = true → entKind e = 2 →
          exec (.pageAttrPage i) s =
            .next (modPageReq (modEntry s q.ctx q.vpn (newAttrs q)) q.id (fun q => { q with step := 2 }))) ∧
        (q.step = 2 → entKind e = 2 → s.hwrites.any (fun w => decide (w.page = entPage e)) = false →
          (List.range (coreCount s)).any (fun c => usesPage s c q.ctx q.vpn) = false → (keyOf s q.ctx).isSome = true →
          (32 - q.reads ≤ blocksOpen s (entPage e) → exec (.demotionComplete i) s = .next (demote s q e)) ∧
          (blocksOpen s (entPage e) < 32 - q.reads → exec (.demotionComplete i) s = .next (copySome s q (entPage e)))))) ∧
    (∀ (q : PageReq) (e : DWord),
      (q.hint = true → entHint (newAttrs q e) = q.ctl.toNat % 8 ∧ entOrd (newAttrs q e) = entOrd e) ∧
      (q.hint = false → entHint (newAttrs q e) = entHint e ∧ entOrd (newAttrs q e) = q.ctl.toNat / 4 % 4) ∧
      entKind (newAttrs q e) = entKind e ∧ entPage (newAttrs q e) = entPage e)) ∧
  (∀ (s : State) (i : Nat),
      (∀ q, seqOf s i = some q → runs s q.ctx = true → q.fired = false →
        (s.cycle < q.start + 2 ^ 22 → exec (.busyWatchdogExpiry i) s = .next s) ∧
        (q.start + 2 ^ 22 ≤ s.cycle → exec (.busyWatchdogExpiry i) s =
          .next (raiseSeq { s with seqs := s.seqs.map (fun x => if x.id = i then { x with fired := true } else x) } 21
            (keyDie q.dst) q.core q.thr q.pc (q.vpn % 2 ^ 36)))) ∧
      (∀ m, seqOf s i = none → migrationOf s i = some m → runs s m.ctx = true → m.fired = false →
        m.start + 2 ^ 22 ≤ s.cycle →
        (m.phase ≠ 0 ∨ m.dead = true → exec (.busyWatchdogExpiry i) s = .next (raiseSeq (modMigration s i (fun m => { m with fired := true })) 21
          m.die m.core m.thr m.pc (m.vpn % 2 ^ 36 + 2 ^ 36))) ∧
        (∀ p, m.phase = 0 → m.dead = false → poolOf s m.ctx = some p → exec (.busyWatchdogExpiry i) s =
          .next (raiseSeq (modMigration s i (fun m => { m with fired := true })) 22 m.die m.core m.thr m.pc (p.head + 3 * 2 ^ 32)))) ∧
      (∀ q, seqOf s i = none → migrationOf s i = none → pageReqOf s i = some q → runs s q.ctx = true → q.fired = false →
        q.step ≠ 0 → q.step ≠ 4 → q.step ≠ 9 → q.since + 2 ^ 22 ≤ s.cycle → exec (.busyWatchdogExpiry i) s =
          .next (raise (modPageReq s i (fun q => { q with fired := true }))
            ⟨21, q.core, q.lf, 5, thrField q.lf q.lane, q.pc, q.vpn % 2 ^ 36 + (if q.step = 2 ∨ q.step = 6 then 3 else 2) * 2 ^ 36, none⟩)))

/-! ## Windows and registers (chapters 02, 17 and 18) -/

namespace Sys2Proof.Spec
open Sys2Proof.Machine

/-- A CSR that every mode but U may write, and one that only M mode may write (R314, R322, R323). -/
def supCsr (r : RegName) (c : Nat) : Prop :=
  r = .mring c ∨ r = .mntie c ∨ r = .mukey c ∨ (∃ k, r = .mrgnb c k) ∨ (∃ k, r = .mrgnl c k) ∨ r = .stvec c ∨ r = .spp c
def machineCsr (r : RegName) (c : Nat) : Prop :=
  r = .mctx c ∨ r = .mctdl c ∨ r = .mpp c ∨ r = .medeleg c ∨ r = .mtvec c ∨ r = .mie c ∨ (∃ k, r = .pmpcfg c k) ∨
  (∃ k, r = .pmpaddr c k)

end Sys2Proof.Spec

/-- R63, R66 and R396: writes of the budget and channel registers. MAXOUT changes at once, RATE and DEPTH at the next
window, reserved bits read zero; the channel code with fewer counted transitions is used, and compatibility mode has
one code. R63, R69, R300, R314, R317, R323, R332 and R388: writes of registers. A CSR write from too low a mode takes
exception 2; from a mode that may make it the register takes the value, its reserved bits reading 0; firmware extends
MEAS. That a write from too low a mode is an illegal instruction and that a write of the capability register is
ignored are the model's choices (entry 66), as is the register name through which firmware extends MEAS (entry 28).
R63, R66, R333, R353 and R431: at a window boundary every core's bucket takes the rate for a window up to its depth,
pending JBUD fields take effect, and every channel's transition count restarts, and each die takes the highest state
whose predicted power (entry 91) is under its cap; at any other cycle, cycle 0 among them (entry 106: the model's
choice), nothing happens. A junction at 125 °C or more is fatal. -/
def Obligations.RegistersBudgetsAndWindows : Prop :=
  ((∀ (s : State) (c : Nat) (v : Word), mastUp s c = true →
      ((Machine.mast s c).mode ≠ .m → exec (.jbudWrite c v) s = .next (mastTrap s c 2 0)) ∧
      ((Machine.mast s c).mode = .m → ∃ t, exec (.jbudWrite c v) s = .next t ∧
        (Machine.core t c).jbud = ((Machine.core s c).jbud &&& 0xFF00FFFF) ||| (v &&& 0x00FF0000) ∧
        (Machine.core t c).jbudNext = some (v &&& 0x00FF0FFF) ∧ t = { s with cores := t.cores } ∧
        (∀ d, d ≠ c → Machine.core t d = Machine.core s d))) ∧
    (∀ (s : State) (stack : Nat) (v : Word), ∃ t, exec (.hcfgWrite stack v) s = .next t ∧
      t = { s with hcfg := put s.hcfg stack (v &&& 0x8000FFFF), channels := t.channels } ∧
      ∀ k, channelOf t k = if v.getLsbD 31 = true ∧ k / 192 = stack then { channelOf s k with lowRead := false, lowWrite := false }
        else channelOf s k) ∧
    (∀ (s : State) (stack chan : Nat) (writes : Bool) (dbi low : Nat),
      ∃ t, exec (.codeSwitchBoundary stack chan writes dbi low) s = .next t ∧ t = { s with channels := t.channels } ∧
        (let h := channelOf s (stack * 192 + chan)
         let g := channelOf t (stack * 192 + chan)
         let new (cur : Bool) : Bool := if (hcfgOf s stack).getLsbD 31 then false else if low < dbi then true
           else if dbi < low then false else cur
         g.units = h.units ∧ g.current = h.current ∧ g.lowWrite = (if writes then new h.lowWrite else h.lowWrite) ∧
         g.lowRead = (if writes then h.lowRead else new h.lowRead)))) ∧
  ((∀ (s : State) (c : Nat) (r : RegName) (v : DWord), mastUp s c = true →
      ((Machine.mast s c).mode = .u → supCsr r c ∨ machineCsr r c → exec (.registerWrite r v) s = .next (mastTrap s c 2 0)) ∧
      ((Machine.mast s c).mode = .s → machineCsr r c → exec (.registerWrite r v) s = .next (mastTrap s c 2 0)) ∧
      (∀ n, exec (.registerWrite (.reservedCsr c n) v) s = .next (mastTrap s c 2 0)) ∧
      exec (.registerWrite (.mcore c) v) s = .next (mastTrap s c 2 0) ∧
      ((Machine.mast s c).mode ≠ .u →
        exec (.registerWrite (.mntie c) v) s = .next (modMast s c (fun m => { m with mntie := v.setWidth 32 })) ∧
        exec (.registerWrite (.mukey c) v) s = .next (modMast s c (fun m => { m with mukey := v.toNat % 16 })) ∧
        (∀ k, exec (.registerWrite (.mrgnb c k) v) s =
          .next (modMast s c (fun m => { m with mrgnb := m.mrgnb.set k (v &&& 0x0000FFFFFFFFF000) }))) ∧
        (∃ t, exec (.registerWrite (.mring c) v) s = .next t ∧ t = { s with cores := t.cores } ∧
          (Machine.mast t c).ringCtx = (Machine.mast s c).mctx ∧ (Machine.mast t c).mring.toNat % 16 = min 4 (v.toNat % 16) ∧
          (Machine.mast t c).mring.toNat / 2 ^ 10 = v.toNat / 2 ^ 10 % 2 ^ 38 ∧
          (Machine.mast t c).mring.toNat / 2 ^ 4 % 2 ^ 6 = 0)) ∧
      ((Machine.mast s c).mode = .m →
        exec (.registerWrite (.mctx c) v) s = .next (modMast s c (fun m => { m with mctx := v.toNat % 2 ^ 16 })) ∧
        exec (.registerWrite (.mctdl c) v) s = .next (modCore s c (fun k => { k with ctdl := v.setWidth 32 &&& 0xFF })) ∧
        exec (.registerWrite (.medeleg c) v) s = .next (modMast s c (fun m => { m with medeleg := v })) ∧
        exec (.registerWrite (.mtvec c) v) s = .next (modMast s c (fun m => { m with mtvec := v })) ∧
        (∀ d, exec (.registerWrite (.meas c d) v) s =
          .next { s with measure := Config.sha384 (digestBytes s.measure ++ digestBytes d) }))) ∧
    (∀ (s : State) (q : Nat) (v : DWord), q < 64 →
      exec (.registerWrite (.qbase q) v) s = .next (modQueue s q (fun x => { x with qbase := v &&& 0xFFFFFFFFFFFFF001 })) ∧
      exec (.registerWrite (.qcfg q) v) s = .next (modQueue s q (fun x => { x with qcfg := v.setWidth 32 &&& 0xFF00FFFF }))) ∧
    (∀ (s : State) (v : DWord), exec (.registerWrite .caps v) s = .next s) ∧
    (∀ (s : State) (fn : Nat), fn ∈ s.priStopped → ∃ t u, exec (.registerWrite (.priEnable fn) 0) s = .next t ∧ fn ∈ t.priStopped ∧
      exec (.registerWrite (.priEnable fn) 1) t = .next u ∧ fn ∉ u.priStopped)) ∧
  (∀ (s : State) (vf junction : List Nat),
      (s.cycle % 1024 ≠ 0 → exec (.windowBoundary vf junction) s = .next s) ∧
      (s.cycle % 1024 = 0 → s.cycle ≠ 0 → s.lastWindow ≠ s.cycle + 1 → (∀ d < dies s, junction.getD d 0 < 125) →
        ∃ t, exec (.windowBoundary vf junction) s = .next t ∧ t.mem = s.mem ∧ t.stop = s.stop ∧ t.lastWindow = s.cycle + 1 ∧
          (∀ i, (channelOf t i).units = 0) ∧
          (s.vf.length = 16 → s.vfNext = [] → s.hotSince = [] → ∀ d < dies s, s.dieState.getD d 0 ≠ 3 →
            t.vf.getD d 0 = ((List.range 12).reverse.find? (fun v =>
              decide (Config.predictedPower d v (vf.getD d 0) ≤ s.dieCap.getD d 0))).getD 0) ∧
          ∀ c < coreCount s,
            let k := Machine.core s c
            let j := k.jbudNext.getD k.jbud
            (Machine.core t c).jbud = j ∧ (Machine.core t c).jbudNext = none ∧
            (Machine.core t c).tokens = min (ceiling j) (min k.tokens (ceiling j) + 64 * (j.toNat % 256)) ∧
            (Machine.core t c).c = k.c ∧ (Machine.core t c).mast = k.mast))

/-! ## Time slices and the recorder (chapters 16 and 19) -/

/-- R307, R308 and R370: the end of a quantum begins a switch, which completes once the package has drained; during a
stop the expiry is deferred. A slice without work for 4096 cycles ends as well. R350, R351 and R352: the recorder's
own events. A stall sample is taken when its period is over; every core writes a TIMEBASE record when bits 23:0 of the
counter are zero; a LOST record counts the records dropped. -/
def Obligations.SliceAndRecorderEvents : Prop :=
  (∀ (s : State),
      (s.slice = none → s.stop = none → exec .sliceExpiry s = .next (beginSlice s)) ∧
      (s.slice = none → exec .sliceIdleEnd s = .next s) ∧
      (∀ sl, s.slice = some sl →
        (s.stop = none →
          (sl.switching = true → switchReady s = true → exec .sliceExpiry s = .next (finishSwitch s sl)) ∧
          (sl.switching = true → switchReady s = false → exec .sliceExpiry s = .next s) ∧
          (sl.switching = false → sl.fin ≤ s.cycle → exec .sliceExpiry s = .next (beginSwitch s)) ∧
          (sl.switching = false → s.cycle < sl.fin → exec .sliceExpiry s = .next s) ∧
          (sl.switching = false →
            (hasWork s sl.desc.ctx = true →
              exec .sliceIdleEnd s = .next { s with slice := some { sl with idleSince := none } }) ∧
            (hasWork s sl.desc.ctx = false → sl.idleSince = none →
              exec .sliceIdleEnd s = .next { s with slice := some { sl with idleSince := some s.cycle } }) ∧
            (∀ t, hasWork s sl.desc.ctx = false → sl.idleSince = some t → t + 4096 ≤ s.cycle →
              exec .sliceIdleEnd s = .next (beginSwitch s)))) ∧
        (∀ p, s.stop = some p → sl.switching = false → sl.fin ≤ s.cycle →
          exec .sliceExpiry s = .next { s with stop := some { p with expiry := true } })) ∧
      (∀ sl, s.slice = some sl → sl.switching = false → s.stop = none →
        ∃ x, (beginSwitch s).slice = some x ∧ x.desc = sl.desc ∧ x.fin = sl.fin ∧ x.switching = true ∧
          x.next = (pickNext s).map (fun v => (v.ctx, v.quant)) ∧ (beginSwitch s).mem = s.mem ∧
          ∀ c l f, laneFrame s c l = some f → ∃ g, laneFrame (beginSwitch s) c l = some g ∧ g.threads = f.threads ∧
            g.clause = none ∧ g.offer = none)) ∧
  (∀ (s : State) (c : Nat),
      let r := (Machine.core s c).rcd
      let period := 2 ^ (r.rctl.toNat / 2 ^ 24 % 16)
      (s.cycle < r.cntStall + period → exec (.stallSample c) s = .next s) ∧
      (r.cntStall + period ≤ s.cycle →
        let s1 := modRcd s c (fun r => { r with cntStall := s.cycle })
        ((List.range 64).findSome? (fun i => stallOf s c ((r.pointer + i) % 64)) = none → exec (.stallSample c) s = .next s1) ∧
        (∀ x, (List.range 64).findSome? (fun i => stallOf s c ((r.pointer + i) % 64)) = some x → exec (.stallSample c) s =
          .next (modRcd (record s1 c 2 (thrField x.lf (lowest x.lanes)) x.pc
            (x.blamed.toNat % 2 ^ 32 + x.reason * 2 ^ 32 + x.detail * 2 ^ 40)) c (fun r => { r with pointer := (x.lf + 1) % 64 })))) ∧
      ((rcdAt r s.cycle).dropped = 0 → exec (.lostRecord c) s = .next s) ∧
      ((rcdAt r s.cycle).dropped ≠ 0 → r.off = false → stagedNow r s.cycle < 32 → exec (.lostRecord c) s =
        .next (modRcd (record s c 15 0xFFFF 0 (min (rcdAt r s.cycle).dropped (2 ^ 32 - 1))) c (fun r => { r with dropped := 0 }))) ∧
      (s.cycle % 2 ^ 24 ≠ 0 → exec .timebaseWrap s = .next s) ∧
      (s.cycle % 2 ^ 24 = 0 → s.lastTimebase ≠ s.cycle + 1 → c < coreCount s →
        ∃ t, exec .timebaseWrap s = .next t ∧ t.mem = s.mem ∧ (Machine.core t c).c = (Machine.core s c).c ∧
          (Machine.core t c).rcd = stage r s.cycle 14 (recordBits 14 0xFFFF 0 (s.cycle / 2 ^ 24 % 2 ^ 40) (trail s c))))

/-! ## Engines at work (chapters 05 and 11) -/

/-- R113 and R116: the sum that a plane product makes from the planes of two blocks is the sum of the products of the elements that
the planes stand for. -/
def Obligations.PlaneSumsAreProductsOfElements : Prop :=
  ∀ (s : State) (c : Nat) (r : MmaRun) (m n b : Nat), r.a.blk = r.b.blk → 0 < r.a.blk → r.a.blk ≤ 64 → r.a.blk % 8 = 0 →
    0 < r.a.nbits → 0 < r.b.nbits →
    blockSum s c r m n b = ((List.range r.a.blk).map (fun k =>
      planeElem s c r.a m (b * r.a.blk + k) * planeElem s r.bc r.b n (b * r.a.blk + k))).sum

/-- R115, R116 and R246: a chunk or block of a product changes every covered element of its tile from its value before, or from +0
at the first chunk when the operand word says so, and nothing else in memory. -/
def Obligations.ProductStepWritesItsTile : Prop :=
  ∀ (s : State) (c : Nat) (r : MmaRun) (form : MmaForm) (o : Word) (i : Nat), r.a.rows ≤ 64 → r.b.rows ≤ 32 →
    let t := denseStep s c r form o i
    (∀ m < r.a.rows, ∀ n < r.b.rows, tileElem t c (opTile o) m n =
      accAfter s c r form m n i (if o.getLsbD 16 = true ∧ i = 0 then 0 else tileElem s c (opTile o) m n) % 2 ^ 32) ∧
    (∀ a, (∀ m < r.a.rows, a < tileAt c (opTile o) m 0 ∨ tileAt c (opTile o) m r.b.rows ≤ a) →
      Mem.byte t.mem a = Mem.byte s.mem a) ∧
    t = { s with mem := t.mem, poison := t.poison, lost := t.lost }

/-- R230, R231, R241, R248, R256, R278, R279, R282, R283, R303, R412, R427 and R428: the events of the engines. An entry that may
work does its next part; an entry whose work is done, with every write applied, ends; parts and chunks are counted once their
bytes are applied; a launch record is copied to the scheduler; what does not come in time ends or stops the operation: a member is out of
reach from its first missed beat on, and a collective ends 2^26 cycles after it, or at its gang launch's deadline. How an operation advances
from event to event (entry 50) and when a member that was missed is in reach again (entry 8) are the model's choices. -/
def Obligations.EngineEvents : Prop :=
  (∀ (s : State) (c i : Nat) (e : MqEntry),
    (mqOf (dropFences s c) c i = some e → entryReady (dropFences s c) c e = false →
      exec (.engineEntryStart c i) s = .next (dropFences s c)) ∧
    (mqOf (dropFences s c) c i = some e → entryReady (dropFences s c) c e = true →
      exec (.engineEntryStart c i) s = .next (startEntry (dropFences s c) c e)) ∧
    (mqOf s c i = some e →
      (e.finished = false ∨ engineDrained s c e.id = false → exec (.engineEntryFinish c i) s = .next s) ∧
      (e.fault.isSome = true → exec (.engineEntryFinish c i) s = .next s) ∧
      (∀ r, e.kind = .rsvFree r → e.finished = true → e.fault = none → engineDrained s c e.id = true → jointBusy s e = false →
        exec (.engineEntryFinish c i) s =
          .next (sweepLatches (dropEntry (finishFlags s c e.lf e.lanes e.flag) c e))) ∧
      (∀ rows act d, e.kind = .groveRow rows act d → e.started = true → entryReady s c e = true →
        exec (.groveLaneDone c i) s = .next (rowStep s c e rows)))) ∧
  (∀ (s : State) (c : Nat) (e : MqEntry) (t : Nat), e.kind = .accZero t → t < 64 → tileOther s c e.wg t = false →
    needsSpill s c t = false → ∀ row < 64, ∀ col < 32, Mem.word (startEntry s c e).mem (tileAt c t row col) = 0) ∧
  (∀ (s : State) (c i : Nat) (e : EngOp), engOf s c i = some e →
    (mqOf s c i = none →
      (engDone s c e = false → e.ended = false → exec (.engineEntryFinish c i) s = .next s) ∧
      (engDone s c e = true → e.ended = false → e.fault = none → ∀ x y org dc, e.kind = .xfer x y org dc →
        exec (.engineEntryFinish c i) s = .next (completeEngine
          (modEng (endEngine s c e) c e.id (fun e => { e with ended := true })) c { e with ended := true } 1))) ∧
    (∀ x y org dc p, e.kind = .xfer x y org dc → (xferParts x y org dc)[e.progress]? = some p → e.sent = e.progress + 1 →
      e.fault = none →
      (engineDrained s c i = false → exec (.xferPartApplied c i) s = .next s) ∧
      (engineDrained s c i = true → (∀ a, e.done ≠ .arrival a) →
        exec (.xferPartApplied c i) s = .next (modEng s c i (fun e => { e with progress := e.progress + 1 })))) ∧
    (∀ x, e.kind = .coll x →
      (e.progress ≠ x.total → e.sent = x.chunkEnd e.progress → e.fault = none → engineDrained s c i = true →
        (∀ a, e.done ≠ .arrival a) →
        exec (.collChunkDone c i) s = .next (modEng s c i (fun e => { e with progress := e.sent, missed := [] }))) ∧
      (∀ j, j < x.mems.length → x.onPart j = false → e.ended = false → engineHeld s c = false →
        let t := noteMissed s c e j
        let first := (look e.missed j (s.cycle, true)).1
        let z := { e with missed := put e.missed j (first, true) }
        let late := ∃ k n, (k, n, true) ∈ z.missed ∧ n + 2 ^ 26 ≤ s.cycle
        engOf t c i = some z ∧
        (gangFor s e.wg x.group = none →
          (¬late → exec (.collMemberAbsent c i j) s = .next t) ∧ (late → exec (.collMemberAbsent c i j) s = .next (absentEnd t c z x))) ∧
        (∀ g, gangFor s e.wg x.group = some g →
          (g.past = true → ((∃ k < x.mems.length, x.onPart k = false ∧ k ∉ g.acks) ∨ late) →
            exec (.collMemberAbsent c i j) s = .next (absentEnd t c z x)) ∧
          (g.past = false → exec (.collMemberAbsent c i j) s = .next t)))) ∧
    (∀ l deps p, e.kind = .launch l deps p →
      exec (.launchRecordCopy c i) s = .next (checkReady (dropEngine (endEngine
        { s with launches := s.launches ++ [launchFrom s.ops (ctxId s) e.number l deps p 64], ops := s.ops + 1 } c e) c e)))) ∧
  (∀ (s : State) (i : Nat) (x : Latch) (l : Launch), s.latches.find? (fun x => x.id = i) = some x →
    launchById s x.launch = some l → runs s l.ctx = true → x.fired = false → (∀ p, s.stop = some p → p.cycle = s.cycle) →
    (s.cycle < x.first + 2 ^ 24 → exec (.gangWatchdogExpiry i) s = .next s) ∧
    (x.first + 2 ^ 24 ≤ s.cycle → exec (.gangWatchdogExpiry i) s =
      .next (raiseLatch s x 28 (fun _ => x.gang.toNat % 2 ^ 27 + arrivedMask s x * 2 ^ 27))))

/-! ## Calls, messages and the debug window (chapters 12 and 17) -/

/-- R88, R270, R319, R320, R335 and R336: a call takes the lowest free slot of the ring and keeps it; once its release
and the fences before it let it go it is written there, and when the write is applied the slot's number joins the
posted calls and the threads park; where the checks refuse the ring the call waits, by the model's choice (entry 93);
MCALLQ hands out the posted slots and MMSGA the messages, oldest first, and 0 when there is none; a call whose monitor
has fired returns, or waits again while STATUS is 0. R316, R321, R331 and R424: a notify register takes its value and
pends its bit, once the writes before it on its link are applied and no fence stands around its die; a die without
service takes none. A word of a Parked thread is written, ended or unparked through the window; writes to any other
thread are ignored. The places of the window's registers and the narrow accesses of them are the model's choice (entry
24). -/
def Obligations.CallsMessagesAndWindow : Prop :=
  ((∀ (s : State) (c l slot n key : Nat) (f : LaneFrame) (cl : Clause) (h : CallHold) (d : Table Byte) (dirty : Option (Nat × Nat))
      (s1 : State), laneFrame s c l = some f → f.clause = some cl → f.call = some h → coreHeld s c = false →
      (f.callSlot = some slot ∨ (f.callSlot = none ∧ freeSlot (Machine.core s c) = some slot)) →
      let s0 := modLF s c l (fun f => { f with callSlot := some slot })
      let u : Iss := ⟨c, l, { f with callSlot := some slot }, cl⟩
      (h.written = false →
        (xHeld s0 (callCmd u h.op) = true → exec (.callRingPost c l) s = .next (dropFences s0 c)) ∧
        (xHeld s0 (callCmd u h.op) = false → released s0 c l cl.lanes h.op .dev = false → exec (.callRingPost c l) s = .next s0) ∧
        (xHeld s0 (callCmd u h.op) = false → released s0 c l cl.lanes h.op .dev = true → ringAllows s0 c slot 1 = true →
          slotBytes s0 u h.svc = some d →
          mastPlace s0 c (Machine.mast s c).ringCtx (slotVa (Machine.mast s c) slot) 2048 1 true = (.place n key dirty, s1) →
          exec (.callRingPost c l) s = .next (writeCall s1 u n key dirty d))) ∧
      (h.written = true →
        (mastWriting s0 c = true → exec (.callRingPost c l) s = .next s0) ∧
        (mastWriting s0 c = false → exec (.callRingPost c l) s = .next (postCall s0 u slot h.op)))) ∧
    (∀ (s s1 s2 : State) (c slot : Nat) (x : CallSlot) (mon : Monitor) (f : LaneFrame) (b : List Byte) (v : Table Word),
      lookup (Machine.mast s c).calls slot = some x → s.monitors.find? (fun m => decide (m.core = c ∧ m.call = some slot)) = some mon →
      mon.fired = true → x.ctx = ctxId s → s.slice.isSome = true → laneFrame s c x.lf = some f →
      ringAllows s c slot 0 = true →
      mastRead s c (Machine.mast s c).ringCtx (slotVa (Machine.mast s c) slot) 4 0 true = (.bytes b, s1) → leNat b ≠ 0 →
      let m := waiting f (fun w => decide (w = .syscall slot)) &&& x.lanes
      returnWords s1 c slot (lanesOf m) = (.ok v, s2) →
      exec (.syscallReturn c slot) s = .next (returnCall s2 c slot x.lf m v)) ∧
    (∀ (s : State) (c rd : Nat), mastUp s c = true →
      ((Machine.mast s c).mode = .u →
        exec (.mcallqRead c rd) s = .next (mastTrap s c 2 0) ∧ exec (.mmsgaRead c rd) s = .next (mastTrap s c 2 0) ∧
        (∀ v, exec (.mntpendWrite c v) s = .next (mastTrap s c 2 0))) ∧
      ((Machine.mast s c).mode ≠ .u →
        ((Machine.mast s c).posted = [] → exec (.mcallqRead c rd) s = .next (setX s c rd 0)) ∧
        (∀ x r, (Machine.mast s c).posted = x :: r → exec (.mcallqRead c rd) s = .next (setX
          (modMast s c (fun m => { m with posted := r, head := m.head + 1 })) c rd (BitVec.ofNat 64 (2 ^ 63 + x % 16)))) ∧
        ((Machine.mast s c).msgs = [] → exec (.mmsgaRead c rd) s = .next (setX s c rd 0)) ∧
        (∀ x r, (Machine.mast s c).msgs = x :: r → exec (.mmsgaRead c rd) s = .next (setX
          (modMast s c (fun m => { m with msgs := r, mmsgb := x.value.setWidth 64 })) c rd
          (BitVec.ofNat 64 (2 ^ 63 + x.tid % 1024 * 2 ^ 53 + x.ctx % 65536 * 2 ^ 37 + x.lf % 64 * 2 ^ 31 + x.chan % 32)))) ∧
        (∀ v, exec (.mntpendWrite c v) s =
          .next (modMast s c (fun m => { m with mntpend := m.mntpend &&& ~~~(v.setWidth 32) })))))) ∧
  ((∀ (s : State) (link c k : Nat) (v : Word),
      (hostFacing link = false → exec (.notifyWrite ⟨link, c⟩ k v) s = .next s) ∧
      (hostFacing link = true → hostWritesLeft s link = true ∨ dieFenced s (c / 64) = true →
        exec (.notifyWrite ⟨link, c⟩ k v) s = .next (holdHost s (.notify link c k v))) ∧
      (hostFacing link = true → hostWritesLeft s link = false → dieFenced s (c / 64) = false →
        (dieGone s (c / 64) = true → exec (.notifyWrite ⟨link, c⟩ k v) s = .next s) ∧
        (c < coreCount s → k < 32 → dieGone s (c / 64) = false → exec (.notifyWrite ⟨link, c⟩ k v) s =
          .next (modMast s c (fun m => { m with notify := m.notify.set k v, mntpend := m.mntpend ||| BitVec.twoPow 32 k }))) ∧
        (32 ≤ k → exec (.notifyWrite ⟨link, c⟩ k v) s = .next s))) ∧
    (∀ (s : State) (c l lane w : Nat) (f : LaneFrame) (v : Word), laneFrame s c l = some f → lane < 32 →
      let t := thread f lane
      (t.live = false ∨ t.parked = false →
        exec (.windowRegisterWrite c l lane w v) s = .next s ∧ exec (.windowEnd c l lane) s = .next s ∧
        exec (.windowUnpark c l lane) s = .next s) ∧
      (t.live = true → t.parked = true → lookup f.threads lane = some t →
        (34 ≤ w → exec (.windowRegisterWrite c l lane w v) s = .next s) ∧
        (0 < w → w < 16 → ∃ s1 g, exec (.windowRegisterWrite c l lane w v) s = .next s1 ∧ laneFrame s1 c l = some g ∧
          (thread g lane).n = t.n.set w v ∧ (thread g lane).q = t.q ∧ (thread g lane).pc = t.pc ∧
          (thread g lane).parked = true ∧ s1.mem = s.mem) ∧
        (t.wait = none → ∃ s1 g, exec (.windowEnd c l lane) s = .next s1 ∧ laneFrame s1 c l = some g ∧
          (thread g lane).live = false ∧ (thread g lane).n = t.n ∧ s1.mem = s.mem) ∧
        (t.wait = none → exec (.windowUnpark c l lane) s =
          .next (arriveAt (modLF (emptyReadAhead (leaveWaits s c l lane t true) c) c l (fun f => wakeLF f (BitVec.twoPow 32 lane))) c l
            (BitVec.twoPow 32 lane))))))

/-! ## Queues and gang launches (chapters 16 and 22) -/

/-- R300, R301, R403, R404, R429 and R432: queue registers and reads. TAIL takes a write unless it would overrun the ring, which stops
the queue with code 7; a queue that works reads its entry at HEAD, again 2048 cycles after a stale one, until 8 tries are over;
writing STOP's 1 clears QERR. An entry that passes its checks is taken: HEAD goes up by 1 and its launch is copied. Each of these
events completes in every state. An acknowledgement counts until the deadline, and at the deadline the others are absent.
The model's choices, which no rule gives: what a queue needs of its context to be read (entry 22), that a stopped queue always sends its
interrupt (entry 97), and that an acknowledgement is for the earliest launch of the queue that still waits for the member (entry 105). -/
def Obligations.QueueEvents : Prop :=
  (∀ (s : State) (q : Nat) (v : Word), q < 64 →
    let x := queue s q
    ((v - x.head).toNat ≤ x.size → exec (.qnotifyWrite q v) s = .next (modQueue s q (fun x => { x with tail := v }))) ∧
    (x.size < (v - x.head).toNat → x.stopped = false →
      ∃ t, exec (.qnotifyWrite q v) s = .next t ∧ (queue t q).tail = x.tail ∧
        (queue t q).qerr.toNat = 2 ^ 31 + x.tries % 16 * 2 ^ 8 + 7 ∧ t.sent = .queueInterrupt q :: s.sent) ∧
    (∃ t, exec (.qnotifyWrite q v) s = .next t ∧ (queue t q).head = x.head ∧
      ((v - x.head).toNat ≤ x.size → (queue t q).tail = v)) ∧
    (∃ t, exec (.qerrWrite q v) s = .next t ∧ (v.getLsbD 31 = true → (queue t q).qerr = 0)) ∧
    (∃ t, exec (.queueEntryFetch q) s = .next t) ∧ (∃ t, exec (.queueEntryRefetch q) s = .next t) ∧
    (∀ (d : Descriptor) (b : List Byte) (s1 : State), queueWorks x = true → queueDesc s x = some d →
      (if x.inHost then hostRead s d.pasid x.entryAt 256 else schedRead s x.ctx x.entryAt 256) = (.bytes b, s1) →
      field b 0 4 = x.head.toNat → queueUsable s1 x = true → entryCode s1 x.ctx b = none →
      (x.refetchAt = none → exec (.queueEntryFetch q) s = .next (takeEntry s1 q x b)) ∧
      (∀ t, x.refetchAt = some t → t ≤ s.cycle → exec (.queueEntryRefetch q) s = .next (takeEntry s1 q x b))) ∧
    (v.getLsbD 31 = true → exec (.qerrWrite q v) s = .next (modQueue s q (fun x => { x with qerr := 0, refetchAt := none }))) ∧
    (v.getLsbD 31 = false → exec (.qerrWrite q v) s = .next s) ∧
    (queueWorks x = true → x.refetchAt = none → exec (.queueEntryFetch q) s = .next (readEntry s q x)) ∧
    (queueWorks x = false → exec (.queueEntryFetch q) s = .next s ∧ exec (.queueEntryRefetch q) s = .next s) ∧
    (∀ t, queueWorks x = true → x.refetchAt = some t →
      (s.cycle < t → exec (.queueEntryRefetch q) s = .next s) ∧
      (t ≤ s.cycle → exec (.queueEntryRefetch q) s = .next (readEntry s q x)))) ∧
  (∀ (s : State) (q : Nat) (x : Queue) (b : List Byte),
    (x.tries < 8 → staleEntry s q x =
      modQueue s q (fun y => { y with qerr := qerrOf false (x.tries + 1) 0, refetchAt := some (s.cycle + 2048) })) ∧
    (x.gangArm = none → takeEntry s q x b = checkReady (modQueue { s with
      ops := s.ops + 1
      launches := s.launches ++ [launchFrom s.ops x.ctx 0 ((b.drop 64).take 64)
        ((List.range (recordDeps ((b.drop 64).take 64))).map (depOf ((b.drop 128).take 64)))
        (min (bits (field ((b.drop 64).take 64) 36 4) 2 0) x.prio) q] } q
      (fun x => { x with head := x.head + 1, qerr := 0, refetchAt := none, gangArm := none })))) ∧
  (∀ (s : State) (q j i : Nat) (g : Gang) (r : List (Nat × Gang)), openGangs s q = (i, g) :: r →
    (g.acks.contains j = false → s.cycle ≤ g.deadline → j < groupSize s g.group →
      exec (.gangAck q j) s = .next { s with gangs := put s.gangs i { g with acks := (j :: g.acks).dedup } }) ∧
    (g.acks.contains j = true → ∀ i' g' r', r = (i', g') :: r' → g'.acks.contains j = false → s.cycle ≤ g'.deadline →
      j < groupSize s g'.group →
      exec (.gangAck q j) s = .next { s with gangs := put s.gangs i' { g' with acks := (j :: g'.acks).dedup } }) ∧
    (r = [] → g.deadline ≤ s.cycle →
      let gone := (List.range (groupSize s g.group)).filter (fun j => !g.acks.contains j)
      exec (.gangDeadline q) s =
        .next { s with gangs := put s.gangs i { g with past := true, absent := gone.length, lowest := gone.headD 0 } }) ∧
    (∀ i' g', r = [(i', g')] → g.deadline ≤ s.cycle → g'.deadline ≤ s.cycle →
      exec (.gangDeadline q) s = .next (passGang (passGang s i g) i' g'))) ∧
  (∀ (s : State) (q j : Nat),
    ((openGangs s q).all (fun e => e.2.acks.contains j || decide (e.2.deadline < s.cycle)) = true → (queue s q).gangArm = none →
      exec (.gangAck q j) s = .next s) ∧
    ((openGangs s q).all (fun e => decide (s.cycle < e.2.deadline)) = true → exec (.gangDeadline q) s = .next s)) ∧
  (∀ (s : State) (q j : Nat), (∃ t, exec (.gangAck q j) s = .next t ∧ t.mem = s.mem ∧ t.cores = s.cores) ∧
    (∃ t, exec (.gangDeadline q) s = .next t ∧ t.mem = s.mem ∧ t.queues = s.queues))

/-! ## The host (chapters 18 and 22) -/

/-- R327, R340, R388 and R389: completions, page-request responses, timeouts and invalidations of host translations: a
completion is the request's of its core, PASID and page. That an answer reaches the bundles of a context that is out
when it runs again, and that a store to a page without write access asks for the page (entry 20), and that a failure
of core 0's translations stops the queues that read through them (entry 22) are the model's choices. R324, R325 and
R326: host accesses of the package's memory, through link 0 or 1 alone. A read answers with the bytes at their homes
and tracks the lines that the host will cache; a write is applied block by block, but for the capsule area; both wait
at the home slice while a page is on the move; a line is given up by the host's response; every CXL.cache snoop
misses. The model's choices: which links face a host (entry 90), the fault beyond the HDM range (entry 68), the sets
of the snoop filter (entry 21), and the place of a host's accesses among a cycle's events (entry 4). -/
def Obligations.HostEvents : Prop :=
  ((∀ (s : State) (c pasid page : Nat) (q : AtsReq),
      (Machine.core s c).ats.find? (fun q => decide (q.pasid = pasid ∧ q.page = page) && !q.pri) = some q →
      let failed := failHost (dropAts s c q) c q.pasid page 23 (hostDetail page 0) (fun _ _ => true)
      exec (.atsTranslationCompletion c ⟨pasid, page⟩ .error) s = .next failed ∧
      (q.dead = false →
        exec (.atsTranslationCompletion c ⟨pasid, page⟩ .noAccess) s = .next (askPage s c q) ∧
        (∀ h, exec (.atsTranslationCompletion c ⟨pasid, page⟩ (.granted h true)) s =
          .next (wakeHost (dropAts (installHost s c ⟨q.pasid, q.page, h, true⟩) c q) c q.pasid q.page))) ∧
      (q.dead = true → ∀ h w,
        exec (.atsTranslationCompletion c ⟨pasid, page⟩ (.granted h w)) s = .next (setAts s c q { q with dead := false, cycle := s.cycle })) ∧
      (s.cycle < q.cycle + 2 ^ 24 → exec (.atsTimeout c ⟨pasid, page⟩) s = .next s) ∧
      (q.cycle + 2 ^ 24 ≤ s.cycle → exec (.atsTimeout c ⟨pasid, page⟩) s = .next failed)) ∧
    (∀ (s : State) (c pasid page : Nat) (q : AtsReq),
      (Machine.core s c).ats.find? (fun q => decide (q.pasid = pasid ∧ q.page = page) && q.pri && !q.held) = some q →
      let fn := fnOfPasid s q.pasid
      exec (.pageRequestGroupResponse c ⟨pasid, page⟩ .success) s =
        .next (sendHeld (setAts s c q { q with pri := false, after := true, dead := false, cycle := s.cycle }) fn) ∧
      exec (.pageRequestGroupResponse c ⟨pasid, page⟩ .invalidRequest) s =
        .next (sendHeld (failHost (dropAts s c q) c q.pasid page 23 (hostDetail page 1) (fun _ _ => true)) fn) ∧
      exec (.pageRequestGroupResponse c ⟨pasid, page⟩ .failure) s = .next (sendHeld
        (failHost { dropAts s c q with priStopped := (fn :: s.priStopped).dedup } c q.pasid page 23 (hostDetail page 2)
          (fun _ _ => true)) fn)) ∧
    (∀ (s : State) (pasid page n : Nat), ∃ t, exec (.atsInvalidationRequest pasid page n) s = .next t ∧ t.mem = s.mem ∧
      (∀ c x, x ∈ (Machine.core t c).hstore ↔ x ∈ (Machine.core s c).hstore ∧ ¬(x.pasid = pasid ∧ page ≤ x.page ∧ x.page < page + n)) ∧
      (hostUsers s pasid page n = [] → t.sent = .invalidationDone pasid page n :: s.sent) ∧
      (hostUsers s pasid page n ≠ [] → t.sent = s.sent ∧
        t.hostInvals = s.hostInvals ++ [⟨s.ops, pasid, page, n, hostUsers s pasid page n⟩])) ∧
    (∀ (s : State) (i : Nat) (v : HostInval), s.hostInvals.find? (fun v => v.id = i) = some v →
      (v.waits.any (fun w => (reqOf s w.1 w.2).isSome) = true → exec (.invalidationCompletion i) s = .next s) ∧
      (v.waits.any (fun w => (reqOf s w.1 w.2).isSome) = false → exec (.invalidationCompletion i) s =
        .next { s with hostInvals := s.hostInvals.filter (fun x => x.id != i), sent := .invalidationDone v.pasid v.page v.count :: s.sent })) ∧
    (∀ (s : State) (c op : Nat) (o : MemOp), opOf s c op = some o → o.kind = .host →
      (s.cycle < o.cycle + 2 ^ 24 → exec (.hostReadTimeout c op false) s = .next s) ∧
      (∃ t, exec (.hostReadTimeout c op true) s = .next t ∧ t.stop.isSome = true ∧ (Machine.core t c).reqs.all (fun r => r.op != op) = true))) ∧
  ((∀ (s : State) (link a n : Nat), hostFacing link = true → a + n ≤ hdmEnd s →
      (hostHeld s (rangePages a n) false = true → ∀ k,
        exec (.hostMemRead link a n k) s = .next { s with hostReqs := s.hostReqs ++ [.read link a n k] }) ∧
      (hostHeld s (rangePages a n) false = false →
        let b := (List.range n).map (fun i => hostReadByte s (a + i))
        let answer (t : State) : State := tell t (.readData link a (b.map (fun x => x.1)) (b.map (fun x => x.2)))
        exec (.hostMemRead link a n false) s = .next (answer (countHost (countReads s a n) a)) ∧
        (snoopEvictions s (rangeLines a n) = [] →
          exec (.hostMemRead link a n true) s = .next (answer (trackLines (countHost (countReads s a n) a) (rangeLines a n)))) ∧
        (snoopEvictions s (rangeLines a n) ≠ [] →
          exec (.hostMemRead link a n true) s =
            .next (holdHost (sendSnoops s (snoopEvictions s (rangeLines a n))) (.read link a n true))))) ∧
    (∀ (s : State) (link a : Nat) (data : List Byte), hostFacing link = true → a + data.length ≤ hdmEnd s →
      (hostHeld s (rangePages a data.length) true = true →
        exec (.hostMemWrite link a data) s = .next { s with hostReqs := s.hostReqs ++ [.write link a data] }) ∧
      (hostHeld s (rangePages a data.length) true = false →
        exec (.hostMemWrite link a data) s = .next ((hostBlocks a data).foldl (fun s e =>
          if capsulePage (e.1 / 32) = true then s
          else if pageGone s (e.1 / 32) = true ∨ (hostKey s (e.1 * 128)).isNone = true then { s with rasHost := s.rasHost + 1 }
          else hostBlock s link e.1 e.2) s))) ∧
    (∀ (s : State) (pages : List Nat) (w : Bool), pages.any (fun p => (marker s p).offered) = true → hostHeld s pages w = true) ∧
    (∀ (s : State) (link a n : Nat) (data : List Byte) (k : Bool), hostFacing link = true → hdmEnd s < a + n → data.length = n →
      exec (.hostMemRead link a n k) s = .fault (.outsideRange a) ∧
      exec (.hostMemWrite link a data) s = .fault (.outsideRange a)) ∧
    (∀ (s : State) (link a n : Nat) (data : List Byte) (k : Bool), 2 ≤ link →
      exec (.hostMemRead link a n k) s = .next s ∧ exec (.hostMemWrite link a data) s = .next s ∧
      exec (.cxlCacheSnoop link a) s = .next s) ∧
    (∀ (s : State) (i : Nat) (x : Snoop), s.snoops.find? (fun x => x.id = i) = some x →
      exec (.backInvalidateResponse i) s = .next { s with
        snoops := s.snoops.filter (fun y => y.id != i), snoopFilter := s.snoopFilter.filter (fun e => e.1 != x.line) }) ∧
    (∀ (s : State) (link a : Nat), link < 2 → exec (.cxlCacheSnoop link a) s = .next { s with sent := .snoopMiss link a :: s.sent }))

/-! ## Mast accesses (chapter 17) -/

/-- R312, R313 and R323: loads, stores, AMOs, LR, SC and FENCE of a Mast in the canonical half. A misaligned access,
one that the checks on its address refuse, or one whose page refuses it takes its exception; else it reads or writes
at the home, and an x register takes the result; an acquiring AMO empties the core's read-ahead buffer first. In M
mode a load inside the booted image reads the image; a fetch at the program counter runs the instruction there. The
write waits on the lane of its page (entry 55), an AMO in U mode needs W alone (entry 107), no atomic access goes to
the window (entries 23 and 24), the order of the checks (entry 89) and the boot window of a die (entry 28) are the
model's choices. R314 and R322: an exception of a Mast saves the cause, the program counter and the value, stacks the
interrupt enable and the mode, and goes to the vector: of S mode when medeleg delegates the cause and the Mast is not
in M mode, else of M mode. -/
def Obligations.MastAccessesAndExceptions : Prop :=
  (∀ (s : State) (c n rd : Nat) (a d : DWord), mastUp s c = true → n = 4 ∨ n = 8 → a.toNat < 2 ^ 47 →
      let ctx := (Machine.mast s c).mctx
      (a.toNat % n ≠ 0 →
        exec (.mastLoadStore c .loadS n a d rd) s = .next (mastTrap s c 4 a) ∧
        exec (.mastLoadStore c .store n a d rd) s = .next (mastTrap s c 6 a) ∧
        (a ≠ (Machine.mast s c).pc → exec (.mastLoadStore c .fetch n a d rd) s = .next (mastTrap s c 0 a)) ∧
        (∀ o q r, exec (.mastAmo c o n q r a d rd) s = .next (mastTrap s c 6 a)) ∧
        exec (.mastLr c n a rd) s = .next (mastTrap s c 4 a) ∧ exec (.mastSc c n a d rd) s = .next (mastTrap s c 6 a)) ∧
      (a.toNat % n = 0 →
        (issueAllows s c a.toNat n 0 = false →
          exec (.mastLoadStore c .loadS n a d rd) s = .next (mastTrap s c 5 a) ∧
          exec (.mastLr c n a rd) s = .next (mastTrap s c 5 a)) ∧
        (issueAllows s c a.toNat n 2 = false → a ≠ (Machine.mast s c).pc →
          exec (.mastLoadStore c .fetch n a d rd) s = .next (mastTrap s c 1 a)) ∧
        (issueAllows s c a.toNat n 1 = false →
          exec (.mastLoadStore c .store n a d rd) s = .next (mastTrap s c 7 a) ∧
          (∀ o q r, exec (.mastAmo c o n q r a d rd) s = .next (mastTrap s c 7 a))) ∧
        (∀ l s1, issueAllows s c a.toNat n 0 = true → mastRead s c ctx a.toNat n 0 (isSup s c 0) = (.bytes l, s1) →
          (accessMode (Machine.mast s c) 0 ≠ .m ∨ bootMapped s c a.toNat n = false →
            exec (.mastLoadStore c .loadS n a d rd) s = .next (setX s1 c rd (extendTo64 true l)) ∧
            exec (.mastLoadStore c .loadZ n a d rd) s = .next (setX s1 c rd (extendTo64 false l))) ∧
          exec (.mastLr c n a rd) s = .next (setX
            (modMast s1 c (fun m => { m with reserve := some (.virt m.mctx a.toNat, n, true) })) c rd (extendTo64 true l))) ∧
        (∀ s1, issueAllows s c a.toNat n 1 = true → mastWrite s c ctx a.toNat (leBytes n d.toNat) (isSup s c 1) = (.bytes [], s1) →
          exec (.mastLoadStore c .store n a d rd) s = .next s1 ∧
          ((Machine.mast s c).reserve = some (.virt ctx a.toNat, n, true) → exec (.mastSc c n a d rd) s =
            .next (setX (modMast s1 c (fun m => { m with reserve := none })) c rd 0))) ∧
        (issueAllows s c a.toNat n 1 = true → (Machine.mast s c).reserve ≠ some (.virt ctx a.toNat, n, true) →
          exec (.mastSc c n a d rd) s = .next (setX (modMast s c (fun m => { m with reserve := none })) c rd 1)) ∧
        (∀ o q r p key dirty s1, issueAllows s c a.toNat n 1 = true →
          mastPlace s c ctx a.toNat n 1 (isSup s c 1) = (.place p key dirty, s1) →
          (∀ i < n, spoiled s1 (p + i) = false) →
          let old := readUnder s1 key p n
          exec (.mastAmo c o n q r a d rd) s = .next (setX
            (laneWrite (if q = true then emptyReadAhead s1 c else s1) p key
              (byteTable (leBytes n (amoValue o (8 * n) (leNat old) d.toNat))) (some c) (.mast c) dirty)
            c rd (extendTo64 true old)))) ∧
      (∀ l s1, accessMode (Machine.mast s c) 0 = .m → bootMapped s c a.toNat n = true → a.toNat % n = 0 →
        issueAllows s c a.toNat n 0 = true → bootRead s a.toNat n = (some l, s1) →
        exec (.mastLoadStore c .loadZ n a d rd) s = .next (setX s1 c rd (extendTo64 false l))) ∧
      (exec (.mastLoadStore c .fetch n (Machine.mast s c).pc d rd) s = .next (mastStep s c)) ∧
      (∀ b, exec (.mastFence c b) s = .next (emptyReadAhead s c))) ∧
  (∀ (s : State) (c cause : Nat) (v : DWord), cause < 64 →
      let m := Machine.mast s c
      let t := mastTrap s c cause v
      let x := Machine.mast t c
      t = { s with cores := t.cores } ∧ (∀ j, j ≠ c → Machine.core t j = Machine.core s j) ∧ x.x = m.x ∧ x.mctx = m.mctx ∧
      (m.mode ≠ .m → m.medeleg.getLsbD cause = true →
        x.mode = .s ∧ x.scause = BitVec.ofNat 64 cause ∧ x.sepc = m.pc ∧ x.stval = v ∧ x.spie = m.sie ∧ x.sie = false ∧
        x.spp = (if m.mode = .s then 1 else 0) ∧ x.pc.toNat = m.stvec.toNat / 4 * 4 ∧ x.mcause = m.mcause ∧ x.mepc = m.mepc) ∧
      (m.mode = .m ∨ m.medeleg.getLsbD cause = false →
        x.mode = .m ∧ x.mcause = BitVec.ofNat 64 cause ∧ x.mepc = m.pc ∧ x.mtval = v ∧ x.gpie = m.gie ∧ x.gie = false ∧
        x.mpp = (match m.mode with | .u => 0 | .s => 1 | .m => 3) ∧ x.pc.toNat = m.mtvec.toNat / 4 * 4 ∧
        x.scause = m.scause ∧ x.sepc = m.sepc))

/-! ## The management mailbox (chapters 18, 19, 21 and 22) -/

namespace Sys2Proof.Spec
open Sys2Proof.Machine

/-- The masters whose commands the mailbox carries out, on a part that has booted and has no command in progress (R328, R334). -/
def MailboxFree (s : State) (m : MbxMaster) : Prop := (m = .pf ∨ ∃ c, m = .mastM c) ∧ s.boot.code = 0 ∧ s.mbxCmd = none

/-- What a command leaves: its arguments stored, the response's code, and the returned argument doublewords in their places. -/
def responded (s : State) (args : List (Nat × DWord)) (code : Nat) (l : List (Nat × DWord)) : State :=
  { s with mbxResp := BitVec.ofNat 32 code, mbxArgs := l.foldl (fun a e => a.set e.1 e.2) (args.foldl (fun a e => a.set e.1 e.2) s.mbxArgs) }

/-- A command that has not completed: it stays pending while BUSY reads 1. -/
def pendingAs (s : State) (m : MbxMaster) (code : Nat) : State :=
  if s.mbxResp.getLsbD 31 = true then { s with mbxCmd := some (code, masterNo m) } else s

end Sys2Proof.Spec

/-- R328, R334 and R430: who may command. A Mast below M mode and a virtual function are ignored, as is a command
while another is in progress; after a failed boot only 0x10, 0x15, 0x17 and 0x2C are served; a code that no table
lists is answered with 1. A command that cannot complete yet, here 0x22 while accesses under the old key are in
flight, keeps its arguments and stays pending with BUSY. That a command which is not served is ignored is the model's
choice (entry 62). R6, R298, R307, R325, R329 to R332, R384, R386, R390, R395, R397, R411, R423, R429 and R430: the
commands that read and set the package's tables. The model's choices: what an argument keeps that no rule returns
(entry 25), how HBM is reached by its device physical address (entry 26), the layouts of the poison and lost-block
answers (entry 27), the argument fields of 0x12 (entry 70), a sequence that 0x1F finds already remapped (entry 17) and
the commands of a part whose boot failed (entry 62). -/
def Obligations.MailboxTableCommands : Prop :=
  (∀ (s : State) (m : MbxMaster),
      ((∃ n, m = .vf n) ∨ (∃ c, m = .mastS c) ∨ s.mbxCmd ≠ none → ∀ (f : State → State) (code : Nat) (args : List (Nat × DWord)),
        command s m code args f = .next s) ∧
      (s.boot.code ≠ 0 → ∀ (f : State → State) (code : Nat) (args : List (Nat × DWord)),
        code ≠ 0x10 → code ≠ 0x15 → code ≠ 0x17 → code ≠ 0x2C → command s m code args f = .next s) ∧
      (MailboxFree s m → ∀ code, code < 0x10 ∨ 0x2C < code → exec (.mailboxUnknownCommand m code) s = .next (responded s [] 1 [])) ∧
      (MailboxFree s m → ∀ a b : DWord, b.toNat % 64 = 0 → keyBusy s (a.toNat % 2 ^ 11) = true →
        ∃ t, exec (.writeKeySlot m a b) s = .next t ∧ t.mbxResp = 0x80000000 ∧ t.mbxCmd = some (0x22, masterNo m) ∧
          t.mbxArgs = (s.mbxArgs.set 0 a).set 1 b ∧ t.keySlots = s.keySlots ∧ t.mem = s.mem)) ∧
  (∀ (s : State) (m : MbxMaster), MailboxFree s m →
      exec (.readCapabilityWord m) s = .next (responded s [] 0 [(0, s.caps.setWidth 64)]) ∧
      (∀ a : DWord, a.toNat % 64 = 0 → a.toNat < hdmEnd s →
        exec (.setCtxtab m a) s = .next (responded { s with ctxtab := some a.toNat } [(0, a)] 0 [(0, a)])) ∧
      (∀ fn entry v, fn ≤ 64 → entry < 64 → exec (.writeQuantumEntry m fn entry v) s =
        .next (responded { s with quantum := put s.quantum (fn * 64 + entry) v }
          [(0, argOf (fn + entry * 2 ^ 8)), (1, v.setWidth 64)] 0 [])) ∧
      (∀ g a b c d, g < 4096 → exec (.writeFabricGroup m g a b c d) s =
        .next (responded { s with groups := put s.groups g [a, b, c, d] } [(0, argOf g), (1, a), (2, b), (3, c), (4, d)] 0
          [(1, a), (2, b), (3, c), (4, d)])) ∧
      (∀ g k, g < 1024 → k < 2048 → exec (.writeHostKeyTable m g k) s =
        .next (responded { s with keyTable := put s.keyTable g k } [(0, argOf g), (1, argOf k)] 0 [])) ∧
      (∀ d, (dies s ≤ d → exec (.readDieState m d) s = .next (responded s [(0, argOf d)] 3 [])) ∧
        (d < dies s → exec (.readDieState m d) s =
          .next (responded s [(0, argOf d)] 0 [(0, BitVec.ofNat 64 (s.dieState.getD d 0 % 8))]))) ∧
      exec (.readMeasurement m) s =
        .next (responded s [] 0 ((List.range 6).map (fun i => (i, s.measure.extractLsb' (64 * i) 64)))) ∧
      (∀ a : DWord, (a.toNat % 4096 ≠ 0 → exec (.writeBootaddr m a) s = .next (responded s [(0, a)] 3 [])) ∧
        (a.toNat % 4096 = 0 → exec (.writeBootaddr m a) s = .next (responded { s with bootaddr := a } [(0, a)] 0 [(0, a)]))) ∧
      (∀ ctx va,
        let args := [(0, argOf ctx), (1, argOf va)]
        (abandonBusy s ctx (va / 4096 % 2 ^ 36) = none →
          exec (.abandonBusySequence m ctx va) s = .next (responded s args 2 [])) ∧
        (∀ t, abandonBusy (begun s args) ctx (va / 4096 % 2 ^ 36) = some t →
          exec (.abandonBusySequence m ctx va) s = .next (responded t [] 0 []))) ∧
      (∀ a b c d : DWord,
        let k := a.toNat % 2 ^ 16 * 8 + a.toNat / 2 ^ 16 % 8
        let args := [(0, a), (1, b), (2, c), (3, d)]
        (a.getLsbD 31 = false →
          exec (.setMirrorRange m a b c d) s = .next (responded { s with mirrors := drop s.mirrors k } args 0 args)) ∧
        (a.getLsbD 31 = true → c.toNat % 2 ^ 32 = 0 → exec (.setMirrorRange m a b c d) s = .next (responded s args 3 args)) ∧
        (a.getLsbD 31 = true → c.toNat % 2 ^ 32 ≠ 0 → exec (.setMirrorRange m a b c d) s = .next (responded
          { s with mirrors := put s.mirrors k ⟨b.toNat % 2 ^ 32, c.toNat % 2 ^ 32, d.toNat % 2 ^ 32⟩ } args 0 args))) ∧
      (∀ entry e, lookup s.poisonTab (entry % 256) = some e →
        exec (.readPoisonEntry m entry) s = .next (responded s [(0, argOf entry)] 0 [(0, BitVec.ofNat 64 e.ctx),
          (1, BitVec.ofNat 64 (e.vpn * 4096)), (2, BitVec.ofNat 64 (e.capPage + (if e.mirror then 2 ^ 32 else 0)))]) ∧
        ∃ t, exec (.clearPoisonEntry m entry) s = .next t ∧ lookup t.poisonTab (entry % 256) = none ∧
          t.mbxResp = 0 ∧ (∀ p, t.stop = some p → p.blocked = false)) ∧
      (∀ a b : DWord, b.toNat % 64 = 0 → keyBusy s (a.toNat % 2 ^ 11) = false → hbmRange s b.toNat 64 = true →
        hbmHeld s b.toNat 64 = false → hbmTracked s b.toNat 64 = [] → a.getLsbD 31 = true →
        ∃ t, exec (.writeKeySlot m a b) s = .next t ∧ lookup t.keySlots (a.toNat % 2 ^ 11) = some (hbmRead s b.toNat 64) ∧
          t.mbxResp = 0) ∧
      (∀ n fr clear, (dies s ≤ n → exec (.readRasCounters m n fr clear) s = .next (responded s
          [(0, argOf (n + bnat fr * 2 ^ 8)), (1, argOf (bnat clear))] 3 [])) ∧
        (n < dies s → ∃ t, exec (.readRasCounters m n fr clear) s = .next t ∧ t.mbxResp = 0 ∧
          (clear = true → lookup t.rasCorrected (n * 2 + (if fr then 1 else 0)) = none ∧
            lookup t.rasPoisoned (n * 2 + (if fr then 1 else 0)) = none) ∧
          (clear = false → t.rasCorrected = s.rasCorrected ∧ t.rasPoisoned = s.rasPoisoned))) ∧
      (∀ d sl e b, (look s.lost (d % 16 * 32 + sl % 32) [])[e % 64]? = some b →
        exec (.readLostBlock m d sl e) s = .next (responded s [(0, argOf (d % 2 ^ 4 + sl % 2 ^ 5 * 2 ^ 4 + e % 2 ^ 6 * 2 ^ 9))] 0
          [(0, BitVec.ofNat 64 (b * 128))]) ∧
        ∃ t, exec (.clearLostBlock m d sl e) s = .next t ∧ t.mbxResp = 0 ∧
          look t.lost (d % 16 * 32 + sl % 32) [] = (look s.lost (d % 16 * 32 + sl % 32) []).eraseIdx (e % 64) ∧
          (∀ p, t.stop = some p → d % 16 * 32 + sl % 32 ∉ p.lostFull)) ∧
      (∀ a : DWord, a &&& ~~~0x103FF = 0 → a.toNat % 1024 < coreCount s →
        (∀ p e, s.stop = some p → (Machine.core s (a.toNat % 1024)).c.mq.find?
          (fun e => e.fault.isSome && !atLatch e && decide (entryUnit (a.toNat % 1024) e = a.toNat / 2 ^ 16 % 2)) = some e →
          exec (.abandonEngineEntry m a) s =
            .next (responded (abandonEntry (begun s [(0, a)]) (a.toNat % 1024) e) [] 0 [(0, a)])) ∧
        (s.stop = none → exec (.abandonEngineEntry m a) s = .next (responded s [(0, a)] 2 [(0, a)]))) ∧
      (∀ a b : DWord, b ≠ 0 → b.toNat < 2 ^ 32 → exec (.armGangLaunch m a b) s = .next (responded
        (modQueue s (a.toNat % 64) (fun x => { x with gangArm := some (a.toNat / 2 ^ 16 % 2 ^ 12, b.toNat * 2 ^ 16) }))
        [(0, a), (1, b)] 0 [(0, a), (1, b)])) ∧
      (∀ q i g, lastGang s q = some (i, g) → exec (.readGangStatus m q) s = .next (responded s [(0, argOf q)] 0
        [(0, BitVec.ofNat 64 ((if 0 < g.absent then 2 ^ 31 else 0) + g.absent % 2 ^ 12 * 2 ^ 16 + g.lowest % 2 ^ 12))])) ∧
      (∀ i a, i < 4 → a.toNat % 8 = 0 → s.summaries[i]? = none →
        exec (.copyCapsuleSummary m i a) s = .next (responded s [(0, argOf i), (1, a)] 0 [(0, 0xFF), (1, 0)])) ∧
      (∀ i a x, i < 4 → a.toNat % 8 = 0 → s.summaries[i]? = some x → hbmRange s a.toNat x.bytes.length = true →
        hbmHeld s a.toNat x.bytes.length = false → hbmTracked s a.toNat x.bytes.length = [] →
        let t := hbmStore (begun s [(0, argOf i), (1, a)]) a.toNat x.bytes
        exec (.copyCapsuleSummary m i a) s = .next (responded t [] 0
          [(0, if x.slot < 2 then BitVec.ofNat 64 x.slot else 0xFF), (1, BitVec.ofNat 64 (capsule t x.slot).state)])) ∧
      (∀ k a off n, (capsule s k).state ≠ 2 →
        exec (.copyCapsuleSlot m k a off n) s = .next (responded s [(0, argOf k), (1, a), (2, argOf off), (3, argOf n)] 2 []) ∧
        exec (.releaseCapsuleSlot m k) s = .next (responded s [(0, argOf k)] 2 [])) ∧
      (∀ k a off n, (capsule s k).state = 2 →
        exec (.releaseCapsuleSlot m k) s = .next (responded (setCapsule s k ⟨0, 0, 0⟩) [(0, argOf k)] 0 []) ∧
        (a.toNat % 64 = 0 → n ≤ 2 ^ 26 → off + n ≤ slotBytesCount → hbmRange s a.toNat n = true → hbmHeld s a.toNat n = false →
          hbmTracked s a.toNat n = [] →
          let t := hbmStore (begun s [(0, argOf k), (1, a), (2, argOf off), (3, argOf n)]) a.toNat
            (Mem.read s.mem (slotBase k + off) n)
          exec (.copyCapsuleSlot m k a off n) s =
            .next (responded t [] 0 [(0, BitVec.ofNat 64 ((capsule t k).size + 30176))]))) ∧
      exec (.readBootCode m) s = .next (responded s [] 0 [(0, 0)]))

/-- R349, R351, R354, R355, R363, R365 to R369: the commands of the recorder and the debugger. RCTL keeps its fixed bits and restarts
the sampling counters; DBGCTL reads back without HALTREQ, and a write of its UNDO bit clears the undo logs; STEP_BACK undoes the
newest K entries of a log, or says why not. The model's choices: HALTREQ clears the undo logs too (entry 61), how HBM is reached by 0x18
(entry 26), and that what was recorded before a re-arm starts no capture (entry 38). -/
def Obligations.MailboxDebugCommands : Prop :=
  ∀ (s : State) (m : MbxMaster), MailboxFree s m →
    (∀ a : DWord, a.toNat < coreCount s ∨ a.toNat = 0x3FF → ∀ v : Word,
      let rctl := (v &&& 0x0FFF11FE) ||| 0x0000EE01
      exec (.readRctl m a) s = .next (responded s [(0, a), (2, 0)] 0
        [(0, (Machine.core s (if a.toNat = 0x3FF then 0 else a.toNat)).rcd.rctl.setWidth 64)]) ∧
      (∃ t, exec (.writeRctl m a v) s = .next t ∧ t.mem = s.mem ∧ t.mbxResp = 0 ∧ ∀ c < coreCount s,
        (Machine.core t c).rcd = if a.toNat = 0x3FF ∨ a.toNat = c then
          { rcdAt (Machine.core s c).rcd s.cycle with rctl := rctl, cntStall := s.cycle, cntMem := 0, cntIssue := 0 }
        else (Machine.core s c).rcd) ∧
      (∃ t, exec (.rearmCapture m a) s = .next t ∧ t.mem = s.mem ∧ t.mbxResp = 0 ∧ ∀ c < coreCount s,
        (Machine.core t c).rcd = if a.toNat = 0x3FF ∨ a.toNat = c then
          { rcdAt (Machine.core s c).rcd s.cycle with
            capture := [], capCount := 0, capState := 0
            queue := (rcdAt (Machine.core s c).rcd s.cycle).queue.map (fun e => (false, e.2)) }
        else (Machine.core s c).rcd)) ∧
    (∀ a : DWord, coreCount s ≤ a.toNat → a.toNat ≠ 0x3FF → ∀ v : Word,
      exec (.readRctl m a) s = .next (responded s [(0, a), (2, 0)] 3 []) ∧
      exec (.writeRctl m a v) s = .next (responded s [(0, a), (1, v.setWidth 64), (2, 1)] 3 []) ∧
      exec (.rearmCapture m a) s = .next (responded s [(0, a)] 3 [])) ∧
    (∀ a b c d : DWord, copyOk s a b c d = false →
      exec (.copyRecords m a b c d) s = .next (responded s [(0, a), (1, b), (2, c), (3, d)] 3 [])) ∧
    (∀ a b c d : DWord, copyOk s a b c d = true → a.getLsbD 16 = false → hbmRange s c.toNat (d.toNat * 16) = true →
      hbmHeld s c.toNat (d.toNat * 16) = false → hbmTracked s c.toNat (d.toNat * 16) = [] →
      let r := rcdAt (Machine.core s (a.toNat % 1024)).rcd s.cycle
      exec (.copyRecords m a b c d) s = .next (responded
        (hbmStore (begun s [(0, a), (1, b), (2, c), (3, d)]) c.toNat
          ((List.range d.toNat).flatMap (fun i => leBytes 16 (ringRecord r (b.toNat + i)).toNat))) [] 0
        [(0, BitVec.ofNat 64 r.w), (1, BitVec.ofNat 64 r.capState)])) ∧
    (∀ a : DWord,
      let k := frameKey (a.toNat % 16) (a.toNat / 16 % 128) (a.toNat / 2 ^ 11 % 2 ^ 11)
      exec (.readSealWord m a) s = .next (if a.toNat % 16 < dies s then responded s [(0, a)] 0
        [(0, if frameExists s k = true then (sealWord (frame s k)).setWidth 64 else 0)] else responded s [(0, a)] 3 [])) ∧
    (∀ v : DWord, exec (.dbgctlWrite m v) s = .next (responded (writeDbgctl (begun s [(1, v), (2, 1)]) v) [] 0 [(1, v)])) ∧
    (∀ v : DWord, v.getLsbD 18 = false → (writeDbgctl s v).dbgctl = v) ∧
    exec (.dbgctlRead m) s = .next (responded s [(2, 0)] 0 [(1, s.dbgctl)]) ∧
    exec (.haltreq m) s = .next (responded (haltNow (clearLogs (begun s [(1, setBit s.dbgctl 18 true), (2, 1)]))) [] 0 []) ∧
    (∀ b, ∃ t, exec (.undoLogClear m b) s = .next t ∧ t.dbgctl.getLsbD 17 = b ∧
      ∀ c l f, laneFrame s c l = some f → ∃ g, laneFrame t c l = some g ∧ g.undo = f.undo ∧ g.undoBase = f.undo) ∧
    (∀ c l k f, k ≠ 0 → laneFrame s c l = some f →
      let args := [(0, argOf c), (1, argOf l), (2, argOf k)]
      (s.stop = none → exec (.stepBack m c l k) s = .next (responded s args 2 [])) ∧
      (stepCode s c l k = 0 → exec (.stepBack m c l k) s = .next (responded (stepBack (begun s args) c l k f) [] 0 []))) ∧
    exec (.haltStatusRead m) s = .next (responded s [(0, 0)] 0 [(0, mhalt s)])

/-! ## Stops, ends and capsules (chapters 21 and 22) -/

/-- R357, R363, R365, R366 and R418: the halt line stops every core within its bound; RESUME lets a stopped context go on, unless a
debugger halt, a full table or a capsule holds it; ENDCTX stops a running context and ends it; and capsules are assembled one
after another into an empty slot. The model's choices: RESUME and ENDCTX wait for capsules (entry 59), an ENDCTX of a running context makes
no capsule (entry 60), a fatal stop's capsule waits for VF 0 (entry 67), and how the halt line reaches the raising core (entry 70). -/
def Obligations.StopsEndsAndCapsules : Prop :=
  (∀ (s : State) (c skid : Nat) (p : Stop), s.stop = some p → c < coreCount s →
    let bound := if c / 64 = p.core / 64 then 24 else 64
    (s.cycle < p.cycle + min skid bound → exec (.haltLineArrive c skid) s = .next s) ∧
    (p.cycle + min skid bound ≤ s.cycle → c ∉ p.arrived →
      ∃ t q, exec (.haltLineArrive c skid) s = .next t ∧ t.stop = some q ∧ c ∈ q.arrived ∧ t.at_ = none ∧
        (Machine.core t c).rcd.off = true ∧ (Machine.core t c).c.slots = [] ∧
        ∀ l f, laneFrame t c l = some f → f.clause = none ∧ f.offer = none)) ∧
  (∀ (s : State) (k : Nat), mastUp s k = true → (Machine.mast s k).mode = .u →
    exec (.contextResume (.mast k)) s = .next (mastTrap s k 2 0) ∧ exec (.contextEnd (.mast k)) s = .next (mastTrap s k 2 0)) ∧
  (∀ (s : State) (k : Nat), mastUp s k = true → (Machine.mast s k).mode ≠ .u →
    (s.stop = none → exec (.contextResume (.mast k)) s = .next s) ∧
    (∀ p, s.stop = some p → p.dbg = true → exec (.contextResume (.mast k)) s = .next s) ∧
    (∀ p, s.stop = some p → p.blocked = false → p.lostFull = [] → s.capDue = [] → p.dbg = false →
      exec (.contextResume (.mast k)) s = .next (resume s p)) ∧
    (s.capDue ≠ [] → exec (.contextResume (.mast k)) s = .next s ∧ exec (.contextEnd (.mast k)) s = .next s) ∧
    (s.slice = none → exec (.contextEnd (.mast k)) s = .next s) ∧
    (s.slice.isSome = true → s.capDue = [] →
      (s.stop.isSome = true → exec (.contextEnd (.mast k)) s = .next (endStopped s true 0)) ∧
      (s.stop = none → exec (.contextEnd (.mast k)) s = .next (endStopped (raiseBare s 0 0 0 0) false 0)))) ∧
  (∀ (s : State) (m : MbxMaster), MailboxFree s m →
    (∀ p, s.stop = some p → p.blocked = false → p.lostFull = [] → s.capDue = [] →
      let t := resume (begun s [(0, 1)]) p
      exec (.contextResume (.mailbox m)) s = .next (responded t [] 0 [(0, mhalt t)])) ∧
    (s.slice.isSome = true → s.capDue = [] → s.stop = none →
      let t := endStopped (raiseBare (begun s [(0, 2)]) 0 0 0 0) false 0
      exec (.contextEnd (.mailbox m)) s = .next (responded t [] 0 [(0, mhalt t)]))) ∧
  (∀ (s : State),
    (s.capDue = [] → exec .capsuleAssembly s = .next s) ∧
    (∀ d r, s.capDue = d :: r →
      (capsuleReady s d = false → exec .capsuleAssembly s = .next s) ∧
      (capsuleReady s d = true →
        (∀ i, slotIn s 1 = some i → exec .capsuleAssembly s = .next (capsuleDone (holdCapsule s d i) d)) ∧
        (∀ i, slotIn s 1 = none → slotIn s 0 = some i → exec .capsuleAssembly s = .next (beginCapsule s d i)) ∧
        (slotIn s 1 = none → slotIn s 0 = none →
          exec .capsuleAssembly s = .next (capsuleDone (dropCapsule s d) d)))))

/-! ## The package: reset, power, links (chapters 18 and 22) -/

/-- R330, R331, R333, R430, R431: reset and boot, die states, power and heat. Boot fails with code 1, 2 or the manifest's own; a block is
checked against its digest before it is used, after so many retries; the arbiter's caps hold the package below 5,600 W. The Mast of a die's
core 0 starts first and starts the others. The model's choices: what a package reset leaves, the order of the manifest's checks, when the
other Masts start and how long the boot window of a die is open (entry 28), how long an overdraw lasts (entry 29), that a supply fault fences
its die (entry 63), what a power loss leaves and what a function-level reset does (entry 65). -/
def Obligations.ResetAndPowerEvents : Prop :=
  (∀ (s : State) (b : Bool),
    let s1 := { afterReset s with dieState := (List.replicate 16 0).set 0 1 }
    exec (.packageReset false b) s = .next (failBoot s1 1 0) ∧ exec (.packageReset true false) s = .next (failBoot s1 2 0) ∧
    (manifestCode s1 ≠ 0 → exec (.packageReset true true) s = .next (failBoot s1 (manifestCode s1) 0)) ∧
    (manifestCode s1 = 0 → exec (.packageReset true true) s = .next (acceptManifest s1) ∧
      (Machine.mast (acceptManifest s1) 0).mode = .m ∧
      (Machine.mast (acceptManifest s1) 0).pc = BitVec.ofNat 64 (manifestField s1 16 8) ∧
      ∀ c, c ≠ 0 → mastUp (acceptManifest s1) c = false)) ∧
  (∀ (s : State) (blk : Nat), s.boot.ready = true → blk < s.boot.manifest.length / 48 → blk ∉ s.boot.checked →
    windowOpen s = true → dieGone s 0 = false → (blockFrames blk).any (fun k => (frame s k).valid || (frame s k).busy) = false →
    let b := busRead s (s.boot.base + 65536 * blk) 65536
    let good := digestBytes (Config.sha384 b) = (s.boot.manifest.drop (48 * blk)).take 48
    (3 ≤ look s.boot.retries (2 * blk) 0 → exec (.bootBlockFetch blk false) s = .next (failBoot s 8 blk)) ∧
    (good → exec (.bootBlockFetch blk true) s =
      .next { placeBlock16 s blk b with boot := { s.boot with checked := blk :: s.boot.checked } }) ∧
    (¬good → 1 ≤ look s.boot.retries (2 * blk + 1) 0 → exec (.bootBlockFetch blk true) s = .next (failBoot s 7 blk))) ∧
  (∀ (s : State) (d st : Nat), d < dies s →
    (mayEnterState s d st = true →
      ∃ t, exec (.dieStateChange d st) s = .next t ∧ t.dieState = s.dieState.set d st ∧ t.mem = s.mem ∧
        (st = 4 → lookup t.booting d = none ∧ t.cores = s.cores) ∧
        (st = 2 → s.dieState.getD d 0 = 0 → lookup t.booting d = some 1 ∧ t = { modMast s (64 * d)
            (fun m => { m with mode := .m, pc := BitVec.ofNat 64 s.boot.entry }) with dieState := t.dieState, booting := t.booting }) ∧
        (st ≠ 4 → s.dieState.getD d 0 ≠ 0 → lookup s.booting d = some 1 ∨ s.dieState.getD d 0 = 6 →
          lookup t.booting d = some 2 ∧ ∀ i < 64, i ≠ 0 ∨ s.dieState.getD d 0 = 6 → (Machine.mast t (64 * d + i)).mode = .m ∧
            (Machine.mast t (64 * d + i)).pc = BitVec.ofNat 64 s.boot.entry) ∧
        (st = 3 → s.dieState.getD d 0 = 2 → lookup s.booting d ≠ some 1 → t = { s with dieState := s.dieState.set d st })) ∧
    (mayEnterState s d st = false → exec (.dieStateChange d st) s = .next s)) ∧
  (∀ (s : State) (dc sc : List Nat), dc.length = dies s → sc.length = dies s → s.cycle % millisecond = 0 →
    dc.foldl (· + ·) 0 * 10 + sc.foldl (· + ·) 0 ≤ 56000 →
    ∃ t, exec (.powerArbiterTick dc sc) s = .next t ∧ t.dieCap = dc ∧ t.stackCap = sc ∧ t.cores = s.cores ∧ t.mem = s.mem ∧
      (∀ d, (d, 0) ∈ s.vfNext → (d, 0) ∈ t.vfNext) ∧
      ∀ i < dies s, ((hcfgOf s i).getLsbD 31 = false → hcfgOf t i = hcfgOf s i) ∧
        ((hcfgOf s i).getLsbD 31 = true →
          hcfgOf t i = (hcfgOf s i &&& 0xFFFF0000) ||| BitVec.ofNat 32 (min 0xFFFF (sc.getD i 0 * 1024000 / 861696)))) ∧
  (∀ (s : State) (d t : Nat), lookup s.hotSince d = some t →
    (s.cycle < t + millisecond → exec (.thermalCooldown d) s = .next s) ∧
    (t + millisecond ≤ s.cycle → exec (.thermalCooldown d) s = .next { s with hotSince := drop s.hotSince d })) ∧
  (∀ (s : State) (d : Nat), ∃ t, exec .packageOverdraw s = .next t ∧ (d < dies s → (d, 0) ∈ t.vfNext) ∧ t = { s with vfNext := t.vfNext }) ∧
  (∀ (s : State) (d : Nat), d < dies s → exec (.coolantLoss d) s = .next (fatalStop s d 1)) ∧
  (∀ (s : State) (d : Nat), d < dies s → s.dieState.getD d 0 ≠ 5 → s.dieState.getD d 0 ≠ 6 → s.capDue = [] →
    exec (.supplyFault d) s = .next (fenceDie (powerStop s d 2 0) d)) ∧
  (∀ (s : State), ∃ t, exec .powerLoss s = .next t ∧ t.bootaddr = s.bootaddr ∧ t.summaries = s.summaries ∧ t.capSeq = s.capSeq ∧
    t.powered = false ∧ t.cores = [] ∧ t.stop = none ∧ t.capsules = [⟨0, 0, 0⟩, ⟨0, 0, 0⟩] ∧
    (∀ e, e ∈ t.mem ↔ e ∈ s.mem ∧ 2 ^ 40 ≤ e.1 ∧ (e.1 < Config.frameBase ∨ Config.hostBase ≤ e.1))) ∧
  (∀ (s : State) (fn : Nat), exec (.functionLevelReset fn) s = .next s)

/-- R331, R424, R426, R427 and R428: links, ports and dies. A retry changes nothing; a lane that no spare replaces halves its link and is
counted at both ends; a link that stays down, or a port, is noted with its cycle; a die cut off is lost; command 0x2B fences
its die. The model's choices: where a halved link is counted (entry 30), that a lost die answers as a die in reset does (entry 33), and when
command 0x2B answers (entry 63). -/
def Obligations.LinkAndDieEvents : Prop :=
  (∀ (s : State) (a b : Nat), exec (.flitCrcError a b) s = .next s ∧ exec (.linkLaneFailure a b true) s = .next s ∧
    exec (.linkDown a b true) s = .next s ∧
    exec (.linkComesBack a b) s = .next { s with links := drop s.links (linkKey a b) } ∧
    (adjacent s a b = true →
      (lookup s.links (linkKey a b) = none →
        exec (.linkLaneFailure a b false) s =
          .next (countRas (countRas { s with links := put s.links (linkKey a b) ⟨1, s.cycle⟩ } a) b) ∧
        exec (.linkDown a b false) s = .next { s with links := put s.links (linkKey a b) ⟨2, s.cycle⟩ }) ∧
      (∀ x, lookup s.links (linkKey a b) = some x → x.st = 2 → exec (.linkDown a b false) s = .next s))) ∧
  (∀ (s : State) (p : Nat), p < 36 →
    (lookup s.ports p = none → exec (.fabricPortFailure p) s = .next (replayChunks { s with ports := put s.ports p s.cycle })) ∧
    (∀ t, lookup s.ports p = some t →
      (s.cycle < t + millisecond → exec (.portRemovedFromTree p) s = .next s) ∧
      (t + millisecond ≤ s.cycle →
        exec (.portRemovedFromTree p) s = .next { s with portsOut := (p :: s.portsOut).dedup }))) ∧
  (∀ (s : State) (d : Nat), d < dies s → d ∉ s.lostDies → s.dieState.getD d 0 ≠ 0 →
    (cutOff s d = false → exec (.dieLost d) s = .next s) ∧
    (cutOff s d = true → s.slice = none → s.stop = none →
      exec (.dieLost d) s = .next { s with
        dieState := s.dieState.set d 0, lostDies := d :: s.lostDies, booting := drop s.booting d
        hwrites := s.hwrites.filter (fun w => pageStack w.page != d) })) ∧
  (∀ (s : State) (m : MbxMaster) (d : Nat), MailboxFree s m → d < dies s →
    (s.dieState.getD d 0 = 6 → ∀ b,
      exec (.warmResetDie m d b) s = .next (responded s [(0, argOf (d + bnat b * 2 ^ 8))] 0 [])) ∧
    (s.dieState.getD d 0 ≠ 5 → s.dieState.getD d 0 ≠ 6 → s.capDue = [] →
      exec (.warmResetDie m d true) s = .next (pendingAs (fenceDie (begun s [(0, argOf (d + 2 ^ 8))]) d) m 0x2B) ∧
      (s.wgs.any (fun w => decide (dieOf w.core = d)) = true →
        exec (.warmResetDie m d false) s = .next (responded s [(0, argOf d)] 2 [])) ∧
      (s.wgs.any (fun w => decide (dieOf w.core = d)) = false →
        exec (.warmResetDie m d false) s = .next (pendingAs (fenceDie (begun s [(0, argOf d)]) d) m 0x2B))))
end

