-- ==== Sys2Proof/Laws/Exec.lean ====
section
/-!
SUPPORT. Laws/Exec.lean: what `exec` does with each constructor: it calls that instruction's meaning.
-/
namespace Sys2Proof.Machine
open Sys2Proof

@[simp] theorem exec_addS32 d b a (s : State) : exec (.addS32 d b a) s = execAddS32 d b a s := rfl
@[simp] theorem exec_addS32Sat d b a (s : State) : exec (.addS32Sat d b a) s = execAddS32Sat d b a s := rfl
@[simp] theorem exec_addZ32Sat d b a (s : State) : exec (.addZ32Sat d b a) s = execAddZ32Sat d b a s := rfl
@[simp] theorem exec_subS32 d b a (s : State) : exec (.subS32 d b a) s = execSubS32 d b a s := rfl
@[simp] theorem exec_subS32Sat d b a (s : State) : exec (.subS32Sat d b a) s = execSubS32Sat d b a s := rfl
@[simp] theorem exec_subZ32Sat d b a (s : State) : exec (.subZ32Sat d b a) s = execSubZ32Sat d b a s := rfl
@[simp] theorem exec_mulS32 d b a (s : State) : exec (.mulS32 d b a) s = execMulS32 d b a s := rfl
@[simp] theorem exec_mulhiS32 d b a (s : State) : exec (.mulhiS32 d b a) s = execMulhiS32 d b a s := rfl
@[simp] theorem exec_mulhiZ32 d b a (s : State) : exec (.mulhiZ32 d b a) s = execMulhiZ32 d b a s := rfl
@[simp] theorem exec_minS32 d b a (s : State) : exec (.minS32 d b a) s = execMinS32 d b a s := rfl
@[simp] theorem exec_maxS32 d b a (s : State) : exec (.maxS32 d b a) s = execMaxS32 d b a s := rfl
@[simp] theorem exec_minZ32 d b a (s : State) : exec (.minZ32 d b a) s = execMinZ32 d b a s := rfl
@[simp] theorem exec_maxZ32 d b a (s : State) : exec (.maxZ32 d b a) s = execMaxZ32 d b a s := rfl
@[simp] theorem exec_absS32 d a (s : State) : exec (.absS32 d a) s = execAbsS32 d a s := rfl
@[simp] theorem exec_negS32 d a (s : State) : exec (.negS32 d a) s = execNegS32 d a s := rfl
@[simp] theorem exec_movB32 d a (s : State) : exec (.movB32 d a) s = execMovB32 d a s := rfl
@[simp] theorem exec_andB32 d b a (s : State) : exec (.andB32 d b a) s = execAndB32 d b a s := rfl
@[simp] theorem exec_orB32 d b a (s : State) : exec (.orB32 d b a) s = execOrB32 d b a s := rfl
@[simp] theorem exec_xorB32 d b a (s : State) : exec (.xorB32 d b a) s = execXorB32 d b a s := rfl
@[simp] theorem exec_andnB32 d b a (s : State) : exec (.andnB32 d b a) s = execAndnB32 d b a s := rfl
@[simp] theorem exec_notB32 d a (s : State) : exec (.notB32 d a) s = execNotB32 d a s := rfl
@[simp] theorem exec_addB64 d b a (s : State) : exec (.addB64 d b a) s = execAddB64 d b a s := rfl
@[simp] theorem exec_subB64 d b a (s : State) : exec (.subB64 d b a) s = execSubB64 d b a s := rfl
@[simp] theorem exec_mulwS32 d b a (s : State) : exec (.mulwS32 d b a) s = execMulwS32 d b a s := rfl
@[simp] theorem exec_mulwZ32 d b a (s : State) : exec (.mulwZ32 d b a) s = execMulwZ32 d b a s := rfl
@[simp] theorem exec_divS32 d b a (s : State) : exec (.divS32 d b a) s = execDivS32 d b a s := rfl
@[simp] theorem exec_divZ32 d b a (s : State) : exec (.divZ32 d b a) s = execDivZ32 d b a s := rfl
@[simp] theorem exec_remS32 d b a (s : State) : exec (.remS32 d b a) s = execRemS32 d b a s := rfl
@[simp] theorem exec_remZ32 d b a (s : State) : exec (.remZ32 d b a) s = execRemZ32 d b a s := rfl
@[simp] theorem exec_shlB32 d b a (s : State) : exec (.shlB32 d b a) s = execShlB32 d b a s := rfl
@[simp] theorem exec_shrZ32 d b a (s : State) : exec (.shrZ32 d b a) s = execShrZ32 d b a s := rfl
@[simp] theorem exec_shrS32 d b a (s : State) : exec (.shrS32 d b a) s = execShrS32 d b a s := rfl
@[simp] theorem exec_rolB32 d b a (s : State) : exec (.rolB32 d b a) s = execRolB32 d b a s := rfl
@[simp] theorem exec_shlB64 d b a (s : State) : exec (.shlB64 d b a) s = execShlB64 d b a s := rfl
@[simp] theorem exec_shrZ64 d b a (s : State) : exec (.shrZ64 d b a) s = execShrZ64 d b a s := rfl
@[simp] theorem exec_shrS64 d b a (s : State) : exec (.shrS64 d b a) s = execShrS64 d b a s := rfl
@[simp] theorem exec_popcB32 d a (s : State) : exec (.popcB32 d a) s = execPopcB32 d a s := rfl
@[simp] theorem exec_clzB32 d a (s : State) : exec (.clzB32 d a) s = execClzB32 d a s := rfl
@[simp] theorem exec_ctzB32 d a (s : State) : exec (.ctzB32 d a) s = execCtzB32 d a s := rfl
@[simp] theorem exec_brevB32 d a (s : State) : exec (.brevB32 d a) s = execBrevB32 d a s := rfl
@[simp] theorem exec_bfxS32 d b a (s : State) : exec (.bfxS32 d b a) s = execBfxS32 d b a s := rfl
@[simp] theorem exec_bfxZ32 d b a (s : State) : exec (.bfxZ32 d b a) s = execBfxZ32 d b a s := rfl
@[simp] theorem exec_isetEqB32 d b a (s : State) : exec (.isetEqB32 d b a) s = execIsetEqB32 d b a s := rfl
@[simp] theorem exec_isetNeB32 d b a (s : State) : exec (.isetNeB32 d b a) s = execIsetNeB32 d b a s := rfl
@[simp] theorem exec_isetLtS32 d b a (s : State) : exec (.isetLtS32 d b a) s = execIsetLtS32 d b a s := rfl
@[simp] theorem exec_isetLeS32 d b a (s : State) : exec (.isetLeS32 d b a) s = execIsetLeS32 d b a s := rfl
@[simp] theorem exec_isetGtS32 d b a (s : State) : exec (.isetGtS32 d b a) s = execIsetGtS32 d b a s := rfl
@[simp] theorem exec_isetGeS32 d b a (s : State) : exec (.isetGeS32 d b a) s = execIsetGeS32 d b a s := rfl
@[simp] theorem exec_isetLtZ32 d b a (s : State) : exec (.isetLtZ32 d b a) s = execIsetLtZ32 d b a s := rfl
@[simp] theorem exec_isetLeZ32 d b a (s : State) : exec (.isetLeZ32 d b a) s = execIsetLeZ32 d b a s := rfl
@[simp] theorem exec_isetGtZ32 d b a (s : State) : exec (.isetGtZ32 d b a) s = execIsetGtZ32 d b a s := rfl
@[simp] theorem exec_isetGeZ32 d b a (s : State) : exec (.isetGeZ32 d b a) s = execIsetGeZ32 d b a s := rfl
@[simp] theorem exec_selB32 d b a (s : State) : exec (.selB32 d b a) s = execSelB32 d b a s := rfl
@[simp] theorem exec_faddF32 m d b a (s : State) : exec (.faddF32 m d b a) s = execFaddF32 m d b a s := rfl
@[simp] theorem exec_fsubF32 m d b a (s : State) : exec (.fsubF32 m d b a) s = execFsubF32 m d b a s := rfl
@[simp] theorem exec_fmulF32 m d b a (s : State) : exec (.fmulF32 m d b a) s = execFmulF32 m d b a s := rfl
@[simp] theorem exec_faddF16 m d b a (s : State) : exec (.faddF16 m d b a) s = execFaddF16 m d b a s := rfl
@[simp] theorem exec_fsubF16 m d b a (s : State) : exec (.fsubF16 m d b a) s = execFsubF16 m d b a s := rfl
@[simp] theorem exec_fmulF16 m d b a (s : State) : exec (.fmulF16 m d b a) s = execFmulF16 m d b a s := rfl
@[simp] theorem exec_fminF32 d b a (s : State) : exec (.fminF32 d b a) s = execFminF32 d b a s := rfl
@[simp] theorem exec_fmaxF32 d b a (s : State) : exec (.fmaxF32 d b a) s = execFmaxF32 d b a s := rfl
@[simp] theorem exec_fminF16 d b a (s : State) : exec (.fminF16 d b a) s = execFminF16 d b a s := rfl
@[simp] theorem exec_fmaxF16 d b a (s : State) : exec (.fmaxF16 d b a) s = execFmaxF16 d b a s := rfl
@[simp] theorem exec_fabsF32 d a (s : State) : exec (.fabsF32 d a) s = execFabsF32 d a s := rfl
@[simp] theorem exec_fnegF32 d a (s : State) : exec (.fnegF32 d a) s = execFnegF32 d a s := rfl
@[simp] theorem exec_fabsF16 d a (s : State) : exec (.fabsF16 d a) s = execFabsF16 d a s := rfl
@[simp] theorem exec_fnegF16 d a (s : State) : exec (.fnegF16 d a) s = execFnegF16 d a s := rfl
@[simp] theorem exec_fsetF32 c d b a (s : State) : exec (.fsetF32 c d b a) s = execFsetF32 c d b a s := rfl
@[simp] theorem exec_fsetF16 c d b a (s : State) : exec (.fsetF16 c d b a) s = execFsetF16 c d b a s := rfl
@[simp] theorem exec_frndF32 m d a (s : State) : exec (.frndF32 m d a) s = execFrndF32 m d a s := rfl
@[simp] theorem exec_frndF16 m d a (s : State) : exec (.frndF16 m d a) s = execFrndF16 m d a s := rfl
@[simp] theorem exec_faddBf16x2 m d b a (s : State) : exec (.faddBf16x2 m d b a) s = execFaddBf16x2 m d b a s := rfl
@[simp] theorem exec_fmulBf16x2 m d b a (s : State) : exec (.fmulBf16x2 m d b a) s = execFmulBf16x2 m d b a s := rfl
@[simp] theorem exec_faddF16x2 m d b a (s : State) : exec (.faddF16x2 m d b a) s = execFaddF16x2 m d b a s := rfl
@[simp] theorem exec_fmulF16x2 m d b a (s : State) : exec (.fmulF16x2 m d b a) s = execFmulF16x2 m d b a s := rfl
@[simp] theorem exec_fminBf16x2 d b a (s : State) : exec (.fminBf16x2 d b a) s = execFminBf16x2 d b a s := rfl
@[simp] theorem exec_fmaxBf16x2 d b a (s : State) : exec (.fmaxBf16x2 d b a) s = execFmaxBf16x2 d b a s := rfl
@[simp] theorem exec_fminF16x2 d b a (s : State) : exec (.fminF16x2 d b a) s = execFminF16x2 d b a s := rfl
@[simp] theorem exec_fmaxF16x2 d b a (s : State) : exec (.fmaxF16x2 d b a) s = execFmaxF16x2 d b a s := rfl
@[simp] theorem exec_cvtF16F32 m d a (s : State) : exec (.cvtF16F32 m d a) s = execCvtF16F32 m d a s := rfl
@[simp] theorem exec_cvtBf16F32 m d a (s : State) : exec (.cvtBf16F32 m d a) s = execCvtBf16F32 m d a s := rfl
@[simp] theorem exec_cvtBf16F16 m d a (s : State) : exec (.cvtBf16F16 m d a) s = execCvtBf16F16 m d a s := rfl
@[simp] theorem exec_cvtF16Bf16 m d a (s : State) : exec (.cvtF16Bf16 m d a) s = execCvtF16Bf16 m d a s := rfl
@[simp] theorem exec_cvtF32F16 d a (s : State) : exec (.cvtF32F16 d a) s = execCvtF32F16 d a s := rfl
@[simp] theorem exec_cvtF32Bf16 d a (s : State) : exec (.cvtF32Bf16 d a) s = execCvtF32Bf16 d a s := rfl
@[simp] theorem exec_packBf16x2F32 d b a (s : State) : exec (.packBf16x2F32 d b a) s = execPackBf16x2F32 d b a s := rfl
@[simp] theorem exec_packF16x2F32 d b a (s : State) : exec (.packF16x2F32 d b a) s = execPackF16x2F32 d b a s := rfl
@[simp] theorem exec_cvtIntF32 m d t a (s : State) : exec (.cvtIntF32 m d t a) s = execCvtIntF32 m d t a s := rfl
@[simp] theorem exec_cvtIntF16 m d t a (s : State) : exec (.cvtIntF16 m d t a) s = execCvtIntF16 m d t a s := rfl
@[simp] theorem exec_cvtIntBf16 m d t a (s : State) : exec (.cvtIntBf16 m d t a) s = execCvtIntBf16 m d t a s := rfl
@[simp] theorem exec_cvtF32Int m d t a (s : State) : exec (.cvtF32Int m d t a) s = execCvtF32Int m d t a s := rfl
@[simp] theorem exec_cvtF16Int m d t a (s : State) : exec (.cvtF16Int m d t a) s = execCvtF16Int m d t a s := rfl
@[simp] theorem exec_cvtBf16Int m d t a (s : State) : exec (.cvtBf16Int m d t a) s = execCvtBf16Int m d t a s := rfl
@[simp] theorem exec_rcpF32 d a (s : State) : exec (.rcpF32 d a) s = execRcpF32 d a s := rfl
@[simp] theorem exec_rsqF32 d a (s : State) : exec (.rsqF32 d a) s = execRsqF32 d a s := rfl
@[simp] theorem exec_sqrtF32 d a (s : State) : exec (.sqrtF32 d a) s = execSqrtF32 d a s := rfl
@[simp] theorem exec_ex2F32 d a (s : State) : exec (.ex2F32 d a) s = execEx2F32 d a s := rfl
@[simp] theorem exec_lg2F32 d a (s : State) : exec (.lg2F32 d a) s = execLg2F32 d a s := rfl
@[simp] theorem exec_sinF32 d a (s : State) : exec (.sinF32 d a) s = execSinF32 d a s := rfl
@[simp] theorem exec_cosF32 d a (s : State) : exec (.cosF32 d a) s = execCosF32 d a s := rfl
@[simp] theorem exec_rcpF16 d a (s : State) : exec (.rcpF16 d a) s = execRcpF16 d a s := rfl
@[simp] theorem exec_rsqF16 d a (s : State) : exec (.rsqF16 d a) s = execRsqF16 d a s := rfl
@[simp] theorem exec_sqrtF16 d a (s : State) : exec (.sqrtF16 d a) s = execSqrtF16 d a s := rfl
@[simp] theorem exec_ex2F16 d a (s : State) : exec (.ex2F16 d a) s = execEx2F16 d a s := rfl
@[simp] theorem exec_lg2F16 d a (s : State) : exec (.lg2F16 d a) s = execLg2F16 d a s := rfl
@[simp] theorem exec_sinF16 d a (s : State) : exec (.sinF16 d a) s = execSinF16 d a s := rfl
@[simp] theorem exec_cosF16 d a (s : State) : exec (.cosF16 d a) s = execCosF16 d a s := rfl
@[simp] theorem exec_laneSelB32 d b a (s : State) : exec (.laneSelB32 d b a) s = execLaneSelB32 d b a s := rfl
@[simp] theorem exec_voteAny d a (s : State) : exec (.voteAny d a) s = execVoteAny d a s := rfl
@[simp] theorem exec_voteAll d a (s : State) : exec (.voteAll d a) s = execVoteAll d a s := rfl
@[simp] theorem exec_voteBal d a (s : State) : exec (.voteBal d a) s = execVoteBal d a s := rfl
@[simp] theorem exec_voteUni d a (s : State) : exec (.voteUni d a) s = execVoteUni d a s := rfl
@[simp] theorem exec_elect d (s : State) : exec (.elect d) s = execElect d s := rfl
@[simp] theorem exec_sreg d n (s : State) : exec (.sreg d n) s = execSreg d n s := rfl
@[simp] theorem exec_msig d b a (s : State) : exec (.msig d b a) s = execMsig d b a s := rfl
@[simp] theorem exec_mark a (s : State) : exec (.mark a) s = execMark a s := rfl
@[simp] theorem exec_rsvSet d b a (s : State) : exec (.rsvSet d b a) s = execRsvSet d b a s := rfl
@[simp] theorem exec_rsvFree a (s : State) : exec (.rsvFree a) s = execRsvFree a s := rfl
@[simp] theorem exec_rsvGet d a (s : State) : exec (.rsvGet d a) s = execRsvGet d a s := rfl
@[simp] theorem exec_mxld f b a (s : State) : exec (.mxld f b a) s = execMxld f b a s := rfl
@[simp] theorem exec_mmaBf16 f a (s : State) : exec (.mmaBf16 f a) s = execMmaBf16 f a s := rfl
@[simp] theorem exec_mmaF16 f a (s : State) : exec (.mmaF16 f a) s = execMmaF16 f a s := rfl
@[simp] theorem exec_mmaK f a (s : State) : exec (.mmaK f a) s = execMmaK f a s := rfl
@[simp] theorem exec_mmaKOl f b a (s : State) : exec (.mmaKOl f b a) s = execMmaKOl f b a s := rfl
@[simp] theorem exec_mmaBf16G f a (s : State) : exec (.mmaBf16G f a) s = execMmaBf16G f a s := rfl
@[simp] theorem exec_mmaF16G f a (s : State) : exec (.mmaF16G f a) s = execMmaF16G f a s := rfl
@[simp] theorem exec_mmaKG f a (s : State) : exec (.mmaKG f a) s = execMmaKG f a s := rfl
@[simp] theorem exec_mmaKOlG f b a (s : State) : exec (.mmaKOlG f b a) s = execMmaKOlG f b a s := rfl
@[simp] theorem exec_gangSet a (s : State) : exec (.gangSet a) s = execGangSet a s := rfl
@[simp] theorem exec_gangGet d (s : State) : exec (.gangGet d) s = execGangGet d s := rfl
@[simp] theorem exec_accZero a (s : State) : exec (.accZero a) s = execAccZero a s := rfl
@[simp] theorem exec_accLd f b a (s : State) : exec (.accLd f b a) s = execAccLd f b a s := rfl
@[simp] theorem exec_accSt f b a (s : State) : exec (.accSt f b a) s = execAccSt f b a s := rfl
@[simp] theorem exec_accRd d f a (s : State) : exec (.accRd d f a) s = execAccRd d f a s := rfl
@[simp] theorem exec_accFree a (s : State) : exec (.accFree a) s = execAccFree a s := rfl
@[simp] theorem exec_groveVt f b a (s : State) : exec (.groveVt f b a) s = execGroveVt f b a s := rfl
@[simp] theorem exec_groveSwap f a (s : State) : exec (.groveSwap f a) s = execGroveSwap f a s := rfl
@[simp] theorem exec_groveRd d f a (s : State) : exec (.groveRd d f a) s = execGroveRd d f a s := rfl
@[simp] theorem exec_atmAddZ32 q d c f b a (s : State) : exec (.atmAddZ32 q d c f b a) s = execAtmAddZ32 q d c f b a s := rfl
@[simp] theorem exec_atmAddF32 q d c f b a (s : State) : exec (.atmAddF32 q d c f b a) s = execAtmAddF32 q d c f b a s := rfl
@[simp] theorem exec_atmMinS32 q d c f b a (s : State) : exec (.atmMinS32 q d c f b a) s = execAtmMinS32 q d c f b a s := rfl
@[simp] theorem exec_atmMaxS32 q d c f b a (s : State) : exec (.atmMaxS32 q d c f b a) s = execAtmMaxS32 q d c f b a s := rfl
@[simp] theorem exec_atmMinZ32 q d c f b a (s : State) : exec (.atmMinZ32 q d c f b a) s = execAtmMinZ32 q d c f b a s := rfl
@[simp] theorem exec_atmMaxZ32 q d c f b a (s : State) : exec (.atmMaxZ32 q d c f b a) s = execAtmMaxZ32 q d c f b a s := rfl
@[simp] theorem exec_atmAndB32 q d c f b a (s : State) : exec (.atmAndB32 q d c f b a) s = execAtmAndB32 q d c f b a s := rfl
@[simp] theorem exec_atmOrB32 q d c f b a (s : State) : exec (.atmOrB32 q d c f b a) s = execAtmOrB32 q d c f b a s := rfl
@[simp] theorem exec_atmXorB32 q d c f b a (s : State) : exec (.atmXorB32 q d c f b a) s = execAtmXorB32 q d c f b a s := rfl
@[simp] theorem exec_atmExchB32 q d c f b a (s : State) : exec (.atmExchB32 q d c f b a) s = execAtmExchB32 q d c f b a s := rfl
@[simp] theorem exec_atmCasB32 q d c f b a (s : State) : exec (.atmCasB32 q d c f b a) s = execAtmCasB32 q d c f b a s := rfl
@[simp] theorem exec_ldAcqB32 d c f a (s : State) : exec (.ldAcqB32 d c f a) s = execLdAcqB32 d c f a s := rfl
@[simp] theorem exec_ldAcqB64 d c f a (s : State) : exec (.ldAcqB64 d c f a) s = execLdAcqB64 d c f a s := rfl
@[simp] theorem exec_stRelB32 c f b a (s : State) : exec (.stRelB32 c f b a) s = execStRelB32 c f b a s := rfl
@[simp] theorem exec_stRelB64 c f b a (s : State) : exec (.stRelB64 c f b a) s = execStRelB64 c f b a s := rfl
@[simp] theorem exec_monWaitEq d c f b a (s : State) : exec (.monWaitEq d c f b a) s = execMonWaitEq d c f b a s := rfl
@[simp] theorem exec_monWaitNe d c f b a (s : State) : exec (.monWaitNe d c f b a) s = execMonWaitNe d c f b a s := rfl
@[simp] theorem exec_monWaitGez d c f b a (s : State) : exec (.monWaitGez d c f b a) s = execMonWaitGez d c f b a s := rfl
@[simp] theorem exec_arriveInit d f b a (s : State) : exec (.arriveInit d f b a) s = execArriveInit d f b a s := rfl
@[simp] theorem exec_arriveAdd d f b a (s : State) : exec (.arriveAdd d f b a) s = execArriveAdd d f b a s := rfl
@[simp] theorem exec_arriveWait d c f b a (s : State) : exec (.arriveWait d c f b a) s = execArriveWait d c f b a s := rfl
@[simp] theorem exec_fence c (s : State) : exec (.fence c) s = execFence c s := rfl
@[simp] theorem exec_fenceX c r p (s : State) : exec (.fenceX c r p) s = execFenceX c r p s := rfl
@[simp] theorem exec_hint d f b a (s : State) : exec (.hint d f b a) s = execHint d f b a s := rfl
@[simp] theorem exec_pgset d f b a (s : State) : exec (.pgset d f b a) s = execPgset d f b a s := rfl
@[simp] theorem exec_fmaF32 d c b a (s : State) : exec (.fmaF32 d c b a) s = execFmaF32 d c b a s := rfl
@[simp] theorem exec_fmsF32 d c b a (s : State) : exec (.fmsF32 d c b a) s = execFmsF32 d c b a s := rfl
@[simp] theorem exec_fmaF16 d c b a (s : State) : exec (.fmaF16 d c b a) s = execFmaF16 d c b a s := rfl
@[simp] theorem exec_fmaBf16x2 d c b a (s : State) : exec (.fmaBf16x2 d c b a) s = execFmaBf16x2 d c b a s := rfl
@[simp] theorem exec_fmaF16x2 d c b a (s : State) : exec (.fmaF16x2 d c b a) s = execFmaF16x2 d c b a s := rfl
@[simp] theorem exec_imadS32 d c b a (s : State) : exec (.imadS32 d c b a) s = execImadS32 d c b a s := rfl
@[simp] theorem exec_imadZ32 d c b a (s : State) : exec (.imadZ32 d c b a) s = execImadZ32 d c b a s := rfl
@[simp] theorem exec_shladd d c b a (s : State) : exec (.shladd d c b a) s = execShladd d c b a s := rfl
@[simp] theorem exec_addS32Imm d n a (s : State) : exec (.addS32Imm d n a) s = execAddS32Imm d n a s := rfl
@[simp] theorem exec_addS32SatImm d n a (s : State) : exec (.addS32SatImm d n a) s = execAddS32SatImm d n a s := rfl
@[simp] theorem exec_mulS32Imm d n a (s : State) : exec (.mulS32Imm d n a) s = execMulS32Imm d n a s := rfl
@[simp] theorem exec_andB32Imm d n a (s : State) : exec (.andB32Imm d n a) s = execAndB32Imm d n a s := rfl
@[simp] theorem exec_orB32Imm d n a (s : State) : exec (.orB32Imm d n a) s = execOrB32Imm d n a s := rfl
@[simp] theorem exec_xorB32Imm d n a (s : State) : exec (.xorB32Imm d n a) s = execXorB32Imm d n a s := rfl
@[simp] theorem exec_shlB32Imm d n a (s : State) : exec (.shlB32Imm d n a) s = execShlB32Imm d n a s := rfl
@[simp] theorem exec_shrZ32Imm d n a (s : State) : exec (.shrZ32Imm d n a) s = execShrZ32Imm d n a s := rfl
@[simp] theorem exec_shrS32Imm d n a (s : State) : exec (.shrS32Imm d n a) s = execShrS32Imm d n a s := rfl
@[simp] theorem exec_minS32Imm d n a (s : State) : exec (.minS32Imm d n a) s = execMinS32Imm d n a s := rfl
@[simp] theorem exec_maxS32Imm d n a (s : State) : exec (.maxS32Imm d n a) s = execMaxS32Imm d n a s := rfl
@[simp] theorem exec_movB32Imm d n (s : State) : exec (.movB32Imm d n) s = execMovB32Imm d n s := rfl
@[simp] theorem exec_adr d n (s : State) : exec (.adr d n) s = execAdr d n s := rfl
@[simp] theorem exec_isetEqB32Imm d n a (s : State) : exec (.isetEqB32Imm d n a) s = execIsetEqB32Imm d n a s := rfl
@[simp] theorem exec_isetNeB32Imm d n a (s : State) : exec (.isetNeB32Imm d n a) s = execIsetNeB32Imm d n a s := rfl
@[simp] theorem exec_isetLtS32Imm d n a (s : State) : exec (.isetLtS32Imm d n a) s = execIsetLtS32Imm d n a s := rfl
@[simp] theorem exec_isetLeS32Imm d n a (s : State) : exec (.isetLeS32Imm d n a) s = execIsetLeS32Imm d n a s := rfl
@[simp] theorem exec_isetGtS32Imm d n a (s : State) : exec (.isetGtS32Imm d n a) s = execIsetGtS32Imm d n a s := rfl
@[simp] theorem exec_isetGeS32Imm d n a (s : State) : exec (.isetGeS32Imm d n a) s = execIsetGeS32Imm d n a s := rfl
@[simp] theorem exec_isetLtZ32Imm d n a (s : State) : exec (.isetLtZ32Imm d n a) s = execIsetLtZ32Imm d n a s := rfl
@[simp] theorem exec_isetLeZ32Imm d n a (s : State) : exec (.isetLeZ32Imm d n a) s = execIsetLeZ32Imm d n a s := rfl
@[simp] theorem exec_isetGtZ32Imm d n a (s : State) : exec (.isetGtZ32Imm d n a) s = execIsetGtZ32Imm d n a s := rfl
@[simp] theorem exec_isetGeZ32Imm d n a (s : State) : exec (.isetGeZ32Imm d n a) s = execIsetGeZ32Imm d n a s := rfl
@[simp] theorem exec_ldS8 r f b x (s : State) : exec (.ldS8 r f b x) s = execLdS8 r f b x s := rfl
@[simp] theorem exec_ldZ8 r f b x (s : State) : exec (.ldZ8 r f b x) s = execLdZ8 r f b x s := rfl
@[simp] theorem exec_ldS16 r f b x (s : State) : exec (.ldS16 r f b x) s = execLdS16 r f b x s := rfl
@[simp] theorem exec_ldZ16 r f b x (s : State) : exec (.ldZ16 r f b x) s = execLdZ16 r f b x s := rfl
@[simp] theorem exec_ldB32 r f b x (s : State) : exec (.ldB32 r f b x) s = execLdB32 r f b x s := rfl
@[simp] theorem exec_ldB64 r f b x (s : State) : exec (.ldB64 r f b x) s = execLdB64 r f b x s := rfl
@[simp] theorem exec_ldB128 r f b x (s : State) : exec (.ldB128 r f b x) s = execLdB128 r f b x s := rfl
@[simp] theorem exec_stB8 r f b x (s : State) : exec (.stB8 r f b x) s = execStB8 r f b x s := rfl
@[simp] theorem exec_stB16 r f b x (s : State) : exec (.stB16 r f b x) s = execStB16 r f b x s := rfl
@[simp] theorem exec_stB32 r f b x (s : State) : exec (.stB32 r f b x) s = execStB32 r f b x s := rfl
@[simp] theorem exec_stB64 r f b x (s : State) : exec (.stB64 r f b x) s = execStB64 r f b x s := rfl
@[simp] theorem exec_stB128 r f b x (s : State) : exec (.stB128 r f b x) s = execStB128 r f b x s := rfl
@[simp] theorem exec_ldsB32 r f b x (s : State) : exec (.ldsB32 r f b x) s = execLdsB32 r f b x s := rfl
@[simp] theorem exec_ldsB64 r f b x (s : State) : exec (.ldsB64 r f b x) s = execLdsB64 r f b x s := rfl
@[simp] theorem exec_ldsB128 r f b x (s : State) : exec (.ldsB128 r f b x) s = execLdsB128 r f b x s := rfl
@[simp] theorem exec_stsB32 r f b x (s : State) : exec (.stsB32 r f b x) s = execStsB32 r f b x s := rfl
@[simp] theorem exec_stsB64 r f b x (s : State) : exec (.stsB64 r f b x) s = execStsB64 r f b x s := rfl
@[simp] theorem exec_stsB128 r f b x (s : State) : exec (.stsB128 r f b x) s = execStsB128 r f b x s := rfl
@[simp] theorem exec_ldrB32 r f b x (s : State) : exec (.ldrB32 r f b x) s = execLdrB32 r f b x s := rfl
@[simp] theorem exec_ldrB64 r f b x (s : State) : exec (.ldrB64 r f b x) s = execLdrB64 r f b x s := rfl
@[simp] theorem exec_strB32 r f b x (s : State) : exec (.strB32 r f b x) s = execStrB32 r f b x s := rfl
@[simp] theorem exec_strB64 r f b x (s : State) : exec (.strB64 r f b x) s = execStrB64 r f b x s := rfl
@[simp] theorem exec_ldhB32 r f b x (s : State) : exec (.ldhB32 r f b x) s = execLdhB32 r f b x s := rfl
@[simp] theorem exec_ldhB64 r f b x (s : State) : exec (.ldhB64 r f b x) s = execLdhB64 r f b x s := rfl
@[simp] theorem exec_sthB32 r f b x (s : State) : exec (.sthB32 r f b x) s = execSthB32 r f b x s := rfl
@[simp] theorem exec_sthB64 r f b x (s : State) : exec (.sthB64 r f b x) s = execSthB64 r f b x s := rfl
@[simp] theorem exec_gatherB32 r f b x (s : State) : exec (.gatherB32 r f b x) s = execGatherB32 r f b x s := rfl
@[simp] theorem exec_xfer r f b x (s : State) : exec (.xfer r f b x) s = execXfer r f b x s := rfl
@[simp] theorem exec_coll r f b x (s : State) : exec (.coll r f b x) s = execColl r f b x s := rfl
@[simp] theorem exec_launch r f b x (s : State) : exec (.launch r f b x) s = execLaunch r f b x s := rfl
@[simp] theorem exec_groveRow r f b x (s : State) : exec (.groveRow r f b x) s = execGroveRow r f b x s := rfl
@[simp] theorem exec_bra n (s : State) : exec (.bra n) s = execBra n s := rfl
@[simp] theorem exec_brz n (s : State) : exec (.brz n) s = execBrz n s := rfl
@[simp] theorem exec_brnz n (s : State) : exec (.brnz n) s = execBrnz n s := rfl
@[simp] theorem exec_call n (s : State) : exec (.call n) s = execCall n s := rfl
@[simp] theorem exec_ret (s : State) : exec (.ret) s = execRet s := rfl
@[simp] theorem exec_endThread (s : State) : exec (.endThread) s = execEndThread s := rfl
@[simp] theorem exec_trap n (s : State) : exec (.trap n) s = execTrap n s := rfl
@[simp] theorem exec_syscall n (s : State) : exec (.syscall n) s = execSyscall n s := rfl
@[simp] theorem exec_brk n (s : State) : exec (.brk n) s = execBrk n s := rfl
@[simp] theorem exec_const n (s : State) : exec (.const n) s = execConst n s := rfl
@[simp] theorem exec_consthi n (s : State) : exec (.consthi n) s = execConsthi n s := rfl
@[simp] theorem exec_bundleTurn core lf (s : State) : exec (.bundleTurn core lf) s = execBundleTurn core lf s := rfl
@[simp] theorem exec_bundleAccept core slot (s : State) : exec (.bundleAccept core slot) s = execBundleAccept core slot s := rfl
@[simp] theorem exec_resultDeliver core op (s : State) : exec (.resultDeliver core op) s = execResultDeliver core op s := rfl
@[simp] theorem exec_workgroupFinish wg (s : State) : exec (.workgroupFinish wg) s = execWorkgroupFinish wg s := rfl
@[simp] theorem exec_clusterPlace (s : State) : exec (.clusterPlace) s = execClusterPlace s := rfl
@[simp] theorem exec_laneFrameMove core (s : State) : exec (.laneFrameMove core) s = execLaneFrameMove core s := rfl
@[simp] theorem exec_scratchFrameEmpty core frame (s : State) : exec (.scratchFrameEmpty core frame) s = execScratchFrameEmpty core frame s := rfl
@[simp] theorem exec_workgroupStart wg (s : State) : exec (.workgroupStart wg) s = execWorkgroupStart wg s := rfl
@[simp] theorem exec_translationWalk core req (s : State) : exec (.translationWalk core req) s = execTranslationWalk core req s := rfl
@[simp] theorem exec_translationExpiry core ctx vpn (s : State) : exec (.translationExpiry core ctx vpn) s = execTranslationExpiry core ctx vpn s := rfl
@[simp] theorem exec_frameAccess core req (s : State) : exec (.frameAccess core req) s = execFrameAccess core req s := rfl
@[simp] theorem exec_homeSliceAccess core req (s : State) : exec (.homeSliceAccess core req) s = execHomeSliceAccess core req s := rfl
@[simp] theorem exec_frameRemap seq (s : State) : exec (.frameRemap seq) s = execFrameRemap seq s := rfl
@[simp] theorem exec_placementDone seq (s : State) : exec (.placementDone seq) s = execPlacementDone seq s := rfl
@[simp] theorem exec_invalidation inv (s : State) : exec (.invalidation inv) s = execInvalidation inv s := rfl
@[simp] theorem exec_invalidationAck inv (s : State) : exec (.invalidationAck inv) s = execInvalidationAck inv s := rfl
@[simp] theorem exec_invalidationResend inv (s : State) : exec (.invalidationResend inv) s = execInvalidationResend inv s := rfl
@[simp] theorem exec_writeQueueDepart core req (s : State) : exec (.writeQueueDepart core req) s = execWriteQueueDepart core req s := rfl
@[simp] theorem exec_hbmWriteCharge wr (s : State) : exec (.hbmWriteCharge wr) s = execHbmWriteCharge wr s := rfl
@[simp] theorem exec_writeLaneDone stack chan crcOk (s : State) : exec (.writeLaneDone stack chan crcOk) s = execWriteLaneDone stack chan crcOk s := rfl
@[simp] theorem exec_windowBoundary vf junction (s : State) : exec (.windowBoundary vf junction) s = execWindowBoundary vf junction s := rfl
@[simp] theorem exec_codeSwitchBoundary stack chan writes dbi low (s : State) : exec (.codeSwitchBoundary stack chan writes dbi low) s = execCodeSwitchBoundary stack chan writes dbi low s := rfl
@[simp] theorem exec_jbudWrite core v (s : State) : exec (.jbudWrite core v) s = execJbudWrite core v s := rfl
@[simp] theorem exec_hcfgWrite stack v (s : State) : exec (.hcfgWrite stack v) s = execHcfgWrite stack v s := rfl
@[simp] theorem exec_poolSlotTake mig (s : State) : exec (.poolSlotTake mig) s = execPoolSlotTake mig s := rfl
@[simp] theorem exec_capReadReturn mig blk bad (s : State) : exec (.capReadReturn mig blk bad) s = execCapReadReturn mig blk bad s := rfl
@[simp] theorem exec_capReadTimeout mig blk (s : State) : exec (.capReadTimeout mig blk) s = execCapReadTimeout mig blk s := rfl
@[simp] theorem exec_migrationComplete mig (s : State) : exec (.migrationComplete mig) s = execMigrationComplete mig s := rfl
@[simp] theorem exec_migrationDeadline core lf (s : State) : exec (.migrationDeadline core lf) s = execMigrationDeadline core lf s := rfl
@[simp] theorem exec_directReadReturn core op bad (s : State) : exec (.directReadReturn core op bad) s = execDirectReadReturn core op bad s := rfl
@[simp] theorem exec_loadReturn core op (s : State) : exec (.loadReturn core op) s = execLoadReturn core op s := rfl
@[simp] theorem exec_atomicPerform core req (s : State) : exec (.atomicPerform core req) s = execAtomicPerform core req s := rfl
@[simp] theorem exec_atomicReply core op (s : State) : exec (.atomicReply core op) s = execAtomicReply core op s := rfl
@[simp] theorem exec_atomicTimeout core op (s : State) : exec (.atomicTimeout core op) s = execAtomicTimeout core op s := rfl
@[simp] theorem exec_monitorRecheck mon (s : State) : exec (.monitorRecheck mon) s = execMonitorRecheck mon s := rfl
@[simp] theorem exec_monitorStorageError die slice (s : State) : exec (.monitorStorageError die slice) s = execMonitorStorageError die slice s := rfl
@[simp] theorem exec_fenceComplete core lf (s : State) : exec (.fenceComplete core lf) s = execFenceComplete core lf s := rfl
@[simp] theorem exec_pageAttrPage req (s : State) : exec (.pageAttrPage req) s = execPageAttrPage req s := rfl
@[simp] theorem exec_atsTranslationCompletion core page st (s : State) : exec (.atsTranslationCompletion core page st) s = execAtsTranslationCompletion core page st s := rfl
@[simp] theorem exec_atsTimeout core page (s : State) : exec (.atsTimeout core page) s = execAtsTimeout core page s := rfl
@[simp] theorem exec_pageRequestGroupResponse core page resp (s : State) : exec (.pageRequestGroupResponse core page resp) s = execPageRequestGroupResponse core page resp s := rfl
@[simp] theorem exec_atsInvalidationRequest pasid page count (s : State) : exec (.atsInvalidationRequest pasid page count) s = execAtsInvalidationRequest pasid page count s := rfl
@[simp] theorem exec_invalidationCompletion req (s : State) : exec (.invalidationCompletion req) s = execInvalidationCompletion req s := rfl
@[simp] theorem exec_hostReadTimeout core op err (s : State) : exec (.hostReadTimeout core op err) s = execHostReadTimeout core op err s := rfl
@[simp] theorem exec_engineEntryStart core ent (s : State) : exec (.engineEntryStart core ent) s = execEngineEntryStart core ent s := rfl
@[simp] theorem exec_engineEntryFinish core ent (s : State) : exec (.engineEntryFinish core ent) s = execEngineEntryFinish core ent s := rfl
@[simp] theorem exec_groveLaneDone core ent (s : State) : exec (.groveLaneDone core ent) s = execGroveLaneDone core ent s := rfl
@[simp] theorem exec_xferPartApplied core ent (s : State) : exec (.xferPartApplied core ent) s = execXferPartApplied core ent s := rfl
@[simp] theorem exec_collChunkDone core ent (s : State) : exec (.collChunkDone core ent) s = execCollChunkDone core ent s := rfl
@[simp] theorem exec_launchRecordCopy core ent (s : State) : exec (.launchRecordCopy core ent) s = execLaunchRecordCopy core ent s := rfl
@[simp] theorem exec_callRingPost core lf (s : State) : exec (.callRingPost core lf) s = execCallRingPost core lf s := rfl
@[simp] theorem exec_syscallReturn core slot (s : State) : exec (.syscallReturn core slot) s = execSyscallReturn core slot s := rfl
@[simp] theorem exec_qnotifyWrite q v (s : State) : exec (.qnotifyWrite q v) s = execQnotifyWrite q v s := rfl
@[simp] theorem exec_queueEntryFetch q (s : State) : exec (.queueEntryFetch q) s = execQueueEntryFetch q s := rfl
@[simp] theorem exec_queueEntryRefetch q (s : State) : exec (.queueEntryRefetch q) s = execQueueEntryRefetch q s := rfl
@[simp] theorem exec_qerrWrite q v (s : State) : exec (.qerrWrite q v) s = execQerrWrite q v s := rfl
@[simp] theorem exec_sliceExpiry (s : State) : exec (.sliceExpiry) s = execSliceExpiry s := rfl
@[simp] theorem exec_sliceIdleEnd (s : State) : exec (.sliceIdleEnd) s = execSliceIdleEnd s := rfl
@[simp] theorem exec_mcallqRead core rd (s : State) : exec (.mcallqRead core rd) s = execMcallqRead core rd s := rfl
@[simp] theorem exec_mmsgaRead core rd (s : State) : exec (.mmsgaRead core rd) s = execMmsgaRead core rd s := rfl
@[simp] theorem exec_mntpendWrite core v (s : State) : exec (.mntpendWrite core v) s = execMntpendWrite core v s := rfl
@[simp] theorem exec_notifyWrite core k v (s : State) : exec (.notifyWrite core k v) s = execNotifyWrite core k v s := rfl
@[simp] theorem exec_windowRegisterWrite core lf lane word v (s : State) : exec (.windowRegisterWrite core lf lane word v) s = execWindowRegisterWrite core lf lane word v s := rfl
@[simp] theorem exec_windowEnd core lf lane (s : State) : exec (.windowEnd core lf lane) s = execWindowEnd core lf lane s := rfl
@[simp] theorem exec_windowUnpark core lf lane (s : State) : exec (.windowUnpark core lf lane) s = execWindowUnpark core lf lane s := rfl
@[simp] theorem exec_mastLoadStore core k size addr data rd (s : State) : exec (.mastLoadStore core k size addr data rd) s = execMastLoadStore core k size addr data rd s := rfl
@[simp] theorem exec_mastAmo core o size aq rl addr data rd (s : State) : exec (.mastAmo core o size aq rl addr data rd) s = execMastAmo core o size aq rl addr data rd s := rfl
@[simp] theorem exec_mastLr core size addr rd (s : State) : exec (.mastLr core size addr rd) s = execMastLr core size addr rd s := rfl
@[simp] theorem exec_mastSc core size addr data rd (s : State) : exec (.mastSc core size addr data rd) s = execMastSc core size addr data rd s := rfl
@[simp] theorem exec_mastFence core instr (s : State) : exec (.mastFence core instr) s = execMastFence core instr s := rfl
@[simp] theorem exec_hostMemRead link addr len caching (s : State) : exec (.hostMemRead link addr len caching) s = execHostMemRead link addr len caching s := rfl
@[simp] theorem exec_hostMemWrite link addr data (s : State) : exec (.hostMemWrite link addr data) s = execHostMemWrite link addr data s := rfl
@[simp] theorem exec_backInvalidateResponse snoop (s : State) : exec (.backInvalidateResponse snoop) s = execBackInvalidateResponse snoop s := rfl
@[simp] theorem exec_cxlCacheSnoop link addr (s : State) : exec (.cxlCacheSnoop link addr) s = execCxlCacheSnoop link addr s := rfl
@[simp] theorem exec_readCapabilityWord m (s : State) : exec (.readCapabilityWord m) s = execReadCapabilityWord m s := rfl
@[simp] theorem exec_setCtxtab m a0 (s : State) : exec (.setCtxtab m a0) s = execSetCtxtab m a0 s := rfl
@[simp] theorem exec_writeQuantumEntry m fn entry v (s : State) : exec (.writeQuantumEntry m fn entry v) s = execWriteQuantumEntry m fn entry v s := rfl
@[simp] theorem exec_writeFabricGroup m group a1 a2 a3 a4 (s : State) : exec (.writeFabricGroup m group a1 a2 a3 a4) s = execWriteFabricGroup m group a1 a2 a3 a4 s := rfl
@[simp] theorem exec_writeHostKeyTable m granule key (s : State) : exec (.writeHostKeyTable m granule key) s = execWriteHostKeyTable m granule key s := rfl
@[simp] theorem exec_readDieState m die (s : State) : exec (.readDieState m die) s = execReadDieState m die s := rfl
@[simp] theorem exec_readMeasurement m (s : State) : exec (.readMeasurement m) s = execReadMeasurement m s := rfl
@[simp] theorem exec_writeBootaddr m a0 (s : State) : exec (.writeBootaddr m a0) s = execWriteBootaddr m a0 s := rfl
@[simp] theorem exec_copyRecords m a0 a1 a2 a3 (s : State) : exec (.copyRecords m a0 a1 a2 a3) s = execCopyRecords m a0 a1 a2 a3 s := rfl
@[simp] theorem exec_readSealWord m a0 (s : State) : exec (.readSealWord m a0) s = execReadSealWord m a0 s := rfl
@[simp] theorem exec_rearmCapture m a0 (s : State) : exec (.rearmCapture m a0) s = execRearmCapture m a0 s := rfl
@[simp] theorem exec_writeRctl m a0 v (s : State) : exec (.writeRctl m a0 v) s = execWriteRctl m a0 v s := rfl
@[simp] theorem exec_readRctl m a0 (s : State) : exec (.readRctl m a0) s = execReadRctl m a0 s := rfl
@[simp] theorem exec_dbgctlWrite m v (s : State) : exec (.dbgctlWrite m v) s = execDbgctlWrite m v s := rfl
@[simp] theorem exec_dbgctlRead m (s : State) : exec (.dbgctlRead m) s = execDbgctlRead m s := rfl
@[simp] theorem exec_haltreq m (s : State) : exec (.haltreq m) s = execHaltreq m s := rfl
@[simp] theorem exec_undoLogClear m undo (s : State) : exec (.undoLogClear m undo) s = execUndoLogClear m undo s := rfl
@[simp] theorem exec_stepBack m core lf k (s : State) : exec (.stepBack m core lf k) s = execStepBack m core lf k s := rfl
@[simp] theorem exec_haltStatusRead m (s : State) : exec (.haltStatusRead m) s = execHaltStatusRead m s := rfl
@[simp] theorem exec_contextResume by_ (s : State) : exec (.contextResume by_) s = execContextResume by_ s := rfl
@[simp] theorem exec_contextEnd by_ (s : State) : exec (.contextEnd by_) s = execContextEnd by_ s := rfl
@[simp] theorem exec_abandonBusySequence m ctx va (s : State) : exec (.abandonBusySequence m ctx va) s = execAbandonBusySequence m ctx va s := rfl
@[simp] theorem exec_setMirrorRange m a0 a1 a2 a3 (s : State) : exec (.setMirrorRange m a0 a1 a2 a3) s = execSetMirrorRange m a0 a1 a2 a3 s := rfl
@[simp] theorem exec_readPoisonEntry m entry (s : State) : exec (.readPoisonEntry m entry) s = execReadPoisonEntry m entry s := rfl
@[simp] theorem exec_clearPoisonEntry m entry (s : State) : exec (.clearPoisonEntry m entry) s = execClearPoisonEntry m entry s := rfl
@[simp] theorem exec_writeKeySlot m a0 a1 (s : State) : exec (.writeKeySlot m a0 a1) s = execWriteKeySlot m a0 a1 s := rfl
@[simp] theorem exec_readRasCounters m num frames clear (s : State) : exec (.readRasCounters m num frames clear) s = execReadRasCounters m num frames clear s := rfl
@[simp] theorem exec_readLostBlock m die slice entry (s : State) : exec (.readLostBlock m die slice entry) s = execReadLostBlock m die slice entry s := rfl
@[simp] theorem exec_clearLostBlock m die slice entry (s : State) : exec (.clearLostBlock m die slice entry) s = execClearLostBlock m die slice entry s := rfl
@[simp] theorem exec_abandonEngineEntry m a0 (s : State) : exec (.abandonEngineEntry m a0) s = execAbandonEngineEntry m a0 s := rfl
@[simp] theorem exec_armGangLaunch m a0 a1 (s : State) : exec (.armGangLaunch m a0 a1) s = execArmGangLaunch m a0 a1 s := rfl
@[simp] theorem exec_readGangStatus m q (s : State) : exec (.readGangStatus m q) s = execReadGangStatus m q s := rfl
@[simp] theorem exec_copyCapsuleSummary m index dst (s : State) : exec (.copyCapsuleSummary m index dst) s = execCopyCapsuleSummary m index dst s := rfl
@[simp] theorem exec_copyCapsuleSlot m slot dst off len (s : State) : exec (.copyCapsuleSlot m slot dst off len) s = execCopyCapsuleSlot m slot dst off len s := rfl
@[simp] theorem exec_releaseCapsuleSlot m slot (s : State) : exec (.releaseCapsuleSlot m slot) s = execReleaseCapsuleSlot m slot s := rfl
@[simp] theorem exec_warmResetDie m die force (s : State) : exec (.warmResetDie m die force) s = execWarmResetDie m die force s := rfl
@[simp] theorem exec_readBootCode m (s : State) : exec (.readBootCode m) s = execReadBootCode m s := rfl
@[simp] theorem exec_mailboxUnknownCommand m code (s : State) : exec (.mailboxUnknownCommand m code) s = execMailboxUnknownCommand m code s := rfl
@[simp] theorem exec_registerWrite r v (s : State) : exec (.registerWrite r v) s = execRegisterWrite r v s := rfl
@[simp] theorem exec_packageReset linkUp readOk (s : State) : exec (.packageReset linkUp readOk) s = execPackageReset linkUp readOk s := rfl
@[simp] theorem exec_bootBlockFetch blk readOk (s : State) : exec (.bootBlockFetch blk readOk) s = execBootBlockFetch blk readOk s := rfl
@[simp] theorem exec_dieStateChange die st (s : State) : exec (.dieStateChange die st) s = execDieStateChange die st s := rfl
@[simp] theorem exec_powerArbiterTick dieCaps stackCaps (s : State) : exec (.powerArbiterTick dieCaps stackCaps) s = execPowerArbiterTick dieCaps stackCaps s := rfl
@[simp] theorem exec_thermalCooldown die (s : State) : exec (.thermalCooldown die) s = execThermalCooldown die s := rfl
@[simp] theorem exec_packageOverdraw (s : State) : exec (.packageOverdraw) s = execPackageOverdraw s := rfl
@[simp] theorem exec_coolantLoss die (s : State) : exec (.coolantLoss die) s = execCoolantLoss die s := rfl
@[simp] theorem exec_supplyFault die (s : State) : exec (.supplyFault die) s = execSupplyFault die s := rfl
@[simp] theorem exec_stallSample core (s : State) : exec (.stallSample core) s = execStallSample core s := rfl
@[simp] theorem exec_timebaseWrap (s : State) : exec (.timebaseWrap) s = execTimebaseWrap s := rfl
@[simp] theorem exec_lostRecord core (s : State) : exec (.lostRecord core) s = execLostRecord core s := rfl
@[simp] theorem exec_haltLineArrive core skid (s : State) : exec (.haltLineArrive core skid) s = execHaltLineArrive core skid s := rfl
@[simp] theorem exec_capsuleAssembly (s : State) : exec (.capsuleAssembly) s = execCapsuleAssembly s := rfl
@[simp] theorem exec_busyWatchdogExpiry seq (s : State) : exec (.busyWatchdogExpiry seq) s = execBusyWatchdogExpiry seq s := rfl
@[simp] theorem exec_gangWatchdogExpiry latch (s : State) : exec (.gangWatchdogExpiry latch) s = execGangWatchdogExpiry latch s := rfl
@[simp] theorem exec_flitCrcError die1 die2 (s : State) : exec (.flitCrcError die1 die2) s = execFlitCrcError die1 die2 s := rfl
@[simp] theorem exec_linkLaneFailure die1 die2 spares (s : State) : exec (.linkLaneFailure die1 die2 spares) s = execLinkLaneFailure die1 die2 spares s := rfl
@[simp] theorem exec_linkDown die1 die2 retrained (s : State) : exec (.linkDown die1 die2 retrained) s = execLinkDown die1 die2 retrained s := rfl
@[simp] theorem exec_dieLost die (s : State) : exec (.dieLost die) s = execDieLost die s := rfl
@[simp] theorem exec_fabricPortFailure port (s : State) : exec (.fabricPortFailure port) s = execFabricPortFailure port s := rfl
@[simp] theorem exec_collMemberAbsent core ent member (s : State) : exec (.collMemberAbsent core ent member) s = execCollMemberAbsent core ent member s := rfl
@[simp] theorem exec_gangAck q member (s : State) : exec (.gangAck q member) s = execGangAck q member s := rfl
@[simp] theorem exec_gangDeadline q (s : State) : exec (.gangDeadline q) s = execGangDeadline q s := rfl
@[simp] theorem exec_illegalInstruction k w (s : State) : exec (.illegalInstruction k w) s = execIllegalInstruction k w s := rfl
@[simp] theorem exec_demotionComplete req (s : State) : exec (.demotionComplete req) s = execDemotionComplete req s := rfl
@[simp] theorem exec_linkComesBack die1 die2 (s : State) : exec (.linkComesBack die1 die2) s = execLinkComesBack die1 die2 s := rfl
@[simp] theorem exec_portRemovedFromTree port (s : State) : exec (.portRemovedFromTree port) s = execPortRemovedFromTree port s := rfl
@[simp] theorem exec_powerLoss (s : State) : exec (.powerLoss) s = execPowerLoss s := rfl
@[simp] theorem exec_functionLevelReset fn (s : State) : exec (.functionLevelReset fn) s = execFunctionLevelReset fn s := rfl

end Sys2Proof.Machine
end

