-- ==== Sys2Proof/Laws/Tables.lean ====
section
/-!
SUPPORT. Laws/Tables.lean: what reading a sparse table gives after a change of it. The laws hold of every list, ordered or not.
-/
namespace Sys2Proof.Machine

variable {α : Type}

@[simp] theorem lookup_put_self (t : Table α) (k : Nat) (x : α) : lookup (put t k x) k = some x := by
  induction t with
  | nil => simp [put, lookup]
  | cons e t ih =>
    obtain ⟨j, y⟩ := e
    by_cases h1 : k < j
    · simp [put, h1, lookup]
    · by_cases h2 : k = j
      · simp [put, h2, lookup]
      · have h3 : j ≠ k := fun h => h2 h.symm
        simp [put, h1, h2, h3, lookup, ih]

theorem lookup_put_ne (t : Table α) {j k : Nat} (x : α) (h : j ≠ k) : lookup (put t k x) j = lookup t j := by
  induction t with
  | nil => simp [put, lookup, Ne.symm h]
  | cons e t ih =>
    obtain ⟨i, y⟩ := e
    by_cases h1 : k < i
    · simp [put, h1, lookup, Ne.symm h]
    · by_cases h2 : k = i
      · subst h2; simp [put, lookup, Ne.symm h]
      · simp [put, h1, h2, lookup, ih]

theorem lookup_put (t : Table α) (j k : Nat) (x : α) :
    lookup (put t k x) j = if j = k then some x else lookup t j := by
  by_cases h : j = k
  · subst h; simp
  · simp [h, lookup_put_ne]

theorem lookup_filter_key (t : Table α) (j : Nat) (p : Nat → Bool) :
    lookup (t.filter (fun e => p e.1)) j = if p j then lookup t j else none := by
  induction t with
  | nil => simp [lookup]
  | cons e t ih =>
    obtain ⟨i, y⟩ := e
    by_cases hi : p i
    · by_cases hj : i = j
      · subst hj; simp [hi, lookup]
      · simp [hi, lookup, hj, ih]
    · by_cases hj : i = j
      · subst hj; simp [hi, ih]
      · simp [hi, lookup, hj, ih]

@[simp] theorem lookup_drop_self (t : Table α) (k : Nat) : lookup (drop t k) k = none := by
  simp [drop, lookup_filter_key t k (fun i => i != k)]

theorem lookup_drop_ne (t : Table α) {j k : Nat} (h : j ≠ k) : lookup (drop t k) j = lookup t j := by
  simp [drop, lookup_filter_key t j (fun i => i != k), h]

theorem lookup_changeIf (t : Table α) (j k : Nat) (f : α → α) :
    lookup (changeIf t k f) j = if j = k then (lookup t j).map f else lookup t j := by
  induction t with
  | nil => simp [changeIf, lookup]
  | cons e t ih =>
    obtain ⟨i, y⟩ := e
    simp only [changeIf] at ih
    by_cases hi : i = k
    · subst hi
      by_cases hj : i = j
      · subst hj; simp [changeIf, lookup]
      · simp [changeIf, lookup, hj, ih]
    · by_cases hj : i = j
      · subst hj; simp [changeIf, lookup, hi]
      · simp [changeIf, lookup, hi, hj, ih]

@[simp] theorem look_put_self (t : Table α) (k : Nat) (x d : α) : look (put t k x) k d = x := by simp [look]

theorem look_put_ne (t : Table α) {j k : Nat} (x d : α) (h : j ≠ k) : look (put t k x) j d = look t j d := by
  simp [look, lookup_put_ne t x h]

@[simp] theorem look_drop_self (t : Table α) (k : Nat) (d : α) : look (drop t k) k d = d := by simp [look]

theorem look_drop_ne (t : Table α) {j k : Nat} (d : α) (h : j ≠ k) : look (drop t k) j d = look t j d := by
  simp [look, lookup_drop_ne t h]

/-- An entry of a table that lists no key twice is what its key looks up. -/
theorem lookup_of_mem {t : Table α} (h : (t.map (fun e => e.1)).Nodup) {k : Nat} {x : α} (hm : (k, x) ∈ t) :
    lookup t k = some x := by
  induction t with
  | nil => cases hm
  | cons e t ih =>
    obtain ⟨i, y⟩ := e
    simp only [List.map_cons, List.nodup_cons] at h
    rcases List.mem_cons.mp hm with he | ht
    · cases he; simp [lookup]
    · have hne : i ≠ k := fun hk => h.1 (hk ▸ List.mem_map_of_mem (f := fun e : Nat × α => e.1) ht)
      simp [lookup, hne, ih h.2 ht]

/-- What a key looks up is an entry of the table. -/
theorem mem_of_lookup {t : Table α} {k : Nat} {x : α} (h : lookup t k = some x) : (k, x) ∈ t := by
  induction t with
  | nil => simp [lookup] at h
  | cons e t ih =>
    obtain ⟨i, y⟩ := e
    by_cases hi : i = k
    · subst hi; simp [lookup] at h; simp [h]
    · simp [lookup, hi] at h; exact List.mem_cons_of_mem _ (ih h)

/-! ## Bytes of memory -/

@[simp] theorem Mem.byte_put_self (m : List Host.Cell) (a : Nat) (b : Byte) : Mem.byte (Mem.put m a b) a = b := by
  by_cases h : b = Mem.unlisted
  · simp [Mem.put, Mem.byte, h]
  · simp [Mem.put, Mem.byte, h]

theorem Mem.byte_put_ne (m : List Host.Cell) {a a' : Nat} (b : Byte) (h : a' ≠ a) :
    Mem.byte (Mem.put m a b) a' = Mem.byte m a' := by
  by_cases hb : b = Mem.unlisted
  · simp [Mem.put, Mem.byte, hb, look_drop_ne m _ h]
  · simp [Mem.put, Mem.byte, hb, look_put_ne m b _ h]

theorem Mem.byte_patch_of_not_mem (d : Table Byte) (base a : Nat) (h : ∀ e ∈ d, a ≠ base + e.1) :
    ∀ m : List Host.Cell, Mem.byte (Mem.patch m base d) a = Mem.byte m a := by
  induction d with
  | nil => intro m; rfl
  | cons e d ih =>
    intro m
    have h1 := ih (fun x hx => h x (List.mem_cons_of_mem _ hx)) (Mem.put m (base + e.1) e.2)
    rw [Mem.byte_put_ne _ _ (h e (List.mem_cons_self ..))] at h1
    exact h1

theorem Mem.byte_patch_of_mem (d : Table Byte) (base o : Nat) (b : Byte) (hn : (d.map (fun e => e.1)).Nodup)
    (hm : (o, b) ∈ d) : ∀ m : List Host.Cell, Mem.byte (Mem.patch m base d) (base + o) = b := by
  induction d with
  | nil => cases hm
  | cons e d ih =>
    intro m
    simp only [List.map_cons, List.nodup_cons] at hn
    rcases List.mem_cons.mp hm with he | ht
    · subst he
      have hrest : ∀ x ∈ d, base + o ≠ base + x.1 := by
        intro x hx heq
        have hk : x.1 = o := by omega
        exact hn.1 (List.mem_map.mpr ⟨x, hx, hk⟩)
      have h1 := Mem.byte_patch_of_not_mem d base (base + o) hrest (Mem.put m (base + o) b)
      rw [Mem.byte_put_self] at h1
      exact h1
    · exact ih hn.2 ht (Mem.put m (base + e.1) e.2)

end Sys2Proof.Machine
end

