-- ==== Sys2Proof/Laws/Memory.lean ====
section
/-!
SUPPORT. Laws/Memory.lean: every operation over memory keeps its canonical form.
-/
namespace Sys2Proof.Machine

/-- The canonical form as a property of the cells: strictly rising addresses, and no cell an unlisted address would read as. -/
theorem Mem.wf_iff (m : List Host.Cell) :
    Mem.wf m = true ↔ m.Pairwise (fun x y => x.1 < y.1) ∧ ∀ c ∈ m, c.2 ≠ Mem.unlisted := by
  induction m with
  | nil => simp [Mem.wf]
  | cons c t ih =>
    obtain ⟨a, b⟩ := c
    cases t with
    | nil => simp [Mem.wf]
    | cons c' t =>
      obtain ⟨a', b'⟩ := c'
      have hstep : Mem.wf ((a, b) :: (a', b') :: t) = (decide (a < a') && b != Mem.unlisted && Mem.wf ((a', b') :: t)) := rfl
      rw [hstep]
      simp only [Bool.and_eq_true, decide_eq_true_eq, ih, bne_iff_ne, ne_eq]
      constructor
      · rintro ⟨⟨h1, h2⟩, h3, h4⟩
        refine ⟨List.pairwise_cons.mpr ⟨?_, h3⟩, ?_⟩
        · intro x hx
          rcases List.mem_cons.mp hx with he | ht
          · subst he; exact h1
          · exact lt_trans h1 ((List.pairwise_cons.mp h3).1 x ht)
        · intro x hx
          rcases List.mem_cons.mp hx with he | ht
          · subst he; exact h2
          · exact h4 x ht
      · rintro ⟨h1, h2⟩
        have h3 := List.pairwise_cons.mp h1
        exact ⟨⟨h3.1 (a', b') (List.mem_cons_self ..), h2 (a, b) (List.mem_cons_self ..)⟩, h3.2,
          fun x hx => h2 x (List.mem_cons_of_mem _ hx)⟩

theorem Mem.wf_nil : Mem.wf [] = true := rfl

/-- Cells left out keep the form: clearing a range, dropping an address, keeping what a reset keeps. -/
theorem Mem.wf_filter {m : List Host.Cell} (p : Host.Cell → Bool) (h : Mem.wf m = true) : Mem.wf (m.filter p) = true := by
  rw [Mem.wf_iff] at h ⊢
  exact ⟨h.1.filter p, fun c hc => h.2 c (List.mem_of_mem_filter hc)⟩

theorem mem_put_cases {α : Type} {t : Table α} {k : Nat} {x : α} {e : Nat × α} (h : e ∈ put t k x) : e = (k, x) ∨ e ∈ t := by
  induction t with
  | nil => simpa [put] using h
  | cons c t ih =>
    obtain ⟨j, y⟩ := c
    by_cases h1 : k < j
    · simpa [put, h1] using h
    · by_cases h2 : k = j
      · subst h2
        simp only [put, lt_self_iff_false, if_false, if_true, List.mem_cons] at h
        rcases h with h | h
        · exact .inl h
        · exact .inr (List.mem_cons_of_mem _ h)
      · simp only [put, h1, h2, if_false, List.mem_cons] at h
        rcases h with h | h
        · exact .inr (h ▸ List.mem_cons_self ..)
        · rcases ih h with h | h
          · exact .inl h
          · exact .inr (List.mem_cons_of_mem _ h)

theorem pairwise_put {α : Type} {t : Table α} (k : Nat) (x : α) (h : t.Pairwise (fun a b => a.1 < b.1)) :
    (put t k x).Pairwise (fun a b => a.1 < b.1) := by
  induction t with
  | nil => simp [put]
  | cons c t ih =>
    obtain ⟨j, y⟩ := c
    obtain ⟨hj, ht⟩ := List.pairwise_cons.mp h
    by_cases h1 : k < j
    · simp only [put, h1, if_true]
      refine List.pairwise_cons.mpr ⟨?_, h⟩
      intro e he
      rcases List.mem_cons.mp he with he | he
      · subst he; exact h1
      · exact lt_trans h1 (hj e he)
    · by_cases h2 : k = j
      · subst h2
        simp only [put, lt_self_iff_false, if_false, if_true]
        exact List.pairwise_cons.mpr ⟨hj, ht⟩
      · simp only [put, h1, h2, if_false]
        refine List.pairwise_cons.mpr ⟨?_, ih ht⟩
        intro e he
        rcases mem_put_cases he with he | he
        · subst he; simp only; omega
        · exact hj e he

theorem Mem.wf_put {m : List Host.Cell} (a : Nat) (b : Byte) (h : Mem.wf m = true) : Mem.wf (Mem.put m a b) = true := by
  by_cases hb : b = Mem.unlisted
  · simp only [Mem.put, hb, if_true, drop]; exact Mem.wf_filter _ h
  · simp only [Mem.put, hb, if_false]
    rw [Mem.wf_iff] at h ⊢
    refine ⟨pairwise_put a b h.1, ?_⟩
    intro c hc
    rcases mem_put_cases hc with he | he
    · subst he; exact hb
    · exact h.2 c he

theorem Mem.wf_write (l : List Byte) : ∀ {m : List Host.Cell} (a : Nat), Mem.wf m = true → Mem.wf (Mem.write m a l) = true := by
  induction l with
  | nil => intro m a h; exact h
  | cons b l ih => intro m a h; exact ih (a + 1) (Mem.wf_put a b h)

theorem Mem.wf_patch (base : Nat) (d : Table Byte) : ∀ {m : List Host.Cell}, Mem.wf m = true → Mem.wf (Mem.patch m base d) = true := by
  induction d with
  | nil => intro m h; exact h
  | cons e d ih => intro m h; exact ih (Mem.wf_put (base + e.1) e.2 h)

theorem Mem.wf_restore (l : List Host.Cell) : ∀ {m : List Host.Cell}, Mem.wf m = true → Mem.wf (Mem.restore m l) = true := by
  induction l with
  | nil => intro m h; exact h
  | cons c l ih => intro m h; exact ih (Mem.wf_put c.1 c.2 h)

theorem Mem.wf_clear {m : List Host.Cell} (a n : Nat) (h : Mem.wf m = true) : Mem.wf (Mem.clear m a n) = true := Mem.wf_filter _ h

theorem Mem.wf_copy {m : List Host.Cell} (src dst n : Nat) (h : Mem.wf m = true) : Mem.wf (Mem.copy m src dst n) = true := by
  have h0 := (Mem.wf_iff m).mp h
  rw [Mem.wf_iff]
  constructor
  · simp only [Mem.copy, Mem.range]
    rw [List.append_assoc, List.pairwise_append, List.pairwise_append]
    refine ⟨h0.1.filter _, ⟨?_, h0.1.filter _, ?_⟩, ?_⟩
    · rw [List.pairwise_map]
      refine (h0.1.filter _).imp_of_mem ?_
      intro x y hx hy hxy
      simp only [List.mem_filter, Bool.and_eq_true, decide_eq_true_eq] at hx hy
      omega
    · intro x hx y hy
      simp only [List.mem_map, List.mem_filter, Bool.and_eq_true, decide_eq_true_eq] at hx hy
      obtain ⟨z, hz, rfl⟩ := hx
      simp only; omega
    · intro x hx y hy
      simp only [List.mem_append, List.mem_map, List.mem_filter, Bool.and_eq_true, decide_eq_true_eq] at hx hy
      rcases hy with ⟨z, hz, rfl⟩ | hy
      · simp only; omega
      · omega
  · intro c hc
    simp only [Mem.copy, Mem.range, List.mem_append, List.mem_map, List.mem_filter] at hc
    rcases hc with (hc | ⟨z, hz, rfl⟩) | hc
    · exact h0.2 c hc.1
    · exact h0.2 z hz.1
    · exact h0.2 c hc.1

end Sys2Proof.Machine
end

