-- ==== Sys2Proof/Laws/State.lean ====
section
/-!
SUPPORT. Laws/State.lean: what each update of the state leaves in each field, and what reading a core or a lane frame gives after
an update of one.
-/
namespace Sys2Proof.Machine

/-! ## Every field that an update does not name is as it was -/

section
variable (s : State) (c : Nat) (x : Core)
@[simp] theorem setCore_cycle : (setCore s c x).cycle = s.cycle := rfl
@[simp] theorem setCore_caps : (setCore s c x).caps = s.caps := rfl
@[simp] theorem setCore_at_ : (setCore s c x).at_ = s.at_ := rfl
@[simp] theorem setCore_agenda : (setCore s c x).agenda = s.agenda := rfl
@[simp] theorem setCore_ops : (setCore s c x).ops = s.ops := rfl
@[simp] theorem setCore_free : (setCore s c x).free = s.free := rfl
@[simp] theorem setCore_mem : (setCore s c x).mem = s.mem := rfl
@[simp] theorem setCore_poison : (setCore s c x).poison = s.poison := rfl
@[simp] theorem setCore_images : (setCore s c x).images = s.images := rfl
@[simp] theorem setCore_tiles : (setCore s c x).tiles = s.tiles := rfl
@[simp] theorem setCore_spills : (setCore s c x).spills = s.spills := rfl
@[simp] theorem setCore_wgs : (setCore s c x).wgs = s.wgs := rfl
@[simp] theorem setCore_launches : (setCore s c x).launches = s.launches := rfl
@[simp] theorem setCore_launchNo : (setCore s c x).launchNo = s.launchNo := rfl
@[simp] theorem setCore_latches : (setCore s c x).latches = s.latches := rfl
@[simp] theorem setCore_rigPtr : (setCore s c x).rigPtr = s.rigPtr := rfl
@[simp] theorem setCore_prioPtr : (setCore s c x).prioPtr = s.prioPtr := rfl
@[simp] theorem setCore_queues : (setCore s c x).queues = s.queues := rfl
@[simp] theorem setCore_gangs : (setCore s c x).gangs = s.gangs := rfl
@[simp] theorem setCore_ctxtab : (setCore s c x).ctxtab = s.ctxtab := rfl
@[simp] theorem setCore_slice : (setCore s c x).slice = s.slice := rfl
@[simp] theorem setCore_quantum : (setCore s c x).quantum = s.quantum := rfl
@[simp] theorem setCore_entryPtr : (setCore s c x).entryPtr = s.entryPtr := rfl
@[simp] theorem setCore_fnPtr : (setCore s c x).fnPtr = s.fnPtr := rfl
@[simp] theorem setCore_frames : (setCore s c x).frames = s.frames := rfl
@[simp] theorem setCore_sliceHand : (setCore s c x).sliceHand = s.sliceHand := rfl
@[simp] theorem setCore_dieLayer : (setCore s c x).dieLayer = s.dieLayer := rfl
@[simp] theorem setCore_badBuckets : (setCore s c x).badBuckets = s.badBuckets := rfl
@[simp] theorem setCore_deadChans : (setCore s c x).deadChans = s.deadChans := rfl
@[simp] theorem setCore_markers : (setCore s c x).markers = s.markers := rfl
@[simp] theorem setCore_seqs : (setCore s c x).seqs = s.seqs := rfl
@[simp] theorem setCore_invals : (setCore s c x).invals = s.invals := rfl
@[simp] theorem setCore_fillReqs : (setCore s c x).fillReqs = s.fillReqs := rfl
@[simp] theorem setCore_posted : (setCore s c x).posted = s.posted := rfl
@[simp] theorem setCore_flushed : (setCore s c x).flushed = s.flushed := rfl
@[simp] theorem setCore_flushes : (setCore s c x).flushes = s.flushes := rfl
@[simp] theorem setCore_hostReqs : (setCore s c x).hostReqs = s.hostReqs := rfl
@[simp] theorem setCore_hostStores : (setCore s c x).hostStores = s.hostStores := rfl
@[simp] theorem setCore_hwErrors : (setCore s c x).hwErrors = s.hwErrors := rfl
@[simp] theorem setCore_descs : (setCore s c x).descs = s.descs := rfl
@[simp] theorem setCore_monitors : (setCore s c x).monitors = s.monitors := rfl
@[simp] theorem setCore_hwrites : (setCore s c x).hwrites = s.hwrites := rfl
@[simp] theorem setCore_channels : (setCore s c x).channels = s.channels := rfl
@[simp] theorem setCore_hcfg : (setCore s c x).hcfg = s.hcfg := rfl
@[simp] theorem setCore_migrations : (setCore s c x).migrations = s.migrations := rfl
@[simp] theorem setCore_poisonTab : (setCore s c x).poisonTab = s.poisonTab := rfl
@[simp] theorem setCore_mirrors : (setCore s c x).mirrors = s.mirrors := rfl
@[simp] theorem setCore_lost : (setCore s c x).lost = s.lost := rfl
@[simp] theorem setCore_lostFull : (setCore s c x).lostFull = s.lostFull := rfl
@[simp] theorem setCore_rasCorrected : (setCore s c x).rasCorrected = s.rasCorrected := rfl
@[simp] theorem setCore_rasPoisoned : (setCore s c x).rasPoisoned = s.rasPoisoned := rfl
@[simp] theorem setCore_rasLast : (setCore s c x).rasLast = s.rasLast := rfl
@[simp] theorem setCore_rasHost : (setCore s c x).rasHost = s.rasHost := rfl
@[simp] theorem setCore_keyTable : (setCore s c x).keyTable = s.keyTable := rfl
@[simp] theorem setCore_keySlots : (setCore s c x).keySlots = s.keySlots := rfl
@[simp] theorem setCore_cipher : (setCore s c x).cipher = s.cipher := rfl
@[simp] theorem setCore_snoopFilter : (setCore s c x).snoopFilter = s.snoopFilter := rfl
@[simp] theorem setCore_snoops : (setCore s c x).snoops = s.snoops := rfl
@[simp] theorem setCore_hostInvals : (setCore s c x).hostInvals = s.hostInvals := rfl
@[simp] theorem setCore_sent : (setCore s c x).sent = s.sent := rfl
@[simp] theorem setCore_priStopped : (setCore s c x).priStopped = s.priStopped := rfl
@[simp] theorem setCore_priCleared : (setCore s c x).priCleared = s.priCleared := rfl
@[simp] theorem setCore_stop : (setCore s c x).stop = s.stop := rfl
@[simp] theorem setCore_dbgctl : (setCore s c x).dbgctl = s.dbgctl := rfl
@[simp] theorem setCore_stepped : (setCore s c x).stepped = s.stepped := rfl
@[simp] theorem setCore_mbxArgs : (setCore s c x).mbxArgs = s.mbxArgs := rfl
@[simp] theorem setCore_mbxResp : (setCore s c x).mbxResp = s.mbxResp := rfl
@[simp] theorem setCore_mbxCmd : (setCore s c x).mbxCmd = s.mbxCmd := rfl
@[simp] theorem setCore_groups : (setCore s c x).groups = s.groups := rfl
@[simp] theorem setCore_groupSeq : (setCore s c x).groupSeq = s.groupSeq := rfl
@[simp] theorem setCore_collIn : (setCore s c x).collIn = s.collIn := rfl
@[simp] theorem setCore_dieState : (setCore s c x).dieState = s.dieState := rfl
@[simp] theorem setCore_vf : (setCore s c x).vf = s.vf := rfl
@[simp] theorem setCore_vfNext : (setCore s c x).vfNext = s.vfNext := rfl
@[simp] theorem setCore_dieCap : (setCore s c x).dieCap = s.dieCap := rfl
@[simp] theorem setCore_stackCap : (setCore s c x).stackCap = s.stackCap := rfl
@[simp] theorem setCore_hotSince : (setCore s c x).hotSince = s.hotSince := rfl
@[simp] theorem setCore_bootaddr : (setCore s c x).bootaddr = s.bootaddr := rfl
@[simp] theorem setCore_measure : (setCore s c x).measure = s.measure := rfl
@[simp] theorem setCore_boot : (setCore s c x).boot = s.boot := rfl
@[simp] theorem setCore_bootNo : (setCore s c x).bootNo = s.bootNo := rfl
@[simp] theorem setCore_capsules : (setCore s c x).capsules = s.capsules := rfl
@[simp] theorem setCore_capDue : (setCore s c x).capDue = s.capDue := rfl
@[simp] theorem setCore_capSeq : (setCore s c x).capSeq = s.capSeq := rfl
@[simp] theorem setCore_summaries : (setCore s c x).summaries = s.summaries := rfl
@[simp] theorem setCore_links : (setCore s c x).links = s.links := rfl
@[simp] theorem setCore_lostDies : (setCore s c x).lostDies = s.lostDies := rfl
@[simp] theorem setCore_ports : (setCore s c x).ports = s.ports := rfl
@[simp] theorem setCore_portsOut : (setCore s c x).portsOut = s.portsOut := rfl
@[simp] theorem setCore_lastWindow : (setCore s c x).lastWindow = s.lastWindow := rfl
@[simp] theorem setCore_lastTimebase : (setCore s c x).lastTimebase = s.lastTimebase := rfl
@[simp] theorem setCore_lastPlace : (setCore s c x).lastPlace = s.lastPlace := rfl
@[simp] theorem setCore_swept : (setCore s c x).swept = s.swept := rfl
@[simp] theorem setCore_powered : (setCore s c x).powered = s.powered := rfl
@[simp] theorem setCore_hostFails : (setCore s c x).hostFails = s.hostFails := rfl
@[simp] theorem setCore_booting : (setCore s c x).booting = s.booting := rfl
end

section
variable (s : State) (c : Nat) (f : Core → Core)
@[simp] theorem modCore_cycle : (modCore s c f).cycle = s.cycle := rfl
@[simp] theorem modCore_caps : (modCore s c f).caps = s.caps := rfl
@[simp] theorem modCore_at_ : (modCore s c f).at_ = s.at_ := rfl
@[simp] theorem modCore_agenda : (modCore s c f).agenda = s.agenda := rfl
@[simp] theorem modCore_ops : (modCore s c f).ops = s.ops := rfl
@[simp] theorem modCore_free : (modCore s c f).free = s.free := rfl
@[simp] theorem modCore_mem : (modCore s c f).mem = s.mem := rfl
@[simp] theorem modCore_poison : (modCore s c f).poison = s.poison := rfl
@[simp] theorem modCore_images : (modCore s c f).images = s.images := rfl
@[simp] theorem modCore_tiles : (modCore s c f).tiles = s.tiles := rfl
@[simp] theorem modCore_spills : (modCore s c f).spills = s.spills := rfl
@[simp] theorem modCore_wgs : (modCore s c f).wgs = s.wgs := rfl
@[simp] theorem modCore_launches : (modCore s c f).launches = s.launches := rfl
@[simp] theorem modCore_launchNo : (modCore s c f).launchNo = s.launchNo := rfl
@[simp] theorem modCore_latches : (modCore s c f).latches = s.latches := rfl
@[simp] theorem modCore_rigPtr : (modCore s c f).rigPtr = s.rigPtr := rfl
@[simp] theorem modCore_prioPtr : (modCore s c f).prioPtr = s.prioPtr := rfl
@[simp] theorem modCore_queues : (modCore s c f).queues = s.queues := rfl
@[simp] theorem modCore_gangs : (modCore s c f).gangs = s.gangs := rfl
@[simp] theorem modCore_ctxtab : (modCore s c f).ctxtab = s.ctxtab := rfl
@[simp] theorem modCore_slice : (modCore s c f).slice = s.slice := rfl
@[simp] theorem modCore_quantum : (modCore s c f).quantum = s.quantum := rfl
@[simp] theorem modCore_entryPtr : (modCore s c f).entryPtr = s.entryPtr := rfl
@[simp] theorem modCore_fnPtr : (modCore s c f).fnPtr = s.fnPtr := rfl
@[simp] theorem modCore_frames : (modCore s c f).frames = s.frames := rfl
@[simp] theorem modCore_sliceHand : (modCore s c f).sliceHand = s.sliceHand := rfl
@[simp] theorem modCore_dieLayer : (modCore s c f).dieLayer = s.dieLayer := rfl
@[simp] theorem modCore_badBuckets : (modCore s c f).badBuckets = s.badBuckets := rfl
@[simp] theorem modCore_deadChans : (modCore s c f).deadChans = s.deadChans := rfl
@[simp] theorem modCore_markers : (modCore s c f).markers = s.markers := rfl
@[simp] theorem modCore_seqs : (modCore s c f).seqs = s.seqs := rfl
@[simp] theorem modCore_invals : (modCore s c f).invals = s.invals := rfl
@[simp] theorem modCore_fillReqs : (modCore s c f).fillReqs = s.fillReqs := rfl
@[simp] theorem modCore_posted : (modCore s c f).posted = s.posted := rfl
@[simp] theorem modCore_flushed : (modCore s c f).flushed = s.flushed := rfl
@[simp] theorem modCore_flushes : (modCore s c f).flushes = s.flushes := rfl
@[simp] theorem modCore_hostReqs : (modCore s c f).hostReqs = s.hostReqs := rfl
@[simp] theorem modCore_hostStores : (modCore s c f).hostStores = s.hostStores := rfl
@[simp] theorem modCore_hwErrors : (modCore s c f).hwErrors = s.hwErrors := rfl
@[simp] theorem modCore_descs : (modCore s c f).descs = s.descs := rfl
@[simp] theorem modCore_monitors : (modCore s c f).monitors = s.monitors := rfl
@[simp] theorem modCore_hwrites : (modCore s c f).hwrites = s.hwrites := rfl
@[simp] theorem modCore_channels : (modCore s c f).channels = s.channels := rfl
@[simp] theorem modCore_hcfg : (modCore s c f).hcfg = s.hcfg := rfl
@[simp] theorem modCore_migrations : (modCore s c f).migrations = s.migrations := rfl
@[simp] theorem modCore_poisonTab : (modCore s c f).poisonTab = s.poisonTab := rfl
@[simp] theorem modCore_mirrors : (modCore s c f).mirrors = s.mirrors := rfl
@[simp] theorem modCore_lost : (modCore s c f).lost = s.lost := rfl
@[simp] theorem modCore_lostFull : (modCore s c f).lostFull = s.lostFull := rfl
@[simp] theorem modCore_rasCorrected : (modCore s c f).rasCorrected = s.rasCorrected := rfl
@[simp] theorem modCore_rasPoisoned : (modCore s c f).rasPoisoned = s.rasPoisoned := rfl
@[simp] theorem modCore_rasLast : (modCore s c f).rasLast = s.rasLast := rfl
@[simp] theorem modCore_rasHost : (modCore s c f).rasHost = s.rasHost := rfl
@[simp] theorem modCore_keyTable : (modCore s c f).keyTable = s.keyTable := rfl
@[simp] theorem modCore_keySlots : (modCore s c f).keySlots = s.keySlots := rfl
@[simp] theorem modCore_cipher : (modCore s c f).cipher = s.cipher := rfl
@[simp] theorem modCore_snoopFilter : (modCore s c f).snoopFilter = s.snoopFilter := rfl
@[simp] theorem modCore_snoops : (modCore s c f).snoops = s.snoops := rfl
@[simp] theorem modCore_hostInvals : (modCore s c f).hostInvals = s.hostInvals := rfl
@[simp] theorem modCore_sent : (modCore s c f).sent = s.sent := rfl
@[simp] theorem modCore_priStopped : (modCore s c f).priStopped = s.priStopped := rfl
@[simp] theorem modCore_priCleared : (modCore s c f).priCleared = s.priCleared := rfl
@[simp] theorem modCore_stop : (modCore s c f).stop = s.stop := rfl
@[simp] theorem modCore_dbgctl : (modCore s c f).dbgctl = s.dbgctl := rfl
@[simp] theorem modCore_stepped : (modCore s c f).stepped = s.stepped := rfl
@[simp] theorem modCore_mbxArgs : (modCore s c f).mbxArgs = s.mbxArgs := rfl
@[simp] theorem modCore_mbxResp : (modCore s c f).mbxResp = s.mbxResp := rfl
@[simp] theorem modCore_mbxCmd : (modCore s c f).mbxCmd = s.mbxCmd := rfl
@[simp] theorem modCore_groups : (modCore s c f).groups = s.groups := rfl
@[simp] theorem modCore_groupSeq : (modCore s c f).groupSeq = s.groupSeq := rfl
@[simp] theorem modCore_collIn : (modCore s c f).collIn = s.collIn := rfl
@[simp] theorem modCore_dieState : (modCore s c f).dieState = s.dieState := rfl
@[simp] theorem modCore_vf : (modCore s c f).vf = s.vf := rfl
@[simp] theorem modCore_vfNext : (modCore s c f).vfNext = s.vfNext := rfl
@[simp] theorem modCore_dieCap : (modCore s c f).dieCap = s.dieCap := rfl
@[simp] theorem modCore_stackCap : (modCore s c f).stackCap = s.stackCap := rfl
@[simp] theorem modCore_hotSince : (modCore s c f).hotSince = s.hotSince := rfl
@[simp] theorem modCore_bootaddr : (modCore s c f).bootaddr = s.bootaddr := rfl
@[simp] theorem modCore_measure : (modCore s c f).measure = s.measure := rfl
@[simp] theorem modCore_boot : (modCore s c f).boot = s.boot := rfl
@[simp] theorem modCore_bootNo : (modCore s c f).bootNo = s.bootNo := rfl
@[simp] theorem modCore_capsules : (modCore s c f).capsules = s.capsules := rfl
@[simp] theorem modCore_capDue : (modCore s c f).capDue = s.capDue := rfl
@[simp] theorem modCore_capSeq : (modCore s c f).capSeq = s.capSeq := rfl
@[simp] theorem modCore_summaries : (modCore s c f).summaries = s.summaries := rfl
@[simp] theorem modCore_links : (modCore s c f).links = s.links := rfl
@[simp] theorem modCore_lostDies : (modCore s c f).lostDies = s.lostDies := rfl
@[simp] theorem modCore_ports : (modCore s c f).ports = s.ports := rfl
@[simp] theorem modCore_portsOut : (modCore s c f).portsOut = s.portsOut := rfl
@[simp] theorem modCore_lastWindow : (modCore s c f).lastWindow = s.lastWindow := rfl
@[simp] theorem modCore_lastTimebase : (modCore s c f).lastTimebase = s.lastTimebase := rfl
@[simp] theorem modCore_lastPlace : (modCore s c f).lastPlace = s.lastPlace := rfl
@[simp] theorem modCore_swept : (modCore s c f).swept = s.swept := rfl
@[simp] theorem modCore_powered : (modCore s c f).powered = s.powered := rfl
@[simp] theorem modCore_hostFails : (modCore s c f).hostFails = s.hostFails := rfl
@[simp] theorem modCore_booting : (modCore s c f).booting = s.booting := rfl
end

section
variable (s : State) (c l : Nat) (x : LaneFrame)
@[simp] theorem setLF_cycle : (setLF s c l x).cycle = s.cycle := rfl
@[simp] theorem setLF_caps : (setLF s c l x).caps = s.caps := rfl
@[simp] theorem setLF_at_ : (setLF s c l x).at_ = s.at_ := rfl
@[simp] theorem setLF_agenda : (setLF s c l x).agenda = s.agenda := rfl
@[simp] theorem setLF_ops : (setLF s c l x).ops = s.ops := rfl
@[simp] theorem setLF_free : (setLF s c l x).free = s.free := rfl
@[simp] theorem setLF_mem : (setLF s c l x).mem = s.mem := rfl
@[simp] theorem setLF_poison : (setLF s c l x).poison = s.poison := rfl
@[simp] theorem setLF_images : (setLF s c l x).images = s.images := rfl
@[simp] theorem setLF_tiles : (setLF s c l x).tiles = s.tiles := rfl
@[simp] theorem setLF_spills : (setLF s c l x).spills = s.spills := rfl
@[simp] theorem setLF_wgs : (setLF s c l x).wgs = s.wgs := rfl
@[simp] theorem setLF_launches : (setLF s c l x).launches = s.launches := rfl
@[simp] theorem setLF_launchNo : (setLF s c l x).launchNo = s.launchNo := rfl
@[simp] theorem setLF_latches : (setLF s c l x).latches = s.latches := rfl
@[simp] theorem setLF_rigPtr : (setLF s c l x).rigPtr = s.rigPtr := rfl
@[simp] theorem setLF_prioPtr : (setLF s c l x).prioPtr = s.prioPtr := rfl
@[simp] theorem setLF_queues : (setLF s c l x).queues = s.queues := rfl
@[simp] theorem setLF_gangs : (setLF s c l x).gangs = s.gangs := rfl
@[simp] theorem setLF_ctxtab : (setLF s c l x).ctxtab = s.ctxtab := rfl
@[simp] theorem setLF_slice : (setLF s c l x).slice = s.slice := rfl
@[simp] theorem setLF_quantum : (setLF s c l x).quantum = s.quantum := rfl
@[simp] theorem setLF_entryPtr : (setLF s c l x).entryPtr = s.entryPtr := rfl
@[simp] theorem setLF_fnPtr : (setLF s c l x).fnPtr = s.fnPtr := rfl
@[simp] theorem setLF_frames : (setLF s c l x).frames = s.frames := rfl
@[simp] theorem setLF_sliceHand : (setLF s c l x).sliceHand = s.sliceHand := rfl
@[simp] theorem setLF_dieLayer : (setLF s c l x).dieLayer = s.dieLayer := rfl
@[simp] theorem setLF_badBuckets : (setLF s c l x).badBuckets = s.badBuckets := rfl
@[simp] theorem setLF_deadChans : (setLF s c l x).deadChans = s.deadChans := rfl
@[simp] theorem setLF_markers : (setLF s c l x).markers = s.markers := rfl
@[simp] theorem setLF_seqs : (setLF s c l x).seqs = s.seqs := rfl
@[simp] theorem setLF_invals : (setLF s c l x).invals = s.invals := rfl
@[simp] theorem setLF_fillReqs : (setLF s c l x).fillReqs = s.fillReqs := rfl
@[simp] theorem setLF_posted : (setLF s c l x).posted = s.posted := rfl
@[simp] theorem setLF_flushed : (setLF s c l x).flushed = s.flushed := rfl
@[simp] theorem setLF_flushes : (setLF s c l x).flushes = s.flushes := rfl
@[simp] theorem setLF_hostReqs : (setLF s c l x).hostReqs = s.hostReqs := rfl
@[simp] theorem setLF_hostStores : (setLF s c l x).hostStores = s.hostStores := rfl
@[simp] theorem setLF_hwErrors : (setLF s c l x).hwErrors = s.hwErrors := rfl
@[simp] theorem setLF_descs : (setLF s c l x).descs = s.descs := rfl
@[simp] theorem setLF_monitors : (setLF s c l x).monitors = s.monitors := rfl
@[simp] theorem setLF_hwrites : (setLF s c l x).hwrites = s.hwrites := rfl
@[simp] theorem setLF_channels : (setLF s c l x).channels = s.channels := rfl
@[simp] theorem setLF_hcfg : (setLF s c l x).hcfg = s.hcfg := rfl
@[simp] theorem setLF_migrations : (setLF s c l x).migrations = s.migrations := rfl
@[simp] theorem setLF_poisonTab : (setLF s c l x).poisonTab = s.poisonTab := rfl
@[simp] theorem setLF_mirrors : (setLF s c l x).mirrors = s.mirrors := rfl
@[simp] theorem setLF_lost : (setLF s c l x).lost = s.lost := rfl
@[simp] theorem setLF_lostFull : (setLF s c l x).lostFull = s.lostFull := rfl
@[simp] theorem setLF_rasCorrected : (setLF s c l x).rasCorrected = s.rasCorrected := rfl
@[simp] theorem setLF_rasPoisoned : (setLF s c l x).rasPoisoned = s.rasPoisoned := rfl
@[simp] theorem setLF_rasLast : (setLF s c l x).rasLast = s.rasLast := rfl
@[simp] theorem setLF_rasHost : (setLF s c l x).rasHost = s.rasHost := rfl
@[simp] theorem setLF_keyTable : (setLF s c l x).keyTable = s.keyTable := rfl
@[simp] theorem setLF_keySlots : (setLF s c l x).keySlots = s.keySlots := rfl
@[simp] theorem setLF_cipher : (setLF s c l x).cipher = s.cipher := rfl
@[simp] theorem setLF_snoopFilter : (setLF s c l x).snoopFilter = s.snoopFilter := rfl
@[simp] theorem setLF_snoops : (setLF s c l x).snoops = s.snoops := rfl
@[simp] theorem setLF_hostInvals : (setLF s c l x).hostInvals = s.hostInvals := rfl
@[simp] theorem setLF_sent : (setLF s c l x).sent = s.sent := rfl
@[simp] theorem setLF_priStopped : (setLF s c l x).priStopped = s.priStopped := rfl
@[simp] theorem setLF_priCleared : (setLF s c l x).priCleared = s.priCleared := rfl
@[simp] theorem setLF_stop : (setLF s c l x).stop = s.stop := rfl
@[simp] theorem setLF_dbgctl : (setLF s c l x).dbgctl = s.dbgctl := rfl
@[simp] theorem setLF_stepped : (setLF s c l x).stepped = s.stepped := rfl
@[simp] theorem setLF_mbxArgs : (setLF s c l x).mbxArgs = s.mbxArgs := rfl
@[simp] theorem setLF_mbxResp : (setLF s c l x).mbxResp = s.mbxResp := rfl
@[simp] theorem setLF_mbxCmd : (setLF s c l x).mbxCmd = s.mbxCmd := rfl
@[simp] theorem setLF_groups : (setLF s c l x).groups = s.groups := rfl
@[simp] theorem setLF_groupSeq : (setLF s c l x).groupSeq = s.groupSeq := rfl
@[simp] theorem setLF_collIn : (setLF s c l x).collIn = s.collIn := rfl
@[simp] theorem setLF_dieState : (setLF s c l x).dieState = s.dieState := rfl
@[simp] theorem setLF_vf : (setLF s c l x).vf = s.vf := rfl
@[simp] theorem setLF_vfNext : (setLF s c l x).vfNext = s.vfNext := rfl
@[simp] theorem setLF_dieCap : (setLF s c l x).dieCap = s.dieCap := rfl
@[simp] theorem setLF_stackCap : (setLF s c l x).stackCap = s.stackCap := rfl
@[simp] theorem setLF_hotSince : (setLF s c l x).hotSince = s.hotSince := rfl
@[simp] theorem setLF_bootaddr : (setLF s c l x).bootaddr = s.bootaddr := rfl
@[simp] theorem setLF_measure : (setLF s c l x).measure = s.measure := rfl
@[simp] theorem setLF_boot : (setLF s c l x).boot = s.boot := rfl
@[simp] theorem setLF_bootNo : (setLF s c l x).bootNo = s.bootNo := rfl
@[simp] theorem setLF_capsules : (setLF s c l x).capsules = s.capsules := rfl
@[simp] theorem setLF_capDue : (setLF s c l x).capDue = s.capDue := rfl
@[simp] theorem setLF_capSeq : (setLF s c l x).capSeq = s.capSeq := rfl
@[simp] theorem setLF_summaries : (setLF s c l x).summaries = s.summaries := rfl
@[simp] theorem setLF_links : (setLF s c l x).links = s.links := rfl
@[simp] theorem setLF_lostDies : (setLF s c l x).lostDies = s.lostDies := rfl
@[simp] theorem setLF_ports : (setLF s c l x).ports = s.ports := rfl
@[simp] theorem setLF_portsOut : (setLF s c l x).portsOut = s.portsOut := rfl
@[simp] theorem setLF_lastWindow : (setLF s c l x).lastWindow = s.lastWindow := rfl
@[simp] theorem setLF_lastTimebase : (setLF s c l x).lastTimebase = s.lastTimebase := rfl
@[simp] theorem setLF_lastPlace : (setLF s c l x).lastPlace = s.lastPlace := rfl
@[simp] theorem setLF_swept : (setLF s c l x).swept = s.swept := rfl
@[simp] theorem setLF_powered : (setLF s c l x).powered = s.powered := rfl
@[simp] theorem setLF_hostFails : (setLF s c l x).hostFails = s.hostFails := rfl
@[simp] theorem setLF_booting : (setLF s c l x).booting = s.booting := rfl
end

section
variable (s : State) (c l : Nat) (f : LaneFrame → LaneFrame)
@[simp] theorem modLF_cycle : (modLF s c l f).cycle = s.cycle := rfl
@[simp] theorem modLF_caps : (modLF s c l f).caps = s.caps := rfl
@[simp] theorem modLF_at_ : (modLF s c l f).at_ = s.at_ := rfl
@[simp] theorem modLF_agenda : (modLF s c l f).agenda = s.agenda := rfl
@[simp] theorem modLF_ops : (modLF s c l f).ops = s.ops := rfl
@[simp] theorem modLF_free : (modLF s c l f).free = s.free := rfl
@[simp] theorem modLF_mem : (modLF s c l f).mem = s.mem := rfl
@[simp] theorem modLF_poison : (modLF s c l f).poison = s.poison := rfl
@[simp] theorem modLF_images : (modLF s c l f).images = s.images := rfl
@[simp] theorem modLF_tiles : (modLF s c l f).tiles = s.tiles := rfl
@[simp] theorem modLF_spills : (modLF s c l f).spills = s.spills := rfl
@[simp] theorem modLF_wgs : (modLF s c l f).wgs = s.wgs := rfl
@[simp] theorem modLF_launches : (modLF s c l f).launches = s.launches := rfl
@[simp] theorem modLF_launchNo : (modLF s c l f).launchNo = s.launchNo := rfl
@[simp] theorem modLF_latches : (modLF s c l f).latches = s.latches := rfl
@[simp] theorem modLF_rigPtr : (modLF s c l f).rigPtr = s.rigPtr := rfl
@[simp] theorem modLF_prioPtr : (modLF s c l f).prioPtr = s.prioPtr := rfl
@[simp] theorem modLF_queues : (modLF s c l f).queues = s.queues := rfl
@[simp] theorem modLF_gangs : (modLF s c l f).gangs = s.gangs := rfl
@[simp] theorem modLF_ctxtab : (modLF s c l f).ctxtab = s.ctxtab := rfl
@[simp] theorem modLF_slice : (modLF s c l f).slice = s.slice := rfl
@[simp] theorem modLF_quantum : (modLF s c l f).quantum = s.quantum := rfl
@[simp] theorem modLF_entryPtr : (modLF s c l f).entryPtr = s.entryPtr := rfl
@[simp] theorem modLF_fnPtr : (modLF s c l f).fnPtr = s.fnPtr := rfl
@[simp] theorem modLF_frames : (modLF s c l f).frames = s.frames := rfl
@[simp] theorem modLF_sliceHand : (modLF s c l f).sliceHand = s.sliceHand := rfl
@[simp] theorem modLF_dieLayer : (modLF s c l f).dieLayer = s.dieLayer := rfl
@[simp] theorem modLF_badBuckets : (modLF s c l f).badBuckets = s.badBuckets := rfl
@[simp] theorem modLF_deadChans : (modLF s c l f).deadChans = s.deadChans := rfl
@[simp] theorem modLF_markers : (modLF s c l f).markers = s.markers := rfl
@[simp] theorem modLF_seqs : (modLF s c l f).seqs = s.seqs := rfl
@[simp] theorem modLF_invals : (modLF s c l f).invals = s.invals := rfl
@[simp] theorem modLF_fillReqs : (modLF s c l f).fillReqs = s.fillReqs := rfl
@[simp] theorem modLF_posted : (modLF s c l f).posted = s.posted := rfl
@[simp] theorem modLF_flushed : (modLF s c l f).flushed = s.flushed := rfl
@[simp] theorem modLF_flushes : (modLF s c l f).flushes = s.flushes := rfl
@[simp] theorem modLF_hostReqs : (modLF s c l f).hostReqs = s.hostReqs := rfl
@[simp] theorem modLF_hostStores : (modLF s c l f).hostStores = s.hostStores := rfl
@[simp] theorem modLF_hwErrors : (modLF s c l f).hwErrors = s.hwErrors := rfl
@[simp] theorem modLF_descs : (modLF s c l f).descs = s.descs := rfl
@[simp] theorem modLF_monitors : (modLF s c l f).monitors = s.monitors := rfl
@[simp] theorem modLF_hwrites : (modLF s c l f).hwrites = s.hwrites := rfl
@[simp] theorem modLF_channels : (modLF s c l f).channels = s.channels := rfl
@[simp] theorem modLF_hcfg : (modLF s c l f).hcfg = s.hcfg := rfl
@[simp] theorem modLF_migrations : (modLF s c l f).migrations = s.migrations := rfl
@[simp] theorem modLF_poisonTab : (modLF s c l f).poisonTab = s.poisonTab := rfl
@[simp] theorem modLF_mirrors : (modLF s c l f).mirrors = s.mirrors := rfl
@[simp] theorem modLF_lost : (modLF s c l f).lost = s.lost := rfl
@[simp] theorem modLF_lostFull : (modLF s c l f).lostFull = s.lostFull := rfl
@[simp] theorem modLF_rasCorrected : (modLF s c l f).rasCorrected = s.rasCorrected := rfl
@[simp] theorem modLF_rasPoisoned : (modLF s c l f).rasPoisoned = s.rasPoisoned := rfl
@[simp] theorem modLF_rasLast : (modLF s c l f).rasLast = s.rasLast := rfl
@[simp] theorem modLF_rasHost : (modLF s c l f).rasHost = s.rasHost := rfl
@[simp] theorem modLF_keyTable : (modLF s c l f).keyTable = s.keyTable := rfl
@[simp] theorem modLF_keySlots : (modLF s c l f).keySlots = s.keySlots := rfl
@[simp] theorem modLF_cipher : (modLF s c l f).cipher = s.cipher := rfl
@[simp] theorem modLF_snoopFilter : (modLF s c l f).snoopFilter = s.snoopFilter := rfl
@[simp] theorem modLF_snoops : (modLF s c l f).snoops = s.snoops := rfl
@[simp] theorem modLF_hostInvals : (modLF s c l f).hostInvals = s.hostInvals := rfl
@[simp] theorem modLF_sent : (modLF s c l f).sent = s.sent := rfl
@[simp] theorem modLF_priStopped : (modLF s c l f).priStopped = s.priStopped := rfl
@[simp] theorem modLF_priCleared : (modLF s c l f).priCleared = s.priCleared := rfl
@[simp] theorem modLF_stop : (modLF s c l f).stop = s.stop := rfl
@[simp] theorem modLF_dbgctl : (modLF s c l f).dbgctl = s.dbgctl := rfl
@[simp] theorem modLF_stepped : (modLF s c l f).stepped = s.stepped := rfl
@[simp] theorem modLF_mbxArgs : (modLF s c l f).mbxArgs = s.mbxArgs := rfl
@[simp] theorem modLF_mbxResp : (modLF s c l f).mbxResp = s.mbxResp := rfl
@[simp] theorem modLF_mbxCmd : (modLF s c l f).mbxCmd = s.mbxCmd := rfl
@[simp] theorem modLF_groups : (modLF s c l f).groups = s.groups := rfl
@[simp] theorem modLF_groupSeq : (modLF s c l f).groupSeq = s.groupSeq := rfl
@[simp] theorem modLF_collIn : (modLF s c l f).collIn = s.collIn := rfl
@[simp] theorem modLF_dieState : (modLF s c l f).dieState = s.dieState := rfl
@[simp] theorem modLF_vf : (modLF s c l f).vf = s.vf := rfl
@[simp] theorem modLF_vfNext : (modLF s c l f).vfNext = s.vfNext := rfl
@[simp] theorem modLF_dieCap : (modLF s c l f).dieCap = s.dieCap := rfl
@[simp] theorem modLF_stackCap : (modLF s c l f).stackCap = s.stackCap := rfl
@[simp] theorem modLF_hotSince : (modLF s c l f).hotSince = s.hotSince := rfl
@[simp] theorem modLF_bootaddr : (modLF s c l f).bootaddr = s.bootaddr := rfl
@[simp] theorem modLF_measure : (modLF s c l f).measure = s.measure := rfl
@[simp] theorem modLF_boot : (modLF s c l f).boot = s.boot := rfl
@[simp] theorem modLF_bootNo : (modLF s c l f).bootNo = s.bootNo := rfl
@[simp] theorem modLF_capsules : (modLF s c l f).capsules = s.capsules := rfl
@[simp] theorem modLF_capDue : (modLF s c l f).capDue = s.capDue := rfl
@[simp] theorem modLF_capSeq : (modLF s c l f).capSeq = s.capSeq := rfl
@[simp] theorem modLF_summaries : (modLF s c l f).summaries = s.summaries := rfl
@[simp] theorem modLF_links : (modLF s c l f).links = s.links := rfl
@[simp] theorem modLF_lostDies : (modLF s c l f).lostDies = s.lostDies := rfl
@[simp] theorem modLF_ports : (modLF s c l f).ports = s.ports := rfl
@[simp] theorem modLF_portsOut : (modLF s c l f).portsOut = s.portsOut := rfl
@[simp] theorem modLF_lastWindow : (modLF s c l f).lastWindow = s.lastWindow := rfl
@[simp] theorem modLF_lastTimebase : (modLF s c l f).lastTimebase = s.lastTimebase := rfl
@[simp] theorem modLF_lastPlace : (modLF s c l f).lastPlace = s.lastPlace := rfl
@[simp] theorem modLF_swept : (modLF s c l f).swept = s.swept := rfl
@[simp] theorem modLF_powered : (modLF s c l f).powered = s.powered := rfl
@[simp] theorem modLF_hostFails : (modLF s c l f).hostFails = s.hostFails := rfl
@[simp] theorem modLF_booting : (modLF s c l f).booting = s.booting := rfl
end

section
variable (s : State) (c : Nat) (f : Recorder → Recorder)
@[simp] theorem modRcd_cycle : (modRcd s c f).cycle = s.cycle := rfl
@[simp] theorem modRcd_caps : (modRcd s c f).caps = s.caps := rfl
@[simp] theorem modRcd_at_ : (modRcd s c f).at_ = s.at_ := rfl
@[simp] theorem modRcd_agenda : (modRcd s c f).agenda = s.agenda := rfl
@[simp] theorem modRcd_ops : (modRcd s c f).ops = s.ops := rfl
@[simp] theorem modRcd_free : (modRcd s c f).free = s.free := rfl
@[simp] theorem modRcd_mem : (modRcd s c f).mem = s.mem := rfl
@[simp] theorem modRcd_poison : (modRcd s c f).poison = s.poison := rfl
@[simp] theorem modRcd_images : (modRcd s c f).images = s.images := rfl
@[simp] theorem modRcd_tiles : (modRcd s c f).tiles = s.tiles := rfl
@[simp] theorem modRcd_spills : (modRcd s c f).spills = s.spills := rfl
@[simp] theorem modRcd_wgs : (modRcd s c f).wgs = s.wgs := rfl
@[simp] theorem modRcd_launches : (modRcd s c f).launches = s.launches := rfl
@[simp] theorem modRcd_launchNo : (modRcd s c f).launchNo = s.launchNo := rfl
@[simp] theorem modRcd_latches : (modRcd s c f).latches = s.latches := rfl
@[simp] theorem modRcd_rigPtr : (modRcd s c f).rigPtr = s.rigPtr := rfl
@[simp] theorem modRcd_prioPtr : (modRcd s c f).prioPtr = s.prioPtr := rfl
@[simp] theorem modRcd_queues : (modRcd s c f).queues = s.queues := rfl
@[simp] theorem modRcd_gangs : (modRcd s c f).gangs = s.gangs := rfl
@[simp] theorem modRcd_ctxtab : (modRcd s c f).ctxtab = s.ctxtab := rfl
@[simp] theorem modRcd_slice : (modRcd s c f).slice = s.slice := rfl
@[simp] theorem modRcd_quantum : (modRcd s c f).quantum = s.quantum := rfl
@[simp] theorem modRcd_entryPtr : (modRcd s c f).entryPtr = s.entryPtr := rfl
@[simp] theorem modRcd_fnPtr : (modRcd s c f).fnPtr = s.fnPtr := rfl
@[simp] theorem modRcd_frames : (modRcd s c f).frames = s.frames := rfl
@[simp] theorem modRcd_sliceHand : (modRcd s c f).sliceHand = s.sliceHand := rfl
@[simp] theorem modRcd_dieLayer : (modRcd s c f).dieLayer = s.dieLayer := rfl
@[simp] theorem modRcd_badBuckets : (modRcd s c f).badBuckets = s.badBuckets := rfl
@[simp] theorem modRcd_deadChans : (modRcd s c f).deadChans = s.deadChans := rfl
@[simp] theorem modRcd_markers : (modRcd s c f).markers = s.markers := rfl
@[simp] theorem modRcd_seqs : (modRcd s c f).seqs = s.seqs := rfl
@[simp] theorem modRcd_invals : (modRcd s c f).invals = s.invals := rfl
@[simp] theorem modRcd_fillReqs : (modRcd s c f).fillReqs = s.fillReqs := rfl
@[simp] theorem modRcd_posted : (modRcd s c f).posted = s.posted := rfl
@[simp] theorem modRcd_flushed : (modRcd s c f).flushed = s.flushed := rfl
@[simp] theorem modRcd_flushes : (modRcd s c f).flushes = s.flushes := rfl
@[simp] theorem modRcd_hostReqs : (modRcd s c f).hostReqs = s.hostReqs := rfl
@[simp] theorem modRcd_hostStores : (modRcd s c f).hostStores = s.hostStores := rfl
@[simp] theorem modRcd_hwErrors : (modRcd s c f).hwErrors = s.hwErrors := rfl
@[simp] theorem modRcd_descs : (modRcd s c f).descs = s.descs := rfl
@[simp] theorem modRcd_monitors : (modRcd s c f).monitors = s.monitors := rfl
@[simp] theorem modRcd_hwrites : (modRcd s c f).hwrites = s.hwrites := rfl
@[simp] theorem modRcd_channels : (modRcd s c f).channels = s.channels := rfl
@[simp] theorem modRcd_hcfg : (modRcd s c f).hcfg = s.hcfg := rfl
@[simp] theorem modRcd_migrations : (modRcd s c f).migrations = s.migrations := rfl
@[simp] theorem modRcd_poisonTab : (modRcd s c f).poisonTab = s.poisonTab := rfl
@[simp] theorem modRcd_mirrors : (modRcd s c f).mirrors = s.mirrors := rfl
@[simp] theorem modRcd_lost : (modRcd s c f).lost = s.lost := rfl
@[simp] theorem modRcd_lostFull : (modRcd s c f).lostFull = s.lostFull := rfl
@[simp] theorem modRcd_rasCorrected : (modRcd s c f).rasCorrected = s.rasCorrected := rfl
@[simp] theorem modRcd_rasPoisoned : (modRcd s c f).rasPoisoned = s.rasPoisoned := rfl
@[simp] theorem modRcd_rasLast : (modRcd s c f).rasLast = s.rasLast := rfl
@[simp] theorem modRcd_rasHost : (modRcd s c f).rasHost = s.rasHost := rfl
@[simp] theorem modRcd_keyTable : (modRcd s c f).keyTable = s.keyTable := rfl
@[simp] theorem modRcd_keySlots : (modRcd s c f).keySlots = s.keySlots := rfl
@[simp] theorem modRcd_cipher : (modRcd s c f).cipher = s.cipher := rfl
@[simp] theorem modRcd_snoopFilter : (modRcd s c f).snoopFilter = s.snoopFilter := rfl
@[simp] theorem modRcd_snoops : (modRcd s c f).snoops = s.snoops := rfl
@[simp] theorem modRcd_hostInvals : (modRcd s c f).hostInvals = s.hostInvals := rfl
@[simp] theorem modRcd_sent : (modRcd s c f).sent = s.sent := rfl
@[simp] theorem modRcd_priStopped : (modRcd s c f).priStopped = s.priStopped := rfl
@[simp] theorem modRcd_priCleared : (modRcd s c f).priCleared = s.priCleared := rfl
@[simp] theorem modRcd_stop : (modRcd s c f).stop = s.stop := rfl
@[simp] theorem modRcd_dbgctl : (modRcd s c f).dbgctl = s.dbgctl := rfl
@[simp] theorem modRcd_stepped : (modRcd s c f).stepped = s.stepped := rfl
@[simp] theorem modRcd_mbxArgs : (modRcd s c f).mbxArgs = s.mbxArgs := rfl
@[simp] theorem modRcd_mbxResp : (modRcd s c f).mbxResp = s.mbxResp := rfl
@[simp] theorem modRcd_mbxCmd : (modRcd s c f).mbxCmd = s.mbxCmd := rfl
@[simp] theorem modRcd_groups : (modRcd s c f).groups = s.groups := rfl
@[simp] theorem modRcd_groupSeq : (modRcd s c f).groupSeq = s.groupSeq := rfl
@[simp] theorem modRcd_collIn : (modRcd s c f).collIn = s.collIn := rfl
@[simp] theorem modRcd_dieState : (modRcd s c f).dieState = s.dieState := rfl
@[simp] theorem modRcd_vf : (modRcd s c f).vf = s.vf := rfl
@[simp] theorem modRcd_vfNext : (modRcd s c f).vfNext = s.vfNext := rfl
@[simp] theorem modRcd_dieCap : (modRcd s c f).dieCap = s.dieCap := rfl
@[simp] theorem modRcd_stackCap : (modRcd s c f).stackCap = s.stackCap := rfl
@[simp] theorem modRcd_hotSince : (modRcd s c f).hotSince = s.hotSince := rfl
@[simp] theorem modRcd_bootaddr : (modRcd s c f).bootaddr = s.bootaddr := rfl
@[simp] theorem modRcd_measure : (modRcd s c f).measure = s.measure := rfl
@[simp] theorem modRcd_boot : (modRcd s c f).boot = s.boot := rfl
@[simp] theorem modRcd_bootNo : (modRcd s c f).bootNo = s.bootNo := rfl
@[simp] theorem modRcd_capsules : (modRcd s c f).capsules = s.capsules := rfl
@[simp] theorem modRcd_capDue : (modRcd s c f).capDue = s.capDue := rfl
@[simp] theorem modRcd_capSeq : (modRcd s c f).capSeq = s.capSeq := rfl
@[simp] theorem modRcd_summaries : (modRcd s c f).summaries = s.summaries := rfl
@[simp] theorem modRcd_links : (modRcd s c f).links = s.links := rfl
@[simp] theorem modRcd_lostDies : (modRcd s c f).lostDies = s.lostDies := rfl
@[simp] theorem modRcd_ports : (modRcd s c f).ports = s.ports := rfl
@[simp] theorem modRcd_portsOut : (modRcd s c f).portsOut = s.portsOut := rfl
@[simp] theorem modRcd_lastWindow : (modRcd s c f).lastWindow = s.lastWindow := rfl
@[simp] theorem modRcd_lastTimebase : (modRcd s c f).lastTimebase = s.lastTimebase := rfl
@[simp] theorem modRcd_lastPlace : (modRcd s c f).lastPlace = s.lastPlace := rfl
@[simp] theorem modRcd_swept : (modRcd s c f).swept = s.swept := rfl
@[simp] theorem modRcd_powered : (modRcd s c f).powered = s.powered := rfl
@[simp] theorem modRcd_hostFails : (modRcd s c f).hostFails = s.hostFails := rfl
@[simp] theorem modRcd_booting : (modRcd s c f).booting = s.booting := rfl
end

section
variable (s : State) (c type : Nat) (thr : BitVec 16) (pc : DWord) (data : Nat)
@[simp] theorem record_cycle : (record s c type thr pc data).cycle = s.cycle := rfl
@[simp] theorem record_caps : (record s c type thr pc data).caps = s.caps := rfl
@[simp] theorem record_at_ : (record s c type thr pc data).at_ = s.at_ := rfl
@[simp] theorem record_agenda : (record s c type thr pc data).agenda = s.agenda := rfl
@[simp] theorem record_ops : (record s c type thr pc data).ops = s.ops := rfl
@[simp] theorem record_free : (record s c type thr pc data).free = s.free := rfl
@[simp] theorem record_mem : (record s c type thr pc data).mem = s.mem := rfl
@[simp] theorem record_poison : (record s c type thr pc data).poison = s.poison := rfl
@[simp] theorem record_images : (record s c type thr pc data).images = s.images := rfl
@[simp] theorem record_tiles : (record s c type thr pc data).tiles = s.tiles := rfl
@[simp] theorem record_spills : (record s c type thr pc data).spills = s.spills := rfl
@[simp] theorem record_wgs : (record s c type thr pc data).wgs = s.wgs := rfl
@[simp] theorem record_launches : (record s c type thr pc data).launches = s.launches := rfl
@[simp] theorem record_launchNo : (record s c type thr pc data).launchNo = s.launchNo := rfl
@[simp] theorem record_latches : (record s c type thr pc data).latches = s.latches := rfl
@[simp] theorem record_rigPtr : (record s c type thr pc data).rigPtr = s.rigPtr := rfl
@[simp] theorem record_prioPtr : (record s c type thr pc data).prioPtr = s.prioPtr := rfl
@[simp] theorem record_queues : (record s c type thr pc data).queues = s.queues := rfl
@[simp] theorem record_gangs : (record s c type thr pc data).gangs = s.gangs := rfl
@[simp] theorem record_ctxtab : (record s c type thr pc data).ctxtab = s.ctxtab := rfl
@[simp] theorem record_slice : (record s c type thr pc data).slice = s.slice := rfl
@[simp] theorem record_quantum : (record s c type thr pc data).quantum = s.quantum := rfl
@[simp] theorem record_entryPtr : (record s c type thr pc data).entryPtr = s.entryPtr := rfl
@[simp] theorem record_fnPtr : (record s c type thr pc data).fnPtr = s.fnPtr := rfl
@[simp] theorem record_frames : (record s c type thr pc data).frames = s.frames := rfl
@[simp] theorem record_sliceHand : (record s c type thr pc data).sliceHand = s.sliceHand := rfl
@[simp] theorem record_dieLayer : (record s c type thr pc data).dieLayer = s.dieLayer := rfl
@[simp] theorem record_badBuckets : (record s c type thr pc data).badBuckets = s.badBuckets := rfl
@[simp] theorem record_deadChans : (record s c type thr pc data).deadChans = s.deadChans := rfl
@[simp] theorem record_markers : (record s c type thr pc data).markers = s.markers := rfl
@[simp] theorem record_seqs : (record s c type thr pc data).seqs = s.seqs := rfl
@[simp] theorem record_invals : (record s c type thr pc data).invals = s.invals := rfl
@[simp] theorem record_fillReqs : (record s c type thr pc data).fillReqs = s.fillReqs := rfl
@[simp] theorem record_posted : (record s c type thr pc data).posted = s.posted := rfl
@[simp] theorem record_flushed : (record s c type thr pc data).flushed = s.flushed := rfl
@[simp] theorem record_flushes : (record s c type thr pc data).flushes = s.flushes := rfl
@[simp] theorem record_hostReqs : (record s c type thr pc data).hostReqs = s.hostReqs := rfl
@[simp] theorem record_hostStores : (record s c type thr pc data).hostStores = s.hostStores := rfl
@[simp] theorem record_hwErrors : (record s c type thr pc data).hwErrors = s.hwErrors := rfl
@[simp] theorem record_descs : (record s c type thr pc data).descs = s.descs := rfl
@[simp] theorem record_monitors : (record s c type thr pc data).monitors = s.monitors := rfl
@[simp] theorem record_hwrites : (record s c type thr pc data).hwrites = s.hwrites := rfl
@[simp] theorem record_channels : (record s c type thr pc data).channels = s.channels := rfl
@[simp] theorem record_hcfg : (record s c type thr pc data).hcfg = s.hcfg := rfl
@[simp] theorem record_migrations : (record s c type thr pc data).migrations = s.migrations := rfl
@[simp] theorem record_poisonTab : (record s c type thr pc data).poisonTab = s.poisonTab := rfl
@[simp] theorem record_mirrors : (record s c type thr pc data).mirrors = s.mirrors := rfl
@[simp] theorem record_lost : (record s c type thr pc data).lost = s.lost := rfl
@[simp] theorem record_lostFull : (record s c type thr pc data).lostFull = s.lostFull := rfl
@[simp] theorem record_rasCorrected : (record s c type thr pc data).rasCorrected = s.rasCorrected := rfl
@[simp] theorem record_rasPoisoned : (record s c type thr pc data).rasPoisoned = s.rasPoisoned := rfl
@[simp] theorem record_rasLast : (record s c type thr pc data).rasLast = s.rasLast := rfl
@[simp] theorem record_rasHost : (record s c type thr pc data).rasHost = s.rasHost := rfl
@[simp] theorem record_keyTable : (record s c type thr pc data).keyTable = s.keyTable := rfl
@[simp] theorem record_keySlots : (record s c type thr pc data).keySlots = s.keySlots := rfl
@[simp] theorem record_cipher : (record s c type thr pc data).cipher = s.cipher := rfl
@[simp] theorem record_snoopFilter : (record s c type thr pc data).snoopFilter = s.snoopFilter := rfl
@[simp] theorem record_snoops : (record s c type thr pc data).snoops = s.snoops := rfl
@[simp] theorem record_hostInvals : (record s c type thr pc data).hostInvals = s.hostInvals := rfl
@[simp] theorem record_sent : (record s c type thr pc data).sent = s.sent := rfl
@[simp] theorem record_priStopped : (record s c type thr pc data).priStopped = s.priStopped := rfl
@[simp] theorem record_priCleared : (record s c type thr pc data).priCleared = s.priCleared := rfl
@[simp] theorem record_stop : (record s c type thr pc data).stop = s.stop := rfl
@[simp] theorem record_dbgctl : (record s c type thr pc data).dbgctl = s.dbgctl := rfl
@[simp] theorem record_stepped : (record s c type thr pc data).stepped = s.stepped := rfl
@[simp] theorem record_mbxArgs : (record s c type thr pc data).mbxArgs = s.mbxArgs := rfl
@[simp] theorem record_mbxResp : (record s c type thr pc data).mbxResp = s.mbxResp := rfl
@[simp] theorem record_mbxCmd : (record s c type thr pc data).mbxCmd = s.mbxCmd := rfl
@[simp] theorem record_groups : (record s c type thr pc data).groups = s.groups := rfl
@[simp] theorem record_groupSeq : (record s c type thr pc data).groupSeq = s.groupSeq := rfl
@[simp] theorem record_collIn : (record s c type thr pc data).collIn = s.collIn := rfl
@[simp] theorem record_dieState : (record s c type thr pc data).dieState = s.dieState := rfl
@[simp] theorem record_vf : (record s c type thr pc data).vf = s.vf := rfl
@[simp] theorem record_vfNext : (record s c type thr pc data).vfNext = s.vfNext := rfl
@[simp] theorem record_dieCap : (record s c type thr pc data).dieCap = s.dieCap := rfl
@[simp] theorem record_stackCap : (record s c type thr pc data).stackCap = s.stackCap := rfl
@[simp] theorem record_hotSince : (record s c type thr pc data).hotSince = s.hotSince := rfl
@[simp] theorem record_bootaddr : (record s c type thr pc data).bootaddr = s.bootaddr := rfl
@[simp] theorem record_measure : (record s c type thr pc data).measure = s.measure := rfl
@[simp] theorem record_boot : (record s c type thr pc data).boot = s.boot := rfl
@[simp] theorem record_bootNo : (record s c type thr pc data).bootNo = s.bootNo := rfl
@[simp] theorem record_capsules : (record s c type thr pc data).capsules = s.capsules := rfl
@[simp] theorem record_capDue : (record s c type thr pc data).capDue = s.capDue := rfl
@[simp] theorem record_capSeq : (record s c type thr pc data).capSeq = s.capSeq := rfl
@[simp] theorem record_summaries : (record s c type thr pc data).summaries = s.summaries := rfl
@[simp] theorem record_links : (record s c type thr pc data).links = s.links := rfl
@[simp] theorem record_lostDies : (record s c type thr pc data).lostDies = s.lostDies := rfl
@[simp] theorem record_ports : (record s c type thr pc data).ports = s.ports := rfl
@[simp] theorem record_portsOut : (record s c type thr pc data).portsOut = s.portsOut := rfl
@[simp] theorem record_lastWindow : (record s c type thr pc data).lastWindow = s.lastWindow := rfl
@[simp] theorem record_lastTimebase : (record s c type thr pc data).lastTimebase = s.lastTimebase := rfl
@[simp] theorem record_lastPlace : (record s c type thr pc data).lastPlace = s.lastPlace := rfl
@[simp] theorem record_swept : (record s c type thr pc data).swept = s.swept := rfl
@[simp] theorem record_powered : (record s c type thr pc data).powered = s.powered := rfl
@[simp] theorem record_hostFails : (record s c type thr pc data).hostFails = s.hostFails := rfl
@[simp] theorem record_booting : (record s c type thr pc data).booting = s.booting := rfl
end

section
variable (s : State)
@[simp] theorem fresh_cycle : (fresh s).cycle = s.cycle := rfl
@[simp] theorem fresh_caps : (fresh s).caps = s.caps := rfl
@[simp] theorem fresh_at_ : (fresh s).at_ = s.at_ := rfl
@[simp] theorem fresh_agenda : (fresh s).agenda = s.agenda := rfl
@[simp] theorem fresh_free : (fresh s).free = s.free := rfl
@[simp] theorem fresh_mem : (fresh s).mem = s.mem := rfl
@[simp] theorem fresh_poison : (fresh s).poison = s.poison := rfl
@[simp] theorem fresh_cores : (fresh s).cores = s.cores := rfl
@[simp] theorem fresh_images : (fresh s).images = s.images := rfl
@[simp] theorem fresh_tiles : (fresh s).tiles = s.tiles := rfl
@[simp] theorem fresh_spills : (fresh s).spills = s.spills := rfl
@[simp] theorem fresh_wgs : (fresh s).wgs = s.wgs := rfl
@[simp] theorem fresh_launches : (fresh s).launches = s.launches := rfl
@[simp] theorem fresh_launchNo : (fresh s).launchNo = s.launchNo := rfl
@[simp] theorem fresh_latches : (fresh s).latches = s.latches := rfl
@[simp] theorem fresh_rigPtr : (fresh s).rigPtr = s.rigPtr := rfl
@[simp] theorem fresh_prioPtr : (fresh s).prioPtr = s.prioPtr := rfl
@[simp] theorem fresh_queues : (fresh s).queues = s.queues := rfl
@[simp] theorem fresh_gangs : (fresh s).gangs = s.gangs := rfl
@[simp] theorem fresh_ctxtab : (fresh s).ctxtab = s.ctxtab := rfl
@[simp] theorem fresh_slice : (fresh s).slice = s.slice := rfl
@[simp] theorem fresh_quantum : (fresh s).quantum = s.quantum := rfl
@[simp] theorem fresh_entryPtr : (fresh s).entryPtr = s.entryPtr := rfl
@[simp] theorem fresh_fnPtr : (fresh s).fnPtr = s.fnPtr := rfl
@[simp] theorem fresh_frames : (fresh s).frames = s.frames := rfl
@[simp] theorem fresh_sliceHand : (fresh s).sliceHand = s.sliceHand := rfl
@[simp] theorem fresh_dieLayer : (fresh s).dieLayer = s.dieLayer := rfl
@[simp] theorem fresh_badBuckets : (fresh s).badBuckets = s.badBuckets := rfl
@[simp] theorem fresh_deadChans : (fresh s).deadChans = s.deadChans := rfl
@[simp] theorem fresh_markers : (fresh s).markers = s.markers := rfl
@[simp] theorem fresh_seqs : (fresh s).seqs = s.seqs := rfl
@[simp] theorem fresh_invals : (fresh s).invals = s.invals := rfl
@[simp] theorem fresh_fillReqs : (fresh s).fillReqs = s.fillReqs := rfl
@[simp] theorem fresh_posted : (fresh s).posted = s.posted := rfl
@[simp] theorem fresh_flushed : (fresh s).flushed = s.flushed := rfl
@[simp] theorem fresh_flushes : (fresh s).flushes = s.flushes := rfl
@[simp] theorem fresh_hostReqs : (fresh s).hostReqs = s.hostReqs := rfl
@[simp] theorem fresh_hostStores : (fresh s).hostStores = s.hostStores := rfl
@[simp] theorem fresh_hwErrors : (fresh s).hwErrors = s.hwErrors := rfl
@[simp] theorem fresh_descs : (fresh s).descs = s.descs := rfl
@[simp] theorem fresh_monitors : (fresh s).monitors = s.monitors := rfl
@[simp] theorem fresh_hwrites : (fresh s).hwrites = s.hwrites := rfl
@[simp] theorem fresh_channels : (fresh s).channels = s.channels := rfl
@[simp] theorem fresh_hcfg : (fresh s).hcfg = s.hcfg := rfl
@[simp] theorem fresh_migrations : (fresh s).migrations = s.migrations := rfl
@[simp] theorem fresh_poisonTab : (fresh s).poisonTab = s.poisonTab := rfl
@[simp] theorem fresh_mirrors : (fresh s).mirrors = s.mirrors := rfl
@[simp] theorem fresh_lost : (fresh s).lost = s.lost := rfl
@[simp] theorem fresh_lostFull : (fresh s).lostFull = s.lostFull := rfl
@[simp] theorem fresh_rasCorrected : (fresh s).rasCorrected = s.rasCorrected := rfl
@[simp] theorem fresh_rasPoisoned : (fresh s).rasPoisoned = s.rasPoisoned := rfl
@[simp] theorem fresh_rasLast : (fresh s).rasLast = s.rasLast := rfl
@[simp] theorem fresh_rasHost : (fresh s).rasHost = s.rasHost := rfl
@[simp] theorem fresh_keyTable : (fresh s).keyTable = s.keyTable := rfl
@[simp] theorem fresh_keySlots : (fresh s).keySlots = s.keySlots := rfl
@[simp] theorem fresh_cipher : (fresh s).cipher = s.cipher := rfl
@[simp] theorem fresh_snoopFilter : (fresh s).snoopFilter = s.snoopFilter := rfl
@[simp] theorem fresh_snoops : (fresh s).snoops = s.snoops := rfl
@[simp] theorem fresh_hostInvals : (fresh s).hostInvals = s.hostInvals := rfl
@[simp] theorem fresh_sent : (fresh s).sent = s.sent := rfl
@[simp] theorem fresh_priStopped : (fresh s).priStopped = s.priStopped := rfl
@[simp] theorem fresh_priCleared : (fresh s).priCleared = s.priCleared := rfl
@[simp] theorem fresh_stop : (fresh s).stop = s.stop := rfl
@[simp] theorem fresh_dbgctl : (fresh s).dbgctl = s.dbgctl := rfl
@[simp] theorem fresh_stepped : (fresh s).stepped = s.stepped := rfl
@[simp] theorem fresh_mbxArgs : (fresh s).mbxArgs = s.mbxArgs := rfl
@[simp] theorem fresh_mbxResp : (fresh s).mbxResp = s.mbxResp := rfl
@[simp] theorem fresh_mbxCmd : (fresh s).mbxCmd = s.mbxCmd := rfl
@[simp] theorem fresh_groups : (fresh s).groups = s.groups := rfl
@[simp] theorem fresh_groupSeq : (fresh s).groupSeq = s.groupSeq := rfl
@[simp] theorem fresh_collIn : (fresh s).collIn = s.collIn := rfl
@[simp] theorem fresh_dieState : (fresh s).dieState = s.dieState := rfl
@[simp] theorem fresh_vf : (fresh s).vf = s.vf := rfl
@[simp] theorem fresh_vfNext : (fresh s).vfNext = s.vfNext := rfl
@[simp] theorem fresh_dieCap : (fresh s).dieCap = s.dieCap := rfl
@[simp] theorem fresh_stackCap : (fresh s).stackCap = s.stackCap := rfl
@[simp] theorem fresh_hotSince : (fresh s).hotSince = s.hotSince := rfl
@[simp] theorem fresh_bootaddr : (fresh s).bootaddr = s.bootaddr := rfl
@[simp] theorem fresh_measure : (fresh s).measure = s.measure := rfl
@[simp] theorem fresh_boot : (fresh s).boot = s.boot := rfl
@[simp] theorem fresh_bootNo : (fresh s).bootNo = s.bootNo := rfl
@[simp] theorem fresh_capsules : (fresh s).capsules = s.capsules := rfl
@[simp] theorem fresh_capDue : (fresh s).capDue = s.capDue := rfl
@[simp] theorem fresh_capSeq : (fresh s).capSeq = s.capSeq := rfl
@[simp] theorem fresh_summaries : (fresh s).summaries = s.summaries := rfl
@[simp] theorem fresh_links : (fresh s).links = s.links := rfl
@[simp] theorem fresh_lostDies : (fresh s).lostDies = s.lostDies := rfl
@[simp] theorem fresh_ports : (fresh s).ports = s.ports := rfl
@[simp] theorem fresh_portsOut : (fresh s).portsOut = s.portsOut := rfl
@[simp] theorem fresh_lastWindow : (fresh s).lastWindow = s.lastWindow := rfl
@[simp] theorem fresh_lastTimebase : (fresh s).lastTimebase = s.lastTimebase := rfl
@[simp] theorem fresh_lastPlace : (fresh s).lastPlace = s.lastPlace := rfl
@[simp] theorem fresh_swept : (fresh s).swept = s.swept := rfl
@[simp] theorem fresh_powered : (fresh s).powered = s.powered := rfl
@[simp] theorem fresh_hostFails : (fresh s).hostFails = s.hostFails := rfl
@[simp] theorem fresh_booting : (fresh s).booting = s.booting := rfl
end

section
variable (s : State) (w : Nat) (f : Workgroup → Workgroup)
@[simp] theorem modWG_cycle : (modWG s w f).cycle = s.cycle := rfl
@[simp] theorem modWG_caps : (modWG s w f).caps = s.caps := rfl
@[simp] theorem modWG_at_ : (modWG s w f).at_ = s.at_ := rfl
@[simp] theorem modWG_agenda : (modWG s w f).agenda = s.agenda := rfl
@[simp] theorem modWG_ops : (modWG s w f).ops = s.ops := rfl
@[simp] theorem modWG_free : (modWG s w f).free = s.free := rfl
@[simp] theorem modWG_mem : (modWG s w f).mem = s.mem := rfl
@[simp] theorem modWG_poison : (modWG s w f).poison = s.poison := rfl
@[simp] theorem modWG_cores : (modWG s w f).cores = s.cores := rfl
@[simp] theorem modWG_images : (modWG s w f).images = s.images := rfl
@[simp] theorem modWG_tiles : (modWG s w f).tiles = s.tiles := rfl
@[simp] theorem modWG_spills : (modWG s w f).spills = s.spills := rfl
@[simp] theorem modWG_launches : (modWG s w f).launches = s.launches := rfl
@[simp] theorem modWG_launchNo : (modWG s w f).launchNo = s.launchNo := rfl
@[simp] theorem modWG_latches : (modWG s w f).latches = s.latches := rfl
@[simp] theorem modWG_rigPtr : (modWG s w f).rigPtr = s.rigPtr := rfl
@[simp] theorem modWG_prioPtr : (modWG s w f).prioPtr = s.prioPtr := rfl
@[simp] theorem modWG_queues : (modWG s w f).queues = s.queues := rfl
@[simp] theorem modWG_gangs : (modWG s w f).gangs = s.gangs := rfl
@[simp] theorem modWG_ctxtab : (modWG s w f).ctxtab = s.ctxtab := rfl
@[simp] theorem modWG_slice : (modWG s w f).slice = s.slice := rfl
@[simp] theorem modWG_quantum : (modWG s w f).quantum = s.quantum := rfl
@[simp] theorem modWG_entryPtr : (modWG s w f).entryPtr = s.entryPtr := rfl
@[simp] theorem modWG_fnPtr : (modWG s w f).fnPtr = s.fnPtr := rfl
@[simp] theorem modWG_frames : (modWG s w f).frames = s.frames := rfl
@[simp] theorem modWG_sliceHand : (modWG s w f).sliceHand = s.sliceHand := rfl
@[simp] theorem modWG_dieLayer : (modWG s w f).dieLayer = s.dieLayer := rfl
@[simp] theorem modWG_badBuckets : (modWG s w f).badBuckets = s.badBuckets := rfl
@[simp] theorem modWG_deadChans : (modWG s w f).deadChans = s.deadChans := rfl
@[simp] theorem modWG_markers : (modWG s w f).markers = s.markers := rfl
@[simp] theorem modWG_seqs : (modWG s w f).seqs = s.seqs := rfl
@[simp] theorem modWG_invals : (modWG s w f).invals = s.invals := rfl
@[simp] theorem modWG_fillReqs : (modWG s w f).fillReqs = s.fillReqs := rfl
@[simp] theorem modWG_posted : (modWG s w f).posted = s.posted := rfl
@[simp] theorem modWG_flushed : (modWG s w f).flushed = s.flushed := rfl
@[simp] theorem modWG_flushes : (modWG s w f).flushes = s.flushes := rfl
@[simp] theorem modWG_hostReqs : (modWG s w f).hostReqs = s.hostReqs := rfl
@[simp] theorem modWG_hostStores : (modWG s w f).hostStores = s.hostStores := rfl
@[simp] theorem modWG_hwErrors : (modWG s w f).hwErrors = s.hwErrors := rfl
@[simp] theorem modWG_descs : (modWG s w f).descs = s.descs := rfl
@[simp] theorem modWG_monitors : (modWG s w f).monitors = s.monitors := rfl
@[simp] theorem modWG_hwrites : (modWG s w f).hwrites = s.hwrites := rfl
@[simp] theorem modWG_channels : (modWG s w f).channels = s.channels := rfl
@[simp] theorem modWG_hcfg : (modWG s w f).hcfg = s.hcfg := rfl
@[simp] theorem modWG_migrations : (modWG s w f).migrations = s.migrations := rfl
@[simp] theorem modWG_poisonTab : (modWG s w f).poisonTab = s.poisonTab := rfl
@[simp] theorem modWG_mirrors : (modWG s w f).mirrors = s.mirrors := rfl
@[simp] theorem modWG_lost : (modWG s w f).lost = s.lost := rfl
@[simp] theorem modWG_lostFull : (modWG s w f).lostFull = s.lostFull := rfl
@[simp] theorem modWG_rasCorrected : (modWG s w f).rasCorrected = s.rasCorrected := rfl
@[simp] theorem modWG_rasPoisoned : (modWG s w f).rasPoisoned = s.rasPoisoned := rfl
@[simp] theorem modWG_rasLast : (modWG s w f).rasLast = s.rasLast := rfl
@[simp] theorem modWG_rasHost : (modWG s w f).rasHost = s.rasHost := rfl
@[simp] theorem modWG_keyTable : (modWG s w f).keyTable = s.keyTable := rfl
@[simp] theorem modWG_keySlots : (modWG s w f).keySlots = s.keySlots := rfl
@[simp] theorem modWG_cipher : (modWG s w f).cipher = s.cipher := rfl
@[simp] theorem modWG_snoopFilter : (modWG s w f).snoopFilter = s.snoopFilter := rfl
@[simp] theorem modWG_snoops : (modWG s w f).snoops = s.snoops := rfl
@[simp] theorem modWG_hostInvals : (modWG s w f).hostInvals = s.hostInvals := rfl
@[simp] theorem modWG_sent : (modWG s w f).sent = s.sent := rfl
@[simp] theorem modWG_priStopped : (modWG s w f).priStopped = s.priStopped := rfl
@[simp] theorem modWG_priCleared : (modWG s w f).priCleared = s.priCleared := rfl
@[simp] theorem modWG_stop : (modWG s w f).stop = s.stop := rfl
@[simp] theorem modWG_dbgctl : (modWG s w f).dbgctl = s.dbgctl := rfl
@[simp] theorem modWG_stepped : (modWG s w f).stepped = s.stepped := rfl
@[simp] theorem modWG_mbxArgs : (modWG s w f).mbxArgs = s.mbxArgs := rfl
@[simp] theorem modWG_mbxResp : (modWG s w f).mbxResp = s.mbxResp := rfl
@[simp] theorem modWG_mbxCmd : (modWG s w f).mbxCmd = s.mbxCmd := rfl
@[simp] theorem modWG_groups : (modWG s w f).groups = s.groups := rfl
@[simp] theorem modWG_groupSeq : (modWG s w f).groupSeq = s.groupSeq := rfl
@[simp] theorem modWG_collIn : (modWG s w f).collIn = s.collIn := rfl
@[simp] theorem modWG_dieState : (modWG s w f).dieState = s.dieState := rfl
@[simp] theorem modWG_vf : (modWG s w f).vf = s.vf := rfl
@[simp] theorem modWG_vfNext : (modWG s w f).vfNext = s.vfNext := rfl
@[simp] theorem modWG_dieCap : (modWG s w f).dieCap = s.dieCap := rfl
@[simp] theorem modWG_stackCap : (modWG s w f).stackCap = s.stackCap := rfl
@[simp] theorem modWG_hotSince : (modWG s w f).hotSince = s.hotSince := rfl
@[simp] theorem modWG_bootaddr : (modWG s w f).bootaddr = s.bootaddr := rfl
@[simp] theorem modWG_measure : (modWG s w f).measure = s.measure := rfl
@[simp] theorem modWG_boot : (modWG s w f).boot = s.boot := rfl
@[simp] theorem modWG_bootNo : (modWG s w f).bootNo = s.bootNo := rfl
@[simp] theorem modWG_capsules : (modWG s w f).capsules = s.capsules := rfl
@[simp] theorem modWG_capDue : (modWG s w f).capDue = s.capDue := rfl
@[simp] theorem modWG_capSeq : (modWG s w f).capSeq = s.capSeq := rfl
@[simp] theorem modWG_summaries : (modWG s w f).summaries = s.summaries := rfl
@[simp] theorem modWG_links : (modWG s w f).links = s.links := rfl
@[simp] theorem modWG_lostDies : (modWG s w f).lostDies = s.lostDies := rfl
@[simp] theorem modWG_ports : (modWG s w f).ports = s.ports := rfl
@[simp] theorem modWG_portsOut : (modWG s w f).portsOut = s.portsOut := rfl
@[simp] theorem modWG_lastWindow : (modWG s w f).lastWindow = s.lastWindow := rfl
@[simp] theorem modWG_lastTimebase : (modWG s w f).lastTimebase = s.lastTimebase := rfl
@[simp] theorem modWG_lastPlace : (modWG s w f).lastPlace = s.lastPlace := rfl
@[simp] theorem modWG_swept : (modWG s w f).swept = s.swept := rfl
@[simp] theorem modWG_powered : (modWG s w f).powered = s.powered := rfl
@[simp] theorem modWG_hostFails : (modWG s w f).hostFails = s.hostFails := rfl
@[simp] theorem modWG_booting : (modWG s w f).booting = s.booting := rfl
end

section
variable (s : State) (i : Nat) (f : Launch → Launch)
@[simp] theorem modLaunch_cycle : (modLaunch s i f).cycle = s.cycle := rfl
@[simp] theorem modLaunch_caps : (modLaunch s i f).caps = s.caps := rfl
@[simp] theorem modLaunch_at_ : (modLaunch s i f).at_ = s.at_ := rfl
@[simp] theorem modLaunch_agenda : (modLaunch s i f).agenda = s.agenda := rfl
@[simp] theorem modLaunch_ops : (modLaunch s i f).ops = s.ops := rfl
@[simp] theorem modLaunch_free : (modLaunch s i f).free = s.free := rfl
@[simp] theorem modLaunch_mem : (modLaunch s i f).mem = s.mem := rfl
@[simp] theorem modLaunch_poison : (modLaunch s i f).poison = s.poison := rfl
@[simp] theorem modLaunch_cores : (modLaunch s i f).cores = s.cores := rfl
@[simp] theorem modLaunch_images : (modLaunch s i f).images = s.images := rfl
@[simp] theorem modLaunch_tiles : (modLaunch s i f).tiles = s.tiles := rfl
@[simp] theorem modLaunch_spills : (modLaunch s i f).spills = s.spills := rfl
@[simp] theorem modLaunch_wgs : (modLaunch s i f).wgs = s.wgs := rfl
@[simp] theorem modLaunch_launchNo : (modLaunch s i f).launchNo = s.launchNo := rfl
@[simp] theorem modLaunch_latches : (modLaunch s i f).latches = s.latches := rfl
@[simp] theorem modLaunch_rigPtr : (modLaunch s i f).rigPtr = s.rigPtr := rfl
@[simp] theorem modLaunch_prioPtr : (modLaunch s i f).prioPtr = s.prioPtr := rfl
@[simp] theorem modLaunch_queues : (modLaunch s i f).queues = s.queues := rfl
@[simp] theorem modLaunch_gangs : (modLaunch s i f).gangs = s.gangs := rfl
@[simp] theorem modLaunch_ctxtab : (modLaunch s i f).ctxtab = s.ctxtab := rfl
@[simp] theorem modLaunch_slice : (modLaunch s i f).slice = s.slice := rfl
@[simp] theorem modLaunch_quantum : (modLaunch s i f).quantum = s.quantum := rfl
@[simp] theorem modLaunch_entryPtr : (modLaunch s i f).entryPtr = s.entryPtr := rfl
@[simp] theorem modLaunch_fnPtr : (modLaunch s i f).fnPtr = s.fnPtr := rfl
@[simp] theorem modLaunch_frames : (modLaunch s i f).frames = s.frames := rfl
@[simp] theorem modLaunch_sliceHand : (modLaunch s i f).sliceHand = s.sliceHand := rfl
@[simp] theorem modLaunch_dieLayer : (modLaunch s i f).dieLayer = s.dieLayer := rfl
@[simp] theorem modLaunch_badBuckets : (modLaunch s i f).badBuckets = s.badBuckets := rfl
@[simp] theorem modLaunch_deadChans : (modLaunch s i f).deadChans = s.deadChans := rfl
@[simp] theorem modLaunch_markers : (modLaunch s i f).markers = s.markers := rfl
@[simp] theorem modLaunch_seqs : (modLaunch s i f).seqs = s.seqs := rfl
@[simp] theorem modLaunch_invals : (modLaunch s i f).invals = s.invals := rfl
@[simp] theorem modLaunch_fillReqs : (modLaunch s i f).fillReqs = s.fillReqs := rfl
@[simp] theorem modLaunch_posted : (modLaunch s i f).posted = s.posted := rfl
@[simp] theorem modLaunch_flushed : (modLaunch s i f).flushed = s.flushed := rfl
@[simp] theorem modLaunch_flushes : (modLaunch s i f).flushes = s.flushes := rfl
@[simp] theorem modLaunch_hostReqs : (modLaunch s i f).hostReqs = s.hostReqs := rfl
@[simp] theorem modLaunch_hostStores : (modLaunch s i f).hostStores = s.hostStores := rfl
@[simp] theorem modLaunch_hwErrors : (modLaunch s i f).hwErrors = s.hwErrors := rfl
@[simp] theorem modLaunch_descs : (modLaunch s i f).descs = s.descs := rfl
@[simp] theorem modLaunch_monitors : (modLaunch s i f).monitors = s.monitors := rfl
@[simp] theorem modLaunch_hwrites : (modLaunch s i f).hwrites = s.hwrites := rfl
@[simp] theorem modLaunch_channels : (modLaunch s i f).channels = s.channels := rfl
@[simp] theorem modLaunch_hcfg : (modLaunch s i f).hcfg = s.hcfg := rfl
@[simp] theorem modLaunch_migrations : (modLaunch s i f).migrations = s.migrations := rfl
@[simp] theorem modLaunch_poisonTab : (modLaunch s i f).poisonTab = s.poisonTab := rfl
@[simp] theorem modLaunch_mirrors : (modLaunch s i f).mirrors = s.mirrors := rfl
@[simp] theorem modLaunch_lost : (modLaunch s i f).lost = s.lost := rfl
@[simp] theorem modLaunch_lostFull : (modLaunch s i f).lostFull = s.lostFull := rfl
@[simp] theorem modLaunch_rasCorrected : (modLaunch s i f).rasCorrected = s.rasCorrected := rfl
@[simp] theorem modLaunch_rasPoisoned : (modLaunch s i f).rasPoisoned = s.rasPoisoned := rfl
@[simp] theorem modLaunch_rasLast : (modLaunch s i f).rasLast = s.rasLast := rfl
@[simp] theorem modLaunch_rasHost : (modLaunch s i f).rasHost = s.rasHost := rfl
@[simp] theorem modLaunch_keyTable : (modLaunch s i f).keyTable = s.keyTable := rfl
@[simp] theorem modLaunch_keySlots : (modLaunch s i f).keySlots = s.keySlots := rfl
@[simp] theorem modLaunch_cipher : (modLaunch s i f).cipher = s.cipher := rfl
@[simp] theorem modLaunch_snoopFilter : (modLaunch s i f).snoopFilter = s.snoopFilter := rfl
@[simp] theorem modLaunch_snoops : (modLaunch s i f).snoops = s.snoops := rfl
@[simp] theorem modLaunch_hostInvals : (modLaunch s i f).hostInvals = s.hostInvals := rfl
@[simp] theorem modLaunch_sent : (modLaunch s i f).sent = s.sent := rfl
@[simp] theorem modLaunch_priStopped : (modLaunch s i f).priStopped = s.priStopped := rfl
@[simp] theorem modLaunch_priCleared : (modLaunch s i f).priCleared = s.priCleared := rfl
@[simp] theorem modLaunch_stop : (modLaunch s i f).stop = s.stop := rfl
@[simp] theorem modLaunch_dbgctl : (modLaunch s i f).dbgctl = s.dbgctl := rfl
@[simp] theorem modLaunch_stepped : (modLaunch s i f).stepped = s.stepped := rfl
@[simp] theorem modLaunch_mbxArgs : (modLaunch s i f).mbxArgs = s.mbxArgs := rfl
@[simp] theorem modLaunch_mbxResp : (modLaunch s i f).mbxResp = s.mbxResp := rfl
@[simp] theorem modLaunch_mbxCmd : (modLaunch s i f).mbxCmd = s.mbxCmd := rfl
@[simp] theorem modLaunch_groups : (modLaunch s i f).groups = s.groups := rfl
@[simp] theorem modLaunch_groupSeq : (modLaunch s i f).groupSeq = s.groupSeq := rfl
@[simp] theorem modLaunch_collIn : (modLaunch s i f).collIn = s.collIn := rfl
@[simp] theorem modLaunch_dieState : (modLaunch s i f).dieState = s.dieState := rfl
@[simp] theorem modLaunch_vf : (modLaunch s i f).vf = s.vf := rfl
@[simp] theorem modLaunch_vfNext : (modLaunch s i f).vfNext = s.vfNext := rfl
@[simp] theorem modLaunch_dieCap : (modLaunch s i f).dieCap = s.dieCap := rfl
@[simp] theorem modLaunch_stackCap : (modLaunch s i f).stackCap = s.stackCap := rfl
@[simp] theorem modLaunch_hotSince : (modLaunch s i f).hotSince = s.hotSince := rfl
@[simp] theorem modLaunch_bootaddr : (modLaunch s i f).bootaddr = s.bootaddr := rfl
@[simp] theorem modLaunch_measure : (modLaunch s i f).measure = s.measure := rfl
@[simp] theorem modLaunch_boot : (modLaunch s i f).boot = s.boot := rfl
@[simp] theorem modLaunch_bootNo : (modLaunch s i f).bootNo = s.bootNo := rfl
@[simp] theorem modLaunch_capsules : (modLaunch s i f).capsules = s.capsules := rfl
@[simp] theorem modLaunch_capDue : (modLaunch s i f).capDue = s.capDue := rfl
@[simp] theorem modLaunch_capSeq : (modLaunch s i f).capSeq = s.capSeq := rfl
@[simp] theorem modLaunch_summaries : (modLaunch s i f).summaries = s.summaries := rfl
@[simp] theorem modLaunch_links : (modLaunch s i f).links = s.links := rfl
@[simp] theorem modLaunch_lostDies : (modLaunch s i f).lostDies = s.lostDies := rfl
@[simp] theorem modLaunch_ports : (modLaunch s i f).ports = s.ports := rfl
@[simp] theorem modLaunch_portsOut : (modLaunch s i f).portsOut = s.portsOut := rfl
@[simp] theorem modLaunch_lastWindow : (modLaunch s i f).lastWindow = s.lastWindow := rfl
@[simp] theorem modLaunch_lastTimebase : (modLaunch s i f).lastTimebase = s.lastTimebase := rfl
@[simp] theorem modLaunch_lastPlace : (modLaunch s i f).lastPlace = s.lastPlace := rfl
@[simp] theorem modLaunch_swept : (modLaunch s i f).swept = s.swept := rfl
@[simp] theorem modLaunch_powered : (modLaunch s i f).powered = s.powered := rfl
@[simp] theorem modLaunch_hostFails : (modLaunch s i f).hostFails = s.hostFails := rfl
@[simp] theorem modLaunch_booting : (modLaunch s i f).booting = s.booting := rfl
end

section
variable (s : State) (k : Nat) (f : Frame → Frame)
@[simp] theorem modFrame_cycle : (modFrame s k f).cycle = s.cycle := rfl
@[simp] theorem modFrame_caps : (modFrame s k f).caps = s.caps := rfl
@[simp] theorem modFrame_at_ : (modFrame s k f).at_ = s.at_ := rfl
@[simp] theorem modFrame_agenda : (modFrame s k f).agenda = s.agenda := rfl
@[simp] theorem modFrame_ops : (modFrame s k f).ops = s.ops := rfl
@[simp] theorem modFrame_free : (modFrame s k f).free = s.free := rfl
@[simp] theorem modFrame_mem : (modFrame s k f).mem = s.mem := rfl
@[simp] theorem modFrame_poison : (modFrame s k f).poison = s.poison := rfl
@[simp] theorem modFrame_cores : (modFrame s k f).cores = s.cores := rfl
@[simp] theorem modFrame_images : (modFrame s k f).images = s.images := rfl
@[simp] theorem modFrame_tiles : (modFrame s k f).tiles = s.tiles := rfl
@[simp] theorem modFrame_spills : (modFrame s k f).spills = s.spills := rfl
@[simp] theorem modFrame_wgs : (modFrame s k f).wgs = s.wgs := rfl
@[simp] theorem modFrame_launches : (modFrame s k f).launches = s.launches := rfl
@[simp] theorem modFrame_launchNo : (modFrame s k f).launchNo = s.launchNo := rfl
@[simp] theorem modFrame_latches : (modFrame s k f).latches = s.latches := rfl
@[simp] theorem modFrame_rigPtr : (modFrame s k f).rigPtr = s.rigPtr := rfl
@[simp] theorem modFrame_prioPtr : (modFrame s k f).prioPtr = s.prioPtr := rfl
@[simp] theorem modFrame_queues : (modFrame s k f).queues = s.queues := rfl
@[simp] theorem modFrame_gangs : (modFrame s k f).gangs = s.gangs := rfl
@[simp] theorem modFrame_ctxtab : (modFrame s k f).ctxtab = s.ctxtab := rfl
@[simp] theorem modFrame_slice : (modFrame s k f).slice = s.slice := rfl
@[simp] theorem modFrame_quantum : (modFrame s k f).quantum = s.quantum := rfl
@[simp] theorem modFrame_entryPtr : (modFrame s k f).entryPtr = s.entryPtr := rfl
@[simp] theorem modFrame_fnPtr : (modFrame s k f).fnPtr = s.fnPtr := rfl
@[simp] theorem modFrame_sliceHand : (modFrame s k f).sliceHand = s.sliceHand := rfl
@[simp] theorem modFrame_dieLayer : (modFrame s k f).dieLayer = s.dieLayer := rfl
@[simp] theorem modFrame_badBuckets : (modFrame s k f).badBuckets = s.badBuckets := rfl
@[simp] theorem modFrame_deadChans : (modFrame s k f).deadChans = s.deadChans := rfl
@[simp] theorem modFrame_markers : (modFrame s k f).markers = s.markers := rfl
@[simp] theorem modFrame_seqs : (modFrame s k f).seqs = s.seqs := rfl
@[simp] theorem modFrame_invals : (modFrame s k f).invals = s.invals := rfl
@[simp] theorem modFrame_fillReqs : (modFrame s k f).fillReqs = s.fillReqs := rfl
@[simp] theorem modFrame_posted : (modFrame s k f).posted = s.posted := rfl
@[simp] theorem modFrame_flushed : (modFrame s k f).flushed = s.flushed := rfl
@[simp] theorem modFrame_flushes : (modFrame s k f).flushes = s.flushes := rfl
@[simp] theorem modFrame_hostReqs : (modFrame s k f).hostReqs = s.hostReqs := rfl
@[simp] theorem modFrame_hostStores : (modFrame s k f).hostStores = s.hostStores := rfl
@[simp] theorem modFrame_hwErrors : (modFrame s k f).hwErrors = s.hwErrors := rfl
@[simp] theorem modFrame_descs : (modFrame s k f).descs = s.descs := rfl
@[simp] theorem modFrame_monitors : (modFrame s k f).monitors = s.monitors := rfl
@[simp] theorem modFrame_hwrites : (modFrame s k f).hwrites = s.hwrites := rfl
@[simp] theorem modFrame_channels : (modFrame s k f).channels = s.channels := rfl
@[simp] theorem modFrame_hcfg : (modFrame s k f).hcfg = s.hcfg := rfl
@[simp] theorem modFrame_migrations : (modFrame s k f).migrations = s.migrations := rfl
@[simp] theorem modFrame_poisonTab : (modFrame s k f).poisonTab = s.poisonTab := rfl
@[simp] theorem modFrame_mirrors : (modFrame s k f).mirrors = s.mirrors := rfl
@[simp] theorem modFrame_lost : (modFrame s k f).lost = s.lost := rfl
@[simp] theorem modFrame_lostFull : (modFrame s k f).lostFull = s.lostFull := rfl
@[simp] theorem modFrame_rasCorrected : (modFrame s k f).rasCorrected = s.rasCorrected := rfl
@[simp] theorem modFrame_rasPoisoned : (modFrame s k f).rasPoisoned = s.rasPoisoned := rfl
@[simp] theorem modFrame_rasLast : (modFrame s k f).rasLast = s.rasLast := rfl
@[simp] theorem modFrame_rasHost : (modFrame s k f).rasHost = s.rasHost := rfl
@[simp] theorem modFrame_keyTable : (modFrame s k f).keyTable = s.keyTable := rfl
@[simp] theorem modFrame_keySlots : (modFrame s k f).keySlots = s.keySlots := rfl
@[simp] theorem modFrame_cipher : (modFrame s k f).cipher = s.cipher := rfl
@[simp] theorem modFrame_snoopFilter : (modFrame s k f).snoopFilter = s.snoopFilter := rfl
@[simp] theorem modFrame_snoops : (modFrame s k f).snoops = s.snoops := rfl
@[simp] theorem modFrame_hostInvals : (modFrame s k f).hostInvals = s.hostInvals := rfl
@[simp] theorem modFrame_sent : (modFrame s k f).sent = s.sent := rfl
@[simp] theorem modFrame_priStopped : (modFrame s k f).priStopped = s.priStopped := rfl
@[simp] theorem modFrame_priCleared : (modFrame s k f).priCleared = s.priCleared := rfl
@[simp] theorem modFrame_stop : (modFrame s k f).stop = s.stop := rfl
@[simp] theorem modFrame_dbgctl : (modFrame s k f).dbgctl = s.dbgctl := rfl
@[simp] theorem modFrame_stepped : (modFrame s k f).stepped = s.stepped := rfl
@[simp] theorem modFrame_mbxArgs : (modFrame s k f).mbxArgs = s.mbxArgs := rfl
@[simp] theorem modFrame_mbxResp : (modFrame s k f).mbxResp = s.mbxResp := rfl
@[simp] theorem modFrame_mbxCmd : (modFrame s k f).mbxCmd = s.mbxCmd := rfl
@[simp] theorem modFrame_groups : (modFrame s k f).groups = s.groups := rfl
@[simp] theorem modFrame_groupSeq : (modFrame s k f).groupSeq = s.groupSeq := rfl
@[simp] theorem modFrame_collIn : (modFrame s k f).collIn = s.collIn := rfl
@[simp] theorem modFrame_dieState : (modFrame s k f).dieState = s.dieState := rfl
@[simp] theorem modFrame_vf : (modFrame s k f).vf = s.vf := rfl
@[simp] theorem modFrame_vfNext : (modFrame s k f).vfNext = s.vfNext := rfl
@[simp] theorem modFrame_dieCap : (modFrame s k f).dieCap = s.dieCap := rfl
@[simp] theorem modFrame_stackCap : (modFrame s k f).stackCap = s.stackCap := rfl
@[simp] theorem modFrame_hotSince : (modFrame s k f).hotSince = s.hotSince := rfl
@[simp] theorem modFrame_bootaddr : (modFrame s k f).bootaddr = s.bootaddr := rfl
@[simp] theorem modFrame_measure : (modFrame s k f).measure = s.measure := rfl
@[simp] theorem modFrame_boot : (modFrame s k f).boot = s.boot := rfl
@[simp] theorem modFrame_bootNo : (modFrame s k f).bootNo = s.bootNo := rfl
@[simp] theorem modFrame_capsules : (modFrame s k f).capsules = s.capsules := rfl
@[simp] theorem modFrame_capDue : (modFrame s k f).capDue = s.capDue := rfl
@[simp] theorem modFrame_capSeq : (modFrame s k f).capSeq = s.capSeq := rfl
@[simp] theorem modFrame_summaries : (modFrame s k f).summaries = s.summaries := rfl
@[simp] theorem modFrame_links : (modFrame s k f).links = s.links := rfl
@[simp] theorem modFrame_lostDies : (modFrame s k f).lostDies = s.lostDies := rfl
@[simp] theorem modFrame_ports : (modFrame s k f).ports = s.ports := rfl
@[simp] theorem modFrame_portsOut : (modFrame s k f).portsOut = s.portsOut := rfl
@[simp] theorem modFrame_lastWindow : (modFrame s k f).lastWindow = s.lastWindow := rfl
@[simp] theorem modFrame_lastTimebase : (modFrame s k f).lastTimebase = s.lastTimebase := rfl
@[simp] theorem modFrame_lastPlace : (modFrame s k f).lastPlace = s.lastPlace := rfl
@[simp] theorem modFrame_swept : (modFrame s k f).swept = s.swept := rfl
@[simp] theorem modFrame_powered : (modFrame s k f).powered = s.powered := rfl
@[simp] theorem modFrame_hostFails : (modFrame s k f).hostFails = s.hostFails := rfl
@[simp] theorem modFrame_booting : (modFrame s k f).booting = s.booting := rfl
end

section
variable (s : State) (k : Nat) (f : Marker → Marker)
@[simp] theorem modMarker_cycle : (modMarker s k f).cycle = s.cycle := rfl
@[simp] theorem modMarker_caps : (modMarker s k f).caps = s.caps := rfl
@[simp] theorem modMarker_at_ : (modMarker s k f).at_ = s.at_ := rfl
@[simp] theorem modMarker_agenda : (modMarker s k f).agenda = s.agenda := rfl
@[simp] theorem modMarker_ops : (modMarker s k f).ops = s.ops := rfl
@[simp] theorem modMarker_free : (modMarker s k f).free = s.free := rfl
@[simp] theorem modMarker_mem : (modMarker s k f).mem = s.mem := rfl
@[simp] theorem modMarker_poison : (modMarker s k f).poison = s.poison := rfl
@[simp] theorem modMarker_cores : (modMarker s k f).cores = s.cores := rfl
@[simp] theorem modMarker_images : (modMarker s k f).images = s.images := rfl
@[simp] theorem modMarker_tiles : (modMarker s k f).tiles = s.tiles := rfl
@[simp] theorem modMarker_spills : (modMarker s k f).spills = s.spills := rfl
@[simp] theorem modMarker_wgs : (modMarker s k f).wgs = s.wgs := rfl
@[simp] theorem modMarker_launches : (modMarker s k f).launches = s.launches := rfl
@[simp] theorem modMarker_launchNo : (modMarker s k f).launchNo = s.launchNo := rfl
@[simp] theorem modMarker_latches : (modMarker s k f).latches = s.latches := rfl
@[simp] theorem modMarker_rigPtr : (modMarker s k f).rigPtr = s.rigPtr := rfl
@[simp] theorem modMarker_prioPtr : (modMarker s k f).prioPtr = s.prioPtr := rfl
@[simp] theorem modMarker_queues : (modMarker s k f).queues = s.queues := rfl
@[simp] theorem modMarker_gangs : (modMarker s k f).gangs = s.gangs := rfl
@[simp] theorem modMarker_ctxtab : (modMarker s k f).ctxtab = s.ctxtab := rfl
@[simp] theorem modMarker_slice : (modMarker s k f).slice = s.slice := rfl
@[simp] theorem modMarker_quantum : (modMarker s k f).quantum = s.quantum := rfl
@[simp] theorem modMarker_entryPtr : (modMarker s k f).entryPtr = s.entryPtr := rfl
@[simp] theorem modMarker_fnPtr : (modMarker s k f).fnPtr = s.fnPtr := rfl
@[simp] theorem modMarker_frames : (modMarker s k f).frames = s.frames := rfl
@[simp] theorem modMarker_sliceHand : (modMarker s k f).sliceHand = s.sliceHand := rfl
@[simp] theorem modMarker_dieLayer : (modMarker s k f).dieLayer = s.dieLayer := rfl
@[simp] theorem modMarker_badBuckets : (modMarker s k f).badBuckets = s.badBuckets := rfl
@[simp] theorem modMarker_deadChans : (modMarker s k f).deadChans = s.deadChans := rfl
@[simp] theorem modMarker_seqs : (modMarker s k f).seqs = s.seqs := rfl
@[simp] theorem modMarker_invals : (modMarker s k f).invals = s.invals := rfl
@[simp] theorem modMarker_fillReqs : (modMarker s k f).fillReqs = s.fillReqs := rfl
@[simp] theorem modMarker_posted : (modMarker s k f).posted = s.posted := rfl
@[simp] theorem modMarker_flushed : (modMarker s k f).flushed = s.flushed := rfl
@[simp] theorem modMarker_flushes : (modMarker s k f).flushes = s.flushes := rfl
@[simp] theorem modMarker_hostReqs : (modMarker s k f).hostReqs = s.hostReqs := rfl
@[simp] theorem modMarker_hostStores : (modMarker s k f).hostStores = s.hostStores := rfl
@[simp] theorem modMarker_hwErrors : (modMarker s k f).hwErrors = s.hwErrors := rfl
@[simp] theorem modMarker_descs : (modMarker s k f).descs = s.descs := rfl
@[simp] theorem modMarker_monitors : (modMarker s k f).monitors = s.monitors := rfl
@[simp] theorem modMarker_hwrites : (modMarker s k f).hwrites = s.hwrites := rfl
@[simp] theorem modMarker_channels : (modMarker s k f).channels = s.channels := rfl
@[simp] theorem modMarker_hcfg : (modMarker s k f).hcfg = s.hcfg := rfl
@[simp] theorem modMarker_migrations : (modMarker s k f).migrations = s.migrations := rfl
@[simp] theorem modMarker_poisonTab : (modMarker s k f).poisonTab = s.poisonTab := rfl
@[simp] theorem modMarker_mirrors : (modMarker s k f).mirrors = s.mirrors := rfl
@[simp] theorem modMarker_lost : (modMarker s k f).lost = s.lost := rfl
@[simp] theorem modMarker_lostFull : (modMarker s k f).lostFull = s.lostFull := rfl
@[simp] theorem modMarker_rasCorrected : (modMarker s k f).rasCorrected = s.rasCorrected := rfl
@[simp] theorem modMarker_rasPoisoned : (modMarker s k f).rasPoisoned = s.rasPoisoned := rfl
@[simp] theorem modMarker_rasLast : (modMarker s k f).rasLast = s.rasLast := rfl
@[simp] theorem modMarker_rasHost : (modMarker s k f).rasHost = s.rasHost := rfl
@[simp] theorem modMarker_keyTable : (modMarker s k f).keyTable = s.keyTable := rfl
@[simp] theorem modMarker_keySlots : (modMarker s k f).keySlots = s.keySlots := rfl
@[simp] theorem modMarker_cipher : (modMarker s k f).cipher = s.cipher := rfl
@[simp] theorem modMarker_snoopFilter : (modMarker s k f).snoopFilter = s.snoopFilter := rfl
@[simp] theorem modMarker_snoops : (modMarker s k f).snoops = s.snoops := rfl
@[simp] theorem modMarker_hostInvals : (modMarker s k f).hostInvals = s.hostInvals := rfl
@[simp] theorem modMarker_sent : (modMarker s k f).sent = s.sent := rfl
@[simp] theorem modMarker_priStopped : (modMarker s k f).priStopped = s.priStopped := rfl
@[simp] theorem modMarker_priCleared : (modMarker s k f).priCleared = s.priCleared := rfl
@[simp] theorem modMarker_stop : (modMarker s k f).stop = s.stop := rfl
@[simp] theorem modMarker_dbgctl : (modMarker s k f).dbgctl = s.dbgctl := rfl
@[simp] theorem modMarker_stepped : (modMarker s k f).stepped = s.stepped := rfl
@[simp] theorem modMarker_mbxArgs : (modMarker s k f).mbxArgs = s.mbxArgs := rfl
@[simp] theorem modMarker_mbxResp : (modMarker s k f).mbxResp = s.mbxResp := rfl
@[simp] theorem modMarker_mbxCmd : (modMarker s k f).mbxCmd = s.mbxCmd := rfl
@[simp] theorem modMarker_groups : (modMarker s k f).groups = s.groups := rfl
@[simp] theorem modMarker_groupSeq : (modMarker s k f).groupSeq = s.groupSeq := rfl
@[simp] theorem modMarker_collIn : (modMarker s k f).collIn = s.collIn := rfl
@[simp] theorem modMarker_dieState : (modMarker s k f).dieState = s.dieState := rfl
@[simp] theorem modMarker_vf : (modMarker s k f).vf = s.vf := rfl
@[simp] theorem modMarker_vfNext : (modMarker s k f).vfNext = s.vfNext := rfl
@[simp] theorem modMarker_dieCap : (modMarker s k f).dieCap = s.dieCap := rfl
@[simp] theorem modMarker_stackCap : (modMarker s k f).stackCap = s.stackCap := rfl
@[simp] theorem modMarker_hotSince : (modMarker s k f).hotSince = s.hotSince := rfl
@[simp] theorem modMarker_bootaddr : (modMarker s k f).bootaddr = s.bootaddr := rfl
@[simp] theorem modMarker_measure : (modMarker s k f).measure = s.measure := rfl
@[simp] theorem modMarker_boot : (modMarker s k f).boot = s.boot := rfl
@[simp] theorem modMarker_bootNo : (modMarker s k f).bootNo = s.bootNo := rfl
@[simp] theorem modMarker_capsules : (modMarker s k f).capsules = s.capsules := rfl
@[simp] theorem modMarker_capDue : (modMarker s k f).capDue = s.capDue := rfl
@[simp] theorem modMarker_capSeq : (modMarker s k f).capSeq = s.capSeq := rfl
@[simp] theorem modMarker_summaries : (modMarker s k f).summaries = s.summaries := rfl
@[simp] theorem modMarker_links : (modMarker s k f).links = s.links := rfl
@[simp] theorem modMarker_lostDies : (modMarker s k f).lostDies = s.lostDies := rfl
@[simp] theorem modMarker_ports : (modMarker s k f).ports = s.ports := rfl
@[simp] theorem modMarker_portsOut : (modMarker s k f).portsOut = s.portsOut := rfl
@[simp] theorem modMarker_lastWindow : (modMarker s k f).lastWindow = s.lastWindow := rfl
@[simp] theorem modMarker_lastTimebase : (modMarker s k f).lastTimebase = s.lastTimebase := rfl
@[simp] theorem modMarker_lastPlace : (modMarker s k f).lastPlace = s.lastPlace := rfl
@[simp] theorem modMarker_swept : (modMarker s k f).swept = s.swept := rfl
@[simp] theorem modMarker_powered : (modMarker s k f).powered = s.powered := rfl
@[simp] theorem modMarker_hostFails : (modMarker s k f).hostFails = s.hostFails := rfl
@[simp] theorem modMarker_booting : (modMarker s k f).booting = s.booting := rfl
end

section
variable (s : State) (c : Nat) (r : Req)
@[simp] theorem addReq_cycle : (addReq s c r).cycle = s.cycle := rfl
@[simp] theorem addReq_caps : (addReq s c r).caps = s.caps := rfl
@[simp] theorem addReq_at_ : (addReq s c r).at_ = s.at_ := rfl
@[simp] theorem addReq_agenda : (addReq s c r).agenda = s.agenda := rfl
@[simp] theorem addReq_free : (addReq s c r).free = s.free := rfl
@[simp] theorem addReq_mem : (addReq s c r).mem = s.mem := rfl
@[simp] theorem addReq_poison : (addReq s c r).poison = s.poison := rfl
@[simp] theorem addReq_images : (addReq s c r).images = s.images := rfl
@[simp] theorem addReq_tiles : (addReq s c r).tiles = s.tiles := rfl
@[simp] theorem addReq_spills : (addReq s c r).spills = s.spills := rfl
@[simp] theorem addReq_wgs : (addReq s c r).wgs = s.wgs := rfl
@[simp] theorem addReq_launches : (addReq s c r).launches = s.launches := rfl
@[simp] theorem addReq_launchNo : (addReq s c r).launchNo = s.launchNo := rfl
@[simp] theorem addReq_latches : (addReq s c r).latches = s.latches := rfl
@[simp] theorem addReq_rigPtr : (addReq s c r).rigPtr = s.rigPtr := rfl
@[simp] theorem addReq_prioPtr : (addReq s c r).prioPtr = s.prioPtr := rfl
@[simp] theorem addReq_queues : (addReq s c r).queues = s.queues := rfl
@[simp] theorem addReq_gangs : (addReq s c r).gangs = s.gangs := rfl
@[simp] theorem addReq_ctxtab : (addReq s c r).ctxtab = s.ctxtab := rfl
@[simp] theorem addReq_slice : (addReq s c r).slice = s.slice := rfl
@[simp] theorem addReq_quantum : (addReq s c r).quantum = s.quantum := rfl
@[simp] theorem addReq_entryPtr : (addReq s c r).entryPtr = s.entryPtr := rfl
@[simp] theorem addReq_fnPtr : (addReq s c r).fnPtr = s.fnPtr := rfl
@[simp] theorem addReq_frames : (addReq s c r).frames = s.frames := rfl
@[simp] theorem addReq_sliceHand : (addReq s c r).sliceHand = s.sliceHand := rfl
@[simp] theorem addReq_dieLayer : (addReq s c r).dieLayer = s.dieLayer := rfl
@[simp] theorem addReq_badBuckets : (addReq s c r).badBuckets = s.badBuckets := rfl
@[simp] theorem addReq_deadChans : (addReq s c r).deadChans = s.deadChans := rfl
@[simp] theorem addReq_markers : (addReq s c r).markers = s.markers := rfl
@[simp] theorem addReq_seqs : (addReq s c r).seqs = s.seqs := rfl
@[simp] theorem addReq_invals : (addReq s c r).invals = s.invals := rfl
@[simp] theorem addReq_fillReqs : (addReq s c r).fillReqs = s.fillReqs := rfl
@[simp] theorem addReq_posted : (addReq s c r).posted = s.posted := rfl
@[simp] theorem addReq_flushed : (addReq s c r).flushed = s.flushed := rfl
@[simp] theorem addReq_flushes : (addReq s c r).flushes = s.flushes := rfl
@[simp] theorem addReq_hostReqs : (addReq s c r).hostReqs = s.hostReqs := rfl
@[simp] theorem addReq_hostStores : (addReq s c r).hostStores = s.hostStores := rfl
@[simp] theorem addReq_hwErrors : (addReq s c r).hwErrors = s.hwErrors := rfl
@[simp] theorem addReq_descs : (addReq s c r).descs = s.descs := rfl
@[simp] theorem addReq_monitors : (addReq s c r).monitors = s.monitors := rfl
@[simp] theorem addReq_hwrites : (addReq s c r).hwrites = s.hwrites := rfl
@[simp] theorem addReq_channels : (addReq s c r).channels = s.channels := rfl
@[simp] theorem addReq_hcfg : (addReq s c r).hcfg = s.hcfg := rfl
@[simp] theorem addReq_migrations : (addReq s c r).migrations = s.migrations := rfl
@[simp] theorem addReq_poisonTab : (addReq s c r).poisonTab = s.poisonTab := rfl
@[simp] theorem addReq_mirrors : (addReq s c r).mirrors = s.mirrors := rfl
@[simp] theorem addReq_lost : (addReq s c r).lost = s.lost := rfl
@[simp] theorem addReq_lostFull : (addReq s c r).lostFull = s.lostFull := rfl
@[simp] theorem addReq_rasCorrected : (addReq s c r).rasCorrected = s.rasCorrected := rfl
@[simp] theorem addReq_rasPoisoned : (addReq s c r).rasPoisoned = s.rasPoisoned := rfl
@[simp] theorem addReq_rasLast : (addReq s c r).rasLast = s.rasLast := rfl
@[simp] theorem addReq_rasHost : (addReq s c r).rasHost = s.rasHost := rfl
@[simp] theorem addReq_keyTable : (addReq s c r).keyTable = s.keyTable := rfl
@[simp] theorem addReq_keySlots : (addReq s c r).keySlots = s.keySlots := rfl
@[simp] theorem addReq_cipher : (addReq s c r).cipher = s.cipher := rfl
@[simp] theorem addReq_snoopFilter : (addReq s c r).snoopFilter = s.snoopFilter := rfl
@[simp] theorem addReq_snoops : (addReq s c r).snoops = s.snoops := rfl
@[simp] theorem addReq_hostInvals : (addReq s c r).hostInvals = s.hostInvals := rfl
@[simp] theorem addReq_sent : (addReq s c r).sent = s.sent := rfl
@[simp] theorem addReq_priStopped : (addReq s c r).priStopped = s.priStopped := rfl
@[simp] theorem addReq_priCleared : (addReq s c r).priCleared = s.priCleared := rfl
@[simp] theorem addReq_stop : (addReq s c r).stop = s.stop := rfl
@[simp] theorem addReq_dbgctl : (addReq s c r).dbgctl = s.dbgctl := rfl
@[simp] theorem addReq_stepped : (addReq s c r).stepped = s.stepped := rfl
@[simp] theorem addReq_mbxArgs : (addReq s c r).mbxArgs = s.mbxArgs := rfl
@[simp] theorem addReq_mbxResp : (addReq s c r).mbxResp = s.mbxResp := rfl
@[simp] theorem addReq_mbxCmd : (addReq s c r).mbxCmd = s.mbxCmd := rfl
@[simp] theorem addReq_groups : (addReq s c r).groups = s.groups := rfl
@[simp] theorem addReq_groupSeq : (addReq s c r).groupSeq = s.groupSeq := rfl
@[simp] theorem addReq_collIn : (addReq s c r).collIn = s.collIn := rfl
@[simp] theorem addReq_dieState : (addReq s c r).dieState = s.dieState := rfl
@[simp] theorem addReq_vf : (addReq s c r).vf = s.vf := rfl
@[simp] theorem addReq_vfNext : (addReq s c r).vfNext = s.vfNext := rfl
@[simp] theorem addReq_dieCap : (addReq s c r).dieCap = s.dieCap := rfl
@[simp] theorem addReq_stackCap : (addReq s c r).stackCap = s.stackCap := rfl
@[simp] theorem addReq_hotSince : (addReq s c r).hotSince = s.hotSince := rfl
@[simp] theorem addReq_bootaddr : (addReq s c r).bootaddr = s.bootaddr := rfl
@[simp] theorem addReq_measure : (addReq s c r).measure = s.measure := rfl
@[simp] theorem addReq_boot : (addReq s c r).boot = s.boot := rfl
@[simp] theorem addReq_bootNo : (addReq s c r).bootNo = s.bootNo := rfl
@[simp] theorem addReq_capsules : (addReq s c r).capsules = s.capsules := rfl
@[simp] theorem addReq_capDue : (addReq s c r).capDue = s.capDue := rfl
@[simp] theorem addReq_capSeq : (addReq s c r).capSeq = s.capSeq := rfl
@[simp] theorem addReq_summaries : (addReq s c r).summaries = s.summaries := rfl
@[simp] theorem addReq_links : (addReq s c r).links = s.links := rfl
@[simp] theorem addReq_lostDies : (addReq s c r).lostDies = s.lostDies := rfl
@[simp] theorem addReq_ports : (addReq s c r).ports = s.ports := rfl
@[simp] theorem addReq_portsOut : (addReq s c r).portsOut = s.portsOut := rfl
@[simp] theorem addReq_lastWindow : (addReq s c r).lastWindow = s.lastWindow := rfl
@[simp] theorem addReq_lastTimebase : (addReq s c r).lastTimebase = s.lastTimebase := rfl
@[simp] theorem addReq_lastPlace : (addReq s c r).lastPlace = s.lastPlace := rfl
@[simp] theorem addReq_swept : (addReq s c r).swept = s.swept := rfl
@[simp] theorem addReq_powered : (addReq s c r).powered = s.powered := rfl
@[simp] theorem addReq_hostFails : (addReq s c r).hostFails = s.hostFails := rfl
@[simp] theorem addReq_booting : (addReq s c r).booting = s.booting := rfl
end

section
variable (s : State) (c i : Nat) (f : Req → Req)
@[simp] theorem modReq_cycle : (modReq s c i f).cycle = s.cycle := rfl
@[simp] theorem modReq_caps : (modReq s c i f).caps = s.caps := rfl
@[simp] theorem modReq_at_ : (modReq s c i f).at_ = s.at_ := rfl
@[simp] theorem modReq_agenda : (modReq s c i f).agenda = s.agenda := rfl
@[simp] theorem modReq_ops : (modReq s c i f).ops = s.ops := rfl
@[simp] theorem modReq_free : (modReq s c i f).free = s.free := rfl
@[simp] theorem modReq_mem : (modReq s c i f).mem = s.mem := rfl
@[simp] theorem modReq_poison : (modReq s c i f).poison = s.poison := rfl
@[simp] theorem modReq_images : (modReq s c i f).images = s.images := rfl
@[simp] theorem modReq_tiles : (modReq s c i f).tiles = s.tiles := rfl
@[simp] theorem modReq_spills : (modReq s c i f).spills = s.spills := rfl
@[simp] theorem modReq_wgs : (modReq s c i f).wgs = s.wgs := rfl
@[simp] theorem modReq_launches : (modReq s c i f).launches = s.launches := rfl
@[simp] theorem modReq_launchNo : (modReq s c i f).launchNo = s.launchNo := rfl
@[simp] theorem modReq_latches : (modReq s c i f).latches = s.latches := rfl
@[simp] theorem modReq_rigPtr : (modReq s c i f).rigPtr = s.rigPtr := rfl
@[simp] theorem modReq_prioPtr : (modReq s c i f).prioPtr = s.prioPtr := rfl
@[simp] theorem modReq_queues : (modReq s c i f).queues = s.queues := rfl
@[simp] theorem modReq_gangs : (modReq s c i f).gangs = s.gangs := rfl
@[simp] theorem modReq_ctxtab : (modReq s c i f).ctxtab = s.ctxtab := rfl
@[simp] theorem modReq_slice : (modReq s c i f).slice = s.slice := rfl
@[simp] theorem modReq_quantum : (modReq s c i f).quantum = s.quantum := rfl
@[simp] theorem modReq_entryPtr : (modReq s c i f).entryPtr = s.entryPtr := rfl
@[simp] theorem modReq_fnPtr : (modReq s c i f).fnPtr = s.fnPtr := rfl
@[simp] theorem modReq_frames : (modReq s c i f).frames = s.frames := rfl
@[simp] theorem modReq_sliceHand : (modReq s c i f).sliceHand = s.sliceHand := rfl
@[simp] theorem modReq_dieLayer : (modReq s c i f).dieLayer = s.dieLayer := rfl
@[simp] theorem modReq_badBuckets : (modReq s c i f).badBuckets = s.badBuckets := rfl
@[simp] theorem modReq_deadChans : (modReq s c i f).deadChans = s.deadChans := rfl
@[simp] theorem modReq_markers : (modReq s c i f).markers = s.markers := rfl
@[simp] theorem modReq_seqs : (modReq s c i f).seqs = s.seqs := rfl
@[simp] theorem modReq_invals : (modReq s c i f).invals = s.invals := rfl
@[simp] theorem modReq_fillReqs : (modReq s c i f).fillReqs = s.fillReqs := rfl
@[simp] theorem modReq_posted : (modReq s c i f).posted = s.posted := rfl
@[simp] theorem modReq_flushed : (modReq s c i f).flushed = s.flushed := rfl
@[simp] theorem modReq_flushes : (modReq s c i f).flushes = s.flushes := rfl
@[simp] theorem modReq_hostReqs : (modReq s c i f).hostReqs = s.hostReqs := rfl
@[simp] theorem modReq_hostStores : (modReq s c i f).hostStores = s.hostStores := rfl
@[simp] theorem modReq_hwErrors : (modReq s c i f).hwErrors = s.hwErrors := rfl
@[simp] theorem modReq_descs : (modReq s c i f).descs = s.descs := rfl
@[simp] theorem modReq_monitors : (modReq s c i f).monitors = s.monitors := rfl
@[simp] theorem modReq_hwrites : (modReq s c i f).hwrites = s.hwrites := rfl
@[simp] theorem modReq_channels : (modReq s c i f).channels = s.channels := rfl
@[simp] theorem modReq_hcfg : (modReq s c i f).hcfg = s.hcfg := rfl
@[simp] theorem modReq_migrations : (modReq s c i f).migrations = s.migrations := rfl
@[simp] theorem modReq_poisonTab : (modReq s c i f).poisonTab = s.poisonTab := rfl
@[simp] theorem modReq_mirrors : (modReq s c i f).mirrors = s.mirrors := rfl
@[simp] theorem modReq_lost : (modReq s c i f).lost = s.lost := rfl
@[simp] theorem modReq_lostFull : (modReq s c i f).lostFull = s.lostFull := rfl
@[simp] theorem modReq_rasCorrected : (modReq s c i f).rasCorrected = s.rasCorrected := rfl
@[simp] theorem modReq_rasPoisoned : (modReq s c i f).rasPoisoned = s.rasPoisoned := rfl
@[simp] theorem modReq_rasLast : (modReq s c i f).rasLast = s.rasLast := rfl
@[simp] theorem modReq_rasHost : (modReq s c i f).rasHost = s.rasHost := rfl
@[simp] theorem modReq_keyTable : (modReq s c i f).keyTable = s.keyTable := rfl
@[simp] theorem modReq_keySlots : (modReq s c i f).keySlots = s.keySlots := rfl
@[simp] theorem modReq_cipher : (modReq s c i f).cipher = s.cipher := rfl
@[simp] theorem modReq_snoopFilter : (modReq s c i f).snoopFilter = s.snoopFilter := rfl
@[simp] theorem modReq_snoops : (modReq s c i f).snoops = s.snoops := rfl
@[simp] theorem modReq_hostInvals : (modReq s c i f).hostInvals = s.hostInvals := rfl
@[simp] theorem modReq_sent : (modReq s c i f).sent = s.sent := rfl
@[simp] theorem modReq_priStopped : (modReq s c i f).priStopped = s.priStopped := rfl
@[simp] theorem modReq_priCleared : (modReq s c i f).priCleared = s.priCleared := rfl
@[simp] theorem modReq_stop : (modReq s c i f).stop = s.stop := rfl
@[simp] theorem modReq_dbgctl : (modReq s c i f).dbgctl = s.dbgctl := rfl
@[simp] theorem modReq_stepped : (modReq s c i f).stepped = s.stepped := rfl
@[simp] theorem modReq_mbxArgs : (modReq s c i f).mbxArgs = s.mbxArgs := rfl
@[simp] theorem modReq_mbxResp : (modReq s c i f).mbxResp = s.mbxResp := rfl
@[simp] theorem modReq_mbxCmd : (modReq s c i f).mbxCmd = s.mbxCmd := rfl
@[simp] theorem modReq_groups : (modReq s c i f).groups = s.groups := rfl
@[simp] theorem modReq_groupSeq : (modReq s c i f).groupSeq = s.groupSeq := rfl
@[simp] theorem modReq_collIn : (modReq s c i f).collIn = s.collIn := rfl
@[simp] theorem modReq_dieState : (modReq s c i f).dieState = s.dieState := rfl
@[simp] theorem modReq_vf : (modReq s c i f).vf = s.vf := rfl
@[simp] theorem modReq_vfNext : (modReq s c i f).vfNext = s.vfNext := rfl
@[simp] theorem modReq_dieCap : (modReq s c i f).dieCap = s.dieCap := rfl
@[simp] theorem modReq_stackCap : (modReq s c i f).stackCap = s.stackCap := rfl
@[simp] theorem modReq_hotSince : (modReq s c i f).hotSince = s.hotSince := rfl
@[simp] theorem modReq_bootaddr : (modReq s c i f).bootaddr = s.bootaddr := rfl
@[simp] theorem modReq_measure : (modReq s c i f).measure = s.measure := rfl
@[simp] theorem modReq_boot : (modReq s c i f).boot = s.boot := rfl
@[simp] theorem modReq_bootNo : (modReq s c i f).bootNo = s.bootNo := rfl
@[simp] theorem modReq_capsules : (modReq s c i f).capsules = s.capsules := rfl
@[simp] theorem modReq_capDue : (modReq s c i f).capDue = s.capDue := rfl
@[simp] theorem modReq_capSeq : (modReq s c i f).capSeq = s.capSeq := rfl
@[simp] theorem modReq_summaries : (modReq s c i f).summaries = s.summaries := rfl
@[simp] theorem modReq_links : (modReq s c i f).links = s.links := rfl
@[simp] theorem modReq_lostDies : (modReq s c i f).lostDies = s.lostDies := rfl
@[simp] theorem modReq_ports : (modReq s c i f).ports = s.ports := rfl
@[simp] theorem modReq_portsOut : (modReq s c i f).portsOut = s.portsOut := rfl
@[simp] theorem modReq_lastWindow : (modReq s c i f).lastWindow = s.lastWindow := rfl
@[simp] theorem modReq_lastTimebase : (modReq s c i f).lastTimebase = s.lastTimebase := rfl
@[simp] theorem modReq_lastPlace : (modReq s c i f).lastPlace = s.lastPlace := rfl
@[simp] theorem modReq_swept : (modReq s c i f).swept = s.swept := rfl
@[simp] theorem modReq_powered : (modReq s c i f).powered = s.powered := rfl
@[simp] theorem modReq_hostFails : (modReq s c i f).hostFails = s.hostFails := rfl
@[simp] theorem modReq_booting : (modReq s c i f).booting = s.booting := rfl
end

section
variable (s : State) (c i : Nat) (f : MemOp → MemOp)
@[simp] theorem modOp_cycle : (modOp s c i f).cycle = s.cycle := rfl
@[simp] theorem modOp_caps : (modOp s c i f).caps = s.caps := rfl
@[simp] theorem modOp_at_ : (modOp s c i f).at_ = s.at_ := rfl
@[simp] theorem modOp_agenda : (modOp s c i f).agenda = s.agenda := rfl
@[simp] theorem modOp_ops : (modOp s c i f).ops = s.ops := rfl
@[simp] theorem modOp_free : (modOp s c i f).free = s.free := rfl
@[simp] theorem modOp_mem : (modOp s c i f).mem = s.mem := rfl
@[simp] theorem modOp_poison : (modOp s c i f).poison = s.poison := rfl
@[simp] theorem modOp_images : (modOp s c i f).images = s.images := rfl
@[simp] theorem modOp_tiles : (modOp s c i f).tiles = s.tiles := rfl
@[simp] theorem modOp_spills : (modOp s c i f).spills = s.spills := rfl
@[simp] theorem modOp_wgs : (modOp s c i f).wgs = s.wgs := rfl
@[simp] theorem modOp_launches : (modOp s c i f).launches = s.launches := rfl
@[simp] theorem modOp_launchNo : (modOp s c i f).launchNo = s.launchNo := rfl
@[simp] theorem modOp_latches : (modOp s c i f).latches = s.latches := rfl
@[simp] theorem modOp_rigPtr : (modOp s c i f).rigPtr = s.rigPtr := rfl
@[simp] theorem modOp_prioPtr : (modOp s c i f).prioPtr = s.prioPtr := rfl
@[simp] theorem modOp_queues : (modOp s c i f).queues = s.queues := rfl
@[simp] theorem modOp_gangs : (modOp s c i f).gangs = s.gangs := rfl
@[simp] theorem modOp_ctxtab : (modOp s c i f).ctxtab = s.ctxtab := rfl
@[simp] theorem modOp_slice : (modOp s c i f).slice = s.slice := rfl
@[simp] theorem modOp_quantum : (modOp s c i f).quantum = s.quantum := rfl
@[simp] theorem modOp_entryPtr : (modOp s c i f).entryPtr = s.entryPtr := rfl
@[simp] theorem modOp_fnPtr : (modOp s c i f).fnPtr = s.fnPtr := rfl
@[simp] theorem modOp_frames : (modOp s c i f).frames = s.frames := rfl
@[simp] theorem modOp_sliceHand : (modOp s c i f).sliceHand = s.sliceHand := rfl
@[simp] theorem modOp_dieLayer : (modOp s c i f).dieLayer = s.dieLayer := rfl
@[simp] theorem modOp_badBuckets : (modOp s c i f).badBuckets = s.badBuckets := rfl
@[simp] theorem modOp_deadChans : (modOp s c i f).deadChans = s.deadChans := rfl
@[simp] theorem modOp_markers : (modOp s c i f).markers = s.markers := rfl
@[simp] theorem modOp_seqs : (modOp s c i f).seqs = s.seqs := rfl
@[simp] theorem modOp_invals : (modOp s c i f).invals = s.invals := rfl
@[simp] theorem modOp_fillReqs : (modOp s c i f).fillReqs = s.fillReqs := rfl
@[simp] theorem modOp_posted : (modOp s c i f).posted = s.posted := rfl
@[simp] theorem modOp_flushed : (modOp s c i f).flushed = s.flushed := rfl
@[simp] theorem modOp_flushes : (modOp s c i f).flushes = s.flushes := rfl
@[simp] theorem modOp_hostReqs : (modOp s c i f).hostReqs = s.hostReqs := rfl
@[simp] theorem modOp_hostStores : (modOp s c i f).hostStores = s.hostStores := rfl
@[simp] theorem modOp_hwErrors : (modOp s c i f).hwErrors = s.hwErrors := rfl
@[simp] theorem modOp_descs : (modOp s c i f).descs = s.descs := rfl
@[simp] theorem modOp_monitors : (modOp s c i f).monitors = s.monitors := rfl
@[simp] theorem modOp_hwrites : (modOp s c i f).hwrites = s.hwrites := rfl
@[simp] theorem modOp_channels : (modOp s c i f).channels = s.channels := rfl
@[simp] theorem modOp_hcfg : (modOp s c i f).hcfg = s.hcfg := rfl
@[simp] theorem modOp_migrations : (modOp s c i f).migrations = s.migrations := rfl
@[simp] theorem modOp_poisonTab : (modOp s c i f).poisonTab = s.poisonTab := rfl
@[simp] theorem modOp_mirrors : (modOp s c i f).mirrors = s.mirrors := rfl
@[simp] theorem modOp_lost : (modOp s c i f).lost = s.lost := rfl
@[simp] theorem modOp_lostFull : (modOp s c i f).lostFull = s.lostFull := rfl
@[simp] theorem modOp_rasCorrected : (modOp s c i f).rasCorrected = s.rasCorrected := rfl
@[simp] theorem modOp_rasPoisoned : (modOp s c i f).rasPoisoned = s.rasPoisoned := rfl
@[simp] theorem modOp_rasLast : (modOp s c i f).rasLast = s.rasLast := rfl
@[simp] theorem modOp_rasHost : (modOp s c i f).rasHost = s.rasHost := rfl
@[simp] theorem modOp_keyTable : (modOp s c i f).keyTable = s.keyTable := rfl
@[simp] theorem modOp_keySlots : (modOp s c i f).keySlots = s.keySlots := rfl
@[simp] theorem modOp_cipher : (modOp s c i f).cipher = s.cipher := rfl
@[simp] theorem modOp_snoopFilter : (modOp s c i f).snoopFilter = s.snoopFilter := rfl
@[simp] theorem modOp_snoops : (modOp s c i f).snoops = s.snoops := rfl
@[simp] theorem modOp_hostInvals : (modOp s c i f).hostInvals = s.hostInvals := rfl
@[simp] theorem modOp_sent : (modOp s c i f).sent = s.sent := rfl
@[simp] theorem modOp_priStopped : (modOp s c i f).priStopped = s.priStopped := rfl
@[simp] theorem modOp_priCleared : (modOp s c i f).priCleared = s.priCleared := rfl
@[simp] theorem modOp_stop : (modOp s c i f).stop = s.stop := rfl
@[simp] theorem modOp_dbgctl : (modOp s c i f).dbgctl = s.dbgctl := rfl
@[simp] theorem modOp_stepped : (modOp s c i f).stepped = s.stepped := rfl
@[simp] theorem modOp_mbxArgs : (modOp s c i f).mbxArgs = s.mbxArgs := rfl
@[simp] theorem modOp_mbxResp : (modOp s c i f).mbxResp = s.mbxResp := rfl
@[simp] theorem modOp_mbxCmd : (modOp s c i f).mbxCmd = s.mbxCmd := rfl
@[simp] theorem modOp_groups : (modOp s c i f).groups = s.groups := rfl
@[simp] theorem modOp_groupSeq : (modOp s c i f).groupSeq = s.groupSeq := rfl
@[simp] theorem modOp_collIn : (modOp s c i f).collIn = s.collIn := rfl
@[simp] theorem modOp_dieState : (modOp s c i f).dieState = s.dieState := rfl
@[simp] theorem modOp_vf : (modOp s c i f).vf = s.vf := rfl
@[simp] theorem modOp_vfNext : (modOp s c i f).vfNext = s.vfNext := rfl
@[simp] theorem modOp_dieCap : (modOp s c i f).dieCap = s.dieCap := rfl
@[simp] theorem modOp_stackCap : (modOp s c i f).stackCap = s.stackCap := rfl
@[simp] theorem modOp_hotSince : (modOp s c i f).hotSince = s.hotSince := rfl
@[simp] theorem modOp_bootaddr : (modOp s c i f).bootaddr = s.bootaddr := rfl
@[simp] theorem modOp_measure : (modOp s c i f).measure = s.measure := rfl
@[simp] theorem modOp_boot : (modOp s c i f).boot = s.boot := rfl
@[simp] theorem modOp_bootNo : (modOp s c i f).bootNo = s.bootNo := rfl
@[simp] theorem modOp_capsules : (modOp s c i f).capsules = s.capsules := rfl
@[simp] theorem modOp_capDue : (modOp s c i f).capDue = s.capDue := rfl
@[simp] theorem modOp_capSeq : (modOp s c i f).capSeq = s.capSeq := rfl
@[simp] theorem modOp_summaries : (modOp s c i f).summaries = s.summaries := rfl
@[simp] theorem modOp_links : (modOp s c i f).links = s.links := rfl
@[simp] theorem modOp_lostDies : (modOp s c i f).lostDies = s.lostDies := rfl
@[simp] theorem modOp_ports : (modOp s c i f).ports = s.ports := rfl
@[simp] theorem modOp_portsOut : (modOp s c i f).portsOut = s.portsOut := rfl
@[simp] theorem modOp_lastWindow : (modOp s c i f).lastWindow = s.lastWindow := rfl
@[simp] theorem modOp_lastTimebase : (modOp s c i f).lastTimebase = s.lastTimebase := rfl
@[simp] theorem modOp_lastPlace : (modOp s c i f).lastPlace = s.lastPlace := rfl
@[simp] theorem modOp_swept : (modOp s c i f).swept = s.swept := rfl
@[simp] theorem modOp_powered : (modOp s c i f).powered = s.powered := rfl
@[simp] theorem modOp_hostFails : (modOp s c i f).hostFails = s.hostFails := rfl
@[simp] theorem modOp_booting : (modOp s c i f).booting = s.booting := rfl
end

section
variable (s : State) (c : Nat) (f : Mast → Mast)
@[simp] theorem modMast_cycle : (modMast s c f).cycle = s.cycle := rfl
@[simp] theorem modMast_caps : (modMast s c f).caps = s.caps := rfl
@[simp] theorem modMast_at_ : (modMast s c f).at_ = s.at_ := rfl
@[simp] theorem modMast_agenda : (modMast s c f).agenda = s.agenda := rfl
@[simp] theorem modMast_ops : (modMast s c f).ops = s.ops := rfl
@[simp] theorem modMast_free : (modMast s c f).free = s.free := rfl
@[simp] theorem modMast_mem : (modMast s c f).mem = s.mem := rfl
@[simp] theorem modMast_poison : (modMast s c f).poison = s.poison := rfl
@[simp] theorem modMast_images : (modMast s c f).images = s.images := rfl
@[simp] theorem modMast_tiles : (modMast s c f).tiles = s.tiles := rfl
@[simp] theorem modMast_spills : (modMast s c f).spills = s.spills := rfl
@[simp] theorem modMast_wgs : (modMast s c f).wgs = s.wgs := rfl
@[simp] theorem modMast_launches : (modMast s c f).launches = s.launches := rfl
@[simp] theorem modMast_launchNo : (modMast s c f).launchNo = s.launchNo := rfl
@[simp] theorem modMast_latches : (modMast s c f).latches = s.latches := rfl
@[simp] theorem modMast_rigPtr : (modMast s c f).rigPtr = s.rigPtr := rfl
@[simp] theorem modMast_prioPtr : (modMast s c f).prioPtr = s.prioPtr := rfl
@[simp] theorem modMast_queues : (modMast s c f).queues = s.queues := rfl
@[simp] theorem modMast_gangs : (modMast s c f).gangs = s.gangs := rfl
@[simp] theorem modMast_ctxtab : (modMast s c f).ctxtab = s.ctxtab := rfl
@[simp] theorem modMast_slice : (modMast s c f).slice = s.slice := rfl
@[simp] theorem modMast_quantum : (modMast s c f).quantum = s.quantum := rfl
@[simp] theorem modMast_entryPtr : (modMast s c f).entryPtr = s.entryPtr := rfl
@[simp] theorem modMast_fnPtr : (modMast s c f).fnPtr = s.fnPtr := rfl
@[simp] theorem modMast_frames : (modMast s c f).frames = s.frames := rfl
@[simp] theorem modMast_sliceHand : (modMast s c f).sliceHand = s.sliceHand := rfl
@[simp] theorem modMast_dieLayer : (modMast s c f).dieLayer = s.dieLayer := rfl
@[simp] theorem modMast_badBuckets : (modMast s c f).badBuckets = s.badBuckets := rfl
@[simp] theorem modMast_deadChans : (modMast s c f).deadChans = s.deadChans := rfl
@[simp] theorem modMast_markers : (modMast s c f).markers = s.markers := rfl
@[simp] theorem modMast_seqs : (modMast s c f).seqs = s.seqs := rfl
@[simp] theorem modMast_invals : (modMast s c f).invals = s.invals := rfl
@[simp] theorem modMast_fillReqs : (modMast s c f).fillReqs = s.fillReqs := rfl
@[simp] theorem modMast_posted : (modMast s c f).posted = s.posted := rfl
@[simp] theorem modMast_flushed : (modMast s c f).flushed = s.flushed := rfl
@[simp] theorem modMast_flushes : (modMast s c f).flushes = s.flushes := rfl
@[simp] theorem modMast_hostReqs : (modMast s c f).hostReqs = s.hostReqs := rfl
@[simp] theorem modMast_hostStores : (modMast s c f).hostStores = s.hostStores := rfl
@[simp] theorem modMast_hwErrors : (modMast s c f).hwErrors = s.hwErrors := rfl
@[simp] theorem modMast_descs : (modMast s c f).descs = s.descs := rfl
@[simp] theorem modMast_monitors : (modMast s c f).monitors = s.monitors := rfl
@[simp] theorem modMast_hwrites : (modMast s c f).hwrites = s.hwrites := rfl
@[simp] theorem modMast_channels : (modMast s c f).channels = s.channels := rfl
@[simp] theorem modMast_hcfg : (modMast s c f).hcfg = s.hcfg := rfl
@[simp] theorem modMast_migrations : (modMast s c f).migrations = s.migrations := rfl
@[simp] theorem modMast_poisonTab : (modMast s c f).poisonTab = s.poisonTab := rfl
@[simp] theorem modMast_mirrors : (modMast s c f).mirrors = s.mirrors := rfl
@[simp] theorem modMast_lost : (modMast s c f).lost = s.lost := rfl
@[simp] theorem modMast_lostFull : (modMast s c f).lostFull = s.lostFull := rfl
@[simp] theorem modMast_rasCorrected : (modMast s c f).rasCorrected = s.rasCorrected := rfl
@[simp] theorem modMast_rasPoisoned : (modMast s c f).rasPoisoned = s.rasPoisoned := rfl
@[simp] theorem modMast_rasLast : (modMast s c f).rasLast = s.rasLast := rfl
@[simp] theorem modMast_rasHost : (modMast s c f).rasHost = s.rasHost := rfl
@[simp] theorem modMast_keyTable : (modMast s c f).keyTable = s.keyTable := rfl
@[simp] theorem modMast_keySlots : (modMast s c f).keySlots = s.keySlots := rfl
@[simp] theorem modMast_cipher : (modMast s c f).cipher = s.cipher := rfl
@[simp] theorem modMast_snoopFilter : (modMast s c f).snoopFilter = s.snoopFilter := rfl
@[simp] theorem modMast_snoops : (modMast s c f).snoops = s.snoops := rfl
@[simp] theorem modMast_hostInvals : (modMast s c f).hostInvals = s.hostInvals := rfl
@[simp] theorem modMast_sent : (modMast s c f).sent = s.sent := rfl
@[simp] theorem modMast_priStopped : (modMast s c f).priStopped = s.priStopped := rfl
@[simp] theorem modMast_priCleared : (modMast s c f).priCleared = s.priCleared := rfl
@[simp] theorem modMast_stop : (modMast s c f).stop = s.stop := rfl
@[simp] theorem modMast_dbgctl : (modMast s c f).dbgctl = s.dbgctl := rfl
@[simp] theorem modMast_stepped : (modMast s c f).stepped = s.stepped := rfl
@[simp] theorem modMast_mbxArgs : (modMast s c f).mbxArgs = s.mbxArgs := rfl
@[simp] theorem modMast_mbxResp : (modMast s c f).mbxResp = s.mbxResp := rfl
@[simp] theorem modMast_mbxCmd : (modMast s c f).mbxCmd = s.mbxCmd := rfl
@[simp] theorem modMast_groups : (modMast s c f).groups = s.groups := rfl
@[simp] theorem modMast_groupSeq : (modMast s c f).groupSeq = s.groupSeq := rfl
@[simp] theorem modMast_collIn : (modMast s c f).collIn = s.collIn := rfl
@[simp] theorem modMast_dieState : (modMast s c f).dieState = s.dieState := rfl
@[simp] theorem modMast_vf : (modMast s c f).vf = s.vf := rfl
@[simp] theorem modMast_vfNext : (modMast s c f).vfNext = s.vfNext := rfl
@[simp] theorem modMast_dieCap : (modMast s c f).dieCap = s.dieCap := rfl
@[simp] theorem modMast_stackCap : (modMast s c f).stackCap = s.stackCap := rfl
@[simp] theorem modMast_hotSince : (modMast s c f).hotSince = s.hotSince := rfl
@[simp] theorem modMast_bootaddr : (modMast s c f).bootaddr = s.bootaddr := rfl
@[simp] theorem modMast_measure : (modMast s c f).measure = s.measure := rfl
@[simp] theorem modMast_boot : (modMast s c f).boot = s.boot := rfl
@[simp] theorem modMast_bootNo : (modMast s c f).bootNo = s.bootNo := rfl
@[simp] theorem modMast_capsules : (modMast s c f).capsules = s.capsules := rfl
@[simp] theorem modMast_capDue : (modMast s c f).capDue = s.capDue := rfl
@[simp] theorem modMast_capSeq : (modMast s c f).capSeq = s.capSeq := rfl
@[simp] theorem modMast_summaries : (modMast s c f).summaries = s.summaries := rfl
@[simp] theorem modMast_links : (modMast s c f).links = s.links := rfl
@[simp] theorem modMast_lostDies : (modMast s c f).lostDies = s.lostDies := rfl
@[simp] theorem modMast_ports : (modMast s c f).ports = s.ports := rfl
@[simp] theorem modMast_portsOut : (modMast s c f).portsOut = s.portsOut := rfl
@[simp] theorem modMast_lastWindow : (modMast s c f).lastWindow = s.lastWindow := rfl
@[simp] theorem modMast_lastTimebase : (modMast s c f).lastTimebase = s.lastTimebase := rfl
@[simp] theorem modMast_lastPlace : (modMast s c f).lastPlace = s.lastPlace := rfl
@[simp] theorem modMast_swept : (modMast s c f).swept = s.swept := rfl
@[simp] theorem modMast_powered : (modMast s c f).powered = s.powered := rfl
@[simp] theorem modMast_hostFails : (modMast s c f).hostFails = s.hostFails := rfl
@[simp] theorem modMast_booting : (modMast s c f).booting = s.booting := rfl
end

section
variable (s : State) (q : Nat) (f : Queue → Queue)
@[simp] theorem modQueue_cycle : (modQueue s q f).cycle = s.cycle := rfl
@[simp] theorem modQueue_caps : (modQueue s q f).caps = s.caps := rfl
@[simp] theorem modQueue_at_ : (modQueue s q f).at_ = s.at_ := rfl
@[simp] theorem modQueue_agenda : (modQueue s q f).agenda = s.agenda := rfl
@[simp] theorem modQueue_ops : (modQueue s q f).ops = s.ops := rfl
@[simp] theorem modQueue_free : (modQueue s q f).free = s.free := rfl
@[simp] theorem modQueue_mem : (modQueue s q f).mem = s.mem := rfl
@[simp] theorem modQueue_poison : (modQueue s q f).poison = s.poison := rfl
@[simp] theorem modQueue_cores : (modQueue s q f).cores = s.cores := rfl
@[simp] theorem modQueue_images : (modQueue s q f).images = s.images := rfl
@[simp] theorem modQueue_tiles : (modQueue s q f).tiles = s.tiles := rfl
@[simp] theorem modQueue_spills : (modQueue s q f).spills = s.spills := rfl
@[simp] theorem modQueue_wgs : (modQueue s q f).wgs = s.wgs := rfl
@[simp] theorem modQueue_launches : (modQueue s q f).launches = s.launches := rfl
@[simp] theorem modQueue_launchNo : (modQueue s q f).launchNo = s.launchNo := rfl
@[simp] theorem modQueue_latches : (modQueue s q f).latches = s.latches := rfl
@[simp] theorem modQueue_rigPtr : (modQueue s q f).rigPtr = s.rigPtr := rfl
@[simp] theorem modQueue_prioPtr : (modQueue s q f).prioPtr = s.prioPtr := rfl
@[simp] theorem modQueue_gangs : (modQueue s q f).gangs = s.gangs := rfl
@[simp] theorem modQueue_ctxtab : (modQueue s q f).ctxtab = s.ctxtab := rfl
@[simp] theorem modQueue_slice : (modQueue s q f).slice = s.slice := rfl
@[simp] theorem modQueue_quantum : (modQueue s q f).quantum = s.quantum := rfl
@[simp] theorem modQueue_entryPtr : (modQueue s q f).entryPtr = s.entryPtr := rfl
@[simp] theorem modQueue_fnPtr : (modQueue s q f).fnPtr = s.fnPtr := rfl
@[simp] theorem modQueue_frames : (modQueue s q f).frames = s.frames := rfl
@[simp] theorem modQueue_sliceHand : (modQueue s q f).sliceHand = s.sliceHand := rfl
@[simp] theorem modQueue_dieLayer : (modQueue s q f).dieLayer = s.dieLayer := rfl
@[simp] theorem modQueue_badBuckets : (modQueue s q f).badBuckets = s.badBuckets := rfl
@[simp] theorem modQueue_deadChans : (modQueue s q f).deadChans = s.deadChans := rfl
@[simp] theorem modQueue_markers : (modQueue s q f).markers = s.markers := rfl
@[simp] theorem modQueue_seqs : (modQueue s q f).seqs = s.seqs := rfl
@[simp] theorem modQueue_invals : (modQueue s q f).invals = s.invals := rfl
@[simp] theorem modQueue_fillReqs : (modQueue s q f).fillReqs = s.fillReqs := rfl
@[simp] theorem modQueue_posted : (modQueue s q f).posted = s.posted := rfl
@[simp] theorem modQueue_flushed : (modQueue s q f).flushed = s.flushed := rfl
@[simp] theorem modQueue_flushes : (modQueue s q f).flushes = s.flushes := rfl
@[simp] theorem modQueue_hostReqs : (modQueue s q f).hostReqs = s.hostReqs := rfl
@[simp] theorem modQueue_hostStores : (modQueue s q f).hostStores = s.hostStores := rfl
@[simp] theorem modQueue_hwErrors : (modQueue s q f).hwErrors = s.hwErrors := rfl
@[simp] theorem modQueue_descs : (modQueue s q f).descs = s.descs := rfl
@[simp] theorem modQueue_monitors : (modQueue s q f).monitors = s.monitors := rfl
@[simp] theorem modQueue_hwrites : (modQueue s q f).hwrites = s.hwrites := rfl
@[simp] theorem modQueue_channels : (modQueue s q f).channels = s.channels := rfl
@[simp] theorem modQueue_hcfg : (modQueue s q f).hcfg = s.hcfg := rfl
@[simp] theorem modQueue_migrations : (modQueue s q f).migrations = s.migrations := rfl
@[simp] theorem modQueue_poisonTab : (modQueue s q f).poisonTab = s.poisonTab := rfl
@[simp] theorem modQueue_mirrors : (modQueue s q f).mirrors = s.mirrors := rfl
@[simp] theorem modQueue_lost : (modQueue s q f).lost = s.lost := rfl
@[simp] theorem modQueue_lostFull : (modQueue s q f).lostFull = s.lostFull := rfl
@[simp] theorem modQueue_rasCorrected : (modQueue s q f).rasCorrected = s.rasCorrected := rfl
@[simp] theorem modQueue_rasPoisoned : (modQueue s q f).rasPoisoned = s.rasPoisoned := rfl
@[simp] theorem modQueue_rasLast : (modQueue s q f).rasLast = s.rasLast := rfl
@[simp] theorem modQueue_rasHost : (modQueue s q f).rasHost = s.rasHost := rfl
@[simp] theorem modQueue_keyTable : (modQueue s q f).keyTable = s.keyTable := rfl
@[simp] theorem modQueue_keySlots : (modQueue s q f).keySlots = s.keySlots := rfl
@[simp] theorem modQueue_cipher : (modQueue s q f).cipher = s.cipher := rfl
@[simp] theorem modQueue_snoopFilter : (modQueue s q f).snoopFilter = s.snoopFilter := rfl
@[simp] theorem modQueue_snoops : (modQueue s q f).snoops = s.snoops := rfl
@[simp] theorem modQueue_hostInvals : (modQueue s q f).hostInvals = s.hostInvals := rfl
@[simp] theorem modQueue_sent : (modQueue s q f).sent = s.sent := rfl
@[simp] theorem modQueue_priStopped : (modQueue s q f).priStopped = s.priStopped := rfl
@[simp] theorem modQueue_priCleared : (modQueue s q f).priCleared = s.priCleared := rfl
@[simp] theorem modQueue_stop : (modQueue s q f).stop = s.stop := rfl
@[simp] theorem modQueue_dbgctl : (modQueue s q f).dbgctl = s.dbgctl := rfl
@[simp] theorem modQueue_stepped : (modQueue s q f).stepped = s.stepped := rfl
@[simp] theorem modQueue_mbxArgs : (modQueue s q f).mbxArgs = s.mbxArgs := rfl
@[simp] theorem modQueue_mbxResp : (modQueue s q f).mbxResp = s.mbxResp := rfl
@[simp] theorem modQueue_mbxCmd : (modQueue s q f).mbxCmd = s.mbxCmd := rfl
@[simp] theorem modQueue_groups : (modQueue s q f).groups = s.groups := rfl
@[simp] theorem modQueue_groupSeq : (modQueue s q f).groupSeq = s.groupSeq := rfl
@[simp] theorem modQueue_collIn : (modQueue s q f).collIn = s.collIn := rfl
@[simp] theorem modQueue_dieState : (modQueue s q f).dieState = s.dieState := rfl
@[simp] theorem modQueue_vf : (modQueue s q f).vf = s.vf := rfl
@[simp] theorem modQueue_vfNext : (modQueue s q f).vfNext = s.vfNext := rfl
@[simp] theorem modQueue_dieCap : (modQueue s q f).dieCap = s.dieCap := rfl
@[simp] theorem modQueue_stackCap : (modQueue s q f).stackCap = s.stackCap := rfl
@[simp] theorem modQueue_hotSince : (modQueue s q f).hotSince = s.hotSince := rfl
@[simp] theorem modQueue_bootaddr : (modQueue s q f).bootaddr = s.bootaddr := rfl
@[simp] theorem modQueue_measure : (modQueue s q f).measure = s.measure := rfl
@[simp] theorem modQueue_boot : (modQueue s q f).boot = s.boot := rfl
@[simp] theorem modQueue_bootNo : (modQueue s q f).bootNo = s.bootNo := rfl
@[simp] theorem modQueue_capsules : (modQueue s q f).capsules = s.capsules := rfl
@[simp] theorem modQueue_capDue : (modQueue s q f).capDue = s.capDue := rfl
@[simp] theorem modQueue_capSeq : (modQueue s q f).capSeq = s.capSeq := rfl
@[simp] theorem modQueue_summaries : (modQueue s q f).summaries = s.summaries := rfl
@[simp] theorem modQueue_links : (modQueue s q f).links = s.links := rfl
@[simp] theorem modQueue_lostDies : (modQueue s q f).lostDies = s.lostDies := rfl
@[simp] theorem modQueue_ports : (modQueue s q f).ports = s.ports := rfl
@[simp] theorem modQueue_portsOut : (modQueue s q f).portsOut = s.portsOut := rfl
@[simp] theorem modQueue_lastWindow : (modQueue s q f).lastWindow = s.lastWindow := rfl
@[simp] theorem modQueue_lastTimebase : (modQueue s q f).lastTimebase = s.lastTimebase := rfl
@[simp] theorem modQueue_lastPlace : (modQueue s q f).lastPlace = s.lastPlace := rfl
@[simp] theorem modQueue_swept : (modQueue s q f).swept = s.swept := rfl
@[simp] theorem modQueue_powered : (modQueue s q f).powered = s.powered := rfl
@[simp] theorem modQueue_hostFails : (modQueue s q f).hostFails = s.hostFails := rfl
@[simp] theorem modQueue_booting : (modQueue s q f).booting = s.booting := rfl
end

section
variable (s : State) (i : Nat) (f : HWrite → HWrite)
@[simp] theorem modHWrite_cycle : (modHWrite s i f).cycle = s.cycle := rfl
@[simp] theorem modHWrite_caps : (modHWrite s i f).caps = s.caps := rfl
@[simp] theorem modHWrite_at_ : (modHWrite s i f).at_ = s.at_ := rfl
@[simp] theorem modHWrite_agenda : (modHWrite s i f).agenda = s.agenda := rfl
@[simp] theorem modHWrite_ops : (modHWrite s i f).ops = s.ops := rfl
@[simp] theorem modHWrite_free : (modHWrite s i f).free = s.free := rfl
@[simp] theorem modHWrite_mem : (modHWrite s i f).mem = s.mem := rfl
@[simp] theorem modHWrite_poison : (modHWrite s i f).poison = s.poison := rfl
@[simp] theorem modHWrite_cores : (modHWrite s i f).cores = s.cores := rfl
@[simp] theorem modHWrite_images : (modHWrite s i f).images = s.images := rfl
@[simp] theorem modHWrite_tiles : (modHWrite s i f).tiles = s.tiles := rfl
@[simp] theorem modHWrite_spills : (modHWrite s i f).spills = s.spills := rfl
@[simp] theorem modHWrite_wgs : (modHWrite s i f).wgs = s.wgs := rfl
@[simp] theorem modHWrite_launches : (modHWrite s i f).launches = s.launches := rfl
@[simp] theorem modHWrite_launchNo : (modHWrite s i f).launchNo = s.launchNo := rfl
@[simp] theorem modHWrite_latches : (modHWrite s i f).latches = s.latches := rfl
@[simp] theorem modHWrite_rigPtr : (modHWrite s i f).rigPtr = s.rigPtr := rfl
@[simp] theorem modHWrite_prioPtr : (modHWrite s i f).prioPtr = s.prioPtr := rfl
@[simp] theorem modHWrite_queues : (modHWrite s i f).queues = s.queues := rfl
@[simp] theorem modHWrite_gangs : (modHWrite s i f).gangs = s.gangs := rfl
@[simp] theorem modHWrite_ctxtab : (modHWrite s i f).ctxtab = s.ctxtab := rfl
@[simp] theorem modHWrite_slice : (modHWrite s i f).slice = s.slice := rfl
@[simp] theorem modHWrite_quantum : (modHWrite s i f).quantum = s.quantum := rfl
@[simp] theorem modHWrite_entryPtr : (modHWrite s i f).entryPtr = s.entryPtr := rfl
@[simp] theorem modHWrite_fnPtr : (modHWrite s i f).fnPtr = s.fnPtr := rfl
@[simp] theorem modHWrite_frames : (modHWrite s i f).frames = s.frames := rfl
@[simp] theorem modHWrite_sliceHand : (modHWrite s i f).sliceHand = s.sliceHand := rfl
@[simp] theorem modHWrite_dieLayer : (modHWrite s i f).dieLayer = s.dieLayer := rfl
@[simp] theorem modHWrite_badBuckets : (modHWrite s i f).badBuckets = s.badBuckets := rfl
@[simp] theorem modHWrite_deadChans : (modHWrite s i f).deadChans = s.deadChans := rfl
@[simp] theorem modHWrite_markers : (modHWrite s i f).markers = s.markers := rfl
@[simp] theorem modHWrite_seqs : (modHWrite s i f).seqs = s.seqs := rfl
@[simp] theorem modHWrite_invals : (modHWrite s i f).invals = s.invals := rfl
@[simp] theorem modHWrite_fillReqs : (modHWrite s i f).fillReqs = s.fillReqs := rfl
@[simp] theorem modHWrite_posted : (modHWrite s i f).posted = s.posted := rfl
@[simp] theorem modHWrite_flushed : (modHWrite s i f).flushed = s.flushed := rfl
@[simp] theorem modHWrite_flushes : (modHWrite s i f).flushes = s.flushes := rfl
@[simp] theorem modHWrite_hostReqs : (modHWrite s i f).hostReqs = s.hostReqs := rfl
@[simp] theorem modHWrite_hostStores : (modHWrite s i f).hostStores = s.hostStores := rfl
@[simp] theorem modHWrite_hwErrors : (modHWrite s i f).hwErrors = s.hwErrors := rfl
@[simp] theorem modHWrite_descs : (modHWrite s i f).descs = s.descs := rfl
@[simp] theorem modHWrite_monitors : (modHWrite s i f).monitors = s.monitors := rfl
@[simp] theorem modHWrite_channels : (modHWrite s i f).channels = s.channels := rfl
@[simp] theorem modHWrite_hcfg : (modHWrite s i f).hcfg = s.hcfg := rfl
@[simp] theorem modHWrite_migrations : (modHWrite s i f).migrations = s.migrations := rfl
@[simp] theorem modHWrite_poisonTab : (modHWrite s i f).poisonTab = s.poisonTab := rfl
@[simp] theorem modHWrite_mirrors : (modHWrite s i f).mirrors = s.mirrors := rfl
@[simp] theorem modHWrite_lost : (modHWrite s i f).lost = s.lost := rfl
@[simp] theorem modHWrite_lostFull : (modHWrite s i f).lostFull = s.lostFull := rfl
@[simp] theorem modHWrite_rasCorrected : (modHWrite s i f).rasCorrected = s.rasCorrected := rfl
@[simp] theorem modHWrite_rasPoisoned : (modHWrite s i f).rasPoisoned = s.rasPoisoned := rfl
@[simp] theorem modHWrite_rasLast : (modHWrite s i f).rasLast = s.rasLast := rfl
@[simp] theorem modHWrite_rasHost : (modHWrite s i f).rasHost = s.rasHost := rfl
@[simp] theorem modHWrite_keyTable : (modHWrite s i f).keyTable = s.keyTable := rfl
@[simp] theorem modHWrite_keySlots : (modHWrite s i f).keySlots = s.keySlots := rfl
@[simp] theorem modHWrite_cipher : (modHWrite s i f).cipher = s.cipher := rfl
@[simp] theorem modHWrite_snoopFilter : (modHWrite s i f).snoopFilter = s.snoopFilter := rfl
@[simp] theorem modHWrite_snoops : (modHWrite s i f).snoops = s.snoops := rfl
@[simp] theorem modHWrite_hostInvals : (modHWrite s i f).hostInvals = s.hostInvals := rfl
@[simp] theorem modHWrite_sent : (modHWrite s i f).sent = s.sent := rfl
@[simp] theorem modHWrite_priStopped : (modHWrite s i f).priStopped = s.priStopped := rfl
@[simp] theorem modHWrite_priCleared : (modHWrite s i f).priCleared = s.priCleared := rfl
@[simp] theorem modHWrite_stop : (modHWrite s i f).stop = s.stop := rfl
@[simp] theorem modHWrite_dbgctl : (modHWrite s i f).dbgctl = s.dbgctl := rfl
@[simp] theorem modHWrite_stepped : (modHWrite s i f).stepped = s.stepped := rfl
@[simp] theorem modHWrite_mbxArgs : (modHWrite s i f).mbxArgs = s.mbxArgs := rfl
@[simp] theorem modHWrite_mbxResp : (modHWrite s i f).mbxResp = s.mbxResp := rfl
@[simp] theorem modHWrite_mbxCmd : (modHWrite s i f).mbxCmd = s.mbxCmd := rfl
@[simp] theorem modHWrite_groups : (modHWrite s i f).groups = s.groups := rfl
@[simp] theorem modHWrite_groupSeq : (modHWrite s i f).groupSeq = s.groupSeq := rfl
@[simp] theorem modHWrite_collIn : (modHWrite s i f).collIn = s.collIn := rfl
@[simp] theorem modHWrite_dieState : (modHWrite s i f).dieState = s.dieState := rfl
@[simp] theorem modHWrite_vf : (modHWrite s i f).vf = s.vf := rfl
@[simp] theorem modHWrite_vfNext : (modHWrite s i f).vfNext = s.vfNext := rfl
@[simp] theorem modHWrite_dieCap : (modHWrite s i f).dieCap = s.dieCap := rfl
@[simp] theorem modHWrite_stackCap : (modHWrite s i f).stackCap = s.stackCap := rfl
@[simp] theorem modHWrite_hotSince : (modHWrite s i f).hotSince = s.hotSince := rfl
@[simp] theorem modHWrite_bootaddr : (modHWrite s i f).bootaddr = s.bootaddr := rfl
@[simp] theorem modHWrite_measure : (modHWrite s i f).measure = s.measure := rfl
@[simp] theorem modHWrite_boot : (modHWrite s i f).boot = s.boot := rfl
@[simp] theorem modHWrite_bootNo : (modHWrite s i f).bootNo = s.bootNo := rfl
@[simp] theorem modHWrite_capsules : (modHWrite s i f).capsules = s.capsules := rfl
@[simp] theorem modHWrite_capDue : (modHWrite s i f).capDue = s.capDue := rfl
@[simp] theorem modHWrite_capSeq : (modHWrite s i f).capSeq = s.capSeq := rfl
@[simp] theorem modHWrite_summaries : (modHWrite s i f).summaries = s.summaries := rfl
@[simp] theorem modHWrite_links : (modHWrite s i f).links = s.links := rfl
@[simp] theorem modHWrite_lostDies : (modHWrite s i f).lostDies = s.lostDies := rfl
@[simp] theorem modHWrite_ports : (modHWrite s i f).ports = s.ports := rfl
@[simp] theorem modHWrite_portsOut : (modHWrite s i f).portsOut = s.portsOut := rfl
@[simp] theorem modHWrite_lastWindow : (modHWrite s i f).lastWindow = s.lastWindow := rfl
@[simp] theorem modHWrite_lastTimebase : (modHWrite s i f).lastTimebase = s.lastTimebase := rfl
@[simp] theorem modHWrite_lastPlace : (modHWrite s i f).lastPlace = s.lastPlace := rfl
@[simp] theorem modHWrite_swept : (modHWrite s i f).swept = s.swept := rfl
@[simp] theorem modHWrite_powered : (modHWrite s i f).powered = s.powered := rfl
@[simp] theorem modHWrite_hostFails : (modHWrite s i f).hostFails = s.hostFails := rfl
@[simp] theorem modHWrite_booting : (modHWrite s i f).booting = s.booting := rfl
end

/-! ## Cores and lane frames after an update -/

@[simp] theorem core_setCore_self (s : State) (c : Nat) (x : Core) : core (setCore s c x) c = x := by
  simp [core, setCore]

theorem core_setCore_ne (s : State) {c d : Nat} (x : Core) (h : d ≠ c) : core (setCore s c x) d = core s d := by
  simp [core, setCore, look_put_ne _ _ _ h]

@[simp] theorem core_modCore_self (s : State) (c : Nat) (f : Core → Core) : core (modCore s c f) c = f (core s c) := by
  simp [modCore]

theorem core_modCore_ne (s : State) {c d : Nat} (f : Core → Core) (h : d ≠ c) : core (modCore s c f) d = core s d := by
  simp [modCore, core_setCore_ne s _ h]

theorem core_congr {s t : State} (h : t.cores = s.cores) (c : Nat) : core t c = core s c := by simp [core, h]

@[simp] theorem laneFrame_setLF_self (s : State) (c l : Nat) (x : LaneFrame) : laneFrame (setLF s c l x) c l = some x := by
  simp [laneFrame, setLF, modC]

theorem laneFrame_setLF_ne (s : State) {c l d m : Nat} (x : LaneFrame) (h : ¬(d = c ∧ m = l)) :
    laneFrame (setLF s c l x) d m = laneFrame s d m := by
  by_cases hd : d = c
  · subst hd
    have hm : m ≠ l := fun e => h ⟨rfl, e⟩
    simp [laneFrame, setLF, modC, lookup_put_ne _ _ hm]
  · simp [laneFrame, setLF, core_modCore_ne s _ hd]

theorem laneFrame_modLF (s : State) (c l d m : Nat) (f : LaneFrame → LaneFrame) :
    laneFrame (modLF s c l f) d m = if d = c ∧ m = l then (laneFrame s d m).map f else laneFrame s d m := by
  by_cases hd : d = c
  · subst hd; simp [laneFrame, modLF, modC, lookup_changeIf]
  · simp [laneFrame, modLF, core_modCore_ne s _ hd, hd]

theorem laneFrame_congr {s t : State} (h : t.cores = s.cores) (c l : Nat) : laneFrame t c l = laneFrame s c l := by
  simp [laneFrame, core, h]

/-- What modThreads leaves of a thread that the lane frame holds. -/
theorem lookup_modThreads (f : LaneFrame) (m : LaneMask) (g : Nat → Thread → Thread) (i : Nat) :
    lookup (modThreads f m g).threads i = (lookup f.threads i).map (fun t => if m.getLsbD i then g i t else t) := by
  obtain ⟨_, _, ts, _, _, _, _, _, _, _, _, _, _, _, _⟩ := f
  simp only [modThreads]
  induction ts with
  | nil => rfl
  | cons e ts ih =>
    obtain ⟨j, t⟩ := e
    by_cases hm : m.getLsbD j = true
    · by_cases hj : j = i
      · subst hj; simp [lookup, hm]
      · simp [lookup, hm, hj, ih]
    · by_cases hj : j = i
      · subst hj; simp [lookup, hm]
      · simp [lookup, hm, hj, ih]

end Sys2Proof.Machine
end

