-- ==== Sys2Proof/Laws/Ops.lean ====
section
/-!
SUPPORT. Laws/Ops.lean: what each shared operation can do, said once: a word that issues either holds with nothing changed, traps,
parks, or does its one effect.
-/
namespace Sys2Proof.Machine

/-! ## The issuing bundle -/

theorem issuing_spec {s : State} {u : Iss} (h : issuing s = some u) :
    s.at_ = some (u.c, u.l) ∧ laneFrame s u.c u.l = some u.f ∧ u.f.clause = some u.cl ∧ u.f.fence = none ∧ u.f.call = none := by
  unfold issuing at h
  split at h
  · cases h
  · rename_i c l hat
    split at h
    · cases h
    · rename_i f hf
      split at h
      · cases h
      · rename_i cl hcl
        split at h
        · rename_i hh
          cases h
          simp only [Bool.and_eq_true, Option.isNone_iff_eq_none] at hh
          exact ⟨hat, hf, hcl, hh.1, hh.2⟩
        · cases h

@[simp] theorem issuing_hold (s : State) : issuing (hold s) = none := rfl
@[simp] theorem hold_mem (s : State) : (hold s).mem = s.mem := rfl
@[simp] theorem hold_cores (s : State) : (hold s).cores = s.cores := rfl
theorem hold_eq (s : State) : hold s = { s with at_ := none } := rfl

/-! ## Stops -/

@[simp] theorem raise_mem (s : State) (e : Event) : (raise s e).mem = s.mem := by
  obtain ⟨_, _, _, _, _, _, _, b⟩ := e
  cases b <;> rfl
@[simp] theorem raise_cycle (s : State) (e : Event) : (raise s e).cycle = s.cycle := by
  obtain ⟨_, _, _, _, _, _, _, b⟩ := e
  cases b <;> rfl
@[simp] theorem raise_at (s : State) (e : Event) : (raise s e).at_ = none := by
  obtain ⟨_, _, _, _, _, _, _, b⟩ := e
  cases b <;> rfl
@[simp] theorem raise_stop (s : State) (e : Event) : (raise s e).stop = stopWith s e := by
  obtain ⟨_, _, _, _, _, _, _, b⟩ := e
  cases b <;> rfl
@[simp] theorem raise_slice (s : State) (e : Event) : (raise s e).slice = s.slice := by
  obtain ⟨_, _, _, _, _, _, _, b⟩ := e
  cases b <;> rfl
@[simp] theorem raise_wgs (s : State) (e : Event) : (raise s e).wgs = s.wgs := by
  obtain ⟨_, _, _, _, _, _, _, b⟩ := e
  cases b <;> rfl
@[simp] theorem raise_launches (s : State) (e : Event) : (raise s e).launches = s.launches := by
  obtain ⟨_, _, _, _, _, _, _, b⟩ := e
  cases b <;> rfl
@[simp] theorem raise_frames (s : State) (e : Event) : (raise s e).frames = s.frames := by
  obtain ⟨_, _, _, _, _, _, _, b⟩ := e
  cases b <;> rfl

/-- A stop changes the cores, the stop and the issuing point, and nothing else. -/
theorem raise_frame (s : State) (e : Event) :
    raise s e = { s with cores := (raise s e).cores, stop := stopWith s e, at_ := none } := by
  obtain ⟨_, _, _, _, _, _, _, b⟩ := e
  cases b <;> rfl

theorem trap_frame (s : State) (u : Iss) (k d : Nat) :
    trap s u k d = { s with cores := (trap s u k d).cores, stop := (trap s u k d).stop, at_ := none } := by
  rw [trap, raise_stop]; exact raise_frame _ _

/-- The stop after an event is there, and an event later than the primary's cycle leaves the primary as it is. -/
theorem stopWith_isSome (s : State) (e : Event) : (stopWith s e).isSome = true := by
  unfold stopWith; split <;> rfl

/-! ## Words that deliver a value after a fixed latency -/

/-- Everything such a word can do. -/
theorem aluWord_cases (s : State) (lat k : Nat) (d : BitVec 4) (g : Iss → Nat → Option (List Word)) :
    aluWord s lat k d g = hold s ∨
    ∃ u vals, issuing s = some u ∧ writeHeld u (regsOf d.toNat k) = false ∧ eachLane u (g u) = some vals ∧
      aluWord s lat k d g = issueVals s u lat k d vals := by
  unfold aluWord
  split
  · exact .inl rfl
  · rename_i u hu
    split
    · exact .inl rfl
    · rename_i hw
      split
      · exact .inl rfl
      · rename_i vals hv
        exact .inr ⟨u, vals, hu, by simpa using hw, hv, rfl⟩

theorem aluWord_next {s : State} {u : Iss} {lat k : Nat} {d : BitVec 4} {g : Iss → Nat → Option (List Word)}
    {vals : Table (List Word)} (hu : issuing s = some u) (hw : writeHeld u (regsOf d.toNat k) = false)
    (hv : eachLane u (g u) = some vals) : aluWord s lat k d g = issueVals s u lat k d vals := by
  simp [aluWord, hu, hw, hv]

/-! ## Memory words -/

/-- A load word whose bundle issues holds, traps, parks for the capacity tier, or goes out. -/
theorem loadWord_issuing {s : State} {u : Iss} (hu : issuing s = some u) (f : LoadForm) (reg : Nat) (fs : Side)
    (ea : Iss → Nat → Option Nat) (hw : writeHeld u (regsOf reg (slotsOf f.width)) = false) (ha : acquiring s u = false) :
    (∀ addrs ents s1, findPlaces s u f.reach f.align f.width 0 false (ea u) = (.ok addrs ents, s1) →
      loadWord s f reg fs ea = issueLoad s1 u f reg (u.flag fs) addrs ents) ∧
    (∀ k d s1, findPlaces s u f.reach f.align f.width 0 false (ea u) = (.trap k d, s1) →
      loadWord s f reg fs ea = trap s1 u k d) ∧
    (∀ s1, findPlaces s u f.reach f.align f.width 0 false (ea u) = (.hold, s1) → loadWord s f reg fs ea = hold s1) := by
  refine ⟨?_, ?_, ?_⟩ <;> intros <;> simp_all [loadWord]

/-- A store word likewise. -/
theorem storeWord_issuing {s : State} {u : Iss} (hu : issuing s = some u) (w align : Nat) (r : Reach) (fs : Side)
    (rel : Option Scope) (ea : Iss → Nat → Option Nat) (data : Iss → Nat → Option (List Byte)) (ha : acquiring s u = false)
    {vals : Table (List Byte)} (hv : eachLane u (data u) = some vals) :
    (∀ addrs ents s1, findPlaces s u r align w 1 true (ea u) = (.ok addrs ents, s1) →
      storeWord s w align r fs rel ea data = issueStore s1 u w (u.flag fs) rel addrs ents (fun i => look vals i [])) ∧
    (∀ k d s1, findPlaces s u r align w 1 true (ea u) = (.trap k d, s1) →
      storeWord s w align r fs rel ea data = trap s1 u k d) := by
  refine ⟨?_, ?_⟩ <;> intros <;> simp_all [storeWord]

/-- An atomic word likewise. -/
theorem atomicWord_issuing {s : State} {u : Iss} (hu : issuing s = some u) (o : AtomOp) (size : Nat) (r : Reach) (reg : Nat)
    (fs : Side) (acq : Bool) (rel : Option Scope) (ea : Iss → Nat → Option Nat) (val : Iss → Nat → Option (Word × Word))
    (hw : writeHeld u (regsOf reg 1) = false) (ha : acquiring s u = false) {vals : Table (Word × Word)}
    (hv : eachLane u (val u) = some vals) :
    (∀ addrs ents s1, findPlaces s u r size size 1 true (ea u) = (.ok addrs ents, s1) →
      atomicWord s o size r reg fs acq rel ea val = issueAtomic s1 u o size reg (u.flag fs) acq rel addrs ents vals) ∧
    (∀ k d s1, findPlaces s u r size size 1 true (ea u) = (.trap k d, s1) →
      atomicWord s o size r reg fs acq rel ea val = trap s1 u k d) := by
  refine ⟨?_, ?_⟩ <;> intros <;> simp_all [atomicWord]

/-! ## Words of the matrix queue -/

theorem mqWord_next {s : State} {u : Iss} {a : Src} {x : Word} (hu : issuing s = some u)
    (hx : read32 u a (lowest u.cl.lanes) = some x) (hr : mqRoom s u.c = true) (g : Iss → Word → State) :
    mqWord s a g = .next (g u x) := by
  have hx' : read32 u a u.low = some x := hx
  simp [mqWord, hu, hx', hr]

theorem mqWord64_next {s : State} {u : Iss} {b : BitVec 5} {a : Src} {x : DWord} {y : Word} (hu : issuing s = some u)
    (hx : read64 u a (lowest u.cl.lanes) = some x) (hy : readSC u b (lowest u.cl.lanes) = some y) (hr : mqRoom s u.c = true)
    (g : Iss → DWord → Word → State) : mqWord64 s b a g = .next (g u x y) := by
  have hx' : read64 u a u.low = some x := hx
  have hy' : readSC u b u.low = some y := hy
  simp [mqWord64, hu, hx', hy', hr]

/-! ## Mailbox commands -/

/-- A command that is carried out and answers at once: BUSY is clear again. -/
theorem command_served {s : State} {m : MbxMaster} (hm : mayCommand m = true) (hb : s.boot.code = 0) (hc : s.mbxCmd = none)
    (code : Nat) (args : List (Nat × DWord)) (f : State → State)
    (hr : (f (begun s args)).mbxResp.getLsbD 31 = false) : command s m code args f = .next (f (begun s args)) := by
  unfold command
  rw [if_pos (by simp [served, hm, hb, hc])]
  dsimp only
  rw [if_neg (by rw [hr]; decide)]

/-- A command that its master may not issue, that the part does not serve, or that comes while another is in progress changes
nothing. -/
theorem command_ignored {s : State} {m : MbxMaster} {code : Nat}
    (h : mayCommand m = false ∨ served s code = false ∨ s.mbxCmd.isSome = true) (args : List (Nat × DWord)) (f : State → State) :
    command s m code args f = .next s := by
  rcases h with h | h | h
  · simp [command, h]
  · simp [command, h]
  · cases hc : s.mbxCmd with
    | none => simp [hc] at h
    | some x => simp [command, hc]

/-- An answer clears BUSY. -/
theorem answer_busy (s : State) (code : Nat) (l : List (Nat × DWord)) : (answer s code l).mbxResp.getLsbD 31 = false := by
  simp only [answer, BitVec.getLsbD_ofNat]
  have h : code % 256 < 2 ^ 31 := by omega
  simp [Nat.testBit_lt_two_pow h]

end Sys2Proof.Machine
end

