-- ==== Sys2Proof/Tests/Slice0.lean ====
section
/-!
SUPPORT. Tests/Slice0.lean: the package's own tests. Words written out from the encoding tables of chapter 07 and the manual's
worked words; an ill-formed term for each check of WellFormed; for each statement of Obligations.lean a state and operands
that meet the hypotheses of its clauses; and a few values that the manual works out.
-/
set_option Elab.async false

namespace Sys2Proof.Tests
open Sys2Proof.Machine Sys2Proof.Spec

/-! ## Decoding (R138 to R161) -/

/-- Each word decodes to the instruction beside it, and that encodes to the word. -/
def reads (l : List (Word × Instr)) : Bool :=
  l.all (fun e => decide (decodeWord e.1 = .ok e.2) && decide (encode e.2 = some e.1))

theorem test_decode_family0_1 : reads [
    (0b0_000_000000_0100_0011_10100_0001_10010, .addS32 4 ⟨3, 20⟩ ⟨1, 18⟩),
    (0b0_000_000001_0100_0011_10100_0001_10010, .addS32Sat 4 ⟨3, 20⟩ ⟨1, 18⟩),
    (0b0_000_000010_0100_0011_10100_0001_10010, .addZ32Sat 4 ⟨3, 20⟩ ⟨1, 18⟩),
    (0b0_000_000011_0100_0011_10100_0001_10010, .subS32 4 ⟨3, 20⟩ ⟨1, 18⟩),
    (0b0_000_000100_0100_0011_10100_0001_10010, .subS32Sat 4 ⟨3, 20⟩ ⟨1, 18⟩),
    (0b0_000_000101_0100_0011_10100_0001_10010, .subZ32Sat 4 ⟨3, 20⟩ ⟨1, 18⟩),
    (0b0_000_000110_0100_0011_10100_0001_10010, .mulS32 4 ⟨3, 20⟩ ⟨1, 18⟩),
    (0b0_000_000111_0100_0011_10100_0001_10010, .mulhiS32 4 ⟨3, 20⟩ ⟨1, 18⟩),
    (0b0_000_001000_0100_0011_10100_0001_10010, .mulhiZ32 4 ⟨3, 20⟩ ⟨1, 18⟩),
    (0b0_000_001001_0100_0011_10100_0001_10010, .minS32 4 ⟨3, 20⟩ ⟨1, 18⟩),
    (0b0_000_001010_0100_0011_10100_0001_10010, .maxS32 4 ⟨3, 20⟩ ⟨1, 18⟩),
    (0b0_000_001011_0100_0011_10100_0001_10010, .minZ32 4 ⟨3, 20⟩ ⟨1, 18⟩),
    (0b0_000_001100_0100_0011_10100_0001_10010, .maxZ32 4 ⟨3, 20⟩ ⟨1, 18⟩),
    (0b0_000_001101_0100_0000_00000_0001_10010, .absS32 4 ⟨1, 18⟩),
    (0b0_000_001110_0100_0000_00000_0001_10010, .negS32 4 ⟨1, 18⟩),
    (0b0_000_001111_0100_0000_00000_0001_10010, .movB32 4 ⟨1, 18⟩),
    (0b0_000_010000_0100_0011_10100_0001_10010, .andB32 4 ⟨3, 20⟩ ⟨1, 18⟩),
    (0b0_000_010001_0100_0011_10100_0001_10010, .orB32 4 ⟨3, 20⟩ ⟨1, 18⟩),
    (0b0_000_010010_0100_0011_10100_0001_10010, .xorB32 4 ⟨3, 20⟩ ⟨1, 18⟩),
    (0b0_000_010011_0100_0011_10100_0001_10010, .andnB32 4 ⟨3, 20⟩ ⟨1, 18⟩),
    (0b0_000_010100_0100_0000_00000_0001_10010, .notB32 4 ⟨1, 18⟩),
    (0b0_000_010101_0100_0011_10100_0001_10010, .addB64 4 ⟨3, 20⟩ ⟨1, 18⟩),
    (0b0_000_010110_0100_0011_10100_0001_10010, .subB64 4 ⟨3, 20⟩ ⟨1, 18⟩),
    (0b0_000_010111_0100_0011_10100_0001_10010, .mulwS32 4 ⟨3, 20⟩ ⟨1, 18⟩)] = true := by decide +kernel

theorem test_decode_family0_2 : reads [
    (0b0_000_011000_0100_0011_10100_0001_10010, .mulwZ32 4 ⟨3, 20⟩ ⟨1, 18⟩),
    (0b0_000_011001_0100_0011_10100_0001_10010, .divS32 4 ⟨3, 20⟩ ⟨1, 18⟩),
    (0b0_000_011010_0100_0011_10100_0001_10010, .divZ32 4 ⟨3, 20⟩ ⟨1, 18⟩),
    (0b0_000_011011_0100_0011_10100_0001_10010, .remS32 4 ⟨3, 20⟩ ⟨1, 18⟩),
    (0b0_000_011100_0100_0011_10100_0001_10010, .remZ32 4 ⟨3, 20⟩ ⟨1, 18⟩)] = true := by decide +kernel

theorem test_decode_family1 : reads [
    (0b0_001_000000_0100_0011_10100_0001_10010, .shlB32 4 ⟨3, 20⟩ ⟨1, 18⟩),
    (0b0_001_000001_0100_0011_10100_0001_10010, .shrZ32 4 ⟨3, 20⟩ ⟨1, 18⟩),
    (0b0_001_000010_0100_0011_10100_0001_10010, .shrS32 4 ⟨3, 20⟩ ⟨1, 18⟩),
    (0b0_001_000011_0100_0011_10100_0001_10010, .rolB32 4 ⟨3, 20⟩ ⟨1, 18⟩),
    (0b0_001_000100_0100_0011_10100_0001_10010, .shlB64 4 ⟨3, 20⟩ ⟨1, 18⟩),
    (0b0_001_000101_0100_0011_10100_0001_10010, .shrZ64 4 ⟨3, 20⟩ ⟨1, 18⟩),
    (0b0_001_000110_0100_0011_10100_0001_10010, .shrS64 4 ⟨3, 20⟩ ⟨1, 18⟩),
    (0b0_001_001000_0100_0000_00000_0001_10010, .popcB32 4 ⟨1, 18⟩),
    (0b0_001_001001_0100_0000_00000_0001_10010, .clzB32 4 ⟨1, 18⟩),
    (0b0_001_001010_0100_0000_00000_0001_10010, .ctzB32 4 ⟨1, 18⟩),
    (0b0_001_001011_0100_0000_00000_0001_10010, .brevB32 4 ⟨1, 18⟩),
    (0b0_001_001100_0100_0011_10100_0001_10010, .bfxS32 4 ⟨3, 20⟩ ⟨1, 18⟩),
    (0b0_001_001101_0100_0011_10100_0001_10010, .bfxZ32 4 ⟨3, 20⟩ ⟨1, 18⟩),
    (0b0_001_010000_0100_0011_10100_0001_10010, .isetEqB32 4 ⟨3, 20⟩ ⟨1, 18⟩),
    (0b0_001_010001_0100_0011_10100_0001_10010, .isetNeB32 4 ⟨3, 20⟩ ⟨1, 18⟩),
    (0b0_001_010010_0100_0011_10100_0001_10010, .isetLtS32 4 ⟨3, 20⟩ ⟨1, 18⟩),
    (0b0_001_010011_0100_0011_10100_0001_10010, .isetLeS32 4 ⟨3, 20⟩ ⟨1, 18⟩),
    (0b0_001_010100_0100_0011_10100_0001_10010, .isetGtS32 4 ⟨3, 20⟩ ⟨1, 18⟩),
    (0b0_001_010101_0100_0011_10100_0001_10010, .isetGeS32 4 ⟨3, 20⟩ ⟨1, 18⟩),
    (0b0_001_010110_0100_0011_10100_0001_10010, .isetLtZ32 4 ⟨3, 20⟩ ⟨1, 18⟩),
    (0b0_001_010111_0100_0011_10100_0001_10010, .isetLeZ32 4 ⟨3, 20⟩ ⟨1, 18⟩),
    (0b0_001_011000_0100_0011_10100_0001_10010, .isetGtZ32 4 ⟨3, 20⟩ ⟨1, 18⟩),
    (0b0_001_011001_0100_0011_10100_0001_10010, .isetGeZ32 4 ⟨3, 20⟩ ⟨1, 18⟩),
    (0b0_001_011100_0100_0011_10100_0001_10010, .selB32 4 ⟨3, 20⟩ ⟨1, 18⟩)] = true := by decide +kernel

theorem test_decode_family2_1 : reads [
    (0b0_010_000001_0100_0011_10100_0001_10010, .faddF32 .rz 4 ⟨3, 20⟩ ⟨1, 18⟩),
    (0b0_010_000111_0100_0011_10100_0001_10010, .fsubF32 .ru 4 ⟨3, 20⟩ ⟨1, 18⟩),
    (0b0_010_001001_0100_0011_10100_0001_10010, .fmulF32 .rz 4 ⟨3, 20⟩ ⟨1, 18⟩),
    (0b0_010_001111_0100_0011_10100_0001_10010, .faddF16 .ru 4 ⟨3, 20⟩ ⟨1, 18⟩),
    (0b0_010_010001_0100_0011_10100_0001_10010, .fsubF16 .rz 4 ⟨3, 20⟩ ⟨1, 18⟩),
    (0b0_010_010111_0100_0011_10100_0001_10010, .fmulF16 .ru 4 ⟨3, 20⟩ ⟨1, 18⟩),
    (0b0_010_011000_0100_0011_10100_0001_10010, .fminF32 4 ⟨3, 20⟩ ⟨1, 18⟩),
    (0b0_010_011001_0100_0011_10100_0001_10010, .fmaxF32 4 ⟨3, 20⟩ ⟨1, 18⟩),
    (0b0_010_011010_0100_0011_10100_0001_10010, .fminF16 4 ⟨3, 20⟩ ⟨1, 18⟩),
    (0b0_010_011011_0100_0011_10100_0001_10010, .fmaxF16 4 ⟨3, 20⟩ ⟨1, 18⟩),
    (0b0_010_011100_0100_0000_00000_0001_10010, .fabsF32 4 ⟨1, 18⟩),
    (0b0_010_011101_0100_0000_00000_0001_10010, .fnegF32 4 ⟨1, 18⟩),
    (0b0_010_011110_0100_0000_00000_0001_10010, .fabsF16 4 ⟨1, 18⟩),
    (0b0_010_011111_0100_0000_00000_0001_10010, .fnegF16 4 ⟨1, 18⟩),
    (0b0_010_100000_0100_0011_10100_0001_10010, .fsetF32 .eq 4 ⟨3, 20⟩ ⟨1, 18⟩),
    (0b0_010_100001_0100_0011_10100_0001_10010, .fsetF32 .ne 4 ⟨3, 20⟩ ⟨1, 18⟩),
    (0b0_010_100010_0100_0011_10100_0001_10010, .fsetF32 .lt 4 ⟨3, 20⟩ ⟨1, 18⟩),
    (0b0_010_100011_0100_0011_10100_0001_10010, .fsetF32 .le 4 ⟨3, 20⟩ ⟨1, 18⟩),
    (0b0_010_100100_0100_0011_10100_0001_10010, .fsetF32 .gt 4 ⟨3, 20⟩ ⟨1, 18⟩),
    (0b0_010_100101_0100_0011_10100_0001_10010, .fsetF32 .ge 4 ⟨3, 20⟩ ⟨1, 18⟩),
    (0b0_010_100110_0100_0011_10100_0001_10010, .fsetF32 .un 4 ⟨3, 20⟩ ⟨1, 18⟩),
    (0b0_010_100111_0100_0011_10100_0001_10010, .fsetF32 .or 4 ⟨3, 20⟩ ⟨1, 18⟩),
    (0b0_010_101000_0100_0011_10100_0001_10010, .fsetF16 .eq 4 ⟨3, 20⟩ ⟨1, 18⟩),
    (0b0_010_101001_0100_0011_10100_0001_10010, .fsetF16 .ne 4 ⟨3, 20⟩ ⟨1, 18⟩)] = true := by decide +kernel

theorem test_decode_family2_2 : reads [
    (0b0_010_101010_0100_0011_10100_0001_10010, .fsetF16 .lt 4 ⟨3, 20⟩ ⟨1, 18⟩),
    (0b0_010_101011_0100_0011_10100_0001_10010, .fsetF16 .le 4 ⟨3, 20⟩ ⟨1, 18⟩),
    (0b0_010_101100_0100_0011_10100_0001_10010, .fsetF16 .gt 4 ⟨3, 20⟩ ⟨1, 18⟩),
    (0b0_010_101101_0100_0011_10100_0001_10010, .fsetF16 .ge 4 ⟨3, 20⟩ ⟨1, 18⟩),
    (0b0_010_101110_0100_0011_10100_0001_10010, .fsetF16 .un 4 ⟨3, 20⟩ ⟨1, 18⟩),
    (0b0_010_101111_0100_0011_10100_0001_10010, .fsetF16 .or 4 ⟨3, 20⟩ ⟨1, 18⟩),
    (0b0_010_110001_0100_0000_00000_0001_10010, .frndF32 .rz 4 ⟨1, 18⟩),
    (0b0_010_110111_0100_0000_00000_0001_10010, .frndF16 .ru 4 ⟨1, 18⟩)] = true := by decide +kernel

theorem test_decode_family3 : reads [
    (0b0_011_000001_0100_0011_10100_0001_10010, .faddBf16x2 .rz 4 ⟨3, 20⟩ ⟨1, 18⟩),
    (0b0_011_000111_0100_0011_10100_0001_10010, .fmulBf16x2 .ru 4 ⟨3, 20⟩ ⟨1, 18⟩),
    (0b0_011_001001_0100_0011_10100_0001_10010, .faddF16x2 .rz 4 ⟨3, 20⟩ ⟨1, 18⟩),
    (0b0_011_001111_0100_0011_10100_0001_10010, .fmulF16x2 .ru 4 ⟨3, 20⟩ ⟨1, 18⟩),
    (0b0_011_010000_0100_0011_10100_0001_10010, .fminBf16x2 4 ⟨3, 20⟩ ⟨1, 18⟩),
    (0b0_011_010001_0100_0011_10100_0001_10010, .fmaxBf16x2 4 ⟨3, 20⟩ ⟨1, 18⟩),
    (0b0_011_010010_0100_0011_10100_0001_10010, .fminF16x2 4 ⟨3, 20⟩ ⟨1, 18⟩),
    (0b0_011_010011_0100_0011_10100_0001_10010, .fmaxF16x2 4 ⟨3, 20⟩ ⟨1, 18⟩),
    (0b0_011_010101_0100_0000_00000_0001_10010, .cvtF16F32 .rz 4 ⟨1, 18⟩),
    (0b0_011_011011_0100_0000_00000_0001_10010, .cvtBf16F32 .ru 4 ⟨1, 18⟩),
    (0b0_011_011101_0100_0000_00000_0001_10010, .cvtBf16F16 .rz 4 ⟨1, 18⟩),
    (0b0_011_100011_0100_0000_00000_0001_10010, .cvtF16Bf16 .ru 4 ⟨1, 18⟩),
    (0b0_011_100100_0100_0000_00000_0001_10010, .cvtF32F16 4 ⟨1, 18⟩),
    (0b0_011_100101_0100_0000_00000_0001_10010, .cvtF32Bf16 4 ⟨1, 18⟩),
    (0b0_011_100110_0100_0011_10100_0001_10010, .packBf16x2F32 4 ⟨3, 20⟩ ⟨1, 18⟩),
    (0b0_011_100111_0100_0011_10100_0001_10010, .packF16x2F32 4 ⟨3, 20⟩ ⟨1, 18⟩),
    (0b0_011_101001_0100_0000_00100_0001_10010, .cvtIntF32 .rz 4 .z16 ⟨1, 18⟩),
    (0b0_011_101111_0100_0000_00101_0001_10010, .cvtIntF16 .ru 4 .z32 ⟨1, 18⟩),
    (0b0_011_110001_0100_0000_00000_0001_10010, .cvtIntBf16 .rz 4 .s8 ⟨1, 18⟩),
    (0b0_011_110111_0100_0000_00001_0001_10010, .cvtF32Int .ru 4 .s16 ⟨1, 18⟩),
    (0b0_011_111001_0100_0000_00010_0001_10010, .cvtF16Int .rz 4 .s32 ⟨1, 18⟩),
    (0b0_011_111111_0100_0000_00011_0001_10010, .cvtBf16Int .ru 4 .z8 ⟨1, 18⟩)] = true := by decide +kernel

theorem test_decode_family4 : reads [
    (0b0_100_000000_0100_0000_00000_0001_10010, .rcpF32 4 ⟨1, 18⟩),
    (0b0_100_000001_0100_0000_00000_0001_10010, .rsqF32 4 ⟨1, 18⟩),
    (0b0_100_000010_0100_0000_00000_0001_10010, .sqrtF32 4 ⟨1, 18⟩),
    (0b0_100_000011_0100_0000_00000_0001_10010, .ex2F32 4 ⟨1, 18⟩),
    (0b0_100_000100_0100_0000_00000_0001_10010, .lg2F32 4 ⟨1, 18⟩),
    (0b0_100_000101_0100_0000_00000_0001_10010, .sinF32 4 ⟨1, 18⟩),
    (0b0_100_000110_0100_0000_00000_0001_10010, .cosF32 4 ⟨1, 18⟩),
    (0b0_100_001000_0100_0000_00000_0001_10010, .rcpF16 4 ⟨1, 18⟩),
    (0b0_100_001001_0100_0000_00000_0001_10010, .rsqF16 4 ⟨1, 18⟩),
    (0b0_100_001010_0100_0000_00000_0001_10010, .sqrtF16 4 ⟨1, 18⟩),
    (0b0_100_001011_0100_0000_00000_0001_10010, .ex2F16 4 ⟨1, 18⟩),
    (0b0_100_001100_0100_0000_00000_0001_10010, .lg2F16 4 ⟨1, 18⟩),
    (0b0_100_001101_0100_0000_00000_0001_10010, .sinF16 4 ⟨1, 18⟩),
    (0b0_100_001110_0100_0000_00000_0001_10010, .cosF16 4 ⟨1, 18⟩)] = true := by decide +kernel

theorem test_decode_family5 : reads [
    (0b0_101_000000_0100_0011_10100_0000_10010, .laneSelB32 4 ⟨3, 20⟩ 18),
    (0b0_101_000100_0100_0000_00000_0001_10010, .voteAny 4 ⟨1, 18⟩),
    (0b0_101_000101_0100_0000_00000_0001_10010, .voteAll 4 ⟨1, 18⟩),
    (0b0_101_000110_0100_0000_00000_0001_10010, .voteBal 4 ⟨1, 18⟩),
    (0b0_101_000111_0100_0000_00000_0001_10010, .voteUni 4 ⟨1, 18⟩),
    (0b0_101_001000_0100_0000_00000_0000_00000, .elect 4),
    (0b0_101_001100_0100_0000_00000_0000_01011, .sreg 4 11),
    (0b0_101_001101_0100_0011_10100_0001_10010, .msig 4 ⟨3, 20⟩ ⟨1, 18⟩),
    (0b0_101_001110_0000_0000_00000_0001_10010, .mark ⟨1, 18⟩)] = true := by decide +kernel

theorem test_decode_family6 : reads [
    (0b0_110_000000_0100_0000_10100_0001_10010, .rsvSet 4 20 ⟨1, 18⟩),
    (0b0_110_000001_0000_0000_00000_0001_10010, .rsvFree ⟨1, 18⟩),
    (0b0_110_000010_0100_0000_00000_0001_10010, .rsvGet 4 ⟨1, 18⟩),
    (0b0_110_000100_0000_0000_10100_0001_10010, .mxld .a 20 ⟨1, 18⟩),
    (0b0_110_001000_0000_0001_00000_0001_10010, .mmaBf16 .b ⟨1, 18⟩),
    (0b0_110_001001_0000_0000_00000_0001_10010, .mmaF16 .a ⟨1, 18⟩),
    (0b0_110_001010_0000_0001_00000_0001_10010, .mmaK .b ⟨1, 18⟩),
    (0b0_110_001011_0000_0000_10100_0001_10010, .mmaKOl .a 20 ⟨1, 18⟩),
    (0b0_110_001100_0000_0001_00000_0001_10010, .mmaBf16G .b ⟨1, 18⟩),
    (0b0_110_001101_0000_0000_00000_0001_10010, .mmaF16G .a ⟨1, 18⟩),
    (0b0_110_001110_0000_0001_00000_0001_10010, .mmaKG .b ⟨1, 18⟩),
    (0b0_110_001111_0000_0000_10100_0001_10010, .mmaKOlG .a 20 ⟨1, 18⟩),
    (0b0_110_010000_0000_0000_00000_0001_10010, .gangSet ⟨1, 18⟩),
    (0b0_110_010001_0100_0000_00000_0000_00000, .gangGet 4),
    (0b0_110_010100_0000_0000_00000_0001_10010, .accZero ⟨1, 18⟩),
    (0b0_110_010101_0000_0000_10100_0001_10010, .accLd .a 20 ⟨1, 18⟩),
    (0b0_110_010110_0000_0001_10100_0001_10010, .accSt .b 20 ⟨1, 18⟩),
    (0b0_110_010111_0100_0000_00000_0001_10010, .accRd 4 .a ⟨1, 18⟩),
    (0b0_110_011000_0000_0000_00000_0001_10010, .accFree ⟨1, 18⟩),
    (0b0_110_011100_0000_0000_10100_0001_10010, .groveVt .a 20 ⟨1, 18⟩),
    (0b0_110_011101_0000_0001_00000_0001_10010, .groveSwap .b ⟨1, 18⟩),
    (0b0_110_011110_0100_0000_00000_0001_10010, .groveRd 4 .a ⟨1, 18⟩)] = true := by decide +kernel

theorem test_decode_family7_1 : reads [
    (0b0_111_000001_0100_0101_10100_0001_10010, .atmAddZ32 .acq 4 .die .b 20 ⟨1, 18⟩),
    (0b0_111_000111_0100_0110_10100_0001_10010, .atmAddF32 .ar 4 .dev .a 20 ⟨1, 18⟩),
    (0b0_111_001001_0100_1001_10100_0001_10010, .atmMinS32 .acq 4 .sys .b 20 ⟨1, 18⟩),
    (0b0_111_001111_0100_0100_10100_0001_10010, .atmMaxS32 .ar 4 .die .a 20 ⟨1, 18⟩),
    (0b0_111_010001_0100_0111_10100_0001_10010, .atmMinZ32 .acq 4 .dev .b 20 ⟨1, 18⟩),
    (0b0_111_010111_0100_1000_10100_0001_10010, .atmMaxZ32 .ar 4 .sys .a 20 ⟨1, 18⟩),
    (0b0_111_011001_0100_0101_10100_0001_10010, .atmAndB32 .acq 4 .die .b 20 ⟨1, 18⟩),
    (0b0_111_011111_0100_0110_10100_0001_10010, .atmOrB32 .ar 4 .dev .a 20 ⟨1, 18⟩),
    (0b0_111_100001_0100_1001_10100_0001_10010, .atmXorB32 .acq 4 .sys .b 20 ⟨1, 18⟩),
    (0b0_111_100111_0100_0100_10100_0001_10010, .atmExchB32 .ar 4 .die .a 20 ⟨1, 18⟩),
    (0b0_111_101001_0100_0111_10100_0001_10010, .atmCasB32 .acq 4 .dev .b 20 ⟨1, 18⟩),
    (0b0_111_101100_0100_1000_00000_0001_10010, .ldAcqB32 4 .sys .a ⟨1, 18⟩),
    (0b0_111_101101_0100_0101_00000_0001_10010, .ldAcqB64 4 .die .b ⟨1, 18⟩),
    (0b0_111_101110_0000_0110_10100_0001_10010, .stRelB32 .dev .a 20 ⟨1, 18⟩),
    (0b0_111_101111_0000_1001_10100_0001_10010, .stRelB64 .sys .b 20 ⟨1, 18⟩),
    (0b0_111_110000_0100_0100_10100_0001_10010, .monWaitEq 4 .die .a 20 ⟨1, 18⟩),
    (0b0_111_110001_0100_0111_10100_0001_10010, .monWaitNe 4 .dev .b 20 ⟨1, 18⟩),
    (0b0_111_110010_0100_1000_10100_0001_10010, .monWaitGez 4 .sys .a 20 ⟨1, 18⟩),
    (0b0_111_110011_0100_0001_10100_0001_10010, .arriveInit 4 .b 20 ⟨1, 18⟩),
    (0b0_111_110100_0100_0000_10100_0001_10010, .arriveAdd 4 .a 20 ⟨1, 18⟩),
    (0b0_111_110101_0100_1001_10100_0001_10010, .arriveWait 4 .sys .b 20 ⟨1, 18⟩),
    (0b0_111_110110_0000_0100_00000_0000_00000, .fence .die),
    (0b0_111_110111_0000_0100_00011_0000_00001, .fenceX .die .grove .copy),
    (0b0_111_111000_0100_0000_10100_0001_10010, .hint 4 .a 20 ⟨1, 18⟩)] = true := by decide +kernel

theorem test_decode_family7_2 : reads [
    (0b0_111_111001_0100_0001_10100_0001_10010, .pgset 4 .b 20 ⟨1, 18⟩)] = true := by decide +kernel

theorem test_decode_formatF : reads [
    (0b10_000_0100_10110_0011_10100_0001_10010, .fmaF32 4 22 ⟨3, 20⟩ ⟨1, 18⟩),
    (0b10_001_0100_10110_0011_10100_0001_10010, .fmsF32 4 22 ⟨3, 20⟩ ⟨1, 18⟩),
    (0b10_010_0100_10110_0011_10100_0001_10010, .fmaF16 4 22 ⟨3, 20⟩ ⟨1, 18⟩),
    (0b10_011_0100_10110_0011_10100_0001_10010, .fmaBf16x2 4 22 ⟨3, 20⟩ ⟨1, 18⟩),
    (0b10_100_0100_10110_0011_10100_0001_10010, .fmaF16x2 4 22 ⟨3, 20⟩ ⟨1, 18⟩),
    (0b10_101_0100_10110_0011_10100_0001_10010, .imadS32 4 22 ⟨3, 20⟩ ⟨1, 18⟩),
    (0b10_110_0100_10110_0011_10100_0001_10010, .imadZ32 4 22 ⟨3, 20⟩ ⟨1, 18⟩),
    (0b10_111_0100_10110_0011_10100_0001_10010, .shladd 4 22 ⟨3, 20⟩ ⟨1, 18⟩)] = true := by decide +kernel

theorem test_decode_formatI : reads [
    (0b110_00000_0100_10010101101_0001_10010, .addS32Imm 4 0x4AD ⟨1, 18⟩),
    (0b110_00001_0100_10010101101_0001_10010, .addS32SatImm 4 0x4AD ⟨1, 18⟩),
    (0b110_00010_0100_10010101101_0001_10010, .mulS32Imm 4 0x4AD ⟨1, 18⟩),
    (0b110_00011_0100_10010101101_0001_10010, .andB32Imm 4 0x4AD ⟨1, 18⟩),
    (0b110_00100_0100_10010101101_0001_10010, .orB32Imm 4 0x4AD ⟨1, 18⟩),
    (0b110_00101_0100_10010101101_0001_10010, .xorB32Imm 4 0x4AD ⟨1, 18⟩),
    (0b110_00110_0100_10010101101_0001_10010, .shlB32Imm 4 0x4AD ⟨1, 18⟩),
    (0b110_00111_0100_10010101101_0001_10010, .shrZ32Imm 4 0x4AD ⟨1, 18⟩),
    (0b110_01000_0100_10010101101_0001_10010, .shrS32Imm 4 0x4AD ⟨1, 18⟩),
    (0b110_01001_0100_10010101101_0001_10010, .minS32Imm 4 0x4AD ⟨1, 18⟩),
    (0b110_01010_0100_10010101101_0001_10010, .maxS32Imm 4 0x4AD ⟨1, 18⟩),
    (0b110_01011_0100_10010101101_0000_00000, .movB32Imm 4 0x4AD),
    (0b110_01100_0100_10010101101_0000_00000, .adr 4 0x4AD),
    (0b110_10000_0100_10010101101_0001_10010, .isetEqB32Imm 4 0x4AD ⟨1, 18⟩),
    (0b110_10001_0100_10010101101_0001_10010, .isetNeB32Imm 4 0x4AD ⟨1, 18⟩),
    (0b110_10010_0100_10010101101_0001_10010, .isetLtS32Imm 4 0x4AD ⟨1, 18⟩),
    (0b110_10011_0100_10010101101_0001_10010, .isetLeS32Imm 4 0x4AD ⟨1, 18⟩),
    (0b110_10100_0100_10010101101_0001_10010, .isetGtS32Imm 4 0x4AD ⟨1, 18⟩),
    (0b110_10101_0100_10010101101_0001_10010, .isetGeS32Imm 4 0x4AD ⟨1, 18⟩),
    (0b110_10110_0100_10010101101_0001_10010, .isetLtZ32Imm 4 0x4AD ⟨1, 18⟩),
    (0b110_10111_0100_10010101101_0001_10010, .isetLeZ32Imm 4 0x4AD ⟨1, 18⟩),
    (0b110_11000_0100_10010101101_0001_10010, .isetGtZ32Imm 4 0x4AD ⟨1, 18⟩),
    (0b110_11001_0100_10010101101_0001_10010, .isetGeZ32Imm 4 0x4AD ⟨1, 18⟩)] = true := by decide +kernel

theorem test_decode_formatM_1 : reads [
    (0b1110_00000_0100_0_0001_10010_101010110, .ldS8 4 .a ⟨1, 18⟩ 0x156),
    (0b1110_00001_0100_1_0001_10010_101010110, .ldZ8 4 .b ⟨1, 18⟩ 0x156),
    (0b1110_00010_0100_0_0001_10010_101010110, .ldS16 4 .a ⟨1, 18⟩ 0x156),
    (0b1110_00011_0100_1_0001_10010_101010110, .ldZ16 4 .b ⟨1, 18⟩ 0x156),
    (0b1110_00100_0100_0_0001_10010_101010110, .ldB32 4 .a ⟨1, 18⟩ 0x156),
    (0b1110_00101_0100_1_0001_10010_101010110, .ldB64 4 .b ⟨1, 18⟩ 0x156),
    (0b1110_00110_0100_0_0001_10010_101010110, .ldB128 4 .a ⟨1, 18⟩ 0x156),
    (0b1110_00111_0100_1_0001_10010_101010110, .stB8 4 .b ⟨1, 18⟩ 0x156),
    (0b1110_01000_0100_0_0001_10010_101010110, .stB16 4 .a ⟨1, 18⟩ 0x156),
    (0b1110_01001_0100_1_0001_10010_101010110, .stB32 4 .b ⟨1, 18⟩ 0x156),
    (0b1110_01010_0100_0_0001_10010_101010110, .stB64 4 .a ⟨1, 18⟩ 0x156),
    (0b1110_01011_0100_1_0001_10010_101010110, .stB128 4 .b ⟨1, 18⟩ 0x156),
    (0b1110_01100_0100_0_0001_10010_101010110, .ldsB32 4 .a ⟨1, 18⟩ 0x156),
    (0b1110_01101_0100_1_0001_10010_101010110, .ldsB64 4 .b ⟨1, 18⟩ 0x156),
    (0b1110_01110_0100_0_0001_10010_101010110, .ldsB128 4 .a ⟨1, 18⟩ 0x156),
    (0b1110_01111_0100_1_0001_10010_101010110, .stsB32 4 .b ⟨1, 18⟩ 0x156),
    (0b1110_10000_0100_0_0001_10010_101010110, .stsB64 4 .a ⟨1, 18⟩ 0x156),
    (0b1110_10001_0100_1_0001_10010_101010110, .stsB128 4 .b ⟨1, 18⟩ 0x156),
    (0b1110_10010_0100_0_0001_10010_101010110, .ldrB32 4 .a ⟨1, 18⟩ 0x156),
    (0b1110_10011_0100_1_0001_10010_101010110, .ldrB64 4 .b ⟨1, 18⟩ 0x156),
    (0b1110_10100_0100_0_0001_10010_101010110, .strB32 4 .a ⟨1, 18⟩ 0x156),
    (0b1110_10101_0100_1_0001_10010_101010110, .strB64 4 .b ⟨1, 18⟩ 0x156),
    (0b1110_10110_0100_0_0001_10010_101010110, .ldhB32 4 .a ⟨1, 18⟩ 0x156),
    (0b1110_10111_0100_1_0001_10010_101010110, .ldhB64 4 .b ⟨1, 18⟩ 0x156)] = true := by decide +kernel

theorem test_decode_formatM_2 : reads [
    (0b1110_11000_0100_0_0001_10010_101010110, .sthB32 4 .a ⟨1, 18⟩ 0x156),
    (0b1110_11001_0100_1_0001_10010_101010110, .sthB64 4 .b ⟨1, 18⟩ 0x156),
    (0b1110_11010_0100_0_0001_10010_101010110, .gatherB32 4 .a ⟨1, 18⟩ 0x156),
    (0b1110_11011_0100_1_0001_10010_101010110, .xfer 4 .b ⟨1, 18⟩ 0x156),
    (0b1110_11100_0100_0_0001_10010_101010110, .coll 4 .a ⟨1, 18⟩ 0x156),
    (0b1110_11101_0100_1_0001_10010_101010110, .launch 4 .b ⟨1, 18⟩ 0x156),
    (0b1110_11110_0100_0_0001_10010_101010110, .groveRow 4 .a ⟨1, 18⟩ 0x156)] = true := by decide +kernel

theorem test_decode_formatB : reads [
    (0b1111_0000_111111110000000000000101, .bra 0xFF0005),
    (0b1111_0001_111111110000000000000101, .brz 0xFF0005),
    (0b1111_0010_111111110000000000000101, .brnz 0xFF0005),
    (0b1111_0011_111111110000000000000101, .call 0xFF0005),
    (0b1111_0100_000000000000000000000000, .ret),
    (0b1111_0101_000000000000000000000000, .endThread),
    (0b1111_0110_111111110000000000000101, .trap 0xFF0005),
    (0b1111_0111_111111110000000000000101, .syscall 0xFF0005),
    (0b1111_1000_111111110000000000000101, .brk 0xFF0005),
    (0b1111_1001_111111110000000000000101, .const 0xFF0005),
    (0b1111_1010_111111110000000000000101, .consthi 0xFF0005)] = true := by decide +kernel

/-- The manual's worked words (R161's example and the add7 kernel). -/
theorem test_decode_worked_words : reads [
    (0xE2282200, .ldB32 5 .a ⟨0, 17⟩ 0), (0xC0100E15, .addS32Imm 1 7 ⟨0, 21⟩), (0xE4882400, .stB32 1 .a ⟨0, 18⟩ 0),
    (0xF5000000, .endThread), (0x708DEC14, .atmAddZ32 .rel 3 .dev .b 22 ⟨0, 20⟩)] = true := by decide +kernel

/-- The fates of R161's table. -/
theorem test_illegal_words :
    decodeIn 0 false 0x0FC00000 = .error .unassigned ∧ decodeIn 5 true 0xFB000000 = .error .unassigned ∧
    decodeIn 0 true 0xF5000001 = .error .reserved ∧ decodeIn 2 false 0x7D828000 = .error .reserved ∧
    decodeIn 0 false 0x000021C1 = .error .operand := by decide +kernel

/-- R136: the add7 kernel's END ends a class 2 clause, and may not stand earlier; a load has no place in a class 2 clause. -/
theorem test_class_of_words :
    decodeIn 2 true 0xF5000000 = .ok .endThread ∧ decodeIn 2 false 0xF5000000 = .error .wrongClass ∧
    decodeIn 2 false 0xE2282200 = .error .wrongClass := by decide +kernel

/-- R135: the add7 kernel's headers, the two illegal ones of R161's table, and SETA and SETB of one flag. -/
theorem test_headers :
    (Header.ofWord 0xA7880011).legal = true ∧ (Header.ofWord 0xA7F80101).legal = true ∧
    (Header.ofWord 0xA7900022).legal = true ∧ (Header.ofWord 0xA7F80000).legal = false ∧
    (Header.ofWord 0xC0100E15).legal = false ∧ (Header.ofWord 0xA0880011).legal = false ∧
    (Header.ofWord 0xA7880061).legal = false ∧ (Header.ofWord 0xA7E00011).legal = false := by decide +kernel

/-- One ill-formed term for each check of WellFormed (R111, R144, R145, R154). -/
theorem test_ill_formed :
    [Instr.absS32 1 ⟨14, 0⟩, .addS32 1 ⟨15, 0⟩ ⟨0, 0⟩, .addS32 1 ⟨0, 0⟩ ⟨14, 0⟩, .ldB32 1 .a ⟨14, 0⟩ 0,
      .shlB64 4 ⟨0, 0⟩ ⟨0, 17⟩, .ldB64 3 .a ⟨0, 0⟩ 0, .stB64 0 .a ⟨0, 0⟩ 0, .stB64 5 .a ⟨0, 0⟩ 0,
      .stRelB64 .dev .a 16 ⟨0, 0⟩, .mxld .a 0 ⟨0, 16⟩, .addB64 4 ⟨0, 15⟩ ⟨0, 0⟩, .addB64 3 ⟨0, 0⟩ ⟨0, 0⟩, .mulwS32 1 ⟨0, 0⟩ ⟨0, 0⟩,
      .ldB128 2 .a ⟨0, 0⟩ 0, .stB128 0 .a ⟨0, 0⟩ 0, .stB128 6 .a ⟨0, 0⟩ 0, .rsvGet 7 ⟨0, 0⟩, .rsvSet 0 17 ⟨0, 0⟩, .ldhB32 1 .a ⟨0, 15⟩ 0,
      .sthB64 2 .a ⟨0, 19⟩ 0, .ldhB64 1 .a ⟨0, 0⟩ 0, .sreg 1 12].all (fun i => !i.wellFormed) = true := by decide +kernel

/-- The boundary values that are allowed. -/
theorem test_well_formed :
    [Instr.absS32 1 ⟨13, 31⟩, .shlB64 0 ⟨0, 31⟩ ⟨0, 14⟩, .ldB64 14 .a ⟨0, 31⟩ 0, .stB64 14 .a ⟨0, 0⟩ 0, .stRelB64 .dev .a 30 ⟨0, 0⟩,
      .ldB128 12 .a ⟨0, 0⟩ 0, .stB128 12 .a ⟨0, 0⟩ 0, .sreg 1 11].all (fun i => i.wellFormed) = true := by decide +kernel

/-! ## States for the witnesses -/

/-- After reset, with a word placed at core 0, lane frame 63, lane 0. -/
def placed : State := State.reset.withFetchWord 32 0

/-- A test of the issuing bundle. -/
def bundle (s : State) (p : Iss → Bool) : Bool := match issuing s with | some u => p u | none => false

/-- The registers of lane 0 in the placed state: n1 and n2 set. -/
def withRegs (s : State) (n1 n2 : Word) : State :=
  modLF s 0 63 (fun f => modThread f 0 (fun t => { t with n := (t.n.set 1 n1).set 2 n2 }))

/-- A context running on the placed word's core: a slice, its one workgroup with a scratchpad of one frame, and its launch. -/
def demo : State :=
  { placed with
    slice := some ⟨⟨0, 0, 0, 0, 0, 0, 0⟩, 1000000, none, false, none⟩
    wgs := [⟨0, 0, 0, 0, 0, 0, [63], 1, [0], [], true, 0, 0, [], 0, 0, 0⟩]
    launches := [⟨0, 0, 0, 0, 0, 1, 1, 1, 1, 1, 1, 1, 0, 0, 0, List.replicate 6 0, 64, [], none, 1, 0, false, false, false, []⟩]
    dieState := List.replicate 16 4 }

/-- The same with a translation of page 0 in core 0's store: an HBM page, with the given W, M, kind and ordering. -/
def paged (ent : DWord) : State :=
  modCore demo 0 (fun k => { k with tstore := [⟨0, 0, ent, 0⟩] })

/-- The page's entry: kind 2, ordering 1, W = 1. -/
def good : DWord := 0x16

def answers (o : Outcome) : Bool := match o with | .next _ => true | _ => false
def found (x : Found × State) : Bool := match x.1 with | .ok _ _ => true | _ => false
def trapped (x : Found × State) (k : Nat) : Bool := match x.1 with | .trap j _ => decide (j = k) | _ => false

/-! ## Chapters 08 and 09 -/

/-- The hypotheses of Delivers for a form. -/
def canDeliver (v : Value) : Bool :=
  bundle placed (fun u => !writeHeld u (regsOf v.dst.toNat v.words) && (eachLane u (v.lane u)).isSome)

/-- IntegerArithmetic, LogicShiftsAndWideForms, CompareSelectAndImmediates, ThreeSourceForms, FloatForms and
TranscendentalForms: each shape of operands can be read. -/
theorem witness_Delivers :
    [src1 4 1 ⟨0, 1⟩ (fun x => x), src2 4 15 ⟨0, 17⟩ ⟨13, 31⟩ (fun x _ => x), srcI 4 0 0x400 ⟨0, 0⟩ (fun x _ => x),
      src3 8 4 31 ⟨0, 0⟩ ⟨0, 17⟩ (fun x _ _ => x), Spec.src64 4 14 ⟨0, 18⟩ ⟨0, 14⟩ (fun x _ => x), srcBy 4 2 ⟨0, 0⟩ ⟨0, 30⟩ (fun x _ => x),
      srcWide 8 2 ⟨0, 0⟩ ⟨0, 16⟩ (fun _ _ => 0), fromBundle 4 0 (fun _ _ => 0),
      ⟨4, 1, 1, fun u i => (readAge (thread u.f i) 0).map (fun q => [q])⟩].all canDeliver = true := by decide +kernel

/-- LaneMessageAndSpecialWords: LANE.SEL, the votes and ELECT; SREG; MSIG on both sides of channel 32 and of 16 messages; MARK. -/
theorem witness_LaneMessageAndSpecialWords :
    (canDeliver ⟨6, 1, 1, fun u i =>
        (read32 u ⟨0, 17⟩ i).bind (fun y => (readFrom u.f (y.toNat % 32) 18).map (fun v => [v]))⟩ &&
      canDeliver (ofVote 1 ⟨0, 17⟩ (fun _ => 1)) && canDeliver (fromBundle 4 1 (fun _ _ => 1)) &&
      bundle demo (fun u => !writeHeld u (regsOf 1 1) && (workgroup demo u.f.wg).isSome && (launchOf demo u.f.wg).isSome) &&
      demo.slice.isSome &&
      [(0, 0), (31, 16), (32, 0)].all (fun e =>
        let s := modMast (withRegs demo (BitVec.ofNat 32 e.1) 7) 0 (fun m => { m with msgs := List.replicate e.2 ⟨0, 0, 0, 0, 0⟩ })
        bundle s (fun u => decide (read32 u ⟨0, 17⟩ (lowest u.cl.lanes) = some (BitVec.ofNat 32 e.1)) &&
          decide (read32 u ⟨0, 18⟩ (lowest u.cl.lanes) = some 7) && !writeHeld u (regsOf 1 1) &&
          released s u.c u.l u.cl.lanes s.ops .dev) && decide ((Machine.mast s 0).msgs.length = e.2)) &&
      bundle placed (fun u => (eachLane u (read32 u ⟨0, 17⟩)).isSome)) = true := by decide +kernel

/-- RoundingChoosesTheRepresentableValue: 1/3 in each mode and format has a finite result. -/
theorem witness_RoundingChoosesTheRepresentableValue :
    [fp32, fp16, bf16].all (fun f => [Rnd.rn, .rz, .rd, .ru].all (fun m => (realOf f (roundRat f m true 1 3 0)).isSome)) = true := by
  decide +kernel

/-! ## Chapter 10 -/

/-- Every step of an address phase for lane 0's n1, in a state, found or trapped with a kind (0: found). -/
def phase (s : State) (r : Reach) (align w kind : Nat) (write : Bool) (k : Nat) : Bool :=
  bundle s (fun u =>
    let x := findPlaces s u r align w kind write (based ⟨0, 17⟩ 0 u)
    if k = 0 then found x else trapped x k)

/-- Every hypothesis of Loads, Stores and Atomics on the bundle alone, for a destination and a width. -/
def unheld (s : State) (reg slots : Nat) : Bool :=
  bundle s (fun u => !writeHeld u (regsOf reg slots) && !acquiring s u && decide (u.f.rows.length < 4) && queueRoom s u.c 8)

/-- LoadAndStoreWords, AtomicWords, MonitorAndFenceWords' waits: the address phase finds the place of a page of HBM, of the own
scratchpad and of the cluster's, at both ends of each window, and each trap is taken on some address; the data can be read. -/
theorem witness_memory_words :
    (unheld (paged good) 4 4 && unheld (paged good) 0 1 &&
      [(0, 1), (0xFF0, 16), (0xFFC, 4)].all (fun e => phase (withRegs (paged good) (BitVec.ofNat 32 e.1) 0) .region 1 e.2 0 false 0 &&
        phase (withRegs (paged good) (BitVec.ofNat 32 e.1) 0) .region 1 e.2 1 true 0) &&
      [(0, 0), (0xFF0, 0), (0x1000, 5), (3, 4)].all (fun e => phase (withRegs demo (BitVec.ofNat 32 e.1) 0) .own 4 4 0 false e.2) &&
      [(0xFE000000, 0), (0xFE000FFC, 0), (0xFE001000, 5), (0xFE200000, 5), (0xFE000002, 4)].all (fun e =>
        phase (withRegs demo (BitVec.ofNat 32 e.1) 0) .cluster 4 4 1 true e.2) &&
      [(0xFE000000, 0), (0, 0), (1, 4)].all (fun e =>
        phase (withRegs (paged good) (BitVec.ofNat 32 e.1) 0) .either 4 4 1 true e.2) &&
      phase (withRegs demo 0xFE000000 0) .arrive 16 16 1 true 0 && phase (withRegs demo 0xFE000008 0) .arrive 16 16 1 true 4 &&
      phase (withRegs (paged 0x06) 0 0) .region 1 4 1 true 7 && phase (withRegs (paged 0x1E) 0 0) .region 1 4 0 false 6 &&
      bundle demo (fun u => (eachLane u (low 4 1 u)).isSome && (eachLane u (regBytes 4 12 u)).isSome &&
        (eachLane u (oneWord 16 u)).isSome && (eachLane u (twoWords 30 u)).isSome)) = true := by decide +kernel

/-- AddressPhase: each row of R211 on one page, with the translation in the store: ordering 3, M, W, kind 3, and a place; and a
table that cannot be read. Places: both sides of the scratchpad's end and of the cluster window. -/
theorem witness_AddressPhase :
    ((List.all [(0x1E, 6), (0x56, 7), (0x06, 7), (0x46, 7)] (fun e =>
        phase (withRegs (paged (BitVec.ofNat 64 e.1)) 0 0) .region 1 4 1 true e.2)) &&
      (match (checkPages (paged 0x17) 0 0 [(0, .virt 0 0xFFC)] 4 0 false).1 with | .cap p => decide (p = 0) | _ => false) &&
      found (checkPages (paged 0x16) 0 0 [(0, .virt 0 0xFFC)] 4 1 true) &&
      (match (fetchTrans demo 0 0 0).1 with | .error k => decide (k = 24) | _ => false) &&
      bundle demo (fun u => decide (placeOf demo u .own 0xFFF ≠ none) && decide (placeOf demo u .own 0x1000 = none) &&
        decide (placeOf demo u .cluster 0xFDFFFFFF = none) && decide (placeOf demo u .cluster 0xFE000FFF ≠ none) &&
        (workgroup demo u.f.wg).isSome && (launchOf demo u.f.wg).isSome)) = true := by decide +kernel

/-- A core that holds a host translation of page 0. -/
def hosted (write : Bool) : State := modCore demo 0 (fun k => { k with hstore := [⟨0, 0, 7, write⟩] })

/-- HostPointerWords: a translation held, one that does not allow the write, and none. -/
theorem witness_HostPointerWords :
    bundle (hosted true) (fun u =>
      let a := eachLane u (hostBased ⟨0, 18⟩ 0 u)
      a.isSome && decide (hostMiss (hosted true) 0 (a.getD []) 8 true = none) && decide (hostMiss (hosted false) 0 (a.getD []) 8 true = some 0) &&
      decide (hostMiss (hosted false) 0 (a.getD []) 8 false = none) && decide (hostMiss demo 0 (a.getD []) 8 false = some 0) &&
      (eachLane u (low 4 0 u)).isSome && (eachLane u (regBytes 2 14 u)).isSome && !acquiring (hosted true) u &&
      !undoOn (hosted true)) = true := by decide +kernel

/-- HBM with page tables at pages 0 to 3 whose entry for page 0 of a context with root 0 is `leaf`, under a valid key. -/
def mapped (s : State) (leaf : Nat) : State :=
  { s with
    keySlots := [(0, List.replicate 64 0)]
    mem := Mem.write (Mem.write (Mem.write (Mem.write s.mem 0 (leBytes 8 0x1001)) 0x1000 (leBytes 8 0x2001)) 0x2000 (leBytes 8 0x3001))
      0x3000 (leBytes 8 leaf) }

/-- MonitorAndFenceWords: every lane's word can be read at its home, in scratchpad and in HBM (hint 3: no fill); GEN's range at both ends. -/
theorem witness_MonitorAndFenceWords :
    ([withRegs demo 0xFE000000 0, withRegs (mapped demo 0x500316) 0 0].all (fun s => bundle s (fun u =>
        let x := findPlaces s u .either 4 4 0 false (direct ⟨0, 17⟩ u)
        (match x with
          | (.ok addrs ents, s1) => (match strongAll s1 u 4 ents addrs with | (.ok _, _) => true | _ => false)
          | _ => false))) &&
      bundle (withRegs demo 0xFE000010 0) (fun u => found (findPlaces (withRegs demo 0xFE000010 0) u .arrive 16 16 0 false (direct ⟨0, 17⟩ u)))) = true ∧
    condHolds .gen 0 0xFFFF = true ∧ condHolds .gen 32767 0 = true ∧ condHolds .gen 32768 0 = false ∧ condHolds .gen 5 5 = false ∧
    condHolds .gez 0x7FFFFFFF 0 = true ∧ condHolds .gez 0x80000000 0 = false := by decide +kernel

/-- PageAttributeWords: a control word that HINT refuses, a page with M = 1, one that is absent and one that may be changed. -/
theorem witness_PageAttributeWords :
    attrFault (mapped demo 0x56) 0 (attrPages 0 1) = some (7, 0) ∧ attrFault (mapped demo 0x16) 0 (attrPages 0 1) = none ∧
    attrFault (mapped demo 0) 0 (attrPages 0 512) = none ∧ attrFault demo 0 (attrPages 0 1) = some (24, 0) ∧
    badControl true 6 = true ∧ badControl true 5 = false ∧ badControl false 1 = true ∧ badControl false 0x3A = false ∧
    badControl false 12 = true ∧
    bundle demo (fun u => !writeHeld u (regsOf 1 1) && !acquiring demo u && (eachLane u (oneWord 17 u)).isSome &&
      (eachLane u (twoWords 18 u)).isSome && (eachLane u (read32 u ⟨0, 17⟩)).isSome) = true := by decide +kernel

/-! ## Chapters 11 and 12: words -/

/-- The operands of lane 0 for the engine words: n1 the word, n2 and n3 a 64-bit operand. -/
def operands (s : State) (x : Nat) (y : Nat) : State :=
  modLF s 0 63 (fun f => modThread f 0 (fun t =>
    { t with n := ((t.n.set 1 (BitVec.ofNat 32 x)).set 2 (BitVec.ofNat 32 y)).set 3 (BitVec.ofNat 32 (y / 2 ^ 32)) }))

/-- A live record 0 of workgroup 0 with a format, block bits, rows and columns. -/
def record0 (fmt nbits rows cols : Nat) : Rsv :=
  ⟨BitVec.ofNat 128 (1 + fmt * 2 ^ 8 + nbits * 2 ^ 16 + (cols - 1) * 2 ^ 32 + (rows - 1) * 2 ^ 48), 0⟩

/-- The demo with records 0 and 1. -/
def reserved2 (a b : Rsv) : State := modCore demo 0 (fun k => modC k (fun y => { y with recs := [(0, a), (1, b)] }))

/-- The demo with a tile and a Grove table 3 of another workgroup. -/
def foreign : State :=
  modCore { demo with tiles := [(3, ⟨9, 0⟩)] } 0 (fun k => modC k (fun y => { y with grove := [(3, ⟨9, false, 0, 0⟩)] }))

/-- ReservationWords: a free record, a reserved image and a cause; a live record, one that is not, and a number that is none. -/
theorem witness_ReservationWords :
    (rsvBad 0 0 = false ∧ rsvBad 1 0 = true ∧ rsvCause demo 0 0 (recView (rsvBits 0 0)) = none ∧
      rsvCause demo 0 0 (recView (rsvBits 0 1)) = some 2 ∧ lookup (Machine.core demo 0).c.recs 0 = none) ∧
    [(0, true), (31, false), (32, false)].all (fun e =>
      bundle (operands (reserved2 (record0 0 0 1 1) (record0 0 0 1 1)) e.1 16) (fun u =>
        decide (read32 u ⟨0, 17⟩ (lowest u.cl.lanes) = some (BitVec.ofNat 32 e.1)) &&
        decide (read64 u ⟨0, 18⟩ (lowest u.cl.lanes) = some 16) && decide (readSC u 17 (lowest u.cl.lanes) = some (BitVec.ofNat 32 e.1)) &&
        decide ((ownRec (reserved2 (record0 0 0 1 1) (record0 0 0 1 1)) u.c u.f.wg e.1).isSome = e.2) &&
        mqRoom (reserved2 (record0 0 0 1 1) (record0 0 0 1 1)) u.c && !writeHeld u (regsOf 2 2) && (readSC64 u 18 0).isSome)) = true := by
  decide +kernel

/-- AccumulatorWords: a tile of the workgroup's own or no one's, another workgroup's, and a number above 63; addresses. -/
theorem witness_AccumulatorWords :
    tileOther foreign 0 0 3 = true ∧ tileOther foreign 0 0 63 = false ∧
    [(63, 128), (64, 127), (3, 0), (0x1FF, 0)].all (fun e => bundle (operands foreign e.1 e.2) (fun u =>
      decide (readSC u 17 (lowest u.cl.lanes) = some (BitVec.ofNat 32 e.1)) && decide (read64 u ⟨0, 18⟩ (lowest u.cl.lanes) = some (BitVec.ofNat 64 e.2)) &&
      (eachLane u (read32 u ⟨0, 17⟩)).isSome && !writeHeld u (regsOf 1 1) && mqRoom foreign 0)) = true := by decide +kernel

/-- ProductWords: every check of R245 in its order, on records that fail it and no earlier one, and a product that passes. -/
theorem witness_ProductWords :
    bundle demo (fun u =>
      [(MmaForm.bf16, record0 0 0 64 8, record0 0 0 32 8, 0x20, none), (.bf16, record0 1 0 64 8, record0 0 0 32 8, 0x20, some (10, 7)),
        (.k, record0 2 1 1 32, record0 2 1 1 32, 0x20, none), (.bf16, record0 0 0 64 8, record0 0 0 32 9, 0x20, some (10, 9)),
        (.bf16, record0 0 0 65 8, record0 0 0 32 8, 0x20, some (10, 10)), (.f16, record0 1 0 64 8, record0 1 0 33 8, 0x20, some (10, 11)),
        (.bf16, record0 0 0 1 1, record0 0 0 1 1, 0x02, some (10, 6)), (.kOl, record0 2 1 1 32, record0 2 1 1 32, 0x20, none)].all
        (fun (m, a, b, o, r) => decide (mmaCheck (reserved2 a b) u m (BitVec.ofNat 32 o) 0 false =
          r.map (fun (e : Nat × Nat) => (e.1, o + e.2 * 2 ^ 32)))) &&
      decide (mmaCheck { demo with caps := 0 } u .k 0x20 0 false = some (9, 1)) &&
      decide (mmaCheck { demo with caps := 2 } u .kOl 0x20 0 false = some (9, 0)) &&
      decide ((mmaCheck demo u .k 0x20000 0 false).map (fun e => e.1) = some 3) &&
      (let s : State := { reserved2 (record0 0 0 1 1) (record0 0 0 1 1) with tiles := [(3, ⟨9, 0⟩)] }
       decide (mmaCheck s u .bf16 0xC20 0 false = some (11, 0xC20 + 2 ^ 32))) &&
      (mmaOperands u ⟨0, 17⟩ none).isSome && (mmaOperands u ⟨0, 17⟩ (some 18)).isSome && mqRoom demo u.c && !planeOff demo u.c .kOl) = true ∧
    bundle demo (fun u => decide (mmaCheck (reserved2 (record0 0 0 1 1) (record0 0 0 1 1)) u .bf16 0 0 true = none)) = true ∧
    (workgroup demo 0).map (fun w => w.gang) = some 0 := by decide +kernel

/-- ProductWords' joint forms: a workgroup with a gang of ranks 0 and 1; GangAndGroveWords: values that are refused, with a cause,
and taken; a control word and binding that pass and one that does not; tables and rows. -/
theorem witness_GangAndGroveWords :
    ((workgroup { demo with wgs := demo.wgs.map (fun w => { w with gang := 0x02000010 }) } 0).map (fun w => w.gang.toNat / 2 ^ 24 % 8) = some 2 ∧
      gangCause demo 0 0 = none ∧ gangCause demo 0 0x02000021 = some 1 ∧ gangCause demo 0 0x02000010 = some 2) ∧
    bundle demo (fun u => decide (groveVtCheck demo u 0 0x80000008 = none) && decide (groveVtCheck demo u 0 0x80000000 ≠ none) &&
      !jointOut demo u.c u.f.wg && !writeHeld u (regsOf 1 1) && (read32 u ⟨0, 17⟩ (lowest u.cl.lanes)).isSome &&
      (eachLane u (read32 u ⟨0, 17⟩)).isSome && (read64 u ⟨0, 18⟩ (lowest u.cl.lanes)).isSome && (readSC u 17 (lowest u.cl.lanes)).isSome) = true ∧
    groveOther foreign 0 0 3 = true ∧ groveOther foreign 0 0 7 = false := by decide +kernel

/-- The demo with a 64-byte record at scratchpad offset 0 and one in memory at address 0, under page tables and a valid key. -/
def withRecord (b : List Byte) (at_ : Nat) : State := { demo with mem := Mem.write demo.mem at_ b }

/-- The scratchpad's first byte. -/
def scratch0 : Nat := frameAt (nearKey 0 0)

/-- A shape of one element of one byte in scratchpad at 128, with a tile of 1. -/
def shapeBytes : List Byte := leBytes 8 (2 ^ 63 + 128) ++ leBytes 8 1 ++ leBytes 4 1 ++ List.replicate 32 0 ++ leBytes 2 1 ++ List.replicate 10 0

/-- EngineCommandWords: records at the ends of the scratchpad; a transfer and a collective that are well formed, and zeros that
are not; a launch record that is, and its dependences. -/
theorem witness_EngineCommandWords :
    (bundle demo (fun u => (read32 u ⟨0, 17⟩ (lowest u.cl.lanes)).isSome && !writeHeld u (regsOf 1 1) && !scratchPending demo u.c u.f.wg &&
      !acquiring demo u && originReady u && decide (engineE 0 0x100 = 0xFFFFC000) && decide (engineE 0xFC0 0 = 4032) && decide (scratchBytes demo u.f.wg = 4096) &&
      (match workgroup demo u.f.wg with
        | some w =>
          let x := withRecord (leBytes 4 64 ++ leBytes 4 64) scratch0
          let y : State := { x with mem := Mem.write x.mem (scratch0 + 64) shapeBytes }
          !scratchPoison y w 0 64 && (xferOf y w u (scratchBytesAt y w 0 64)).isSome && (xferOf demo w u (scratchBytesAt demo w 0 64)).isNone
        | none => false))) = true ∧
    (let s : State := { demo with
        groups := [(0, [BitVec.ofNat 64 (2 ^ 31 + 2), 0x2000, 0, 0])]
        mem := Mem.write demo.mem 0x2008 (leBytes 8 1) }
     let b : List Byte := List.replicate 24 0 ++ leBytes 4 1 ++ List.replicate 36 0
     (collOf s 0 b).isSome = true ∧ collOf demo 0 b = none) ∧
    (let b : List Byte := List.replicate 16 0 ++ leBytes 4 1 ++ leBytes 4 1 ++ leBytes 4 1 ++ leBytes 2 1 ++ leBytes 2 0x101 ++ List.replicate 32 0
     recordBad b = false ∧ recordDeps b = 0 ∧ recordBad (List.replicate 64 0) = true) ∧
    depBad (List.replicate 64 0) 3 = false := by decide +kernel

/-- LAUNCH's record can be read in memory, with no earlier access to wait for. -/
theorem witness_launch_record :
    (let s := mapped demo 0x500316
     bundle s (fun u => (match readRecord s u 0 64 with | (.ok _, _) => true | _ => false) && released s u.c u.l u.cl.lanes s.ops .dev)) = true := by
  decide +kernel

/-- ControlWords: every word's operands can be read, RET's target is aligned or not, and BRK is enabled or not. -/
theorem witness_ControlWords :
    [0, 4, 3].all (fun v => bundle (modLF demo 0 63 (fun f => modThread f 0 (fun t => { t with n := t.n.set 14 (BitVec.ofNat 32 v) })))
      (fun u => (eachLane u (fun i => readAge (thread u.f i) 0)).isSome && !writeHeld u [14] &&
        decide ((eachLane u (fun i => readNamed (thread u.f i) 14)).map (fun t => t.any (fun e => decide (e.2.toNat % 4 ≠ 0))) = some (v == 3)))) = true ∧
    brkEnabled demo = false ∧ brkEnabled { demo with dbgctl := 0x10000 } = true := by decide +kernel

/-! ## Steps (R136, R161) -/

/-- The placed word with a given word in place of the decoded one. -/
def stepOf (w : Nat) : Host.Outcome State Fault Refusal := step (State.reset.withFetchWord 32 w)

/-- StepRunsTheDecodedInstruction: the placed add is decoded and run; an agenda entry that is due comes first; with nothing due or
issuing the clock goes on. -/
theorem witness_StepRunsTheDecodedInstruction :
    (let s := State.reset.withFetchWord 32 0xC0100E15
     dueAgenda s (fun j => !windowDue s || isBoundary j) = none ∧ bundle s (fun u => decide (u.cl.words.getD (u.cl.pos - 1) (.word 0) = .word 0xC0100E15) &&
       decide (decodeIn u.hdr.cls (lastWord u) 0xC0100E15 = .ok (.addS32Imm 1 7 ⟨0, 21⟩))) = true) ∧
    (State.reset.agenda = [] ∧ dueAgenda State.reset (fun j => !windowDue State.reset || isBoundary j) = none ∧ issuing State.reset = none ∧
      windowDue State.reset = false ∧ selectWord { State.reset with swept := 1 } = none) := by decide +kernel

/-- The same: a window's boundary that is due and one that is not; entries of the agenda that come at once, that wait for the part's own
events, and that come from a host, in a core cycle with which a fabric cycle begins and in one with which none does. -/
theorem witness_agenda :
    (windowDue { demo with powered := true, cycle := 1024, lastWindow := 1 } = true ∧ windowDue demo = false ∧ isBoundary (.windowBoundary [] []) = true) ∧
    (fromLink .packageOverdraw = none ∧ readsSeal .packageOverdraw = false ∧ readsSeal (.readSealWord .pf 0) = true ∧
      fromLink (.hostMemRead 0 0 64 false) = some 0 ∧ fromLink (.hostMemRead 1 0 64 false) = some 1) ∧
    (fabricTick { demo with cycle := 2, swept := 3 } = true ∧ fabricTick { demo with cycle := 3 } = true ∧
      fabricTick { demo with cycle := 1 } = false) := by decide +kernel

/-- IllegalWordsTrap: a reserved field and an illegal operand in a placed word. -/
theorem witness_IllegalWordsTrap :
    [0xF5000001, 0x000021C1, 0x0FC00000].all (fun w =>
      let s := State.reset.withFetchWord 32 w
      decide (dueAgenda s (fun j => !windowDue s || isBoundary j) = none) && bundle s (fun u => match decodeIn u.hdr.cls (lastWord u) (BitVec.ofNat 32 w) with | .error _ => true | _ => false)) =
      true := by decide +kernel

/-- DecodeOfEncode and EncodeOfDecode: a well-formed instruction with a word, and a word that decodes. -/
theorem witness_DecodeOfEncode :
    Instr.wellFormed (.fmaF32 15 31 ⟨13, 31⟩ ⟨13, 31⟩) = true ∧ (encode (.fmaF32 15 31 ⟨13, 31⟩ ⟨13, 31⟩)).isSome = true ∧
    decodeWord 0xF5000000 = .ok .endThread := by decide +kernel

/-! ## Stops, results and frames -/

/-- StopEntry and ResumeEffect: no stop, a stop of an earlier cycle and one of this cycle, and a trapped bundle of a lane frame. -/
theorem witness_StopEntry :
    State.reset.stop = none ∧ (laneFrame placed 0 63).isSome = true ∧
    ((laneFrame placed 0 63).map (fun f => (1#32).getLsbD 0 && (lookup f.threads 0).isSome)) = some true ∧
    rank 16 0 0 0 < rank 16 0 1 0 ∧ rank 2 5 0 0 < rank 16 0 0 0 ∧ ¬ rank 16 0 0 0 < rank 16 0 0 0 := by decide +kernel

/-- A stop whose primary event is a core trap at cycle `n`. -/
def stopAt (n : Nat) : Stop := ⟨8, 0, 63, 0, n, false, false, false, [], []⟩

/-- R357: a trap and a debugger halt in one cycle: the trap is the primary whichever is raised first. -/
theorem test_primary_is_the_trap :
    (raise { State.reset with stop := some (stopAt 0) } ⟨16, 0, 0, 0, 0, 0, 0, none⟩).stop.map (fun p => (p.kind, p.dbg)) = some (8, true) ∧
    (raise (raise State.reset ⟨16, 0, 0, 0, 0, 0, 0, none⟩) ⟨8, 5, 0, 0, 0, 0, 0, none⟩).stop.map (fun p => (p.kind, p.core)) = some (8, 5) := by
  decide +kernel

/-- ValueIssueEffect, BundleGoesOn, RegisterWordFrame and MemoryIssueEffect: the placed bundle issues; its clause has one word, or,
after a header of two, one more; undo logging and single stepping are off. -/
theorem witness_frames :
    bundle demo (fun u => decide (laneFrame demo u.c u.l = some u.f) && lastWord u && !undoOn demo && !stepping demo &&
      decide (u.f.rows.length < 4) && queueRoom demo u.c 64 && !queueRoom demo u.c 65 && (lookup u.f.threads 0).isSome) = true ∧
    (let s := modLF demo 0 63 (fun f => { f with clause := f.clause.map (fun c => { c with hdr := 0xA7F80002, words := [.word 0, .word 0] }) })
     bundle s (fun u => !lastWord u && decide (laneFrame s u.c u.l = some u.f)) = true) ∧
    (∀ e ∈ [(0, (0x16 : DWord))], ¬(entKind e.2 = 1 ∧ promotes 0 e.2 = true)) := by decide +kernel

/-- ResultReachesQueueAndRegisters: no destination, and both ends of the named registers. -/
theorem witness_ResultReachesQueueAndRegisters :
    Thread.empty.q.length = 16 ∧ Thread.empty.n.length = 16 ∧ (12 : BitVec 4).toNat + 4 ≤ 16 ∧ (15 : BitVec 4).toNat + 1 ≤ 16 ∧
    (∀ j < 4, (∀ x ∈ Thread.empty.q, x.tok ≠ token 5 j) ∧ (∀ p ∈ Thread.empty.np, p.tok ≠ token 5 j) ∧
      lookup Thread.empty.winq (token 5 j) = none) := by decide +kernel

/-- ResultDelivery: before and at the cycle of a result. -/
theorem witness_ResultDelivery :
    [0, 1].all (fun n =>
      let s := modCore { placed with cycle := n } 0 (fun k => { k with deliveries := [⟨7, 63, 1, 2, 1, [(0, [5])]⟩] })
      ((Machine.core s 0).deliveries.find? (fun y => decide (y.op = 7))).isSome && (laneFrame s 0 63).isSome && decide (([(0, [(5 : Word)])].map (fun e => e.1)).Nodup)) = true := by
  decide +kernel

/-- StoreReachesItsHome and AtomicOperations: the first and the last byte of the frames' numbers. -/
theorem witness_StoreReachesItsHome :
    Config.frameBase ≤ Config.frameBase ∧ Config.frameBase < Config.opBufBase ∧ Config.opBufBase - 1 < Config.opBufBase ∧
    undoOn State.reset = false ∧ (([(0, 1), (4095, 2)] : List (Nat × Byte)).map (fun e => e.1)).Nodup ∧
    (∀ k < 16, encrypted (Config.frameBase + k) = false) ∧ (∀ k < 16, isGone (Config.frameBase + k) = false) := by decide +kernel

/-- MemoryStaysCanonical: the reset state has the invariant and steps. -/
theorem witness_MemoryStaysCanonical : Mem.wf State.reset.mem = true ∧ answers (step State.reset) = true := by decide +kernel

/-! ## Bundles, workgroups and placement -/

/-- A lane frame with two threads: lane 0 at clause 0x20 and older, lane 31 at clause 0x10. -/
def twoThreads (aging : Nat) : LaneFrame :=
  ⟨0, 0, [(0, { Thread.empty with pc := pcImage 0 0x20, live := true, occupied := true }),
      (31, { Thread.empty with pc := pcImage 0 0x10, live := true, occupied := true, stamp := 3 })], 3, aging, none, none, 0, false, none, none, none, [], 0, 0, false⟩

/-- A running lane frame 0 with the two threads, in a context whose page 0 holds a header and a word at 0x10. -/
def turning (aging hdr : Nat) : State :=
  let s := setLF (mapped demo 0x500336) 0 0 (twoThreads aging)
  { s with mem := Mem.write s.mem 0x5010 (leBytes 8 (hdr + 0xC0100E15 * 2 ^ 32)) }

/-- BundleFormationAndAcceptance: the lowest program counter, and at 64 turns the oldest; a legal header and an illegal one at a
turn, a turn of another cycle, a yielding lane frame; and an offered bundle that its slot accepts. -/
theorem witness_BundleFormationAndAcceptance :
    ((formBundle (twoThreads 63)).map (fun b => (b.pc, b.lanes)) = some (pcImage 0 0x10, 0x80000000) ∧
      (formBundle (twoThreads 64)).map (fun b => (b.pc, b.lanes)) = some (pcImage 0 0x20, 1)) ∧
    [(0xA7F80001, true), (0xA7F80000, false)].all (fun e =>
      let s := turning 0 e.1
      (match laneFrame s 0 0 with
        | some f => hasTurn s 0 0 f && !hasTurn { s with cycle := 1 } 0 0 f && (match formBundle f with
          | some b => (match (fetchWord (setLF s 0 0 { f with offer := none, yielding := false }) 0 f.wg (headerOf b.pc)
              (thrField 0 (lowest b.lanes)) (pcImage 0 (headerOf b.pc))).1 with
            | .word w => (Header.ofWord w).legal == e.2
            | _ => false)
          | none => false)
        | none => false)) = true ∧
    (match exec (.bundleTurn 0 0) (turning 0 0xA7F80001) with
      | .next s => !coreHeld s 0 && slotFree s 0 0 && decide ((startable s 0 0).map (fun e => e.1) = [0])
      | _ => false) = true := by decide +kernel

/-- PlacementOfClusters: a launch that fits a rig; none; a compaction pass at work, at a move, and at its end; a reserved frame. -/
theorem witness_PlacementOfClusters :
    (let s : State := { demo with wgs := [], launches := demo.launches.map (fun x => { x with placed := 0, ready := some 0 }) }
     (nextLaunch s).isSome = true ∧ nextLaunch demo = none ∧ demo.lastPlace ≠ demo.cycle * 2 / 3 + 1) ∧
    (let p : Compaction := ⟨[(63, 0)], false, 0, 0, 0, 0⟩
     let s := modCore demo 0 (fun k => modC k (fun y => { y with compaction := some p }))
     (laneFrame s 0 63).map (fun f => f.still) = some false ∧ (laneFrame s 0 63).map (fun f => movable f) = some false ∧
     (let t := modLF s 0 63 (fun f => { f with clause := none })
      (laneFrame t 0 63).map (fun f => movable f) = some true ∧ (laneFrame t 0 0).isNone = true)) ∧
    (let s : State := { demo with wgs := demo.wgs.map (fun w => { w with emptying := [0] }) }
     (s.wgs.find? (fun w => decide (w.core = 0) && w.emptying.contains 0)).isSome = true ∧ (frame s (nearKey 0 0)).busy = false) := by
  decide +kernel

/-- WorkgroupLifetime: a workgroup that may start; one that has not finished, and one that has. -/
theorem witness_WorkgroupLifetime :
    (let s : State := { demo with wgs := demo.wgs.map (fun w => { w with started := false }) }
     (workgroup s 0).map (fun w => (w.started, w.emptying, w.ctx == ctxId s, w.lfs.all (fun l => (laneFrame s w.core l).isSome))) =
       some (false, [], true, true) ∧ (launchOf s 0).map (fun x => x.args.length) = some 6 ∧ s.slice.isSome = true) ∧
    ((workgroup demo 0).map (fun w => wgFinished demo w) = some false) ∧
    (let s := modLF demo 0 63 (fun f => modThread { f with clause := none } 0 (fun t => { t with live := false }))
     (workgroup s 0).map (fun w => wgFinished s w) = some true) := by decide +kernel

/-! ## Homes, placement, the write lanes and the capacity tier -/

/-- Request 1 of lane frame 63's lane 0. -/
def request (act : Act) (sp : Space) (ph : Phase) (ent : Option DWord) : Req :=
  ⟨1, 0, 63, 0, 0, 1, act, sp, 1, [(0, 7)], [], none, 1, false, none, .thr, none, ph, ent, 0, 0, 0⟩

def withReq (s : State) (r : Req) : State := modCore s 0 (fun k => { k with reqs := [r] })

/-- A kind 1 entry for near frame 0 of core 0 with seal 0, W = 1 and ordering 1. -/
def nearEnt : DWord := 0x15

/-- The demo with page 0 of its context in near frame 0 of core 0, with a seal. -/
def framed (n : BitVec 8) : State :=
  modFrame (mapped demo 0x500316) (entFrame nearEnt) (fun f => { f with valid := true, stamp := n, backing := 5 })

/-- PlacementOfClusters: valid frames, all of a context that has a key. -/
theorem witness_keyed_frames : (framed 0).frames.all (fun e => !e.2.valid || (keyOf (framed 0) e.2.ctx).isSome) = true ∧ (framed 0).stop = none ∧
    (frame (framed 0) (nearKey 0 0)).busy = false := by decide +kernel

/-- HomeAccessEvents: every kind of request, ready at its home; a translation to fetch, of a page that stays; each fate at a frame. -/
theorem witness_HomeAccessEvents :
    ([request .load (.scr 0) .sent none, request .store (.scr 0) .sent none, request (.atomic .add 1 0 4) (.scr 0) .sent none,
        request .store (.virt 0 0) .sent (some good), request .store (.virt 0 0) .sent (some nearEnt), request .load (.virt 0 0) .sent none,
        request (.atomic .cas 1 0 4) (.virt 0 0) .sent (some good), request .store (.virt 0 0) .queued none,
        request .store (.host 0 0) .queued none].all (fun r => reqReady (withReq (mapped demo 0x500316) r) 0 r &&
          decide (reqOf (withReq (mapped demo 0x500316) r) 0 1 = some r))) = true ∧
    ((match (fetchTrans (mapped demo 0x500316) 0 0 0).1 with
        | .ok e => decide (reCheck e true = none) && decide (entKind e = 2) && !busyFor (mapped demo 0x500316) 0 0 e
        | _ => false) && decide (inFlight (mapped demo 0x500316) 0 < maxOut (mapped demo 0x500316) 0)) = true ∧
    (entKind nearEnt = 1 ∧ heldBehind (framed 0) 0 (request .store (.virt 0 0) .sent none) (entFrame nearEnt) = false ∧
      (frame (framed 0) (entFrame nearEnt)).damaged = false ∧ sealOk (framed 0) (entFrame nearEnt) 0 (entSeal nearEnt) = true ∧
      sealOk (framed 1) (entFrame nearEnt) 0 (entSeal nearEnt) = false ∧ entGone (framed 0) nearEnt = false ∧
      entGone { framed 0 with dieState := List.replicate 16 0 } nearEnt = true ∧ (request .store (.virt 0 0) .sent none).strong = true ∧
      busyAt (framed 0) 0 0 5 = false ∧ busyAt (modMarker (framed 0) 5 (fun m => { m with busy := [1] })) 0 0 5 = true ∧
      reqLines (framed 0) 5 (request .store (.virt 0 0) .sent none) = []) := by decide +kernel

/-- A fill of page 0 from HBM page 5 into near frame 0, and an eviction of it. -/
def fill (remapped : Bool) : Seq :=
  ⟨1, .fill, 0, 0, 0, 5, 0x516, entFrame nearEnt, none, none, none, false, remapped, 0, [], 0, 0, 0, 0xFFFF, 0, none, [], false⟩

/-- PlacementEvents: a sequence that may remap, one within 32 cycles of a remap, one that has; an invalidation on its way, arrived,
due for another send, and at its last. -/
theorem witness_PlacementEvents :
    (let s : State := { demo with seqs := [fill false] }
     canRemap s (fill false) = true ∧ canRemap (remap s (entFrame nearEnt) id) (fill false) = false ∧
     (s.seqs.find? (fun q => q.id = 1)).isSome = true ∧ (fill true).remapped = true) ∧
    [(0, 1, false), (4095, 1, true), (4096, 3, true), (4096, 4, false)].all (fun (n, k, a) =>
      let v : Inval := ⟨1, 0, 0, 0, 0, k, if a then some n else none, none, ⟨0, 0, noThread, 0⟩⟩
      let s : State := { demo with invals := [v], cycle := n }
      decide (invalOf s 1 = some v) && !usesDropped s v n) = true ∧
    (let v : Inval := ⟨1, 0, 0, 0, 0, 1, some 9, none, ⟨0, 0, noThread, 0⟩⟩
     let s := withReq demo (request .store (.virt 0 0) .sent (some good))
     usesDropped s v 9 = true ∧ usesDropped s v 0 = false) := by decide +kernel

/-- An HBM write of block 0 of page 0. -/
def hbmWrite (id : Nat) (charge : Option Nat) (entered : Bool) (refusals : Nat) (o : WrFrom) : HWrite :=
  ⟨id, 0, 0, 0xFFFF, [], 0, charge, entered, true, 0, 0, refusals, 0, none, o⟩

/-- WriteLaneEvents: writes that may enter, in and out of budget and charged to no one; an empty lane and lanes with a write in hand
at 6 and 7 refusals and in a dead channel; and the write taken next. -/
theorem witness_WriteLaneEvents :
    [(some 0, 16), (some 0, 15), (none, 0)].all (fun e =>
      let w := hbmWrite 1 e.1 false 0 (.req 0 1)
      let s := modCore { demo with hwrites := [w] } 0 (fun k => { k with tokens := e.2 })
      decide (hwriteOf s 1 = some w) && mayEnter s w && decide ((Machine.core s 0).tokens = e.2)) = true ∧
    grainBytes 0xFFFF = 16 ∧ (channelOf demo 0).current = none ∧
    [6, 7].all (fun n =>
      let w := hbmWrite 1 (some 0) true n .none
      let s : State := { demo with hwrites := [w], channels := [(0, ⟨false, false, 0, some 1⟩)] }
      decide ((channelOf s 0).current.bind (hwriteOf s) = some w) && !chanDead s w.page && decide (writeLines s w = []) &&
      chanDead { s with deadChans := [0] } w.page) = true ∧
    nextWrite { demo with hwrites := [hbmWrite 1 (some 0) true 0 .none, hbmWrite 2 (some 1) true 0 .none] } 0 0 =
      some (hbmWrite 1 (some 0) true 0 .none) := by decide +kernel

/-- R65's rule at work: an in-budget write of another page of the channel goes before an older one out of budget, and one of the
same page does not. -/
theorem test_in_budget_first :
    (let a := { hbmWrite 1 (some 3) true 0 .none with inBudget := false }
     let b : HWrite := { hbmWrite 2 none true 0 (.host 0) with arrival := 5, page := 192 }
     nextWrite { demo with hwrites := [a, b] } 0 0 = some b ∧
     nextWrite { demo with hwrites := [a, { b with page := 0 }] } 0 0 = some a) := by decide +kernel

/-- An operation 1 of lane frame 63. -/
def memOp (kind : OpKind) (w : Nat) (got : Table Byte) : MemOp :=
  ⟨1, 63, 0, 0, kind, 1, 1, w, false, none, [(0, .virt 0 0)], got, [], 0, false, 0, 0⟩

def withOp (s : State) (o : MemOp) : State := modCore s 0 (fun k => { k with ops := [o] })

/-- A lane frame that holds at a FENCE, after an earlier load or none. -/
def fencing (path : Option Path) : State := modLF demo 0 63 (fun f => { f with fence := some ⟨5, .dev, path⟩ })

/-- A monitor on scratchpad's first word for value `b`. -/
def monitor (b : Word) (armed : Bool) : Monitor := ⟨1, .store scratch0, .eq, b, 0, 63, 1, 0, armed, 1024, false, none⟩

/-- MemoryWordCompletions: a load whose requests are done; an atomic with and without its reply, before and at its deadline; fences
that are met and that wait; monitors before and at their recheck, holding or not. -/
theorem witness_MemoryWordCompletions :
    (opOf (withOp demo (memOp .load 4 [])) 0 1 = some (memOp .load 4 []) ∧ reqsOf (withOp demo (memOp .load 4 [])) 0 1 = [] ∧
      (let s := withReq { demo with cycle := 2 ^ 24 } { request (.atomic .add 0 0 4) (.virt 0 0) .sent (some good) with op := 1 }
       lateLanes s 0 1 (memOp .atomic 4 []) = 1 ∧ lateLanes { s with cycle := 2 ^ 24 - 1 } 0 1 (memOp .atomic 4 []) = 0) ∧
      repliedLanes (memOp .atomic 4 [(0, 1)]) = 1 ∧ repliedLanes (memOp .atomic 4 []) = 0) ∧
    (released (fencing none) 0 63 1 5 .dev = true ∧ released (withOp (fencing none) (memOp .load 4 [])) 0 63 1 5 .dev = false ∧
      xReady (fencing (some .copy)) 0 0 .copy 5 .dev = true ∧ ((laneFrame (fencing none) 0 63).map (fun f => f.clause.isSome && f.fence.isSome)) = some true) ∧
    (monHolds { demo with monitors := [monitor 0 false] } (monitor 0 false) = true ∧
      monHolds { demo with monitors := [monitor 1 false] } (monitor 1 false) = false ∧ locNum demo (.store scratch0) ≠ none ∧
      (monitor 1 false).armed = false ∧ (monitor 1 false).due ≤ 1024) := by decide +kernel

/-- A pool with a slot or without, at virtual address 0 of the context, in HBM page 5. -/
def pooled (head tail : Nat) : State :=
  let s := mapped demo 0x500316
  { s with mem := Mem.write s.mem 0x5000 (leBytes 8 0x1000 ++ leBytes 4 4 ++ leBytes 4 head ++ leBytes 4 tail) }

def migration (phase : Nat) (reads : Table Nat) (got : BitVec 32) : Migration :=
  ⟨1, 0, 0, 0, 0, 9, phase, 0, 6, reads, got, 0, 0, false, false, false, 0xFFFF, 0, [(31, 12)], false⟩

/-- MigrationEvents: a pool with and without a slot; block 31 of a migration at each read, before and at its deadline; a finished
one; a parked bundle before and at its deadline; a direct read. -/
theorem witness_MigrationEvents :
    ((poolOf (pooled 1 2) 0).map (fun p => (p.head, p.tail)) = some (1, 2) ∧ (poolOf (pooled 2 2) 0).map (fun p => (p.head, p.tail)) = some (2, 2) ∧
      runs (pooled 1 2) 0 = true ∧ (keyOf (pooled 1 2) 0).isSome = true) ∧
    (let m := migration 1 [(31, 1)] 0
     let s : State := { pooled 1 2 with migrations := [m], mirrors := [(0, ⟨9, 1, 3⟩)] }
     migrationOf s 1 = some m ∧ look m.reads 31 0 % 4 = 1 ∧ look m.reads 30 0 % 4 = 0 ∧ mirrorOf s 0 9 = some 12 ∧
     mirrorOf s 0 10 = none ∧ readFromPage m 31 = 12 ∧ readFromPage m 30 = 9 ∧ (∀ k < 4, poisoned s (capAt (readFromPage m 31) 31 + 32 * k) = false) ∧
     m.got.getLsbD 31 = false ∧ (migration 1 [] (BitVec.allOnes 32)).got = BitVec.allOnes 32) ∧
    (let r : Reader := ⟨memOp .load 4 [], 0, 0, false, 9, []⟩
     let s := modCore (modLF (mapped demo 0x900517) 0 63 (fun f => modThread f 0 (fun t => { t with parked := true, wait := some (.migration 0 0) }))) 0
       (fun k => { modC k (fun y => { y with readers := [r] }) with ctdl := 1 })
     (laneFrame s 0 63).bind (fun f => parkedSince f r) = some 0 ∧ ctxId s = 0 ∧
     (match walk s 0 0 with | .entry e _ => decide (entKind e = 3 ∧ entHint e = 5) | _ => false) = true ∧
     (Machine.core s 0).ctdl.toNat % 256 = 1 ∧ (Machine.core s 0).c.readers.find? (fun r => decide (r.op.lf = 63) && !r.issued) = some r ∧
     directPoison s r 9 = false) := by decide +kernel

/-- A page-attribute request for page 0. -/
def pageReq (step : Nat) (hint : Bool) (ctl : Word) : PageReq :=
  ⟨1, 0, 63, 0, 0, 0, 1, hint, ctl, 0, 0, 1, 0, 0, step, 0, 0, 0, 0, false⟩

/-- PageRequestEvents: an absent page, a table that cannot be read, M = 1, B = 1, and free pages of kinds 2 and 3; the watchdog
before and at 2^22 cycles. -/
theorem witness_PageRequestEvents :
    (pageReqOf (modCore demo 0 (fun k => modC k (fun y => { y with pageReqs := [pageReq 0 true 0] }))) 1 = some (pageReq 0 true 0) ∧
      runs demo 0 = true) ∧
    ((match walk (mapped demo 0) 0 0 with | .absent => true | _ => false) && (match walk demo 0 0 with | .bad k => decide (k = 24) | _ => false) &&
      [(0x500356, true, false, 2), (0x500396, false, true, 2), (0x500316, false, false, 2), (0x900517, false, false, 3)].all (fun e =>
        match walk (mapped demo e.1) 0 0 with
        | .entry x _ => decide (entM x = e.2.1 ∧ entB x = e.2.2.1 ∧ entKind x = e.2.2.2)
        | _ => false)) = true ∧
    acksOut demo (pageReq 3 true 0) = false ∧ acksOut { demo with invals := [⟨2, 0, 0, 0, 0, 1, none, some 1, ⟨0, 0, 64, 0⟩⟩] } (pageReq 3 true 0) = true ∧
    (pageReq 3 false 0x20).ctl.getLsbD 5 = true ∧
    seqOf { demo with seqs := [fill false] } 1 = some (fill false) ∧ seqOf demo 1 = none ∧
    migrationOf { demo with migrations := [migration 0 [] 0] } 1 = some (migration 0 [] 0) := by decide +kernel

/-! ## Registers, slices, the recorder and the engines -/

/-- A Mast in a mode. -/
def inMode (p : Priv) : State := modMast demo 0 (fun m => { m with mode := p })

/-- RegistersBudgetsAndWindows: every mode, a register of each kind, a stopped function, and a window boundary that has come. -/
theorem witness_RegistersBudgetsAndWindows :
    [Priv.u, .s, .m].all (fun p => decide ((Machine.mast (inMode p) 0).mode = p)) = true ∧ supCsr (.mukey 0) 0 ∧ machineCsr (.mctx 1023) 1023 ∧
    1 ∈ ({ demo with priStopped := [1] } : State).priStopped ∧
    (let s : State := { demo with cycle := 1024, lastWindow := 1 }
     s.cycle % 1024 = 0 ∧ s.cycle ≠ 0 ∧ s.lastWindow ≠ s.cycle + 1 ∧ ∀ d < 16, (List.replicate 16 124).getD d 0 < 125) :=
  ⟨by decide +kernel, .inr (.inr (.inl rfl)), .inl rfl, by decide +kernel, by decide +kernel⟩

/-- R63: a window adds 64 times RATE and stops at 64 times DEPTH (reset: RATE 0x48, DEPTH 4). -/
theorem test_window_refills :
    (match exec (.windowBoundary [] []) { demo with cycle := 1024, lastWindow := 1, dieState := List.replicate 16 3 } with
      | .next s => decide ((Machine.core s 1).tokens = min (ceiling 0x00400448) (64 * 0x48))
      | _ => false) = true := by decide +kernel

/-- SliceAndRecorderEvents: no slice; a slice before and at its end, with and without work; a switch that can complete; the recorder's
periods, and a wrap of the time counter. -/
theorem witness_SliceAndRecorderEvents :
    (State.reset.slice = none ∧ hasWork demo 0 = true ∧ hasWork { demo with wgs := [], launches := [], cores := [] } 0 = false ∧
      (demo.slice.map (fun x => decide (x.fin ≤ 999999))) = some false ∧
      switchReady { demo with cores := [] } = true ∧ switchReady (withReq demo (request .load (.scr 0) .sent none)) = false) ∧
    (let r := (Machine.core demo 0).rcd
     (demo.cycle < r.cntStall + 2 ^ (r.rctl.toNat / 2 ^ 24 % 16)) ∧ r.dropped = 0 ∧ stagedNow { r with dropped := 1 } 0 < 32) ∧
    (2 ^ 24 % 2 ^ 24 = 0 ∧ demo.lastTimebase ≠ 2 ^ 24 + 1) ∧
    (let s := modLF demo 0 63 (fun f => { f with clause := none, offer := some ⟨0, 1, 0xA7F80101, 0, false, false⟩ })
     (stallOf (modLF s 0 63 (fun f => modThread f 0 (fun t => { t with flags := t.flags.set 1 1 }))) 0 63).isSome = true ∧ stallOf demo 0 1 = none) := by
  decide +kernel

/-- A matrix-queue entry 1 of workgroup 0. -/
def entry (k : MqKind) (started finished : Bool) : MqEntry :=
  ⟨1, 63, 0, 0, 1, 0, none, k, started, finished, 0, 0, none, none, none, 0, 0, 0⟩

def withEntry (s : State) (e : MqEntry) : State := modCore s 0 (fun k => modC k (fun y => { y with mq := [e] }))

/-- An engine operation 1 of workgroup 0. -/
def engine (k : EngKind) (progress sent : Nat) (ended : Bool) (missed : Table (Nat × Bool)) : EngOp :=
  ⟨1, 63, 0, 0, 1, 0, none, 0, k, .none, 0, progress, sent, [], ended, none, 0, missed⟩

def withEngine (s : State) (e : EngOp) : State := modCore s 0 (fun k => modC k (fun y => { y with eng := [e] }))

/-- A transfer of one element of one byte, and a collective of two members whose second is on another part. -/
def oneByte : EngKind :=
  .xfer ⟨true, 0, 1, 1, [1], [], [1]⟩ ⟨true, 64, 1, 1, [1], [], [0]⟩ [0] [0]
def twoMembers : Collective := ⟨0, 0, 0, 0, 0x100, 0x200, 8193, 0, [0, 1], 0, 0⟩

/-- PlaneSumsAreProductsOfElements and ProductStepWritesItsTile: a product of plane operands within the limits. -/
theorem witness_PlaneSumsAreProductsOfElements :
    (let v := recView (record0 2 1 64 64).bits
     v.blk = 32 ∧ 0 < v.nbits ∧ v.rows ≤ 64 ∧ (recView (record0 2 8 32 64).bits).rows ≤ 32 ∧ v.blk ≤ 64 ∧ v.blk % 8 = 0) := by decide +kernel

/-- EngineEvents: entries that may work and that wait, that are done and not; a tile to clear; transfers, collectives and launches at
each stage; a latch before and at its watchdog. -/
theorem witness_EngineEvents :
    (let e := entry (.accZero 63) false false
     let s := withEntry demo e
     (mqOf (dropFences s 0) 0 1).map (fun e => entryReady (dropFences s 0) 0 e) = some true ∧
     (mqOf (dropFences (withEntry placed e) 0) 0 1).map (fun e => entryReady (dropFences (withEntry placed e) 0) 0 e) = some false ∧
     tileOther s 0 0 63 = false ∧ needsSpill s 0 63 = false ∧ engineDrained s 0 1 = true) ∧
    (let e := entry (.rsvFree 0) true true
     (mqOf (withEntry demo e) 0 1) = some e ∧ jointBusy (withEntry demo e) e = false) ∧
    (let e := entry (.groveRow [(0, 0)] 0 []) true false
     entryReady (withEntry demo e) 0 e = true) ∧
    (let e := engine oneByte 0 1 false []
     engOf (withEngine demo e) 0 1 = some e ∧ mqOf (withEngine demo e) 0 1 = none ∧ engDone (withEngine demo e) 0 e = false ∧
     engDone (withEngine demo e) 0 (engine oneByte 1 1 false []) = true ∧
     (match oneByte with | .xfer x y o d => decide ((xferParts x y o d).length = 1) | _ => false) = true) ∧
    (let e := engine (.coll twoMembers) 0 8192 false [(1, (0, true))]
     e.progress ≠ twoMembers.total ∧ e.sent = twoMembers.chunkEnd e.progress ∧ twoMembers.onPart 1 = false ∧ twoMembers.onPart 0 = true ∧
     engineHeld (withEngine demo e) 0 = false ∧ gangFor (withEngine demo e) e.wg twoMembers.group = none) ∧
    (let s : State := { demo with launches := demo.launches.map (fun x => { x with gang := true }), gangs := [(0, ⟨0, 0, 0, [], true, 1, 1⟩)] }
     (gangFor s 0 0).map (fun g => (g.past, g.acks)) = some (true, []) ∧
     unreachable { s with cycle := 2 ^ 26 } (engine (.coll twoMembers) 0 8192 false [(1, (0, true))]) = true ∧
     (gangFor { s with gangs := [(0, ⟨0, 0, 9, [], false, 0, 0⟩)] } 0 0).map (fun g => g.past) = some false) ∧
    (let s : State := { demo with latches := [⟨1, 0, 0, 0x02000010, 0, [(0, 1)], 0, false⟩] }
     (s.latches.find? (fun x => x.id = 1)).isSome = true ∧ (launchById s 0).map (fun l => runs s l.ctx) = some true ∧ s.stop = none) := by
  decide +kernel

/-! ## Masts, queues and the host -/

/-- A call ring of one slot at virtual address 0x800 of the context, under the mapped page, with lane frame 63 at a SYSCALL. -/
def calling : State :=
  modMast (modLF (mapped demo 0x500316) 0 63 (fun f => { f with call := some ⟨5, 1, false⟩ })) 0 (fun m => { m with mring := 0x400 })

set_option maxRecDepth 20000 in
/-- CallsMessagesAndWindow: a call that may be posted; one whose monitor has fired and whose status is set; messages and posted calls,
none and one; notify registers 31 and 32; a thread that is parked, and one that is not. -/
theorem witness_CallsMessagesAndWindow :
    ((laneFrame calling 0 63).map (fun f => f.clause.isSome && f.call.isSome) = some true ∧ freeSlot (Machine.core calling 0) = some 0 ∧
      coreHeld calling 0 = false ∧ released calling 0 63 1 calling.ops .dev = true ∧
      bundle { modLF calling 0 63 (fun f => { f with call := none }) with at_ := some (0, 63) } (fun u => (slotBytes calling u 1).isSome) = true ∧
      (match (mastPlace calling 0 0 (slotVa (Machine.mast calling 0) 0) 2048 1 true).1 with | .place _ _ _ => true | _ => false) = true) ∧
    (let s0 := modMast calling 0 (fun m => { m with calls := [(0, ⟨0, 63, 1, 5, 0⟩)] })
     let s : State := { s0 with
       mem := Mem.write s0.mem 0x5000 (leBytes 4 1), monitors := [⟨1, .virt 0 0, .ne, 0, 0, 63, 1, 0, true, 0, true, some 0⟩] }
     (lookup (Machine.mast s 0).calls 0).map (fun x => x.ctx) = some (ctxId s) ∧
     (s.monitors.find? (fun m => decide (m.core = 0 ∧ m.call = some 0))).map (fun m => m.fired) = some true ∧
     (match (mastRead s 0 (Machine.mast s 0).ringCtx (slotVa (Machine.mast s 0) 0) 4 0 true).1 with | .bytes b => decide (leNat b ≠ 0) | _ => false) = true ∧
     (match (returnWords s 0 0 [0]).1 with | .ok _ => true | _ => false) = true) ∧
    ((Machine.mast (inMode .s) 0).posted = [] ∧ (Machine.mast (modMast demo 0 (fun m => { m with posted := [15], msgs := [⟨0, 0, 0, 0, 0⟩] })) 0).posted = [15]) ∧
    ((laneFrame demo 0 63).map (fun f => (thread f 0).parked) = some false ∧
      (laneFrame (modLF demo 0 63 (fun f => modThread f 0 (fun t => { t with parked := true }))) 0 63).map
        (fun f => ((thread f 0).parked, (thread f 0).live, (thread f 0).wait, (lookup f.threads 0).isSome)) = some (true, true, none, true)) := by
  decide +kernel

/-- A queue that is on (QCFG bit 31), of 2^2 entries (bits 27:24). -/
def queued4 (head tail : Word) : Queue := ⟨0, 0x82000000, tail, head, 0, none, none, []⟩

/-- QueueEvents: TAIL at the ring's size and one above; a queue that works, that does not, and that waits for a reread; tries 7 and 8;
a gang launch before and at its deadline. -/
theorem witness_QueueEvents :
    (((4 : Word) - 0).toNat ≤ (queued4 0 0).size ∧ (queued4 0 0).size < ((5 : Word) - 0).toNat ∧ (queued4 0 0).stopped = false ∧
      queueWorks (queued4 0 1) = true ∧ queueWorks (queued4 1 1) = false ∧ queueWorks { queued4 0 1 with refetchAt := some 2048 } = true ∧
      { queued4 0 1 with qerr := qerrOf false 7 0 }.tries = 7 ∧ { queued4 0 1 with qerr := qerrOf false 8 0 }.tries = 8) ∧
    (let s : State := { demo with gangs := [(7, ⟨3, 0, 100, [], false, 0, 0⟩)], groups := [(0, [BitVec.ofNat 64 (2 ^ 31 + 2), 0, 0, 0])] }
     (lastGang s 3).map (fun e => (e.1, e.2.past)) = some (7, false) ∧ groupSize s 0 = 2) := by decide +kernel

/-- HostEvents: a translation asked for, covered by an invalidation or not, and a page request; host users of a page, none and one;
accesses inside the range, on pages that move and not, at its end and beyond; a full set of the snoop filter. -/
theorem witness_HostEvents :
    (let q (pri dead : Bool) : AtsReq := ⟨0, 5, true, pri, dead, 0, false, false⟩
     let s (x : AtsReq) : State := modCore demo 0 (fun k => { k with ats := [x] })
     (Machine.core (s (q false false)) 0).ats.find? (fun q => decide (q.pasid = 0 ∧ q.page = 5) && !q.pri) = some (q false false) ∧
     (Machine.core (s (q false true)) 0).ats.find? (fun q => decide (q.pasid = 0 ∧ q.page = 5) && !q.pri) = some (q false true) ∧
     (Machine.core (s (q true false)) 0).ats.find? (fun q => decide (q.pasid = 0 ∧ q.page = 5) && q.pri && !q.held) = some (q true false)) ∧
    (hostUsers demo 0 5 1 = [] ∧ hostUsers (withReq demo (request .load (.host 0 0x5FFF) .sent none)) 0 5 1 = [(0, 1)] ∧
      opOf (withOp demo (memOp .host 4 [])) 0 1 = some (memOp .host 4 [])) ∧
    ((hdmEnd demo - 64) + 64 ≤ hdmEnd demo ∧ hdmEnd demo < (hdmEnd demo - 63) + 64 ∧ (rangePages 0 64).any (fun p => (marker demo p).offered) = false ∧
      (rangePages 0 64).any (fun p => (marker (modMarker demo 0 (fun m => { m with offered := true })) p).offered) = true ∧
      snoopEvictions demo (rangeLines 0 64) = [] ∧ capsulePage 0xFEC000 = true ∧ capsulePage 0xFEBFFF = false ∧
      (hostKey (mapped demo 0) 0).isSome = true) ∧
    (({ demo with snoops := [⟨1, 0⟩] } : State).snoops.find? (fun x => x.id = 1)).isSome = true ∧
    (({ demo with hostInvals := [⟨1, 0, 5, 1, []⟩] } : State).hostInvals.find? (fun v => v.id = 1)).isSome = true := by decide +kernel

/-- A Mast in S mode with page 0 of its context mapped to HBM page 5. -/
def mastReady : State := modMast (mapped demo 0x500316) 0 (fun m => { m with mode := .m })

/-- MastAccessesAndExceptions: an aligned access that is allowed, read and written; a misaligned address; a page that may not be
reached; a reservation, held and not; and the exceptions of both modes. -/
theorem witness_MastAccessesAndExceptions :
    (issueAllows mastReady 0 0x10 8 0 = true ∧ issueAllows mastReady 0 0x10 8 1 = true ∧ issueAllows (inMode .u) 0 0x10 8 0 = false ∧
      issueAllows (inMode .u) 0 0x10 8 1 = false ∧
      (match (mastRead mastReady 0 0 0x10 8 0 true).1 with | .bytes _ => true | _ => false) = true ∧
      (match (mastWrite mastReady 0 0 0x10 (leBytes 8 5) true).1 with | .bytes b => b.isEmpty | _ => false) = true ∧
      (match mastPlace mastReady 0 0 0x10 8 1 true with | (.place p _ _, s1) => (List.range 8).all (fun i => !spoiled s1 (p + i)) | _ => false) = true ∧
      (Machine.mast mastReady 0).reserve ≠ some (.virt 0 0x10, 8, true)) ∧
    ((Machine.mast (modMast (inMode .u) 0 (fun m => { m with medeleg := 0x100 })) 0).medeleg.getLsbD 8 = true ∧
      (Machine.mast (inMode .m) 0).mode = .m ∧ (Machine.mast (inMode .s) 0).mode ≠ .m) := by decide +kernel

/-! ## The mailbox, stops and the package -/

/-- The masters that command, on a booted part without a command in progress. -/
theorem witness_MailboxFree : MailboxFree demo .pf ∧ MailboxFree demo (.mastM 0) ∧ demo.boot.code = 0 ∧
    ({ demo with mbxCmd := some (0, 0) } : State).mbxCmd ≠ none ∧ ({ demo with boot := { demo.boot with code := 7 } } : State).boot.code ≠ 0 :=
  ⟨⟨.inl rfl, by decide +kernel, by decide +kernel⟩, ⟨.inr ⟨0, rfl⟩, by decide +kernel, by decide +kernel⟩, by decide +kernel, by decide +kernel,
    by decide +kernel⟩

/-- MailboxTableCommands: a sequence that can be abandoned and none; a poison entry; a key record that may be written; a lost block;
a faulted engine entry; a gang launch; no summary; slots held and not; ranges of HBM. -/
theorem witness_MailboxTableCommands :
    ((abandonBusy demo 0 0).isNone = true ∧ (abandonBusy { demo with seqs := [fill false] } 0 0).isSome = true) ∧
    lookup ({ demo with poisonTab := [(255, ⟨0, 0, 9, true⟩)] } : State).poisonTab (511 % 256) = some ⟨0, 0, 9, true⟩ ∧
    (keyBusy { demo with slice := none } 2047 = false ∧ hbmRange demo (2 ^ 40 - 64) 64 = true ∧ hbmRange demo (2 ^ 40 - 63) 64 = false ∧
      hbmHeld demo 0 64 = false ∧ hbmTracked demo 0 64 = []) ∧
    (look ({ demo with lost := [(511, [5])] } : State).lost (15 * 32 + 31) [])[0]? = some 5 ∧
    (let e := { entry (.accZero 3) true false with fault := some (11, 0) }
     (Machine.core (withEntry demo e) 0).c.mq.find? (fun e => e.fault.isSome && !atLatch e && decide (entryUnit 0 e = 0)) = some e) ∧
    (let s : State := { demo with gangs := [(7, ⟨3, 0, 100, [], false, 0, 0⟩)] }
     (lastGang s 3).isSome = true) ∧ demo.summaries[3]? = none ∧ (capsule demo 0).state ≠ 2 ∧
    (capsule { demo with capsules := [⟨2, 0, 0⟩, ⟨0, 0, 0⟩] } 0).state = 2 := by decide +kernel

/-- MailboxDebugCommands: core numbers and copy ranges at their ends; every outcome of STEP_BACK without an entry. -/
theorem witness_MailboxDebugCommands :
    (copyOk demo 1023 0 0 1 = true ∧ copyOk demo 1023 0 16 8192 = true ∧ copyOk demo 0 0 8 1 = false ∧ copyOk demo 0 0 0 8193 = false ∧ copyOk demo 0 0 0 0 = false ∧
      copyOk demo 0x10000 1023 0 1 = true ∧ copyOk demo 0x10000 1023 0 2 = false) ∧
    (stepCode demo 0 63 1 = 2 ∧ stepCode { demo with stop := some (stopAt 0) } 0 0 1 = 3 ∧ stepCode { demo with stop := some (stopAt 0) } 0 63 1 = 3) ∧
    (let s := modLF { demo with stop := some (stopAt 0), mem := Mem.write demo.mem (65536 * 63) [1] } 0 63 (fun f => { f with undo := 1 })
     stepCode s 0 63 1 = 0) := by decide +kernel

/-- StopsEndsAndCapsules: a halt line before and at its bound, on the stop's die and another; every state of RESUME and ENDCTX; a capsule
that is due, ready and not, with its slots. -/
theorem witness_StopsEndsAndCapsules :
    ((stopAt 0).core / 64 = 63 / 64 ∧ (stopAt 0).core / 64 ≠ 64 / 64 ∧ 1023 ∉ (stopAt 0).arrived ∧
      (stopAt 0).blocked = false ∧ (stopAt 0).lostFull = [] ∧ (stopAt 0).dbg = false ∧ demo.capDue = [] ∧ State.reset.slice = none ∧
      demo.slice.isSome = true ∧ demo.stop = none) ∧
    (let d : CapsuleDue := ⟨0, 0, 8, 0, 0, 0, 0, false⟩
     let s : State := { demo with capDue := [d] }
     capsuleReady s d = true ∧ capsuleReady { s with stop := some (stopAt 0) } d = false ∧ slotIn s 1 = none ∧ slotIn s 0 = some 0 ∧
     slotIn { s with capsules := [⟨2, 0, 0⟩, ⟨1, 0, 0⟩] } 1 = some 1 ∧
     slotIn { s with capsules := [⟨2, 0, 0⟩, ⟨2, 0, 0⟩] } 0 = none) := by decide +kernel

/-- ResetAndPowerEvents: a boot in progress with a block to check, at each count of retries; die states that may follow and may not;
caps within the package; a hot die before and after a millisecond. What the manifest's digests are is open (entry 9), so that which
of their two clauses a run takes is open as well. -/
theorem witness_ResetAndPowerEvents :
    (let s : State := { demo with boot := ⟨0, 0, true, List.replicate 96 0, [0], 0, [(2, 3), (3, 1)], 0x40⟩ }
     s.boot.ready = true ∧ 1 < s.boot.manifest.length / 48 ∧ 1 ∉ s.boot.checked ∧ s.dieState.getD 0 0 = 4 ∧
     (s.dieState.set 0 2).getD 0 0 ≠ 4 ∧ 3 ≤ look s.boot.retries (2 * 1) 0 ∧ 1 ≤ look s.boot.retries (2 * 1 + 1) 0 ∧
     mayEnterState { s with dieState := List.replicate 16 3 } 15 4 = true ∧ mayEnterState s 15 2 = false) ∧
    ((List.replicate 16 200).foldl (· + ·) 0 * 10 + (List.replicate 16 1500).foldl (· + ·) 0 ≤ 56000 ∧ millisecond % millisecond = 0) ∧
    lookup ({ demo with hotSince := [(3, 7)] } : State).hotSince 3 = some 7 ∧ demo.dieState.getD 15 0 ≠ 5 ∧ demo.dieState.getD 15 0 ≠ 6 ∧
    (hcfgOf { demo with hcfg := [(0, 0x8000FFFF)] } 0).getLsbD 31 = true ∧ (hcfgOf demo 1).getLsbD 31 = false := by decide +kernel

/-- LinkAndDieEvents: neighbours and dies that are not; a link up, half and down; a port before and after a millisecond; a die whose
links are all down for long enough, and one whose links are up; a die in each state of command 0x2B. -/
theorem witness_LinkAndDieEvents :
    (adjacent demo 0 1 = true ∧ adjacent demo 3 4 = false ∧ adjacent demo 11 15 = true ∧ adjacent demo 0 5 = false ∧
      dies demo = 16 ∧ adjacent { demo with caps := 0x0004011F } 7 11 = false ∧ lookup demo.links (linkKey 0 1) = none ∧
      (lookup ({ demo with links := [(linkKey 1 0, ⟨2, 0⟩)] } : State).links (linkKey 0 1)).map (fun x => x.st) = some 2) ∧
    (lookup demo.ports 3 = none ∧ lookup ({ demo with ports := [(3, 9)] } : State).ports 3 = some 9) ∧
    (cutOff demo 0 = false ∧ cutOff { demo with links := [(1, ⟨2, 0⟩), (4, ⟨2, 0⟩)], cycle := millisecond } 0 = true ∧
      cutOff { demo with links := [(1, ⟨2, 0⟩), (4, ⟨2, 0⟩)], cycle := millisecond - 1 } 0 = false ∧ 0 ∉ demo.lostDies ∧ demo.dieState.getD 0 0 ≠ 0) ∧
    (demo.dieState.getD 15 0 ≠ 5 ∧ demo.dieState.getD 15 0 ≠ 6 ∧ ({ demo with dieState := List.replicate 16 6 } : State).dieState.getD 15 0 = 6 ∧
      (({ demo with wgs := [] } : State).wgs.any (fun w => decide (dieOf w.core = 0))) = false ∧ demo.wgs.any (fun w => decide (dieOf w.core = 0)) = true) := by
  decide +kernel

/-! ## Values that the manual works out -/

/-- The one 32-bit word that an instruction sends to lane 0 from a placed bundle with n1 and n2 given. -/
def sends (i : Instr) (n1 n2 : Word) : List Word :=
  match exec i (withRegs placed n1 n2) with
  | .next s => (Machine.core s 0).deliveries.flatMap (fun x => look x.vals 0 [])
  | _ => []

/-- R172: the control of a 4-bit field at bit 8 is 0x408. -/
theorem test_bfx_takes_a_field : sends (.bfxZ32 1 ⟨0, 18⟩ ⟨0, 17⟩) 0x12345A78 0x408 = [0xA] ∧
    sends (.bfxS32 1 ⟨0, 18⟩ ⟨0, 17⟩) 0x12345A78 0x408 = [0xFFFFFFFA] := by decide +kernel

/-- R167: a zero divisor, and the most negative number by −1. -/
theorem test_division_corners : sends (.divS32 1 ⟨0, 18⟩ ⟨0, 17⟩) 7 0 = [0xFFFFFFFF] ∧ sends (.remZ32 1 ⟨0, 18⟩ ⟨0, 17⟩) 7 0 = [7] ∧
    sends (.divS32 1 ⟨0, 18⟩ ⟨0, 17⟩) 0x80000000 0xFFFFFFFF = [0x80000000] ∧ sends (.remS32 1 ⟨0, 18⟩ ⟨0, 17⟩) 0xFFFFFFF9 2 = [0xFFFFFFFF] := by
  decide +kernel

/-- R170: a shift by the width empties the word; ROL takes its amount modulo 32. -/
theorem test_shift_by_the_width : sends (.shlB32 1 ⟨0, 18⟩ ⟨0, 17⟩) 1 32 = [0] ∧ sends (.shrS32 1 ⟨0, 18⟩ ⟨0, 17⟩) 0x80000000 32 = [0xFFFFFFFF] ∧
    sends (.rolB32 1 ⟨0, 18⟩ ⟨0, 17⟩) 0x80000001 33 = [3] := by decide +kernel

/-- R173: ISET.lt.z32 with −1 compares against 0xFFFF_FFFF. -/
theorem test_iset_immediate : sends (.isetLtZ32Imm 1 0x7FF ⟨0, 17⟩) 5 0 = [1] ∧ sends (.isetLtS32Imm 1 0x7FF ⟨0, 17⟩) 5 0 = [0] := by decide +kernel

/-- R191: (1 + 2^-12)^2 − 1, fused, and as FMUL and FADD. -/
theorem test_fma_rounds_once : ffma fp32 0x3F800800 0x3F800800 0xBF800000 = 0x3A000400 ∧
    fadd fp32 .rn (fmul fp32 .rn 0x3F800800 0x3F800800) 0xBF800000 = 0x3A000000 := by decide +kernel

/-- Chapter 05: 1 + 2^-8 to BF16 is a tie, to even under .rn and up under .ru. -/
theorem test_bf16_tie : fcvt fp32 bf16 .rn 0x3F808000 = 0x3F80 ∧ fcvt fp32 bf16 .ru 0x3F808000 = 0x3F81 := by decide +kernel

/-- Chapter 02's worked entry: near frame 37 of core position 12 on die 3, dirty, pinned near, seal 0x2A. -/
theorem test_worked_entry :
    let e : DWord := 0x000000128C32A915
    entKind e = 1 ∧ entOrd e = 1 ∧ entW e = true ∧ entX e = false ∧ entHint e = 1 ∧ entD e = true ∧ entSeal e = 0x2A ∧
    entFrame e = (3 * 128 + 12) * 2048 + 37 := by decide +kernel

/-- R362's worked STOP record. -/
theorem test_stop_record :
    recordBits 11 0x0080 (pcImage 3 0x00100024) (0x203 * 2 ^ 10 + 6 * 2 ^ 4) 0xB02A00 = 0xB02A00000000080C600010002400800B := by decide +kernel

/-- R258's worked row: 14.5. -/
theorem test_grove_row :
    let halves := [0x8001, 0, 5, 0x8000, 2, 3, 7, 0x8002, 6]
    rowFaultFrom 8 0 0 halves = none ∧
    rowSum (rowGroups halves) (fun i => [0x3F000000, 0xC0000000, 0x40400000].getD i 0)
      (fun p => [0x3F800000, 0x40000000, 0x40400000, 0x40800000, 0x40A00000, 0x40C00000, 0x40E00000, 0x41000000].getD p 0) = 0x41680000 := by
  decide +kernel

/-- R248's worked product, its planes and scales in core 0's operand buffer, and its outlier list in scratchpad. -/
def planes : State :=
  let m0 := Mem.write demo.mem scratch0 (leBytes 8 1 ++ leBytes 8 0x4000000400003F00)
  let m1 := Mem.write m0 (bufAt 0 0) ([3, 0, 3, 9].flatMap (fun w => leBytes 4 w))
  let m2 := Mem.write m1 (bufAt 0 0x40) ([0xE, 0x1D, 0x1C, 8, 8, 8, 8, 8].flatMap (fun w => leBytes 4 w))
  { demo with mem := Mem.write m2 (bufAt 0 0x100) [125, 127] }
def planesRun : MmaRun :=
  ⟨recView (rsvBits 0x0000001F00040200 0x0000010000000000), recView (rsvBits 0x0000001F00080200 0x0000010100000040), 0, 0, 1, [125, 127]⟩

theorem test_plane_product :
    rsvBad 0x0000001F00040200 0x0000010000000000 = false ∧ blockSum planes 0 planesRun 0 0 0 = 7 ∧
    accAfter planes 0 planesRun .kOl 0 0 0 0 = 0x3FE00000 ∧ planeElem planes 0 planesRun.a 0 0 = -3 ∧ planeElem planes 0 planesRun.b 0 4 = 6 := by
  decide +kernel

theorem test_outlier :
    (let t := denseStep planes 0 planesRun .kOl 0x00010020 0
     tileElem t 0 0 0 0 = 0x3FE00000 ∧
     ((workgroup t 0).map (fun w => tileElem (outlierStep t 0 planesRun 0x00010020 (scratchDword t w 8)) 0 0 0 0)) = some 0x40980000) := by decide +kernel

/-- R333: a stack cap of 40.6 W gives 482 units. -/
theorem test_byte_cap : byteCap 406 = 482 ∧ byteCap 65535 = 0xFFFF := by decide +kernel

/-- R280's worked tile: four parts of 16 bytes; columns 16 to 19 of rows 8 and 9 are read, the rest is filled with zero. -/
theorem test_xfer_parts :
    (xferParts ⟨false, 0x30000, 2, 2, [20, 10], [40], [8, 4]⟩ ⟨true, 0xFE000100, 2, 2, [8, 4], [16], [0, 0]⟩ [16, 8] [0, 0]).map
      (fun p => (p.length, p.head?.map (fun e => (e.dst, e.src)), p.filterMap (fun e => e.src))) =
    [(8, some (0x00, some 0x160), [0x160, 0x162, 0x164, 0x166]), (8, some (0x10, some 0x188), [0x188, 0x18A, 0x18C, 0x18E]),
      (8, some (0x20, none), []), (8, some (0x30, none), [])] := by decide +kernel

/-! ## Witnesses of waits, of clauses that complete, and of entries taken -/

/-- AddressPhase: a page that core 0's die is placing, whose translation the core does not hold; once it holds one it does not wait. -/
def placingPage : State := modMarker { mapped demo 0x500316 with seqs := [fill false] } 5 (fun m => { m with busy := [1] })
theorem witness_fetch_waits : fetchWaits placingPage 0 0 0 = true ∧ fetchWaits (mapped demo 0x500316) 0 0 0 = false ∧
    fetchWaits (modCore placingPage 0 (fun k => { k with tstore := [⟨0, 0, good, 0⟩] })) 0 0 0 = false := by decide +kernel

/-- BundleFormationAndAcceptance: a legal header that is a regroup point, with threads that have passed it and that have not; a word
fetch that waits for an acquire of its threads, and one that does not. -/
theorem witness_regroup_turn :
    (let w : Word := 0xA7F80001 ||| (({ (Header.ofWord 0xA7F80001) with rg := true } : Header).toWord)
     let b : Form := ⟨pcImage 0 0x20, 1, false, false⟩
     (Header.ofWord w).rg = true ∧ (Header.ofWord w).legal = true ∧ lateArrivals (twoThreads 0) b w = 1 ∧
     lateArrivals (twoThreads 0) b 0xA7F80001 = 0 ∧
     lateArrivals { twoThreads 0 with threads := [(0, { Thread.empty with pc := pcImage 0 0x20, live := true, through := true })] } b w = 0) ∧
    (fetchHeld demo 0 63 1 0 = false ∧
      fetchHeld (withOp demo { memOp .load 4 [] with acq := true, lf := 63, lanes := 1 }) 0 63 1 0 = true) ∧
    wordsReady demo 0 63 ⟨0, 1, 0xA7F80101, 0, false, false⟩ = true := by decide +kernel

/-- PlacementOfClusters: a move that has begun and whose time has come, and one at work whose lane frame rests. -/
theorem witness_moves :
    (let p : Compaction := ⟨[(63, 0)], true, 0, 0, 0, 0⟩
     let s := modCore demo 0 (fun k => modC k (fun y => { y with compaction := some p }))
     (Machine.core s 0).c.compaction = some p ∧ p.until_ ≤ s.cycle ∧ (laneFrame s 0 63).isSome = true ∧ coreHeld s 0 = false) ∧
    ((frame (framed 0) (nearKey 0 0)).valid = true ∧ (frame demo (nearKey 0 0)).valid = false) := by decide +kernel

/-- WorkgroupLifetime: a finished workgroup whose launch owes no add. -/
theorem witness_finish_without_add :
    (let s := modLF { demo with launches := demo.launches.map (fun x => { x with x := 2 }) } 0 63
        (fun f => modThread { f with clause := none } 0 (fun t => { t with live := false }))
     (workgroup s 0).map (fun w => (wgFinished s w, owedAdds (finishWG s w))) = some (true, [])) := by decide +kernel

/-- QueueEvents: a queue whose entry at HEAD carries its sequence number and a launch record that passes the checks, read from HBM. -/
theorem witness_entry_taken :
    (let s0 := mapped demo 0x500316
     let b : List Byte := List.replicate 16 0 ++ leBytes 4 1 ++ leBytes 4 1 ++ leBytes 4 1 ++ leBytes 2 1 ++ leBytes 2 0x101 ++ List.replicate 32 0
     let s : State := { s0 with ctxtab := some 0x6000, queues := [(3, queued4 0 1)], mem := Mem.write s0.mem 0x5040 b }
     let x := queue s 3
     queueWorks x = true ∧ x.refetchAt = none ∧ x.inHost = false ∧ (queueDesc s x).isSome = true ∧ queueUsable s x = true ∧
     (match schedRead s x.ctx x.entryAt 256 with
       | (.bytes e, s1) => decide (field e 0 4 = x.head.toNat) && decide (entryCode s1 x.ctx e = none)
       | _ => false) = true) := by decide +kernel

/-- HostEvents: links that face a host and that do not; ranges that are held at their slices and that are not. -/
theorem witness_host_held :
    hostFacing 1 = true ∧ hostFacing 2 = false ∧ hostHeld (mapped demo 0) (rangePages 0 64) true = false ∧
    hostHeld (modMarker demo 0 (fun m => { m with offered := true })) (rangePages 0 64) false = true ∧
    hostHeld (modMarker demo 0 (fun m => { m with busy := [4] })) (rangePages 0 64) true = true ∧
    hostHeld (modMarker demo 0 (fun m => { m with busy := [4] })) (rangePages 0 64) false = false := by decide +kernel

/-- MastAccessesAndExceptions: Masts that run and that do not; an image that is mapped, with a checked block. -/
theorem witness_masts_run :
    mastUp demo 0 = true ∧ mastUp demo 1024 = false ∧ mastUp { demo with dieState := List.replicate 16 0 } 0 = false ∧
    (let s : State := { mastReady with
       dieState := List.replicate 16 2, boot := ⟨0, 0, true, List.replicate 96 0, [0], 0, [], 0x40⟩, booting := [(0, 2)] }
     accessMode (Machine.mast s 0) 0 = .m ∧ bootMapped s 0 0x10 8 = true ∧ bootMapped s 0 0x20000 8 = false ∧
     (bootRead s 0x10 8).1.isSome = true ∧ issueAllows s 0 0x10 8 0 = true ∧ mastUp s 0 = true) ∧
    bootMapped mastReady 0 0x10 8 = false := by decide +kernel

/-- MailboxTableCommands: a key slot under which an access is in flight. -/
theorem witness_key_busy :
    keyBusy { demo with keySlots := [(0, [5])], hwrites := [{ hbmWrite 1 none false 0 (.req 0 1) with key := 6 }] } 0 = true ∧
    (begun demo [(0, 5)]).mbxResp = 0x80000000 := by decide +kernel

/-- R313's FENCE and an add run by the Mast's program counter: ADDI x5, x0, 7 at address 0x10 of the mapped page. -/
theorem test_mast_runs_addi :
    (let s0 := modMast (mapped demo 0x500336) 0 (fun m => { m with mode := .m, pc := 0x10 })
     let s : State := { s0 with mem := Mem.write s0.mem 0x5010 (leBytes 4 0x00700293) }
     match exec (.mastLoadStore 0 .fetch 4 0x10 0 0) s with
     | .next t => decide ((Machine.mast t 0).x.getD 5 0 = 7 ∧ (Machine.mast t 0).pc = 0x14)
     | _ => false) = true := by decide +kernel

/-- RISC-V: C.LI x8, −1 (0x547D), a compressed word; an illegal one (0x0000) takes exception 2 to M mode. -/
theorem test_mast_compressed :
    (let s (h : Nat) : State :=
       let s0 := modMast (mapped demo 0x500336) 0 (fun m => { m with mode := .m, pc := 0x12, mtvec := 0x100 })
       { s0 with mem := Mem.write s0.mem 0x5012 (leBytes 2 h) }
     (match exec (.mastLoadStore 0 .fetch 2 0x12 0 0) (s 0x547D) with
      | .next t => decide ((Machine.mast t 0).x.getD 8 0 = 0xFFFFFFFFFFFFFFFF ∧ (Machine.mast t 0).pc = 0x14)
      | _ => false) = true ∧
     (match exec (.mastLoadStore 0 .fetch 2 0x12 0 0) (s 0) with
      | .next t => decide ((Machine.mast t 0).pc = 0x100 ∧ (Machine.mast t 0).mcause = 2 ∧ (Machine.mast t 0).mepc = 0x12)
      | _ => false) = true) := by decide +kernel

/-- R344: a host's write of its own memory stands there when its cycle comes, and not before. -/
theorem test_host_store :
    (let s : State := { State.reset with hostStores := [⟨3, 0x40, [7]⟩] }
     Mem.byte (hostMemoryWrites s).mem (Config.hostBase + 0x40) = 0 ∧ (hostMemoryWrites s).hostStores.length = 1 ∧
     Mem.byte (hostMemoryWrites { s with cycle := 3 }).mem (Config.hostBase + 0x40) = 7) := by decide +kernel

/-- R202: word 16 of rank 3's scratchpad is 0xFE60_0040; R208: at a rank whose workgroup has finished nothing is stored (entry 78). -/
theorem test_scratchpad_gone :
    (clusterAddr State.reset (goneNum 3 64) = 0xFE600040 ∧ storeUnder State.reset 0 (goneNum 3 64) [(0, 7)] = State.reset) := by
  decide +kernel

/-- R63, R396: MJBUD reads as written, though RATE waits for the next window. -/
theorem test_jbud_reads_back :
    (readKalyel (writeJbud State.reset 0 0xFFFFFFFF) 0 0x7C1).map (fun p => p.1) = some 0x00FF0FFF := by decide +kernel

/-- RoundingChoosesTheRepresentableValue: finite operands, 1.5, 2 and 2^-149, whose sum, difference, product and fused sums are not 0. -/
theorem witness_finite_operands :
    realOf fp32 0x3FC00000 = some (3 / 2) ∧ realOf fp32 0x40000000 = some 2 ∧ realOf fp32 1 ≠ none ∧ realOf fp32 0x7F800000 = none ∧
    ((3 / 2 : Rat) + 2 ≠ 0 ∧ (3 / 2 : Rat) - 2 ≠ 0 ∧ (3 / 2 : Rat) * 2 ≠ 0 ∧ (3 / 2 : Rat) * 2 + 2 ≠ 0 ∧ (3 / 2 : Rat) * 2 - 2 ≠ 0) := by
  decide +kernel

/-- HomeAccessEvents: an access from inside a fenced die and one from outside; a group that is not full. -/
theorem witness_fenced :
    (let s : State := { framed 0 with dieState := (List.replicate 16 4).set 0 5 }
     entFenced s 0 nearEnt = false ∧ entFenced s 64 nearEnt = true ∧ entFenced (framed 0) 64 nearEnt = false) ∧
    groupFull demo (request (.atomic .add 1 0 4) (.virt 0 0) .queued none) good = false ∧
    remappedSince (framed 0) (entFrame nearEnt) 0 = false ∧ (memOp .load 16 []).kind = .load ∧ (memOp .load 16 []).width = 16 := by decide +kernel

/-- PageRequestEvents: no earlier request of the page, no entry that waits for a write, and blocks that the channel takes, all and few. -/
theorem witness_page_steps :
    cameFirst demo (pageReq 0 true 0) = false ∧ entryPending demo 0 0 = false ∧ 32 ≤ blocksOpen demo 5 ∧ (pageReq 2 false 0).reads = 0 ∧
    ((pageReq 2 false 0).fired = false ∧ (pageReq 2 false 0).step ≠ 9) := by decide +kernel

/-- CallsMessagesAndWindow: a call that is written, with the Mast's write on its lane and applied; a die with a fence and one without. -/
theorem witness_call_written :
    (let s := modLF calling 0 63 (fun f => { f with call := some ⟨5, 1, true⟩, callSlot := some 0 })
     (laneFrame s 0 63).map (fun f => (f.call.map (fun h => h.written), f.callSlot)) = some (some true, some 0) ∧ mastWriting s 0 = false ∧
     mastWriting { s with hwrites := [hbmWrite 1 (some 0) false 0 (.mast 0)] } 0 = true) ∧
    (dieFenced demo 0 = false ∧ dieFenced { demo with dieState := List.replicate 16 5 } 0 = true ∧ dieGone demo 0 = false) := by decide +kernel

/-- QueueEvents: two gang launches of one queue before their deadlines, one that a member has acknowledged and one that it has not. -/
theorem witness_open_gangs :
    (let a : Gang := ⟨3, 0, 100, [1], false, 0, 0⟩
     let s : State := { demo with gangs := [(7, a), (9, { a with acks := [] })], groups := [(0, [BitVec.ofNat 64 (2 ^ 31 + 2), 0, 0, 0])] }
     openGangs s 3 = [(7, a), (9, { a with acks := [] })] ∧ a.acks.contains 1 = true ∧ 1 < groupSize s 0 ∧ s.cycle ≤ 100 ∧
     (queue s 3).gangArm = none ∧ openGangs { s with gangs := [(7, { a with past := true })] } 3 = []) := by decide +kernel

/-- MailboxTableCommands: a kept summary, with room for its copy. -/
theorem witness_kept_summary :
    (let s : State := { demo with summaries := [⟨List.replicate 136 7, 1⟩] }
     (s.summaries[0]?).map (fun x => (x.bytes.length, x.slot)) = some (136, 1) ∧ hbmRange s 0x1000 136 = true ∧ hbmHeld s 0x1000 136 = false ∧
     hbmTracked s 0x1000 136 = []) := by decide +kernel

/-- ResetAndPowerEvents: an open boot window whose block finds no page in its frames, and one that does; dies whose first Mast alone has
started, whose Masts all have, and in each state before. -/
theorem witness_boot_window :
    (let s : State := { demo with
       boot := ⟨0, 0, true, List.replicate 96 0, [0], 0, [], 0x40⟩, dieState := List.replicate 16 2, booting := [(0, 2), (1, 1)] }
     windowOpen s = true ∧ dieGone s 0 = false ∧ (blockFrames 1).any (fun k => (frame s k).valid || (frame s k).busy) = false ∧
     mayEnterState s 1 2 = true ∧ mayEnterState s 0 2 = false ∧ mayEnterState s 0 3 = true ∧
     mayEnterState { s with dieState := (List.replicate 16 2).set 3 0 } 3 2 = true ∧
     mayEnterState { s with dieState := (List.replicate 16 2).set 3 6 } 3 3 = true) ∧
    mastUp { demo with dieState := List.replicate 16 2, booting := [(0, 1)] } 1 = false := by decide +kernel

end Sys2Proof.Tests
end

section
/-!
PROOFS. Chapter 08, integer and address words. A word delivers what its shared operation (`alu1`, `alu2`, …) computes, so each clause of
an obligation is one `delivers_…` rule applied to an equation between the model's function and the manual's.
-/
namespace Sys2Proof.Proofs
open Sys2Proof Sys2Proof.Machine Sys2Proof.Spec

/-! ## Words that deliver a value: one rule per shared operation -/

/-- A word whose meaning is `aluWord` delivers exactly what it reads and computes in each present lane. -/
theorem delivers_aluWord {i : Instr} {v : Value} (hi : ∀ s, exec i s = .next (aluWord s v.lat v.words v.dst v.lane)) :
    Delivers i v := by
  intro s u vals hu hw hv
  rw [hi, aluWord_next hu hw hv]

section
variable {i : Instr} {lat : Nat} {d : BitVec 4} {a b : Src} {c : BitVec 5} {n : BitVec 11}

theorem delivers_alu1 {g h : Word → Word} (hi : ∀ s, exec i s = alu1 s lat d a g) (hg : ∀ x, g x = h x) :
    Delivers i (src1 lat d a h) := by
  obtain rfl : g = h := funext hg
  exact delivers_aluWord hi

theorem delivers_alu2 {g h : Word → Word → Word} (hi : ∀ s, exec i s = alu2 s lat d b a g) (hg : ∀ x y, g x y = h x y) :
    Delivers i (src2 lat d b a h) := by
  obtain rfl : g = h := funext₂ hg
  exact delivers_aluWord hi

theorem delivers_alu3 {g h : Word → Word → Word → Word} (hi : ∀ s, exec i s = alu3 s lat d c b a g)
    (hg : ∀ x y z, g x y z = h x y z) : Delivers i (src3 lat d c b a h) := by
  obtain rfl : g = h := funext₃ hg
  exact delivers_aluWord hi

/-- The model's `imm11` is R175's sign-extended IMM11 by definition. -/
theorem delivers_aluI {g h : Word → Word → Word} (hi : ∀ s, exec i s = aluI s lat d n a g) (hg : ∀ x y, g x y = h x y) :
    Delivers i (srcI lat d n a h) := by
  obtain rfl : g = h := funext₂ hg
  exact delivers_aluWord hi

theorem delivers_aluAll {g : Iss → Nat → Word} (hi : ∀ s, exec i s = aluAll s lat d (fun u => some (g u))) :
    Delivers i (fromBundle lat d g) :=
  delivers_aluWord hi

theorem out64_eq_words64 (x : DWord) : out64 x = words64 x := by
  have lo : x.extractLsb' 0 32 = BitVec.ofNat 32 (x.toNat % 2 ^ 32) := by
    apply BitVec.eq_of_toNat_eq; simp
  have hi : x.extractLsb' 32 32 = BitVec.ofNat 32 (x.toNat / 2 ^ 32) := by
    apply BitVec.eq_of_toNat_eq; simp [Nat.shiftRight_eq_div_pow]
  rw [out64, words64, lo, hi]

theorem delivers_alu64 {g h : DWord → DWord → DWord} (hi : ∀ s, exec i s = alu64 s lat d b a g)
    (hg : ∀ x y, g x y = h x y) : Delivers i (Spec.src64 lat d b a h) := by
  obtain rfl : g = h := funext₂ hg
  simp only [alu64, out64_eq_words64] at hi
  exact delivers_aluWord hi

theorem delivers_aluShift64 {g h : DWord → Word → DWord} (hi : ∀ s, exec i s = aluShift64 s lat d b a g)
    (hg : ∀ x y, g x y = h x y) : Delivers i (srcBy lat d b a h) := by
  obtain rfl : g = h := funext₂ hg
  simp only [aluShift64, out64_eq_words64] at hi
  exact delivers_aluWord hi

theorem delivers_aluWide {g h : Word → Word → DWord} (hi : ∀ s, exec i s = aluWide s lat d b a g)
    (hg : ∀ x y, g x y = h x y) : Delivers i (srcWide lat d b a h) := by
  obtain rfl : g = h := funext₂ hg
  simp only [aluWide, out64_eq_words64] at hi
  exact delivers_aluWord hi

end

/-! ## `wrap` and saturation of exact integers -/

@[simp] theorem wrap_toInt (x : Word) : wrap x.toInt = x := BitVec.ofInt_toInt
@[simp] theorem wrap_natCast (k : Nat) : wrap k = BitVec.ofNat 32 k := BitVec.ofInt_natCast 32 k
@[simp] theorem wrap_uint (x : Word) : wrap (uint x) = x := by simp [uint]
theorem wrap_add (p q : Int) : wrap (p + q) = wrap p + wrap q := BitVec.ofInt_add p q
theorem wrap_mul (p q : Int) : wrap (p * q) = wrap p * wrap q := BitVec.ofInt_mul p q
theorem wrap_neg (p : Int) : wrap (-p) = -wrap p := BitVec.ofInt_neg
theorem wrap_sub (p q : Int) : wrap (p - q) = wrap p - wrap q := by
  rw [Int.sub_eq_add_neg, wrap_add, wrap_neg, BitVec.sub_eq_add_neg]

/-- The model clamps from below first, R110 as the statements write it from above first; the bounds are in order. -/
theorem satS_eq_satSigned (z : Int) : satS z = satSigned z := by
  simp only [satS, satSigned, sat, intMin, intMax]
  congr 1; omega

theorem satZ_eq_satUnsigned (z : Int) : satZ z = satUnsigned z := by
  simp only [satZ, satUnsigned, sat, intMin, intMax]
  congr 1; omega

/-! ## R166: additions, subtractions, multiplications -/

theorem add_eq_wrap (x y : Word) : x + y = wrap (x.toInt + y.toInt) := by simp [wrap_add]
theorem sub_eq_wrap (x y : Word) : x - y = wrap (x.toInt - y.toInt) := by simp [wrap_sub]
theorem mul_eq_wrap (x y : Word) : x * y = wrap (x.toInt * y.toInt) := by simp [wrap_mul]

theorem satAddS_eq (x y : Word) : satAddS x y = satSigned (x.toInt + y.toInt) := satS_eq_satSigned _
theorem satSubS_eq (x y : Word) : satSubS x y = satSigned (x.toInt - y.toInt) := satS_eq_satSigned _
theorem satSubZ_eq (x y : Word) : satSubZ x y = satUnsigned (uint x - uint y) := satZ_eq_satUnsigned _
theorem satAddZ_eq (x y : Word) : satAddZ x y = satUnsigned (uint x + uint y) := by
  rw [satAddZ, satZ_eq_satUnsigned, Nat.cast_add]; rfl

/-- Bits 63:32 of an exact product are the floor of its quotient by 2^32, modulo 2^32. -/
theorem extractHigh_ofInt (z : Int) : (BitVec.ofInt 64 z).extractLsb' 32 32 = wrap (z / 2 ^ 32) := by
  apply BitVec.eq_of_toNat_eq
  simp only [wrap, BitVec.extractLsb'_toNat, BitVec.toNat_ofInt, Nat.shiftRight_eq_div_pow]
  omega

theorem mulWideZ_eq (x y : Word) : mulWideZ x y = BitVec.ofInt 64 (uint x * uint y) := by
  rw [mulWideZ, ← BitVec.ofInt_natCast, Nat.cast_mul]; rfl

theorem mulHiS_eq (x y : Word) : mulHiS x y = wrap (x.toInt * y.toInt / 2 ^ 32) := extractHigh_ofInt _
theorem mulHiZ_eq (x y : Word) : mulHiZ x y = wrap (uint x * uint y / 2 ^ 32) := by
  rw [mulHiZ, mulWideZ_eq, extractHigh_ofInt]

/-! ## R168: minimum, maximum, absolute value, negation -/

/-- The smaller of two words under any reading `v` that `wrap` undoes. -/
theorem ite_lt_eq_wrap_min {v : Word → Int} (hv : ∀ z, wrap (v z) = z) (x y : Word) :
    (if v x < v y then x else y) = wrap (min (v x) (v y)) := by
  split <;> rename_i h
  · rw [min_eq_left h.le, hv]
  · rw [min_eq_right (not_lt.mp h), hv]

/-- The greater of two words under any reading `v` that `wrap` undoes. -/
theorem ite_lt_eq_wrap_max {v : Word → Int} (hv : ∀ z, wrap (v z) = z) (x y : Word) :
    (if v y < v x then x else y) = wrap (max (v x) (v y)) := by
  split <;> rename_i h
  · rw [max_eq_left h.le, hv]
  · rw [max_eq_right (not_lt.mp h), hv]

theorem minS_eq (x y : Word) : minS x y = wrap (min x.toInt y.toInt) := ite_lt_eq_wrap_min wrap_toInt x y
theorem maxS_eq (x y : Word) : maxS x y = wrap (max x.toInt y.toInt) := ite_lt_eq_wrap_max wrap_toInt x y
theorem minZ_eq (x y : Word) : minZ x y = wrap (min (uint x) (uint y)) := by
  simpa only [minZ, uint, Nat.cast_lt] using ite_lt_eq_wrap_min wrap_uint x y
theorem maxZ_eq (x y : Word) : maxZ x y = wrap (max (uint x) (uint y)) := by
  simpa only [maxZ, uint, Nat.cast_lt] using ite_lt_eq_wrap_max wrap_uint x y

theorem absS_eq (x : Word) : absS x = wrap x.toInt.natAbs := by
  unfold absS
  split <;> rename_i h
  · rw [Int.ofNat_natAbs_of_nonpos h.le, wrap_neg, wrap_toInt]
  · rw [Int.natAbs_of_nonneg (not_lt.mp h), wrap_toInt]

theorem neg_eq_wrap (x : Word) : -x = wrap (-x.toInt) := by simp [wrap_neg]

/-! ## R167: division -/

/-- The corner −2^31 ÷ −1 needs no case in the model: its quotient 2^31 wraps to −2^31. -/
theorem divS_eq (x y : Word) : divS x y =
    if y = 0 then 0xFFFFFFFF else if x = 0x80000000 ∧ y = 0xFFFFFFFF then 0x80000000 else wrap (x.toInt.tdiv y.toInt) := by
  unfold divS
  split
  · decide
  · split
    · rename_i h
      obtain ⟨rfl, rfl⟩ := h
      decide
    · rfl

theorem remS_eq (x y : Word) : remS x y =
    if y = 0 then x else if x = 0x80000000 ∧ y = 0xFFFFFFFF then 0
    else wrap (x.toInt - x.toInt.tdiv y.toInt * y.toInt) := by
  unfold remS
  split
  · rfl
  · split
    · rename_i h
      obtain ⟨rfl, rfl⟩ := h
      decide
    · rw [Int.tmod_def, Int.mul_comm, wrap]

theorem divZ_eq (x y : Word) : divZ x y = if y = 0 then 0xFFFFFFFF else wrap (uint x / uint y) := by
  unfold divZ
  split
  · decide
  · rw [← wrap_natCast, Int.natCast_ediv]; rfl

theorem remZ_eq (x y : Word) : remZ x y = if y = 0 then x else wrap (uint x - uint x / uint y * uint y) := by
  unfold remZ
  split
  · rfl
  · rw [← wrap_natCast, Int.natCast_emod, Int.emod_def, Int.mul_comm]; rfl

/-- Settles O1: each word is its shared operation at the manual's function (R166 to R168). -/
theorem integerArithmetic : Obligations.IntegerArithmetic :=
  ⟨fun d b a =>
    ⟨delivers_alu2 (exec_addS32 d b a) add_eq_wrap,
     delivers_alu2 (exec_addS32Sat d b a) satAddS_eq,
     delivers_alu2 (exec_addZ32Sat d b a) satAddZ_eq,
     delivers_alu2 (exec_subS32 d b a) sub_eq_wrap,
     delivers_alu2 (exec_subS32Sat d b a) satSubS_eq,
     delivers_alu2 (exec_subZ32Sat d b a) satSubZ_eq,
     delivers_alu2 (exec_mulS32 d b a) mul_eq_wrap,
     delivers_alu2 (exec_mulhiS32 d b a) mulHiS_eq,
     delivers_alu2 (exec_mulhiZ32 d b a) mulHiZ_eq,
     delivers_alu2 (exec_minS32 d b a) minS_eq,
     delivers_alu2 (exec_maxS32 d b a) maxS_eq,
     delivers_alu2 (exec_minZ32 d b a) minZ_eq,
     delivers_alu2 (exec_maxZ32 d b a) maxZ_eq,
     delivers_alu1 (exec_absS32 d a) absS_eq,
     delivers_alu1 (exec_negS32 d a) neg_eq_wrap,
     delivers_alu1 (exec_movB32 d a) fun _ => rfl⟩,
   fun d b a =>
    ⟨delivers_alu2 (exec_divS32 d b a) divS_eq,
     delivers_alu2 (exec_divZ32 d b a) divZ_eq,
     delivers_alu2 (exec_remS32 d b a) remS_eq,
     delivers_alu2 (exec_remZ32 d b a) remZ_eq⟩⟩

/-! ## R170: shifts and rotation -/

theorem shiftLeft_eq_ofNat {w : Nat} (x : BitVec w) (k : Nat) : x <<< k = BitVec.ofNat w (x.toNat * 2 ^ k) := by
  apply BitVec.eq_of_toNat_eq
  rw [BitVec.toNat_shiftLeft, Nat.shiftLeft_eq, BitVec.toNat_ofNat]

theorem ushiftRight_eq_ofNat {w : Nat} (x : BitVec w) (k : Nat) : x >>> k = BitVec.ofNat w (x.toNat / 2 ^ k) := by
  apply BitVec.eq_of_toNat_eq
  have hlt : x.toNat / 2 ^ k < 2 ^ w := (Nat.div_le_self _ _).trans_lt x.isLt
  rw [BitVec.toNat_ushiftRight, Nat.shiftRight_eq_div_pow, BitVec.toNat_ofNat, Nat.mod_eq_of_lt hlt]

theorem sshiftRight_eq_ofInt {w : Nat} (x : BitVec w) (k : Nat) : x.sshiftRight k = BitVec.ofInt w (x.toInt / 2 ^ k) := by
  rw [BitVec.sshiftRight_eq, Int.shiftRight_eq_div_pow, Nat.cast_pow]; rfl

theorem shiftLeft_eq_wrap (x : Word) (k : Nat) : x <<< k = wrap (uint x * 2 ^ k) := by
  rw [shiftLeft_eq_ofNat, ← wrap_natCast, Nat.cast_mul, Nat.cast_pow]; rfl

theorem ushiftRight_eq_wrap (x : Word) (k : Nat) : x >>> k = wrap (uint x / 2 ^ k) := by
  rw [ushiftRight_eq_ofNat, ← wrap_natCast, Int.natCast_ediv, Nat.cast_pow]; rfl

theorem shl32_eq (x y : Word) : shl32 x y = if 32 ≤ y.toNat then 0 else wrap (uint x * 2 ^ y.toNat) := by
  rw [shl32, shiftLeft_eq_wrap]

theorem shrZ32_eq (x y : Word) : shrZ32 x y = if 32 ≤ y.toNat then 0 else wrap (uint x / 2 ^ y.toNat) := by
  rw [shrZ32, ushiftRight_eq_wrap]

theorem shrS32_eq (x y : Word) : shrS32 x y =
    if 32 ≤ y.toNat then (if x.toInt < 0 then 0xFFFFFFFF else 0) else wrap (x.toInt / 2 ^ y.toNat) := by
  rw [shrS32, sshiftRight_eq_ofInt]; rfl

theorem shl64_eq (x : DWord) (y : Word) : shl64 x y =
    if 64 ≤ y.toNat then 0 else BitVec.ofNat 64 (x.toNat * 2 ^ y.toNat) := by
  rw [shl64, shiftLeft_eq_ofNat]

theorem shrZ64_eq (x : DWord) (y : Word) : shrZ64 x y =
    if 64 ≤ y.toNat then 0 else BitVec.ofNat 64 (x.toNat / 2 ^ y.toNat) := by
  rw [shrZ64, ushiftRight_eq_ofNat]

theorem shrS64_eq (x : DWord) (y : Word) : shrS64 x y =
    if 64 ≤ y.toNat then (if x.toInt < 0 then BitVec.allOnes 64 else 0) else BitVec.ofInt 64 (x.toInt / 2 ^ y.toNat) := by
  rw [shrS64, sshiftRight_eq_ofInt]

theorem rol32_eq (x y : Word) : rol32 x y = x.rotateLeft (y.toNat % 32) := by
  rw [rol32, BitVec.rotateLeft_def, Nat.mod_mod]

/-! ## R166: sums and differences of 64 bits -/

theorem add64_eq (x y : DWord) : x + y = BitVec.ofNat 64 (x.toNat + y.toNat) :=
  BitVec.eq_of_toNat_eq (by rw [BitVec.toNat_add, BitVec.toNat_ofNat])

theorem sub64_eq (x y : DWord) : x - y = BitVec.ofInt 64 ((x.toNat : Int) - y.toNat) := by
  rw [Int.sub_eq_add_neg, BitVec.ofInt_add, BitVec.ofInt_neg, BitVec.ofInt_natCast, BitVec.ofInt_natCast,
    BitVec.ofNat_toNat, BitVec.ofNat_toNat, BitVec.setWidth_eq, BitVec.setWidth_eq, BitVec.sub_eq_add_neg]

/-! ## R171: bit counts and reversal -/

theorem popCount_eq (x : Word) : popCount x = BitVec.ofNat 32 ((List.range 32).countP (fun i => x.getLsbD i)) := by
  rw [popCount, lanesOf, List.countP_eq_length_filter]

/-- Counting down from `n`, the indices above the highest one that satisfies `p` are those that fail it. -/
theorem length_takeWhile_reverse_range {p : Nat → Bool} {k : Nat} (hk : p k = true) (habove : ∀ j, k < j → p j = false)
    {n : Nat} (hn : k < n) : ((List.range n).reverse.takeWhile (fun j => !p j)).length = n - 1 - k := by
  induction n with
  | zero => omega
  | succ n ih =>
    rw [List.range_succ, List.reverse_append, List.reverse_singleton, List.singleton_append]
    rcases (Nat.le_of_lt_succ hn).eq_or_lt with rfl | hlt
    · simp [hk]
    · simp only [List.takeWhile_cons, habove n hlt, Bool.not_false, if_true, List.length_cons, ih hlt]
      omega

theorem leadingZeros_eq (x : Word) : leadingZeros x = if x = 0 then 32 else BitVec.ofNat 32 (31 - Nat.log2 x.toNat) := by
  split
  · rename_i h; subst h; decide
  · rename_i h
    have h0 : x.toNat ≠ 0 := fun e => h (BitVec.eq_of_toNat_eq e)
    have habove : ∀ j, Nat.log2 x.toNat < j → x.getLsbD j = false :=
      fun j hj => Nat.testBit_lt_two_pow ((Nat.log2_lt h0).mp hj)
    rw [leadingZeros, length_takeWhile_reverse_range (p := fun j => x.getLsbD j) (Nat.testBit_log2 h0) habove
      ((Nat.log2_lt h0).mpr x.isLt)]

/-- Counting up from `m`, the indices below the first one that satisfies `p` are those that fail it. -/
theorem add_length_takeWhile_range' (p : Nat → Bool) (m n : Nat) :
    m + ((List.range' m n).takeWhile (fun j => !p j)).length = ((List.range' m n).find? p).getD (m + n) := by
  induction n generalizing m with
  | zero => simp
  | succ n ih =>
    rw [List.range'_succ, List.takeWhile_cons, List.find?_cons]
    cases p m with
    | true => simp
    | false =>
      rw [show m + (n + 1) = m + 1 + n by omega]
      simp only [Bool.not_false, if_true, List.length_cons, ← ih (m + 1)]
      omega

theorem trailingZeros_eq (x : Word) :
    trailingZeros x = BitVec.ofNat 32 (((List.range 32).find? (fun i => x.getLsbD i)).getD 32) := by
  have h := add_length_takeWhile_range' (fun j => x.getLsbD j) 0 32
  simp only [Nat.zero_add] at h
  rw [trailingZeros, List.range_eq_range', h]

theorem getLsbD_foldl_or_twoPow (l : List Nat) (m : LaneMask) {j : Nat} (hj : j < 32) :
    (l.foldl (fun m i => m ||| BitVec.twoPow 32 i) m).getLsbD j = (m.getLsbD j || decide (j ∈ l)) := by
  induction l generalizing m with
  | nil => simp
  | cons i l ih =>
    have hbit : (BitVec.twoPow 32 i).getLsbD j = decide (j = i) := by
      rw [BitVec.getLsbD_twoPow]; grind
    rw [List.foldl_cons, ih, BitVec.getLsbD_or, hbit, Bool.or_assoc, ← Bool.decide_or]
    simp only [List.mem_cons]

theorem getLsbD_maskOf (l : List Nat) {j : Nat} (hj : j < 32) : (maskOf l).getLsbD j = decide (j ∈ l) := by
  rw [maskOf, getLsbD_foldl_or_twoPow l 0 hj]; simp

theorem mem_lanesOf {m : LaneMask} {j : Nat} : j ∈ lanesOf m ↔ j < 32 ∧ m.getLsbD j = true := by
  simp [lanesOf]

theorem reverseBits_eq (x : Word) : reverseBits x = x.reverse := by
  apply BitVec.eq_of_getLsbD_eq
  intro j hj
  have hmem : j ∈ (lanesOf x).map (fun i => 31 - i) ↔ x.getLsbD (31 - j) = true := by
    simp only [List.mem_map, mem_lanesOf]
    constructor
    · rintro ⟨i, ⟨hi, hx⟩, rfl⟩
      rwa [show 31 - (31 - i) = i by omega]
    · exact fun hx => ⟨31 - j, ⟨by omega, hx⟩, by omega⟩
  rw [reverseBits, getLsbD_maskOf _ hj, BitVec.getLsbD_reverse, BitVec.getMsbD_eq_getLsbD]
  simp [hmem, hj]

/-! ## R172: bit fields -/

theorem fieldPos_eq (y : Word) : fieldPos y = fieldAt y := rfl

theorem fieldLen_eq (y : Word) : fieldLen y = fieldWidth y := by
  rw [fieldLen, fieldWidth, fieldPos_eq, bits, Nat.shiftRight_eq_div_pow]; rfl

theorem fieldZ_eq (x y : Word) : fieldZ x y = wrap (fieldBits x y) := by
  rw [fieldZ, fieldPos_eq, fieldLen_eq, wrap_natCast, fieldBits]

theorem fieldS_eq (x y : Word) : fieldS x y =
    if fieldWidth y = 0 then 0
    else if 2 ^ (fieldWidth y - 1) ≤ fieldBits x y then wrap ((fieldBits x y : Int) - 2 ^ fieldWidth y)
    else wrap (fieldBits x y) := by
  have htop : ∀ w f : Nat, BitVec.ofInt 32 (toInt w f) =
      if 2 ^ (w - 1) ≤ f % 2 ^ w then wrap ((f % 2 ^ w : Nat) - 2 ^ w) else wrap (f % 2 ^ w : Nat) := by
    intro w f
    simp only [toInt, ← not_lt, ite_not, wrap, Nat.cast_pow, Nat.cast_ofNat]
    split <;> rfl
  rw [fieldS, fieldPos_eq, fieldLen_eq, htop, fieldBits]

/-- Settles O2: each word is its shared operation at the manual's function (R166, R169 to R172). -/
theorem logicShiftsAndWideForms : Obligations.LogicShiftsAndWideForms :=
  ⟨fun d b a =>
    ⟨delivers_alu2 (exec_andB32 d b a) fun _ _ => rfl,
     delivers_alu2 (exec_orB32 d b a) fun _ _ => rfl,
     delivers_alu2 (exec_xorB32 d b a) fun _ _ => rfl,
     delivers_alu2 (exec_andnB32 d b a) fun _ _ => rfl,
     delivers_alu1 (exec_notB32 d a) fun _ => rfl,
     delivers_alu2 (exec_shlB32 d b a) shl32_eq,
     delivers_alu2 (exec_shrZ32 d b a) shrZ32_eq,
     delivers_alu2 (exec_shrS32 d b a) shrS32_eq,
     delivers_alu2 (exec_rolB32 d b a) rol32_eq,
     delivers_alu1 (exec_popcB32 d a) popCount_eq,
     delivers_alu1 (exec_clzB32 d a) leadingZeros_eq,
     delivers_alu1 (exec_ctzB32 d a) trailingZeros_eq,
     delivers_alu1 (exec_brevB32 d a) reverseBits_eq,
     delivers_alu2 (exec_bfxS32 d b a) fieldS_eq,
     delivers_alu2 (exec_bfxZ32 d b a) fieldZ_eq⟩,
   fun d b a =>
    ⟨delivers_alu64 (exec_addB64 d b a) add64_eq,
     delivers_alu64 (exec_subB64 d b a) sub64_eq,
     delivers_aluWide (exec_mulwS32 d b a) fun _ _ => rfl,
     delivers_aluWide (exec_mulwZ32 d b a) mulWideZ_eq,
     delivers_aluShift64 (exec_shlB64 d b a) shl64_eq,
     delivers_aluShift64 (exec_shrZ64 d b a) shrZ64_eq,
     delivers_aluShift64 (exec_shrS64 d b a) shrS64_eq⟩⟩

/-! ## R173 to R177: comparisons, selection and immediates -/

/-- An ISET form delivers R173's truth value of whatever proposition its condition decides. -/
theorem iset_eq_truth {k : ICond} {x y : Word} {P : Prop} [Decidable P] (h : icondHolds k x y = decide P) :
    iset k x y = truth P := by
  rw [iset, h, truth]
  simp only [decide_eq_true_eq]

theorem iset_eq (x y : Word) : iset .eq x y = truth (x = y) := iset_eq_truth rfl
theorem iset_ne (x y : Word) : iset .ne x y = truth (x ≠ y) := iset_eq_truth rfl
theorem iset_ltS (x y : Word) : iset .ltS x y = truth (x.toInt < y.toInt) := iset_eq_truth rfl
theorem iset_leS (x y : Word) : iset .leS x y = truth (x.toInt ≤ y.toInt) := iset_eq_truth rfl
theorem iset_gtS (x y : Word) : iset .gtS x y = truth (x.toInt > y.toInt) := iset_eq_truth rfl
theorem iset_geS (x y : Word) : iset .geS x y = truth (x.toInt ≥ y.toInt) := iset_eq_truth rfl
theorem iset_ltZ (x y : Word) : iset .ltZ x y = truth (x.toNat < y.toNat) := iset_eq_truth rfl
theorem iset_leZ (x y : Word) : iset .leZ x y = truth (x.toNat ≤ y.toNat) := iset_eq_truth rfl
theorem iset_gtZ (x y : Word) : iset .gtZ x y = truth (x.toNat > y.toNat) := iset_eq_truth rfl
theorem iset_geZ (x y : Word) : iset .geZ x y = truth (x.toNat ≥ y.toNat) := iset_eq_truth rfl

/-- The lane function of SEL, whose choice the model writes on `q ≠ 0` and R174's clause on `q = 0`. -/
theorem delivers_selB32 (d : BitVec 4) (b a : Src) : Delivers (.selB32 d b a)
    ⟨4, 1, d, fun u i => (readAge (thread u.f i) 0).bind (fun q =>
      (read32 u a i).bind (fun x => (read32 u b i).map (fun y => [if q = 0 then y else x])))⟩ :=
  delivers_aluWord fun s => by simp only [exec_selB32, execSelB32, out32, ite_not]

/-- Settles O3: each word is its shared operation at the manual's function (R173 to R177). -/
theorem compareSelectAndImmediates : Obligations.CompareSelectAndImmediates :=
  ⟨fun d b a =>
    ⟨delivers_alu2 (exec_isetEqB32 d b a) iset_eq,
     delivers_alu2 (exec_isetNeB32 d b a) iset_ne,
     delivers_alu2 (exec_isetLtS32 d b a) iset_ltS,
     delivers_alu2 (exec_isetLeS32 d b a) iset_leS,
     delivers_alu2 (exec_isetGtS32 d b a) iset_gtS,
     delivers_alu2 (exec_isetGeS32 d b a) iset_geS,
     delivers_alu2 (exec_isetLtZ32 d b a) iset_ltZ,
     delivers_alu2 (exec_isetLeZ32 d b a) iset_leZ,
     delivers_alu2 (exec_isetGtZ32 d b a) iset_gtZ,
     delivers_alu2 (exec_isetGeZ32 d b a) iset_geZ,
     delivers_selB32 d b a⟩,
   fun d n a =>
    ⟨delivers_aluI (exec_addS32Imm d n a) add_eq_wrap,
     delivers_aluI (exec_addS32SatImm d n a) satAddS_eq,
     delivers_aluI (exec_mulS32Imm d n a) mul_eq_wrap,
     delivers_aluI (exec_andB32Imm d n a) fun _ _ => rfl,
     delivers_aluI (exec_orB32Imm d n a) fun _ _ => rfl,
     delivers_aluI (exec_xorB32Imm d n a) fun _ _ => rfl,
     delivers_aluI (exec_shlB32Imm d n a) shl32_eq,
     delivers_aluI (exec_shrZ32Imm d n a) shrZ32_eq,
     delivers_aluI (exec_shrS32Imm d n a) shrS32_eq,
     delivers_aluI (exec_minS32Imm d n a) minS_eq,
     delivers_aluI (exec_maxS32Imm d n a) maxS_eq,
     delivers_aluAll (exec_movB32Imm d n),
     delivers_aluAll (exec_adr d n),
     delivers_aluI (exec_isetEqB32Imm d n a) iset_eq,
     delivers_aluI (exec_isetNeB32Imm d n a) iset_ne,
     delivers_aluI (exec_isetLtS32Imm d n a) iset_ltS,
     delivers_aluI (exec_isetLeS32Imm d n a) iset_leS,
     delivers_aluI (exec_isetGtS32Imm d n a) iset_gtS,
     delivers_aluI (exec_isetGeS32Imm d n a) iset_geS,
     delivers_aluI (exec_isetLtZ32Imm d n a) iset_ltZ,
     delivers_aluI (exec_isetLeZ32Imm d n a) iset_leZ,
     delivers_aluI (exec_isetGtZ32Imm d n a) iset_gtZ,
     delivers_aluI (exec_isetGeZ32Imm d n a) iset_geZ⟩,
   fun n => ⟨delivers_aluAll (exec_const n), delivers_aluAll (exec_consthi n)⟩⟩

/-! ## R178, R179 and R191: three-source words -/

theorem madS_eq (x y z : Word) : madS x y z = satSigned (x.toInt * y.toInt + z.toInt) := satS_eq_satSigned _

theorem madZ_eq (x y z : Word) : madZ x y z = satUnsigned (uint x * uint y + uint z) := by
  rw [madZ, satZ_eq_satUnsigned, Nat.cast_add, Nat.cast_mul]; rfl

theorem shladd_eq (x y z : Word) : x <<< (z.toNat % 32) + y = wrap (uint x * 2 ^ (z.toNat % 32) + uint y) := by
  rw [wrap_add, wrap_uint, shiftLeft_eq_wrap]

/-- Settles O4: each word is its shared operation at the manual's function (R178, R179, R191). -/
theorem threeSourceForms : Obligations.ThreeSourceForms := fun d c b a =>
  ⟨delivers_alu3 (exec_imadS32 d c b a) madS_eq,
   delivers_alu3 (exec_imadZ32 d c b a) madZ_eq,
   delivers_alu3 (exec_shladd d c b a) shladd_eq,
   delivers_alu3 (exec_fmaF32 d c b a) fun _ _ _ => rfl,
   delivers_alu3 (exec_fmsF32 d c b a) fun _ _ _ => rfl,
   delivers_alu3 (exec_fmaF16 d c b a) fun _ _ _ => rfl,
   delivers_alu3 (exec_fmaBf16x2 d c b a) fun _ _ _ => rfl,
   delivers_alu3 (exec_fmaF16x2 d c b a) fun _ _ _ => rfl⟩

end Sys2Proof.Proofs
end

section
/-!
PROOFS. The encoding: fields packed and cut, words and their formats, and the opcode map read in both directions.
-/
namespace Sys2Proof.Proofs
open Sys2Proof

/-! ## Fields packed and cut -/

@[simp] theorem src_pack (a : Src) : src a.pack = a := by
  obtain ⟨p, s⟩ := a
  simp only [src, Src.pack, Src.mk.injEq]
  exact ⟨BitVec.extractLsb'_append_eq_left, BitVec.extractLsb'_append_eq_right⟩

@[simp] theorem pack_src (v : BitVec 9) : (src v).pack = v := by
  simp only [src, Src.pack]
  exact (BitVec.extractLsb'_append_extractLsb'_eq_extractLsb' rfl).trans BitVec.extractLsb'_eq_self

@[simp] theorem side_code (f : Side) : side f.code = f := by cases f <;> rfl
@[simp] theorem code_side (v : BitVec 1) : (side v).code = v := by revert v; decide

section
variable (c : BitVec 3) (f : BitVec 1) (b : BitVec 5)

@[simp] theorem scopeBits_modField : scopeBits (modField c f b) = c := by
  simp (disch := omega) only [scopeBits, modField, BitVec.extractLsb'_append_eq_of_le]
  exact BitVec.extractLsb'_eq_self

@[simp] theorem fsOf_modField : fsOf (modField c f b) = f := by
  simp (disch := omega) only [fsOf, modField, BitVec.extractLsb'_append_eq_of_le, BitVec.extractLsb'_append_eq_of_add_le]
  exact BitVec.extractLsb'_eq_self

@[simp] theorem selOf_modField : selOf (modField c f b) = b := by
  simp (disch := omega) only [selOf, modField, BitVec.extractLsb'_append_eq_of_add_le]
  exact BitVec.extractLsb'_eq_self

end

theorem modField_fields (sb : BitVec 9) : modField (scopeBits sb) (fsOf sb) (selOf sb) = sb := by
  simp (disch := rfl) only [modField, scopeBits, fsOf, selOf, BitVec.extractLsb'_append_extractLsb'_eq_extractLsb']
  exact BitVec.extractLsb'_eq_self

@[simp] theorem intTy_code (t : IntTy) : intTy t.code = some t := by cases t <;> rfl

theorem code_of_intTy {sb : BitVec 9} {t : IntTy} (h : intTy sb = some t) : t.code = sb := by
  unfold intTy at h
  split at h <;> cases h <;> simp_all [IntTy.code, ← BitVec.toNat_inj]

@[simp] theorem scope_modField (c : Scope) (f : BitVec 1) (b : BitVec 5) : scope (modField c.code f b) = some c := by
  have h : (modField c.code f b).extractLsb' 6 3 = c.code := scopeBits_modField _ _ _
  rw [scope, h]; cases c <;> rfl

theorem code_of_scope {sb : BitVec 9} {c : Scope} (h : scope sb = some c) : c.code = scopeBits sb := by
  unfold scope at h
  split at h <;> cases h <;> simp_all [Scope.code, scopeBits, ← BitVec.toNat_inj]

@[simp] theorem path_code (p : Path) : path p.code = some p := by cases p <;> rfl

theorem code_of_path {v : BitVec 3} {p : Path} (h : path v = some p) : p.code = v := by
  unfold path at h
  split at h <;> cases h <;> simp_all [Path.code, ← BitVec.toNat_inj]

/-! ## Words and their formats -/

theorem ofWord_toWord (r : Raw) : Raw.ofWord r.toWord = r := by
  cases r <;>
    simp (disch := omega) only [Raw.toWord, Raw.ofWord, BitVec.extractLsb'_append_eq_of_add_le, BitVec.extractLsb'_append_eq_of_le]
  all_goals simp

/-- A word of no other format leads with the four bits of format B (R138). -/
theorem lead_of_not_others (w : Word) (h1 : w.extractLsb' 31 1 ≠ 0#1) (h2 : w.extractLsb' 30 2 ≠ 2#2)
    (h3 : w.extractLsb' 29 3 ≠ 6#3) (h4 : w.extractLsb' 28 4 ≠ 14#4) : w.extractLsb' 28 4 = 15#4 := by
  simp only [ne_eq, ← BitVec.toNat_inj, BitVec.extractLsb'_toNat, Nat.shiftRight_eq_div_pow, BitVec.toNat_ofNat] at *
  omega

theorem toWord_ofWord (w : Word) : (Raw.ofWord w).toWord = w := by
  unfold Raw.ofWord
  split_ifs with h1 h2 h3 h4 <;> rw [Raw.toWord] <;>
    [rw [← h1]; rw [← h2]; rw [← h3]; rw [← h4]; rw [← lead_of_not_others w h1 h2 h3 h4]]
  all_goals
    simp (disch := rfl) only [BitVec.extractLsb'_append_extractLsb'_eq_extractLsb']
    exact BitVec.extractLsb'_eq_self

/-! ## The opcode map read from an instruction -/

section
variable (d : BitVec 4) (b a : Src) (f : Side) (n : BitVec 5) (c : Scope)

theorem fDba_pack (k : BitVec 4 → Src → Src → Instr) :
    fDba k d b.pack a.pack = .ok (k d b a) := by simp [fDba]
theorem fDa_pack (k : BitVec 4 → Src → Instr) :
    fDa k d 0 a.pack = .ok (k d a) := by simp [fDa, okIf]
theorem fDta_pack (k : BitVec 4 → IntTy → Src → Instr) (t : IntTy) :
    fDta k d t.code a.pack = .ok (k d t a) := by simp [fDta]
theorem fD_pack (k : BitVec 4 → Instr) :
    fD k d 0 0 = .ok (k d) := by simp [fD, okIf]
theorem fA_pack (k : Src → Instr) :
    fA k 0 0 a.pack = .ok (k a) := by simp [fA, okIf]
theorem fFba_pack (k : Side → BitVec 5 → Src → Instr) :
    fFba k 0 (modField 0 f.code n) a.pack = .ok (k f n a) := by simp [fFba, okIf]
theorem fFa_pack (k : Side → Src → Instr) :
    fFa k 0 (modField 0 f.code 0) a.pack = .ok (k f a) := by simp [fFa, okIf]
theorem fDfa_pack (k : BitVec 4 → Side → Src → Instr) :
    fDfa k d (modField 0 f.code 0) a.pack = .ok (k d f a) := by simp [fDfa, okIf]
theorem fDfba_pack (k : BitVec 4 → Side → BitVec 5 → Src → Instr) :
    fDfba k d (modField 0 f.code n) a.pack = .ok (k d f n a) := by simp [fDfba, okIf]
theorem fDcfba_pack (k : BitVec 4 → Scope → Side → BitVec 5 → Src → Instr) :
    fDcfba k d (modField c.code f.code n) a.pack = .ok (k d c f n a) := by simp [fDcfba]
theorem fDcfa_pack (k : BitVec 4 → Scope → Side → Src → Instr) :
    fDcfa k d (modField c.code f.code 0) a.pack = .ok (k d c f a) := by simp [fDcfa, okIf]
theorem fCfba_pack (k : Scope → Side → BitVec 5 → Src → Instr) :
    fCfba k 0 (modField c.code f.code n) a.pack = .ok (k c f n a) := by simp [fCfba, okIf]
theorem fLaneSel_pack (v : BitVec 5) : fLaneSel d b.pack (0#4 ++ v) = .ok (.laneSelB32 d b v) := by
  have h0 : (0#4 ++ v).extractLsb' 5 4 = 0 := BitVec.extractLsb'_append_eq_left
  have h1 : (0#4 ++ v).extractLsb' 0 5 = v := BitVec.extractLsb'_append_eq_right
  simp [fLaneSel, okIf, h0, h1]
theorem fSreg_pack (i : BitVec 9) : fSreg d 0 i = .ok (.sreg d i) := rfl
theorem fRsvSet_pack : fRsvSet d (modField 0 0 n) a.pack = .ok (.rsvSet d n a) := by simp [fRsvSet, okIf]
theorem fFence_pack : fFence 0 (modField c.code 0 0) 0 = .ok (.fence c) := by simp [fFence, okIf]
theorem fFenceX_pack (r p : Path) : fFenceX 0 (modField c.code 0 (0#2 ++ r.code)) (0#6 ++ p.code) = .ok (.fenceX c r p) := by
  cases c <;> cases r <;> cases p <;> rfl

end

/-- R149 to R160: the fields that an instruction encodes to are read as that instruction, each by the reader of its slot. -/
theorem instr_of_toRaw {i : Instr} {r : Raw} (h : i.toRaw = some r) : r.instr = .ok i := by
  cases i <;> simp only [Instr.toRaw, Option.some.injEq, reduceCtorEq] at h <;> subst h
  case addS32 | addS32Sat | addZ32Sat | subS32 | subS32Sat | subZ32Sat | mulS32 | mulhiS32 | mulhiZ32 | minS32 | maxS32 |
    minZ32 | maxZ32 | andB32 | orB32 | xorB32 | andnB32 | addB64 | subB64 | mulwS32 | mulwZ32 | divS32 | divZ32 | remS32 |
    remZ32 | shlB32 | shrZ32 | shrS32 | rolB32 | shlB64 | shrZ64 | shrS64 | bfxS32 | bfxZ32 | isetEqB32 | isetNeB32 |
    isetLtS32 | isetLeS32 | isetGtS32 | isetGeS32 | isetLtZ32 | isetLeZ32 | isetGtZ32 | isetGeZ32 | selB32 | fminF32 |
    fmaxF32 | fminF16 | fmaxF16 | fminBf16x2 | fmaxBf16x2 | fminF16x2 | fmaxF16x2 | packBf16x2F32 | packF16x2F32 | msig =>
    apply fDba_pack
  case absS32 | negS32 | movB32 | notB32 | popcB32 | clzB32 | ctzB32 | brevB32 | fabsF32 | fnegF32 | fabsF16 | fnegF16 |
    cvtF32F16 | cvtF32Bf16 | rcpF32 | rsqF32 | sqrtF32 | ex2F32 | lg2F32 | sinF32 | cosF32 | rcpF16 | rsqF16 | sqrtF16 |
    ex2F16 | lg2F16 | sinF16 | cosF16 | voteAny | voteAll | voteBal | voteUni | rsvGet =>
    apply fDa_pack
  case faddF32 m _ _ _ | fsubF32 m _ _ _ | fmulF32 m _ _ _ | faddF16 m _ _ _ | fsubF16 m _ _ _ | fmulF16 m _ _ _ |
    fsetF32 m _ _ _ | fsetF16 m _ _ _ | faddBf16x2 m _ _ _ | fmulBf16x2 m _ _ _ | faddF16x2 m _ _ _ | fmulF16x2 m _ _ _ =>
    cases m <;> apply fDba_pack
  case frndF32 m _ _ | frndF16 m _ _ | cvtF16F32 m _ _ | cvtBf16F32 m _ _ | cvtBf16F16 m _ _ | cvtF16Bf16 m _ _ =>
    cases m <;> apply fDa_pack
  case cvtIntF32 m _ _ _ | cvtIntF16 m _ _ _ | cvtIntBf16 m _ _ _ | cvtF32Int m _ _ _ | cvtF16Int m _ _ _ | cvtBf16Int m _ _ _ =>
    cases m <;> apply fDta_pack
  case laneSelB32 => apply fLaneSel_pack
  case elect | gangGet => apply fD_pack
  case sreg => apply fSreg_pack
  case mark | rsvFree | gangSet | accZero | accFree => apply fA_pack
  case rsvSet => apply fRsvSet_pack
  case mxld | mmaKOl | mmaKOlG | accLd | accSt | groveVt => apply fFba_pack
  case mmaBf16 | mmaF16 | mmaK | mmaBf16G | mmaF16G | mmaKG | groveSwap => apply fFa_pack
  case accRd | groveRd => apply fDfa_pack
  case atmAddZ32 m _ _ _ _ _ | atmAddF32 m _ _ _ _ _ | atmMinS32 m _ _ _ _ _ | atmMaxS32 m _ _ _ _ _ | atmMinZ32 m _ _ _ _ _ |
    atmMaxZ32 m _ _ _ _ _ | atmAndB32 m _ _ _ _ _ | atmOrB32 m _ _ _ _ _ | atmXorB32 m _ _ _ _ _ | atmExchB32 m _ _ _ _ _ |
    atmCasB32 m _ _ _ _ _ =>
    cases m <;> apply fDcfba_pack
  case ldAcqB32 | ldAcqB64 => apply fDcfa_pack
  case stRelB32 | stRelB64 => apply fCfba_pack
  case monWaitEq | monWaitNe | monWaitGez | arriveWait => apply fDcfba_pack
  case arriveInit | arriveAdd | hint | pgset => apply fDfba_pack
  case fence => apply fFence_pack
  case fenceX => apply fFenceX_pack
  case movB32Imm | adr => rfl
  case ret | endThread => rfl
  all_goals simp [Raw.instr, formF, formI, formM, formB]

/-! ## The opcode map read from a word -/

/-- Whatever a reader makes of a word's fields encodes to these fields again. -/
def Reads (x : Except IllKind Instr) (r : Raw) : Prop := ∀ i, x = .ok i → i.toRaw = some r

theorem reads_ok {i : Instr} {r : Raw} : Reads (.ok i) r ↔ i.toRaw = some r := by simp [Reads]
theorem reads_error {k : IllKind} {r : Raw} : Reads (.error k) r := by simp [Reads]
theorem reads_okIf {c : Bool} {i : Instr} {r : Raw} : Reads (okIf c i) r ↔ (c = true → i.toRaw = some r) := by
  cases c <;> simp [Reads, okIf]

theorem eq_of_toNat {w n : Nat} {x : BitVec w} (h : x.toNat = n) : x = BitVec.ofNat w n := by
  rw [← h, BitVec.ofNat_toNat, BitVec.setWidth_eq]

/-! Each reader, of the instructions whose fields lie where it looks for them. -/

section
variable {fam : BitVec 3} {op : BitVec 6} {d : BitVec 4} {sb sa : BitVec 9}

theorem reads_fDba {k : BitVec 4 → Src → Src → Instr} (hk : ∀ d b a, (k d b a).toRaw = some (.r fam op d b.pack a.pack)) :
    Reads (fDba k d sb sa) (.r fam op d sb sa) := by
  simp [fDba, reads_ok, hk]

theorem reads_fDa {k : BitVec 4 → Src → Instr} (hk : ∀ d a, (k d a).toRaw = some (.r fam op d 0 a.pack)) :
    Reads (fDa k d sb sa) (.r fam op d sb sa) := by
  simp +contextual [fDa, reads_okIf, hk]

theorem reads_fDta {k : BitVec 4 → IntTy → Src → Instr} (hk : ∀ d t a, (k d t a).toRaw = some (.r fam op d t.code a.pack)) :
    Reads (fDta k d sb sa) (.r fam op d sb sa) := by
  unfold fDta
  split
  next t ht => simp [reads_ok, hk, code_of_intTy ht]
  next => exact reads_error

theorem reads_fLaneSel : Reads (fLaneSel d sb sa) (.r 5 0 d sb sa) := by
  simp only [fLaneSel, reads_okIf, beq_iff_eq]
  intro h
  have hsa : 0#4 ++ sa.extractLsb' 0 5 = sa := by
    have := pack_src sa
    rwa [Src.pack, src, h] at this
  simp [Instr.toRaw, hsa]

theorem reads_fD {k : BitVec 4 → Instr} (hk : ∀ d, (k d).toRaw = some (.r fam op d 0 0)) :
    Reads (fD k d sb sa) (.r fam op d sb sa) := by
  simp +contextual [fD, reads_okIf, hk]

theorem reads_fSreg : Reads (fSreg d sb sa) (.r 5 12 d sb sa) := by
  simp +contextual [fSreg, reads_okIf, Instr.toRaw]

theorem reads_fA {k : Src → Instr} (hk : ∀ a, (k a).toRaw = some (.r fam op 0 0 a.pack)) :
    Reads (fA k d sb sa) (.r fam op d sb sa) := by
  simp +contextual [fA, reads_okIf, hk]

theorem reads_fRsvSet : Reads (fRsvSet d sb sa) (.r 6 0 d sb sa) := by
  simp only [fRsvSet, reads_okIf, Bool.and_eq_true, beq_iff_eq]
  rintro ⟨hc, hf⟩
  rw [Instr.toRaw, pack_src, ← hc, ← hf, modField_fields]

theorem reads_fFba {k : Side → BitVec 5 → Src → Instr}
    (hk : ∀ f n a, (k f n a).toRaw = some (.r fam op 0 (modField 0 f.code n) a.pack)) :
    Reads (fFba k d sb sa) (.r fam op d sb sa) := by
  simp only [fFba, reads_okIf, Bool.and_eq_true, beq_iff_eq]
  rintro ⟨rfl, hc⟩
  rw [hk, code_side, pack_src, ← hc, modField_fields]

theorem reads_fFa {k : Side → Src → Instr} (hk : ∀ f a, (k f a).toRaw = some (.r fam op 0 (modField 0 f.code 0) a.pack)) :
    Reads (fFa k d sb sa) (.r fam op d sb sa) := by
  simp only [fFa, reads_okIf, Bool.and_eq_true, beq_iff_eq]
  rintro ⟨⟨rfl, hc⟩, hn⟩
  rw [hk, code_side, pack_src, ← hc, ← hn, modField_fields]

theorem reads_fDfa {k : BitVec 4 → Side → Src → Instr}
    (hk : ∀ d f a, (k d f a).toRaw = some (.r fam op d (modField 0 f.code 0) a.pack)) :
    Reads (fDfa k d sb sa) (.r fam op d sb sa) := by
  simp only [fDfa, reads_okIf, Bool.and_eq_true, beq_iff_eq]
  rintro ⟨hc, hn⟩
  rw [hk, code_side, pack_src, ← hc, ← hn, modField_fields]

theorem reads_fDfba {k : BitVec 4 → Side → BitVec 5 → Src → Instr}
    (hk : ∀ d f n a, (k d f n a).toRaw = some (.r fam op d (modField 0 f.code n) a.pack)) :
    Reads (fDfba k d sb sa) (.r fam op d sb sa) := by
  simp only [fDfba, reads_okIf, beq_iff_eq]
  intro hc
  rw [hk, code_side, pack_src, ← hc, modField_fields]

theorem reads_fDcfba {k : BitVec 4 → Scope → Side → BitVec 5 → Src → Instr}
    (hk : ∀ d c f n a, (k d c f n a).toRaw = some (.r fam op d (modField c.code f.code n) a.pack)) :
    Reads (fDcfba k d sb sa) (.r fam op d sb sa) := by
  unfold fDcfba
  split
  next c hc => simp [reads_ok, hk, code_of_scope hc, modField_fields]
  next => exact reads_error

theorem reads_fDcfa {k : BitVec 4 → Scope → Side → Src → Instr}
    (hk : ∀ d c f a, (k d c f a).toRaw = some (.r fam op d (modField c.code f.code 0) a.pack)) :
    Reads (fDcfa k d sb sa) (.r fam op d sb sa) := by
  unfold fDcfa
  split
  next c hc =>
    simp only [reads_okIf, beq_iff_eq]
    intro hn
    simp [hk, code_of_scope hc, ← hn, modField_fields]
  next => exact reads_error

theorem reads_fCfba {k : Scope → Side → BitVec 5 → Src → Instr}
    (hk : ∀ c f n a, (k c f n a).toRaw = some (.r fam op 0 (modField c.code f.code n) a.pack)) :
    Reads (fCfba k d sb sa) (.r fam op d sb sa) := by
  unfold fCfba
  split
  next c hc => simp +contextual [reads_okIf, hk, code_of_scope hc, modField_fields]
  next => exact reads_error

theorem reads_fFence : Reads (fFence d sb sa) (.r 7 54 d sb sa) := by
  unfold fFence
  split
  next c hc =>
    simp only [reads_okIf, Bool.and_eq_true, beq_iff_eq]
    rintro ⟨⟨⟨rfl, hf⟩, hn⟩, rfl⟩
    rw [Instr.toRaw, code_of_scope hc, ← hf, ← hn, modField_fields]
  next => exact reads_error

theorem reads_fFenceX : Reads (fFenceX d sb sa) (.r 7 55 d sb sa) := by
  unfold fFenceX
  split
  next c r p hc hr hp =>
    simp only [reads_okIf, Bool.and_eq_true, beq_iff_eq]
    rintro ⟨⟨⟨rfl, hf⟩, hb⟩, ha⟩
    have hn : 0#2 ++ r.code = selOf sb := by
      rw [code_of_path hr, show 0#2 = sb.extractLsb' 3 2 from hb.symm]
      exact BitVec.extractLsb'_append_extractLsb'_eq_extractLsb' rfl
    have hsa : 0#6 ++ p.code = sa := by
      rw [code_of_path hp, show 0#6 = sa.extractLsb' 3 6 from ha.symm]
      exact (BitVec.extractLsb'_append_extractLsb'_eq_extractLsb' rfl).trans BitVec.extractLsb'_eq_self
    rw [Instr.toRaw, code_of_scope hc, ← hf, hn, hsa, modField_fields]
  next => exact reads_error

theorem reads_fDi {k : BitVec 4 → BitVec 11 → Instr} {op : BitVec 5} {n : BitVec 11}
    (hk : ∀ d n, (k d n).toRaw = some (.i op d n 0)) : Reads (fDi k d n sa) (.i op d n sa) := by
  simp +contextual [fDi, reads_okIf, hk]

theorem reads_fNone {k : Instr} {op : BitVec 4} {n : BitVec 24} (hk : k.toRaw = some (.b op 0)) :
    Reads (fNone k n) (.b op n) := by
  simp +contextual [fNone, reads_okIf, hk]
end

/-! Each family and format, slot by slot. -/

section
variable (d : BitVec 4) (sb sa : BitVec 9)

theorem family0_reads (op : BitVec 6) : Reads (family0 op d sb sa) (.r 0 op d sb sa) := by
  unfold family0
  split
  case h_30 => exact reads_error
  all_goals
    rename_i h
    obtain rfl := eq_of_toNat h
    apply_rules [reads_fDba, reads_fDa]
    intros
    rfl

theorem family1_reads (op : BitVec 6) : Reads (family1 op d sb sa) (.r 1 op d sb sa) := by
  unfold family1
  split
  case h_25 => exact reads_error
  all_goals
    rename_i h
    obtain rfl := eq_of_toNat h
    apply_rules [reads_fDba, reads_fDa]
    intros
    rfl

theorem family2_reads (op : BitVec 6) : Reads (family2 op d sb sa) (.r 2 op d sb sa) := by
  unfold family2
  split
  case h_57 => exact reads_error
  all_goals
    rename_i h
    obtain rfl := eq_of_toNat h
    apply_rules [reads_fDba, reads_fDa]
    intros
    rfl

theorem family3_reads (op : BitVec 6) : Reads (family3 op d sb sa) (.r 3 op d sb sa) := by
  unfold family3
  split
  case h_65 => exact reads_error
  all_goals
    rename_i h
    obtain rfl := eq_of_toNat h
    apply_rules [reads_fDba, reads_fDa, reads_fDta]
    intros
    rfl

theorem family4_reads (op : BitVec 6) : Reads (family4 op d sb sa) (.r 4 op d sb sa) := by
  unfold family4
  split
  case h_15 => exact reads_error
  all_goals
    rename_i h
    obtain rfl := eq_of_toNat h
    apply_rules [reads_fDa]
    intros
    rfl

theorem family5_reads (op : BitVec 6) : Reads (family5 op d sb sa) (.r 5 op d sb sa) := by
  unfold family5
  split
  case h_10 => exact reads_error
  all_goals
    rename_i h
    obtain rfl := eq_of_toNat h
    apply_rules [reads_fLaneSel, reads_fSreg, reads_fDa, reads_fD, reads_fDba, reads_fA] <;> (intros; rfl)

theorem family6_reads (op : BitVec 6) : Reads (family6 op d sb sa) (.r 6 op d sb sa) := by
  unfold family6
  split
  case h_23 => exact reads_error
  all_goals
    rename_i h
    obtain rfl := eq_of_toNat h
    apply_rules [reads_fRsvSet, reads_fA, reads_fDa, reads_fFba, reads_fFa, reads_fD, reads_fDfa] <;> (intros; rfl)

theorem family7_reads (op : BitVec 6) : Reads (family7 op d sb sa) (.r 7 op d sb sa) := by
  unfold family7
  split
  case h_59 => exact reads_error
  all_goals
    rename_i h
    obtain rfl := eq_of_toNat h
    apply_rules [reads_fFence, reads_fFenceX, reads_fDcfba, reads_fDcfa, reads_fCfba, reads_fDfba] <;> (intros; rfl)

theorem formF_reads (op : BitVec 3) (sc : BitVec 5) : Reads (formF op d sc sb sa) (.f op d sc sb sa) := by
  unfold formF
  split
  case h_9 => exact reads_error
  all_goals
    rename_i h
    obtain rfl := eq_of_toNat h
  all_goals simp [reads_ok, Instr.toRaw]

theorem formI_reads (op : BitVec 5) (n : BitVec 11) : Reads (formI op d n sa) (.i op d n sa) := by
  unfold formI
  split
  case h_24 => exact reads_error
  all_goals
    rename_i h
    obtain rfl := eq_of_toNat h
  case h_12 | h_13 => exact reads_fDi fun _ _ => rfl
  all_goals simp [reads_ok, Instr.toRaw]

theorem formM_reads (op : BitVec 5) (fs : BitVec 1) : Reads (formM op d fs sb sa) (.m op d fs sb sa) := by
  unfold formM
  split
  case h_32 => exact reads_error
  all_goals
    rename_i h
    obtain rfl := eq_of_toNat h
  all_goals simp [reads_ok, Instr.toRaw]

theorem formB_reads (op : BitVec 4) (n : BitVec 24) : Reads (formB op n) (.b op n) := by
  unfold formB
  split
  case h_12 => exact reads_error
  all_goals
    rename_i h
    obtain rfl := eq_of_toNat h
  case h_5 | h_6 => exact reads_fNone rfl
  all_goals simp [reads_ok, Instr.toRaw]

end

/-- R149 to R160 the other way: what a word's fields are read as encodes to those fields. -/
theorem toRaw_of_instr {r : Raw} {i : Instr} (h : r.instr = .ok i) : i.toRaw = some r := by
  cases r with
  | r fam op d sb sa =>
    simp only [Raw.instr] at h
    split at h <;> rename_i hfam
    case h_8 =>
      obtain rfl : fam = 7 := BitVec.eq_of_toNat_eq (by have := fam.isLt; simp only [imp_false] at *; simp; omega)
      exact family7_reads d sb sa op i h
    all_goals obtain rfl := eq_of_toNat hfam
    · exact family0_reads d sb sa op i h
    · exact family1_reads d sb sa op i h
    · exact family2_reads d sb sa op i h
    · exact family3_reads d sb sa op i h
    · exact family4_reads d sb sa op i h
    · exact family5_reads d sb sa op i h
    · exact family6_reads d sb sa op i h
  | f op d sc sb sa => exact formF_reads d sb sa op sc i h
  | i op d n sa => exact formI_reads d sa op n i h
  | m op d fs sb sa => exact formM_reads d sb sa op fs i h
  | b op n => exact formB_reads op n i h

/-! ## Words and instructions -/

theorem decodeWord_eq_ok {w : Word} {i : Instr} :
    decodeWord w = .ok i ↔ (Raw.ofWord w).instr = .ok i ∧ i.wellFormed = true := by
  unfold decodeWord
  split
  next k hk => simp [hk]
  next j hj =>
    by_cases hij : j = i
    · subst hij
      cases hwf : j.wellFormed <;> simp [hj]
    · cases hwf : j.wellFormed <;> simp [hj, hij]

/-- Settles O23: the fields of an instruction survive their word, and each slot's reader undoes the encoder. -/
theorem decodeOfEncode : Obligations.DecodeOfEncode := by
  intro i w hwf henc
  obtain ⟨r, hr, rfl⟩ := Option.map_eq_some_iff.mp henc
  rw [decodeWord_eq_ok, ofWord_toWord]
  exact ⟨instr_of_toRaw hr, hwf⟩

/-- Settles O24: the encoder undoes each slot's reader, and a word is the word of its fields. -/
theorem encodeOfDecode : Obligations.EncodeOfDecode := by
  intro w i hdec
  obtain ⟨hi, hwf⟩ := decodeWord_eq_ok.mp hdec
  refine ⟨?_, hwf⟩
  rw [encode, toRaw_of_instr hi, Option.map_some, toWord_ofWord]

end Sys2Proof.Proofs
end

section
/-!
PROOFS. Stops, results and frames: what taking a stop and returning from one do, and what the issue and the delivery of a result
change.
-/
namespace Sys2Proof.Proofs
open Sys2Proof Sys2Proof.Machine Sys2Proof.Spec

/-! ## Tables and threads -/

theorem lookup_mapVals {α β : Type} (t : Table α) (g : Nat → α → β) (k : Nat) :
    lookup (t.map (fun e => (e.1, g e.1 e.2))) k = (lookup t k).map (g k) := by
  induction t with
  | nil => rfl
  | cons e t ih =>
    obtain ⟨j, x⟩ := e
    by_cases h : j = k
    · subst h; simp [lookup]
    · simp [lookup, h, ih]

theorem lookup_tabulate {α : Type} (g : Nat → α) {l : List Nat} {k : Nat} (h : k ∈ l) :
    lookup (l.map (fun i => (i, g i))) k = some (g k) := by
  induction l with
  | nil => cases h
  | cons j l ih =>
    by_cases hj : j = k
    · subst hj; simp [lookup]
    · have hk : k ∈ l := (List.mem_cons.mp h).resolve_left (Ne.symm hj)
      simp [lookup, hj, ih hk]

theorem thread_of_lookup {f : LaneFrame} {i : Nat} {th : Thread} (h : lookup f.threads i = some th) : thread f i = th := by
  simp [thread, look, h]

theorem thread_of_lookup_none {f : LaneFrame} {i : Nat} (h : lookup f.threads i = none) : thread f i = .empty := by
  simp [thread, look, h]

theorem thread_modThreads {f : LaneFrame} {m : LaneMask} {g : Nat → Thread → Thread} {i : Nat} {th : Thread}
    (h : lookup f.threads i = some th) : thread (modThreads f m g) i = if m.getLsbD i then g i th else th :=
  thread_of_lookup (by rw [lookup_modThreads, h]; rfl)

theorem lookup_modThread (f : LaneFrame) (i j : Nat) (g : Thread → Thread) :
    lookup (modThread f i g).threads j = if j = i then (lookup f.threads j).map g else lookup f.threads j :=
  lookup_changeIf f.threads j i g

theorem laneFrame_modLF_self {s : State} {c l : Nat} {f : LaneFrame} (h : laneFrame s c l = some f)
    (g : LaneFrame → LaneFrame) : laneFrame (modLF s c l g) c l = some (g f) := by
  simp [laneFrame_modLF, h]

/-- A change of a core that keeps its lane frames. -/
theorem laneFrame_modCore {s : State} {c : Nat} {g : Core → Core} (hg : (g (Machine.core s c)).c.lfs = (Machine.core s c).c.lfs) (d l : Nat) :
    laneFrame (modCore s c g) d l = laneFrame s d l := by
  by_cases h : d = c
  · subst h; simp [laneFrame, hg]
  · simp [laneFrame, core_modCore_ne s g h]

/-! ## Taking a stop -/

/-- The state of a stop before its bundle is parked. -/
def recorded (s : State) (e : Event) : State :=
  modCore (record { s with stop := stopWith s e, at_ := none } e.core 11 e.thr e.pc (stopData e.kind e.engine e.detail)) e.core
    (fun k => if e.engine = 0 then k else { k with raised := k.raised ++ [e.engine] })

theorem raise_of_none {s : State} {e : Event} (h : e.bundle = none) : raise s e = recorded s e := by simp [raise, recorded, h]

theorem raise_of_some {s : State} {e : Event} {m : LaneMask} (h : e.bundle = some m) :
    raise s e = modCore (modLF (recorded s e) e.core e.lf (fun f => parkBundle f m)) e.core
      (fun k => { k with mtrap := if k.mtrap.getLsbD 44 then k.mtrap else mtrapImage e.kind e.lf m }) := by
  simp [raise, recorded, h]

theorem core_recorded (s : State) (e : Event) : Machine.core (recorded s e) e.core =
    { Machine.core s e.core with
      rcd := stage (Machine.core s e.core).rcd s.cycle 11
        (recordBits 11 e.thr e.pc (stopData e.kind e.engine e.detail) (trail s e.core))
      raised := if e.engine = 0 then (Machine.core s e.core).raised else (Machine.core s e.core).raised ++ [e.engine] } := by
  have h : Machine.core { s with stop := stopWith s e, at_ := none } e.core = Machine.core s e.core := rfl
  by_cases he : e.engine = 0 <;> simp [recorded, record, modRcd, he, h, trail]

theorem laneFrame_recorded (s : State) (e : Event) (l : Nat) : laneFrame (recorded s e) e.core l = laneFrame s e.core l := by
  simp [laneFrame, core_recorded]

theorem rcd_raise (s : State) (e : Event) : (Machine.core (raise s e) e.core).rcd = stage (Machine.core s e.core).rcd s.cycle 11
    (recordBits 11 e.thr e.pc (stopData e.kind e.engine e.detail) (trail s e.core)) := by
  cases h : e.bundle with
  | none => simp [raise_of_none h, core_recorded]
  | some m => simp [raise_of_some h, modLF, modC, core_recorded]

theorem laneFrame_raise {s : State} {e : Event} {m : LaneMask} {f : LaneFrame} (h : e.bundle = some m)
    (hf : laneFrame s e.core e.lf = some f) : laneFrame (raise s e) e.core e.lf = some (parkBundle f m) := by
  rw [raise_of_some h]
  refine (laneFrame_modCore ?_ _ _).trans (laneFrame_modLF_self ?_ _)
  · rfl
  · rw [laneFrame_recorded, hf]

theorem mtrap_raise {s : State} {e : Event} {m : LaneMask} (h : e.bundle = some m) : (Machine.core (raise s e) e.core).mtrap =
    if (Machine.core s e.core).mtrap.getLsbD 44 then (Machine.core s e.core).mtrap else mtrapImage e.kind e.lf m := by
  simp [raise_of_some h, modLF, modC, core_recorded]

/-- The comparison that a stop makes of an event of its own cycle is the ranking of R357. -/
theorem outranks_iff {e : Event} {p : Stop} {n : Nat} (h : p.cycle = n) :
    outranks e p n = true ↔ rank e.kind e.core e.lf e.engine < rank p.kind p.core p.lf p.engine := by
  simp only [outranks, rank, h, decide_true, Bool.true_and, Prod.Lex.lt_iff, Bool.or_eq_true, Bool.and_eq_true, decide_eq_true_eq,
    ofLex_toLex]

/-- Settles O26: the first event of a stop is its primary, a later one of the cycle takes its place when it ranks before it. -/
theorem stopEntry : Obligations.StopEntry := by
  refine ⟨fun s e => ⟨raise_mem s e, raise_at s e, raise_cycle s e, fun h => ?_, fun p hp hc => ?_, rcd_raise s e,
    fun m f hm hf => ⟨_, laneFrame_raise hm hf, rfl, rfl, fun i th hi hth => ?_⟩, fun m hm => mtrap_raise hm⟩, fun s e p hp hc => ?_⟩
  · simp [stopWith, h]
  · simp [stopWith, hp, outranks, hc]
  · exact (thread_modThreads (f := { f with clause := none, offer := none, fence := none, call := none }) hth).trans (if_pos hi)
  · simp only [raise_stop, stopWith, hp, outranks_iff hc]
    by_cases h : rank e.kind e.core e.lf e.engine < rank p.kind p.core p.lf p.engine <;> simp [h]

/-! ## Returning from a stop -/

/-- A thread after a return from a stop, in a lane frame with a count (R15, R365). -/
def unparked (n : Word) (t : Thread) : Thread :=
  if t.stop then (if t.wait.isSome then { t with stop := false } else { t with stop := false, parked := false, stamp := n }) else t

/-- A lane frame after a return from a stop. -/
def unparkedFrame (x : LaneFrame) : LaneFrame := { x with threads := x.threads.map (fun y => (y.1, unparked x.count y.2)) }

/-- A core after a return from a stop. -/
def resumed (s : State) (c : Nat) : Core :=
  { Machine.core s c with
    mtrap := 0
    mmxerr := 0
    raised := []
    c := { (Machine.core s c).c with lfs := (Machine.core s c).c.lfs.map (fun x => (x.1, unparkedFrame x.2)) }
    rcd := stage { (Machine.core s c).rcd with off := false } s.cycle 14 (recordBits 14 noThread 0 (s.cycle / 2 ^ 24 % 2 ^ 40) (trail s c)) }

theorem core_unstop {s : State} {c : Nat} (h : c < coreCount s) : Machine.core (unstop s) c = resumed s c := by
  have hl : lookup (unstop s).cores c = some (resumed s c) :=
    lookup_tabulate (fun d => resumed s d) (List.mem_range.mpr h)
  simp [Machine.core, look, hl]

theorem laneFrame_unstop {s : State} {c l : Nat} {f : LaneFrame} (h : c < coreCount s) (hf : laneFrame s c l = some f) :
    laneFrame (unstop s) c l = some (unparkedFrame f) := by
  rw [laneFrame, core_unstop h]
  refine (lookup_mapVals (Machine.core s c).c.lfs (fun _ => unparkedFrame) l).trans ?_
  rw [← laneFrame, hf]; rfl

/-- Settles O27: what the list of the resumed cores looks up. -/
theorem resumeEffect : Obligations.ResumeEffect := by
  refine fun s c hc => ⟨rfl, rfl, ?_, ?_, ?_, fun l f i th hf hth => ⟨_, laneFrame_unstop hc hf, rfl, ?_⟩⟩
  · rw [core_unstop hc]; rfl
  · rw [core_unstop hc]; rfl
  · rw [core_unstop hc]; rfl
  · rw [unparkedFrame, lookup_mapVals f.threads (fun _ => unparked f.count), hth]
    cases hs : th.stop with
    | false => simp [unparked, hs]
    | true => cases hw : th.wait <;> simp [unparked, hs, hw]

/-! ## The undo log -/

/-- What logging for undo leaves alone of the cores: all but reservations of Masts and the log's own counters. -/
structure Logged (s t : State) : Prop where
  core (c : Nat) : ∃ r lfs, Machine.core t c = { Machine.core s c with
    mast := { (Machine.core s c).mast with reserve := r }
    c := { (Machine.core s c).c with lfs := lfs } }
  lane {c l : Nat} {f : LaneFrame} (h : laneFrame s c l = some f) :
    ∃ n b, laneFrame t c l = some { f with undo := n, undoBase := b }

theorem Logged.of_cores {s t : State} (h : t.cores = s.cores) : Logged s t where
  core c := ⟨_, _, core_congr h c⟩
  lane {c l f} hf := ⟨f.undo, f.undoBase, by rw [laneFrame_congr h, hf]⟩

theorem Logged.refl (s : State) : Logged s s := .of_cores rfl

theorem Logged.trans {s t u : State} (h : Logged s t) (k : Logged t u) : Logged s u where
  core c := by
    obtain ⟨r, lfs, hc⟩ := h.core c
    obtain ⟨r', lfs', hc'⟩ := k.core c
    exact ⟨r', lfs', by rw [hc', hc]⟩
  lane hf := by
    obtain ⟨n, b, ht⟩ := h.lane hf
    obtain ⟨n', b', hu⟩ := k.lane ht
    exact ⟨n', b', hu⟩

theorem Logged.foldl {α : Type} {g : State → α → State} (h : ∀ s a, Logged s (g s a)) (l : List α) (s : State) :
    Logged s (l.foldl g s) :=
  List.foldlRecOn l g (motive := fun t => Logged s t) (.refl s) (fun t ht a _ => ht.trans (h t a))

theorem laneBlocks_cores (s : State) (key n : Nat) (d : Table Byte) (charge : Option Nat) (o : WrFrom) (dirty : Option (Nat × Nat)) :
    (laneBlocks s key n d charge o dirty).cores = s.cores :=
  List.foldlRecOn _ _ (motive := fun t : State => t.cores = s.cores) rfl (fun _ ht _ _ => ht)

theorem sealUnit_cores (s : State) (key u : Nat) : (sealUnit s key u).cores = s.cores := by
  unfold sealUnit
  split
  · rfl
  · split <;> rfl

theorem storeUnder_cores (s : State) (key base : Nat) (d : Table Byte) : (storeUnder s key base d).cores = s.cores := by
  simp only [storeUnder]
  split
  · rfl
  · show (if encrypted base then _ else s : State).cores = _
    split
    · exact List.foldlRecOn _ _ (motive := fun t => t.cores = s.cores) rfl (fun t ht a _ => (sealUnit_cores t key a).trans ht)
    · rfl

theorem setDirty_cores (s : State) (key : Nat) : (setDirty s key).cores = s.cores := by
  simp only [setDirty]
  split
  · split <;> rfl
  · rfl

/-- A core's Mast without the reservation that a write breaks. -/
def unreserved (s : State) (n len : Nat) (k : Core) : Core := match k.mast.reserve with
  | some (loc, size, ok) => match locNum s loc with
    | some a => { k with mast := { k.mast with reserve := some (loc, size, !decide (a < n + len ∧ n < a + size) && ok) } }
    | none => k
  | none => k

theorem breakReserve_cores (s : State) (n len : Nat) :
    (breakReserve s n len).cores = s.cores.map (fun e => (e.1, unreserved s n len e.2)) := by
  refine List.map_congr_left (fun e _ => ?_)
  simp only [unreserved]
  cases e.2.mast.reserve with
  | none => rfl
  | some r =>
    obtain ⟨loc, size, ok⟩ := r
    cases ha : locNum s loc with
    | none => simp [ha]
    | some a => by_cases h : a < n + len ∧ n < a + size <;> simp [ha, h]

theorem unreserved_eq (s : State) (n len : Nat) (k : Core) :
    ∃ r, unreserved s n len k = { k with mast := { k.mast with reserve := r } } := by
  unfold unreserved
  split
  · split
    · exact ⟨_, rfl⟩
    · exact ⟨_, rfl⟩
  · exact ⟨_, rfl⟩

theorem breakReserve_core (s : State) (n len c : Nat) : ∃ r, Machine.core (breakReserve s n len) c =
    { Machine.core s c with mast := { (Machine.core s c).mast with reserve := r } } := by
  simp only [Machine.core, look, breakReserve_cores, lookup_mapVals s.cores (fun _ => unreserved s n len) c]
  cases h : lookup s.cores c with
  | none => exact ⟨_, rfl⟩
  | some k => exact unreserved_eq s n len k

theorem Logged.breakReserve (s : State) (n len : Nat) : Logged s (breakReserve s n len) where
  core c := by
    obtain ⟨r, h⟩ := breakReserve_core s n len c
    exact ⟨r, (Machine.core s c).c.lfs, h⟩
  lane {c l f} hf := by
    obtain ⟨r, h⟩ := breakReserve_core s n len c
    exact ⟨f.undo, f.undoBase, by rw [laneFrame, h]; exact hf⟩

theorem Logged.hwWrite (s : State) (key a : Nat) (l : List Byte) : Logged s (hwWrite s key a l) := by
  simp only [Machine.hwWrite]
  split
  · exact .of_cores (laneBlocks_cores ..)
  · exact (Logged.of_cores ((setDirty_cores _ _).trans (storeUnder_cores ..))).trans (.breakReserve _ _ _)

theorem Logged.counted (s : State) (c lf : Nat) : Logged s
    (modLF s c lf (fun f => { f with undo := f.undo + 1, undoBase := max f.undoBase (f.undo + 1 - 4096) })) where
  core d := by
    by_cases h : d = c
    · subst h; exact ⟨_, _, core_modCore_self _ _ _⟩
    · exact ⟨_, _, core_modCore_ne _ _ h⟩
  lane {d m g} hg := by
    rw [laneFrame_modLF, hg]
    split
    · exact ⟨_, _, rfl⟩
    · exact ⟨_, _, rfl⟩

theorem Logged.undoLog (s : State) (c lf kind lane which pos pc old addr : Nat) :
    Logged s (undoLog s c lf kind lane which pos pc old addr) := by
  simp only [Machine.undoLog]
  split
  · cases hf : laneFrame s c lf with
    | none => exact .refl s
    | some f => exact (Logged.hwWrite ..).trans (.counted ..)
  · exact .refl s

theorem Logged.undoShifts (s : State) (u : Iss) (k : Nat) : Logged s (undoShifts s u k) := by
  unfold Machine.undoShifts
  split
  · exact Logged.foldl (fun s i => Logged.foldl (fun s j => .undoLog ..) _ s) _ s
  · exact .refl s

theorem Logged.undoRegs (s : State) (c lf lane op : Nat) (t : Thread) (k : Nat) : Logged s (undoRegs s c lf lane op t k) := by
  unfold Machine.undoRegs
  split
  · refine Logged.foldl (fun s j => ?_) _ s
    split
    · exact .refl s
    · exact .undoLog ..
  · exact .refl s

theorem undoShifts_off {s : State} (h : undoOn s = false) (u : Iss) (k : Nat) : undoShifts s u k = s := by
  simp [undoShifts, h]

theorem undoRegs_off {s : State} (h : undoOn s = false) (c lf lane op : Nat) (t : Thread) (k : Nat) :
    undoRegs s c lf lane op t k = s := by
  simp [undoRegs, h]

/-! ## Results -/

/-- A state in which a word issues while undo logging applies, and the log's page lies in HBM. -/
def loggingState : State := { Tests.demo with dbgctl := 2 ^ 17 }

/-- Refutes O28: with undo logging on, the q16 value that the shift discards is logged, and its write to HBM takes an operation number
of its own, so the counter has gone up by two. -/
theorem not_valueIssueEffect : ¬ Obligations.ValueIssueEffect := by
  intro h
  have hi : (issuing loggingState).isSome = true := by decide +kernel
  obtain ⟨u, hu⟩ := Option.isSome_iff_exists.mp hi
  have hops : (issuing loggingState).all (fun u => (sendVals loggingState u 4 1 1 []).ops != loggingState.ops + 1) = true := by
    decide +kernel
  rw [hu] at hops
  exact absurd (h loggingState u 4 1 1 [] hu).1 (by simpa using hops)

/-- The words of a lane delivered from word `k` of its operation on. -/
def deliverFrom (op : Nat) : Nat → List Word → Thread → Thread
  | _, [], t => t
  | k, v :: vs, t => deliverFrom op (k + 1) vs (landReg (fillSlot t (token op k) v) (token op k) v)

theorem deliverLane_eq_from (op : Nat) (vals : List Word) : ∀ (k : Nat) (t : Thread),
    (vals.mapIdx (fun i v => (k + i, v))).foldl (fun t e => landReg (fillSlot t (token op e.1) e.2) (token op e.1) e.2) t =
      deliverFrom op k vals t := by
  induction vals with
  | nil => exact fun _ _ => rfl
  | cons v vs ih =>
    intro k t
    rw [List.mapIdx_cons, List.foldl_cons, deliverFrom, ← ih]
    simp only [Nat.add_zero, Nat.add_assoc, Nat.add_comm 1]

theorem deliverLane_eq (t : Thread) (op : Nat) (vals : List Word) : deliverLane t op vals = deliverFrom op 0 vals t := by
  rw [← deliverLane_eq_from]
  simp only [deliverLane, Nat.zero_add]

theorem token_inj {op i j : Nat} : token op i = token op j ↔ i = j := by simp [token]

theorem token_ne_zero (op i : Nat) : token op i ≠ 0 := by simp [token]

/-- A slot after the words from word `k` of an operation on are delivered. -/
def filled (op : Nat) : Nat → List Word → Slot → Slot
  | _, [], x => x
  | k, v :: vs, x => filled op (k + 1) vs (if x.tok = token op k then { x with val := v, tok := 0 } else x)

theorem filled_of_ne {op : Nat} {x : Slot} {k : Nat} {vals : List Word} (h : ∀ j, k ≤ j → j < k + vals.length → x.tok ≠ token op j) :
    filled op k vals x = x := by
  induction vals generalizing k with
  | nil => rfl
  | cons v vs ih =>
    simp only [List.length_cons] at h
    rw [filled, if_neg (h k le_rfl (by omega)), ih (fun j h1 h2 => h j (by omega) (by omega))]

theorem filled_token {op : Nat} {x : Slot} {k i : Nat} {vals : List Word} (hi : i < vals.length) (h : x.tok = token op (k + i)) :
    filled op k vals x = { x with val := vals.getD i 0, tok := 0 } := by
  induction vals generalizing k i with
  | nil => cases hi
  | cons v vs ih =>
    cases i with
    | zero =>
      rw [filled, if_pos (by simpa using h), filled_of_ne (fun j _ _ => (token_ne_zero op j).symm)]
      rfl
    | succ i =>
      have hk : x.tok ≠ token op k := by rw [h, Ne, token_inj]; omega
      rw [filled, if_neg hk, ih (i := i) (by simpa using hi) (by rw [h]; congr 1; omega)]
      rfl

@[simp] theorem landReg_q (t : Thread) (tok : Nat) (v : Word) : (landReg t tok v).q = t.q := by unfold landReg; split <;> rfl
@[simp] theorem landReg_winq (t : Thread) (tok : Nat) (v : Word) : (landReg t tok v).winq = t.winq := by unfold landReg; split <;> rfl

theorem deliverFrom_q (op : Nat) (vals : List Word) : ∀ (k : Nat) (t : Thread),
    (∀ j, k ≤ j → j < k + vals.length → lookup t.winq (token op j) = none) →
      (deliverFrom op k vals t).q = t.q.map (filled op k vals) := by
  induction vals with
  | nil => intro k t _; exact (List.map_id t.q).symm
  | cons v vs ih =>
    intro k t h
    simp only [List.length_cons] at h
    have hw (j : Nat) (h1 : k + 1 ≤ j) (h2 : j < k + 1 + vs.length) :
        lookup (landReg (fillSlot t (token op k) v) (token op k) v).winq (token op j) = none := by
      rw [landReg_winq, fillSlot, lookup_drop_ne _ (by rw [Ne, token_inj]; omega)]
      exact h j (by omega) (by omega)
    rw [deliverFrom, ih _ _ hw, landReg_q, fillSlot, List.map_map]
    simp only [h k le_rfl (by omega), Option.getD_none]
    rfl

/-- The fields that a delivery to a thread leaves alone. -/
def Thread.Kept (t t' : Thread) : Prop :=
  t'.pc = t.pc ∧ t'.live = t.live ∧ t'.parked = t.parked ∧ t'.wait = t.wait ∧ t'.flags = t.flags ∧ t'.stamp = t.stamp

theorem landReg_kept (t : Thread) (tok : Nat) (v : Word) : Thread.Kept t (landReg (fillSlot t tok v) tok v) := by
  unfold landReg
  split
  · exact ⟨rfl, rfl, rfl, rfl, rfl, rfl⟩
  · exact ⟨rfl, rfl, rfl, rfl, rfl, rfl⟩

theorem deliverFrom_kept (op : Nat) (vals : List Word) : ∀ (k : Nat) (t : Thread), Thread.Kept t (deliverFrom op k vals t) := by
  induction vals with
  | nil => exact fun _ _ => ⟨rfl, rfl, rfl, rfl, rfl, rfl⟩
  | cons v vs ih =>
    intro k t
    obtain ⟨h1, h2, h3, h4, h5, h6⟩ := landReg_kept t (token op k) v
    obtain ⟨k1, k2, k3, k4, k5, k6⟩ := ih (k + 1) (landReg (fillSlot t (token op k) v) (token op k) v)
    exact ⟨k1.trans h1, k2.trans h2, k3.trans h3, k4.trans h4, k5.trans h5, k6.trans h6⟩

/-- The pending write of word `j` of an operation to the registers from `d` on. -/
def pendAt (op d : Nat) (pc : DWord) (j : Nat) : NPend := ⟨d + j, token op j, false, pc⟩

/-- The registers with words written from register `r` on. -/
def setFrom : Nat → List Word → List Word → List Word
  | _, [], n => n
  | r, v :: vs, n => setFrom (r + 1) vs (n.set r v)

theorem setFrom_length (vals : List Word) : ∀ (r : Nat) (n : List Word), (setFrom r vals n).length = n.length := by
  induction vals with
  | nil => exact fun _ _ => rfl
  | cons v vs ih => exact fun r n => (ih _ _).trans List.length_set

theorem getD_setFrom (vals : List Word) : ∀ (r : Nat) (n : List Word), r + vals.length ≤ n.length → ∀ i,
    (setFrom r vals n).getD i 0 = if r ≤ i ∧ i < r + vals.length then vals.getD (i - r) 0 else n.getD i 0 := by
  induction vals with
  | nil => intro r n _ i; rw [setFrom, if_neg (by simp)]
  | cons v vs ih =>
    intro r n h i
    simp only [List.length_cons] at h ⊢
    rw [setFrom, ih _ _ (by rw [List.length_set]; omega)]
    by_cases hi : i = r
    · subst hi
      have hl : i < n.length := by omega
      simp [hl]
    · by_cases hr : r + 1 ≤ i ∧ i < r + 1 + vs.length
      · obtain ⟨j, rfl⟩ : ∃ j, i = r + 1 + j := ⟨i - (r + 1), by omega⟩
        rw [if_pos hr, if_pos (by omega), Nat.add_sub_cancel_left, show r + 1 + j - r = j + 1 by omega, List.getD_cons_succ]
      · rw [if_neg hr, if_neg (by omega)]
        simp [List.getD_eq_getElem?_getD, List.getElem?_set_ne (Ne.symm hi)]

theorem landReg_of_ne {t : Thread} {tok : Nat} (v : Word) (h : ∀ p ∈ t.np, p.tok ≠ tok) : landReg t tok v = t := by
  have hf : t.np.find? (fun p => decide (p.tok = tok)) = none := List.find?_eq_none.mpr (fun p hp => by simpa using h p hp)
  simp [landReg, hf]

theorem deliverFrom_none {op : Nat} (vals : List Word) : ∀ (k : Nat) (t : Thread),
    (∀ j, k ≤ j → j < k + vals.length → ∀ p ∈ t.np, p.tok ≠ token op j) →
      (deliverFrom op k vals t).np = t.np ∧ (deliverFrom op k vals t).n = t.n := by
  induction vals with
  | nil => exact fun _ _ _ => ⟨rfl, rfl⟩
  | cons v vs ih =>
    intro k t h
    simp only [List.length_cons] at h
    rw [deliverFrom, landReg_of_ne v (t := fillSlot t (token op k) v) (h k le_rfl (by omega))]
    exact ih _ _ (fun j h1 h2 => h j (by omega) (by omega))

theorem deliverFrom_regs {op d : Nat} {pc : DWord} {a : List NPend} (vals : List Word) : ∀ (k : Nat) (t : Thread),
    t.np = a ++ (List.range' k vals.length).map (pendAt op d pc) →
    (∀ j, k ≤ j → j < k + vals.length → ∀ p ∈ a, p.tok ≠ token op j) →
      (deliverFrom op k vals t).np = a ∧ (deliverFrom op k vals t).n = setFrom (d + k) vals t.n := by
  induction vals with
  | nil => intro k t h _; exact ⟨h.trans (List.append_nil a), rfl⟩
  | cons v vs ih =>
    intro k t hnp h
    simp only [List.length_cons] at h hnp
    have ha : a.find? (fun p => decide (p.tok = token op k)) = none :=
      List.find?_eq_none.mpr (fun p hp => by simpa using h k le_rfl (by omega) p hp)
    have hland : landReg (fillSlot t (token op k) v) (token op k) v =
        { fillSlot t (token op k) v with
          n := t.n.set (d + k) v
          np := a ++ (List.range' (k + 1) vs.length).map (pendAt op d pc) } := by
      have hrest (p : NPend) (hp : p ∈ a ∨ ∃ j, (k + 1 ≤ j ∧ j < k + 1 + vs.length) ∧ pendAt op d pc j = p) : (p.tok != token op k) = true := by
        obtain hp | ⟨j, hj, rfl⟩ := hp
        · simpa using h k le_rfl (by omega) p hp
        · simp only [pendAt, bne_iff_ne, Ne, token_inj]; omega
      have hkeep : (a ++ (List.range' (k + 1) vs.length).map (pendAt op d pc)).filter (fun p => p.tok != token op k) =
          a ++ (List.range' (k + 1) vs.length).map (pendAt op d pc) :=
        List.filter_eq_self.mpr (fun p hp => hrest p (by simpa using hp))
      simp only [landReg, fillSlot, hnp, List.range'_succ, List.map_cons, List.find?_append, ha, Option.none_or, List.find?_cons, pendAt,
        decide_true, List.filter_append, List.filter_cons, bne_self_eq_false, Bool.false_eq_true, if_false]
      rw [← List.filter_append, hkeep]
    rw [deliverFrom, hland]
    exact ih _ _ rfl (fun j h1 h2 => h j (by omega) (by omega))

theorem regsOf_pending (d op k : Nat) (pc : DWord) (h : d ≠ 0) :
    (regsOf d k).mapIdx (fun j r => NPend.mk r (token op j) false pc) = (List.range' 0 k).map (pendAt op d pc) := by
  apply List.ext_getElem <;> simp [regsOf, h, pendAt]


/-- The queue that the shifts of a word leave, its slots filled: the lowest-addressed word deepest (R111). -/
theorem shiftQueue_filled {op : Nat} {vals : List Word} {pc : DWord} {q : List Slot}
    (h : ∀ x ∈ q, ∀ j, 0 ≤ j → j < 0 + vals.length → x.tok ≠ token op j) :
    (shiftQueue q op vals.length pc).map (filled op 0 vals) = (vals.reverse.map (fun v => Slot.mk v 0 pc) ++ q).take 16 := by
  have hq : q.map (filled op 0 vals) = q := (List.map_congr_left (fun x hx => filled_of_ne (h x hx))).trans (List.map_id q)
  have hv : (List.range vals.length).map (fun i => filled op 0 vals (Slot.mk (Config.freeWord (token op i)) (token op i) pc)) =
      vals.map (fun v => Slot.mk v 0 pc) := by
    refine List.ext_getElem (by simp) (fun i h1 h2 => ?_)
    rw [List.length_map] at h2
    rw [List.getElem_map, List.getElem_map, List.getElem_range, filled_token (i := i) h2 (by rw [Nat.zero_add])]
    simp [h2]
  rw [shiftQueue, List.map_take, List.map_append, hq, List.map_map, List.map_reverse, List.map_reverse]
  exact congrArg (fun l => (l.reverse ++ q).take 16) hv

/-- A thread at the issue of a word: its queue shifted by pending slots, its named registers with pending writes. -/
def issued (t : Thread) (op k d : Nat) (pc : DWord) : Thread :=
  { t with
    q := shiftQueue t.q op k pc
    np := t.np ++ (regsOf d k).mapIdx (fun j r => NPend.mk r (token op j) false pc) }

theorem issued_deliver_q {th : Thread} {op : Nat} {vals : List Word} (d : Nat) (pc : DWord)
    (hq : ∀ x ∈ th.q, ∀ j, 0 ≤ j → j < 0 + vals.length → x.tok ≠ token op j)
    (hw : ∀ j, 0 ≤ j → j < 0 + vals.length → lookup th.winq (token op j) = none) :
    (deliverFrom op 0 vals (issued th op vals.length d pc)).q = (vals.reverse.map (fun v => Slot.mk v 0 pc) ++ th.q).take 16 :=
  (deliverFrom_q op vals 0 (issued th op vals.length d pc) hw).trans (shiftQueue_filled hq)

theorem issued_deliver_regs {th : Thread} {op : Nat} {vals : List Word} (d : Nat) (pc : DWord)
    (hp : ∀ j, 0 ≤ j → j < 0 + vals.length → ∀ p ∈ th.np, p.tok ≠ token op j) :
    (deliverFrom op 0 vals (issued th op vals.length d pc)).np = th.np ∧
    (deliverFrom op 0 vals (issued th op vals.length d pc)).n = if d = 0 then th.n else setFrom d vals th.n := by
  by_cases h : d = 0
  · have hnp : (issued th op vals.length d pc).np = th.np := by simp [issued, regsOf, h]
    rw [if_pos h, ← hnp]
    exact deliverFrom_none vals 0 _ (by rw [hnp]; exact hp)
  · rw [if_neg h]
    exact deliverFrom_regs (d := d) (pc := pc) vals 0 _ (by rw [← regsOf_pending d op _ pc h]; rfl) hp

/-- Settles O29. -/
theorem resultReachesQueueAndRegisters : Obligations.ResultReachesQueueAndRegisters := by
  intro th op d vals pc hq hn hlen hd htok
  have hqueue := issued_deliver_q (vals := vals) d.toNat pc (fun x hx j _ hj => (htok j (by omega)).1 x hx)
    (fun j _ hj => (htok j (by omega)).2.2)
  obtain ⟨hnp, hregs⟩ := issued_deliver_regs (vals := vals) d.toNat pc (fun j _ hj => (htok j (by omega)).2.1)
  have hd0 : d.toNat = 0 ↔ d = 0 := by rw [← BitVec.toNat_inj]; rfl
  simp only [deliverLane_eq]
  refine ⟨?_, fun j hj => ?_, hnp, ?_, fun r hr => ?_, deliverFrom_kept op vals 0 _⟩
  · rw [← issued, hqueue, List.map_take, List.map_append, List.map_map]
    simp only [Function.comp_def, List.map_id']
  · rw [← issued, hqueue]
    have hj' : j < vals.reverse.length := by simpa using hj
    simp [List.getD_eq_getElem?_getD, List.getElem?_append, hj, show j < 16 by omega]
  · rw [← issued, hregs, apply_ite List.length, setFrom_length, hn, ite_self]
  · rw [← issued, hregs]
    by_cases h : d = 0
    · simp [h]
    · rw [if_neg (mt hd0.mp h), getD_setFrom _ _ _ (by rw [hn]; exact hd.resolve_left h)]
      exact if_congr (and_iff_right h).symm rfl rfl

/-! ## The delivery of a result -/

/-- A thread after the entries for its lane among a result's are delivered. -/
def deliverAll (op i : Nat) (vals : Table (List Word)) (t : Thread) : Thread :=
  vals.foldl (fun t e => if e.1 = i then deliverLane t op e.2 else t) t

theorem deliverAll_cons (op i : Nat) (e : Nat × List Word) (vals : Table (List Word)) :
    deliverAll op i (e :: vals) = deliverAll op i vals ∘ fun t => if e.1 = i then deliverLane t op e.2 else t := rfl

theorem deliverAll_of_not_mem {op i : Nat} {vals : Table (List Word)} (h : i ∉ vals.map (fun e => e.1)) (t : Thread) :
    deliverAll op i vals t = t := by
  induction vals with
  | nil => rfl
  | cons e vals ih =>
    simp only [List.map_cons, List.mem_cons, not_or] at h
    rw [deliverAll, List.foldl_cons, if_neg (Ne.symm h.1)]
    exact ih h.2

theorem deliverAll_of_mem {op : Nat} {vals : Table (List Word)} (hn : (vals.map (fun e => e.1)).Nodup) {e : Nat × List Word}
    (he : e ∈ vals) (t : Thread) : deliverAll op e.1 vals t = deliverLane t op e.2 := by
  induction vals with
  | nil => cases he
  | cons x vals ih =>
    obtain ⟨hx, hn⟩ := List.nodup_cons.mp hn
    rw [deliverAll, List.foldl_cons]
    obtain rfl | he := List.mem_cons.mp he
    · rw [if_pos rfl]; exact deliverAll_of_not_mem hx _
    · rw [if_neg (fun h : x.1 = e.1 => hx (List.mem_map.mpr ⟨e, he, h.symm⟩))]
      exact ih hn he

theorem deliverTo_spec (c lf op : Nat) (vals : Table (List Word)) : ∀ (s : State) (f : LaneFrame), laneFrame s c lf = some f →
    ∃ g, laneFrame (deliverTo s c lf op vals) c lf = some g ∧
      (Machine.core (deliverTo s c lf op vals) c).deliveries = (Machine.core s c).deliveries ∧
      ∀ i, lookup g.threads i = (lookup f.threads i).map (deliverAll op i vals) := by
  induction vals with
  | nil => exact fun s f hf => ⟨f, hf, rfl, fun i => (congrFun Option.map_id (lookup f.threads i)).symm⟩
  | cons e vals ih =>
    intro s f hf
    have hlog := Logged.undoRegs s c lf e.1 op (thread f e.1) e.2.length
    obtain ⟨n, b, hf1⟩ := hlog.lane hf
    obtain ⟨r, lfs, hc1⟩ := hlog.core c
    obtain ⟨g, hg, hd, hth⟩ := ih _ _ (laneFrame_modLF_self hf1 (fun f => modThread f e.1 (fun t => deliverLane t op e.2)))
    have hstep : deliverTo s c lf op (e :: vals) = deliverTo (modLF (undoRegs s c lf e.1 op (thread f e.1) e.2.length) c lf
        (fun f => modThread f e.1 (fun t => deliverLane t op e.2))) c lf op vals := by
      rw [deliverTo, List.foldl_cons, hf, ← deliverTo]
    refine ⟨g, hstep ▸ hg, ?_, fun i => ?_⟩
    · rw [hstep, hd, modLF, core_modCore_self, modC, hc1]
    · rw [hth, lookup_modThread]
      by_cases hi : i = e.1
      · subst hi; simp only [reduceIte, Option.map_map, deliverAll_cons]
      · simp only [if_neg hi, deliverAll_cons, if_neg (Ne.symm hi)]; rfl

theorem deliverTo_mem {c lf op : Nat} {vals : Table (List Word)} {s : State} (h : undoOn s = false) :
    (deliverTo s c lf op vals).mem = s.mem := by
  refine (List.foldlRecOn vals _ (motive := fun t => t.mem = s.mem ∧ undoOn t = false) ⟨rfl, h⟩ (fun t ht e _ => ?_)).1
  cases hf : laneFrame t c lf with
  | none => exact ht
  | some f => exact ⟨by simpa [hf, undoRegs_off ht.2] using ht.1, by simp only [undoRegs_off ht.2]; exact ht.2⟩

/-- Settles O30. -/
theorem resultDelivery : Obligations.ResultDelivery := by
  intro s c op x f hx hf
  refine ⟨fun h => ?_, fun h hn => ?_⟩
  · have : ¬ x.due ≤ s.cycle := by omega
    show execResultDeliver c op s = _
    simp [execResultDeliver, hx, this]
  · have hf1 : laneFrame (modCore s c (fun k => { k with deliveries := k.deliveries.filter (fun x => x.op != op) })) c x.lf = some f :=
      (laneFrame_modCore (g := fun k => { k with deliveries := k.deliveries.filter (fun x => x.op != op) }) rfl _ _).trans hf
    obtain ⟨g, hg, hd, hth⟩ := deliverTo_spec c x.lf op x.vals _ _ hf1
    refine ⟨_, g, ?_, hg, ?_, fun hu => ?_, fun e he th ht => ?_, fun i th hi ht => ?_⟩
    · show execResultDeliver c op s = _
      simp [execResultDeliver, hx, h]
    · rw [hd, core_modCore_self]
    · exact deliverTo_mem (s := modCore s c _) hu
    · rw [thread_of_lookup (by rw [hth, ht, Option.map_some]), deliverAll_of_mem hn he]
    · rw [thread_of_lookup (by rw [hth, ht, Option.map_some]), deliverAll_of_not_mem hi]

/-! ## Regroup points -/

/-- A change of threads that sets their marks of regroup points and nothing else. -/
def SetsMarks (h : Nat → Thread → Thread) : Prop :=
  ∀ i t, ∃ a b, h i t = { t with regroup := a, through := b }

/-- What coming to a header changes: marks of regroup points of threads, and read-ahead buffers. -/
structure Regrouped (s t : State) : Prop where
  frame : t = { s with cores := t.cores }
  core (c : Nat) : ∃ ra lfs, Machine.core t c = { Machine.core s c with
    readAhead := ra
    c := { (Machine.core s c).c with lfs := lfs } }
  lane {c l : Nat} {f : LaneFrame} (h : laneFrame s c l = some f) : ∃ ts h, SetsMarks h ∧
    laneFrame t c l = some { f with threads := ts } ∧ ∀ i, lookup ts i = (lookup f.threads i).map (h i)

theorem Regrouped.refl (s : State) : Regrouped s s where
  frame := rfl
  core _ := ⟨_, _, rfl⟩
  lane {_ _ f} hf := ⟨f.threads, fun _ t => t, fun _ _ => ⟨_, _, rfl⟩, hf, fun i => (congrFun Option.map_id (lookup f.threads i)).symm⟩

theorem Regrouped.trans {s t u : State} (h : Regrouped s t) (k : Regrouped t u) : Regrouped s u where
  frame := by rw [k.frame, h.frame]
  core c := by
    obtain ⟨ra, lfs, hc⟩ := h.core c
    obtain ⟨ra', lfs', hc'⟩ := k.core c
    exact ⟨ra', lfs', by rw [hc', hc]⟩
  lane hf := by
    obtain ⟨ts, m, hm, ht, hl⟩ := h.lane hf
    obtain ⟨ts', m', hm', hu, hl'⟩ := k.lane ht
    refine ⟨ts', fun i x => m' i (m i x), fun i x => ?_, hu, fun i => by rw [hl', hl, Option.map_map]; rfl⟩
    obtain ⟨a, b, h1⟩ := hm i x
    obtain ⟨a', b', h2⟩ := hm' i (m i x)
    exact ⟨a', b', h2.trans (by rw [h1])⟩

/-- A lane frame set to itself with marks changed. -/
theorem Regrouped.setLF {s : State} {c l : Nat} {f : LaneFrame} {ts : Table Thread} {h : Nat → Thread → Thread} (hf : laneFrame s c l = some f)
    (hm : SetsMarks h) (hl : ∀ i, lookup ts i = (lookup f.threads i).map (h i)) : Regrouped s (setLF s c l { f with threads := ts }) where
  frame := rfl
  core d := by
    by_cases hd : d = c
    · subst hd; exact ⟨_, _, core_modCore_self _ _ _⟩
    · exact ⟨_, _, core_modCore_ne _ _ hd⟩
  lane {d m g} hg := by
    by_cases hdm : d = c ∧ m = l
    · obtain ⟨rfl, rfl⟩ := hdm
      obtain rfl : f = g := Option.some.inj (hf.symm.trans hg)
      exact ⟨ts, h, hm, laneFrame_setLF_self .., hl⟩
    · rw [laneFrame_setLF_ne s _ hdm]
      exact (Regrouped.refl s).lane hg

theorem Regrouped.modLF {s : State} {c l : Nat} {g : LaneFrame → LaneFrame} {h : Nat → Thread → Thread} (hm : SetsMarks h)
    (hg : ∀ f, g f = { f with threads := f.threads.map (fun e => (e.1, h e.1 e.2)) }) : Regrouped s (modLF s c l g) where
  frame := rfl
  core d := by
    by_cases hd : d = c
    · subst hd; exact ⟨_, _, core_modCore_self _ _ _⟩
    · exact ⟨_, _, core_modCore_ne _ _ hd⟩
  lane {d m f} hf := by
    rw [laneFrame_modLF]
    split
    · exact ⟨_, h, hm, by rw [hf, Option.map_some, hg], fun i => lookup_mapVals _ h i⟩
    · exact (Regrouped.refl s).lane hf

theorem Regrouped.readAhead (s : State) (c : Nat) : Regrouped s (modCore s c (fun k => { k with readAhead := [] })) where
  frame := rfl
  core d := by
    by_cases hd : d = c
    · subst hd; exact ⟨_, _, core_modCore_self _ _ _⟩
    · exact ⟨_, _, core_modCore_ne _ _ hd⟩
  lane hf := (laneFrame_modCore (g := fun k => { k with readAhead := [] }) rfl _ _ : laneFrame (modCore s c _) _ _ = _) ▸ (Regrouped.refl s).lane hf

theorem Regrouped.regroupTest (s : State) (wg : Nat) : Regrouped s (regroupTest s wg) := by
  unfold Machine.regroupTest
  cases workgroup s wg with
  | none => exact .refl s
  | some w =>
    simp only
    cases liveThreads s w with
    | nil => exact .refl s
    | cons t0 ts =>
      simp only
      split
      · refine Regrouped.trans ?_ (.readAhead _ _)
        refine List.foldlRecOn w.lfs _ (motive := fun t => Regrouped s t) (.refl s) (fun t ht l _ => ht.trans ?_)
        exact .modLF (h := fun _ t => { t with regroup := false, through := t.through || t.regroup }) (fun _ _ => ⟨_, _, rfl⟩) (fun _ => rfl)
      · exact .refl s

theorem setsMarks_of_lanes (m : LaneMask) (r : Nat → Thread → Bool) :
    SetsMarks (fun i t => if m.getLsbD i then { t with regroup := r i t, through := false } else t) := by
  intro i t
  by_cases h : m.getLsbD i = true
  · exact ⟨r i t, false, if_pos h⟩
  · exact ⟨t.regroup, t.through, if_neg h⟩

theorem Regrouped.arriveAt (s : State) (c l : Nat) (m : LaneMask) : Regrouped s (arriveAt s c l m) := by
  unfold Machine.arriveAt
  cases hf : laneFrame s c l with
  | none => exact .refl s
  | some f =>
    refine Regrouped.trans ?_ (.regroupTest _ _)
    exact .setLF hf (setsMarks_of_lanes m (fun i t => decide (pcPos t.pc = 0) && t.live && seesRegroup s c l i (pcAddr t.pc)))
      (fun i => lookup_modThreads f m (fun i t =>
        { t with regroup := decide (pcPos t.pc = 0) && t.live && seesRegroup s c l i (pcAddr t.pc), through := false }) i)

/-! ## The end of a clause -/

/-- The clause of a bundle at its end, its threads changed first. -/
def ended (s : State) (u : Iss) (m : LaneMask) (g : Nat → Thread → Thread) : State :=
  endClause (modLF s u.c u.l (fun f => modThreads f m g)) u

/-- The issue slot of a bundle free from the next cycle. -/
def slotFreed (s : State) (u : Iss) : State :=
  modCore s u.c (fun k => modC k (fun y => { y with slots := put y.slots (u.l / 16) (s.cycle + 1) }))

theorem laneFrame_slotFreed (s : State) (u : Iss) (c l : Nat) : laneFrame (slotFreed s u) c l = laneFrame s c l :=
  laneFrame_modCore rfl c l

/-- A lane frame without its clause. -/
def clauseless (u : Iss) (f : LaneFrame) : LaneFrame := { f with clause := none, yielding := u.hdr.yld }

theorem endClause_of_not_stepping {s : State} (h : stepping s = false) (u : Iss) :
    endClause s u = { modLF (slotFreed s u) u.c u.l (clauseless u) with at_ := none } := by
  have h' : stepping { modLF (slotFreed s u) u.c u.l (clauseless u) with at_ := none } = false := h
  show stepHalt { modLF (slotFreed s u) u.c u.l (clauseless u) with at_ := none } _ _ _ _ = _
  simp only [stepHalt, h', Bool.false_eq_true, if_false]

theorem goOn_next {s : State} {u : Iss} {stay : LaneMask} (hw : lastWord u = false) (h : stay ≠ 0) : goOn s u stay =
    { modLF s u.c u.l (fun f =>
      { modThreads f stay (fun _ t => { t with pc := pcImage (u.cl.pos + 1) (wordAddr u.cl.hdrAddr (u.cl.pos + 1)) }) with
        clause := some { u.cl with pos := u.cl.pos + 1, lanes := stay, nextAt := s.cycle + 1, since := s.cycle + 1 } }) with at_ := none } := by
  simp only [goOn, hw, Bool.false_eq_true, if_false, if_neg h]

theorem jump_eq (s : State) (u : Iss) (tgt : Nat → Option Nat) : jump s u tgt =
    arriveAt (ended s u u.cl.lanes (fun i t => match tgt i with
      | some a => { t with pc := pcImage 0 a }
      | none => { t with live := false, parked := false })) u.c u.l u.cl.lanes := rfl

theorem advance_eq {s : State} {u : Iss} (h : lastWord u = true) : advance s u =
    arriveAt (ended s u u.cl.lanes (fun _ t => { t with pc := pcImage 0 (wordAddr u.cl.hdrAddr (u.cl.pos + 1)) })) u.c u.l u.cl.lanes := by
  simp only [advance, goOn, h, if_true, ended]

section
variable {s : State} {u : Iss} (hs : stepping s = false) {f : LaneFrame} (hf : laneFrame s u.c u.l = some f) (m : LaneMask)
  (g : Nat → Thread → Thread)
include hs

theorem ended_eq : ended s u m g =
    { modLF (slotFreed (modLF s u.c u.l (fun f => modThreads f m g)) u) u.c u.l (clauseless u) with at_ := none } :=
  endClause_of_not_stepping (s := modLF s u.c u.l (fun f => modThreads f m g)) hs u

theorem ended_slots : look (Machine.core (ended s u m g) u.c).c.slots (u.l / 16) 0 = s.cycle + 1 := by
  have h : Machine.core (ended s u m g) u.c =
      Machine.core (modLF (slotFreed (modLF s u.c u.l (fun f => modThreads f m g)) u) u.c u.l (clauseless u)) u.c :=
    core_congr (by rw [ended_eq hs]) u.c
  rw [h, modLF, core_modCore_self, slotFreed, core_modCore_self]
  exact look_put_self ..

include hf in
theorem ended_lane : laneFrame (ended s u m g) u.c u.l = some (clauseless u (modThreads f m g)) := by
  rw [ended_eq hs]
  exact laneFrame_modLF_self ((laneFrame_slotFreed ..).trans (laneFrame_modLF_self hf _)) _

/-- What coming to a header after a clause's end leaves of the bundle's lane frame. -/
theorem arrived_spec (hf : laneFrame s u.c u.l = some f) : ∃ f', laneFrame (arriveAt (ended s u m g) u.c u.l m) u.c u.l = some f' ∧
    f'.clause = none ∧ f'.yielding = u.hdr.yld ∧ (arriveAt (ended s u m g) u.c u.l m).mem = s.mem ∧
    (arriveAt (ended s u m g) u.c u.l m).at_ = none ∧
    look (Machine.core (arriveAt (ended s u m g) u.c u.l m) u.c).c.slots (u.l / 16) 0 = s.cycle + 1 ∧
    ∀ i th, lookup f.threads i = some th → ∃ a b, thread f' i = { if m.getLsbD i then g i th else th with regroup := a, through := b } := by
  have hr := Regrouped.arriveAt (ended s u m g) u.c u.l m
  obtain ⟨ts, h, hm, hl, ht⟩ := hr.lane (ended_lane hs hf m g)
  obtain ⟨ra, lfs, hc⟩ := hr.core u.c
  refine ⟨_, hl, rfl, rfl, ?_, ?_, ?_, fun i th hth => ?_⟩
  · rw [hr.frame, ended_eq hs]; rfl
  · rw [hr.frame, ended_eq hs]
  · rw [hc]; exact ended_slots hs m g
  · obtain ⟨a, b, he⟩ := hm i (if m.getLsbD i then g i th else th)
    refine ⟨a, b, (thread_of_lookup ?_).trans he⟩
    rw [ht, clauseless, lookup_modThreads, hth]; rfl

end

/-- Settles O31. -/
theorem bundleGoesOn : Obligations.BundleGoesOn := by
  refine ⟨fun s u stay hf hw hstay => ?_, fun s u hf hs => ⟨fun tgt => ?_, fun hw => ?_⟩⟩
  · rw [goOn_next hw hstay]
    refine ⟨_, _, rfl, rfl, laneFrame_modLF_self hf _, rfl, fun i th hi => ?_, fun c hc => (core_congr (s := modLF s u.c u.l _) rfl c).trans (core_modCore_ne s _ hc)⟩
    exact thread_modThreads (f := u.f) (g := fun _ t => { t with pc := pcImage (u.cl.pos + 1) (wordAddr u.cl.hdrAddr (u.cl.pos + 1)) }) hi
  · rw [jump_eq]
    obtain ⟨f, hl, hcl, hy, hmem, hat, hslot, hth⟩ := arrived_spec hs u.cl.lanes _ hf
    refine ⟨f, hl, hcl, hy, hmem, hat, hslot, fun i th hi => ?_⟩
    obtain ⟨a, b, he⟩ := hth i th hi
    rw [he]
    cases u.cl.lanes.getLsbD i <;> cases tgt i <;> simp
  · rw [advance_eq hw]
    obtain ⟨f, hl, hcl, hy, hmem, hat, hslot, hth⟩ := arrived_spec hs u.cl.lanes _ hf
    refine ⟨f, hl, hcl, hy, hmem, hat, hslot, fun i th hi => ?_⟩
    obtain ⟨a, b, he⟩ := hth i th hi
    rw [he]
    cases u.cl.lanes.getLsbD i <;> simp

/-! ## The frame of a word that only delivers values -/

/-- What such a word keeps of a thread: in a lane of its bundle the named registers, the flags, the wait and the stamp, elsewhere
the queue and the place as well. -/
structure KeepsThread (inside : Prop) (a b : Thread) : Prop where
  n : b.n = a.n
  flags : b.flags = a.flags
  wait : b.wait = a.wait
  stamp : b.stamp = a.stamp
  outside : ¬ inside → b.q = a.q ∧ b.np = a.np ∧ b.live = a.live ∧ b.parked = a.parked ∧ b.pc = a.pc

theorem KeepsThread.refl (p : Prop) (a : Thread) : KeepsThread p a a := ⟨rfl, rfl, rfl, rfl, fun _ => ⟨rfl, rfl, rfl, rfl, rfl⟩⟩

theorem KeepsThread.trans {p : Prop} {a b c : Thread} (h : KeepsThread p a b) (k : KeepsThread p b c) : KeepsThread p a c where
  n := k.n.trans h.n
  flags := k.flags.trans h.flags
  wait := k.wait.trans h.wait
  stamp := k.stamp.trans h.stamp
  outside hp := by
    obtain ⟨h1, h2, h3, h4, h5⟩ := h.outside hp
    obtain ⟨k1, k2, k3, k4, k5⟩ := k.outside hp
    exact ⟨k1.trans h1, k2.trans h2, k3.trans h3, k4.trans h4, k5.trans h5⟩

/-- Whether a lane of a lane frame is in a bundle. -/
def Iss.Has (u : Iss) (c l i : Nat) : Prop := (c, l) = (u.c, u.l) ∧ u.cl.lanes.getLsbD i = true

/-- A step of a word that only delivers values or moves its threads. -/
structure WordStep (u : Iss) (s t : State) : Prop where
  frame : t = { s with cores := t.cores, ops := t.ops, at_ := t.at_ }
  core (c : Nat) : ∃ dl ra lfs sl, Machine.core t c = { Machine.core s c with
    deliveries := dl
    readAhead := ra
    c := { (Machine.core s c).c with lfs := lfs, slots := sl } }
  lane (c l : Nat) (f : LaneFrame) : laneFrame s c l = some f → ∃ g, laneFrame t c l = some g ∧ g.rows = f.rows ∧ g.count = f.count ∧
    ∀ i th, lookup f.threads i = some th → ∃ th', lookup g.threads i = some th' ∧ KeepsThread (Iss.Has u c l i) th th'

theorem WordStep.registerOnly {u : Iss} {s t : State} (h : WordStep u s t) : RegisterOnly s t u := by
  refine ⟨h.frame, fun c => ?_, fun c l f hf => ?_⟩
  · obtain ⟨dl, ra, lfs, sl, hc⟩ := h.core c
    rw [hc]
    exact ⟨rfl, rfl, rfl, rfl, rfl, rfl, rfl, rfl, rfl, rfl, rfl, rfl, rfl, rfl⟩
  · obtain ⟨g, hg, hr, hc, hth⟩ := h.lane c l f hf
    refine ⟨g, hg, hr, hc, fun i th hi => ?_⟩
    obtain ⟨th', hl, hk⟩ := hth i th hi
    rw [thread_of_lookup hl]
    refine ⟨hk.n, hk.flags, hk.wait, hk.stamp, fun ho => hk.outside (fun hin => ?_)⟩
    exact ho.elim (fun h => h hin.1) (fun h => by simp [hin.2] at h)

theorem WordStep.trans {u : Iss} {s t v : State} (h : WordStep u s t) (k : WordStep u t v) : WordStep u s v where
  frame := by rw [k.frame, h.frame]
  core c := by
    obtain ⟨dl, ra, lfs, sl, hc⟩ := h.core c
    obtain ⟨dl', ra', lfs', sl', hc'⟩ := k.core c
    exact ⟨dl', ra', lfs', sl', by rw [hc', hc]⟩
  lane c l f hf := by
    obtain ⟨g, hg, hr, hc, hth⟩ := h.lane c l f hf
    obtain ⟨g', hg', hr', hc', hth'⟩ := k.lane c l g hg
    refine ⟨g', hg', hr'.trans hr, hc'.trans hc, fun i th hi => ?_⟩
    obtain ⟨x, hx, hk⟩ := hth i th hi
    obtain ⟨y, hy, hk'⟩ := hth' i x hx
    exact ⟨y, hy, hk.trans hk'⟩

theorem WordStep.of_cores {u : Iss} {s t : State} (h : t = { s with ops := t.ops, at_ := t.at_ }) : WordStep u s t where
  frame := by rw [h]
  core c := ⟨_, _, _, _, by rw [h]; rfl⟩
  lane c l f hf := ⟨f, by rw [h]; exact hf, rfl, rfl, fun i th hi => ⟨th, hi, .refl _ _⟩⟩

theorem WordStep.refl (u : Iss) (s : State) : WordStep u s s := .of_cores rfl

theorem WordStep.at_none (u : Iss) (s : State) : WordStep u s { s with at_ := none } := .of_cores rfl

theorem WordStep.fresh (u : Iss) (s : State) : WordStep u s (fresh s) := .of_cores rfl

theorem WordStep.of_regrouped {u : Iss} {s t : State} (h : Regrouped s t) : WordStep u s t where
  frame := by rw [h.frame]
  core c := by
    obtain ⟨ra, lfs, hc⟩ := h.core c
    exact ⟨_, ra, lfs, _, hc⟩
  lane c l f hf := by
    obtain ⟨ts, m, hm, ht, hl⟩ := h.lane hf
    refine ⟨_, ht, rfl, rfl, fun i th hi => ⟨m i th, by rw [hl, hi]; rfl, ?_⟩⟩
    obtain ⟨a, b, he⟩ := hm i th
    rw [he]
    exact ⟨rfl, rfl, rfl, rfl, fun _ => ⟨rfl, rfl, rfl, rfl, rfl⟩⟩

/-- A change of a core's results on their way and of its issue slots. -/
theorem WordStep.modCore (u : Iss) {s : State} {c : Nat} {g : Core → Core}
    (h : ∀ k, ∃ dl sl, g k = { k with deliveries := dl, c := { k.c with slots := sl } }) : WordStep u s (modCore s c g) where
  frame := rfl
  core d := by
    by_cases hd : d = c
    · subst hd
      obtain ⟨dl, sl, hg⟩ := h (Machine.core s d)
      exact ⟨dl, _, _, sl, (core_modCore_self ..).trans hg⟩
    · exact ⟨_, _, _, _, core_modCore_ne _ _ hd⟩
  lane d l f hf := by
    obtain ⟨dl, sl, hg⟩ := h (Machine.core s c)
    refine ⟨f, ?_, rfl, rfl, fun i th hi => ⟨th, hi, .refl _ _⟩⟩
    rw [laneFrame_modCore (by rw [hg]), hf]

/-- A change of the bundle's lane frame and of its lanes' threads. -/
theorem WordStep.modLF {u : Iss} {s : State} {g : LaneFrame → LaneFrame} (h : Nat → Thread → Thread)
    (hg : ∀ f, (g f).rows = f.rows ∧ (g f).count = f.count ∧ (g f).threads = (modThreads f u.cl.lanes h).threads)
    (hk : ∀ i t, KeepsThread True t (h i t)) : WordStep u s (modLF s u.c u.l g) where
  frame := rfl
  core d := by
    by_cases hd : d = u.c
    · subst hd; exact ⟨_, _, _, _, core_modCore_self ..⟩
    · exact ⟨_, _, _, _, core_modCore_ne _ _ hd⟩
  lane c l f hf := by
    obtain ⟨hr, hc, ht⟩ := hg f
    rw [laneFrame_modLF, hf]
    by_cases hin : c = u.c ∧ l = u.l
    · rw [if_pos hin]
      refine ⟨g f, rfl, hr, hc, fun i th hi => ⟨if u.cl.lanes.getLsbD i then h i th else th, by rw [ht, lookup_modThreads, hi]; rfl, ?_⟩⟩
      by_cases hl : u.cl.lanes.getLsbD i = true
      · rw [if_pos hl]
        obtain ⟨h1, h2, h3, h4, _⟩ := hk i th
        exact ⟨h1, h2, h3, h4, fun hn => absurd ⟨by rw [hin.1, hin.2], hl⟩ hn⟩
      · rw [if_neg hl]; exact .refl _ _
    · rw [if_neg hin]
      exact ⟨f, rfl, rfl, rfl, fun i th hi => ⟨th, hi, .refl _ _⟩⟩

theorem WordStep.endClause {u : Iss} {s : State} (hs : stepping s = false) : WordStep u s (endClause s u) := by
  have hfree : WordStep u s (slotFreed s u) := .modCore u (fun k => ⟨k.deliveries, _, rfl⟩)
  have hclause : WordStep u (slotFreed s u) (Machine.modLF (slotFreed s u) u.c u.l (clauseless u)) := by
    refine .modLF (fun _ t => t) (fun f => ⟨rfl, rfl, ?_⟩) (fun _ _ => .refl _ _)
    exact ((List.map_congr_left (fun e _ => ite_self e)).trans (List.map_id f.threads)).symm
  rw [endClause_of_not_stepping hs]
  exact (hfree.trans hclause).trans (.at_none u _)

theorem WordStep.ended {u : Iss} {s : State} (hs : stepping s = false) {h : Nat → Thread → Thread} (hk : ∀ i t, KeepsThread True t (h i t)) :
    WordStep u s (ended s u u.cl.lanes h) := by
  have hmove : WordStep u s (Machine.modLF s u.c u.l (fun f => modThreads f u.cl.lanes h)) :=
    .modLF h (fun f => ⟨rfl, rfl, rfl⟩) hk
  exact hmove.trans (.endClause (s := Machine.modLF s u.c u.l (fun f => modThreads f u.cl.lanes h)) hs)

theorem WordStep.jump {u : Iss} {s : State} (hs : stepping s = false) (tgt : Nat → Option Nat) : WordStep u s (jump s u tgt) := by
  rw [jump_eq]
  refine (WordStep.ended hs (fun i t => ?_)).trans (.of_regrouped (.arriveAt ..))
  cases tgt i <;> exact ⟨rfl, rfl, rfl, rfl, fun h => absurd trivial h⟩

theorem WordStep.advance {u : Iss} {s : State} (hs : stepping s = false) : WordStep u s (advance s u) := by
  by_cases hw : lastWord u = true
  · rw [advance_eq hw]
    refine (WordStep.ended hs (fun i t => ?_)).trans (.of_regrouped (.arriveAt ..))
    exact ⟨rfl, rfl, rfl, rfl, fun h => absurd trivial h⟩
  · have hw' : lastWord u = false := by simpa using hw
    by_cases hl : u.cl.lanes = 0
    · rw [Machine.advance, goOn, if_neg hw, if_pos hl]
      exact .endClause hs
    · rw [Machine.advance, goOn_next hw' hl]
      refine WordStep.trans (t := Machine.modLF s u.c u.l _) ?_ (.at_none u _)
      exact .modLF (fun _ t => { t with pc := pcImage (u.cl.pos + 1) (wordAddr u.cl.hdrAddr (u.cl.pos + 1)) })
        (fun f => ⟨rfl, rfl, rfl⟩) (fun i t => ⟨rfl, rfl, rfl, rfl, fun h => absurd trivial h⟩)

theorem WordStep.sendVals {u : Iss} {s : State} (hu : undoOn s = false) (lat k : Nat) (d : BitVec 4) (vals : Table (List Word)) :
    WordStep u s (sendVals s u lat k d vals) := by
  have hun : undoShifts (Machine.fresh s) u k = Machine.fresh s := undoShifts_off (s := Machine.fresh s) hu u k
  have hpend : WordStep u (Machine.fresh s) (Machine.modLF (Machine.fresh s) u.c u.l (fun f => pend f u.cl.lanes s.ops k d.toNat false u.pc)) :=
    .modLF _ (fun f => ⟨rfl, rfl, rfl⟩) (fun i t => ⟨rfl, rfl, rfl, rfl, fun h => absurd trivial h⟩)
  rw [Machine.sendVals]
  simp only [hun]
  exact ((WordStep.fresh u s).trans hpend).trans (.modCore u (fun k => ⟨_, k.c.slots, rfl⟩))

/-- Settles O32. -/
theorem registerWordFrame : Obligations.RegisterWordFrame := by
  refine fun s u _ hu hs => ⟨fun lat k d vals => ?_, fun tgt => (WordStep.jump hs tgt).registerOnly⟩
  have h := WordStep.sendVals (u := u) hu lat k d vals
  have hs' : stepping (sendVals s u lat k d vals) = false := by rw [h.frame]; exact hs
  exact (h.trans (.advance hs')).registerOnly

end Sys2Proof.Proofs
end

section
/-!
PROOFS. Memory words: what issues, what reaches its home, and the address phase.
-/
namespace Sys2Proof.Proofs
open Sys2Proof Sys2Proof.Machine Sys2Proof.Spec

/-! ## Requests note the cycle of their issue -/

theorem blockReqs_left {first : Nat} {l : List Part} {g : Part → Req} (h : ∀ p, (g p).left = 0) :
    ∀ r ∈ blockReqs first l g, r.left = 0 := by
  intro r hr
  obtain ⟨k, hk, rfl⟩ := List.mem_mapIdx.mp hr
  exact h l[k]

/-- A state of cycle 5 in which a word issues, its core holding a host translation of page 0. -/
def fifthCycle : State := { Tests.hosted true with cycle := 5 }

theorem fifthCycle_reqs (c : Nat) (h : c = 0) : (Machine.core fifthCycle c).reqs = [] := by subst h; rfl

/-- Refutes O33: a request notes the cycle in which it is formed, which in cycle 5 is not the 0 that the statement gives it. -/
theorem not_memoryIssueEffect : ¬ Obligations.MemoryIssueEffect := by
  intro h
  obtain ⟨u, hu⟩ := Option.isSome_iff_exists.mp (by decide +kernel : (issuing fifthCycle).isSome = true)
  have hrun : (issuing fifthCycle).all (fun u => decide (u.c = 0) && decide (laneFrame fifthCycle u.c u.l = some u.f) &&
      queueRoom fifthCycle u.c ((partsOf (laneBytes [(0, .virt 0 0)] 4 (fun _ => []))).filter (fun p => p.space.isVirt)).length &&
      (Machine.core (issueStore fifthCycle u 4 none none [(0, .virt 0 0)] [] (fun _ => [])) u.c).reqs.any (fun r => r.left != 0)) = true := by
    decide +kernel
  simp only [hu, Option.all_some, Bool.and_eq_true, decide_eq_true_eq] at hrun
  obtain ⟨⟨⟨hc, hf⟩, hroom⟩, hleft⟩ := hrun
  obtain ⟨_, hstore, _⟩ := h fifthCycle u [(0, .virt 0 0)] [] hf (by decide +kernel) (by decide +kernel)
  obtain ⟨_, _, hreqs, _⟩ := hstore 4 none none (fun _ => []) hroom
  rw [fifthCycle_reqs u.c hc, List.nil_append] at hreqs
  obtain ⟨r, hr, hne⟩ := List.any_eq_true.mp (hreqs ▸ hleft)
  exact absurd (blockReqs_left (fun _ => rfl) r hr) (by simpa using hne)

/-- Refutes O12, in the same way: the write of a host store notes the cycle of its issue. -/
theorem not_hostPointerWords : ¬ Obligations.HostPointerWords := by
  intro h
  obtain ⟨u, hu⟩ := Option.isSome_iff_exists.mp (by decide +kernel : (issuing fifthCycle).isSome = true)
  have hrun : (issuing fifthCycle).all (fun u => decide (u.c = 0) && !acquiring fifthCycle u &&
      decide (eachLane u (hostBased ⟨0, 18⟩ (BitVec.toInt (0 : BitVec 9) * 4) u) = some [(0, 0)]) &&
      decide (eachLane u (low 4 0 u) = some [(0, [0, 0, 0, 0])]) && decide (hostMiss fifthCycle u.c [(0, 0)] 4 true = none)) = true := by
    decide +kernel
  have hleft : (match exec (.sthB32 0 .a ⟨0, 18⟩ 0) fifthCycle with
      | .next t => (Machine.core t 0).reqs.any (fun r => r.left != 0)
      | _ => false) = true := by decide +kernel
  simp only [hu, Option.all_some, Bool.and_eq_true, decide_eq_true_eq, Bool.not_eq_true'] at hrun
  obtain ⟨⟨⟨⟨hc, ha⟩, haddr⟩, hdata⟩, hmiss⟩ := hrun
  obtain ⟨_, _, hstore, _⟩ := h 0 .a ⟨0, 18⟩ 0
  obtain ⟨t, ht, _, hreqs, _⟩ := (hstore fifthCycle u _ _ hu ha haddr hdata).1 hmiss
  rw [fifthCycle_reqs u.c hc, List.nil_append, hc] at hreqs
  rw [ht] at hleft
  change (Machine.core t 0).reqs.any (fun r => r.left != 0) = true at hleft
  obtain ⟨r, hr, hne⟩ := List.any_eq_true.mp (hreqs ▸ hleft)
  exact absurd (blockReqs_left (fun _ => rfl) r hr) (by simpa using hne)

/-- A state whose page 0 may be changed, in which a word issues while undo logging to an HBM page applies. -/
def loggingPages : State := { Tests.mapped Tests.demo 0x16 with dbgctl := 2 ^ 17 + 2 ^ 50 }

/-- Refutes O14: with undo logging on, the write of the logged q16 value takes an operation number before the page request does. -/
theorem not_pageAttributeWords : ¬ Obligations.PageAttributeWords := by
  intro h
  obtain ⟨u, hu⟩ := Option.isSome_iff_exists.mp (by decide +kernel : (issuing loggingPages).isSome = true)
  have hrun : (issuing loggingPages).all (fun u => decide (u.c = 0) && decide (u.lanes = [0]) && !writeHeld u (regsOf 0 1) && !acquiring loggingPages u &&
      decide (eachLane u (oneWord 17 u) = some [(0, 0, 0)]) && decide (eachLane u (read32 u ⟨0, 17⟩) = some [(0, 0)]) &&
      decide (attrFault loggingPages (ctxId loggingPages) (attrPages (regionOf loggingPages u.f.wg * 2 ^ 32 + 0) 1) = none)) = true := by
    decide +kernel
  have hid : (match exec (.hint 0 .a 17 ⟨0, 17⟩) loggingPages with
      | .next t => (Machine.core t 0).c.pageReqs.map (fun q => q.id)
      | _ => []) = [3] := by decide +kernel
  simp only [hu, Option.all_some, Bool.and_eq_true, decide_eq_true_eq, Bool.not_eq_true'] at hrun
  obtain ⟨⟨⟨⟨⟨⟨hc, hl⟩, hw⟩, ha⟩, hctl⟩, haddr⟩, hfault⟩ := hrun
  obtain ⟨t, ht, _, _, hreqs⟩ := ((h.1 0 .a 17 ⟨0, 17⟩).1 loggingPages u _ _ hu hw ha hctl haddr).2 (by decide +kernel) |>.2
    (fun l hl' => by rw [hl] at hl'; obtain rfl := List.mem_singleton.mp hl'; exact hfault)
  rw [ht] at hid
  change (Machine.core t 0).c.pageReqs.map (fun q => q.id) = [3] at hid
  rw [hc, hl] at hreqs
  have hnone : (Machine.core loggingPages 0).c.pageReqs = [] := rfl
  have hops : loggingPages.ops = 1 := rfl
  simp [hreqs, hnone, hops] at hid

/-! ## What leaves memory as it is -/

@[simp] theorem recordPark_mem (s : State) (c lf : Nat) (unpark : Bool) (lanes : LaneMask) (pc : DWord) (cause : Nat) :
    (recordPark s c lf unpark lanes pc cause).mem = s.mem := by
  unfold recordPark
  split <;> rfl

@[simp] theorem wakeLanes_mem (s : State) (c l : Nat) (m : LaneMask) (cause : Nat) : (wakeLanes s c l m cause).mem = s.mem := by
  unfold wakeLanes
  cases laneFrame s c l with
  | none => rfl
  | some f =>
    simp only
    split
    · rfl
    · exact recordPark_mem ..

@[simp] theorem fireMonitor_mem (s : State) (m : Monitor) : (fireMonitor s m).mem = s.mem := by
  unfold fireMonitor
  split
  · rfl
  · simp only
    split
    · rfl
    · exact wakeLanes_mem ..

@[simp] theorem fireOn_mem (s : State) (n len : Nat) : (fireOn s n len).mem = s.mem := by
  refine List.foldlRecOn s.monitors _ (motive := fun t : State => t.mem = s.mem) rfl (fun t ht m _ => ?_)
  split
  · split
    · exact ht
    · split
      · exact (fireMonitor_mem t m).trans ht
      · exact ht
  · exact ht

@[simp] theorem checkReady_mem (s : State) : (checkReady s).mem = s.mem := by
  refine List.foldlRecOn s.launches _ (motive := fun t : State => t.mem = s.mem) rfl (fun t ht x _ => ?_)
  split
  · simp only
    split
    · split
      · exact (raise_mem _ _).trans ht
      · exact ht
    · split
      · exact ht
      · exact ht
  · exact ht

@[simp] theorem afterWrite_mem (s : State) (n len : Nat) : (afterWrite s n len).mem = s.mem := by
  rw [afterWrite, checkReady_mem, fireOn_mem]; rfl

@[simp] theorem setDirty_mem (s : State) (key : Nat) : (setDirty s key).mem = s.mem := by
  unfold setDirty
  simp only
  split
  · split <;> rfl
  · rfl

@[simp] theorem dropAhead_mem (s : State) (c : Nat) (r : Req) : (dropAhead s c r).mem = s.mem := by
  unfold dropAhead
  split
  · split <;> rfl
  · rfl

@[simp] theorem finishShare_mem (s : State) (c : Nat) (r : Req) : (finishShare s c r).mem = s.mem := by
  unfold finishShare
  simp only
  split <;> rfl

/-! ## A store at its home -/

theorem not_encrypted_of_frame {n : Nat} (h : Config.frameBase ≤ n) : encrypted n = false := by
  have h' : 2 ^ 46 ≤ n := h
  simp only [encrypted, Bool.or_eq_false_iff, Bool.and_eq_false_iff, decide_eq_false_iff_not, not_lt]
  exact ⟨by omega, .inr h⟩

theorem not_gone_of_frame {n : Nat} (h : n < Config.opBufBase) : isGone n = false := by
  have h' : n < 2 ^ 47 := h
  simp only [isGone, Bool.and_eq_false_iff, decide_eq_false_iff_not, not_le]
  exact .inl (show n < 2 ^ 49 by omega)

theorem storeUnder_mem_of_plain {s : State} {key base : Nat} {d : Table Byte} (he : encrypted base = false) (hg : isGone base = false) :
    (storeUnder s key base d).mem = Mem.patch s.mem base d := by
  simp [storeUnder, he, hg]

theorem applyWrite_mem_of_frame {s : State} {key base : Nat} {d : Table Byte} (h1 : Config.frameBase ≤ base) (h2 : base < Config.opBufBase) :
    (applyWrite s key base d none).mem = Mem.patch s.mem base d := by
  unfold applyWrite
  cases d with
  | nil => rfl
  | cons e d =>
    simp only [List.isEmpty_cons, Bool.false_eq_true, if_false, if_pos (And.intro h1 h2), afterWrite_mem, setDirty_mem]
    exact storeUnder_mem_of_plain (not_encrypted_of_frame h1) (not_gone_of_frame h2)

theorem undoWords_off {s : State} (h : undoOn s = false) (c lf : Nat) (lane : Nat → Nat) (pc key base addr : Nat) (d : Table Byte) :
    undoWords s c lf lane pc key base addr d = s := by
  simp [undoWords, h]

theorem applyStore_mem {s : State} (hu : undoOn s = false) (c : Nat) (r : Req) {n : Nat} (h1 : Config.frameBase ≤ n)
    (h2 : n < Config.opBufBase) : (applyStore s c r 0 n none).mem = Mem.patch s.mem n r.data := by
  simp only [applyStore, undoWords_off hu, ite_self, finishShare_mem, applyWrite_mem_of_frame h1 h2, dropAhead_mem]

/-- Settles O34. -/
theorem storeReachesItsHome : Obligations.StoreReachesItsHome := by
  intro s c r n h1 h2 hu hn
  simp only [applyStore_mem hu c r h1 h2]
  exact ⟨fun o b hb => Mem.byte_patch_of_mem r.data n o b hn hb s.mem, fun a ha => Mem.byte_patch_of_not_mem r.data n a ha s.mem⟩

/-! ## Atomics at their home -/

theorem readUnder_plain {s : State} {n len : Nat} (key : Nat) (h : ∀ k < len, encrypted (n + k) = false ∧ isGone (n + k) = false) :
    readUnder s key n len = Mem.read s.mem n len := by
  refine List.map_congr_left (fun i hi => ?_)
  obtain ⟨he, hg⟩ := h i (List.mem_range.mp hi)
  simp [byteUnder, he, hg]

theorem leNat_cons (b : Byte) (l : List Byte) : leNat (b :: l) = b.toNat + 256 * leNat l := rfl

theorem leNat_lt (l : List Byte) : leNat l < 256 ^ l.length := by
  induction l with
  | nil => exact Nat.one_pos
  | cons b l ih =>
    have hb : b.toNat < 256 := b.isLt
    rw [leNat_cons, List.length_cons, Nat.pow_succ]
    omega

theorem leBytes_succ (n x : Nat) : leBytes (n + 1) x = BitVec.ofNat 8 x :: leBytes n (x / 256) := by
  simp only [leBytes, List.range_succ_eq_map, List.map_cons, List.map_map, Nat.mul_zero, Nat.shiftRight_zero]
  congr 1
  refine List.map_congr_left (fun i _ => ?_)
  simp only [Function.comp_apply, Nat.succ_eq_add_one, Nat.mul_add, Nat.mul_one, Nat.add_comm (8 * i) 8, Nat.shiftRight_add]
  rw [Nat.shiftRight_eq_div_pow x 8]

@[simp] theorem leNat_leBytes (n : Nat) : ∀ x, leNat (leBytes n x) = x % 256 ^ n := by
  induction n with
  | zero => intro x; simp [leBytes, leNat, Nat.mod_one]
  | succ n ih =>
    intro x
    rw [leBytes_succ, leNat_cons, ih, BitVec.toNat_ofNat, Nat.pow_succ' (n := n), Nat.mod_mul]

@[simp] theorem length_leBytes (n x : Nat) : (leBytes n x).length = n := by simp [leBytes]

theorem length_memRead (m : List Host.Cell) (a n : Nat) : (Mem.read m a n).length = n := by simp [Mem.read]

theorem word_toNat (m : List Host.Cell) (a : Nat) : (Mem.word m a).toNat = leNat (Mem.read m a 4) := by
  have h := leNat_lt (Mem.read m a 4)
  rw [length_memRead] at h
  exact Nat.mod_eq_of_lt h

section
variable {s : State} {n : Nat} (h : ∀ k < 16, encrypted (n + k) = false ∧ isGone (n + k) = false) (b b2 : Word)
include h

theorem readUnder_arrival (key : Nat) {o len : Nat} (hl : o + len ≤ 16) : readUnder s key (n + o) len = Mem.read s.mem (n + o) len :=
  readUnder_plain key (fun k hk => by rw [Nat.add_assoc]; exact h (o + k) (by omega))

/-- An atomic of one word, from the value that it makes of the old one. -/
theorem atomEffect_word (o : AtomOp) (ho : o ≠ .arriveInit ∧ o ≠ .arriveAdd) : atomEffect s o 0 n b b2 =
    (Mem.word s.mem n, ((atomValue o (Mem.word s.mem n) b b2).map (fun v => byteTable (leBytes 4 v.toNat))).getD []) := by
  have hr : readUnder s 0 n 4 = Mem.read s.mem n 4 := readUnder_arrival h 0 (o := 0) (by omega)
  cases o with
  | arriveInit => exact absurd rfl ho.1
  | arriveAdd => exact absurd rfl ho.2
  | cas =>
    simp only [atomEffect, hr]
    rw [← Mem.word, atomValue]
    by_cases he : Mem.word s.mem n = b
    · rw [if_pos he]; rfl
    · rw [if_neg he]; rfl
  | _ => simp only [atomEffect, hr]; rfl

theorem atomEffect_arriveInit : atomEffect s .arriveInit 0 n b b2 =
    (BitVec.ofNat 32 (leNat (Mem.read s.mem (n + 8) 2)), byteTable (leBytes 8 b.toNat)) := by
  rw [atomEffect, readUnder_arrival h 0 (by omega)]

theorem atomEffect_arriveAdd : atomEffect s .arriveAdd 0 n b b2 =
    (BitVec.ofNat 32 (leNat (Mem.read s.mem (n + 8) 2)), (byteTable (leBytes 6
      ((arriveAdd (Mem.word s.mem n).toNat (Mem.word s.mem (n + 4)).toNat (leNat (Mem.read s.mem (n + 8) 2)) b.toNat).1 +
        (arriveAdd (Mem.word s.mem n).toNat (Mem.word s.mem (n + 4)).toNat (leNat (Mem.read s.mem (n + 8) 2)) b.toNat).2 * 2 ^ 32))).map
          (fun e => (e.1 + 4, e.2))) := by
  have hr : readUnder s 0 n 4 = Mem.read s.mem n 4 := readUnder_arrival h 0 (o := 0) (by omega)
  rw [word_toNat, word_toNat, atomEffect, readUnder_arrival h 0 (by omega), readUnder_arrival h 0 (by omega), hr]

end

theorem scalar_fp32 (x : Word) : scalar fp32 x = x.toNat := Nat.mod_eq_of_lt x.isLt

theorem map_fst_byteTable (l : List Byte) : (byteTable l).map (fun e => e.1) = List.range l.length := by
  apply List.ext_getElem <;> simp [byteTable]

theorem map_fst_byteTable_after (k : Nat) (l : List Byte) :
    ((byteTable l).map (fun e => (e.1 + k, e.2))).map (fun e => e.1) = (List.range l.length).map (fun i => i + k) := by
  rw [← map_fst_byteTable, List.map_map, List.map_map]; rfl

theorem map_snd_byteTable (l : List Byte) : (byteTable l).map (fun e => e.2) = l := by
  apply List.ext_getElem <;> simp [byteTable]

/-- Settles O35. -/
theorem atomicOperations : Obligations.AtomicOperations := by
  intro s n b b2 h
  have hw (o : AtomOp) (ho : o ≠ .arriveInit ∧ o ≠ .arriveAdd) {v : Word} (hv : atomValue o (Mem.word s.mem n) b b2 = some v) :
      atomEffect s o 0 n b b2 = (Mem.word s.mem n, byteTable (leBytes 4 v.toNat)) := by
    rw [atomEffect_word h b b2 o ho, hv]; rfl
  have hgen : leNat (Mem.read s.mem (n + 8) 2) < 2 ^ 16 := by
    have h := leNat_lt (Mem.read s.mem (n + 8) 2)
    rwa [length_memRead] at h
  refine ⟨hw .add ⟨by decide, by decide⟩ (congrArg some ?_), hw .addF ⟨by decide, by decide⟩ (congrArg some ?_),
    hw .mins ⟨by decide, by decide⟩ (congrArg some (minS_eq _ _)), hw .maxs ⟨by decide, by decide⟩ (congrArg some (maxS_eq _ _)),
    hw .minz ⟨by decide, by decide⟩ (congrArg some (minZ_eq _ _)), hw .maxz ⟨by decide, by decide⟩ (congrArg some (maxZ_eq _ _)),
    hw .and ⟨by decide, by decide⟩ rfl, hw .or ⟨by decide, by decide⟩ rfl, hw .xor ⟨by decide, by decide⟩ rfl,
    hw .exch ⟨by decide, by decide⟩ rfl, fun he => hw .cas ⟨by decide, by decide⟩ (if_pos he), fun he => ?_,
    atomEffect_arriveInit h b b2, ?_, ?_, ?_⟩
  · simp [wrap_add]
  · rw [bin, scalar_fp32, scalar_fp32]
  · rw [atomEffect_word h b b2 .cas ⟨by decide, by decide⟩, atomValue, if_neg he]; rfl
  · rw [atomEffect_arriveAdd h b b2]
  · rw [atomEffect_arriveAdd h b b2]
    rw [map_fst_byteTable_after, length_leBytes]; rfl
  · rw [atomEffect_arriveAdd h b b2]
    simp only [List.map_map, Function.comp_def]
    rw [map_snd_byteTable, leNat_leBytes]
    simp only [arriveAdd]
    split
    · simp only; omega
    · simp only; omega

/-! ## The address phase -/

section
variable {s : State} {u : Iss} {r : Reach} {align w kind : Nat} {write : Bool} {ea : Nat → Option Nat} {eas : Table Nat}
  (h : eachLane u ea = some eas)
include h

theorem findPlaces_misaligned {e : Nat × Nat} (he : eas.find? (fun e => decide (e.2 % align ≠ 0)) = some e) :
    findPlaces s u r align w kind write ea = (.trap 4 e.2, s) := by
  simp only [findPlaces, h, he]

theorem findPlaces_aligned (ha : ∀ e ∈ eas, e.2 % align = 0) : findPlaces s u r align w kind write ea =
    match eas.find? (fun e => (placeOf s u r e.2).isNone) with
    | some e => (.trap 5 e.2, s)
    | none => checkPages s u.c (ctxId s) (eas.map (fun e => (e.1, (placeOf s u r e.2).getD (.scr 0)))) w kind write := by
  have hn : eas.find? (fun e => decide (e.2 % align ≠ 0)) = none :=
    List.find?_eq_none.mpr (fun e he => by simp [ha e he])
  simp only [findPlaces, h, hn] <;> rfl

end

theorem regionVa_regionOf {s : State} {w : Nat} {x : Launch} (h : launchOf s w = some x) {ea : Nat} (he : ea < 2 ^ 32) :
    regionVa (regionOf s w) ea = x.entry / 2 ^ 32 * 2 ^ 32 + ea := by
  simp only [regionVa, regionOf, h, Nat.mod_eq_of_lt he]

theorem scratchBytes_of_launch {s : State} {w : Nat} {x : Launch} (h : launchOf s w = some x) : scratchBytes s w = x.scratch * 4096 := by
  simp only [scratchBytes, h]

theorem clusterRank_eq (ea : Nat) : clusterRank ea = ea / 2 ^ 21 % 16 := by
  simp [clusterRank, bits, Nat.shiftRight_eq_div_pow]

theorem clusterOff_eq (ea : Nat) : clusterOff ea = ea % 2 ^ 21 := by simp [clusterOff, bits]

/-- A place in a rank's scratchpad, none outside the launch's limits (R202, R208). -/
theorem scratchPlace_rank {s : State} {w : Workgroup} {x : Launch} (h : launchOf s w.id = some x) (r off : Nat) :
    scratchPlace s w (some r) off = if off < x.scratch * 4096 ∧ r < x.wgPerCl then some (.scr (mateByte s w r off)) else none := by
  simp only [scratchPlace, scratchBytes_of_launch h, h]
  by_cases h1 : off < x.scratch * 4096 <;> by_cases h2 : r < x.wgPerCl <;> simp [h1, h2]

theorem scratchPlace_own {s : State} {w : Workgroup} {x : Launch} (h : launchOf s w.id = some x) (off : Nat) :
    scratchPlace s w none off = if off < x.scratch * 4096 then some (.scr (scratchByte w off)) else none := by
  simp only [scratchPlace, scratchBytes_of_launch h]

/-- An access within one page names that page alone. -/
theorem pagesOf_within {ctx va w : Nat} (hw : 0 < w) (hp : va % 4096 + w ≤ 4096) (hva : va < 2 ^ 48) :
    pagesOf (.virt ctx va) w = [va / 4096] := by
  have ha : (Space.virt ctx va).page = va / 4096 := Nat.mod_eq_of_lt (by omega)
  have hb : ((Space.virt ctx va).plus (w - 1)).page = va / 4096 := by
    simp only [Space.plus, Space.page, regionAdd]
    omega
  simp only [pagesOf, ha, hb, if_true]

/-- The rows of R211 for one page. -/
theorem checkPages_single {s s1 : State} {c ctx va w kind lane : Nat} {write : Bool} {r : Except Nat DWord} (hw : 0 < w)
    (hp : va % 4096 + w ≤ 4096) (hva : va < 2 ^ 48) (hf : fetchTrans s c ctx (va / 4096) = (r, s1)) :
    checkPages s c ctx [(lane, .virt ctx va)] w kind write =
      if fetchWaits s c ctx (va / 4096) then (.hold, s) else
      match r with
      | .error k => (.trap k (pageDetail (va / 4096) kind), s1)
      | .ok e =>
        if entOrd e = 3 then (.trap 6 (pageDetail (va / 4096) kind), s1)
        else if entM e || (write && !entW e) then (.trap 7 (pageDetail (va / 4096) kind), s1)
        else if entKind e = 3 then (.cap (va / 4096), s1)
        else (.ok [(lane, .virt ctx va)] [(va / 4096, e)], s1) := by
  have hpages := pagesOf_within (ctx := ctx) hw hp hva
  have ht : translateAll s c ctx [va / 4096] = ([(va / 4096, r)], s1) := by simp only [translateAll, hf]; rfl
  have hl : lookup [(va / 4096, r)] (va / 4096) = some r := by simp [lookup]
  simp only [checkPages, List.flatMap_cons, List.flatMap_nil, List.append_nil, hpages, (List.nodup_singleton (va / 4096)).dedup, List.any_cons, List.any_nil,
    Bool.or_false, ht, firstBad, List.findSome?_cons, List.findSome?_nil, rowFault, rowProtect, hl]
  cases r with
  | error k => simp
  | ok e =>
    by_cases h1 : entOrd e = 3 <;> by_cases h2 : (entM e || (write && !entW e)) = true <;> by_cases h3 : entKind e = 3 <;>
      simp [h1, h2, h3, entsOf]

/-- Settles O11. -/
theorem addressPhase : Obligations.AddressPhase := by
  refine ⟨fun s u r align w kind write ea eas h => ⟨fun e he => findPlaces_misaligned h he, fun ha => ⟨fun e he => ?_, fun hp => ?_⟩⟩,
    fun s u ea w x hea hid hwg hl => ?_, fun s s1 c ctx va w kind write lane r hw hp hva hf => ?_⟩
  · have he' : eas.find? (fun e => (placeOf s u r e.2).isNone) = some e := by
      rw [← he]; congr 1; funext e; cases placeOf s u r e.2 <;> rfl
    rw [findPlaces_aligned h ha, he']
  · have hn : eas.find? (fun e => (placeOf s u r e.2).isNone) = none :=
      List.find?_eq_none.mpr (fun e he => by simpa [Option.isNone_iff_eq_none] using hp e he)
    refine ⟨eas.map (fun e => (e.1, (placeOf s u r e.2).getD (.scr 0))), ?_, by rw [findPlaces_aligned h ha, hn]⟩
    rw [List.map_map]
    refine List.map_congr_left (fun e he => ?_)
    obtain ⟨x, hx⟩ := Option.ne_none_iff_exists'.mp (hp e he)
    simp [hx]
  · have hlw : launchOf s w.id = some x := hid ▸ hl
    have hown (i : Nat) : placeOf s u .own i = scratchPlace s w none i := by simp only [placeOf, hwg, Option.bind_some]
    have hmate (hi : ea / 2 ^ 25 = 0x7F) : placeOf s u .cluster ea = scratchPlace s w (some (ea / 2 ^ 21 % 16)) (ea % 2 ^ 21) := by
      simp only [placeOf, isCluster, hi, decide_true, if_true, hwg, Option.bind_some, clusterRank_eq, clusterOff_eq]
    refine ⟨?_, fun h => ?_, fun h => ?_, fun h => ⟨?_, ?_⟩, fun h => ⟨?_, fun hout => ?_, fun m h1 h2 hm => ?_⟩⟩
    · simp only [placeOf, regionVa_regionOf hl hea]
    · rw [hown, scratchPlace_own hlw, if_neg (by omega)]
    · rw [hown, scratchPlace_own hlw, if_pos h]
    · simp only [placeOf, isCluster, h, decide_false, Bool.false_eq_true, if_false]
    · simp only [placeOf, isCluster, h, decide_false, Bool.false_eq_true, if_false]
    · simp only [placeOf, isCluster, h, decide_true, if_true]
    · rw [hmate h, scratchPlace_rank hlw, if_neg (by omega)]
    · rw [hmate h, scratchPlace_rank hlw, if_pos ⟨h2, h1⟩, mateByte, hm]
  · simp only [checkPages_single hw hp hva hf]
    have hd : pageDetail (va / 4096) kind = va / 4096 + kind * 2 ^ 36 := by rw [pageDetail, Nat.mod_eq_of_lt (by omega)]
    refine ⟨fun hfw => by rw [if_pos hfw], fun hfw => ⟨fun k hk => ?_, fun e he => ⟨fun h1 => ?_, fun h1 h2 => ?_, fun h1 h2 h3 h4 => ?_,
      fun h1 h2 h3 h4 => ?_⟩⟩⟩
    · simp [hfw, hk, hd]
    · simp [hfw, he, hd, h1]
    · simp [hfw, he, hd, h1, h2]
    · cases write <;> simp_all
    · cases write <;> simp_all

/-! ## Loads, stores and atomics as words -/

theorem loads_of_loadWord {i : Instr} {f : LoadForm} {reg : Nat} {fs : Side} {ea : Iss → Nat → Option Nat}
    (hi : ∀ s, exec i s = .next (loadWord s f reg fs ea)) : Loads i f reg fs ea := by
  intro s s1 u hu hw ha
  obtain ⟨hok, htrap, _⟩ := loadWord_issuing hu f reg fs ea hw ha
  exact ⟨fun addrs ents h => by rw [hi, hok addrs ents s1 h], fun k d h => by rw [hi, htrap k d s1 h]⟩

theorem loads_of_loadM {i : Instr} {f : LoadForm} {scale : Nat} {r : BitVec 4} {fs : Side} {b : Src} {x : BitVec 9} {n : Int}
    (hi : ∀ s, exec i s = loadM s f scale r fs b x) (hn : n = scale * x.toInt) : Loads i f r.toNat fs (based b n) := by
  obtain rfl : n = off9 x * scale := hn.trans (mul_comm _ _)
  exact loads_of_loadWord hi

theorem stores_of_storeWord {i : Instr} {w align : Nat} {r : Reach} {fs : Side} {rel : Option Scope} {ea : Iss → Nat → Option Nat}
    {data : Iss → Nat → Option (List Byte)} (hi : ∀ s, exec i s = .next (storeWord s w align r fs rel ea data)) :
    Stores i w align r fs rel ea data := by
  intro s s1 u vals hu ha hv
  obtain ⟨hok, htrap⟩ := storeWord_issuing hu w align r fs rel ea data ha hv
  exact ⟨fun addrs ents h _ => by rw [hi, hok addrs ents s1 h], fun k d h => by rw [hi, htrap k d s1 h]⟩

theorem stores_of_storeM {i : Instr} {w align : Nat} {reach : Reach} {scale : Nat} {r : BitVec 4} {fs : Side} {b : Src} {x : BitVec 9}
    {n : Int} {data : Iss → Nat → Option (List Byte)} (hi : ∀ s, exec i s = storeM s w align reach scale r fs b x)
    (hn : n = scale * x.toInt) (hd : ∀ u i, storeData u w r i = data u i) : Stores i w align reach fs none (based b n) data := by
  obtain rfl : n = off9 x * scale := hn.trans (mul_comm _ _)
  obtain rfl : (fun u i => storeData u w r i) = data := funext₂ hd
  exact stores_of_storeWord hi

/-- Settles O9: each word is one of the shared load and store words. -/
theorem loadAndStoreWords : Obligations.LoadAndStoreWords :=
  ⟨fun _ _ _ _ => ⟨
    loads_of_loadM (fun _ => rfl) (one_mul _).symm, loads_of_loadM (fun _ => rfl) (one_mul _).symm,
    loads_of_loadM (fun _ => rfl) rfl, loads_of_loadM (fun _ => rfl) rfl, loads_of_loadM (fun _ => rfl) rfl,
    loads_of_loadM (fun _ => rfl) rfl, loads_of_loadM (fun _ => rfl) rfl, loads_of_loadM (fun _ => rfl) rfl,
    loads_of_loadM (fun _ => rfl) rfl, loads_of_loadM (fun _ => rfl) rfl, loads_of_loadM (fun _ => rfl) rfl,
    loads_of_loadM (fun _ => rfl) rfl, loads_of_loadM (fun _ => rfl) rfl⟩,
  fun _ _ _ _ => ⟨
    stores_of_storeM (fun _ => rfl) (one_mul _).symm (fun _ _ => rfl), stores_of_storeM (fun _ => rfl) rfl (fun _ _ => rfl),
    stores_of_storeM (fun _ => rfl) rfl (fun _ _ => rfl), stores_of_storeM (fun _ => rfl) rfl (fun _ _ => rfl),
    stores_of_storeM (fun _ => rfl) rfl (fun _ _ => rfl), stores_of_storeM (fun _ => rfl) rfl (fun _ _ => rfl),
    stores_of_storeM (fun _ => rfl) rfl (fun _ _ => rfl), stores_of_storeM (fun _ => rfl) rfl (fun _ _ => rfl),
    stores_of_storeM (fun _ => rfl) rfl (fun _ _ => rfl), stores_of_storeM (fun _ => rfl) rfl (fun _ _ => rfl)⟩⟩

theorem atomics_of_atomicWord {i : Instr} {o : AtomOp} {w : Nat} {r : Reach} {reg : Nat} {fs : Side} {acq : Bool} {rel : Option Scope}
    {ea : Iss → Nat → Option Nat} {val : Iss → Nat → Option (Word × Word)}
    (hi : ∀ s, exec i s = .next (atomicWord s o w r reg fs acq rel ea val)) : Atomics i o w r reg fs acq rel ea val := by
  intro s s1 u vals hu hw ha hv
  obtain ⟨hok, htrap⟩ := atomicWord_issuing hu o w r reg fs acq rel ea val hw ha hv
  exact ⟨fun addrs ents h _ _ => by rw [hi, hok addrs ents s1 h], fun k d h => by rw [hi, htrap k d s1 h]⟩

/-- An address without an offset. -/
theorem effective_zero (v : Word) : effective v 0 = v.toNat := by
  have h : v.toNat < 2 ^ 32 := v.isLt
  simp only [effective]
  omega

theorem direct_eq (a : Src) : (fun u i => (read32 u a i).map (fun v => effective v 0)) = direct a := by
  funext u i; simp only [effective_zero]; rfl

theorem acquires_eq (q : Qual) : acquires q = decide (q = .acq ∨ q = .ar) := by cases q <;> rfl

theorem releases_eq (q : Qual) (c : Scope) : (if releases q then some c else none) = if q = .rel ∨ q = .ar then some c else none := by
  cases q <;> rfl

theorem atomics_of_atomic {i : Instr} {o : AtomOp} {q : Qual} {d : BitVec 4} {c : Scope} {f : Side} {b : BitVec 5} {a : Src}
    (hi : ∀ s, exec i s = atomic s o q d c f b a) : Atomics i o 4 .either d.toNat f (decide (q = .acq ∨ q = .ar))
      (if q = .rel ∨ q = .ar then some c else none) (direct a) (oneWord b) := by
  rw [← acquires_eq, ← releases_eq, ← direct_eq]
  exact atomics_of_atomicWord hi

theorem twoWords_eq (b : BitVec 5) :
    (fun u i => (readSC64 u b i).map (fun v => (v.extractLsb' 0 32, v.extractLsb' 32 32))) = twoWords b := by
  funext u i
  have h (v : DWord) := out64_eq_words64 v
  simp only [out64, words64, List.cons.injEq, and_true] at h
  simp only [twoWords, (h _).1, (h _).2]

theorem atomics_of_cas {q : Qual} {d : BitVec 4} {c : Scope} {f : Side} {b : BitVec 5} {a : Src} :
    Atomics (.atmCasB32 q d c f b a) .cas 4 .either d.toNat f (decide (q = .acq ∨ q = .ar))
      (if q = .rel ∨ q = .ar then some c else none) (direct a) (twoWords b) := by
  rw [← acquires_eq, ← releases_eq, ← direct_eq, ← twoWords_eq]
  exact atomics_of_atomicWord (fun _ => rfl)

theorem atomics_of_arrival {i : Instr} {o : AtomOp} {d : BitVec 4} {f : Side} {rel : Option Scope} {b : BitVec 5} {a : Src}
    (hi : ∀ s, exec i s = arrival s o d f rel b a) : Atomics i o 16 .arrive d.toNat f false rel (direct a) (oneWord b) := by
  rw [← direct_eq]
  exact atomics_of_atomicWord hi

theorem loads_of_loadAcq {i : Instr} {w : Nat} {d : BitVec 4} {f : Side} {a : Src} (hi : ∀ s, exec i s = loadAcq s w d f a) :
    Loads i ⟨w, false, .acquire, w, .either⟩ d.toNat f (direct a) := by
  rw [← direct_eq]
  exact loads_of_loadWord hi

theorem stores_of_storeRel {i : Instr} {w : Nat} {c : Scope} {f : Side} {b : BitVec 5} {a : Src} {data : Iss → Nat → Option (List Byte)}
    (hi : ∀ s, exec i s = storeRel s w c f b a)
    (hd : (fun u i => if w = 8 then (readSC64 u b i).map (fun v => leBytes 8 v.toNat) else (readSC u b i).map (fun v => leBytes 4 v.toNat)) = data) :
    Stores i w w .either f (some c) (direct a) data := by
  subst hd
  rw [← direct_eq]
  exact stores_of_storeWord hi

/-- Settles O10. -/
theorem atomicWords : Obligations.AtomicWords :=
  ⟨fun _ _ _ _ _ _ => ⟨atomics_of_atomic (fun _ => rfl), atomics_of_atomic (fun _ => rfl), atomics_of_atomic (fun _ => rfl),
    atomics_of_atomic (fun _ => rfl), atomics_of_atomic (fun _ => rfl), atomics_of_atomic (fun _ => rfl),
    atomics_of_atomic (fun _ => rfl), atomics_of_atomic (fun _ => rfl), atomics_of_atomic (fun _ => rfl),
    atomics_of_atomic (fun _ => rfl), atomics_of_cas, atomics_of_arrival (fun _ => rfl), atomics_of_arrival (fun _ => rfl)⟩,
   fun _ _ _ _ _ => ⟨loads_of_loadAcq (fun _ => rfl), loads_of_loadAcq (fun _ => rfl), stores_of_storeRel (fun _ => rfl) rfl,
    stores_of_storeRel (fun _ => rfl) rfl⟩⟩

/-! ## Waiting words and fences -/

theorem monitorWord_issuing {s s1 s2 : State} {u : Iss} {cond : MonCond} {w : Nat} {r : Reach} {d : BitVec 4} {fs : Side} {b : BitVec 5}
    {a : Src} {bs : Table Word} {addrs : Table Space} {ents : Table DWord} {nums : Table Nat} (hu : issuing s = some u)
    (hw : writeHeld u (regsOf d.toNat 1) = false) (ha : acquiring s u = false) (hb : eachLane u (fun i => readSC u b i) = some bs)
    (hp : findPlaces s u r w w 0 false (direct a u) = (.ok addrs ents, s1)) (hn : strongAll s1 u w ents addrs = (.ok nums, s2)) :
    monitorWord s cond w r d fs b a = .next (issueMonitor s2 u cond d.toNat (u.flag fs) addrs ents nums bs) := by
  have hd : (fun i => (read32 u a i).map (fun v => effective v 0)) = direct a u := congrFun (direct_eq a) u
  simp only [monitorWord, hu, hw, ha, hb, hd, hp, hn, Bool.or_self, Bool.false_eq_true, if_false]

theorem waits_of_monitorWord {i : Instr} {cond : MonCond} {w : Nat} {r : Reach} {d : BitVec 4} {fs : Side} {b : BitVec 5} {a : Src}
    (hi : ∀ s, exec i s = monitorWord s cond w r d fs b a) : Waits i cond w r d fs b a :=
  fun s _ _ _ _ _ _ _ hu hw ha hb hp hn => (hi s).trans (monitorWord_issuing hu hw ha hb hp hn)

theorem condHolds_gez (v b : Word) : condHolds .gez v.toNat b = true ↔ 0 ≤ (v - b).toInt := by
  rw [condHolds, BitVec.ofNat_toNat, BitVec.setWidth_eq, Bool.not_eq_true', ← BitVec.msb_eq_getLsbD_last, BitVec.msb_eq_toInt]
  simp

theorem condHolds_gen {g : Nat} (b : Word) (hg : g < 2 ^ 16) :
    condHolds .gen g b = true ↔ 1 ≤ ((g : Int) - b.toNat) % 2 ^ 16 ∧ ((g : Int) - b.toNat) % 2 ^ 16 ≤ 32767 := by
  have h : ((g : Int) - b.toNat) % 2 ^ 16 = ((g + 65536 - b.toNat % 65536) % 65536 : Nat) := by omega
  rw [h]
  simp only [condHolds, Bool.and_eq_true, decide_eq_true_eq]
  omega

theorem fenceWord_issuing {s : State} {u : Iss} (h : issuing s = some u) (c : Scope) (p : Option Path) : fenceWord s c p =
    .next { modLF { s with ops := s.ops + 1 } u.c u.l (fun f => { f with fence := some ⟨s.ops, c, p⟩ }) with at_ := none } := by
  simp only [fenceWord, h]
  rfl

/-- Settles O13. -/
theorem monitorAndFenceWords : Obligations.MonitorAndFenceWords := by
  refine ⟨⟨fun _ _ _ _ _ => ⟨waits_of_monitorWord (fun _ => rfl), waits_of_monitorWord (fun _ => rfl), waits_of_monitorWord (fun _ => rfl),
    waits_of_monitorWord (fun _ => rfl)⟩, fun v b => ⟨?_, ?_, condHolds_gez v b⟩, fun g b hg => condHolds_gen b hg⟩,
    fun s u c p r hu => ⟨fenceWord_issuing hu c none, fun h => ?_, fun h1 h2 => ?_, fun h1 h2 => ?_⟩⟩
  · simp [condHolds, BitVec.toNat_inj]
  · simp [condHolds, BitVec.toNat_inj]
  · show fenceXWord s c p r = _
    rw [fenceXWord, if_pos h, fenceWord_issuing hu]
  · show fenceXWord s c p r = _
    rw [fenceXWord, if_neg h1, if_pos h2, fenceWord_issuing hu]
  · show fenceXWord s c p r = _
    simp only [fenceXWord, if_neg h1, if_neg h2, hu]
    rfl

end Sys2Proof.Proofs
end

section
/-!
PROOFS. Floating formats: exact sums and products, rounding to a representable value, and the words of chapter 09 that deliver them.
-/
namespace Sys2Proof.Proofs
open Sys2Proof Sys2Proof.Machine Sys2Proof.Spec

/-! ## Exact values (R105, R186, R191) -/

/-- The rational number of a finite decoded value. -/
def finVal (neg : Bool) (m : Nat) (e : Int) : Rat := (if neg then -1 else 1) * (m : Rat) * (2 : Rat) ^ e

theorem realOf_eq_some {f : Fmt} {b : Nat} {x : Rat} (h : realOf f b = some x) :
    ∃ s m e, unpack f b = .fin s m e ∧ finVal s m e = x := by
  unfold realOf at h
  cases hu : unpack f b with
  | nan => simp [hu] at h
  | inf s => simp [hu] at h
  | fin s m e =>
    rw [hu] at h
    exact ⟨s, m, e, rfl, Option.some.inj h⟩

theorem signed_cast (s : Bool) (m : Nat) : ((signed s m : Int) : Rat) = (if s then -1 else 1) * (m : Rat) := by
  cases s <;> simp [signed]

theorem finVal_eq_signed (s : Bool) (m : Nat) (e : Int) : finVal s m e = (signed s m : Int) * (2 : Rat) ^ e := by
  rw [signed_cast, finVal]

theorem finVal_of_int {x : Int} (q : Int) : finVal (decide (x < 0)) x.natAbs q = (x : Rat) * (2 : Rat) ^ q := by
  rw [finVal_eq_signed]
  congr 2
  by_cases h : x < 0
  · simp [signed, h, abs_of_neg h]
  · simp [signed, h, abs_of_nonneg (not_lt.mp h)]

theorem finVal_zero (s : Bool) (e : Int) : finVal s 0 e = 0 := by simp [finVal]

theorem finVal_neg (s : Bool) (m : Nat) (e : Int) : finVal (!s) m e = -finVal s m e := by cases s <;> simp [finVal]

theorem finVal_mul (s s' : Bool) (m m' : Nat) (e e' : Int) : finVal (s != s') (m * m') (e + e') = finVal s m e * finVal s' m' e' := by
  rw [finVal, finVal, finVal, zpow_add₀ two_ne_zero]
  cases s <;> cases s' <;> simp <;> ring

/-- A power of two shifted down to a smaller exponent. -/
theorem zpow_eq_natPow_mul {q e : Int} (h : q ≤ e) : (2 : Rat) ^ e = ((2 ^ (e - q).toNat : Nat) : Rat) * (2 : Rat) ^ q := by
  rw [Nat.cast_pow, Nat.cast_ofNat, ← zpow_natCast, Int.toNat_of_nonneg (by omega), ← zpow_add₀ two_ne_zero, sub_add_cancel]

/-- The sum of two finite values is finite, and exact when it is not 0. -/
theorem addVal_fin (mode : Rnd) (s s' : Bool) (m m' : Nat) (e e' : Int) (h : finVal s m e + finVal s' m' e' ≠ 0) :
    ∃ t n q, addVal mode (.fin s m e) (.fin s' m' e') = .fin t n q ∧ finVal t n q = finVal s m e + finVal s' m' e' := by
  have hm : ¬ (m = 0 ∧ m' = 0) := by
    rintro ⟨rfl, rfl⟩
    exact h (by rw [finVal_zero, finVal_zero, add_zero])
  have hsum : ((signed s m * (2 ^ (e - min e e').toNat : Nat) + signed s' m' * (2 ^ (e' - min e e').toNat : Nat) : Int) : Rat) *
      (2 : Rat) ^ (min e e') = finVal s m e + finVal s' m' e' := by
    rw [finVal_eq_signed s, finVal_eq_signed s', zpow_eq_natPow_mul (min_le_left e e'), zpow_eq_natPow_mul (min_le_right e e')]
    push_cast
    ring
  have hx : signed s m * (2 ^ (e - min e e').toNat : Nat) + signed s' m' * (2 ^ (e' - min e e').toNat : Nat) ≠ 0 := by
    intro h0
    rw [h0, Int.cast_zero, zero_mul] at hsum
    exact h hsum.symm
  refine ⟨_, _, _, ?_, (finVal_of_int _).trans hsum⟩
  simp only [addVal, if_neg hm, if_neg hx]

/-- A finite value that is not 0, packed, is its number rounded. -/
theorem rounds_pack {f : Fmt} {mode : Rnd} {s : Bool} {m : Nat} {e : Int} {x : Rat} (hx : finVal s m e = x) (h : x ≠ 0) :
    Rounds f mode x (pack f mode (.fin s m e)) := by
  refine ⟨s, m, e, Nat.pos_of_ne_zero ?_, hx, rfl⟩
  rintro rfl
  exact h (hx.symm.trans (finVal_zero s e))

theorem rounds_add {f : Fmt} {mode : Rnd} {s s' : Bool} {m m' : Nat} {e e' : Int} {x y : Rat} (hx : finVal s m e = x)
    (hy : finVal s' m' e' = y) (h : x + y ≠ 0) : Rounds f mode (x + y) (pack f mode (addVal mode (.fin s m e) (.fin s' m' e'))) := by
  subst hx hy
  obtain ⟨t, n, q, hadd, hval⟩ := addVal_fin mode s s' m m' e e' h
  rw [hadd]
  exact rounds_pack hval h

theorem exact_operations {f : Fmt} {m : Rnd} {a b c : Nat} {x y z : Rat} (ha : realOf f a = some x) (hb : realOf f b = some y)
    (hc : realOf f c = some z) :
    (x + y ≠ 0 → Rounds f m (x + y) (fadd f m a b)) ∧ (x - y ≠ 0 → Rounds f m (x - y) (fsub f m a b)) ∧
    (x * y ≠ 0 → Rounds f m (x * y) (fmul f m a b)) ∧ (x * y + z ≠ 0 → Rounds f .rn (x * y + z) (ffma f a b c)) ∧
    (x * y - z ≠ 0 → Rounds f .rn (x * y - z) (ffms f a b c)) := by
  obtain ⟨s, n, e, hua, hx⟩ := realOf_eq_some ha
  obtain ⟨s', n', e', hub, hy⟩ := realOf_eq_some hb
  obtain ⟨t, k, q, huc, hz⟩ := realOf_eq_some hc
  have hxy : finVal (s != s') (n * n') (e + e') = x * y := by rw [finVal_mul, hx, hy]
  have hny : finVal (!s') n' e' = -y := by rw [finVal_neg, hy]
  have hnz : finVal (!t) k q = -z := by rw [finVal_neg, hz]
  simp only [fadd, fsub, fmul, ffma, ffms, hua, hub, huc, negVal, mulVal, sub_eq_add_neg]
  exact ⟨rounds_add hx hy, rounds_add hx hny, rounds_pack hxy, rounds_add hxy hz, rounds_add hxy hnz⟩

/-! ## The values of a format in order -/

/-- The magnitude of a code (a bit pattern without its sign), in units of the last bit of a subnormal; codes of exponents past the
format's continue the scale. -/
def mant (f : Fmt) (c : Nat) : Nat :=
  if c / 2 ^ f.fb = 0 then c else (2 ^ f.fb + c % 2 ^ f.fb) * 2 ^ (c / 2 ^ f.fb - 1)

def codeVal (f : Fmt) (c : Nat) : Rat := (mant f c : Rat) * (2 : Rat) ^ (fmtMinExp f)

/-- The code of m × 2^j, for m of at most fb + 2 bits: normal, or of the least exponent. -/
theorem mant_code (f : Fmt) {j m : Nat} (hm : m ≤ 2 * 2 ^ f.fb) (hj : 2 ^ f.fb ≤ m ∨ j = 0) : mant f (j * 2 ^ f.fb + m) = m * 2 ^ j := by
  have hp : 0 < 2 ^ f.fb := Nat.two_pow_pos _
  unfold mant
  rcases lt_or_ge m (2 ^ f.fb) with h1 | h1
  · obtain rfl : j = 0 := hj.resolve_left (by omega)
    simp [Nat.div_eq_of_lt h1]
  · rcases lt_or_ge m (2 * 2 ^ f.fb) with h2 | h2
    · obtain ⟨i, rfl⟩ : ∃ i, m = 2 ^ f.fb + i := ⟨m - 2 ^ f.fb, by omega⟩
      have hc : j * 2 ^ f.fb + (2 ^ f.fb + i) = i + (j + 1) * 2 ^ f.fb := by ring
      rw [hc, Nat.add_mul_div_right _ _ hp, Nat.add_mul_mod_self_right, Nat.div_eq_of_lt (by omega), Nat.mod_eq_of_lt (by omega),
        if_neg (by omega)]
      congr 2
      omega
    · obtain rfl : m = 2 * 2 ^ f.fb := le_antisymm hm h2
      have hc : j * 2 ^ f.fb + 2 * 2 ^ f.fb = (j + 2) * 2 ^ f.fb := by ring
      rw [hc, Nat.mul_div_cancel _ hp, Nat.mul_mod_left, if_neg (by omega), show j + 2 - 1 = j + 1 by omega]
      ring

/-- Every code is one of those. -/
theorem exists_code (f : Fmt) (c : Nat) : ∃ j m, c = j * 2 ^ f.fb + m ∧ m + 1 ≤ 2 * 2 ^ f.fb ∧ (2 ^ f.fb ≤ m ∨ j = 0) := by
  have hp : 0 < 2 ^ f.fb := Nat.two_pow_pos _
  have hd := Nat.div_add_mod c (2 ^ f.fb)
  have hlt := Nat.mod_lt c hp
  cases hq : c / 2 ^ f.fb with
  | zero => exact ⟨0, c, by simp, by rw [hq] at hd; omega, .inr rfl⟩
  | succ j =>
    refine ⟨j, 2 ^ f.fb + c % 2 ^ f.fb, ?_, by omega, .inl (by omega)⟩
    rw [hq] at hd
    rw [← hd]
    simp
    ring

theorem mant_strictMono (f : Fmt) : StrictMono (mant f) := by
  refine strictMono_nat_of_lt_succ (fun c => ?_)
  obtain ⟨j, m, hc, hm, hj⟩ := exists_code f c
  rw [hc, mant_code f (by omega) hj, add_assoc, mant_code f hm (hj.imp (by omega) id)]
  exact Nat.mul_lt_mul_of_pos_right (Nat.lt_succ_self m) (Nat.two_pow_pos j)

theorem codeVal_strictMono (f : Fmt) : StrictMono (codeVal f) := fun _ _ h =>
  mul_lt_mul_of_pos_right (Nat.cast_lt.mpr (mant_strictMono f h)) (zpow_pos two_pos _)

theorem codeVal_nonneg (f : Fmt) (c : Nat) : 0 ≤ codeVal f c := mul_nonneg (Nat.cast_nonneg _) (zpow_nonneg zero_le_two _)

/-- The code of a bit pattern. -/
def codeOf (f : Fmt) (b : Nat) : Nat := b % 2 ^ (f.eb + f.fb)

theorem codeOf_div {f : Fmt} (he : 0 < f.eb) (b : Nat) : codeOf f b / 2 ^ f.fb = bits b (f.eb + f.fb - 1) f.fb := by
  rw [codeOf, Nat.pow_add, Nat.mul_comm, Nat.mod_mul_right_div_self, bits, Nat.shiftRight_eq_div_pow,
    show f.eb + f.fb - 1 + 1 - f.fb = f.eb by omega]

theorem codeOf_mod (f : Fmt) (b : Nat) : codeOf f b % 2 ^ f.fb = b % 2 ^ f.fb :=
  Nat.mod_mod_of_dvd _ (Nat.pow_dvd_pow 2 (Nat.le_add_left _ _))

theorem codeOf_lt (f : Fmt) (b : Nat) : codeOf f b < 2 ^ f.eb * 2 ^ f.fb := by
  rw [← Nat.pow_add]; exact Nat.mod_lt _ (Nat.two_pow_pos _)

/-- The value of a bit pattern whose code lies below the format's infinity. -/
theorem realOf_of_code {f : Fmt} {b : Nat} (he : 0 < f.eb) (h : codeOf f b < fmtInf f) :
    realOf f b = some ((if bit b (f.eb + f.fb) then -1 else 1) * codeVal f (codeOf f b)) := by
  have hp : 0 < 2 ^ f.fb := Nat.two_pow_pos _
  have hlt : codeOf f b / 2 ^ f.fb < 2 ^ f.eb - 1 := (Nat.div_lt_iff_lt_mul hp).mpr h
  have hu : unpack f b = if codeOf f b / 2 ^ f.fb = 0 then .fin (bit b (f.eb + f.fb)) (codeOf f b % 2 ^ f.fb) (fmtMinExp f)
      else .fin (bit b (f.eb + f.fb)) (2 ^ f.fb + codeOf f b % 2 ^ f.fb) (fmtMinExp f + (codeOf f b / 2 ^ f.fb : Nat) - 1) := by
    rw [unpack, ← codeOf_div he, ← codeOf_mod, if_neg (by omega)]
  rw [realOf, hu, codeVal, mant]
  by_cases h0 : codeOf f b / 2 ^ f.fb = 0
  · have hc : codeOf f b % 2 ^ f.fb = codeOf f b := Nat.mod_eq_of_lt ((Nat.div_eq_zero_iff_lt hp).mp h0)
    simp only [if_pos h0, hc, mul_assoc]
  · simp only [if_neg h0]
    obtain ⟨q, hq⟩ := Nat.exists_eq_succ_of_ne_zero h0
    rw [hq, show fmtMinExp f + ((q + 1 : Nat) : Int) - 1 = (q : Int) + fmtMinExp f by omega, zpow_add₀ two_ne_zero, zpow_natCast,
      Nat.succ_eq_add_one, Nat.add_sub_cancel]
    push_cast
    congr 1
    ring

theorem realOf_of_code_ge {f : Fmt} {b : Nat} (he : 0 < f.eb) (h : fmtInf f ≤ codeOf f b) : realOf f b = none := by
  have hp : 0 < 2 ^ f.fb := Nat.two_pow_pos _
  have hq : codeOf f b / 2 ^ f.fb = 2 ^ f.eb - 1 := by
    have h1 : codeOf f b / 2 ^ f.fb < 2 ^ f.eb := (Nat.div_lt_iff_lt_mul hp).mpr (codeOf_lt f b)
    have h2 : 2 ^ f.eb - 1 ≤ codeOf f b / 2 ^ f.fb := (Nat.le_div_iff_mul_le hp).mpr h
    omega
  rw [realOf, unpack, ← codeOf_div he, hq, if_pos rfl]
  by_cases hm : b % 2 ^ f.fb = 0
  · rw [if_pos hm]
  · rw [if_neg hm]

/-- A finite value of a format, as a signed code. -/
theorem exists_code_of_realOf {f : Fmt} {b : Nat} {v : Rat} (he : 0 < f.eb) (h : realOf f b = some v) :
    ∃ c, c < fmtInf f ∧ (v = codeVal f c ∨ v = -codeVal f c) := by
  rcases lt_or_ge (codeOf f b) (fmtInf f) with hc | hc
  · rw [realOf_of_code he hc] at h
    refine ⟨_, hc, ?_⟩
    rw [← Option.some.inj h]
    cases bit b (f.eb + f.fb) <;> simp
  · rw [realOf_of_code_ge he hc] at h
    cases h

theorem codeOf_withSign {f : Fmt} {c : Nat} (h : c < 2 ^ (f.eb + f.fb)) (neg : Bool) :
    codeOf f (withSign f neg c) = c ∧ bit (withSign f neg c) (f.eb + f.fb) = neg := by
  cases neg with
  | false => exact ⟨Nat.mod_eq_of_lt h, Nat.testBit_lt_two_pow h⟩
  | true =>
    refine ⟨?_, ?_⟩
    · rw [codeOf, withSign, if_pos rfl, Nat.add_mod_left, Nat.mod_eq_of_lt h]
    · rw [bit, withSign, if_pos rfl, Nat.testBit_two_pow_add_eq, Nat.testBit_lt_two_pow h]; rfl

theorem fmtInf_lt (f : Fmt) : fmtInf f < 2 ^ (f.eb + f.fb) := by
  rw [fmtInf, Nat.pow_add]
  exact Nat.mul_lt_mul_of_pos_right (Nat.sub_lt (Nat.two_pow_pos _) Nat.one_pos) (Nat.two_pow_pos _)

theorem realOf_withSign {f : Fmt} {c : Nat} (he : 0 < f.eb) (h : c < fmtInf f) (neg : Bool) :
    realOf f (withSign f neg c) = some ((if neg then -1 else 1) * codeVal f c) := by
  obtain ⟨hc, hb⟩ := codeOf_withSign (h.trans (fmtInf_lt f)) neg
  rw [realOf_of_code he (by rwa [hc]), hc, hb]

theorem realOf_infinity {f : Fmt} (he : 0 < f.eb) (neg : Bool) : realOf f (withSign f neg (fmtInf f)) = none :=
  realOf_of_code_ge he (codeOf_withSign (fmtInf_lt f) neg).1.ge

/-! ## Rounding (R106, R107) -/

/-- The exponent of the leading bit of a quotient. -/
def topOf (num den : Nat) : Int :=
  let k : Int := (Nat.log2 num : Int) - (Nat.log2 den : Int)
  if (if 0 ≤ k then decide (num < den <<< k.toNat) else decide (num <<< (-k).toNat < den)) then k - 1 else k

theorem below_iff {num den : Nat} (hd : 0 < den) (k : Int) :
    (if 0 ≤ k then decide (num < den <<< k.toNat) else decide (num <<< (-k).toNat < den)) = true ↔ (num : Rat) / den < (2 : Rat) ^ k := by
  have hd' : (0 : Rat) < den := Nat.cast_pos.mpr hd
  rw [div_lt_iff₀ hd']
  by_cases hk : 0 ≤ k
  · obtain ⟨i, rfl⟩ := Int.eq_ofNat_of_zero_le hk
    rw [if_pos hk, decide_eq_true_eq, Int.toNat_natCast, Nat.shiftLeft_eq, mul_comm, zpow_natCast]
    exact_mod_cast Iff.rfl
  · obtain ⟨i, hi⟩ := Int.eq_ofNat_of_zero_le (show 0 ≤ -k by omega)
    obtain rfl : k = -(i : Int) := by omega
    rw [if_neg hk, decide_eq_true_eq, neg_neg, Int.toNat_natCast, Nat.shiftLeft_eq, zpow_neg, zpow_natCast, mul_comm ((2 ^ i : Rat)⁻¹),
      ← div_eq_mul_inv, lt_div_iff₀ (pow_pos two_pos i)]
    exact_mod_cast Iff.rfl

theorem log2_bounds {n : Nat} (h : 0 < n) : (2 : Rat) ^ (Nat.log2 n : Int) ≤ n ∧ (n : Rat) < (2 : Rat) ^ ((Nat.log2 n : Int) + 1) := by
  have h1 : 2 ^ Nat.log2 n ≤ n := Nat.log2_self_le h.ne'
  have h2 : n < 2 ^ (Nat.log2 n + 1) := Nat.lt_log2_self
  refine ⟨?_, ?_⟩
  · rw [zpow_natCast]; exact_mod_cast h1
  · rw [← Nat.cast_succ, zpow_natCast]; exact_mod_cast h2

theorem topOf_spec {num den : Nat} (hn : 0 < num) (hd : 0 < den) :
    (2 : Rat) ^ (topOf num den) ≤ (num : Rat) / den ∧ (num : Rat) / den < (2 : Rat) ^ (topOf num den + 1) := by
  have hd' : (0 : Rat) < den := Nat.cast_pos.mpr hd
  obtain ⟨hn1, hn2⟩ := log2_bounds hn
  obtain ⟨hd1, hd2⟩ := log2_bounds hd
  have hlow : (2 : Rat) ^ ((Nat.log2 num : Int) - Nat.log2 den - 1) ≤ (num : Rat) / den := by
    rw [le_div_iff₀ hd']
    calc (2 : Rat) ^ ((Nat.log2 num : Int) - Nat.log2 den - 1) * den
        ≤ (2 : Rat) ^ ((Nat.log2 num : Int) - Nat.log2 den - 1) * (2 : Rat) ^ ((Nat.log2 den : Int) + 1) :=
          mul_le_mul_of_nonneg_left hd2.le (zpow_nonneg zero_le_two _)
      _ = (2 : Rat) ^ (Nat.log2 num : Int) := by rw [← zpow_add₀ two_ne_zero]; congr 1; ring
      _ ≤ num := hn1
  have hhigh : (num : Rat) / den < (2 : Rat) ^ ((Nat.log2 num : Int) - Nat.log2 den + 1) := by
    rw [div_lt_iff₀ hd']
    calc (num : Rat) < (2 : Rat) ^ ((Nat.log2 num : Int) + 1) := hn2
      _ = (2 : Rat) ^ ((Nat.log2 num : Int) - Nat.log2 den + 1) * (2 : Rat) ^ (Nat.log2 den : Int) := by
          rw [← zpow_add₀ two_ne_zero]; congr 1; ring
      _ ≤ _ := mul_le_mul_of_nonneg_left hd1 (zpow_nonneg zero_le_two _)
  simp only [topOf, below_iff hd]
  by_cases h : (num : Rat) / den < (2 : Rat) ^ ((Nat.log2 num : Int) - Nat.log2 den)
  · rw [if_pos h, sub_add_cancel]; exact ⟨hlow, h⟩
  · rw [if_neg h]; exact ⟨not_lt.mp h, hhigh⟩

/-- What rounding a positive exact value X finds: the code below it, and whether it goes on to the code above, by the mode and the
sign. -/
structure Brackets (f : Fmt) (mode : Rnd) (neg : Bool) (X : Rat) (lo : Nat) (up : Bool) : Prop where
  low : codeVal f lo ≤ X
  high : X < codeVal f (lo + 1)
  nearest : mode = .rn → if up then codeVal f (lo + 1) - X ≤ X - codeVal f lo else X - codeVal f lo ≤ codeVal f (lo + 1) - X
  toZero : mode = .rz → up = false
  down : mode = .rd → up = (neg && decide (codeVal f lo < X))
  upward : mode = .ru → up = (!neg && decide (codeVal f lo < X))

theorem brackets_of_quotient {f : Fmt} {mode : Rnd} {neg : Bool} {X u : Rat} {lo quo rem D : Nat} (hD : rem < D) (hu : 0 < u)
    (hlo : codeVal f lo = quo * u) (hhi : codeVal f (lo + 1) = (quo + 1) * u) (hX : X = quo * u + rem / D * u) :
    Brackets f mode neg X lo (roundsUp mode neg quo rem D) := by
  have hD' : (0 : Rat) < D := Nat.cast_pos.mpr (by omega)
  have hbelow : X - codeVal f lo = rem / D * u := by rw [hX, hlo]; ring
  have habove : codeVal f (lo + 1) - X = (D - rem) / D * u := by
    rw [hX, hhi, sub_div, div_self hD'.ne']; ring
  have hlt : codeVal f lo < X ↔ 0 < rem := by
    rw [← sub_pos, hbelow, mul_pos_iff_of_pos_right hu, div_pos_iff_of_pos_right hD', Nat.cast_pos]
  refine ⟨?_, ?_, fun h => ?_, fun h => ?_, fun h => ?_, fun h => ?_⟩
  · rw [← sub_nonneg, hbelow]
    positivity
  · rw [← sub_pos, habove, mul_pos_iff_of_pos_right hu, div_pos_iff_of_pos_right hD', sub_pos, Nat.cast_lt]
    exact hD
  · subst h
    rw [hbelow, habove, mul_le_mul_iff_left₀ hu, mul_le_mul_iff_left₀ hu, div_le_div_iff_of_pos_right hD', div_le_div_iff_of_pos_right hD',
      sub_le_iff_le_add, le_sub_iff_add_le]
    cases hup : roundsUp .rn neg quo rem D with
    | true =>
      have h2 : D ≤ rem + rem := by
        simp only [roundsUp, Bool.or_eq_true, Bool.and_eq_true, decide_eq_true_eq] at hup
        omega
      exact_mod_cast h2
    | false =>
      have h2 : rem + rem ≤ D := by
        simp only [roundsUp, Bool.or_eq_false_iff, decide_eq_false_iff_not] at hup
        omega
      exact_mod_cast h2
  · subst h; rfl
  · subst h; simp only [roundsUp, hlt]
  · subst h; simp only [roundsUp, hlt]

/-- The quotient that rounding works with, over a unit 2^q. -/
theorem scaled_quotient {num den : Nat} (hd : 0 < den) (e q : Int) :
    ((if 0 ≤ e - q then num <<< (e - q).toNat else num : Nat) : Rat) / ((if 0 ≤ e - q then den else den <<< (-(e - q)).toNat : Nat) : Rat) *
      (2 : Rat) ^ q = (num : Rat) / den * (2 : Rat) ^ e := by
  have hd' : (den : Rat) ≠ 0 := Nat.cast_ne_zero.mpr hd.ne'
  by_cases h : 0 ≤ e - q
  · rw [if_pos h, if_pos h, Nat.shiftLeft_eq, zpow_eq_natPow_mul (show q ≤ e by omega)]
    push_cast
    ring
  · rw [if_neg h, if_neg h, Nat.shiftLeft_eq, zpow_eq_natPow_mul (show e ≤ q by omega), show -(e - q) = q - e by ring]
    push_cast
    field_simp

theorem roundRat_brackets (f : Fmt) (mode : Rnd) (neg : Bool) {num den : Nat} (hn : 0 < num) (hd : 0 < den) (e : Int) :
    ∃ lo up, Brackets f mode neg ((num : Rat) / den * (2 : Rat) ^ e) lo up ∧
      roundRat f mode neg num den e = if fmtInf f ≤ lo + bnat up then overflowBits f mode neg else withSign f neg (lo + bnat up) := by
  obtain ⟨ht1, ht2⟩ := topOf_spec hn hd
  have hround : roundRat f mode neg num den e =
      let q : Int := max (topOf num den + e - (f.fb : Int)) (fmtMinExp f)
      let n := if 0 ≤ e - q then num <<< (e - q).toNat else num
      let d := if 0 ≤ e - q then den else den <<< (-(e - q)).toNat
      let b := (q - fmtMinExp f).toNat * 2 ^ f.fb + (n / d + bnat (roundsUp mode neg (n / d) (n % d) d))
      if fmtInf f ≤ b then overflowBits f mode neg else withSign f neg b := by
    rw [roundRat, if_neg hn.ne']; rfl
  obtain ⟨q, hq⟩ : ∃ q, q = max (topOf num den + e - (f.fb : Int)) (fmtMinExp f) := ⟨_, rfl⟩
  obtain ⟨N, hN⟩ : ∃ N, N = if 0 ≤ e - q then num <<< (e - q).toNat else num := ⟨_, rfl⟩
  obtain ⟨D, hDdef⟩ : ∃ D, D = if 0 ≤ e - q then den else den <<< (-(e - q)).toNat := ⟨_, rfl⟩
  have hX := scaled_quotient (num := num) hd e q
  simp only [← hq, ← hN, ← hDdef] at hround hX
  have hD : 0 < D := by
    rw [hDdef]; split
    · exact hd
    · rw [Nat.shiftLeft_eq]; positivity
  have hD' : (0 : Rat) < D := Nat.cast_pos.mpr hD
  have hu : (0 : Rat) < (2 : Rat) ^ q := zpow_pos two_pos q
  have hquo : N / D < 2 * 2 ^ f.fb := by
    have hlt : (N : Rat) / D * (2 : Rat) ^ q < ((2 * 2 ^ f.fb : Nat) : Rat) * (2 : Rat) ^ q := by
      calc (N : Rat) / D * (2 : Rat) ^ q < (2 : Rat) ^ (topOf num den + 1) * (2 : Rat) ^ e := by
            rw [hX]; exact mul_lt_mul_of_pos_right ht2 (zpow_pos two_pos e)
        _ = (2 : Rat) ^ (topOf num den + 1 + e) := (zpow_add₀ two_ne_zero _ _).symm
        _ ≤ (2 : Rat) ^ ((f.fb + 1 : Nat) + q) := zpow_le_zpow_right₀ one_le_two (by push_cast; omega)
        _ = _ := by rw [zpow_add₀ two_ne_zero, zpow_natCast, pow_succ]; push_cast; ring
    have hlt' := lt_of_mul_lt_mul_right hlt hu.le
    rw [div_lt_iff₀ hD'] at hlt'
    exact (Nat.div_lt_iff_lt_mul hD).mpr (by exact_mod_cast hlt')
  have hnormal : 2 ^ f.fb ≤ N / D ∨ (q - fmtMinExp f).toNat = 0 := by
    by_cases hcase : topOf num den + e - (f.fb : Int) ≤ fmtMinExp f
    · exact .inr (by omega)
    · refine .inl ((Nat.le_div_iff_mul_le hD).mpr ?_)
      have hle : ((2 ^ f.fb : Nat) : Rat) * (2 : Rat) ^ q ≤ (N : Rat) / D * (2 : Rat) ^ q := by
        calc ((2 ^ f.fb : Nat) : Rat) * (2 : Rat) ^ q = (2 : Rat) ^ ((f.fb : Int) + q) := by
              rw [zpow_add₀ two_ne_zero, zpow_natCast]; push_cast; rfl
          _ = (2 : Rat) ^ (topOf num den) * (2 : Rat) ^ e := by rw [← zpow_add₀ two_ne_zero]; congr 1; omega
          _ ≤ _ := by rw [hX]; exact mul_le_mul_of_nonneg_right ht1 (zpow_nonneg zero_le_two e)
      have hle' := le_of_mul_le_mul_right hle hu
      rw [le_div_iff₀ hD'] at hle'
      exact_mod_cast hle'
  have hunit : (2 : Rat) ^ q = ((2 ^ (q - fmtMinExp f).toNat : Nat) : Rat) * (2 : Rat) ^ (fmtMinExp f) := zpow_eq_natPow_mul (by omega)
  refine ⟨(q - fmtMinExp f).toNat * 2 ^ f.fb + N / D, roundsUp mode neg (N / D) (N % D) D, ?_, by rw [hround, add_assoc]⟩
  refine brackets_of_quotient (Nat.mod_lt N hD) hu ?_ ?_ ?_
  · rw [codeVal, mant_code f hquo.le hnormal, hunit]; push_cast; ring
  · rw [codeVal, add_assoc, mant_code f hquo (hnormal.imp (by omega) id), hunit]; push_cast; ring
  · rw [← hX, ← add_mul]
    congr 1
    have hdiv : ((D * (N / D) + N % D : Nat) : Rat) = N := congrArg Nat.cast (Nat.div_add_mod N D)
    rw [div_eq_iff hD'.ne', ← hdiv]
    push_cast
    field_simp

/-- A finite result of rounding is the chosen code, or the largest finite one where a mode that rounds toward zero overflows. -/
theorem finite_result {f : Fmt} {mode : Rnd} {neg : Bool} {b : Nat} {r : Rat} (he : 0 < f.eb)
    (h : realOf f (if fmtInf f ≤ b then overflowBits f mode neg else withSign f neg b) = some r) :
    ∃ c, c < fmtInf f ∧ r = (if neg then -1 else 1) * codeVal f c ∧
      (c = b ∨ (fmtInf f ≤ b ∧ c + 1 = fmtInf f ∧ (mode = .rz ∨ (mode = .rd ∧ neg = false) ∨ (mode = .ru ∧ neg = true)))) := by
  by_cases hb : fmtInf f ≤ b
  · have hpos : 0 < fmtInf f := Nat.mul_pos (Nat.sub_pos_of_lt (Nat.one_lt_two_pow he.ne')) (Nat.two_pow_pos _)
    have hbig (s : Bool) : realOf f (withSign f s (fmtInf f - 1)) = some ((if s then -1 else 1) * codeVal f (fmtInf f - 1)) :=
      realOf_withSign he (by omega) s
    rw [if_pos hb] at h
    refine ⟨fmtInf f - 1, by omega, ?_⟩
    cases mode <;> cases neg <;>
      simp only [overflowBits, Bool.false_eq_true, if_true, if_false, realOf_infinity he, hbig, Option.some.injEq, reduceCtorEq] at h
    all_goals exact ⟨h.symm, .inr ⟨hb, by omega, by simp⟩⟩
  · rw [if_neg hb, realOf_withSign he (by omega)] at h
    exact ⟨b, by omega, (Option.some.inj h).symm, .inl rfl⟩

/-- R is the greatest magnitude of the format up to X. -/
def TowardZero (f : Fmt) (X R : Rat) : Prop := R ≤ X ∧ ∀ c < fmtInf f, codeVal f c ≤ X → codeVal f c ≤ R

/-- R is the least magnitude of the format from X on. -/
def AwayFromZero (f : Fmt) (X R : Rat) : Prop := X ≤ R ∧ ∀ c < fmtInf f, X ≤ codeVal f c → R ≤ codeVal f c

theorem codeVal_succ_le {f : Fmt} {b c : Nat} (h : codeVal f b < codeVal f c) : codeVal f (b + 1) ≤ codeVal f c :=
  (codeVal_strictMono f).monotone ((codeVal_strictMono f).lt_iff_lt.mp h)

section
variable {f : Fmt} {mode : Rnd} {neg : Bool} {X : Rat} {lo : Nat} {up : Bool} (h : Brackets f mode neg X lo up)
include h

theorem Brackets.le_low {c : Nat} (hc : codeVal f c ≤ X) : codeVal f c ≤ codeVal f lo := by
  have hlt := (codeVal_strictMono f).lt_iff_lt.mp (hc.trans_lt h.high)
  exact (codeVal_strictMono f).monotone (by omega)

theorem Brackets.towardZero (hup : up = false) : TowardZero f X (codeVal f (lo + bnat up)) := by
  subst hup
  exact ⟨h.low, fun c _ hc => h.le_low hc⟩

theorem Brackets.towardZero_of_overflow {c : Nat} (hup : up = false) (hb : fmtInf f ≤ lo + bnat up) (hc : c + 1 = fmtInf f) :
    TowardZero f X (codeVal f c) := by
  subst hup
  refine ⟨((codeVal_strictMono f).monotone ?_).trans h.low, fun i hi _ => (codeVal_strictMono f).monotone (by omega)⟩
  simp only [bnat, Bool.false_eq_true, if_false] at hb
  omega

theorem Brackets.awayFromZero (hup : up = decide (codeVal f lo < X)) : AwayFromZero f X (codeVal f (lo + bnat up)) := by
  subst hup
  by_cases hlt : codeVal f lo < X
  · rw [decide_eq_true hlt]
    exact ⟨h.high.le, fun c _ hc => codeVal_succ_le (hlt.trans_le hc)⟩
  · rw [decide_eq_false hlt]
    have hX : codeVal f lo = X := le_antisymm h.low (not_lt.mp hlt)
    exact ⟨hX.ge, fun c _ hc => hX.trans_le hc⟩

theorem Brackets.nearest_le (hm : mode = .rn) (c : Nat) : |codeVal f (lo + bnat up) - X| ≤ |codeVal f c - X| := by
  have hn := h.nearest hm
  have hl := h.low
  have hh := h.high
  have hc : codeVal f c ≤ codeVal f lo ∨ codeVal f (lo + 1) ≤ codeVal f c := by
    rcases le_or_gt (codeVal f c) (codeVal f lo) with hc | hc
    · exact .inl hc
    · exact .inr (codeVal_succ_le hc)
  cases up with
  | false =>
    simp only [Bool.false_eq_true, if_false] at hn
    show |codeVal f lo - X| ≤ _
    rw [abs_of_nonpos (by linarith), le_abs]
    rcases hc with hc | hc
    · exact .inr (by linarith)
    · exact .inl (by linarith)
  | true =>
    simp only [if_true] at hn
    show |codeVal f (lo + 1) - X| ≤ _
    rw [abs_of_nonneg (by linarith), le_abs]
    rcases hc with hc | hc
    · exact .inr (by linarith)
    · exact .inl (by linarith)

end

/-- What R106 asks of the result `r` of an exact value `x` against a value `v` of the format. -/
def Chooses (m : Rnd) (r x v : Rat) : Prop :=
  (m = .rn → |r - x| ≤ |v - x|) ∧ (m = .rz → |r| ≤ |x| ∧ (|v| ≤ |x| → |v| ≤ |r|)) ∧
  (m = .rd → r ≤ x ∧ (v ≤ x → v ≤ r)) ∧ (m = .ru → x ≤ r ∧ (x ≤ v → r ≤ v))

theorem roundRat_chooses {f : Fmt} {m : Rnd} {neg : Bool} {X r v : Rat} {lo c : Nat} {up : Bool} (h : Brackets f m neg X lo up)
    (hX : 0 ≤ X) (hr : r = (if neg then -1 else 1) * codeVal f c)
    (hc : c = lo + bnat up ∨ (fmtInf f ≤ lo + bnat up ∧ c + 1 = fmtInf f ∧ (m = .rz ∨ (m = .rd ∧ neg = false) ∨ (m = .ru ∧ neg = true))))
    {k : Nat} (hk : k < fmtInf f) (hv : v = codeVal f k ∨ v = -codeVal f k) :
    Chooses m r ((if neg then -1 else 1) * X) v := by
  have hR := codeVal_nonneg f c
  have hV := codeVal_nonneg f k
  have habs (s : Bool) {y : Rat} (hy : 0 ≤ y) : |(if s then -1 else 1) * y| = y := by cases s <;> simp [abs_of_nonneg hy]
  have hvabs : |v| = codeVal f k := by rcases hv with rfl | rfl <;> simp [abs_of_nonneg hV]
  have htoward (hup : up = false) : TowardZero f X (codeVal f c) := by
    rcases hc with rfl | ⟨hb, hmax, _⟩
    · exact h.towardZero hup
    · exact h.towardZero_of_overflow hup hb hmax
  have haway (hm : ¬ (m = .rz ∨ (m = .rd ∧ neg = false) ∨ (m = .ru ∧ neg = true))) (hup : up = decide (codeVal f lo < X)) :
      AwayFromZero f X (codeVal f c) := by
    rcases hc with rfl | ⟨_, _, hm'⟩
    · exact h.awayFromZero hup
    · exact absurd hm' hm
  refine ⟨fun hm => ?_, fun hm => ?_, fun hm => ?_, fun hm => ?_⟩
  · obtain rfl : c = lo + bnat up := hc.resolve_right (by rintro ⟨_, _, h | ⟨h, _⟩ | ⟨h, _⟩⟩ <;> simp [hm] at h)
    calc |r - (if neg then -1 else 1) * X| = |codeVal f (lo + bnat up) - X| := by
          rw [hr, ← mul_sub, abs_mul]; cases neg <;> simp
      _ ≤ |codeVal f k - X| := h.nearest_le hm k
      _ = |(|v| - |(if neg then -1 else 1) * X|)| := by rw [hvabs, habs neg hX]
      _ ≤ |v - (if neg then -1 else 1) * X| := abs_abs_sub_abs_le _ _
  · obtain ⟨h1, h2⟩ := htoward (h.toZero hm)
    rw [hr, habs neg hR, habs neg hX, hvabs]
    exact ⟨h1, h2 k hk⟩
  · cases neg with
    | false =>
      obtain ⟨h1, h2⟩ := htoward (h.down hm)
      simp only [Bool.false_eq_true, if_false, one_mul] at hr ⊢
      subst hr
      refine ⟨h1, fun hvx => ?_⟩
      rcases hv with rfl | rfl
      · exact h2 k hk hvx
      · linarith
    | true =>
      obtain ⟨h1, h2⟩ := haway (by simp [hm]) (h.down hm)
      simp only [if_true, neg_one_mul] at hr ⊢
      subst hr
      refine ⟨by linarith, fun hvx => ?_⟩
      rcases hv with rfl | rfl
      · have := h2 k hk (by linarith)
        linarith
      · have := h2 k hk (by linarith)
        linarith
  · cases neg with
    | false =>
      obtain ⟨h1, h2⟩ := haway (by simp [hm]) (h.upward hm)
      simp only [Bool.false_eq_true, if_false, one_mul] at hr ⊢
      subst hr
      refine ⟨h1, fun hvx => ?_⟩
      rcases hv with rfl | rfl
      · exact h2 k hk hvx
      · have := h2 k hk (by linarith)
        linarith
    | true =>
      obtain ⟨h1, h2⟩ := htoward (h.upward hm)
      simp only [if_true, neg_one_mul] at hr ⊢
      subst hr
      refine ⟨by linarith, fun hvx => ?_⟩
      rcases hv with rfl | rfl
      · linarith
      · have := h2 k hk (by linarith)
        linarith

/-- Settles O7. -/
theorem roundingChoosesTheRepresentableValue : Obligations.RoundingChoosesTheRepresentableValue := by
  refine ⟨fun f m a b c x y z ha hb hc => exact_operations ha hb hc, fun f neg n d e m r hf hn hd hr b v hb => ?_⟩
  have he : 0 < f.eb := by
    simp only [List.mem_cons, List.not_mem_nil, or_false] at hf
    rcases hf with rfl | rfl | rfl <;> decide
  obtain ⟨lo, up, hbr, hround⟩ := roundRat_brackets f m neg hn hd e
  rw [hround] at hr
  obtain ⟨c, _, hrc, hc⟩ := finite_result he hr
  obtain ⟨k, hk, hv⟩ := exists_code_of_realOf he hb
  rw [mul_assoc]
  exact roundRat_chooses hbr (by positivity) hrc hc hk hv

/-! ## The floating words -/

theorem fabs32_eq (x : Word) : un fp32 (fabs fp32) x = x &&& 0x7FFFFFFF := by
  apply BitVec.eq_of_toNat_eq
  rw [un, scalar_fp32, BitVec.toNat_and]
  exact (Nat.mod_eq_of_lt ((Nat.mod_lt _ (Nat.two_pow_pos 31)).trans (by decide))).trans (Nat.and_two_pow_sub_one_eq_mod x.toNat 31).symm

theorem fabs16_eq (x : Word) : un fp16 (fabs fp16) x = x &&& 0x00007FFF := by
  apply BitVec.eq_of_toNat_eq
  have h : x.toNat % 2 ^ 16 % 2 ^ 15 = x.toNat % 2 ^ 15 := Nat.mod_mod_of_dvd _ (by decide)
  have h' : x.toNat &&& (2 ^ 15 - 1) = x.toNat % 2 ^ 15 := Nat.and_two_pow_sub_one_eq_mod x.toNat 15
  rw [BitVec.toNat_and]
  show x.toNat % 2 ^ 16 % 2 ^ 15 % 2 ^ 32 = x.toNat &&& (2 ^ 15 - 1)
  omega

theorem fneg32_eq (x : Word) : un fp32 (fneg fp32) x = x ^^^ 0x80000000 := by
  apply BitVec.eq_of_toNat_eq
  rw [un, scalar_fp32, fneg, show x.toNat % 2 ^ fmtWidth fp32 = x.toNat from Nat.mod_eq_of_lt x.isLt, BitVec.toNat_xor]
  exact Nat.mod_eq_of_lt (Nat.xor_lt_two_pow x.isLt (by decide))

theorem fneg16_eq (x : Word) : un fp16 (fneg fp16) x = (x &&& 0x0000FFFF) ^^^ 0x00008000 := by
  apply BitVec.eq_of_toNat_eq
  have h : x.toNat &&& (2 ^ 16 - 1) = x.toNat % 2 ^ 16 := Nat.and_two_pow_sub_one_eq_mod x.toNat 16
  have hlt : x.toNat % 2 ^ 16 < 2 ^ 32 := (Nat.mod_lt _ (Nat.two_pow_pos 16)).trans (by decide)
  rw [BitVec.toNat_xor, BitVec.toNat_and]
  show ((x.toNat % 2 ^ 16 % 2 ^ 16) ^^^ 2 ^ 15) % 2 ^ 32 = (x.toNat &&& (2 ^ 16 - 1)) ^^^ 2 ^ 15
  rw [h, Nat.mod_mod]
  exact Nat.mod_eq_of_lt (Nat.xor_lt_two_pow hlt (by decide))

theorem fset_eq (f : Fmt) (k : FCond) (x y : Word) : fset f k x y = truth (fcondHolds f k (scalar f x) (scalar f y) = true) := rfl

/-- Settles O5: each word delivers its format's operation by definition, the sign words by its bits. -/
theorem floatForms : Obligations.FloatForms :=
  ⟨fun _ k _ _ _ => ⟨
    delivers_alu2 (fun _ => rfl) (fun _ _ => rfl), delivers_alu2 (fun _ => rfl) (fun _ _ => rfl),
    delivers_alu2 (fun _ => rfl) (fun _ _ => rfl), delivers_alu2 (fun _ => rfl) (fun _ _ => rfl),
    delivers_alu2 (fun _ => rfl) (fun _ _ => rfl), delivers_alu2 (fun _ => rfl) (fun _ _ => rfl),
    delivers_alu2 (fun _ => rfl) (fun _ _ => rfl), delivers_alu2 (fun _ => rfl) (fun _ _ => rfl),
    delivers_alu2 (fun _ => rfl) (fun _ _ => rfl), delivers_alu2 (fun _ => rfl) (fun _ _ => rfl),
    delivers_alu1 (fun _ => rfl) fabs32_eq, delivers_alu1 (fun _ => rfl) fneg32_eq, delivers_alu1 (fun _ => rfl) fabs16_eq,
    delivers_alu1 (fun _ => rfl) fneg16_eq, delivers_alu2 (fun _ => rfl) (fset_eq fp32 k),
    delivers_alu2 (fun _ => rfl) (fset_eq fp16 k), delivers_alu1 (fun _ => rfl) (fun _ => rfl),
    delivers_alu1 (fun _ => rfl) (fun _ => rfl)⟩,
  fun _ _ _ _ => ⟨
    delivers_alu2 (fun _ => rfl) (fun _ _ => rfl), delivers_alu2 (fun _ => rfl) (fun _ _ => rfl),
    delivers_alu2 (fun _ => rfl) (fun _ _ => rfl), delivers_alu2 (fun _ => rfl) (fun _ _ => rfl),
    delivers_alu2 (fun _ => rfl) (fun _ _ => rfl), delivers_alu2 (fun _ => rfl) (fun _ _ => rfl),
    delivers_alu2 (fun _ => rfl) (fun _ _ => rfl), delivers_alu2 (fun _ => rfl) (fun _ _ => rfl)⟩,
  fun _ _ _ _ _ => ⟨
    delivers_alu1 (fun _ => rfl) (fun _ => rfl), delivers_alu1 (fun _ => rfl) (fun _ => rfl),
    delivers_alu1 (fun _ => rfl) (fun _ => rfl), delivers_alu1 (fun _ => rfl) (fun _ => rfl),
    delivers_alu1 (fun _ => rfl) (fun _ => rfl), delivers_alu1 (fun _ => rfl) (fun _ => rfl),
    delivers_alu2 (fun _ => rfl) (fun _ _ => rfl), delivers_alu2 (fun _ => rfl) (fun _ _ => rfl),
    delivers_alu1 (fun _ => rfl) (fun _ => rfl), delivers_alu1 (fun _ => rfl) (fun _ => rfl),
    delivers_alu1 (fun _ => rfl) (fun _ => rfl), delivers_alu1 (fun _ => rfl) (fun _ => rfl),
    delivers_alu1 (fun _ => rfl) (fun _ => rfl), delivers_alu1 (fun _ => rfl) (fun _ => rfl)⟩⟩

/-- Settles O6. -/
theorem transcendentalForms : Obligations.TranscendentalForms := by
  refine ⟨fun _ _ => ⟨
    delivers_alu1 (fun _ => rfl) (fun _ => rfl), delivers_alu1 (fun _ => rfl) (fun _ => rfl),
    delivers_alu1 (fun _ => rfl) (fun _ => rfl), delivers_alu1 (fun _ => rfl) (fun _ => rfl),
    delivers_alu1 (fun _ => rfl) (fun _ => rfl), delivers_alu1 (fun _ => rfl) (fun _ => rfl),
    delivers_alu1 (fun _ => rfl) (fun _ => rfl), delivers_alu1 (fun _ => rfl) (fun _ => rfl),
    delivers_alu1 (fun _ => rfl) (fun _ => rfl), delivers_alu1 (fun _ => rfl) (fun _ => rfl),
    delivers_alu1 (fun _ => rfl) (fun _ => rfl), delivers_alu1 (fun _ => rfl) (fun _ => rfl),
    delivers_alu1 (fun _ => rfl) (fun _ => rfl), delivers_alu1 (fun _ => rfl) (fun _ => rfl)⟩,
    fun x hx => ?_, ?_⟩
  · refine ⟨?_, ?_, ?_, ?_, ?_, ?_, ?_⟩
    · rw [rcp, hx]; rfl
    · rw [rsq, hx]; rfl
    · rw [sqrt, hx]; rfl
    · rw [ex2, hx]; rfl
    · rw [lg2, hx]; rfl
    · rw [trig, hx]; rfl
    · rw [trig, hx]; rfl
  · decide +kernel

end Sys2Proof.Proofs
end

section
/-!
PROOFS. Lane, vote and control words, engine commands, the words of the matrix units at issue, and the step that runs a word.
-/
namespace Sys2Proof.Proofs
open Sys2Proof Sys2Proof.Machine Sys2Proof.Spec

/-! ## Lane, vote and special-register words, messages and marks (O8) -/

/-- A vote word is delivered when the model's function of the ballot is the statement's. -/
theorem delivers_ofVote {i : Instr} {d : BitVec 4} {a : Src} {f g : Table Word → Word}
    (hi : ∀ s, exec i s = aluAll s 6 d (fun u => (ballot u a).map (fun t _ => f t))) (hf : ∀ t, f t = g t) :
    Delivers i (ofVote d a g) := by
  obtain rfl : f = g := funext hf
  refine delivers_aluWord fun s => ?_
  rw [hi]
  simp only [aluAll, ofVote, ballot, Option.map_map]
  rfl

theorem voteAnyOf_eq (t : Table Word) : voteAnyOf t = truth (∃ e ∈ t, e.2 ≠ 0) := by
  simp only [voteAnyOf, truth, List.any_eq_true, bne_iff_ne]

theorem voteAllOf_eq (t : Table Word) : voteAllOf t = truth (∀ e ∈ t, e.2 ≠ 0) := by
  simp only [voteAllOf, truth, List.all_eq_true, bne_iff_ne]

theorem voteBalOf_eq (t : Table Word) :
    voteBalOf t = maskOf ((t.filter (fun e => decide (e.2 ≠ 0))).map (fun e => e.1)) := by
  have h : (fun e : Nat × Word => e.2 != 0) = fun e => decide (e.2 ≠ 0) := by
    funext e
    rw [Bool.eq_iff_iff, bne_iff_ne, decide_eq_true_eq]
  rw [voteBalOf, h]

/-- All values equal the first exactly when any two are equal. -/
theorem voteUniOf_eq (t : Table Word) : voteUniOf t = truth (∀ e ∈ t, ∀ e' ∈ t, e.2 = e'.2) := by
  have key : (t.all (fun e => e.2 == (t.map (fun e => e.2)).headD 0) = true) ↔ ∀ e ∈ t, ∀ e' ∈ t, e.2 = e'.2 := by
    cases t with
    | nil => simp
    | cons x r =>
      simp only [List.map_cons, List.headD_cons, List.all_eq_true, beq_iff_eq]
      exact ⟨fun h e he e' he' => (h e he).trans (h e' he').symm, fun h e he => h e he x List.mem_cons_self⟩
  simp only [voteUniOf, truth, key]

/-- A function that every lane can read gives its value in each present lane. -/
theorem eachLane_some {α : Type} (u : Iss) (g : Nat → α) :
    eachLane u (fun i => some (g i)) = some (u.lanes.map (fun i => (i, g i))) := by
  simp only [eachLane, Option.map_some]
  exact List.mapM_pure

/-- SREG's register for a lane of a workgroup of a running launch. -/
theorem specialReg_eq {s : State} {u : Iss} {w : Workgroup} {x : Launch} {sl : Slice} (hw : workgroup s u.f.wg = some w)
    (hx : launchOf s u.f.wg = some x) (hs : s.slice = some sl) (i lane : Nat) :
    specialReg s u i lane = sregValue s u w x sl i lane := by
  simp only [specialReg, hw, hx]
  unfold sregValue
  split
  case h_12 => simp [ctxReg, hs]
  all_goals rfl

section
variable {s : State} {u : Iss}

theorem exec_sreg_issuing {d : BitVec 4} {i : BitVec 9} {w : Workgroup} {x : Launch} {sl : Slice} (hu : issuing s = some u)
    (hh : writeHeld u (regsOf d.toNat 1) = false) (hw : workgroup s u.f.wg = some w) (hx : launchOf s u.f.wg = some x)
    (hs : s.slice = some sl) :
    exec (.sreg d i) s = .next (issueVals s u 4 1 d (u.lanes.map (fun l => (l, [sregValue s u w x sl i.toNat l])))) := by
  have hv : eachLane u (fun l => (some (specialReg s u i.toNat)).map (fun v => out32 (v l)))
      = some (u.lanes.map (fun l => (l, [sregValue s u w x sl i.toNat l]))) := by
    simp only [Option.map_some, eachLane_some, out32, specialReg_eq hw hx hs]
  change Host.Outcome.next (aluWord s 4 1 d _) = _
  rw [aluWord_next hu hh hv]

/-- MSIG once its operands can be read, by the channel, the release and the Mast's room (R272). -/
theorem exec_msig_issuing {d : BitVec 4} {b a : Src} {x y : Word} (hu : issuing s = some u)
    (hx : read32 u a (lowest u.cl.lanes) = some x) (hy : read32 u b (lowest u.cl.lanes) = some y)
    (hh : writeHeld u (regsOf d.toNat 1) = false) :
    (32 ≤ x.toNat → exec (.msig d b a) s = .next (trap s u 3 u.word)) ∧
    (x.toNat < 32 → released s u.c u.l u.cl.lanes s.ops .dev = true →
      ((Machine.core s u.c).mast.msgs.length < 16 →
        exec (.msig d b a) s = .next (issueVals
          (modCore s u.c (fun k => { k with mast := { k.mast with
            msgs := k.mast.msgs ++ [⟨x.toNat, y, ctxId s, u.l, u.f.wlf * 32 + lowest u.cl.lanes⟩] } }))
          u 6 1 d (u.lanes.map (fun i => (i, [1]))))) ∧
      (16 ≤ (Machine.core s u.c).mast.msgs.length →
        exec (.msig d b a) s = .next (issueVals s u 6 1 d (u.lanes.map (fun i => (i, [0])))))) := by
  simp only [exec_msig, execMsig, hu, Iss.low, hx, hy, hh]
  refine ⟨fun h => ?_, fun h hr => ⟨fun hm => ?_, fun hm => ?_⟩⟩
  · have : x.toNat / 32 ≠ 0 := by omega
    simp [this]
  · have : x.toNat / 32 = 0 := by omega
    simp [this, hr, hm]
  · have : x.toNat / 32 = 0 := by omega
    simp [this, hr, Nat.not_lt.mpr hm]

theorem exec_mark_issuing {a : Src} {t : Table Word} (hu : issuing s = some u) (ht : eachLane u (read32 u a) = some t) :
    exec (.mark a) s
      = .next (advance (t.foldl (fun s e => record s u.c 12 (thrField u.l e.1) u.pc e.2.toNat) s) u) := by
  simp only [exec_mark, execMark, hu, ballot, ht]

end

/-- Settles O8: the votes by their functions of the ballot, SREG by its register, MSIG by its three outcomes. -/
theorem laneMessageAndSpecialWords : Obligations.LaneMessageAndSpecialWords := by
  refine ⟨fun d b a sel => ⟨delivers_aluWord fun _ => rfl, delivers_ofVote (fun _ => rfl) voteAnyOf_eq,
    delivers_ofVote (fun _ => rfl) voteAllOf_eq, delivers_ofVote (fun _ => rfl) voteBalOf_eq,
    delivers_ofVote (fun _ => rfl) voteUniOf_eq, delivers_aluAll fun _ => rfl⟩, ?_, ?_, ?_⟩
  · intro d i s u w x sl hu hh hw hx hs
    exact exec_sreg_issuing hu hh hw hx hs
  · intro d b a s u x y hu hx hy hh
    exact exec_msig_issuing hu hx hy hh
  · intro a s u t hu ht
    exact exec_mark_issuing hu ht

/-! ## Control words (O20) -/

theorem target_eq (s : State) (u : Iss) (n : BitVec 24) : u.target s n = branchTo s u n := by
  have h : regionAdd u.cl.hdrAddr (off24 n) % 2 ^ 32 = (((u.cl.hdrAddr : Int) + 4 * n.toInt) % 2 ^ 32).toNat := by
    simp only [regionAdd, off24]
    omega
  rw [Iss.target, branchTo, regionVa, Nat.mod_mod, h]

section
variable {s : State} {u : Iss}

/-- A conditional branch takes its target where its test of Q[1] says so (R263). -/
theorem branchIf_issuing {n : BitVec 24} {q : Table Word} {p : Word → Bool} (hu : issuing s = some u)
    (hq : eachLane u (fun i => readAge (thread u.f i) 0) = some q) :
    branchIf s n p = jump s u (fun l => some (if p (look q l 0) then branchTo s u n else u.next)) := by
  simp only [branchIf, hu, conditions, hq, target_eq]

theorem exec_brz_issuing {n : BitVec 24} {q : Table Word} (hu : issuing s = some u)
    (hq : eachLane u (fun i => readAge (thread u.f i) 0) = some q) :
    exec (.brz n) s = .next (jump s u (fun l => some (if look q l 0 = 0 then branchTo s u n else u.next))) := by
  simp only [exec_brz, execBrz, branchIf_issuing hu hq, beq_iff_eq]

theorem exec_brnz_issuing {n : BitVec 24} {q : Table Word} (hu : issuing s = some u)
    (hq : eachLane u (fun i => readAge (thread u.f i) 0) = some q) :
    exec (.brnz n) s = .next (jump s u (fun l => some (if look q l 0 = 0 then u.next else branchTo s u n))) := by
  simp only [exec_brnz, execBrnz, branchIf_issuing hu hq, bne_iff_ne, ite_not]

theorem exec_call_issuing {n : BitVec 24} (hu : issuing s = some u) (hh : writeHeld u [14] = false) :
    exec (.call n) s = .next (jump
      (sendVals s u 4 1 14 (u.lanes.map (fun l => (l, [BitVec.ofNat 32 u.next])))) u (fun _ => some (branchTo s u n))) := by
  simp [exec_call, execCall, hu, hh, target_eq]

/-- RET traps at the first lane whose n14 is misaligned (R264). -/
theorem exec_ret_misaligned {t : Table Word} {e : Nat × Word} (hu : issuing s = some u)
    (ht : eachLane u (fun i => readNamed (thread u.f i) 14) = some t)
    (he : t.find? (fun e => decide (e.2.toNat % 4 ≠ 0)) = some e) : exec .ret s = .next (trap s u 4 e.2.toNat) := by
  simp only [exec_ret, execRet, hu, ht, he]

theorem exec_ret_aligned {t : Table Word} (hu : issuing s = some u)
    (ht : eachLane u (fun i => readNamed (thread u.f i) 14) = some t) (ha : ∀ e ∈ t, e.2.toNat % 4 = 0) :
    exec .ret s = .next (jump s u (fun i => some (regionOf s u.f.wg * 2 ^ 32 + (look t i 0).toNat))) := by
  have hf : t.find? (fun e => decide (e.2.toNat % 4 ≠ 0)) = none := by
    rw [List.find?_eq_none]
    intro e he
    simp [ha e he]
  have hv : ∀ x : Word, regionVa (regionOf s u.f.wg) x.toNat = regionOf s u.f.wg * 2 ^ 32 + x.toNat := fun x => by
    rw [regionVa, Nat.mod_eq_of_lt x.isLt]
  simp only [exec_ret, execRet, hu, ht, hf, hv]

theorem exec_syscall_issuing {n : BitVec 24} (hu : issuing s = some u) (hh : writeHeld u [1] = false) :
    exec (.syscall n) s = .next { modLF (fresh s) u.c u.l (fun f => { f with call := some ⟨s.ops, BitVec.ofNat 32 n.toNat, false⟩, callSlot := none })
        with at_ := none } := by
  have hn : n.setWidth 32 = BitVec.ofNat 32 n.toNat := BitVec.eq_of_toNat_eq (by simp)
  have hr : writeHeld u (regsOf 1 1) = false := hh
  simp only [exec_syscall, execSyscall, hu, hr, hn, Bool.false_eq_true, if_false]

theorem exec_brk_issuing {n : BitVec 24} (hu : issuing s = some u) :
    exec (.brk n) s = .next (if brkEnabled s then raise (jump s u (fun _ => some u.next))
      ⟨16, u.c, u.l, 0, thrField u.l (lowest u.cl.lanes), u.pc, n.toNat, some u.cl.lanes⟩
      else jump s u (fun _ => some u.next)) := by
  simp only [exec_brk, execBrk, hu, Iss.low]
  split <;> rfl

end

/-- Settles O20: each control word's one branch that issues. -/
theorem controlWords : Obligations.ControlWords := by
  intro n s u hu
  refine ⟨?_, fun q hq => ⟨exec_brz_issuing hu hq, exec_brnz_issuing hu hq⟩, exec_call_issuing hu,
    fun t ht => ⟨fun e he => exec_ret_misaligned hu ht he, exec_ret_aligned hu ht⟩, ?_, ?_, exec_syscall_issuing hu, ?_, ?_⟩
  · simp only [exec_bra, execBra, hu, target_eq]
  · simp only [exec_endThread, execEndThread, hu]
  · simp only [exec_trap, execTrap, hu]
  · intro hb
    simp [exec_brk_issuing hu, hb]
  · intro hb
    simp [exec_brk_issuing hu, hb]

/-! ## Steps, illegal words and sample words (O21, O22, O25) -/

section
variable {s : State} {u : Iss}

theorem step_of_run {i : Instr} {t : State} (h : chooseNext s = .run i t) : step s = exec i t := by
  simp only [step, h]

theorem step_of_out {o : Outcome} (h : chooseNext s = .out o) : step s = o := by
  simp only [step, h]

/-- With nothing due in the agenda and a word issuing, what comes next is what becomes of that word. -/
theorem chooseNext_issuing (ha : dueAgenda s (fun j => !windowDue s || isBoundary j) = none) (hu : issuing s = some u) :
    chooseNext s = wordChoice s u := by
  simp only [chooseNext, ha, hu]

theorem step_of_decodeIn_ok {w : Word} {i : Instr} (ha : dueAgenda s (fun j => !windowDue s || isBoundary j) = none)
    (hu : issuing s = some u) (hw : u.cl.words.getD (u.cl.pos - 1) (.word 0) = .word w)
    (hd : decodeIn u.hdr.cls (lastWord u) w = .ok i) : step s = exec i s := by
  exact step_of_run (by simp only [chooseNext_issuing ha hu, wordChoice, hw, hd])

theorem exec_illegal_issuing (hu : issuing s = some u) (k : IllKind) (w : Word) :
    execIllegalInstruction k w s = .next (trap s u (if k = .operand then 3 else 2) w.toNat) := by
  cases k <;> simp [execIllegalInstruction, hu, illKindCode]

theorem step_of_decodeIn_error {w : Word} {k : IllKind} (ha : dueAgenda s (fun j => !windowDue s || isBoundary j) = none)
    (hu : issuing s = some u) (hw : u.cl.words.getD (u.cl.pos - 1) (.word 0) = .word w)
    (hd : decodeIn u.hdr.cls (lastWord u) w = .error k) :
    step s = .next (trap s u (if k = .operand then 3 else 2) w.toNat) := by
  exact step_of_out (by simp only [chooseNext_issuing ha hu, wordChoice, hw, hd, exec_illegal_issuing hu])

/-- A step runs what the agenda gives first. -/
theorem step_of_dueAgenda {i : Instr} {t : State} (ha : dueAgenda s (fun j => !windowDue s || isBoundary j) = some (i, t)) :
    step s = exec i t := by
  exact step_of_run (by simp only [chooseNext, ha])

/-- The agenda's first entry is due when it is ready, passes the test and is not a request on link 1. -/
theorem dueAgenda_cons {n : Nat} {i : Instr} {r : List (Nat × Instr)} {p : Instr → Bool} (hs : s.agenda = (n, i) :: r)
    (hr : agendaReady s (n, i) = true) (hp : p i = true) (hl : fromLink i ≠ some 1) :
    dueAgenda s p = some (i, { s with agenda := r }) := by
  simp [dueAgenda, hs, hr, hp, hl]

theorem dueAgenda_none_of_link {n k : Nat} {i : Instr} (hs : s.agenda = [(n, i)]) (hl : fromLink i = some k)
    (hf : fabricTick s = false) (p : Instr → Bool) : dueAgenda s p = none := by
  simp [dueAgenda, hs, agendaReady, hl, hf]

end

/-- Settles O21: one case for each branch of the choice of what comes next. -/
theorem stepRunsTheDecodedInstruction : Obligations.StepRunsTheDecodedInstruction := by
  refine ⟨fun s u w i ha hu hw hd => step_of_decodeIn_ok ha hu hw hd, fun s n i r hs hn => ⟨?_, ?_, ?_⟩, fun s ha hu => ⟨?_, ?_⟩⟩
  · intro hw hl hseal
    refine step_of_dueAgenda (dueAgenda_cons hs ?_ ?_ (by simp [hl]))
    · rcases hseal with h | h <;> simp [agendaReady, hl, hn, h]
    · rcases hw with h | h <;> simp [h]
  · intro k hw hl hk hf hc
    refine step_of_dueAgenda (dueAgenda_cons hs ?_ ?_ (by simpa [hl] using hk))
    · simp [agendaReady, hl, hn, hf, hc]
    · simp [hw]
  · intro k p hl hr hf
    exact dueAgenda_none_of_link (hr ▸ hs) hl hf p
  · intro hw
    exact step_of_out (by rw [chooseNext, ha, hu]; exact if_pos hw)
  · intro hw hc hsel
    refine step_of_out ?_
    rw [chooseNext, ha, hu, hsel]
    simp only [hw, Bool.false_eq_true, if_false, if_neg (Nat.not_le.mpr hc)]

/-- A word decodes by itself to `unassigned` exactly when its slot is unassigned. -/
theorem decodeWord_unassigned {w : Word} :
    decodeWord w = .error .unassigned ↔ (Raw.ofWord w).instr = .error .unassigned := by
  unfold decodeWord
  cases h : (Raw.ofWord w).instr with
  | error k => simp
  | ok i => by_cases hf : i.wellFormed <;> simp [hf]

theorem classFits_iff (c : OpClass) (cls : BitVec 3) (last : Bool) :
    classFits c cls last = true ↔ if c = .ctl then last = true else c.code = cls := by
  unfold classFits
  split <;> simp

/-- A word in an assigned slot is in its place or a word out of its class. -/
theorem decodeIn_assigned {w : Word} (h : decodeWord w ≠ .error .unassigned) (cls : BitVec 3) (last : Bool) :
    decodeIn cls last w = if classFits (Raw.ofWord w).cls cls last then decodeWord w else .error .wrongClass := by
  rw [Ne, decodeWord_unassigned] at h
  unfold decodeIn decodeWord
  split
  · exact absurd ‹_› h
  · rfl

/-- Settles O22: a failing check decides the choice, and the checks stand in the order of `decodeIn`. -/
theorem illegalWordsTrap : Obligations.IllegalWordsTrap := by
  refine ⟨fun s u w k ha hu hw hd => step_of_decodeIn_error ha hu hw hd, fun s u w k hu => exec_illegal_issuing hu k w,
    fun cls last w => ⟨fun h => ?_, fun h => ⟨fun hf => ?_, fun hf => ?_⟩⟩⟩
  · rw [decodeWord_unassigned] at h
    simp only [decodeIn, h]
  · rw [← classFits_iff] at hf
    simp [decodeIn_assigned h, hf]
  · rw [← classFits_iff] at hf
    simp [decodeIn_assigned h, hf]

/-- Settles O25: five closed words, decoded by evaluation. -/
theorem sampleWordsDecode : Obligations.SampleWordsDecode := by
  refine ⟨?_, ?_, ?_, ?_, ?_⟩ <;> decide

/-! ## Engine commands at issue (O19) -/

theorem engineE_lt (base : Word) (x : BitVec 9) : engineE base x < 2 ^ 32 := by
  unfold engineE effective
  omega

section
variable {s : State} {u : Iss} {base : Word} {r : BitVec 4} {f : Side} {b : Src} {x : BitVec 9}
  {ready : Iss → Bool} {start : Iss → Workgroup → List Byte → Nat → State}

/-- XFER and COLL once their operands can be read: the record's offset is checked, then the command is made (R274). -/
theorem scratchCommand_issuing (hu : issuing s = some u) (hb : read32 u b (lowest u.cl.lanes) = some base)
    (hh : writeHeld u (regsOf r.toNat 1) = false) (ha : acquiring s u = false) (hp : recordPending s u = false)
    (hr : ready u = true) :
    (engineE base x % 64 ≠ 0 → scratchCommand s r b x ready start = .next (trap s u 4 (engineE base x))) ∧
    (engineE base x % 64 = 0 → scratchBytes s u.f.wg ≤ engineE base x →
      scratchCommand s r b x ready start = .next (trap s u 5 (engineE base x))) ∧
    (∀ w, engineE base x % 64 = 0 → engineE base x < scratchBytes s u.f.wg → workgroup s u.f.wg = some w →
      scratchPoison s w (engineE base x) 64 = false →
      scratchCommand s r b x ready start
        = .next (start u w (scratchBytesAt s w (engineE base x) 64) (engineE base x))) := by
  simp only [scratchCommand, hu, Iss.low, hb, hh, ha, hp, hr, Bool.or_self, Bool.not_true, Bool.false_eq_true, if_false]
  refine ⟨fun h => by rw [if_pos h], fun h hl => by rw [if_neg (not_not.mpr h), if_pos hl], fun w h hl hw hpo => ?_⟩
  rw [if_neg (not_not.mpr h), if_neg (Nat.not_le.mpr hl), hw]
  simp only [hpo, Bool.false_eq_true, if_false]

/-- What LAUNCH does with its record, read in state `s1`. -/
def launchStart (s1 : State) (u : Iss) (va e : Nat) (r : BitVec 4) (f : Side) (l : List Byte) : Outcome :=
  if recordBad l then .next (trap s1 u 15 e)
  else match readDeps s1 u va (recordDeps l) with
  | (.error t, _) => .next t
  | (.ok d, s2) =>
    if (List.range (recordDeps l)).any (depBad d) then .next (trap s2 u 15 e)
    else if !released s2 u.c u.l u.cl.lanes s2.ops .dev then .next (hold s2)
    else .next (enterEngine
      { s2 with launchNo := put s2.launchNo (ctxId s2) (look s2.launchNo (ctxId s2) 0 + 1) } u
      (.launch l ((List.range (recordDeps l)).map (depOf d))
        (min (bits (field l 36 4) 2 0) (match launchOf s2 u.f.wg with | some y => y.prio | none => 0)))
      .none e r.toNat (u.flag f) (look s2.launchNo (ctxId s2) 0))

/-- LAUNCH once its operand can be read, up to the read of its record (R283). -/
theorem exec_launch_issuing (hu : issuing s = some u) (hb : read32 u b (lowest u.cl.lanes) = some base)
    (hh : writeHeld u (regsOf r.toNat 1) = false) (ha : acquiring s u = false) :
    (engineE base x % 64 ≠ 0 → exec (.launch r f b x) s = .next (trap s u 4 (engineE base x))) ∧
    (∀ l s1, engineE base x % 64 = 0 → readRecord s u (regionOf s u.f.wg * 2 ^ 32 + engineE base x) 64 = (.ok l, s1) →
      exec (.launch r f b x) s = launchStart s1 u (regionOf s u.f.wg * 2 ^ 32 + engineE base x) (engineE base x) r f l) := by
  have hva : regionVa (regionOf s u.f.wg) (engineE base x) = regionOf s u.f.wg * 2 ^ 32 + engineE base x := by
    rw [regionVa, Nat.mod_eq_of_lt (engineE_lt base x)]
  simp only [exec_launch, execLaunch, hu, Iss.low, hb, hh, ha, hva, Bool.or_self, Bool.false_eq_true, if_false]
  refine ⟨fun h => by rw [if_pos h], fun l s1 h hrec => ?_⟩
  rw [if_neg (not_not.mpr h), hrec] <;> rfl

end

/-- What COLL does with its record. -/
def collStart (s : State) (r : BitVec 4) (f : Side) (u : Iss) (_ : Workgroup) (l : List Byte) (e : Nat) : State :=
  match collOf s u.c l with
  | none => trap s u 15 e
  | some (y, d) =>
    if !s.caps.getLsbD 3 && (List.range y.mems.length).any (fun j => !y.onPart j) then trap s u 9 3
    else enterEngine (modCore { s with groupSeq := put s.groupSeq (y.group * 65536 + y.me) (y.k + 1) } u.c
      (fun k => { k with collNo := k.collNo + 1 })) u (.coll y) d e r.toNat (u.flag f) (Machine.core s u.c).collNo

/-- What XFER does with its record. -/
def xferStart (s : State) (r : BitVec 4) (f : Side) (u : Iss) (w : Workgroup) (l : List Byte) (e : Nat) : State :=
  match xferOf s w u l with
  | none => trap s u 15 e
  | some (k, d) => enterEngine (modCore s u.c (fun y => { y with copyNo := y.copyNo + 1 })) u k d e r.toNat (u.flag f)
      (Machine.core s u.c).copyNo

theorem exec_coll_eq (s : State) (r : BitVec 4) (f : Side) (b : Src) (x : BitVec 9) :
    exec (.coll r f b x) s = scratchCommand s r b x (fun _ => true) (collStart s r f) := rfl

theorem exec_xfer_eq (s : State) (r : BitVec 4) (f : Side) (b : Src) (x : BitVec 9) :
    exec (.xfer r f b x) s = scratchCommand s r b x originReady (xferStart s r f) := rfl

/-- A collective has its fabric, or no member on another part (R282). -/
theorem absent_of_onPart {caps : Word} {y : Collective}
    (h : caps.getLsbD 3 = true ∨ ∀ j < y.mems.length, y.onPart j = true) :
    (!caps.getLsbD 3 && (List.range y.mems.length).any (fun j => !y.onPart j)) = false := by
  rcases h with h | h
  · simp [h]
  · rw [Bool.and_eq_false_iff, List.any_eq_false]
    exact .inr fun j hj => by simp [h j (List.mem_range.mp hj)]

/-- Settles O19: the offset's checks, and past them the record's. -/
theorem engineCommandWords : Obligations.EngineCommandWords := by
  intro r f b x s u base hu hb hh e
  refine ⟨fun ha hp => ?_, fun ha => ?_⟩
  · obtain ⟨c4, c5, cok⟩ := scratchCommand_issuing (x := x) (ready := fun _ => true) (start := collStart s r f)
      hu hb hh ha hp rfl
    have xfer (hr : originReady u = true) := scratchCommand_issuing (x := x) (start := xferStart s r f) hu hb hh ha hp hr
    simp only [exec_coll_eq, exec_xfer_eq]
    refine ⟨fun h => ⟨c4 h, fun hr => (xfer hr).1 h⟩, fun h hl => ⟨c5 h hl, fun hr => (xfer hr).2.1 h hl⟩,
      fun w h hl hw hpo => ⟨fun y d hy hpart => ?_, fun hy => ?_, fun hr => ⟨fun k d hk => ?_, fun hk => ?_⟩⟩⟩
    · simp only [e, cok w h hl hw hpo, collStart, hy, absent_of_onPart hpart, Bool.false_eq_true, if_false]
    · simp only [e, cok w h hl hw hpo, collStart, hy]
    · simp only [e, (xfer hr).2.2 w h hl hw hpo, xferStart, hk]
    · simp only [e, (xfer hr).2.2 w h hl hw hpo, xferStart, hk]
  · intro va
    obtain ⟨h4, hrec⟩ := exec_launch_issuing (f := f) (x := x) hu hb hh ha
    refine ⟨h4, fun l deps s1 s2 he hl => ?_⟩
    rw [hrec l s1 he hl, launchStart]
    refine ⟨fun hbad => by rw [if_pos hbad], fun hbad hd hdep hrel => ?_⟩
    have hany : (List.range (recordDeps l)).any (depBad deps) = false := by
      rw [List.any_eq_false]
      intro i hi
      simp [hdep i (List.mem_range.mp hi)]
    rw [if_neg (by simp [hbad]), show readDeps s1 u (regionOf s u.f.wg * 2 ^ 32 + engineE base x) (recordDeps l) = _ from hd]
    simp only [hany, hrel, Bool.not_true, Bool.false_eq_true, if_false] <;> rfl

/-! ## The words of the matrix queue at issue (O15 to O18) -/

theorem bits_eq (x hi lo : Nat) : bits x hi lo = x / 2 ^ lo % 2 ^ (hi + 1 - lo) := by
  rw [bits, Nat.shiftRight_eq_div_pow]

/-- The bits of a word from one on. -/
theorem bits_upper (x : Word) {lo : Nat} (h : lo ≤ 32) : bits x.toNat 31 lo = x.toNat / 2 ^ lo := by
  rw [bits_eq]
  refine Nat.mod_eq_of_lt (Nat.div_lt_of_lt_mul ?_)
  rw [← pow_add, Nat.add_sub_cancel' h]
  exact x.isLt

theorem causeTrap_word (s : State) (u : Iss) (kind : Nat) (x : Word) (cause : Nat) :
    causeTrap s u kind x.toNat cause = trap s u kind (x.toNat + cause * 2 ^ 32) := by
  rw [causeTrap, Nat.mod_eq_of_lt x.isLt]

section
variable {s : State} {u : Iss}

theorem mqWord_issuing {a : Src} {x : Word} {g : Iss → Word → State} (hu : issuing s = some u) (hm : mqRoom s u.c = true)
    (hx : read32 u a (lowest u.cl.lanes) = some x) : mqWord s a g = .next (g u x) := by
  simp only [mqWord, hu, Iss.low, hx, hm, if_true]

theorem mqWord64_issuing {b : BitVec 5} {a : Src} {x : DWord} {y : Word} {g : Iss → DWord → Word → State}
    (hu : issuing s = some u) (hm : mqRoom s u.c = true) (hx : read64 u a (lowest u.cl.lanes) = some x)
    (hy : readSC u b (lowest u.cl.lanes) = some y) : mqWord64 s b a g = .next (g u x y) := by
  simp only [mqWord64, hu, Iss.low, hx, hy, hm, if_true]

/-! ### Reservations (R236 to R239) -/

/-- The lowest free record is the one that RSV.SET finds. -/
theorem find_lowest_free {recs : Table Rsv} {r : Nat} (hr : r < 32) (hf : lookup recs r = none)
    (hl : ∀ q < r, lookup recs q ≠ none) : (List.range 32).find? (fun r => (lookup recs r).isNone) = some r := by
  rw [List.find?_range_eq_some]
  refine ⟨by simp [hf], List.mem_range.mpr hr, fun q hq => ?_⟩
  simp [Option.isSome_iff_ne_none.mpr (hl q hq)]

theorem exec_rsvSet_issuing {d : BitVec 4} {b : BitVec 5} {a : Src} {x y : DWord} (hu : issuing s = some u)
    (hx : read64 u a (lowest u.cl.lanes) = some x) (hy : readSC64 u b (lowest u.cl.lanes) = some y)
    (hh : writeHeld u (regsOf d.toNat 1) = false) (hm : mqRoom s u.c = true) :
    (rsvBad x y = true → exec (.rsvSet d b a) s = .next (trap s u 3 u.word)) ∧
    (∀ k, rsvBad x y = false → rsvCause s u.c u.f.wg (recView (rsvBits x y)) = some k →
      exec (.rsvSet d b a) s = .next (trap s u 10 (x.toNat % 2 ^ 32 + k * 2 ^ 32))) ∧
    (∀ r, rsvBad x y = false → rsvCause s u.c u.f.wg (recView (rsvBits x y)) = none → r < 32 →
      lookup (Machine.core s u.c).c.recs r = none → (∀ q < r, lookup (Machine.core s u.c).c.recs q ≠ none) →
      exec (.rsvSet d b a) s = .next (issueVals
        (enqueue (modCore s u.c (fun k => modC k (fun z => { z with recs := put z.recs r ⟨rsvBits x y, u.f.wg⟩ }))) u .short 0 none)
        u 8 1 d (u.lanes.map (fun i => (i, [BitVec.ofNat 32 r]))))) := by
  simp only [exec_rsvSet, execRsvSet, hu, Iss.low, hx, hy, hh, hm, Bool.not_true, Bool.or_self, Bool.false_eq_true, if_false]
  refine ⟨fun hb => by rw [if_pos hb, operandTrap], fun k hb hk => ?_, fun r hb hk hr hf hl => ?_⟩
  · simp only [hb, hk, Bool.false_eq_true, if_false, causeTrap]
  · simp only [hb, hk, find_lowest_free hr hf hl, Bool.false_eq_true, if_false, Option.getD_some]

theorem exec_rsvFree_issuing {a : Src} {x : Word} (hu : issuing s = some u) (hm : mqRoom s u.c = true)
    (hx : read32 u a (lowest u.cl.lanes) = some x) :
    exec (.rsvFree a) s = .next (if x.toNat / 32 ≠ 0 then trap s u 3 u.word
      else if (ownRec s u.c u.f.wg x.toNat).isNone then trap s u 10 (x.toNat + 6 * 2 ^ 32)
      else advance (enqueue s u (.rsvFree x.toNat) 0 none) u) := by
  rw [exec_rsvFree, execRsvFree, mqWord_issuing hu hm hx, causeTrap_word, operandTrap]

theorem exec_rsvGet_issuing {d : BitVec 4} {a : Src} {x : Word} (hu : issuing s = some u) (hm : mqRoom s u.c = true)
    (hx : read32 u a (lowest u.cl.lanes) = some x) (hh : writeHeld u (regsOf d.toNat 2) = false) :
    exec (.rsvGet d a) s = .next (if x.toNat / 64 ≠ 0 then trap s u 3 u.word
      else issueVals (enqueue s u .short 0 none) u 4 2 d
        (u.lanes.map (fun i => (i, words64 (rsvImage s u.c u.f.wg x))))) := by
  rw [exec_rsvGet, execRsvGet, mqWord_issuing hu hm hx, operandTrap]
  simp only [hh, Bool.false_eq_true, if_false, out64_eq_words64]

theorem exec_mxld_issuing {f : Side} {b : BitVec 5} {a : Src} {x : DWord} {y : Word} (hu : issuing s = some u)
    (hm : mqRoom s u.c = true) (hx : read64 u a (lowest u.cl.lanes) = some x)
    (hy : readSC u b (lowest u.cl.lanes) = some y) :
    exec (.mxld f b a) s = .next (if y.toNat / 32 ≠ 0 then trap s u 3 u.word
      else if x.toNat % 16 ≠ 0 then trap s u 4 (x.toNat % 2 ^ 32)
      else if (ownRec s u.c u.f.wg y.toNat).isNone then trap s u 10 (x.toNat % 2 ^ 32 + 6 * 2 ^ 32)
      else advance (enqueue s u (.mxld y.toNat x.toNat) 0 (u.flag f)) u) := by
  rw [exec_mxld, execMxld, mqWord64_issuing hu hm hx hy, operandTrap, causeTrap]

end

/-- Settles O15: the branches of each reservation word. -/
theorem reservationWords : Obligations.ReservationWords := by
  refine ⟨fun d b a s u x y hu hx hy hh hm => exec_rsvSet_issuing hu hx hy hh hm, fun d f b a s u hu hm =>
    ⟨fun x hx => ⟨fun h => ?_, fun h ho => ?_, fun h ho => ?_, fun hh h => ?_, fun hh h => ?_⟩,
     fun x y hx hy => ⟨fun h => ?_, fun h h16 => ?_, fun h h16 ho => ?_, fun h h16 ho => ?_⟩⟩⟩
  · rw [exec_rsvFree_issuing hu hm hx, if_pos (by omega)]
  · rw [exec_rsvFree_issuing hu hm hx, if_neg (by omega), if_pos (by simp [ho])]
  · rw [exec_rsvFree_issuing hu hm hx, if_neg (by omega), if_neg (by simp [ho])]
  · rw [exec_rsvGet_issuing hu hm hx hh, if_pos (by omega)]
  · rw [exec_rsvGet_issuing hu hm hx hh, if_neg (by omega)]
  · rw [exec_mxld_issuing hu hm hx hy, if_pos (by omega)]
  · rw [exec_mxld_issuing hu hm hx hy, if_neg (by omega), if_pos h16]
  · rw [exec_mxld_issuing hu hm hx hy, if_neg (by omega), if_neg (by omega), if_pos (by simp [ho])]
  · rw [exec_mxld_issuing hu hm hx hy, if_neg (by omega), if_neg (by omega), if_neg (by simp [ho])]

section
variable {s : State} {u : Iss}

/-! ### Accumulator words (R240 to R243) -/

theorem accWord_issuing {a : Src} {x : Word} {claims : Bool} {k : Nat → MqKind} (hu : issuing s = some u)
    (hm : mqRoom s u.c = true) (hx : read32 u a (lowest u.cl.lanes) = some x) :
    accWord s a claims k = .next (if x.toNat / 64 ≠ 0 then trap s u 3 u.word
      else if tileOther s u.c u.f.wg x.toNat then trap s u 11 (x.toNat + 2 ^ 32)
      else advance (enqueue (if claims then claimTile s u.c u.f.wg x.toNat else s) u (k x.toNat) 0 none) u) := by
  rw [accWord, mqWord_issuing hu hm hx, causeTrap_word, operandTrap, Nat.one_mul]

theorem accMove_issuing {f : Side} {b : BitVec 5} {a : Src} {x : DWord} {y : Word} {claims : Bool}
    {k : Nat → Nat → Bool → MqKind} (hu : issuing s = some u) (hm : mqRoom s u.c = true)
    (hx : read64 u a (lowest u.cl.lanes) = some x) (hy : readSC u b (lowest u.cl.lanes) = some y) :
    accMove s f b a claims k = .next (if y.toNat / 2 ^ 9 ≠ 0 ∨ y.toNat / 2 ^ 6 % 4 ≠ 0 then trap s u 3 u.word
      else if x.toNat % 128 ≠ 0 then trap s u 4 (x.toNat % 2 ^ 32)
      else if tileOther s u.c u.f.wg (y.toNat % 64) then trap s u 11 (x.toNat % 2 ^ 32 + 2 ^ 32)
      else advance (enqueue (if claims then claimTile s u.c u.f.wg (y.toNat % 64) else s) u
        (k (y.toNat % 64) x.toNat (y.getLsbD 8)) 0 (u.flag f)) u) := by
  have ht : bits y.toNat 5 0 = y.toNat % 64 := by rw [bits_eq]; simp
  rw [accMove, mqWord64_issuing hu hm hx hy, operandTrap, causeTrap, Nat.one_mul]
  have h6 : bits y.toNat 7 6 = y.toNat / 2 ^ 6 % 4 := bits_eq _ _ _
  simp only [ht, bits_upper y (show 9 ≤ 32 by decide), h6]

theorem exec_accRd_issuing {d : BitVec 4} {f : Side} {a : Src} {sel : Table Word} (hu : issuing s = some u)
    (hm : mqRoom s u.c = true) (he : eachLane u (read32 u a) = some sel) (hh : writeHeld u (regsOf d.toNat 1) = false)
    (hok : ∀ e ∈ sel, e.2.toNat < 2 ^ 17 ∧ tileOther s u.c u.f.wg (e.2.toNat % 64) = false) :
    exec (.accRd d f a) s = .next (laneEngineWord s u (.accRd sel) d (u.flag f)) := by
  have h17 : sel.any (fun e => decide (bits e.2.toNat 31 17 ≠ 0)) = false := by
    rw [List.any_eq_false]
    intro e he
    have := (hok e he).1
    rw [bits_upper e.2 (by decide)]
    simp only [decide_eq_true_eq, not_not]
    omega
  have hown : sel.find? (fun e => tileOther s u.c u.f.wg (bits e.2.toNat 5 0)) = none := by
    rw [List.find?_eq_none]
    intro e he
    rw [bits_eq]
    simpa using (hok e he).2
  simp only [exec_accRd, execAccRd, hu, he, hh, hm, h17, hown, Bool.not_true, Bool.or_self, Bool.false_eq_true, if_false]

end

/-- Settles O16: ACC.ZERO and ACC.FREE share one form, ACC.LD and ACC.ST another. -/
theorem accumulatorWords : Obligations.AccumulatorWords := by
  intro d f b a s u hu hm
  refine ⟨fun x hx => ?_, fun x y hx hy => ?_, fun sel he hh hok => exec_accRd_issuing hu hm he hh hok⟩
  · rw [exec_accZero, exec_accFree, execAccZero, execAccFree, accWord_issuing hu hm hx, accWord_issuing hu hm hx]
    refine ⟨fun h => ?_, fun h ho => ?_, fun h ho => ?_⟩
    · simp only [if_pos (show x.toNat / 64 ≠ 0 by omega), and_self]
    · simp only [if_neg (show ¬x.toNat / 64 ≠ 0 by omega), ho, if_true, and_self]
    · simp only [if_neg (show ¬x.toNat / 64 ≠ 0 by omega), ho, Bool.false_eq_true, if_true, if_false, and_self]
  · rw [exec_accLd, exec_accSt, execAccLd, execAccSt, accMove_issuing hu hm hx hy, accMove_issuing hu hm hx hy]
    refine ⟨fun h => ?_, fun h9 h6 => ?_⟩
    · simp only [if_pos h, and_self]
    · have hop : ¬(y.toNat / 2 ^ 9 ≠ 0 ∨ y.toNat / 2 ^ 6 % 4 ≠ 0) := by simp only [h9, h6, ne_eq, not_true, or_self, not_false_iff]
      refine ⟨fun h => ?_, fun h ho => ?_, fun h ho => ?_⟩
      · simp only [if_neg hop, if_pos h, and_self]
      · simp only [if_neg hop, if_neg (not_not.mpr h), ho, if_true, and_self]
      · simp only [if_neg hop, if_neg (not_not.mpr h), ho, Bool.false_eq_true, if_true, if_false, and_self]

/-! ### Products (R244, R245, R250) -/

/-- A product word is `mmaWord`, which traps at the first failing check or enters the queue. -/
theorem products_of_mmaWord {i : Instr} {form : MmaForm} {f : Side} {a : Src} {b : Option (BitVec 5)}
    (hi : ∀ s, exec i s = mmaWord s form f a b) : Products i form f a b := by
  intro s u o list hu ho hm hp
  constructor
  · intro k d hc
    simp only [hi, mmaWord, hu, ho, hm, hp, hc, Bool.not_true, Bool.or_self, Bool.false_eq_true, if_false]
  · intro hc
    simp only [hi, mmaWord, hu, ho, hm, hp, hc, Bool.not_true, Bool.or_self, Bool.false_eq_true, if_false]

theorem jointProducts_of_jointWord {i : Instr} {form : MmaForm} {f : Side} {a : Src} {b : Option (BitVec 5)}
    (hi : ∀ s, exec i s = jointWord s form f a b) : JointProducts i form f a b := by
  intro s u o list w hu ho hm hp hw
  have hn : bits w.gang.toNat 26 24 = w.gang.toNat / 2 ^ 24 % 8 := bits_eq _ _ _
  refine ⟨fun k d hc => ?_, fun hc => ⟨fun hg => ?_, fun hg => ?_⟩⟩
  · simp only [hi, jointWord, hu, ho, hm, hp, hc, Bool.not_true, Bool.or_self, Bool.false_eq_true, if_false]
  · simp only [hi, jointWord, hu, ho, hm, hp, hc, hw, hn, hg, causeTrap_word, Bool.not_true, Bool.or_self, Bool.false_eq_true,
      if_false, if_true]
  · simp only [hi, jointWord, hu, ho, hm, hp, hc, hw, hn, hg, Bool.not_true, Bool.or_self, Bool.false_eq_true, if_false]

section
variable {s : State} {u : Iss} {form : MmaForm} {o : Word} {list : Nat}

theorem mmaCheck_no_plane (hf : form = .k) (hc : s.caps.getLsbD 1 = false) :
    mmaCheck s u form o list false = some (9, 1) := by
  rw [mmaCheck, if_pos ⟨hf, by rw [hc]; rfl⟩]

/-- The checks of a product on a part that has its unit: reserved bits, then the records (R245). -/
theorem mmaCheck_reserved (hk : form = .k → s.caps.getLsbD 1 = true) (hol : form = .kOl → s.caps.getLsbD 0 = true)
    (h : 2 ^ 17 ≤ o.toNat) : mmaCheck s u form o list false = some (3, u.word) := by
  have h17 : o.toNat / 2 ^ 17 ≠ 0 := by omega
  rw [mmaCheck, if_neg (by simpa using hk), if_neg (by simpa using hol), bits_upper o (by decide), if_pos h17]

theorem opA_eq (o : Word) : opA o = o.toNat % 32 := by rw [opA, bits_eq]; simp

theorem opB_eq (o : Word) : opB o = o.toNat / 32 % 32 := bits_eq _ _ _

theorem opTile_eq (o : Word) : opTile o = o.toNat / 2 ^ 10 % 64 := bits_eq _ _ _

section
variable (hk : form = .k → s.caps.getLsbD 1 = true) (hol : form = .kOl → s.caps.getLsbD 0 = true) (ho : o.toNat < 2 ^ 17)
include hk hol ho

theorem mmaCheck_no_record (ha : ownRec s u.c u.f.wg (o.toNat % 32) = none) :
    mmaCheck s u form o list false = some (10, o.toNat + 6 * 2 ^ 32) := by
  have h17 : o.toNat / 2 ^ 17 = 0 := by omega
  rw [mmaCheck, if_neg (by simpa using hk), if_neg (by simpa using hol), bits_upper o (by decide), if_neg (not_not.mpr h17),
    opA_eq, ha]

/-- The checks of a product on its two records, in their order. -/
theorem mmaCheck_records {ra rb : Rsv} (ha : ownRec s u.c u.f.wg (o.toNat % 32) = some ra)
    (hb : ownRec s u.c u.f.wg (o.toNat / 32 % 32) = some rb) :
    mmaCheck s u form o list false =
      if (recView ra.bits).fmt ≠ form.fmt ∨ (recView rb.bits).fmt ≠ form.fmt then some (10, o.toNat + 7 * 2 ^ 32)
      else if form.plane = true ∧ (recView rb.bits).blk ≠ (recView ra.bits).blk then some (10, o.toNat + 8 * 2 ^ 32)
      else if (recView rb.bits).cols ≠ (recView ra.bits).cols then some (10, o.toNat + 9 * 2 ^ 32)
      else if 64 < (recView ra.bits).rows then some (10, o.toNat + 10 * 2 ^ 32)
      else if 32 < (recView rb.bits).rows then some (10, o.toNat + 11 * 2 ^ 32)
      else if tileOther s u.c u.f.wg (o.toNat / 2 ^ 10 % 64) then some (11, o.toNat + 1 * 2 ^ 32)
      else if form = .kOl ∧ (list % 8 ≠ 0 ∨ scratchBytes s u.f.wg < list + 8) then some (5, list)
      else none := by
  have h17 : o.toNat / 2 ^ 17 = 0 := by omega
  rw [mmaCheck, if_neg (by simpa using hk), if_neg (by simpa using hol), bits_upper o (by decide), if_neg (not_not.mpr h17),
    opA_eq, opB_eq, opTile_eq, ha, hb]
  simp only [Bool.false_eq_true, if_false, Option.map_some, Option.isNone_some, Bool.and_false, Option.any_some,
    decide_eq_true_eq, Bool.and_eq_true]

end

end

/-- Settles O17: the words share two forms, and the checks stand in the order of `mmaCheck`. -/
theorem productWords : Obligations.ProductWords := by
  refine ⟨fun f b a => ⟨products_of_mmaWord fun _ => rfl, products_of_mmaWord fun _ => rfl, products_of_mmaWord fun _ => rfl,
    products_of_mmaWord fun _ => rfl, jointProducts_of_jointWord fun _ => rfl, jointProducts_of_jointWord fun _ => rfl,
    jointProducts_of_jointWord fun _ => rfl, jointProducts_of_jointWord fun _ => rfl⟩, fun s u form o list ra rb =>
    ⟨mmaCheck_no_plane, fun hk hol => ⟨mmaCheck_reserved hk hol, fun ho => ⟨mmaCheck_no_record hk hol ho, fun ha hb => ?_⟩⟩⟩⟩
  rw [mmaCheck_records hk hol ho ha hb]
  intro va vb
  refine ⟨fun h => if_pos h, fun hfa hfb => ?_⟩
  rw [if_neg (by simp [va, vb, hfa, hfb])]
  refine ⟨fun hp h => if_pos ⟨hp, Ne.symm h⟩, fun hblk => ?_⟩
  rw [if_neg (by rintro ⟨hp, h⟩; exact h (hblk hp).symm)]
  refine ⟨fun h => if_pos (Ne.symm h), fun h h64 => ?_, fun h h64 h32 => ?_, fun h h64 h32 ht => ?_⟩
  · rw [if_neg (not_not.mpr h.symm), if_pos h64]
  · rw [if_neg (not_not.mpr h.symm), if_neg (Nat.not_lt.mpr h64), if_pos h32]
  · rw [if_neg (not_not.mpr h.symm), if_neg (Nat.not_lt.mpr h64), if_neg (Nat.not_lt.mpr h32), if_pos ht, Nat.one_mul]

/-! ### Gangs and the Grove (R249, R252 to R256) -/

section
variable {s : State} {u : Iss}

theorem exec_gangGet_issuing {d : BitVec 4} {w : Workgroup} (hu : issuing s = some u) (hm : mqRoom s u.c = true)
    (hw : workgroup s u.f.wg = some w) (hh : writeHeld u (regsOf d.toNat 1) = false) :
    exec (.gangGet d) s = .next (issueVals (enqueue s u .short 0 none) u 4 1 d (u.lanes.map (fun i => (i, [w.gang])))) := by
  simp only [exec_gangGet, execGangGet, hu, hm, hw, hh, Bool.not_true, Bool.or_self, Bool.false_eq_true, if_false]

/-- A reserved gang word: bits above 26, a member count of 1 or 7, or ranks beyond the count (R249). -/
theorem gangBad_iff (x : Word) :
    (bits x.toNat 31 27 ≠ 0 ∨ bits x.toNat 26 24 = 1 ∨ bits x.toNat 26 24 = 7 ∨ bits x.toNat 23 0 / 16 ^ bits x.toNat 26 24 ≠ 0) ↔
      2 ^ 27 ≤ x.toNat ∨ x.toNat / 2 ^ 24 % 8 = 1 ∨ x.toNat / 2 ^ 24 % 8 = 7 ∨
        x.toNat % 2 ^ 24 / 16 ^ (x.toNat / 2 ^ 24 % 8) ≠ 0 := by
  have h24 : bits x.toNat 26 24 = x.toNat / 2 ^ 24 % 8 := bits_eq _ _ _
  have h0 : bits x.toNat 23 0 = x.toNat % 2 ^ 24 := by rw [bits_eq, pow_zero, Nat.div_one]
  have h27 : bits x.toNat 31 27 ≠ 0 ↔ 2 ^ 27 ≤ x.toNat := by
    rw [bits_upper x (by decide)]
    omega
  rw [h27, h24, h0]

theorem exec_gangSet_bad {a : Src} {x : Word} (hu : issuing s = some u) (hm : mqRoom s u.c = true)
    (hx : read32 u a (lowest u.cl.lanes) = some x) (hj : jointOut s u.c u.f.wg = false)
    (hbad : 2 ^ 27 ≤ x.toNat ∨ x.toNat / 2 ^ 24 % 8 = 1 ∨ x.toNat / 2 ^ 24 % 8 = 7 ∨
      x.toNat % 2 ^ 24 / 16 ^ (x.toNat / 2 ^ 24 % 8) ≠ 0) : exec (.gangSet a) s = .next (trap s u 3 u.word) := by
  rw [exec_gangSet, execGangSet, mqWord_issuing hu hm hx]
  simp only [hj, Bool.false_eq_true, if_false, if_pos ((gangBad_iff x).mpr hbad), operandTrap]

theorem exec_gangSet_good {a : Src} {x : Word} (hu : issuing s = some u) (hm : mqRoom s u.c = true)
    (hx : read32 u a (lowest u.cl.lanes) = some x) (hj : jointOut s u.c u.f.wg = false)
    (hok : ¬(2 ^ 27 ≤ x.toNat ∨ x.toNat / 2 ^ 24 % 8 = 1 ∨ x.toNat / 2 ^ 24 % 8 = 7 ∨
      x.toNat % 2 ^ 24 / 16 ^ (x.toNat / 2 ^ 24 % 8) ≠ 0)) :
    (∀ k, gangCause s u.f.wg x = some k → exec (.gangSet a) s = .next (trap s u 12 (x.toNat + k * 2 ^ 32))) ∧
    (gangCause s u.f.wg x = none → exec (.gangSet a) s = .next (advance (enqueue
      (modWG s u.f.wg (fun w => { w with gang := x, joint := 0 })) u .short 0 none) u)) := by
  rw [exec_gangSet, execGangSet, mqWord_issuing hu hm hx]
  simp only [hj, Bool.false_eq_true, if_false, if_neg (fun h => hok ((gangBad_iff x).mp h))]
  exact ⟨fun k hk => by simp only [hk, causeTrap_word], fun hk => by rw [hk]⟩

theorem exec_groveVt_issuing {f : Side} {b : BitVec 5} {a : Src} {p : DWord} {y : Word} (hu : issuing s = some u)
    (hm : mqRoom s u.c = true) (hp : read64 u a (lowest u.cl.lanes) = some p)
    (hy : readSC u b (lowest u.cl.lanes) = some y) :
    (∀ k e, groveVtCheck s u p y = some (k, e) → exec (.groveVt f b a) s = .next (trap s u k e)) ∧
    (groveVtCheck s u p y = none → exec (.groveVt f b a) s =
      .next (advance (enqueue (claimTable s u.c u.f.wg (y.toNat % 8)) u (.groveVt y p) 0 (u.flag f)) u)) := by
  have ht : bits y.toNat 2 0 = y.toNat % 8 := by rw [bits_eq]; simp
  rw [exec_groveVt, execGroveVt, mqWord64_issuing hu hm hp hy, ht]
  exact ⟨fun k e h => by rw [h], fun h => by rw [h]⟩

theorem exec_groveSwap_issuing {f : Side} {a : Src} {y : Word} (hu : issuing s = some u) (hm : mqRoom s u.c = true)
    (hy : read32 u a (lowest u.cl.lanes) = some y) :
    exec (.groveSwap f a) s = .next (if y.toNat / 8 ≠ 0 then trap s u 3 u.word
      else if groveOther s u.c u.f.wg y.toNat then trap s u 13 (y.toNat + 2 * 2 ^ 32)
      else advance (enqueue (claimTable s u.c u.f.wg y.toNat) u (.groveSwap y.toNat) 0 (u.flag f)) u) := by
  rw [exec_groveSwap, execGroveSwap, mqWord_issuing hu hm hy, causeTrap_word, operandTrap]

theorem exec_groveRd_issuing {d : BitVec 4} {f : Side} {a : Src} {sel : Table Word} (hu : issuing s = some u)
    (hm : mqRoom s u.c = true) (he : eachLane u (read32 u a) = some sel) (hh : writeHeld u (regsOf d.toNat 1) = false)
    (hok : ∀ e ∈ sel, e.2.toNat < 2 ^ 12 ∧ groveOther s u.c u.f.wg (e.2.toNat % 8) = false) :
    exec (.groveRd d f a) s = .next (laneEngineWord s u (.groveRd sel) d (u.flag f)) := by
  have h12 : sel.any (fun e => decide (bits e.2.toNat 31 12 ≠ 0)) = false := by
    rw [List.any_eq_false]
    intro e he
    have := (hok e he).1
    rw [bits_upper e.2 (by decide)]
    simp only [decide_eq_true_eq, not_not]
    omega
  have hown : sel.find? (fun e => groveOther s u.c u.f.wg (bits e.2.toNat 2 0)) = none := by
    rw [List.find?_eq_none]
    intro e he
    rw [bits_eq]
    simpa using (hok e he).2
  simp only [exec_groveRd, execGroveRd, hu, he, hh, hm, h12, hown, Bool.not_true, Bool.or_self, Bool.false_eq_true, if_false]

/-- The row addresses of GROVE.ROW (R256). -/
theorem effective_row (x : BitVec 9) (v : Word) : effective v (off9 x * 4) = ((uint v + 4 * x.toInt) % 2 ^ 32).toNat := by
  rw [effective, off9, uint, mul_comm]
  rfl

theorem exec_groveRow_issuing {d : BitVec 4} {f : Side} {a : Src} {x : BitVec 9} {sel : Table Word} {rows : Table Nat}
    (hu : issuing s = some u) (hm : mqRoom s u.c = true) (he : eachLane u (read32 u a) = some sel)
    (hh : writeHeld u (regsOf d.toNat 1) = false)
    (hr : rows = sel.map (fun e => (e.1, ((uint e.2 + 4 * x.toInt) % 2 ^ 32).toNat))) :
    (∀ e, rows.find? (fun e => decide (e.2 % 4 ≠ 0)) = some e → exec (.groveRow d f a x) s = .next (trap s u 4 e.2)) ∧
    ((∀ e ∈ rows, e.2 % 4 = 0) → exec (.groveRow d f a x) s = .next (laneEngineWord s u (.groveRow
      (rows.map (fun e => (e.1, regionOf s u.f.wg * 2 ^ 32 + e.2))) (activeBanks s u.c) sel) d (u.flag f))) := by
  have hva : rows.map (fun e => (e.1, regionVa (regionOf s u.f.wg) e.2))
      = rows.map (fun e => (e.1, regionOf s u.f.wg * 2 ^ 32 + e.2)) := by
    refine List.map_congr_left fun e he' => ?_
    rw [hr] at he'
    obtain ⟨v, -, rfl⟩ := List.mem_map.mp he'
    have : ((uint v.2 + 4 * x.toInt) % 2 ^ 32).toNat < 2 ^ 32 := by omega
    rw [regionVa, Nat.mod_eq_of_lt this]
  simp only [exec_groveRow, execGroveRow, hu, he, hh, hm, Bool.not_true, Bool.or_self, Bool.false_eq_true, if_false,
    effective_row, ← hr, hva]
  refine ⟨fun e h => by rw [h], fun h => ?_⟩
  have hf : rows.find? (fun e => decide (e.2 % 4 ≠ 0)) = none := by
    rw [List.find?_eq_none]
    intro e he
    simp [h e he]
  rw [hf]

end

/-- Settles O18: the branches of the gang and Grove words. -/
theorem gangAndGroveWords : Obligations.GangAndGroveWords := by
  refine ⟨fun d a s u x w hu hm hw => ⟨exec_gangGet_issuing hu hm hw, fun hx hj =>
    ⟨exec_gangSet_bad hu hm hx hj, fun h27 h1 h7 hr => exec_gangSet_good hu hm hx hj ?_⟩⟩,
    fun d f b a x s u hu hm => ⟨fun p y hp hy => exec_groveVt_issuing hu hm hp hy,
      fun y hy => ⟨fun h => ?_, fun h ho => ?_, fun h ho => ?_⟩,
      fun sel he hh => ⟨exec_groveRd_issuing hu hm he hh, exec_groveRow_issuing hu hm he hh rfl⟩⟩⟩
  · rintro (h | h | h | h)
    · exact absurd h27 (Nat.not_lt.mpr h)
    · exact h1 h
    · exact h7 h
    · exact h hr
  · rw [exec_groveSwap_issuing hu hm hy, if_pos (by omega)]
  · rw [exec_groveSwap_issuing hu hm hy, if_neg (by omega), if_pos ho]
  · rw [exec_groveSwap_issuing hu hm hy, if_neg (by omega), if_neg (by simp [ho])]

end Sys2Proof.Proofs
end

section
/-!
PROOFS. Bundles as they form and are accepted, clusters as they are placed, and the life of a workgroup.
-/
namespace Sys2Proof.Proofs
open Sys2Proof Sys2Proof.Machine Sys2Proof.Spec

/-! ## The first element with the least key -/

section
variable {α β : Type} [LinearOrder β]

/-- The first of the elements of a list with the least key, after `a`. -/
def firstMin (key : α → β) (a : Option α) (l : List α) : Option α :=
  l.foldl (fun a e => match a with | none => some e | some x => if key e < key x then some e else some x) a

theorem firstMin_some (key : α → β) (x e : α) (l : List α) :
    firstMin key (some x) (e :: l) = firstMin key (some (if key e < key x then e else x)) l := by
  simp only [firstMin, List.foldl_cons]
  split <;> rfl

/-- The first least element is the one before the list, or one of the list with the keys before it greater. -/
theorem firstMin_spec (key : α → β) (l : List α) (x y : α) (h : firstMin key (some x) l = some y) :
    (y = x ∧ ∀ z ∈ l, key x ≤ key z) ∨
      ∃ l1 l2, l = l1 ++ y :: l2 ∧ key y < key x ∧ (∀ z ∈ l1, key y < key z) ∧ ∀ z ∈ l2, key y ≤ key z := by
  induction l generalizing x with
  | nil =>
    obtain rfl : x = y := Option.some.inj h
    exact .inl ⟨rfl, fun z hz => absurd hz List.not_mem_nil⟩
  | cons e l ih =>
    rw [firstMin_some] at h
    rcases ih _ h with ⟨rfl, hl⟩ | ⟨l1, l2, rfl, hy, h1, h2⟩
    · by_cases he : key e < key x
      · rw [if_pos he] at hl ⊢
        exact .inr ⟨[], l, rfl, he, fun z hz => absurd hz List.not_mem_nil, hl⟩
      · rw [if_neg he] at hl ⊢
        exact .inl ⟨rfl, List.forall_mem_cons.mpr ⟨not_lt.mp he, hl⟩⟩
    · have hx : key y < key x ∧ key y < key e := by
        by_cases he : key e < key x
        · rw [if_pos he] at hy
          exact ⟨hy.trans he, hy⟩
        · rw [if_neg he] at hy
          exact ⟨hy, hy.trans_le (not_lt.mp he)⟩
      exact .inr ⟨e :: l1, l2, rfl, hx.1, List.forall_mem_cons.mpr ⟨hx.2, h1⟩, h2⟩

theorem firstMin_none {key : α → β} {l : List α} {y : α} (h : firstMin key none l = some y) :
    ∃ l1 l2, l = l1 ++ y :: l2 ∧ (∀ z ∈ l1, key y < key z) ∧ ∀ z ∈ l2, key y ≤ key z := by
  cases l with
  | nil => cases h
  | cons e l =>
    rcases firstMin_spec key l e y h with ⟨rfl, hl⟩ | ⟨l1, l2, rfl, hy, h1, h2⟩
    · exact ⟨[], l, rfl, fun z hz => absurd hz List.not_mem_nil, hl⟩
    · exact ⟨e :: l1, l2, rfl, List.forall_mem_cons.mpr ⟨hy, h1⟩, h2⟩

theorem firstMin_mem {key : α → β} {l : List α} {y : α} (h : firstMin key none l = some y) : y ∈ l := by
  obtain ⟨l1, l2, rfl, -, -⟩ := firstMin_none h
  exact List.mem_append_right l1 List.mem_cons_self

theorem firstMin_le {key : α → β} {l : List α} {y z : α} (h : firstMin key none l = some y) (hz : z ∈ l) : key y ≤ key z := by
  obtain ⟨l1, l2, rfl, h1, h2⟩ := firstMin_none h
  rcases List.mem_append.mp hz with hz | hz
  · exact (h1 z hz).le
  · rcases List.mem_cons.mp hz with rfl | hz
    · exact le_rfl
    · exact h2 z hz

theorem firstMin_isSome (key : α → β) (l : List α) (x : α) : (firstMin key (some x) l).isSome = true := by
  induction l generalizing x with
  | nil => rfl
  | cons e l ih => rw [firstMin_some]; exact ih _

theorem exists_firstMin {key : α → β} {l : List α} {z : α} (hz : z ∈ l) : ∃ y, firstMin key none l = some y := by
  cases l with
  | nil => cases hz
  | cons e l => exact Option.isSome_iff_exists.mp (firstMin_isSome key l e)

end

/-! ## Which bundle forms (O38) -/

theorem lowestPc_eq (t : Table Thread) : lowestPc t = (firstMin (fun e => pcKey e.2.pc) none t).map (fun e => e.2.pc) := by
  have step (t : Table Thread) : ∀ a : Option (Nat × Thread), t.foldl (fun a e => match a with
      | none => some e.2.pc
      | some p => if pcKey e.2.pc < pcKey p then some e.2.pc else some p) (a.map (fun e => e.2.pc)) =
        (firstMin (fun e => pcKey e.2.pc) a t).map (fun e => e.2.pc) := by
    induction t with
    | nil => exact fun _ => rfl
    | cons e t ih =>
      intro a
      rw [firstMin, List.foldl_cons, List.foldl_cons, ← firstMin, ← ih]
      cases a with
      | none => rfl
      | some x => simp only [Option.map_some]; split <;> rfl
  exact step t none

theorem oldestPc_eq (n : Word) (t : Table Thread) : oldestPc n t =
    (firstMin (fun e => OrderDual.toDual (n - e.2.stamp).toNat) none t).map (fun e => e.2.pc) := by
  have step (t : Table Thread) : ∀ a : Option (Nat × Thread), t.foldl (fun a e => match a with
      | none => some e.2
      | some x => if (n - x.stamp).toNat < (n - e.2.stamp).toNat then some e.2 else some x) (a.map (fun e => e.2)) =
        (firstMin (fun e => OrderDual.toDual (n - e.2.stamp).toNat) a t).map (fun e => e.2) := by
    induction t with
    | nil => exact fun _ => rfl
    | cons e t ih =>
      intro a
      rw [firstMin, List.foldl_cons, List.foldl_cons, ← firstMin, ← ih]
      cases a with
      | none => rfl
      | some x => simp only [Option.map_some, OrderDual.toDual_lt_toDual]; split <;> rfl
  have h := congrArg (Option.map (fun x : Thread => x.pc)) (step t none)
  rw [Option.map_map] at h
  exact h

theorem mem_readyThreads {f : LaneFrame} {i : Nat} {th : Thread} : (i, th) ∈ readyThreads f ↔
    (i, th) ∈ f.threads ∧ th.live = true ∧ th.parked = false ∧ th.regroup = false := by
  simp [readyThreads, Thread.eligible, and_assoc]

/-- The program counter of the bundle that forms is that of a ready thread, the lowest or of the greatest age (R14, R15). -/
theorem formBundle_pc {f : LaneFrame} {b : Form} (h : formBundle f = some b) : ∃ e ∈ readyThreads f, e.2.pc = b.pc ∧
    (f.aging < 64 → ∀ e' ∈ readyThreads f, pcKey b.pc ≤ pcKey e'.2.pc) ∧
    (64 ≤ f.aging → ∀ e' ∈ readyThreads f, (f.count - e'.2.stamp).toNat ≤ (f.count - e.2.stamp).toNat) := by
  simp only [formBundle] at h
  obtain ⟨pc, hpc, rfl⟩ := Option.map_eq_some_iff.mp h
  by_cases ha : 64 ≤ f.aging
  · rw [if_pos (decide_eq_true ha), oldestPc_eq] at hpc
    obtain ⟨e, he, rfl⟩ := Option.map_eq_some_iff.mp hpc
    exact ⟨e, firstMin_mem he, rfl, fun hl => absurd ha (Nat.not_le.mpr hl),
      fun _ e' he' => by have := firstMin_le he he'; exact this⟩
  · rw [if_neg (by simpa using ha), lowestPc_eq] at hpc
    obtain ⟨e, he, rfl⟩ := Option.map_eq_some_iff.mp hpc
    exact ⟨e, firstMin_mem he, rfl, fun _ e' he' => by have := firstMin_le he he'; exact this, fun hl => absurd hl ha⟩

theorem formBundle_fields {f : LaneFrame} {b : Form} (h : formBundle f = some b) :
    b.lanes = maskOf (((readyThreads f).filter (fun e => decide (pcKey e.2.pc = pcKey b.pc))).map (fun e => e.1)) ∧
    b.aging = decide (64 ≤ f.aging) ∧
    b.left = decide (((readyThreads f).filter (fun e => decide (pcKey e.2.pc = pcKey b.pc))).length < (readyThreads f).length) := by
  simp only [formBundle] at h
  obtain ⟨pc, -, rfl⟩ := Option.map_eq_some_iff.mp h
  exact ⟨rfl, rfl, rfl⟩

section
variable {f : LaneFrame} {b : Form} (hlt : ∀ e ∈ f.threads, e.1 < 32) (h : formBundle f = some b)
include hlt h

theorem formBundle_lane (i : Nat) : b.lanes.getLsbD i = true ↔ ∃ th, (i, th) ∈ readyThreads f ∧ pcKey th.pc = pcKey b.pc := by
  obtain ⟨hl, -, -⟩ := formBundle_fields h
  rw [hl]
  by_cases hi : i < 32
  · rw [getLsbD_maskOf _ hi]
    simp
  · rw [BitVec.getLsbD_of_ge _ _ (Nat.not_lt.mp hi)]
    simp only [Bool.false_eq_true, false_iff]
    rintro ⟨th, hth, -⟩
    exact hi (hlt _ (mem_readyThreads.mp hth).1)

theorem formBundle_left (hnd : (f.threads.map (fun e => e.1)).Nodup) :
    b.left = true ↔ ∃ i th, (i, th) ∈ readyThreads f ∧ b.lanes.getLsbD i = false := by
  obtain ⟨-, -, hl⟩ := formBundle_fields h
  rw [hl, decide_eq_true_eq]
  constructor
  · intro hlen
    by_contra hall
    push Not at hall
    refine absurd hlen (Nat.not_lt.mpr (le_of_eq (congrArg List.length (List.filter_eq_self.mpr fun e he => ?_)).symm))
    have hb : b.lanes.getLsbD e.1 = true := by simpa using hall e.1 e.2 he
    obtain ⟨th, hth, hk⟩ := (formBundle_lane hlt h e.1).mp hb
    have : (e.1, e.2) = (e.1, th) := (List.inj_on_of_nodup_map hnd (mem_readyThreads.mp he).1 (mem_readyThreads.mp hth).1 rfl)
    rw [(Prod.mk.inj this).2]
    exact decide_eq_true hk
  · rintro ⟨i, th, hth, hb⟩
    refine lt_of_le_of_ne (List.length_filter_le _ _) fun heq => ?_
    have hk : pcKey th.pc = pcKey b.pc := by simpa using List.length_filter_eq_length_iff.mp heq (i, th) hth
    rw [(formBundle_lane hlt h i).mpr ⟨th, hth, hk⟩] at hb
    cases hb

end

/-- The bundle that a lane frame forms (R14, R15, R265). -/
theorem formBundle_spec {f : LaneFrame} {b : Form} (hnd : (f.threads.map (fun e => e.1)).Nodup)
    (hlt : ∀ e ∈ f.threads, e.1 < 32) (h : formBundle f = some b) :
    (∃ i th, (i, th) ∈ readyThreads f ∧ th.pc = b.pc ∧
      (f.aging < 64 → ∀ j tj, (j, tj) ∈ readyThreads f → pcKey b.pc ≤ pcKey tj.pc) ∧
      (64 ≤ f.aging → ∀ j tj, (j, tj) ∈ readyThreads f → (f.count - tj.stamp).toNat ≤ (f.count - th.stamp).toNat)) ∧
    (∀ i, b.lanes.getLsbD i = true ↔ ∃ th, (i, th) ∈ readyThreads f ∧ pcKey th.pc = pcKey b.pc) ∧
    (b.aging = true ↔ 64 ≤ f.aging) ∧
    (b.left = true ↔ ∃ i th, (i, th) ∈ readyThreads f ∧ b.lanes.getLsbD i = false) := by
  obtain ⟨⟨i, th⟩, he, hpc, hlow, hold⟩ := formBundle_pc h
  obtain ⟨-, ha, -⟩ := formBundle_fields h
  exact ⟨⟨i, th, he, hpc, fun hl j tj hj => hlow hl (j, tj) hj, fun hl j tj hj => hold hl (j, tj) hj⟩,
    formBundle_lane hlt h, by rw [ha, decide_eq_true_eq], formBundle_left hlt h hnd⟩

/-! ## What a fetch leaves of the lane frames -/

/-- No lane frame of a core has changed. -/
structure SameFrames (s t : State) : Prop where
  lfs (c : Nat) : (Machine.core t c).c.lfs = (Machine.core s c).c.lfs

namespace SameFrames
variable {s t u : State}

theorem refl (s : State) : SameFrames s s := ⟨fun _ => rfl⟩

theorem trans (h : SameFrames s t) (k : SameFrames t u) : SameFrames s u := ⟨fun c => (k.lfs c).trans (h.lfs c)⟩

theorem of_cores (h : t.cores = s.cores) : SameFrames s t := ⟨fun c => by rw [core_congr h]⟩

theorem laneFrame (h : SameFrames s t) (c l : Nat) : laneFrame t c l = Machine.laneFrame s c l := by
  rw [Machine.laneFrame, h.lfs c]; rfl

theorem modCore {c : Nat} {g : Core → Core} (h : ∀ k, (g k).c.lfs = k.c.lfs) : SameFrames s (modCore s c g) := by
  refine ⟨fun d => ?_⟩
  by_cases hd : d = c
  · subst hd; rw [core_modCore_self, h]
  · rw [core_modCore_ne s g hd]

theorem foldl {α : Type} {g : State → α → State} (h : ∀ s a, SameFrames s (g s a)) (l : List α) (s : State) :
    SameFrames s (l.foldl g s) :=
  List.foldlRecOn l g (motive := fun t => SameFrames s t) (refl s) (fun t ht a _ => ht.trans (h t a))

/-- Every core changed outside its lane frames. -/
theorem mapCores {g : Core → Core} (hg : ∀ k, (g k).c.lfs = k.c.lfs) (h : t.cores = s.cores.map (fun x => (x.1, g x.2))) :
    SameFrames s t := by
  refine ⟨fun c => ?_⟩
  simp only [Machine.core, look, h, lookup_mapVals s.cores (fun _ => g) c]
  cases lookup s.cores c with
  | none => rfl
  | some k => exact hg k

theorem breakReserve (s : State) (n len : Nat) : SameFrames s (breakReserve s n len) := by
  refine ⟨fun c => ?_⟩
  obtain ⟨r, h⟩ := breakReserve_core s n len c
  rw [h]

theorem hwWrite (s : State) (key a : Nat) (l : List Byte) : SameFrames s (hwWrite s key a l) := by
  simp only [Machine.hwWrite]
  split
  · exact of_cores (laneBlocks_cores ..)
  · exact .trans (of_cores ((setDirty_cores _ _).trans (storeUnder_cores ..))) (breakReserve ..)

theorem modEntry (s : State) (ctx vpn : Nat) (f : DWord → DWord) : SameFrames s (modEntry s ctx vpn f) := by
  unfold Machine.modEntry writeEntry
  split
  · split
    · exact refl s
    · exact hwWrite ..
  · exact refl s

theorem setEntryB (s : State) (ctx vpn : Nat) (b : Bool) : SameFrames s (setEntryB s ctx vpn b) := modEntry ..

theorem forget (s : State) (c ctx vpn : Nat) : SameFrames s (forget s c ctx vpn) := modCore fun _ => rfl

theorem install (s : State) (c ctx vpn : Nat) (e : DWord) : SameFrames s (install s c ctx vpn e) :=
  (forget s c ctx vpn).trans (modCore fun _ => rfl)

theorem mendBucket (s : State) (die ctx vpn : Nat) : SameFrames s (mendBucket s die ctx vpn) := by
  simp only [Machine.mendBucket]
  split <;> exact of_cores rfl

theorem yieldDemotion (s : State) (ctx vpn : Nat) : SameFrames s (yieldDemotion s ctx vpn) := by
  unfold Machine.yieldDemotion
  extract_lets down
  split
  · split
    · extract_lets m s2
      have free (t : State) (k : Nat) : SameFrames t (modFrame t k (fun f => { f with busy := false })) := of_cores rfl
      have h2 : SameFrames _ s2 := foldl free _ _
      refine .trans ?_ (setEntryB ..)
      exact .trans (.trans (mapCores (g := fun k => modC k (fun y => { y with
        pageReqs := y.pageReqs.map (fun q => if down q then { q with step := 0 } else q) })) (fun _ => rfl) rfl) h2) (of_cores rfl)
    · exact refl s
  · exact refl s

theorem fetchTrans (s : State) (c ctx vpn : Nat) : SameFrames s (fetchTrans s c ctx vpn).2 := by
  simp only [Machine.fetchTrans]
  split
  · exact refl s
  · refine (mendBucket s (dieOf c) ctx vpn).trans ?_
    split
    · exact (install ..).trans (of_cores rfl)
    · refine .trans (foldl (g := fun t p => moveUnits t p 1) (fun _ _ => of_cores rfl)
        (walkPages (Machine.mendBucket s (dieOf c) ctx vpn) ctx vpn) _) ?_
      split
      · dsimp only
        split
        · exact yieldDemotion ..
        · exact install ..
      · exact refl _
      · exact refl _

theorem writeSlot (s : State) (die ctx vpn : Nat) (e : DWord) : SameFrames s (writeSlot s die ctx vpn e) := by
  unfold Machine.writeSlot
  split <;> exact of_cores rfl

theorem resolve (s : State) (c ctx vpn : Nat) (e : DWord) : SameFrames s (resolve s c ctx vpn e).2 := by
  simp only [Machine.resolve, installRedirect]
  split
  · split
    · exact (writeSlot ..).trans ((install ..).trans (of_cores rfl))
    · exact refl s
  · exact refl s

theorem askPlace (s : State) (c ctx vpn : Nat) (e : DWord) (who : Filler) (thr : BitVec 16) (pc : DWord) :
    SameFrames s (askPlace s c ctx vpn e who thr pc) := by
  unfold Machine.askPlace
  split <;> exact of_cores rfl

theorem fetchAt (s : State) (c ctx va : Nat) (e : DWord) (who : Filler) (thr : BitVec 16) (pc : DWord) :
    SameFrames s (fetchAt s c ctx va e who thr pc).2 := by
  have asked (p : State) (b : Bool) : SameFrames p (if b then Machine.askPlace p c ctx (va / 4096 % 2 ^ 36) e who thr pc else p) := by
    split
    · exact askPlace ..
    · exact refl p
  unfold Machine.fetchAt
  dsimp only
  split
  · split
    · exact forget ..
    · split
      · exact refl s
      · split
        · exact refl s
        · have h := (of_cores rfl : SameFrames s (refFrame s (entFrame e))).trans (asked _ (promotes c e))
          split
          · exact h
          · exact h
  · generalize (if entW e then homeByte s (entPage e) (va % 4096) else entPage e * 4096 + va % 4096) = n
    split
    · exact refl s
    · split
      · exact refl s
      · split
        · exact refl s
        · have h := (of_cores rfl : SameFrames s (moveUnits s (entPage e) 1)).trans
            (askPlace _ c ctx (va / 4096 % 2 ^ 36) e who thr pc)
          split
          · exact h
          · exact h

theorem fetchWord (s : State) (c wg va : Nat) (thr : BitVec 16) (pc : DWord) : SameFrames s (fetchWord s c wg va thr pc).2 := by
  have ht := fetchTrans s c (ctxId s) (va / 4096 % 2 ^ 36)
  unfold Machine.fetchWord
  dsimp only
  split
  · exact refl s
  · generalize Machine.fetchTrans s c (ctxId s) (va / 4096 % 2 ^ 36) = x at ht ⊢
    obtain ⟨k | e0, s0⟩ := x
    · exact ht
    · have hr := ht.trans (resolve s0 c (ctxId s) (va / 4096 % 2 ^ 36) e0)
      dsimp only
      generalize Machine.resolve s0 c (ctxId s) (va / 4096 % 2 ^ 36) e0 = y at hr ⊢
      obtain ⟨e, s1⟩ := y
      dsimp only at hr ⊢
      split
      · exact hr
      · split
        · exact hr
        · exact hr.trans (fetchAt ..)

theorem fetchClause (c wg hdr : Nat) (thr : BitVec 16) (n : Nat) :
    ∀ (s : State) (i : Nat), SameFrames s (fetchClause s c wg hdr thr i n).2 := by
  induction n with
  | zero => exact fun s _ => refl s
  | succ n ih => exact fun s i => (fetchWord ..).trans (ih _ _)

theorem modRcd (s : State) (c : Nat) (f : Recorder → Recorder) : SameFrames s (modRcd s c f) := modCore fun _ => rfl

theorem recordIssue (s : State) (c slot : Nat) (o : Offer) (l : Nat) : SameFrames s (recordIssue s c slot o l) := by
  have noted (b : Bool) (f : Recorder → Recorder) : SameFrames s (if b then s else Machine.modRcd s c f) := by
    split
    · exact refl s
    · exact modRcd ..
  unfold Machine.recordIssue
  extract_lets h thr earlier s1 r
  have h1 : SameFrames s s1 := noted _ _
  split
  · exact h1.trans (modRcd ..)
  · exact h1.trans ((modRcd ..).trans (modRcd ..))

end SameFrames

/-! ## Bundle turns and acceptance -/

theorem exec_bundleTurn_of_frame {s : State} {c l : Nat} {f : LaneFrame} (h : laneFrame s c l = some f) :
    exec (.bundleTurn c l) s = .next (if hasTurn s c l f then applyTurn s c l f else s) := by
  simp only [exec_bundleTurn, execBundleTurn, h]

section
variable {s : State} {c l : Nat} {f : LaneFrame} {b : Form}

/-- The turn of a lane frame that forms a bundle whose header is read. -/
theorem applyTurn_word {w : Word} {s1 : State} (hy : f.yielding = false) (hb : formBundle f = some b)
    (hh : fetchHeld (setLF s c l { f with offer := none, yielding := false }) c l b.lanes (headerOf b.pc) = false)
    (hw : fetchWord (setLF s c l { f with offer := none, yielding := false }) c f.wg (headerOf b.pc)
      (thrField l (lowest b.lanes)) (pcImage 0 (headerOf b.pc)) = (.word w, s1)) :
    applyTurn s c l f =
      if (Header.ofWord w).legal then
        if lateArrivals f b w ≠ 0 then
          regroupTest (modLF s1 c l (fun x => modThreads x (lateArrivals f b w) (fun _ t => { t with regroup := true }))) f.wg
        else modLF s1 c l (fun x => { x with offer := some ⟨b.pc, b.lanes, w, s.cycle, b.aging, b.left⟩ })
      else formTrap s1 c l b.lanes 1 w.toNat (pcImage 0 (headerOf b.pc)) := by
  have hb' : formBundle { f with offer := none, yielding := false } = some b := hb
  simp only [applyTurn, hy, hb', hh, hw, Bool.false_eq_true, if_false]
  rfl

theorem applyTurn_held (hy : f.yielding = false) (hb : formBundle f = some b)
    (hh : fetchHeld (setLF s c l { f with offer := none, yielding := false }) c l b.lanes (headerOf b.pc) = true) :
    applyTurn s c l f = setLF s c l { f with offer := none, yielding := false } := by
  have hb' : formBundle { f with offer := none, yielding := false } = some b := hb
  simp only [applyTurn, hy, hb', hh, Bool.false_eq_true, if_false, if_true]

theorem applyTurn_yielding (hy : f.yielding = true) :
    applyTurn s c l f = setLF s c l { f with offer := none, yielding := false } := by
  simp only [applyTurn, hy, if_true]

end

theorem leastRecent_eq (t : List (Nat × LaneFrame)) : leastRecent t = firstMin (fun e => e.2.lastAccept) none t := by
  unfold leastRecent firstMin
  congr 1 <;> funext a e <;> cases a <;> rfl

theorem startable_sorted (s : State) (c slot : Nat) : (startable s c slot).Pairwise (fun x y => x.1 < y.1) := by
  refine List.pairwise_lt_range.filterMap _ fun i j hij x hx y hy => ?_
  have num {i : Nat} {x : Nat × LaneFrame} (hx : (laneFrame s c (16 * slot + i)).bind (fun f =>
      if f.clause.isNone && canStart f && stepAllows s c (16 * slot + i) then some (16 * slot + i, f) else none) = some x) :
      x.1 = 16 * slot + i := by
    obtain ⟨f, -, hf⟩ := Option.bind_eq_some_iff.mp hx
    split at hf
    · rw [← Option.some.inj hf]
    · cases hf
  rw [num hx, num hy]
  omega

theorem startable_frame {s : State} {c slot l : Nat} {f : LaneFrame} (h : (l, f) ∈ startable s c slot) :
    laneFrame s c l = some f := by
  obtain ⟨i, -, hi⟩ := List.mem_filterMap.mp h
  obtain ⟨g, hg, hf⟩ := Option.bind_eq_some_iff.mp hi
  split at hf
  · obtain ⟨rfl, rfl⟩ := Prod.mk.inj (Option.some.inj hf)
    exact hg
  · cases hf

/-- The least recently accepted startable lane frame, the lower number first among equals (R306), is the one accepted. -/
theorem leastRecent_startable {s : State} {c slot l : Nat} {f : LaneFrame} (h : (l, f) ∈ startable s c slot)
    (hl : ∀ e ∈ startable s c slot, f.lastAccept < e.2.lastAccept ∨ (f.lastAccept = e.2.lastAccept ∧ l ≤ e.1)) :
    leastRecent (startable s c slot) = some (l, f) := by
  rw [leastRecent_eq]
  obtain ⟨y, hy⟩ := exists_firstMin (key := fun e : Nat × LaneFrame => e.2.lastAccept) h
  have hle := firstMin_le hy h
  have hmin := hl y (firstMin_mem hy)
  obtain ⟨l1, l2, heq, h1, h2⟩ := firstMin_none hy
  rw [hy]
  have hsort := startable_sorted s c slot
  rw [heq] at h hsort
  rcases List.mem_append.mp h with hm | hm
  · exact absurd (h1 _ hm) (by simp only [not_lt] at *; omega)
  · rcases List.mem_cons.mp hm with hm | hm
    · rw [hm]
    · have := (List.pairwise_cons.mp (List.pairwise_append.mp hsort).2.1).1 _ hm
      simp only at *
      omega

/-- A lane frame whose bundle an issue slot accepts (R306, R15). -/
def accepted (f : LaneFrame) (o : Offer) (cycle : Nat) (ws : List Fetched) : LaneFrame :=
  { modThreads f o.lanes (fun _ t => { t with
      through := false, stamp := f.count + 1, pc := pcImage (firstWord o) (wordAddr (headerOf o.pc) (firstWord o)) }) with
    count := f.count + 1
    aging := if o.aging then 0 else if o.left then f.aging + 1 else 0
    clause := some ⟨headerOf o.pc, o.hdr, firstWord o, o.lanes, List.replicate (firstWord o - 1) (.word 0) ++ ws, cycle, cycle, o.aging⟩
    offer := none
    lastAccept := cycle + 1 }

theorem thread_accepted {f : LaneFrame} {o : Offer} {cycle i : Nat} {ws : List Fetched} {th : Thread}
    (h : lookup f.threads i = some th) (hi : o.lanes.getLsbD i = true) : thread (accepted f o cycle ws) i = { th with
      through := false, stamp := f.count + 1, pc := pcImage (firstWord o) (wordAddr (headerOf o.pc) (firstWord o)) } :=
  (thread_modThreads (m := o.lanes) (g := fun _ t => { t with
    through := false, stamp := f.count + 1, pc := pcImage (firstWord o) (wordAddr (headerOf o.pc) (firstWord o)) }) h).trans (if_pos hi)

/-- An acceptance whose words are all fetched leaves the lane frame as `accepted` says, but for its undo log. -/
theorem laneFrame_applyAccept {s : State} {c slot l : Nat} {f : LaneFrame} {o : Offer} (hf : laneFrame s c l = some f)
    (hw : .wait ∉ (fetchClause s c f.wg (headerOf o.pc) (thrField l (lowest o.lanes)) (firstWord o) (wordsLeft o)).1) :
    ∃ n b, laneFrame (applyAccept s c slot l f o) c l = some (accepted { f with undo := n, undoBase := b } o s.cycle
      (fetchClause s c f.wg (headerOf o.pc) (thrField l (lowest o.lanes)) (firstWord o) (wordsLeft o)).1) := by
  have hs := SameFrames.fetchClause c f.wg (headerOf o.pc) (thrField l (lowest o.lanes)) (wordsLeft o) s (firstWord o)
  have hc : ((fetchClause s c f.wg (headerOf o.pc) (thrField l (lowest o.lanes)) (firstWord o) (wordsLeft o)).1).contains .wait = false := by
    simpa using hw
  unfold applyAccept
  dsimp only
  generalize fetchClause s c f.wg (headerOf o.pc) (thrField l (lowest o.lanes)) (firstWord o) (wordsLeft o) = x at hs hc ⊢
  obtain ⟨ws, s1⟩ := x
  dsimp only at hs hc ⊢
  rw [hc]
  obtain ⟨n, b, hu⟩ := (Logged.undoLog s1 c l 1 0 0 (pcPos o.pc) (pcAddr o.pc) o.lanes.toNat 0).lane ((hs.laneFrame c l).trans hf)
  exact ⟨n, b, laneFrame_modLF_self (((SameFrames.recordIssue ..).laneFrame c l).trans hu) _⟩

/-- Settles O38: the fold that finds a bundle's program counter and the one that finds the accepted lane frame are least elements, and
no fetch touches a lane frame. -/
theorem bundleFormationAndAcceptance : Obligations.BundleFormationAndAcceptance := by
  refine ⟨fun f b hnd hlt h => ?_, fun s c l f hf => ⟨fun ht => ?_, fun ht hy => ?_, fun ht hy b hb hh => ?_,
    fun ht hy b w s1 hb hh hw => ⟨fun hl hla => ?_, fun hl hla => ?_, fun hl => ?_⟩⟩,
    fun s c slot l f o hc hs hm hl ho => ⟨fun hr => ?_, fun hr hw => ?_⟩⟩
  · simpa only [mem_readyThreads] using formBundle_spec hnd hlt h
  · simp only [exec_bundleTurn_of_frame hf, ht, Bool.false_eq_true, if_false]
  · rw [exec_bundleTurn_of_frame hf, if_pos ht, applyTurn_yielding hy]
  · rw [exec_bundleTurn_of_frame hf, if_pos ht, applyTurn_held hy hb hh]
  · rw [exec_bundleTurn_of_frame hf, if_pos ht, applyTurn_word hy hb hh hw, if_pos hl, if_pos hla]
  · rw [exec_bundleTurn_of_frame hf, if_pos ht, applyTurn_word hy hb hh hw, if_pos hl, if_neg (not_not.mpr hla)]
  · rw [exec_bundleTurn_of_frame hf, if_pos ht, applyTurn_word hy hb hh hw, if_neg (by simp [hl]), formTrap]
  · simp only [exec_bundleAccept, execBundleAccept, hc, hs, leastRecent_startable hm hl, ho, hr, Bool.not_true, Bool.or_self,
      Bool.false_eq_true, if_false]
  · obtain ⟨n, b, hg⟩ := laneFrame_applyAccept (slot := slot) (startable_frame hm) hw
    refine ⟨_, _, _, ?_, hg, rfl, rfl, rfl, rfl, rfl, rfl, rfl, rfl, rfl, fun i th hth hi => ?_⟩
    · simp only [exec_bundleAccept, execBundleAccept, hc, hs, leastRecent_startable hm hl, ho, hr, Bool.not_true, Bool.or_self,
        Bool.false_eq_true, if_false, if_true]
    · rw [thread_accepted (f := { f with undo := n, undoBase := b }) hth hi]
      exact ⟨rfl, rfl, rfl⟩

/-! ## Reset (O37) -/

theorem core_reset (c : Nat) : Machine.core State.reset c = .reset := rfl

/-- Settles O37: reset lists no core and no frame, so that each reads as its own reset value. -/
theorem resetState : Obligations.ResetState := by
  refine ⟨⟨Mem.wf_nil, rfl⟩, fun c => ?_, fun k => ⟨rfl, rfl⟩, rfl, rfl, rfl, rfl, rfl, rfl, rfl, rfl, rfl, rfl, rfl⟩
  rw [core_reset]
  exact ⟨rfl, rfl, rfl, rfl, rfl, rfl, rfl, rfl, rfl, rfl, rfl, rfl, rfl⟩

/-! ## A workgroup's start (O40) -/

theorem Mem.byte_clear (m : List Host.Cell) (a n j : Nat) :
    Mem.byte (Mem.clear m a n) j = if a ≤ j ∧ j < a + n then 0 else Mem.byte m j := by
  have h := lookup_filter_key m j (fun i => !(decide (a ≤ i) && decide (i < a + n)))
  unfold Mem.byte look Mem.clear
  rw [h]
  by_cases hj : a ≤ j ∧ j < a + n
  · rw [if_pos hj, if_neg (by simpa using hj)]
    rfl
  · rw [if_neg hj, if_pos (by simpa [or_iff_not_imp_left] using hj)]

/-- What clearing a workgroup's scratchpad does to the state: frames read zero, and all but memory and poison stays. -/
theorem clearScratch_spec (s : State) (w : Workgroup) : ∃ p, clearScratch s w =
    { s with
      mem := w.scratch.foldl (fun m fr => Mem.clear m (frameAt (nearKey w.core fr)) 4096) s.mem
      poison := p } := by
  have step (l : List Nat) : ∀ s : State, ∃ p, l.foldl (fun s fr =>
      { s with
        mem := Mem.clear s.mem (frameAt (nearKey w.core fr)) 4096
        poison := s.poison.filter (fun u => !(decide (frameAt (nearKey w.core fr) / 32 ≤ u) &&
          decide (u < frameAt (nearKey w.core fr) / 32 + 128))) }) s =
      { s with mem := l.foldl (fun m fr => Mem.clear m (frameAt (nearKey w.core fr)) 4096) s.mem, poison := p } := by
    induction l with
    | nil => exact fun s => ⟨s.poison, rfl⟩
    | cons fr l ih =>
      intro s
      obtain ⟨p, hp⟩ := ih { s with
        mem := Mem.clear s.mem (frameAt (nearKey w.core fr)) 4096
        poison := s.poison.filter (fun u => !(decide (frameAt (nearKey w.core fr) / 32 ≤ u) &&
          decide (u < frameAt (nearKey w.core fr) / 32 + 128))) }
      exact ⟨p, hp⟩
  exact step w.scratch s

theorem byte_clears_zero (f : Nat → Nat) (l : List Nat) (m : List Host.Cell) {j : Nat} (h : Mem.byte m j = 0) :
    Mem.byte (l.foldl (fun m fr => Mem.clear m (f fr) 4096) m) j = 0 := by
  induction l generalizing m with
  | nil => exact h
  | cons fr l ih =>
    refine ih _ ?_
    rw [Mem.byte_clear, h, ite_self]

theorem byte_clears (f : Nat → Nat) {l : List Nat} (m : List Host.Cell) {fr o : Nat} (hf : fr ∈ l) (ho : o < 4096) :
    Mem.byte (l.foldl (fun m fr => Mem.clear m (f fr) 4096) m) (f fr + o) = 0 := by
  induction l generalizing m with
  | nil => cases hf
  | cons g l ih =>
    rcases List.mem_cons.mp hf with rfl | hf
    · exact byte_clears_zero f l _ (by rw [Mem.byte_clear, if_pos (by omega)])
    · exact ih _ hf

/-- Lane frames of one core changed one after another. -/
theorem foldl_modLF_frame (c : Nat) (g : Nat → LaneFrame → LaneFrame) (ps : List (Nat × Nat)) (s : State) :
    ∃ cs, ps.foldl (fun s e => modLF s c e.2 (g e.1)) s = { s with cores := cs } := by
  induction ps generalizing s with
  | nil => exact ⟨s.cores, rfl⟩
  | cons e ps ih =>
    obtain ⟨cs, h⟩ := ih (modLF s c e.2 (g e.1))
    exact ⟨cs, h⟩

theorem laneFrame_foldl_modLF_of_not_mem (c : Nat) (g : Nat → LaneFrame → LaneFrame) (ps : List (Nat × Nat)) (s : State) {l : Nat}
    (h : l ∉ ps.map (fun e => e.2)) : laneFrame (ps.foldl (fun s e => modLF s c e.2 (g e.1)) s) c l = laneFrame s c l := by
  induction ps generalizing s with
  | nil => rfl
  | cons e ps ih =>
    simp only [List.map_cons, List.mem_cons, not_or] at h
    rw [List.foldl_cons, ih _ h.2, laneFrame_modLF, if_neg (fun hl => h.1 hl.2)]

theorem laneFrame_foldl_modLF (c : Nat) (g : Nat → LaneFrame → LaneFrame) {ps : List (Nat × Nat)} {s : State} {i l : Nat} {f : LaneFrame}
    (hn : (ps.map (fun e => e.2)).Nodup) (hm : (i, l) ∈ ps) (hf : laneFrame s c l = some f) :
    laneFrame (ps.foldl (fun s e => modLF s c e.2 (g e.1)) s) c l = some (g i f) := by
  induction ps generalizing s with
  | nil => cases hm
  | cons e ps ih =>
    rw [List.map_cons, List.nodup_cons] at hn
    rw [List.foldl_cons]
    rcases List.mem_cons.mp hm with rfl | hm
    · rw [laneFrame_foldl_modLF_of_not_mem c g ps _ hn.1, laneFrame_modLF_self hf]
    · have hne : l ≠ e.2 := fun h => hn.1 (h ▸ List.mem_map_of_mem (f := fun e : Nat × Nat => e.2) hm)
      exact ih hn.2 hm (by rw [laneFrame_modLF, if_neg (fun h => hne h.2), hf])

/-- The threads of lane frame `i` of a workgroup as it starts (R24). -/
def startThreads (w : Workgroup) (x : Launch) (i : Nat) : Table Thread :=
  ((List.range 32).filter (fun k => decide (32 * i + k < w.threads))).map (fun k => (k, startThread x))

theorem lookup_startThreads {w : Workgroup} (x : Launch) {i k : Nat} (hk : k < 32) (h : 32 * i + k < w.threads) :
    lookup (startThreads w x i) k = some (startThread x) :=
  lookup_tabulate (fun _ => startThread x) (by simp [hk, h])

theorem lookup_startThreads_none {w : Workgroup} (x : Launch) {i k : Nat} (h : w.threads ≤ 32 * i + k) :
    lookup (startThreads w x i) k = none := by
  cases hl : lookup (startThreads w x i) k with
  | none => rfl
  | some t =>
    obtain ⟨j, hj, he⟩ := List.mem_map.mp (mem_of_lookup hl)
    obtain ⟨rfl, -⟩ := Prod.mk.inj he
    have := of_decide_eq_true (List.mem_filter.mp hj).2
    omega

/-- The registers of a thread as it starts: the launch's arguments in n1 to n6, zero elsewhere (R24). -/
theorem startThread_regs {x : Launch} (h : x.args.length = 6) :
    (startThread x).n.getD 0 0 = 0 ∧ (∀ j < 6, (startThread x).n.getD (1 + j) 0 = x.args.getD j 0) ∧
    (∀ j, 7 ≤ j → j < 16 → (startThread x).n.getD j 0 = 0) ∧ ∀ j < 16, ((startThread x).q.getD j ⟨0, 0, 0⟩).val = 0 := by
  refine ⟨rfl, fun j hj => ?_, fun j h7 h16 => ?_, fun j hj => ?_⟩
  · change (0 :: (x.args ++ List.replicate 9 0)).getD (1 + j) 0 = _
    rw [Nat.add_comm, List.getD_cons_succ, List.getD_append _ _ _ _ (by omega)]
  · change (0 :: (x.args ++ List.replicate 9 0)).getD j 0 = _
    obtain ⟨j, rfl⟩ : ∃ i, j = i + 1 := ⟨j - 1, by omega⟩
    rw [List.getD_cons_succ, List.getD_append_right _ _ _ _ (by omega), List.getD_replicate _ (by omega)]
  · change ((List.replicate 16 (⟨0, 0, 0⟩ : Slot)).getD j ⟨0, 0, 0⟩).val = 0
    rw [List.getD_replicate _ hj]

/-- Numbering a list's elements keeps them. -/
theorem map_snd_mapIdx (l : List Nat) : (l.mapIdx (fun i x => (i, x))).map (fun e => e.2) = l :=
  List.ext_getElem (by simp) (by simp)

section
variable {s : State} {id : Nat} {w : Workgroup} {x : Launch}

/-- A workgroup's threads started, before they come to their header. -/
def startedState (s : State) (id : Nat) (w : Workgroup) (x : Launch) : State :=
  (w.lfs.mapIdx (fun i l => (i, l))).foldl (fun s e => modLF s w.core e.2 (fun f => { f with threads := startThreads w x e.1 }))
    (modWG (clearScratch (emptyReadAhead s w.core) w) id (fun w => { w with started := true }))

theorem exec_workgroupStart_due (hw : workgroup s id = some w) (hx : launchOf s id = some x) (hst : w.started = false)
    (he : w.emptying = []) (hc : w.ctx = ctxId s) (hsl : s.slice.isSome = true) (hstop : s.stop = none) :
    exec (.workgroupStart id) s
      = .next (w.lfs.foldl (fun s l => arriveAt s w.core l (BitVec.allOnes 32)) (startedState s id w x)) := by
  have hsl' : s.slice.isNone = false := by rw [← Option.not_isSome, hsl]; rfl
  simp only [exec_workgroupStart, execWorkgroupStart, hw, hx, hst, he, hc, hsl', hstop, List.isEmpty_nil, Option.isSome_none,
    ne_eq, not_true, decide_false, Bool.not_true, Bool.or_self, Bool.false_eq_true, if_false]
  rfl

theorem Regrouped.arrivals (c : Nat) (ls : List Nat) (s : State) :
    Regrouped s (ls.foldl (fun s l => Machine.arriveAt s c l (BitVec.allOnes 32)) s) :=
  List.foldlRecOn ls _ (motive := fun t => Regrouped s t) (.refl s) fun _ ht _ _ => ht.trans (.arriveAt ..)

theorem workgroup_modWG_self {s : State} {id : Nat} {w : Workgroup} {g : Workgroup → Workgroup} (hw : workgroup s id = some w)
    (hg : ∀ w, (g w).id = w.id) : workgroup (modWG s id g) id = some (g w) := by
  simp only [workgroup, modWG, List.find?_map]
  have h : (fun x : Workgroup => decide (x.id = id)) ∘ (fun x => if x.id = id then g x else x) = fun x => decide (x.id = id) := by
    funext y
    by_cases hy : y.id = id <;> simp [hy, hg]
  rw [h]
  have hid : w.id = id := by simpa using List.find?_some hw
  rw [show s.wgs.find? (fun x => decide (x.id = id)) = some w from hw, Option.map_some, if_pos hid]

theorem startedState_spec (hw : workgroup s id = some w) (hlfs : w.lfs.Nodup) : 
    workgroup (startedState s id w x) id = some { w with started := true } ∧
    (startedState s id w x).mem = w.scratch.foldl (fun m fr => Mem.clear m (frameAt (nearKey w.core fr)) 4096) s.mem ∧
    ∀ i l f, w.lfs[i]? = some l → laneFrame s w.core l = some f →
      laneFrame (startedState s id w x) w.core l = some { f with threads := startThreads w x i } := by
  obtain ⟨p, hp⟩ := clearScratch_spec (emptyReadAhead s w.core) w
  obtain ⟨cs, hcs⟩ := foldl_modLF_frame w.core (fun i f => { f with threads := startThreads w x i }) (w.lfs.mapIdx (fun i l => (i, l)))
    (modWG (clearScratch (emptyReadAhead s w.core) w) id (fun w => { w with started := true }))
  refine ⟨?_, ?_, fun i l f hl hf => ?_⟩
  · rw [startedState, hcs, hp]
    exact workgroup_modWG_self (s := s) hw (fun _ => rfl)
  · rw [startedState, hcs, hp]
    rfl
  · refine laneFrame_foldl_modLF w.core (fun i f => { f with threads := startThreads w x i }) ?_ ?_ ?_
    · rwa [map_snd_mapIdx]
    · rw [List.mem_mapIdx]
      obtain ⟨hi, rfl⟩ := List.getElem?_eq_some_iff.mp hl
      exact ⟨i, hi, rfl⟩
    · rw [hp]
      exact (laneFrame_modCore (g := fun k => { k with readAhead := [] }) rfl w.core l).trans hf

end

/-- What a start leaves of a lane frame of the workgroup: its threads, but for their marks of regroup points. -/
theorem laneFrame_workgroupStart {s : State} {id : Nat} {w : Workgroup} {x : Launch} (hw : workgroup s id = some w)
    (hlfs : w.lfs.Nodup) {i l : Nat} {f : LaneFrame} (hl : w.lfs[i]? = some l) (hf : laneFrame s w.core l = some f) :
    ∃ g h, SetsMarks h ∧ laneFrame (w.lfs.foldl (fun s l => arriveAt s w.core l (BitVec.allOnes 32)) (startedState s id w x)) w.core l = some g ∧
      ∀ k, lookup g.threads k = (lookup (startThreads w x i) k).map (h k) := by
  obtain ⟨-, -, hlane⟩ := startedState_spec (x := x) hw hlfs
  obtain ⟨ts, h, hm, hg, hts⟩ := (Regrouped.arrivals w.core w.lfs (startedState s id w x)).lane (hlane i l f hl hf)
  exact ⟨_, h, hm, hg, hts⟩

/-- What comes after a regroup test, apart from cores, is what came before. -/
theorem Regrouped.workgroup {s t : State} (h : Regrouped s t) (id : Nat) : workgroup t id = Machine.workgroup s id := by
  rw [h.frame]; rfl

theorem Regrouped.mem {s t : State} (h : Regrouped s t) : t.mem = s.mem := by rw [h.frame]

/-! ## A workgroup's end -/

theorem exec_workgroupFinish_none {s : State} {n : Nat} (h : workgroup s n = none) :
    exec (.workgroupFinish n) s = .next (postDones s) := by
  simp only [exec_workgroupFinish, execWorkgroupFinish, h]

theorem postDones_idle {s : State} (h : s.stop.isSome = true ∨ owedAdds s = []) : postDones s = s := by
  unfold postDones
  rcases h with h | h
  · simp [h]
  · rw [h]
    simp

/-- What a gang event leaves: workgroups, launches, the matrix units' records and tables, and which lane frames there are. -/
structure GangKept (s t : State) : Prop where
  wgs : t.wgs = s.wgs
  launches : t.launches = s.launches
  recs (c : Nat) : (Machine.core t c).c.recs = (Machine.core s c).c.recs
  grove (c : Nat) : (Machine.core t c).c.grove = (Machine.core s c).c.grove
  lane {c l : Nat} (h : laneFrame s c l = none) : laneFrame t c l = none

namespace GangKept
variable {s t u : State}

theorem refl (s : State) : GangKept s s := ⟨rfl, rfl, fun _ => rfl, fun _ => rfl, fun h => h⟩

theorem trans (h : GangKept s t) (k : GangKept t u) : GangKept s u :=
  ⟨k.wgs.trans h.wgs, k.launches.trans h.launches, fun c => (k.recs c).trans (h.recs c), fun c => (k.grove c).trans (h.grove c),
    fun hl => k.lane (h.lane hl)⟩

theorem foldl {α : Type} {g : State → α → State} (h : ∀ s a, GangKept s (g s a)) (l : List α) (s : State) :
    GangKept s (l.foldl g s) :=
  List.foldlRecOn l g (motive := fun t => GangKept s t) (refl s) (fun t ht a _ => ht.trans (h t a))

theorem modCore {c : Nat} {g : Core → Core} (hl : ∀ k, (g k).c.lfs = k.c.lfs) (hr : ∀ k, (g k).c.recs = k.c.recs)
    (hg : ∀ k, (g k).c.grove = k.c.grove) : GangKept s (modCore s c g) where
  wgs := rfl
  launches := rfl
  recs d := by
    by_cases hd : d = c
    · subst hd; rw [core_modCore_self, hr]
    · rw [core_modCore_ne s g hd]
  grove d := by
    by_cases hd : d = c
    · subst hd; rw [core_modCore_self, hg]
    · rw [core_modCore_ne s g hd]
  lane h := (laneFrame_modCore (hl _) _ _).trans h

theorem modLF (s : State) (c l : Nat) (g : LaneFrame → LaneFrame) : GangKept s (modLF s c l g) where
  wgs := rfl
  launches := rfl
  recs d := by
    by_cases hd : d = c
    · subst hd; exact congrArg (fun k => k.c.recs) (core_modCore_self ..)
    · exact congrArg (fun k => k.c.recs) (core_modCore_ne _ _ hd)
  grove d := by
    by_cases hd : d = c
    · subst hd; exact congrArg (fun k => k.c.grove) (core_modCore_self ..)
    · exact congrArg (fun k => k.c.grove) (core_modCore_ne _ _ hd)
  lane h := by
    rw [laneFrame_modLF, h]
    simp

theorem thenModLF (h : GangKept s t) (c l : Nat) (g : LaneFrame → LaneFrame) : GangKept s (Machine.modLF t c l g) :=
  h.trans (modLF ..)

theorem thenModCore {c : Nat} {g : Core → Core} (h : GangKept s t) (hl : ∀ k, (g k).c.lfs = k.c.lfs)
    (hr : ∀ k, (g k).c.recs = k.c.recs) (hg : ∀ k, (g k).c.grove = k.c.grove) : GangKept s (Machine.modCore t c g) :=
  h.trans (modCore hl hr hg)

theorem record (s : State) (c type : Nat) (thr : BitVec 16) (pc : DWord) (data : Nat) :
    GangKept s (record s c type thr pc data) := by
  unfold Machine.record modRcd
  exact modCore (fun _ => rfl) (fun _ => rfl) fun _ => rfl

theorem raised (s : State) {e : Event} (h : e.bundle = none) : GangKept s (raise s e) := by
  rw [raise_of_none h, recorded]
  refine .trans (t := { s with stop := stopWith s e, at_ := none }) ⟨rfl, rfl, fun _ => rfl, fun _ => rfl, fun h => h⟩ ?_
  refine .trans (record _ e.core 11 e.thr e.pc (stopData e.kind e.engine e.detail)) (modCore (fun k => ?_) (fun k => ?_) fun k => ?_)
  all_goals split <;> rfl

theorem raiseParked (s : State) (e : Event) (lanes : LaneMask) : GangKept s (raiseParked s e lanes) := by
  unfold Machine.raiseParked
  exact ((raised s (e := { e with bundle := none }) rfl).thenModLF ..).thenModCore (fun _ => rfl) (fun _ => rfl) fun _ => rfl

theorem modMq (s : State) (c i : Nat) (f : MqEntry → MqEntry) : GangKept s (modMq s c i f) := by
  unfold Machine.modMq
  exact modCore (fun _ => rfl) (fun _ => rfl) fun _ => rfl

theorem raiseLatch (s : State) (x : Latch) (kind : Nat) (detail : Word → Nat) : GangKept s (raiseLatch s x kind detail) := by
  unfold Machine.raiseLatch
  refine foldl (fun s a => ?_) _ _
  split
  · exact refl s
  · split
    · exact refl s
    · exact .trans (modMq ..) (raiseParked ..)

theorem memberGone (s : State) (w : Workgroup) : GangKept s (memberGone s w) := by
  unfold Machine.memberGone
  refine foldl (fun s x => ?_) _ _
  split
  · exact raiseLatch ..
  · exact refl s

end GangKept

theorem loseScratch_launches (s : State) (w : Workgroup) : (loseScratch s w).launches = s.launches := by
  unfold loseScratch
  split <;> rfl

theorem freeTiles_frame (c : Nat) (l : List (Nat × Tile)) (s : State) :
    (l.foldl (fun s t => freeTile s c (t.1 % 64)) s).launches = s.launches ∧
    (l.foldl (fun s t => freeTile s c (t.1 % 64)) s).cores = s.cores :=
  List.foldlRecOn l _ (motive := fun t : State => t.launches = s.launches ∧ t.cores = s.cores) ⟨rfl, rfl⟩ fun _ ht _ _ => ht

theorem resetTables_launches (c : Nat) (l : List (Nat × GroveTab)) (s : State) :
    (l.foldl (fun s t => resetTable s c t.1) s).launches = s.launches :=
  List.foldlRecOn l _ (motive := fun t : State => t.launches = s.launches) rfl fun _ ht _ _ => ht

/-- The Grove tables of a core after some are reset. -/
theorem resetTables_grove (c : Nat) (l : List (Nat × GroveTab)) (s : State) :
    (Machine.core (l.foldl (fun s t => resetTable s c t.1) s) c).c.grove
      = (Machine.core s c).c.grove.filter (fun e => decide (e.1 ∉ l.map (fun t => t.1))) := by
  induction l generalizing s with
  | nil => simp
  | cons t l ih =>
    have h : (Machine.core (resetTable s c t.1) c).c.grove = drop (Machine.core s c).c.grove t.1 := by
      rw [resetTable, core_modCore_self]
      rfl
    rw [List.foldl_cons, ih, h, drop, List.filter_filter]
    refine List.filter_congr fun e _ => ?_
    rw [Bool.eq_iff_iff]
    simp [and_comm]

/-- A finished workgroup owns no record and no Grove table any more. -/
theorem releaseOwned_spec (s : State) (c wg : Nat) :
    (releaseOwned s c wg).launches = s.launches ∧
    (∀ r ∈ (Machine.core (releaseOwned s c wg) c).c.recs, r.2.owner ≠ wg) ∧
    (∀ g ∈ (Machine.core (releaseOwned s c wg) c).c.grove, g.2.owner ≠ wg) := by
  unfold releaseOwned
  extract_lets s1 s2
  have h1 := (freeTiles_frame c (s.tiles.filter (fun t => decide (t.1 / 64 = c ∧ t.2.owner = wg ∧ t.2.ctx = ctxId s))) s).1
  have hg := resetTables_grove c ((Machine.core s1 c).c.grove.filter (fun t => decide (t.2.owner = wg))) s1
  refine ⟨(resetTables_launches c _ s1).trans h1, fun r hr => ?_, fun g hgr => ?_⟩
  · rw [core_modCore_self] at hr
    exact of_decide_eq_true (List.mem_filter.mp hr).2
  · rw [core_modCore_self] at hgr
    have hgr2 : g ∈ (Machine.core s2 c).c.grove := hgr
    rw [hg] at hgr2
    obtain ⟨hmem, hkey⟩ := List.mem_filter.mp hgr2
    exact fun hown => of_decide_eq_true hkey (List.mem_map_of_mem (f := fun t : Nat × GroveTab => t.1)
      (List.mem_filter.mpr ⟨hmem, decide_eq_true hown⟩))

/-- Lane frames of a core dropped. -/
def dropLFs (s : State) (c : Nat) (ls : List Nat) : State :=
  ls.foldl (fun s l => modCore s c (fun k => modC k (fun y => { y with lfs := drop y.lfs l }))) s

theorem core_dropLFs (s : State) (c : Nat) (ls : List Nat) : Machine.core (dropLFs s c ls) c = { Machine.core s c with
    c := { (Machine.core s c).c with lfs := ls.foldl drop (Machine.core s c).c.lfs } } := by
  unfold dropLFs
  induction ls generalizing s with
  | nil => rfl
  | cons l ls ih =>
    rw [List.foldl_cons, ih, core_modCore_self]
    rfl

theorem dropLFs_launches (s : State) (c : Nat) (ls : List Nat) : (dropLFs s c ls).launches = s.launches :=
  List.foldlRecOn ls _ (motive := fun t : State => t.launches = s.launches) rfl fun _ ht _ _ => ht

theorem lookup_drops_none {α : Type} (ls : List Nat) {t : Table α} {l : Nat} (h : lookup t l = none) :
    lookup (ls.foldl drop t) l = none := by
  induction ls generalizing t with
  | nil => exact h
  | cons k ls ih =>
    refine ih ?_
    rw [drop, lookup_filter_key t l (fun i => i != k), h, ite_self]

theorem lookup_drops {α : Type} {ls : List Nat} (t : Table α) {l : Nat} (h : l ∈ ls) : lookup (ls.foldl drop t) l = none := by
  induction ls generalizing t with
  | nil => cases h
  | cons k ls ih =>
    rcases List.mem_cons.mp h with rfl | h
    · exact lookup_drops_none ls (lookup_drop_self t l)
    · exact ih _ h

theorem finishWG_eq (s : State) (w : Workgroup) : finishWG s w = memberGone (modLaunch
    { dropLFs (releaseOwned (loseScratch s w) w.core w.id) w.core w.lfs with
      wgs := (dropLFs (releaseOwned (loseScratch s w) w.core w.id) w.core w.lfs).wgs.filter (fun x => x.id != w.id) }
    w.launch (fun x => { x with finished := x.finished + 1 })) w := rfl

theorem launchById_modLaunch_self {s : State} {i : Nat} {x : Launch} {g : Launch → Launch} (h : launchById s i = some x)
    (hg : ∀ x, (g x).id = x.id) : launchById (modLaunch s i g) i = some (g x) := by
  simp only [launchById, modLaunch, List.find?_map]
  have hp : (fun x : Launch => decide (x.id = i)) ∘ (fun x => if x.id = i then g x else x) = fun x => decide (x.id = i) := by
    funext y
    by_cases hy : y.id = i <;> simp [hy, hg]
  rw [hp]
  have hid : x.id = i := by simpa using List.find?_some h
  rw [show s.launches.find? (fun x => decide (x.id = i)) = some x from h, Option.map_some, if_pos hid]

/-- What the end of a workgroup releases (R25, R240, R251). -/
theorem finishWG_spec (s : State) (w : Workgroup) :
    workgroup (finishWG s w) w.id = none ∧
    (∀ x, launchById s w.launch = some x → launchById (finishWG s w) w.launch = some { x with finished := x.finished + 1 }) ∧
    (∀ l ∈ w.lfs, laneFrame (finishWG s w) w.core l = none) ∧
    (∀ r ∈ (Machine.core (finishWG s w) w.core).c.recs, r.2.owner ≠ w.id) ∧
    (∀ g ∈ (Machine.core (finishWG s w) w.core).c.grove, g.2.owner ≠ w.id) := by
  rw [finishWG_eq]
  obtain ⟨hl, hr, hg⟩ := releaseOwned_spec (loseScratch s w) w.core w.id
  generalize releaseOwned (loseScratch s w) w.core w.id = s1 at hl hr hg ⊢
  have hc := core_dropLFs s1 w.core w.lfs
  have hd := (dropLFs_launches s1 w.core w.lfs).trans (hl.trans (loseScratch_launches s w))
  generalize dropLFs s1 w.core w.lfs = s2 at hc hd ⊢
  obtain ⟨kw, kl, kr, kg, klane⟩ := GangKept.memberGone (modLaunch { s2 with wgs := s2.wgs.filter (fun x => x.id != w.id) }
    w.launch (fun x => { x with finished := x.finished + 1 })) w
  refine ⟨?_, fun x hx => ?_, fun l h => klane ?_, ?_, ?_⟩
  · rw [workgroup, kw, List.find?_eq_none]
    intro y hy
    have := (List.mem_filter.mp hy).2
    simpa using this
  · rw [launchById, kl]
    refine launchById_modLaunch_self (s := { s2 with wgs := s2.wgs.filter (fun x => x.id != w.id) }) ?_ fun _ => rfl
    rw [← hx, launchById, launchById]
    exact congrArg _ hd
  · change lookup (Machine.core s2 w.core).c.lfs l = none
    rw [hc]
    exact lookup_drops _ h
  · rw [kr]
    change ∀ r ∈ (Machine.core s2 w.core).c.recs, _
    rw [hc]
    exact hr
  · rw [kg]
    change ∀ r ∈ (Machine.core s2 w.core).c.grove, _
    rw [hc]
    exact hg

theorem workgroup_id {s : State} {id : Nat} {w : Workgroup} (h : workgroup s id = some w) : w.id = id := by
  simpa using List.find?_some h

theorem exec_workgroupFinish_some {s : State} {id : Nat} {w : Workgroup} (h : workgroup s id = some w) :
    exec (.workgroupFinish id) s = .next (if wgFinished s w then finishWG s w else s) := by
  simp only [exec_workgroupFinish, execWorkgroupFinish, h]

/-- Settles O40: a start clears the scratchpad and sets the threads, of which coming to a header changes only marks; an end drops what
the workgroup owned, and the gang events after it keep that. -/
theorem workgroupLifetime : Obligations.WorkgroupLifetime := by
  refine ⟨fun s id w x hw hx hst he hc hsl hstop hargs _ hlfs hex => ?_, fun s id w hw => ⟨fun hf => ?_, fun hf => ?_, fun n hn => ?_⟩⟩
  · have hreg := Regrouped.arrivals w.core w.lfs (startedState s id w x)
    obtain ⟨hwg, hmem, -⟩ := startedState_spec (x := x) hw hlfs
    refine ⟨_, { w with started := true }, exec_workgroupStart_due hw hx hst he hc hsl hstop, ?_, rfl, fun fr hfr o ho => ?_,
      fun i l hl => ?_⟩
    · rw [hreg.workgroup, hwg]
    · rw [hreg.mem, hmem]
      exact byte_clears (fun fr => frameAt (nearKey w.core fr)) s.mem hfr ho
    · obtain ⟨f, hf⟩ := Option.isSome_iff_exists.mp (hex l (List.mem_of_getElem? hl))
      obtain ⟨g, h, hm, hg, hts⟩ := laneFrame_workgroupStart (x := x) hw hlfs hl hf
      refine ⟨g, hg, fun k hk => ⟨fun hlt => ?_, fun hge => ?_⟩⟩
      · obtain ⟨a, b, hab⟩ := hm k (startThread x)
        have ht : thread g k = { startThread x with regroup := a, through := b } :=
          thread_of_lookup (by rw [hts, lookup_startThreads x hk hlt, Option.map_some, hab])
        obtain ⟨h0, h1, h7, hq⟩ := startThread_regs hargs
        rw [ht]
        exact ⟨rfl, rfl, rfl, rfl, h0, h1, h7, hq⟩
      · rw [hts, lookup_startThreads_none x hge]
        rfl
  · rw [exec_workgroupFinish_some hw]
    simp [hf]
  · obtain ⟨h1, h2, h3, h4, h5⟩ := finishWG_spec s w
    rw [workgroup_id hw] at h1
    exact ⟨_, by rw [exec_workgroupFinish_some hw, if_pos hf], rfl, h1, h2, h3, h4, h5⟩
  · exact ⟨exec_workgroupFinish_none hn, fun h => by rw [exec_workgroupFinish_none hn, postDones_idle h]⟩

/-! ## Placing a cluster (O39) -/

/-- A launch that is placed next has a rig on which it fits, perhaps after a compaction. -/
theorem nextLaunch_fits {s : State} {x : Launch} {rig : Nat} (h : nextLaunch s = some (x, rig)) : rigFit s x rig ≠ .no := by
  have found (y : Launch) (r : Nat) (hr : findRig s y = some r) : rigFit s y r ≠ .no := by
    simpa using List.find?_some hr
  have fits : ∀ e : Launch × Nat, nextLaunch s = some e → rigFit s e.1 e.2 ≠ .no := by
    unfold nextLaunch
    refine List.foldlRecOn s.launches _ (motive := fun a => ∀ e : Launch × Nat, a = some e → rigFit s e.1 e.2 ≠ .no) (fun e he => by cases he) ?_
    intro a ha y _
    split
    · cases a with
      | none =>
        intro e he
        obtain ⟨r, hr, rfl⟩ := Option.map_eq_some_iff.mp he
        exact found y r hr
      | some z =>
        dsimp only
        split
        · cases hr : findRig s y with
          | none => exact ha
          | some r =>
            intro e he
            obtain rfl := Option.some.inj he
            exact found y r hr
        · exact ha
    · exact ha
  exact fits _ h

theorem coreFit_ne_no {s : State} {x : Launch} {rig c : Nat} (h : rigFit s x rig ≠ .no) (hc : c ∈ rigCores rig) :
    coreFit s x c ≠ .no := by
  intro hn
  refine h ?_
  have : ((rigCores rig).map (coreFit s x)).contains .no = true := by
    rw [List.contains_iff_mem, ← hn]
    exact List.mem_map_of_mem hc
  simp only [rigFit, this, if_true, ite_self]

theorem coreFit_eq_room {s : State} {x : Launch} {c : Nat} (h : coreFit s x c ≠ .no) : coreFit s x c = coreRoom s x c := by
  unfold coreFit at h ⊢
  split at h
  · exact absurd rfl h
  · rw [if_neg ‹_›]

theorem coreFit_of_yes {s : State} {x : Launch} {rig c : Nat} (h : rigFit s x rig = .yes) (hc : c ∈ rigCores rig) :
    coreFit s x c ≠ .compact := by
  intro hn
  have hm : ((rigCores rig).map (coreFit s x)).contains .compact = true := by
    rw [List.contains_iff_mem, ← hn]
    exact List.mem_map_of_mem hc
  simp only [rigFit, hm, if_true] at h
  split at h
  · cases h
  · split at h <;> cases h

theorem exists_compact {s : State} {x : Launch} {rig : Nat} (h : rigFit s x rig ≠ .no) (hy : rigFit s x rig ≠ .yes) :
    ∃ c ∈ rigCores rig, coreFit s x c = .compact := by
  have hc : rigFit s x rig = .compact := by
    cases hf : rigFit s x rig
    · exact absurd hf h
    · exact absurd hf hy
    · rfl
  simp only [rigFit] at hc
  split at hc
  · cases hc
  · split at hc
    · cases hc
    · split at hc
      · rename_i hm
        obtain ⟨c, hcm, hcf⟩ := List.mem_map.mp (List.contains_iff_mem.mp hm)
        exact ⟨c, hcm, hcf⟩
      · cases hc

/-- The state in which a cluster of the next launch takes its place. -/
def seating (s : State) (x : Launch) (rig : Nat) : State :=
  { modLaunch s x.id (fun y => { y with placed := y.placed + 1 }) with
    lastPlace := s.cycle * 2 / 3 + 1, prioPtr := s.prioPtr.set x.prio ((x.source + 1) % 65), rigPtr := (rig + 1) % rigCount s }

section
variable {s : State} {sl : Slice} {x : Launch} {rig : Nat}

theorem exec_clusterPlace_of_slice (hsl : s.slice = some sl) (hsw : sl.switching = false) (hst : s.stop = none)
    (hp : s.lastPlace ≠ s.cycle * 2 / 3 + 1) : exec .clusterPlace s = .next (match nextLaunch s with
      | none => s
      | some (x, rig) => seatCluster (seating s x rig) x x.placed rig) := by
  have hp' : ¬s.lastPlace = fabricCycle s + 1 := hp
  simp only [exec_clusterPlace, execClusterPlace, hsl, hsw, hst, hp', Option.isSome_none, decide_false, Bool.or_self,
    Bool.false_eq_true, if_false]
  cases nextLaunch s <;> rfl

theorem seatCluster_yes (hf : rigFit s x rig = .yes) :
    seatCluster (seating s x rig) x x.placed rig = placeCluster (seating s x rig) x x.placed rig := by
  have hroom (c : Nat) : coreRoom (seating s x rig) x c = coreRoom s x c := rfl
  have ht : (rigCores rig).filter (fun c => decide (coreRoom (seating s x rig) x c = .compact)) = [] := by
    rw [List.filter_eq_nil_iff]
    intro c hc
    rw [hroom, ← coreFit_eq_room (coreFit_ne_no (by rw [hf]; decide) hc)]
    simpa using coreFit_of_yes hf hc
  simp only [seatCluster, ht, List.isEmpty_nil, if_true]

/-- A rig that fits after a compaction begins a pass on each core that needs one (R29). -/
theorem seatCluster_compact (hn : rigFit s x rig ≠ .no) (hf : rigFit s x rig ≠ .yes) :
    seatCluster (seating s x rig) x x.placed rig = (rigCores rig).foldl (fun t c =>
      if coreFit s x c = .compact then modCore t c (fun k => modC k (fun y =>
        { y with compaction := some ⟨packMoves s c, false, s.cycle, x.id, x.placed, rig⟩ }))
      else t) (seating s x rig) := by
  have hroom (c : Nat) (hc : c ∈ rigCores rig) :
      decide (coreRoom (seating s x rig) x c = .compact) = decide (coreFit s x c = .compact) := by
    rw [coreFit_eq_room (coreFit_ne_no hn hc)]
    rfl
  have ht : (rigCores rig).filter (fun c => decide (coreRoom (seating s x rig) x c = .compact))
      = (rigCores rig).filter (fun c => decide (coreFit s x c = .compact)) := List.filter_congr hroom
  obtain ⟨c, hc, hcf⟩ := exists_compact hn hf
  have hne : ((rigCores rig).filter (fun c => decide (coreFit s x c = .compact))).isEmpty = false := by
    rw [List.isEmpty_eq_false_iff_exists_mem]
    exact ⟨c, List.mem_filter.mpr ⟨hc, decide_eq_true hcf⟩⟩
  unfold seatCluster
  rw [ht]
  simp only [hne, Bool.false_eq_true, if_false, List.foldl_filter, decide_eq_true_eq]
  rfl

end

/-- The workgroup that `placeWG` adds (R305). -/
def newWG (s : State) (x : Launch) (cluster rank c : Nat) (fs : List Nat) : Workgroup :=
  { id := s.ops, launch := x.id, ctx := x.ctx, cluster := cluster, rank := rank, core := c, lfs := fs, threads := x.wgThreads
    scratch := takeScratch s c x.scratch
    emptying := (takeScratch s c x.scratch).filter (fun fr => (frame s (nearKey c fr)).valid || (frame s (nearKey c fr)).busy)
    started := false, nearGrant := x.nearGrant, tiles := x.tiles, grants := [], hand := 0, gang := 0, joint := 0 }

/-- The free scratchpad frames of a new workgroup leave the lists that they stand on. -/
def afterLists (s : State) (x : Launch) (c : Nat) (t : State) : State :=
  ((takeScratch s c x.scratch).filter (fun fr => !((frame s (nearKey c fr)).valid || (frame s (nearKey c fr)).busy))).foldl
    (fun t fr => leaveLists t c fr) t

theorem placeWG_eq (s : State) (x : Launch) (cluster rank c : Nat) (fs : List Nat) : placeWG s x cluster rank c fs =
    (fs.mapIdx (fun i l => (i, l))).foldl (fun t e => setLF t c e.2 (emptyLF s.ops e.1))
      (afterLists s x c { fresh s with wgs := s.wgs ++ [newWG s x cluster rank c fs] }) := rfl

/-- What placing a workgroup makes of the list of workgroups: it is longer by one, and of those before no place has changed. -/
structure Placed (s t : State) (n : Nat) : Prop where
  length : t.wgs.length = s.wgs.length + n
  kept : ∀ y ∈ s.wgs, ∃ z ∈ t.wgs, z.launch = y.launch ∧ z.cluster = y.cluster ∧ z.rank = y.rank ∧ z.core = y.core ∧ z.started = y.started
  lastPlace : t.lastPlace = s.lastPlace
  rigPtr : t.rigPtr = s.rigPtr

namespace Placed
variable {s t u : State} {m n : Nat}

theorem trans (h : Placed s t m) (k : Placed t u n) : Placed s u (m + n) where
  length := by rw [k.length, h.length, Nat.add_assoc]
  kept y hy := by
    obtain ⟨z, hz, h1, h2, h3, h4, h5⟩ := h.kept y hy
    obtain ⟨z', hz', k1, k2, k3, k4, k5⟩ := k.kept z hz
    exact ⟨z', hz', k1.trans h1, k2.trans h2, k3.trans h3, k4.trans h4, k5.trans h5⟩
  lastPlace := k.lastPlace.trans h.lastPlace
  rigPtr := k.rigPtr.trans h.rigPtr

theorem of_wgs (hw : t.wgs = s.wgs) (hl : t.lastPlace = s.lastPlace) (hr : t.rigPtr = s.rigPtr) : Placed s t 0 where
  length := by rw [hw]; rfl
  kept y hy := ⟨y, hw ▸ hy, rfl, rfl, rfl, rfl, rfl⟩
  lastPlace := hl
  rigPtr := hr

theorem refl (s : State) : Placed s s 0 := of_wgs rfl rfl rfl

theorem foldl {α : Type} {g : State → α → State} (h : ∀ s a, Placed s (g s a) 0) (l : List α) (s : State) :
    Placed s (l.foldl g s) 0 :=
  List.foldlRecOn l g (motive := fun t => Placed s t 0) (refl s) (fun t ht a _ => ht.trans (h t a))

theorem leaveLists (s : State) (c fr : Nat) : Placed s (leaveLists s c fr) 0 where
  length := by simp [Machine.leaveLists, modCore, setCore]
  kept y hy := by
    refine ⟨_, List.mem_map_of_mem hy, ?_⟩
    split <;> exact ⟨rfl, rfl, rfl, rfl, rfl⟩
  lastPlace := rfl
  rigPtr := rfl

/-- The new workgroup stands on its core, not started. -/
theorem placeWG (s : State) (x : Launch) (cluster rank c : Nat) (fs : List Nat) :
    Placed s (placeWG s x cluster rank c fs) 1 ∧ ∃ y ∈ (placeWG s x cluster rank c fs).wgs,
      y.launch = x.id ∧ y.cluster = cluster ∧ y.rank = rank ∧ y.core = c ∧ y.started = false := by
  rw [placeWG_eq]
  generalize hw : newWG s x cluster rank c fs = w
  have h1 : Placed s { fresh s with wgs := s.wgs ++ [w] } 1 :=
    ⟨List.length_append, fun y hy => ⟨y, List.mem_append_left [w] hy, rfl, rfl, rfl, rfl, rfl⟩, rfl, rfl⟩
  have h2 : Placed { fresh s with wgs := s.wgs ++ [w] } (afterLists s x c { fresh s with wgs := s.wgs ++ [w] }) 0 :=
    foldl (fun t fr => leaveLists t c fr) _ _
  have setting (t : State) (e : Nat × Nat) : Placed t (setLF t c e.2 (emptyLF s.ops e.1)) 0 := of_wgs rfl rfl rfl
  have h23 := h2.trans (foldl setting (fs.mapIdx (fun i l => (i, l))) _)
  refine ⟨h1.trans h23, ?_⟩
  obtain ⟨y, hy, k1, k2, k3, k4, k5⟩ := h23.kept w (List.mem_append_right s.wgs List.mem_cons_self)
  rw [← hw] at k1 k2 k3 k4 k5
  exact ⟨y, hy, k1, k2, k3, k4, k5⟩

/-- The workgroups of a cluster placed up to rank `n`. -/
theorem ranks (x : Launch) (cluster : Nat) (core : Nat → Nat) (fs : Nat → List Nat) (s : State) (n : Nat) :
    let t := (List.range n).foldl (fun t r => Machine.placeWG t x cluster r (core r) (fs r)) s
    Placed s t n ∧ ∀ r < n, ∃ y ∈ t.wgs, y.launch = x.id ∧ y.cluster = cluster ∧ y.rank = r ∧ y.core = core r ∧ y.started = false := by
  induction n with
  | zero => exact ⟨refl s, fun r hr => absurd hr (Nat.not_lt_zero r)⟩
  | succ n ih =>
    simp only [List.range_succ, List.foldl_append, List.foldl_cons, List.foldl_nil] at ih ⊢
    generalize (List.range n).foldl (fun t r => Machine.placeWG t x cluster r (core r) (fs r)) s = t at ih ⊢
    obtain ⟨hp, hr⟩ := ih
    obtain ⟨hw, hnew⟩ := placeWG t x cluster n (core n) (fs n)
    refine ⟨hp.trans hw, fun r hlt => ?_⟩
    rcases Nat.lt_succ_iff_lt_or_eq.mp hlt with hlt | rfl
    · obtain ⟨y, hy, y1, y2, y3, y4, y5⟩ := hr r hlt
      obtain ⟨z, hz, z1, z2, z3, z4, z5⟩ := hw.kept y hy
      exact ⟨z, hz, z1.trans y1, z2.trans y2, z3.trans y3, z4.trans y4, z5.trans y5⟩
    · exact hnew

end Placed

/-! ## Lane frames moved -/

/-- A table in which a lane frame is set at a place, come to rest, or dropped there. -/
theorem lookup_set_rest {set : Table LaneFrame → Nat → Option LaneFrame → Table LaneFrame}
    (hs : ∀ t k f, set t k (some f) = put t k { f with still := false, offer := none }) (hn : ∀ t k, set t k none = drop t k)
    (t : Table LaneFrame) (k j : Nat) (x : Option LaneFrame) : lookup (set t k x) j =
      if j = k then x.map (fun f => { f with still := false, offer := none }) else lookup t j := by
  cases x with
  | some f => rw [hs]; exact lookup_put ..
  | none =>
    rw [hn]
    by_cases h : j = k
    · subst h; simp
    · simp [h, lookup_drop_ne t h]

theorem core_record_c (s : State) (c d type : Nat) (thr : BitVec 16) (pc : DWord) (data : Nat) :
    (Machine.core (record s c type thr pc data) d).c = (Machine.core s d).c := by
  by_cases h : d = c
  · subst h
    rw [record, modRcd, core_modCore_self]
  · rw [record, modRcd, core_modCore_ne _ _ h]

theorem renameLF_lfs (s : State) (c : Nat) (r : Nat → Nat) :
    (Machine.core (renameLF s c r) c).c.lfs = (Machine.core s c).c.lfs ∧
    (Machine.core (renameLF s c r) c).c.compaction = (Machine.core s c).c.compaction := by
  unfold renameLF
  extract_lets s1
  change (Machine.core s1 c).c.lfs = _ ∧ (Machine.core s1 c).c.compaction = _
  rw [core_modCore_self]
  exact ⟨rfl, rfl⟩

/-- Two lane frames exchanged, or one moved to a free place (R29 step 5). -/
theorem swapLF_spec (s : State) (c a b : Nat) (h : a ≠ b) :
    laneFrame (swapLF s c a b) c b = (laneFrame s c a).map (fun f => { f with still := false, offer := none }) ∧
    laneFrame (swapLF s c a b) c a = (laneFrame s c b).map (fun f => { f with still := false, offer := none }) ∧
    (swapLF s c a b).cycle = s.cycle := by
  unfold swapLF
  extract_lets r fa fb set s1 s2
  have h1 : (Machine.core s1 c).c.lfs = set (set (Machine.core s c).c.lfs b fa) a fb := by
    refine (congrArg (fun k => k.c.lfs) (core_modCore_self ..)).trans ?_
    exact congrArg (fun l => set (set l b fa) a fb) (renameLF_lfs s c r).1
  have look (j : Nat) : lookup (set (set (Machine.core s c).c.lfs b fa) a fb) j =
      if j = a then fb.map (fun f => { f with still := false, offer := none })
      else if j = b then fa.map (fun f => { f with still := false, offer := none }) else lookup (Machine.core s c).c.lfs j := by
    rw [lookup_set_rest (set := set) (fun _ _ _ => rfl) (fun _ _ => rfl), lookup_set_rest (set := set) (fun _ _ _ => rfl) (fun _ _ => rfl)]
  have hs2 : (Machine.core s2 c).c = (Machine.core s1 c).c := core_record_c ..
  have fin (t : State) (ht : (Machine.core t c).c = (Machine.core s1 c).c) (hc : t.cycle = s.cycle) :
      laneFrame t c b = fa.map (fun f => { f with still := false, offer := none }) ∧
      laneFrame t c a = fb.map (fun f => { f with still := false, offer := none }) ∧ t.cycle = s.cycle := by
    simp only [Machine.laneFrame, ht, h1, look, if_neg h.symm, if_true, hc, and_self]
  split
  · exact fin _ ((core_record_c ..).trans hs2) rfl
  · exact fin _ hs2 rfl

section
variable {s : State} {c a b : Nat} {p : Compaction} {r : List (Nat × Nat)} {f : LaneFrame}

theorem core_nextMoves (s : State) (c : Nat) (p : Compaction) (r : List (Nat × Nat)) :
    (Machine.core (nextMoves s c p r) c).c = { (Machine.core s c).c with
      compaction := some { p with moves := r, moving := false, until_ := if r.isEmpty then s.cycle + 64 else s.cycle } } := by
  rw [nextMoves, core_modCore_self]
  rfl

/-- A move whose cycles have passed is made (R29 step 5). -/
theorem exec_laneFrameMove_made (hp : (Machine.core s c).c.compaction = some p) (hu : p.until_ ≤ s.cycle) (hm : p.moves = (a, b) :: r)
    (hf : laneFrame s c a = some f) (hmv : p.moving = true) :
    exec (.laneFrameMove c) s = .next (nextMoves (swapLF s c a b) c p (movesAfter a b r)) := by
  simp only [exec_laneFrameMove, execLaneFrameMove, hp, if_neg (Nat.not_lt.mpr hu), hm, hf, hmv, if_true]

theorem exec_laneFrameMove_begin (hp : (Machine.core s c).c.compaction = some p) (hu : p.until_ ≤ s.cycle) (hm : p.moves = (a, b) :: r)
    (hf : laneFrame s c a = some f) (hmv : p.moving = false) (hh : coreHeld s c = false) :
    exec (.laneFrameMove c) s = .next (beginMove s c a b p f) := by
  simp only [exec_laneFrameMove, execLaneFrameMove, hp, if_neg (Nat.not_lt.mpr hu), hm, hf, hmv, hh, Bool.false_eq_true, if_false]

theorem laneFrame_stopTurns (s : State) (c l m : Nat) : laneFrame (stopTurns s c l) c m =
    if m = l then (laneFrame s c m).map (fun f => if f.clause.isNone then { f with still := true, offer := none } else f)
    else laneFrame s c m := by
  rw [stopTurns, laneFrame_modLF]
  simp only [true_and]

/-- A move begins when its lane frames have come to rest (R29 step 4). -/
theorem beginMove_spec (hf : laneFrame s c a = some f) (hm : movable f = true) (hg : ∀ g, laneFrame s c b = some g → movable g = true) :
    (∃ g, laneFrame (beginMove s c a b p f) c a = some g ∧ g.still = true ∧ g.offer = none) ∧
    (Machine.core (beginMove s c a b p f) c).c.compaction =
      some { p with moving := true, until_ := s.cycle + (if (laneFrame s c b).isSome then 64 else 32) } := by
  have hcl : f.clause.isNone = true := by
    simp only [movable, Bool.and_eq_true] at hm
    exact hm.1.1
  have hall : (movable f && (match laneFrame s c b with | some h => movable h | none => true)) = true := by
    cases hb : laneFrame s c b with
    | none => simp [hm]
    | some g => simp [hm, hg g hb]
  have hstop : laneFrame (stopTurns (stopTurns s c a) c b) c a = some { f with still := true, offer := none } := by
    rw [laneFrame_stopTurns, laneFrame_stopTurns, if_pos rfl, hf]
    by_cases hab : a = b
    · simp only [if_pos hab, Option.map_some, hcl, if_true]
    · simp only [if_neg hab, Option.map_some, hcl, if_true]
  have hbegin : beginMove s c a b p f = modCore (stopTurns (stopTurns s c a) c b) c (fun k => modC k (fun y => { y with
      compaction := some { p with moving := true, until_ := s.cycle + (if (laneFrame s c b).isSome then 64 else 32) } })) := if_pos hall
  rw [hbegin]
  refine ⟨⟨_, (laneFrame_modCore rfl c a).trans hstop, rfl, rfl⟩, ?_⟩
  rw [core_modCore_self]
  rfl

end

/-! ## Scratchpad frames emptied -/

theorem frame_modFrame (s : State) (k j : Nat) (g : Frame → Frame) :
    frame (modFrame s k g) j = if j = k then g (frame s k) else frame s j := by
  unfold frame modFrame look change
  rw [lookup_put]
  split
  · rfl
  · rfl

/- The equation of `takeFar` unfolds through its structural recursion: the equation lemma that Lean makes for it runs
into `takeSlice`. -/
theorem takeFar_cons_of_some {s s1 : State} {d x k : Nat} {l : List Nat} (h : takeSlice s d x = (some k, s1)) :
    takeFar s d (x :: l) = (some k, s1) := by
  delta takeFar takeFar._f
  dsimp only
  rw [h]

theorem takeFar_cons_of_none {s s1 : State} {d x : Nat} {l : List Nat} (h : takeSlice s d x = (none, s1)) :
    takeFar s d (x :: l) = takeFar s1 d l := by
  delta takeFar takeFar._f
  dsimp only
  rw [h]

/-- What a sweep for a frame changes: hands, and REF and busy bits of frames (R54, R289). -/
structure Swept (s t : State) : Prop where
  form : ∃ fr sh, t = { s with frames := fr, sliceHand := sh }
  bits (k : Nat) : ∃ r b, frame t k = { frame s k with ref := r, busy := b }

namespace Swept
variable {s t u : State}

theorem refl (s : State) : Swept s s := ⟨⟨_, _, rfl⟩, fun _ => ⟨_, _, rfl⟩⟩

theorem trans (h : Swept s t) (k : Swept t u) : Swept s u where
  form := by
    obtain ⟨fr, sh, rfl⟩ := h.form
    obtain ⟨fr', sh', rfl⟩ := k.form
    exact ⟨fr', sh', rfl⟩
  bits j := by
    obtain ⟨r, b, hr⟩ := h.bits j
    obtain ⟨r', b', hr'⟩ := k.bits j
    exact ⟨r', b', by rw [hr', hr]⟩

theorem modFrame (s : State) (k : Nat) {g : Frame → Frame} (hg : ∀ f, ∃ r b, g f = { f with ref := r, busy := b }) :
    Swept s (modFrame s k g) where
  form := ⟨_, _, rfl⟩
  bits j := by
    rw [frame_modFrame]
    split
    · subst j; exact hg _
    · exact ⟨_, _, rfl⟩

theorem setBusyFrame (s : State) (k : Nat) (b : Bool) : Swept s (setBusyFrame s k b) := modFrame s k fun _ => ⟨_, _, rfl⟩

theorem sweepFrom (pool : List Nat) (ok : Nat → Bool) (n : Nat) :
    ∀ (h : Nat) (s : State), Swept s (sweepFrom pool ok n h s).2.2 := by
  induction n with
  | zero => exact fun _ s => refl s
  | succ n ih =>
    intro h s
    unfold Machine.sweepFrom
    extract_lets k h'
    split
    · exact ih h' s
    · split
      · exact refl s
      · split
        · exact (modFrame s k fun _ => ⟨_, _, rfl⟩).trans (ih h' _)
        · exact refl s

theorem sweep (s : State) (pool : List Nat) (hand : Nat) (ok : Nat → Bool) : Swept s (sweep s pool hand ok).2.2 := by
  unfold Machine.sweep
  split
  · exact refl s
  · have h := sweepFrom pool ok (2 * pool.length + 1) (hand % pool.length) s
    split <;> rename_i heq <;> rw [heq] at h <;> exact h

theorem takeSlice (s : State) (die slice : Nat) : Swept s (takeSlice s die slice).2 := by
  unfold Machine.takeSlice
  extract_lets pool i
  split
  · exact refl s
  · have h := sweep s pool (look s.sliceHand i 0) (available s)
    generalize Machine.sweep s pool (look s.sliceHand i 0) (available s) = x at h ⊢
    obtain ⟨r, hd, s1⟩ := x
    exact h.trans ⟨⟨_, _, rfl⟩, fun _ => ⟨_, _, rfl⟩⟩

theorem takeFar (die : Nat) (l : List Nat) : ∀ s : State, Swept s (takeFar s die l).2 := by
  induction l with
  | nil => exact fun s => refl s
  | cons x l ih =>
    intro s
    have h := takeSlice s die x
    rcases hx : Machine.takeSlice s die x with ⟨k | k, s1⟩
    · rw [hx] at h
      rw [takeFar_cons_of_none hx]
      exact Swept.trans h (ih s1)
    · rw [hx] at h
      rw [takeFar_cons_of_some hx]
      exact h

theorem holdsPage (h : Swept s t) (k page : Nat) : holdsPage t k page = Machine.holdsPage s k page := by
  obtain ⟨r, b, hr⟩ := h.bits k
  rw [Machine.holdsPage, hr]
  rfl

theorem homeByte (h : Swept s t) (page off : Nat) : homeByte t page off = Machine.homeByte s page off := by
  have hh := h.holdsPage
  obtain ⟨fr, sh, rfl⟩ := h.form
  unfold Machine.homeByte
  simp only [hh]
  rfl

theorem keyOf (h : Swept s t) (ctx : Nat) : keyOf t ctx = Machine.keyOf s ctx := by
  have hh := h.homeByte
  obtain ⟨fr, sh, rfl⟩ := h.form
  have hb : descBytes { s with frames := fr, sliceHand := sh } ctx = descBytes s ctx := by
    unfold descBytes granuleBytes
    simp only [hh]
    rfl
  have hd : descriptor { s with frames := fr, sliceHand := sh } ctx = descriptor s ctx := by
    unfold descriptor descOut
    rw [hb]
  unfold Machine.keyOf
  rw [hd]
  rfl

end Swept

/-- Every page that a frame holds has a valid key, whatever has been swept. -/
def KeyedPages (s : State) : Prop := ∀ k, (frame s k).valid = true → (keyOf s (frame s k).ctx).isSome = true

/-- What an eviction finds to move away: its own page, and perhaps one that a far frame gives up; all have keys. -/
theorem makeWay_keyed {s : State} {key : Nat} (hk : KeyedPages s) (hv : (frame s key).valid = true) :
    (∀ v, (makeWay s key).1 = some v → ∀ p ∈ v.pages, (keyOf s p.ctx).isSome = true) ∧
    (∀ ctx, keyOf (makeWay s key).2 ctx = keyOf s ctx) := by
  have hp : (keyOf s (leaver s key).ctx).isSome = true := hk key hv
  have alone : ∀ v, some (⟨leaver s key, none, none⟩ : Victim) = some v → ∀ p ∈ v.pages, (keyOf s p.ctx).isSome = true := by
    intro v hv p hpm
    obtain rfl := Option.some.inj hv
    obtain rfl := List.mem_singleton.mp hpm
    exact hp
  unfold makeWay
  simp only [hv, Bool.not_true, Bool.false_eq_true, if_false]
  split
  · have h := Swept.takeFar (keyDie key) (slicesFor (ownerOf key)) s
    generalize Machine.takeFar s (keyDie key) (slicesFor (ownerOf key)) = x at h ⊢
    obtain ⟨k | k, s1⟩ := x
    · exact ⟨alone, h.keyOf⟩
    · refine ⟨fun v hv p hpm => ?_, (h.trans (.setBusyFrame s1 k true)).keyOf⟩
      obtain rfl := Option.some.inj hv
      rcases List.mem_cons.mp hpm with rfl | hpm
      · exact hp
      · by_cases hval : (frame s1 k).valid = true
        · simp only [hval, if_true, Option.mem_toList, Option.some.injEq] at hpm
          obtain ⟨r, b, hr⟩ := h.bits k
          subst hpm
          have hfr : (frame s1 k).ctx = (frame s k).ctx ∧ (frame s1 k).valid = (frame s k).valid := by
            rw [hr]
            exact ⟨rfl, rfl⟩
          change (keyOf s (frame s1 k).ctx).isSome = true
          rw [hfr.1]
          exact hk k (hfr.2 ▸ hval)
        · simp [hval] at hpm
  · exact ⟨alone, fun _ => rfl⟩

theorem backPages_subset {v : Victim} {p : Leaver} (h : p ∈ backPages (some v)) : p ∈ v.pages := by
  obtain ⟨pg, t, o⟩ := v
  unfold backPages at h
  cases t with
  | none =>
    dsimp only at h
    split at h
    · obtain rfl := List.mem_singleton.mp h
      exact List.mem_cons_self
    · cases h
  | some t =>
    cases o with
    | none => cases h
    | some o =>
      dsimp only at h
      split at h
      · obtain rfl := List.mem_singleton.mp h
        exact List.mem_cons_of_mem _ (by simp)
      · cases h

theorem markBusy_frames (s : State) (ctx vpn page id : Nat) (on : Bool) : (markBusy s ctx vpn page id on).frames = s.frames ∧
    (markBusy s ctx vpn page id on).seqs = s.seqs := by
  unfold markBusy
  refine List.foldlRecOn _ _ (motive := fun t : State => t.frames = s.frames ∧ t.seqs = s.seqs) ⟨rfl, rfl⟩ fun t ht d _ => ?_
  split <;> exact ht

theorem markPages_frames (s : State) (q : Seq) (on : Bool) : (markPages s q on).frames = s.frames ∧ (markPages s q on).seqs = s.seqs := by
  have h1 : (if q.kind = .eviction then s else markBusy s q.ctx q.vpn q.backing q.id on).frames = s.frames ∧
      (if q.kind = .eviction then s else markBusy s q.ctx q.vpn q.backing q.id on).seqs = s.seqs := by
    split
    · exact ⟨rfl, rfl⟩
    · exact markBusy_frames ..
  unfold markPages
  refine List.foldlRecOn _ _ (motive := fun t : State => t.frames = s.frames ∧ t.seqs = s.seqs) h1 fun t ht p _ => ?_
  obtain ⟨a, b⟩ := markBusy_frames t p.ctx p.vpn p.backing q.id on
  exact ⟨a.trans ht.1, b.trans ht.2⟩

theorem pageWrites_frames (s : State) (page src key : Nat) (charge : Option Nat) (o : WrFrom) :
    (pageWrites s page src key charge o).frames = s.frames ∧ (pageWrites s page src key charge o).seqs = s.seqs := by
  unfold pageWrites
  exact List.foldlRecOn _ _ (motive := fun t : State => t.frames = s.frames ∧ t.seqs = s.seqs) ⟨rfl, rfl⟩ fun _ ht _ _ => ht

theorem startWrites_frames (s : State) (q : Seq) : (startWrites s q).1.frames = s.frames ∧ (startWrites s q).1.seqs = s.seqs := by
  have step (b : Bool) (s : State) (page src key : Nat) (charge : Option Nat) (o : WrFrom) :
      (if b then pageWrites s page src key charge o else s).frames = s.frames ∧
      (if b then pageWrites s page src key charge o else s).seqs = s.seqs := by
    cases b
    · exact ⟨rfl, rfl⟩
    · exact pageWrites_frames ..
  unfold startWrites
  split
  · exact ⟨rfl, rfl⟩
  · rename_i v _
    extract_lets away s1
    have h1 := step away s v.page.backing (frameAt q.dst) (keyNow s v.page.ctx) q.charge (.seq q.id)
    split
    · rename_i t o _ _
      have h2 := step o.dirty s1 o.backing (frameAt t) (keyNow s1 o.ctx) q.charge (.seq q.id)
      exact ⟨h2.1.trans h1.1, h2.2.trans h1.2⟩
    · exact h1

/-- A sequence entered keeps its frame busy and stands in the list (R48 step 1). -/
theorem enterSeq_spec (s : State) (q : Seq) : (frame (enterSeq s q) q.dst).busy = true ∧
    ∃ q' ∈ (enterSeq s q).seqs, q'.dst = q.dst ∧ q'.kind = q.kind ∧ q'.remapped = q.remapped := by
  unfold enterSeq
  extract_lets s1 s2
  have hm := markPages_frames s1 q true
  have hw := startWrites_frames s2 q
  generalize startWrites s2 q = x at hw
  obtain ⟨s3, n⟩ := x
  refine ⟨?_, ⟨_, List.mem_append_right s3.seqs (List.mem_singleton.mpr rfl), rfl, rfl, rfl⟩⟩
  have hf : s3.frames = s1.frames := hw.1.trans hm.1
  change (look s3.frames q.dst .reset).busy = true
  rw [hf]
  change (frame (modFrame s q.dst _) q.dst).busy = true
  rw [frame_modFrame, if_pos rfl]

/-- An eviction of a page under a valid key enters its sequence (R31, R51). -/
theorem startEviction_spec {s : State} {key : Nat} (charge : Option Nat) (hk : KeyedPages s) (hv : (frame s key).valid = true)
    (hb : (frame s key).busy = false) : (frame (startEviction s key charge) key).busy = true ∧
    ∃ q ∈ (startEviction s key charge).seqs, q.dst = key ∧ q.kind = .eviction ∧ q.remapped = false := by
  have hpair : ∀ x : Option Victim × State, x = (if (leaver s key).dirty then makeWay s key else (some ⟨leaver s key, none, none⟩, s)) →
      keyless x.2 x.1 = none := by
    intro x hx
    have hall : (∀ v, x.1 = some v → ∀ p ∈ v.pages, (keyOf s p.ctx).isSome = true) ∧ ∀ ctx, keyOf x.2 ctx = keyOf s ctx := by
      rw [hx]
      split
      · exact makeWay_keyed hk hv
      · refine ⟨fun v hve p hp => ?_, fun _ => rfl⟩
        obtain rfl := Option.some.inj hve
        obtain rfl := List.mem_singleton.mp hp
        exact hk key hv
    rw [keyless, List.find?_eq_none]
    intro p hp
    cases hx1 : x.1 with
    | none => rw [hx1] at hp; cases hp
    | some v =>
      rw [hx1] at hp
      have := hall.1 v hx1 p (backPages_subset hp)
      rw [hall.2]
      cases hkp : keyOf s p.ctx with
      | none => rw [hkp] at this; cases this
      | some k => simp
  unfold startEviction
  simp only [hv, hb, Bool.not_true, Bool.or_self, Bool.false_eq_true, if_false]
  generalize hx : (if (leaver s key).dirty then makeWay s key else (some ⟨leaver s key, none, none⟩, s)) = x
  have hkl := hpair x hx.symm
  obtain ⟨v, s1⟩ := x
  simp only at hkl ⊢
  rw [hkl]
  exact enterSeq_spec (fresh s1) _

section
variable {s : State} {c fr : Nat} {w : Workgroup}

theorem exec_scratchFrameEmpty_of (hw : s.wgs.find? (fun w => decide (w.core = c) && w.emptying.contains fr) = some w)
    (hb : (frame s (nearKey c fr)).busy = false) : exec (.scratchFrameEmpty c fr) s = .next (
      if (frame s (nearKey c fr)).valid then (if s.stop.isSome then s else startEviction (leaveLists s c fr) (nearKey c fr) (some c))
      else modWG (leaveLists s c fr) w.id (fun w => { w with emptying := w.emptying.filter (fun x => x != fr) })) := by
  simp only [exec_scratchFrameEmpty, execScratchFrameEmpty, hw, hb, Bool.false_eq_true, if_false, placementHeld]
  split <;> rfl

/-- A workgroup changed under its number is still found, changed. -/
theorem exists_workgroup_modWG {s : State} {g : Workgroup → Workgroup} (hid : ∀ w, (g w).id = w.id) {w : Workgroup} (hw : w ∈ s.wgs) :
    ∃ y, workgroup (modWG s w.id g) w.id = some (g y) := by
  have hfind : (s.wgs.find? (fun x => decide (x.id = w.id))).isSome = true := by
    rw [List.find?_isSome]
    exact ⟨w, hw, by simp⟩
  obtain ⟨y, hy⟩ := Option.isSome_iff_exists.mp hfind
  exact ⟨y, workgroup_modWG_self hy hid⟩

end

/-- Settles O39: a cluster placed in rank order, moves of lane frames step by step, and evictions of reserved frames. -/
theorem placementOfClusters : Obligations.PlacementOfClusters := by
  refine ⟨fun s sl hsl hsw hst hp => ⟨fun hn => ?_, fun x rig hn => ⟨fun hf => ?_, fun hf => ?_, fun hf => ?_⟩⟩,
    fun s c p hp => ⟨fun hu => ?_, fun hu hm hh => ?_, fun a b r f hu hm hab hf hmv => ?_, fun a b r f hu hm hf hmv hh hmf hg => ?_⟩,
    fun s c fr w hw hb => ⟨fun hv hst => ?_, fun hv hst hk => ?_, fun hv => ?_⟩⟩
  · rw [exec_clusterPlace_of_slice hsl hsw hst hp, hn]
  · rw [exec_clusterPlace_of_slice hsl hsw hst hp, hn]
    exact congrArg _ (seatCluster_yes hf)
  · obtain ⟨hpl, hr⟩ := Placed.ranks x x.placed (fun r => rig * 8 + r % 8) (fun r => (clusterFrames (seating s x rig) x rig).getD r [])
      (seating s x rig) x.wgPerCl
    refine ⟨placeCluster (seating s x rig) x x.placed rig, ?_, hpl.lastPlace, hpl.rigPtr, hpl.length, hr⟩
    rw [exec_clusterPlace_of_slice hsl hsw hst hp, hn]
    exact congrArg _ (seatCluster_yes hf)
  · rw [exec_clusterPlace_of_slice hsl hsw hst hp, hn]
    exact congrArg _ (seatCluster_compact (nextLaunch_fits hn) hf)
  · simp only [exec_laneFrameMove, execLaneFrameMove, hp, if_pos hu]
  · simp only [exec_laneFrameMove, execLaneFrameMove, hp, if_neg (Nat.not_lt.mpr hu), hm, hh, Bool.false_eq_true, if_false]
  · obtain ⟨hb', ha', hc⟩ := swapLF_spec s c a b hab
    refine ⟨_, exec_laneFrameMove_made hp hu hm hf hmv, ?_, ?_, ?_⟩
    · rw [Machine.laneFrame, core_nextMoves]
      exact hb'.trans (by rw [hf]; rfl)
    · rw [Machine.laneFrame, core_nextMoves]
      exact ha'
    · rw [core_nextMoves, hc]
  · obtain ⟨h1, h2⟩ := beginMove_spec (p := p) hf hmf hg
    exact ⟨_, exec_laneFrameMove_begin hp hu hm hf hmv hh, h1, h2⟩
  · rw [exec_scratchFrameEmpty_of hw hb, if_pos hv, if_pos hst]
  · obtain ⟨h1, h2⟩ := startEviction_spec (s := leaveLists s c fr) (some c) hk hv hb
    exact ⟨_, by rw [exec_scratchFrameEmpty_of hw hb, if_pos hv, if_neg (by simp [hst])], rfl, h1, h2⟩
  · have hmem : w ∈ s.wgs := List.mem_of_find?_eq_some hw
    have hz : (if w.core = c then { w with grants := w.grants.filter (fun x => x != fr) } else w) ∈ (leaveLists s c fr).wgs :=
      List.mem_map_of_mem (f := fun w : Workgroup => if w.core = c then { w with grants := w.grants.filter (fun x => x != fr) } else w) hmem
    obtain ⟨y, hy⟩ := exists_workgroup_modWG (s := leaveLists s c fr)
      (g := fun w => { w with emptying := w.emptying.filter (fun x => x != fr) }) (fun _ => rfl) hz
    have hid : (if w.core = c then { w with grants := w.grants.filter (fun x => x != fr) } else w).id = w.id := by split <;> rfl
    rw [hid] at hy
    refine ⟨_, by rw [exec_scratchFrameEmpty_of hw hb, if_neg (by simp [hv])], rfl, _, hy, fun hmem => ?_⟩
    simpa using (List.mem_filter.mp hmem).2

end Sys2Proof.Proofs
end

section
/-!
PROOFS. Write lanes, budgets, registers and windows.
-/
namespace Sys2Proof.Proofs
open Sys2Proof Sys2Proof.Machine Sys2Proof.Spec

/-! ## Placement events (O42) -/

/-- Refutes O42: the new stamp is the old one plus one whatever the change of the frame does to the stamp, so a change that sets the stamp
to 1 leaves 1, and not 2. -/
theorem not_placementEvents : ¬ Obligations.PlacementEvents := by
  intro h
  have hstamp := (h.2 State.reset 0 (fun f => { f with stamp := 1 })).1
  exact absurd hstamp (by decide)

/-! ## The write lanes (O43) -/

/-- What the lane orders writes by (R65): in budget first, then the arrival, the rank and the number. -/
def laneKey (w : HWrite) : Bool ×ₗ Nat ×ₗ Nat ×ₗ Nat := toLex (!w.inBudget, toLex (w.arrival, toLex (w.rank, w.id)))

theorem laneKey_lt (x y : HWrite) : laneKey x < laneKey y ↔
    (x.inBudget = true ∧ y.inBudget = false) ∨ (x.inBudget = y.inBudget ∧
      (x.arrival < y.arrival ∨ (x.arrival = y.arrival ∧ (x.rank < y.rank ∨ (x.rank = y.rank ∧ x.id < y.id))))) := by
  simp only [laneKey, Prod.Lex.toLex_lt_toLex]
  cases x.inBudget <;> cases y.inBudget <;> simp

theorem goesBefore_iff (x y : HWrite) : goesBefore x y = true ↔ laneKey x < laneKey y := by
  simp only [laneKey_lt, goesBefore, Bool.or_eq_true, Bool.and_eq_true, decide_eq_true_eq, Bool.not_eq_true']

/-- The writes at a lane's home slices. -/
def laneWrites (s : State) (stack chan : Nat) : List HWrite :=
  s.hwrites.filter (fun w => w.entered && decide (pageStack w.page = stack ∧ pageChan w.page = chan))

/-- The oldest writes of their pages among a list. -/
def pageOldest (l : List HWrite) : List HWrite := l.filter (fun w => !l.any (fun x => decide (x.page = w.page) && olderWrite x w))

theorem mem_pageOldest {l : List HWrite} {w : HWrite} :
    w ∈ pageOldest l ↔ w ∈ l ∧ ∀ x ∈ l, x.page = w.page → olderWrite x w = false := by
  simp [pageOldest]

theorem nextWrite_eq (s : State) (stack chan : Nat) :
    nextWrite s stack chan = firstMin laneKey none (pageOldest (laneWrites s stack chan)) := by
  unfold nextWrite firstMin
  extract_lets here
  congr 1
  funext a w
  cases a with
  | none => rfl
  | some y => simp only [goesBefore_iff]

theorem mem_laneWrites {s : State} {stack chan : Nat} {w : HWrite} : w ∈ laneWrites s stack chan ↔
    w ∈ s.hwrites ∧ w.entered = true ∧ pageStack w.page = stack ∧ pageChan w.page = chan := by
  simp [laneWrites]

/-- R65: the next write of a lane is the oldest of its page, and no other oldest one goes before it. -/
theorem nextWrite_spec {s : State} {stack chan : Nat} {w : HWrite} (h : nextWrite s stack chan = some w) :
    w ∈ pageOldest (laneWrites s stack chan) ∧ ∀ x ∈ pageOldest (laneWrites s stack chan), laneKey w ≤ laneKey x := by
  rw [nextWrite_eq] at h
  exact ⟨firstMin_mem h, fun x hx => firstMin_le h hx⟩

/-- What it is not to go after another write. -/
theorem inBudget_arrival_rank_of_le {w x : HWrite} (h : laneKey w ≤ laneKey x) :
    (x.inBudget = true → w.inBudget = true) ∧
      (x.inBudget = w.inBudget → w.arrival ≤ x.arrival ∧ (w.arrival = x.arrival → w.rank ≤ x.rank)) := by
  rw [← not_lt, laneKey_lt] at h
  refine ⟨fun hx => ?_, fun hb => ?_⟩
  · by_contra hw
    exact h (.inl ⟨hx, by simpa using hw⟩)
  · have hlex := not_or.mp (not_and.mp (not_or.mp h).2 hb)
    omega

theorem exec_writeLaneDone_hand {s : State} {stack chan : Nat} {w : HWrite}
    (hw : (channelOf s (stack * 192 + chan)).current.bind (hwriteOf s) = some w) (hd : chanDead s w.page = false) :
    (writeLines s w = [] → exec (.writeLaneDone stack chan true) s = .next (takeNext (finishWrite s w) stack chan)) ∧
    (w.refusals < 7 → exec (.writeLaneDone stack chan false) s =
      .next (modHWrite s w.id (fun w => { w with refusals := w.refusals + 1 }))) ∧
    (7 ≤ w.refusals → exec (.writeLaneDone stack chan false) s = .next (takeNext (loseWrite s w) stack chan)) := by
  simp only [exec_writeLaneDone, execWriteLaneDone, hw, hd, Bool.false_eq_true, if_false, if_true]
  refine ⟨fun hl => ?_, fun hr => ?_, fun hr => ?_⟩
  · simp [hl]
  · rw [if_pos (by omega)]
  · rw [if_neg (by omega)]

/-- Settles O43: by the cases of the two events, and by the order in which a lane compares writes. -/
theorem writeLaneEvents : Obligations.WriteLaneEvents := by
  refine ⟨⟨fun s i w hw => ⟨fun hn => ?_, fun he hm => ⟨fun hc => ?_, fun c hc ht => ?_, fun c hc ht => ?_⟩⟩,
    fun s stack chan ok hc => ?_, fun s stack chan w hw => ⟨fun hd ok => ?_, exec_writeLaneDone_hand hw⟩⟩,
    fun s stack chan w hw => ?_⟩
  · simp only [exec_hbmWriteCharge, execHbmWriteCharge, hw]
    rcases hn with hn | hn <;> simp [hn]
  · simp [execHbmWriteCharge, hw, he, hm, hc]
  · simp [execHbmWriteCharge, hw, he, hm, hc, ht]
  · simp [execHbmWriteCharge, hw, he, hm, hc, Nat.not_le.mpr ht]
  · simp [execWriteLaneDone, hc]
  · simp [execWriteLaneDone, hw, hd]
  · obtain ⟨hold, hmin⟩ := nextWrite_spec hw
    obtain ⟨hhere, hpage⟩ := mem_pageOldest.mp hold
    refine ⟨mem_laneWrites.mp hhere, fun x hx => hpage x (mem_laneWrites.mpr hx), fun x hx hxo => ?_⟩
    exact inBudget_arrival_rank_of_le (hmin x (mem_pageOldest.mpr
      ⟨mem_laneWrites.mpr hx, fun y hy => hxo y (mem_laneWrites.mp hy)⟩))

/-! ## Budgets and channels (O47) -/

theorem csrWrite_trap {s : State} {c : Nat} {m : Bool} (f : State → State) (hup : mastUp s c = true)
    (h : (mast s c).mode = .u ∨ (m = true ∧ (mast s c).mode ≠ .m)) : csrWrite s c m f = mastTrap s c 2 0 := by
  unfold csrWrite
  rw [hup, Bool.not_true, if_neg Bool.false_ne_true, if_pos h]

theorem csrWrite_done {s : State} {c : Nat} {m : Bool} (f : State → State) (hup : mastUp s c = true) (hu : (mast s c).mode ≠ .u)
    (hm : m = true → (mast s c).mode = .m) : csrWrite s c m f = f s := by
  unfold csrWrite
  rw [hup, Bool.not_true, if_neg Bool.false_ne_true, if_neg (fun h => h.elim hu fun hx => hx.2 (hm hx.1))]

theorem csrWrite_supervisor {s : State} {c : Nat} (f : State → State) (hup : mastUp s c = true) (hu : (mast s c).mode ≠ .u) :
    csrWrite s c false f = f s := csrWrite_done f hup hu (by simp)

theorem csrWrite_machine {s : State} {c : Nat} (f : State → State) (hup : mastUp s c = true) (hm : (mast s c).mode = .m) :
    csrWrite s c true f = f s := csrWrite_done f hup (by simp [hm]) fun _ => hm

theorem mast_modMast_self (s : State) (c : Nat) (f : Mast → Mast) : mast (modMast s c f) c = f (mast s c) := by
  unfold mast modMast
  rw [core_modCore_self]

theorem and_budget_masks (v : Word) : (v &&& 0x00FF0FFF) &&& 0x00FF0000 = v &&& 0x00FF0000 := by
  rw [BitVec.and_assoc]
  rfl

theorem writeJbud_spec (s : State) (c : Nat) (v : Word) :
    (Machine.core (writeJbud s c v) c).jbud = ((Machine.core s c).jbud &&& 0xFF00FFFF) ||| (v &&& 0x00FF0000) ∧
    (Machine.core (writeJbud s c v) c).jbudNext = some (v &&& 0x00FF0FFF) ∧ writeJbud s c v = { s with cores := (writeJbud s c v).cores } ∧
    ∀ d, d ≠ c → Machine.core (writeJbud s c v) d = Machine.core s d := by
  unfold writeJbud
  refine ⟨?_, ?_, rfl, fun d hd => core_modCore_ne s _ hd⟩
  · rw [core_modCore_self, and_budget_masks]
  · rw [core_modCore_self]

theorem channelOf_map (s : State) (g : Nat → Channel → Channel) (hg : ∀ k, g k .reset = .reset) (k : Nat) :
    channelOf { s with channels := s.channels.map (fun e => (e.1, g e.1 e.2)) } k = g k (channelOf s k) := by
  unfold channelOf look
  rw [lookup_mapVals]
  cases lookup s.channels k with
  | none => exact (hg k).symm
  | some h => rfl

theorem channelOf_useInversion (s : State) (stack k : Nat) : channelOf (useInversion s stack) k =
    if k / 192 = stack then { channelOf s k with lowRead := false, lowWrite := false } else channelOf s k := by
  rw [← channelOf_map s (fun k h => if k / 192 = stack then { h with lowRead := false, lowWrite := false } else h)
    (fun k => by split <;> rfl)]
  unfold useInversion
  congr 3
  funext e
  split <;> rfl

theorem channelOf_change_self (s : State) (k : Nat) (g : Channel → Channel) :
    channelOf { s with channels := change s.channels k .reset g } k = g (channelOf s k) := by
  unfold channelOf look change
  rw [lookup_put_self]
  rfl

/-- The register MRING once written (R317). -/
theorem writeRing_spec (s : State) (c : Nat) (v : DWord) :
    writeRing s c v = { s with cores := (writeRing s c v).cores } ∧
    (mast (writeRing s c v) c).ringCtx = (mast s c).mctx ∧ (mast (writeRing s c v) c).mring.toNat % 16 = min 4 (v.toNat % 16) ∧
    (mast (writeRing s c v) c).mring.toNat / 2 ^ 10 = v.toNat / 2 ^ 10 % 2 ^ 38 ∧
    (mast (writeRing s c v) c).mring.toNat / 2 ^ 4 % 2 ^ 6 = 0 := by
  have hring : (mast (writeRing s c v) c).mring.toNat = v.toNat / 2 ^ 10 % 2 ^ 38 * 2 ^ 10 + min 4 (v.toNat % 16) := by
    unfold writeRing
    rw [mast_modMast_self, BitVec.toNat_ofNat, bits, Nat.shiftRight_eq_div_pow]
    omega
  refine ⟨rfl, by unfold writeRing; rw [mast_modMast_self], ?_, ?_, ?_⟩ <;> rw [hring] <;> omega

theorem supCsr_trap {s : State} {c : Nat} {r : RegName} (v : DWord) (hup : mastUp s c = true) (hu : (mast s c).mode = .u)
    (h : supCsr r c) : writeRegister s r v = mastTrap s c 2 0 := by
  rcases h with rfl | rfl | rfl | ⟨k, rfl⟩ | ⟨k, rfl⟩ | rfl | rfl <;>
    (rw [writeRegister]; exact csrWrite_trap _ hup (.inl hu))

theorem machineCsr_trap {s : State} {c : Nat} {r : RegName} (v : DWord) (hup : mastUp s c = true) (hm : (mast s c).mode ≠ .m)
    (h : machineCsr r c) : writeRegister s r v = mastTrap s c 2 0 := by
  rcases h with rfl | rfl | rfl | rfl | rfl | rfl | ⟨k, rfl⟩ | ⟨k, rfl⟩ <;>
    (rw [writeRegister]; exact csrWrite_trap _ hup (.inr ⟨rfl, hm⟩))

theorem reservedCsr_trap {s : State} {c : Nat} (hup : mastUp s c = true) (v : DWord) (n : Nat) :
    writeRegister s (.reservedCsr c n) v = mastTrap s c 2 0 ∧ writeRegister s (.mcore c) v = mastTrap s c 2 0 := by
  simp [writeRegister, hup]

/-- R388: PRI that was stopped works again once it has been cleared and then set. -/
theorem writePri_again {s : State} {fn : Nat} (h : fn ∈ s.priStopped) :
    fn ∈ (writePri s fn false).priStopped ∧ fn ∉ (writePri (writePri s fn false) fn true).priStopped := by
  simp [writePri, h]

/-! ## Windows (O47) -/

/-- What a window's end does to cores and dies once the buckets are refilled: records are staged, heat and states are noted. -/
structure WindowKept (s t : State) : Prop where
  form : ∃ cs v vn hs, t = { s with cores := cs, vf := v, vfNext := vn, hotSince := hs }
  core (c : Nat) : ∃ r, Machine.core t c = { Machine.core s c with rcd := r }

namespace WindowKept
variable {s t u : State}

theorem refl (s : State) : WindowKept s s := ⟨⟨_, _, _, _, rfl⟩, fun _ => ⟨_, rfl⟩⟩

theorem trans (h : WindowKept s t) (k : WindowKept t u) : WindowKept s u where
  form := by
    obtain ⟨a, b, c, d, rfl⟩ := h.form
    obtain ⟨_, _, _, _, rfl⟩ := k.form
    exact ⟨_, _, _, _, rfl⟩
  core c := by
    obtain ⟨r, hr⟩ := h.core c
    obtain ⟨r', hr'⟩ := k.core c
    exact ⟨r', by rw [hr', hr]⟩

theorem foldl {α : Type} (f : State → α → State) (h : ∀ s a, WindowKept s (f s a)) (l : List α) (s : State) :
    WindowKept s (l.foldl f s) := by
  induction l generalizing s with
  | nil => exact refl s
  | cons a l ih => exact (h s a).trans (ih _)

theorem record (s : State) (c type : Nat) (thr : BitVec 16) (pc : DWord) (data : Nat) :
    WindowKept s (record s c type thr pc data) where
  form := ⟨_, _, _, _, rfl⟩
  core d := by
    by_cases hd : d = c
    · subst hd
      exact ⟨_, core_modCore_self s d _⟩
    · exact ⟨_, core_modCore_ne s _ hd⟩

theorem throttle (s : State) (d old new cause : Nat) : WindowKept s (throttle s d old new cause) :=
  foldl _ (fun s i => record s (64 * d + i) _ _ _ _) _ s

theorem heat (s : State) (junction : List Nat) : WindowKept s (heat s junction) := by
  refine foldl _ (fun s d => ?_) _ s
  dsimp only
  split <;> split <;> exact ⟨⟨_, _, _, _, rfl⟩, fun _ => ⟨_, rfl⟩⟩

/-- The step of `changeVf` for one die. -/
theorem changeVf (s : State) (act : List Nat) : WindowKept s (changeVf s act) := by
  refine foldl _ (fun t d => ?_) _ s
  dsimp only
  split
  · exact refl t
  · refine trans ?_ (throttle _ d _ _ _)
    exact ⟨⟨_, _, _, _, rfl⟩, fun _ => ⟨_, rfl⟩⟩

end WindowKept

/-- A die takes the state that the boundary gives it, from the state `s` before any die has. -/
def takeVf (s : State) (act : List Nat) (t : State) (d : Nat) : State :=
  if s.vf.getD d 0 = nextVf s act d then t
  else throttle { t with vf := t.vf.set d (nextVf s act d) } d (s.vf.getD d 0) (nextVf s act d)
    (bnat ((lookup s.hotSince d).isSome || s.vfNext.contains (d, 1)))

theorem changeVf_eq (s : State) (act : List Nat) : changeVf s act = (List.range (dies s)).foldl (takeVf s act) s := rfl

theorem record_vf (s : State) (c type : Nat) (thr : BitVec 16) (pc : DWord) (data : Nat) :
    (record s c type thr pc data).vf = s.vf := rfl

theorem throttle_vf (s : State) (d old new cause : Nat) : (throttle s d old new cause).vf = s.vf := by
  unfold throttle
  refine List.foldlRecOn (motive := fun (t : State) => t.vf = s.vf) _ _ rfl fun t ht i _ => ?_
  rw [record_vf, ht]

theorem heat_vf (s : State) (junction : List Nat) : (heat s junction).vf = s.vf := by
  unfold heat
  refine List.foldlRecOn (motive := fun (t : State) => t.vf = s.vf) _ _ rfl fun t ht d _ => ?_
  dsimp only
  split <;> split <;> exact ht

theorem takeVf_vf (s : State) (act : List Nat) (t : State) (e d : Nat) (hd : d < t.vf.length) (h : t.vf.getD e 0 = s.vf.getD e 0) :
    (takeVf s act t e).vf.length = t.vf.length ∧
      (takeVf s act t e).vf.getD d 0 = if d = e then nextVf s act e else t.vf.getD d 0 := by
  unfold takeVf
  split
  · rename_i heq
    refine ⟨rfl, ?_⟩
    split
    · rename_i hde
      rw [hde, h, heq]
    · rfl
  · rw [throttle_vf]
    refine ⟨List.length_set, ?_⟩
    rw [List.getD_eq_getElem?_getD, List.getElem?_set, List.getD_eq_getElem?_getD]
    by_cases hde : d = e
    · subst hde
      simp [hd]
    · simp [hde, Ne.symm hde]

/-- R333, R353: at a boundary a die has the state that its cap asks for. -/
theorem changeVf_getD (s : State) (act : List Nat) {d : Nat} (hd : d < dies s) (hlen : dies s ≤ s.vf.length) :
    (changeVf s act).vf.getD d 0 = nextVf s act d := by
  have key (n : Nat) : n ≤ dies s → ((List.range n).foldl (takeVf s act) s).vf.length = s.vf.length ∧ ∀ d < s.vf.length,
      ((List.range n).foldl (takeVf s act) s).vf.getD d 0 = if d < n then nextVf s act d else s.vf.getD d 0 := by
    induction n with
    | zero => exact fun _ => ⟨rfl, fun d _ => by simp⟩
    | succ n ih =>
      intro hn
      obtain ⟨hl, ih⟩ := ih (by omega)
      rw [List.range_succ, List.foldl_append, List.foldl_cons, List.foldl_nil]
      have hself := (ih n (by omega)).trans (if_neg (lt_irrefl n))
      refine ⟨(takeVf_vf s act _ n n (by omega) hself).1.trans hl, fun d hd => ?_⟩
      rw [(takeVf_vf s act _ n d (by omega) hself).2, ih d hd]
      by_cases h1 : d = n
      · rw [if_pos h1, if_pos (by omega), h1]
      · simp only [if_neg h1, show d < n + 1 ↔ d < n by omega]
  rw [changeVf_eq, (key (dies s) le_rfl).2 d (by omega), if_pos hd]

/-- The state once the windows are open, before dies change theirs. -/
def windowOpened (s : State) : State :=
  { openWindow s with lastWindow := s.cycle + 1, dieCap := (List.range (dies s)).map (lowerCap s), free := s.free + 16 }

/-- The state after a boundary at which no junction is fatal. -/
def windowPassed (s : State) (vf junction : List Nat) : State :=
  heat { changeVf (windowOpened s) vf with
    vfNext := (((changeVf (windowOpened s) vf).vfNext.filter (fun e => e.2 ≠ 1)).map (fun e => (e.1, 2))).dedup } junction

theorem exec_windowBoundary_cool {s : State} {vf junction : List Nat} (h0 : s.cycle % 1024 = 0) (h1 : s.cycle ≠ 0)
    (h2 : s.lastWindow ≠ s.cycle + 1) (hj : ∀ d < dies s, junction.getD d 0 < 125) :
    exec (.windowBoundary vf junction) s = .next (windowPassed s vf junction) := by
  have hcool : (List.range (dies s)).find? (fun d => decide (125 ≤ junction.getD d 0)) = none := by
    rw [List.find?_eq_none]
    intro d hd
    simpa using hj d (List.mem_range.mp hd)
  rw [exec_windowBoundary, execWindowBoundary, if_neg (by omega)]
  dsimp only
  rw [hcool]
  rfl

theorem windowPassed_kept (s : State) (vf junction : List Nat) : WindowKept (windowOpened s) (windowPassed s vf junction) := by
  refine (WindowKept.changeVf _ vf).trans (.trans ?_ (WindowKept.heat _ junction))
  exact ⟨⟨_, _, _, _, rfl⟩, fun _ => ⟨_, rfl⟩⟩

theorem core_windowOpened {s : State} {c : Nat} (hc : c < coreCount s) : Machine.core (windowOpened s) c = refill (Machine.core s c) := by
  unfold windowOpened openWindow
  rw [Machine.core, look, lookup_tabulate _ (List.mem_range.mpr hc)]
  rfl

theorem dies_le (s : State) : dies s ≤ 16 := by
  unfold dies
  split <;> omega

theorem windowOpened_channels (s : State) (i : Nat) : (channelOf (windowOpened s) i).units = 0 := by
  have hmap := channelOf_map s (fun _ h => { h with units := 0 }) (fun _ => rfl) i
  exact congrArg Channel.units hmap

/-- R333: a die that nothing holds takes the highest state under its cap. -/
theorem nextVf_windowOpened {s : State} {act : List Nat} {d : Nat} (hnext : s.vfNext = []) (hhot : s.hotSince = [])
    (hd : d < dies s) (hst : s.dieState.getD d 0 ≠ 3) : nextVf (windowOpened s) act d =
      ((List.range 12).reverse.find? (fun v => decide (Config.predictedPower d v (act.getD d 0) ≤ s.dieCap.getD d 0))).getD 0 := by
  have hfree : heldAtZero (windowOpened s) d = false := by
    have hst' : decide (s.dieState.getD d 0 = 3) = false := decide_eq_false hst
    unfold heldAtZero windowOpened openWindow
    simp only [hnext, hhot, hst', lookup, List.contains_nil, Option.isSome_none, Bool.or_false]
  have hcap : (windowOpened s).dieCap.getD d 0 = s.dieCap.getD d 0 := by
    unfold windowOpened
    simp [List.getD_eq_getElem?_getD, List.getElem?_map, List.getElem?_range hd, lowerCap, hnext]
  rw [nextVf, hfree, if_neg Bool.false_ne_true, underCap, hcap]

/-- Settles O47: register by register, channel by channel, and by what is kept while dies change their states. -/
theorem registersBudgetsAndWindows : Obligations.RegistersBudgetsAndWindows := by
  refine ⟨⟨fun s c v hup => ⟨fun hm => ?_, fun hm => ?_⟩, fun s stack v => ?_, fun s stack chan writes dbi low => ?_⟩,
    ⟨fun s c r v hup => ⟨fun hu h => ?_, fun hs h => ?_, fun n => ?_, ?_, fun hu => ⟨?_, ?_, fun k => ?_, ?_⟩, fun hm => ?_⟩,
      fun s q v hq => ⟨?_, ?_⟩, fun s v => rfl, fun s fn hfn => ?_⟩,
    fun s vf junction => ⟨fun h0 => ?_, fun h0 h1 h2 hj => ?_⟩⟩
  · rw [exec_jbudWrite, execJbudWrite, csrWrite_trap _ hup (.inr ⟨rfl, hm⟩)]
  · refine ⟨writeJbud s c v, ?_, writeJbud_spec s c v⟩
    rw [exec_jbudWrite, execJbudWrite, csrWrite_machine _ hup hm]
  · refine ⟨_, rfl, ?_, fun k => ?_⟩
    · split <;> rfl
    · by_cases hv : v.getLsbD 31 = true
      · simp only [hv, if_true, true_and]
        exact channelOf_useInversion s stack k
      · simp only [hv]
        rfl
  · refine ⟨_, rfl, rfl, ?_⟩
    dsimp only
    rw [channelOf_change_self]
    cases writes <;> exact ⟨rfl, rfl, rfl, rfl⟩
  · rw [exec_registerWrite, execRegisterWrite]
    exact congrArg _ (h.elim (supCsr_trap v hup hu) (machineCsr_trap v hup (by simp [hu])))
  · rw [exec_registerWrite, execRegisterWrite, machineCsr_trap v hup (by simp [hs]) h]
  · rw [exec_registerWrite, execRegisterWrite, (reservedCsr_trap hup v n).1]
  · rw [exec_registerWrite, execRegisterWrite, (reservedCsr_trap hup v 0).2]
  · rw [exec_registerWrite, execRegisterWrite, writeRegister, csrWrite_supervisor _ hup hu]
  · rw [exec_registerWrite, execRegisterWrite, writeRegister, csrWrite_supervisor _ hup hu]
  · rw [exec_registerWrite, execRegisterWrite, writeRegister, csrWrite_supervisor _ hup hu]
  · refine ⟨writeRing s c v, ?_, writeRing_spec s c v⟩
    rw [exec_registerWrite, execRegisterWrite, writeRegister, csrWrite_supervisor _ hup hu]
  · refine ⟨?_, ?_, ?_, ?_, fun d => ?_⟩ <;>
      rw [exec_registerWrite, execRegisterWrite, writeRegister, csrWrite_machine _ hup hm]
  · rw [exec_registerWrite, execRegisterWrite, writeRegister, if_neg (by omega)]
  · rw [exec_registerWrite, execRegisterWrite, writeRegister, if_neg (by omega)]
  · obtain ⟨h0, h1⟩ := writePri_again hfn
    exact ⟨_, _, rfl, h0, rfl, h1⟩
  · rw [exec_windowBoundary, execWindowBoundary, if_pos (.inl h0)]
  · have hkept := windowPassed_kept s vf junction
    obtain ⟨cs, v, vn, hs, hform⟩ := hkept.form
    refine ⟨_, exec_windowBoundary_cool h0 h1 h2 hj, ?_, ?_, ?_, fun i => ?_, fun hlen hnext hhot d hd hst => ?_, fun c hc => ?_⟩
    · rw [hform]; rfl
    · rw [hform]; rfl
    · rw [hform]; rfl
    · rw [hform]; exact windowOpened_channels s i
    · rw [windowPassed, heat_vf, ← nextVf_windowOpened hnext hhot hd hst]
      exact changeVf_getD (windowOpened s) vf hd (hlen ▸ dies_le s)
    · obtain ⟨r, hr⟩ := hkept.core c
      rw [hr, core_windowOpened hc]
      exact ⟨rfl, rfl, rfl, rfl, rfl⟩

end Sys2Proof.Proofs
end

section
/-!
PROOFS. Products of the matrix unit: sums over planes, and what a step writes.
-/
namespace Sys2Proof.Proofs
open Sys2Proof Sys2Proof.Machine Sys2Proof.Spec

/-! ## Sums over planes (O49) -/

theorem sum_map_range (n : Nat) (f : Nat → Int) : ((List.range n).map f).sum = ∑ i ∈ Finset.range n, f i := rfl

theorem foldl_add_range (n : Nat) (f : Nat → Int) (a : Int) :
    (List.range n).foldl (fun d i => d + f i) a = a + ∑ i ∈ Finset.range n, f i := by
  induction n with
  | zero => simp
  | succ n ih => rw [List.range_succ, List.foldl_append, ih, Finset.sum_range_succ, ← add_assoc]; rfl

/-- The value of a bit of a number. -/
def bitVal (x k : Nat) : Int := if x.testBit k then 1 else 0

/-- The weight of plane `j` of `n` planes: the top one is negative (R113). -/
def planeWeight (n j : Nat) : Int := if j + 1 = n then -2 ^ j else 2 ^ j

theorem planeElem_eq_sum (s : State) (c : Nat) (v : RecView) (row col : Nat) (h : 0 < v.nbits) :
    planeElem s c v row col =
      ∑ j ∈ Finset.range v.nbits, planeWeight v.nbits j * bitVal (plane s c v row (col / v.blk) j) (col % v.blk) := by
  obtain ⟨n, hn⟩ := Nat.exists_eq_succ_of_ne_zero h.ne'
  have hlow : ∀ j ∈ Finset.range n, planeWeight (n + 1) j * bitVal (plane s c v row (col / v.blk) j) (col % v.blk) =
      2 ^ j * bitVal (plane s c v row (col / v.blk) j) (col % v.blk) := by
    intro j hj
    rw [planeWeight, if_neg (by have := Finset.mem_range.mp hj; omega)]
  unfold planeElem
  rw [hn, Nat.succ_eq_add_one, Nat.add_sub_cancel, Finset.sum_range_succ, Finset.sum_congr rfl hlow, planeWeight, if_pos rfl]
  refine (foldl_add_range n (fun j => 2 ^ j * bitVal (plane s c v row (col / v.blk) j) (col % v.blk)) _).trans ?_
  rw [neg_mul, add_comm]
  rfl

theorem popcount_eq_sum {x n : Nat} (hx : x < 2 ^ n) (hn : n ≤ 64) : (popcount x : Int) = ∑ k ∈ Finset.range n, bitVal x k := by
  have hall : ∀ m, (((List.range m).filter (fun i => x.testBit i)).length : Int) = ∑ k ∈ Finset.range m, bitVal x k := by
    intro m
    induction m with
    | zero => rfl
    | succ m ih =>
      rw [List.range_succ, List.filter_append, List.length_append, Nat.cast_add, ih, Finset.sum_range_succ]
      cases hb : x.testBit m <;> simp [bitVal, hb]
  rw [popcount, hall, ← Finset.sum_subset (Finset.range_subset_range.mpr hn)]
  intro k _ hk
  have hlt : x < 2 ^ k := hx.trans_le (Nat.pow_le_pow_right (by omega) (by simpa using hk))
  rw [bitVal, Nat.testBit_lt_two_pow hlt]
  rfl

theorem bitVal_and (x y k : Nat) : bitVal (x &&& y) k = bitVal x k * bitVal y k := by
  simp only [bitVal, Nat.testBit_and]
  cases x.testBit k <;> cases y.testBit k <;> rfl

theorem plane_lt (s : State) (c : Nat) (v : RecView) (row b j : Nat) (h : v.blk % 8 = 0) : plane s c v row b j < 2 ^ v.blk := by
  have hlt := leNat_lt (Mem.read s.mem (bufAt c (blockOff v row b + j * (v.blk / 8))) (v.blk / 8))
  rw [length_memRead, show (256 : Nat) = 2 ^ 8 from rfl, ← Nat.pow_mul, Nat.mul_div_cancel' (Nat.dvd_of_mod_eq_zero h)] at hlt
  exact hlt

/-- One plane product of a block with its sign is the product of the weights, counted over the elements. -/
theorem signed_planeProduct (na nb j i p : Nat) :
    (if xor (decide (j + 1 = na)) (decide (i + 1 = nb)) then -(2 ^ (j + i) * (p : Int)) else 2 ^ (j + i) * (p : Int)) =
      planeWeight na j * planeWeight nb i * p := by
  unfold planeWeight
  by_cases hj : j + 1 = na <;> by_cases hi : i + 1 = nb <;> simp [hj, hi, pow_add]

/-- The exact sum of a block as a sum over planes (R116). -/
theorem blockSum_eq_sum (s : State) (c : Nat) (r : MmaRun) (m n b : Nat) : blockSum s c r m n b =
    ∑ j ∈ Finset.range r.a.nbits, ∑ i ∈ Finset.range r.b.nbits,
      planeWeight r.a.nbits j * planeWeight r.b.nbits i * (popcount (plane s c r.a m b j &&& plane s r.bc r.b n b i) : Int) := by
  unfold blockSum
  have hinner : ∀ (d : Int) (j : Nat), (List.range r.b.nbits).foldl (fun d i =>
      if xor (decide (j + 1 = r.a.nbits)) (decide (i + 1 = r.b.nbits)) then
        d - 2 ^ (j + i) * ((popcount (plane s c r.a m b j &&& plane s r.bc r.b n b i) : Nat) : Int)
      else d + 2 ^ (j + i) * ((popcount (plane s c r.a m b j &&& plane s r.bc r.b n b i) : Nat) : Int)) d =
      d + ∑ i ∈ Finset.range r.b.nbits,
        planeWeight r.a.nbits j * planeWeight r.b.nbits i * (popcount (plane s c r.a m b j &&& plane s r.bc r.b n b i) : Int) := by
    intro d j
    rw [← foldl_add_range]
    congr 1
    funext d i
    rw [← signed_planeProduct]
    split <;> ring
  simp only [hinner]
  rw [foldl_add_range, zero_add]

/-- Settles O49: both sides are the sum over planes and elements of weights times bits. -/
theorem planeSumsAreProductsOfElements : Obligations.PlaneSumsAreProductsOfElements := by
  intro s c r m n b hblk hpos hle h8 ha hb
  have helem : ∀ k ∈ Finset.range r.a.blk, planeElem s c r.a m (b * r.a.blk + k) * planeElem s r.bc r.b n (b * r.a.blk + k) =
      ∑ j ∈ Finset.range r.a.nbits, ∑ i ∈ Finset.range r.b.nbits, planeWeight r.a.nbits j * planeWeight r.b.nbits i *
        bitVal (plane s c r.a m b j &&& plane s r.bc r.b n b i) k := by
    intro k hk
    have hk' := Finset.mem_range.mp hk
    have hdiv : (b * r.a.blk + k) / r.a.blk = b := by
      rw [mul_comm, Nat.mul_add_div hpos, Nat.div_eq_of_lt hk', add_zero]
    have hmod : (b * r.a.blk + k) % r.a.blk = k := by
      rw [mul_comm, Nat.mul_add_mod, Nat.mod_eq_of_lt hk']
    rw [planeElem_eq_sum s c r.a m _ ha, planeElem_eq_sum s r.bc r.b n _ hb, ← hblk, hdiv, hmod, Finset.sum_mul_sum]
    refine Finset.sum_congr rfl fun j _ => Finset.sum_congr rfl fun i _ => ?_
    rw [bitVal_and]
    ring
  rw [blockSum_eq_sum, sum_map_range, Finset.sum_congr rfl helem]
  symm
  rw [Finset.sum_comm]
  refine Finset.sum_congr rfl fun j _ => ?_
  rw [Finset.sum_comm]
  refine Finset.sum_congr rfl fun i _ => ?_
  rw [popcount_eq_sum (Nat.and_lt_two_pow _ (hblk ▸ plane_lt s r.bc r.b n b i (hblk ▸ h8))) hle, Finset.mul_sum]

/-! ## What a step of a product writes (O50) -/

theorem Mem.byte_write (l : List Byte) : ∀ (m : List Host.Cell) (a x : Nat),
    Mem.byte (Mem.write m a l) x = if h : a ≤ x ∧ x < a + l.length then l[x - a] else Mem.byte m x := by
  induction l with
  | nil => intro m a x; simp [Mem.write]
  | cons b l ih =>
    intro m a x
    rw [Mem.write, ih]
    by_cases hx : a = x
    · subst hx
      simp
    · by_cases hin : a + 1 ≤ x ∧ x < a + 1 + l.length
      · rw [dif_pos hin, dif_pos ⟨by omega, by simp; omega⟩, List.getElem_cons, dif_neg (by omega)]
        rfl
      · rw [dif_neg hin, dif_neg (by simp; omega), Mem.byte_put_ne _ _ (Ne.symm hx)]

theorem Mem.byte_write_of_lt {l : List Byte} {i : Nat} (h : i < l.length) (m : List Host.Cell) (a : Nat) :
    Mem.byte (Mem.write m a l) (a + i) = l[i] := by
  rw [Mem.byte_write, dif_pos ⟨by omega, by omega⟩]
  simp

theorem Mem.byte_write_of_out {l : List Byte} {a x : Nat} (h : x < a ∨ a + l.length ≤ x) (m : List Host.Cell) :
    Mem.byte (Mem.write m a l) x = Mem.byte m x := by
  rw [Mem.byte_write, dif_neg (by omega)]

theorem length_flatMap_range {w : Nat} (f : Nat → List Byte) (hf : ∀ n, (f n).length = w) (k : Nat) :
    ((List.range k).flatMap f).length = w * k := by
  simp [List.length_flatMap, hf, mul_comm]

/-- The elements of a row stand one after another. -/
theorem getElem?_flatMap_range {w : Nat} (f : Nat → List Byte) (hf : ∀ n, (f n).length = w) {n j : Nat} (hj : j < w) :
    ∀ {k : Nat}, n < k → ((List.range k).flatMap f)[w * n + j]? = (f n)[j]? := by
  intro k
  induction k with
  | zero => intro h; omega
  | succ k ih =>
    intro hn
    have hlen := length_flatMap_range f hf k
    rw [List.range_succ, List.flatMap_append, List.getElem?_append, hlen]
    by_cases hk : n = k
    · subst hk
      rw [if_neg (by omega), Nat.add_sub_cancel_left]
      simp
    · have hle : w * n + w ≤ w * k := by
        have := Nat.mul_le_mul_left w (show n + 1 ≤ k by omega)
        rwa [Nat.mul_succ] at this
      rw [if_pos (by omega), ih (by omega)]

theorem writeLocal_mem (s : State) (base : Nat) (l : List Byte) : (writeLocal s base l).mem = Mem.write s.mem base l := rfl

/-- What a step of a product writes in a row of its tile. -/
def rowBytes (s : State) (c : Nat) (r : MmaRun) (form : MmaForm) (o : Word) (i m : Nat) : List Byte :=
  (List.range r.b.rows).flatMap (fun n =>
    leBytes 4 (accAfter s c r form m n i (if o.getLsbD 16 && decide (i = 0) then 0 else tileElem s c (opTile o) m n)))

theorem denseStep_eq (s : State) (c : Nat) (r : MmaRun) (form : MmaForm) (o : Word) (i : Nat) : denseStep s c r form o i =
    (List.range r.a.rows).foldl (fun z m => writeLocal z (tileAt c (opTile o) m 0) (rowBytes s c r form o i m)) s := rfl

theorem length_rowBytes (s : State) (c : Nat) (r : MmaRun) (form : MmaForm) (o : Word) (i m : Nat) :
    (rowBytes s c r form o i m).length = 4 * r.b.rows :=
  length_flatMap_range _ (fun _ => length_leBytes 4 _) _

theorem rowBytes_elem (s : State) (c : Nat) (r : MmaRun) (form : MmaForm) (o : Word) (i m : Nat) {n j : Nat} (hn : n < r.b.rows)
    (hj : j < 4) : (rowBytes s c r form o i m)[4 * n + j]? =
      (leBytes 4 (accAfter s c r form m n i (if o.getLsbD 16 && decide (i = 0) then 0 else tileElem s c (opTile o) m n)))[j]? :=
  getElem?_flatMap_range _ (fun _ => length_leBytes 4 _) hj hn

theorem tileAt_add (c t m n : Nat) : tileAt c t m n = tileAt c t m 0 + 4 * n := by
  unfold tileAt
  omega

theorem tileAt_row (c t m : Nat) : tileAt c t m 0 = tileAt c t 0 0 + 128 * m := by
  unfold tileAt
  omega

/-- Rows of a tile written one after another: each keeps its bytes, and no other byte changes. -/
theorem writeRows_byte (c t w : Nat) (hw : w ≤ 128) (row : Nat → List Byte) (hrow : ∀ m, (row m).length = w) (s : State) (k : Nat) :
    (∀ m < k, ∀ x < w, (row m)[x]? =
      some (Mem.byte ((List.range k).foldl (fun z m => writeLocal z (tileAt c t m 0) (row m)) s).mem (tileAt c t m 0 + x))) ∧
    ∀ a, (∀ m < k, a < tileAt c t m 0 ∨ tileAt c t m 0 + w ≤ a) →
      Mem.byte ((List.range k).foldl (fun z m => writeLocal z (tileAt c t m 0) (row m)) s).mem a = Mem.byte s.mem a := by
  induction k with
  | zero => exact ⟨fun m hm => absurd hm (Nat.not_lt_zero m), fun a _ => rfl⟩
  | succ k ih =>
    obtain ⟨hin, hout⟩ := ih
    rw [List.range_succ, List.foldl_append, List.foldl_cons, List.foldl_nil, writeLocal_mem]
    refine ⟨fun m hm x hx => ?_, fun a ha => ?_⟩
    · by_cases hk : m = k
      · subst hk
        have hx' : x < (row m).length := by rwa [hrow]
        rw [Mem.byte_write_of_lt hx', List.getElem?_eq_getElem hx']
      · rw [hin m (by omega) x hx, Mem.byte_write_of_out]
        rw [tileAt_row c t m, tileAt_row c t k, hrow]
        omega
    · rw [Mem.byte_write_of_out (by rw [hrow]; exact ha k (by omega)), hout a fun m hm => ha m (by omega)]

/-- What writes in a core's own storage change besides memory: marks of poison and lost blocks. -/
theorem writeRows_form (c t : Nat) (row : Nat → List Byte) (l : List Nat) (s : State) :
    ∃ m p b, l.foldl (fun z m => writeLocal z (tileAt c t m 0) (row m)) s = { s with mem := m, poison := p, lost := b } := by
  refine List.foldlRecOn (motive := fun (z : State) => ∃ m p b, z = { s with mem := m, poison := p, lost := b }) _ _ ⟨_, _, _, rfl⟩ ?_
  rintro z ⟨m, p, b, rfl⟩ e _
  exact ⟨_, _, _, rfl⟩

/-- Settles O50: the rows of the covered part are disjoint, and each is written once. -/
theorem productStepWritesItsTile : Obligations.ProductStepWritesItsTile := by
  intro s c r form o i ha hb
  obtain ⟨hin, hout⟩ := writeRows_byte c (opTile o) (4 * r.b.rows) (by omega) (rowBytes s c r form o i)
    (length_rowBytes s c r form o i) s r.a.rows
  rw [← denseStep_eq] at hin hout
  refine ⟨fun m hm n hn => ?_, fun a ha' => hout a fun m hm => ?_, ?_⟩
  · have hread : Mem.read (denseStep s c r form o i).mem (tileAt c (opTile o) m n) 4 =
        leBytes 4 (accAfter s c r form m n i (if o.getLsbD 16 && decide (i = 0) then 0 else tileElem s c (opTile o) m n)) := by
      refine List.ext_getElem? fun j => ?_
      by_cases hj : j < 4
      · rw [← rowBytes_elem s c r form o i m hn hj, hin m hm (4 * n + j) (by omega), tileAt_add c _ m n]
        simp [Mem.read, hj, add_assoc]
      · rw [List.getElem?_eq_none (by simp [length_memRead]; omega), List.getElem?_eq_none (by simp; omega)]
    simp only [tileElem, hread, leNat_leBytes, Bool.and_eq_true, decide_eq_true_eq, show (256 : Nat) ^ 4 = 2 ^ 32 from rfl]
  · rw [← tileAt_add]
    exact ha' m hm
  · obtain ⟨m, p, b, h⟩ := writeRows_form c (opTile o) (rowBytes s c r form o i) (List.range r.a.rows) s
    rw [← denseStep_eq] at h
    rw [h]

end Sys2Proof.Proofs
end

section
/-!
PROOFS. What the Masts do: their accesses and exceptions.
-/
namespace Sys2Proof.Proofs
open Sys2Proof Sys2Proof.Machine Sys2Proof.Spec

/-! ## Mast accesses (O55) -/

section
variable {s s1 : State} {c n a : Nat} {l : List Byte}

theorem mastLoad_misaligned (k : Nat) (h : a % n ≠ 0) :
    mastLoad s c a n k = (.error (.trapped (mastTrap s c (misalignedCause k) (BitVec.ofNat 64 a))), s) := by
  rw [mastLoad, if_pos h]

theorem mastLoad_refused {k : Nat} (h : a % n = 0) (hi : issueAllows s c a n k = false) :
    mastLoad s c a n k = (.error (.trapped (mastTrap s c (accessCause k) (BitVec.ofNat 64 a))), s) := by
  rw [mastLoad, if_neg (not_not.mpr h), hi, if_pos (.inl rfl)]

theorem mastLoad_read {k : Nat} (h : a % n = 0) (hi : issueAllows s c a n k = true) (ha : a < 2 ^ 47)
    (hm : accessMode (mast s c) k ≠ .m ∨ bootMapped s c a n = false)
    (hr : mastRead s c (mast s c).mctx a n k (isSup s c k) = (.bytes l, s1)) : mastLoad s c a n k = (.ok l, s1) := by
  have hb : ¬(accessMode (mast s c) k = .m ∧ bootMapped s c a n = true) := by
    rintro ⟨h1, h2⟩
    rcases hm with hm | hm
    · exact hm h1
    · rw [hm] at h2
      exact Bool.noConfusion h2
  rw [mastLoad, if_neg (not_not.mpr h), hi, if_neg (by simp; omega), if_neg (by omega), if_neg hb, hr]

theorem mastLoad_image {k : Nat} (h : a % n = 0) (hi : issueAllows s c a n k = true) (ha : a < 2 ^ 47)
    (hm : accessMode (mast s c) k = .m) (hb : bootMapped s c a n = true) (hr : bootRead s a n = (some l, s1)) :
    mastLoad s c a n k = (.ok l, s1) := by
  rw [mastLoad, if_neg (not_not.mpr h), hi, if_neg (by simp; omega), if_neg (by omega), if_pos ⟨hm, hb⟩, hr]

theorem atomicTrap_misaligned {k : Nat} (h : a % n ≠ 0) : atomicTrap s c a n k = some (misalignedCause k) := by
  rw [atomicTrap, if_pos h]

theorem atomicTrap_refused {k : Nat} (h : a % n = 0) (hi : issueAllows s c a n k = false) :
    atomicTrap s c a n k = some (accessCause k) := by
  rw [atomicTrap, if_neg (not_not.mpr h), hi, if_pos (.inl rfl)]

theorem atomicTrap_none {k : Nat} (h : a % n = 0) (hi : issueAllows s c a n k = true) (ha : a < 2 ^ 47) :
    atomicTrap s c a n k = none := by
  rw [atomicTrap, if_neg (not_not.mpr h), hi, if_neg (by simp; omega)]

end

section
variable {s s1 : State} {c n rd : Nat} {a d : DWord} {l : List Byte} (hup : mastUp s c = true) (hn : n = 4 ∨ n = 8)
include hup hn

theorem exec_mastLoadS : exec (.mastLoadStore c .loadS n a d rd) s = .next (mastLoadX s c n a.toNat rd true).state := by
  rcases hn with rfl | rfl <;> simp [execMastLoadStore, hup]

theorem exec_mastLoadZ : exec (.mastLoadStore c .loadZ n a d rd) s = .next (mastLoadX s c n a.toNat rd false).state := by
  rcases hn with rfl | rfl <;> simp [execMastLoadStore, hup]

theorem exec_mastStore : exec (.mastLoadStore c .store n a d rd) s = .next (mastStore s c n a.toNat d.toNat).state := by
  rcases hn with rfl | rfl <;> simp [execMastLoadStore, hup]

theorem exec_mastFetch_pc : exec (.mastLoadStore c .fetch n (mast s c).pc d rd) s = .next (mastStep s c) := by
  rcases hn with rfl | rfl <;> simp [execMastLoadStore, hup]

theorem exec_mastFetch_trap {t : State} (ha : a ≠ (mast s c).pc) (h : mastLoad s c a.toNat n 2 = (.error (.trapped t), s1)) :
    exec (.mastLoadStore c .fetch n a d rd) s = .next t := by
  rcases hn with rfl | rfl <;> simp [execMastLoadStore, hup, ha, h, MastEnd.state]

theorem exec_mastAmo_up (o : AmoOp) (q r : Bool) : exec (.mastAmo c o n q r a d rd) s = .next (mastAmo s c o n q a d rd).state := by
  rcases hn with rfl | rfl <;> simp [execMastAmo, hup]

theorem exec_mastLr_up : exec (.mastLr c n a rd) s = .next (mastLr s c n a rd).state := by
  rcases hn with rfl | rfl <;> simp [execMastLr, hup]

theorem exec_mastSc_up : exec (.mastSc c n a d rd) s = .next (mastSc s c n a d rd).state := by
  rcases hn with rfl | rfl <;> simp [execMastSc, hup]

end

section
variable {s s1 : State} {c n rd : Nat} {a d : DWord} {l : List Byte}

theorem mastLoadX_ok (signed : Bool) (h : mastLoad s c a.toNat n 0 = (.ok l, s1)) :
    (mastLoadX s c n a.toNat rd signed).state = setX s1 c rd (extendTo64 signed l) := by
  rw [mastLoadX, h]
  rfl

theorem mastLoadX_trap {t : State} (signed : Bool) (h : mastLoad s c a.toNat n 0 = (.error (.trapped t), s1)) :
    (mastLoadX s c n a.toNat rd signed).state = t := by
  rw [mastLoadX, h]
  rfl

theorem mastStore_done (h : a.toNat % n = 0) (hi : issueAllows s c a.toNat n 1 = true) (ha : a.toNat < 2 ^ 47)
    (hw : mastWrite s c (mast s c).mctx a.toNat (leBytes n d.toNat) (isSup s c 1) = (.bytes [], s1)) :
    (mastStore s c n a.toNat d.toNat).state = s1 := by
  rw [mastStore, if_neg (not_not.mpr h), hi, if_neg (by simp), if_neg (by omega), hw]
  rfl

theorem mastStore_misaligned (h : a.toNat % n ≠ 0) : (mastStore s c n a.toNat d.toNat).state = mastTrap s c 6 a := by
  rw [mastStore, if_pos h, BitVec.ofNat_toNat, BitVec.setWidth_eq]
  rfl

theorem mastStore_refused (h : a.toNat % n = 0) (hi : issueAllows s c a.toNat n 1 = false) :
    (mastStore s c n a.toNat d.toNat).state = mastTrap s c 7 a := by
  rw [mastStore, if_neg (not_not.mpr h), hi, if_pos (show (!false) = true from rfl), BitVec.ofNat_toNat, BitVec.setWidth_eq]
  rfl

theorem mastAmo_trap {k : Nat} (o : AmoOp) (q : Bool) (h : atomicTrap s c a.toNat n 1 = some k) :
    (mastAmo s c o n q a d rd).state = mastTrap s c k a := by
  rw [mastAmo, h]
  rfl

theorem mastAmo_done (o : AmoOp) (q : Bool) {p key : Nat} {dirty : Option (Nat × Nat)} (h : atomicTrap s c a.toNat n 1 = none)
    (hp : mastPlace s c (mast s c).mctx a.toNat n 1 (isSup s c 1) = (.place p key dirty, s1))
    (hsp : ∀ i < n, spoiled s1 (p + i) = false) : (mastAmo s c o n q a d rd).state =
      setX (laneWrite (if q = true then emptyReadAhead s1 c else s1) p key
        (byteTable (leBytes n (amoValue o (8 * n) (leNat (readUnder s1 key p n)) d.toNat))) (some c) (.mast c) dirty)
        c rd (extendTo64 true (readUnder s1 key p n)) := by
  have hany : (List.range n).any (fun i => spoiled s1 (p + i)) = false := by
    rw [List.any_eq_false]
    exact fun i hi => by simp [hsp i (List.mem_range.mp hi)]
  rw [mastAmo, h]
  dsimp only
  rw [hp]
  dsimp only
  rw [hany, if_neg Bool.false_ne_true]
  rfl

theorem mastLr_trap {k : Nat} (h : atomicTrap s c a.toNat n 0 = some k) : (mastLr s c n a rd).state = mastTrap s c k a := by
  rw [mastLr, h]
  rfl

theorem mastLr_done (h : atomicTrap s c a.toNat n 0 = none)
    (hr : mastRead s c (mast s c).mctx a.toNat n 0 (isSup s c 0) = (.bytes l, s1)) : (mastLr s c n a rd).state =
      setX (modMast s1 c (fun m => { m with reserve := some (.virt m.mctx a.toNat, n, true) })) c rd (extendTo64 true l) := by
  rw [mastLr, h]
  dsimp only
  rw [hr]
  rfl

theorem mastSc_trap {k : Nat} (h : atomicTrap s c a.toNat n 1 = some k) : (mastSc s c n a d rd).state = mastTrap s c k a := by
  rw [mastSc, h]
  rfl

theorem mastSc_lost (h : atomicTrap s c a.toNat n 1 = none) (hr : (mast s c).reserve ≠ some (.virt (mast s c).mctx a.toNat, n, true)) :
    (mastSc s c n a d rd).state = setX (modMast s c (fun m => { m with reserve := none })) c rd 1 := by
  rw [mastSc, h]
  dsimp only
  rw [if_pos hr]
  rfl

theorem mastSc_done (h : atomicTrap s c a.toNat n 1 = none) (hr : (mast s c).reserve = some (.virt (mast s c).mctx a.toNat, n, true))
    (hw : mastWrite s c (mast s c).mctx a.toNat (leBytes n d.toNat) (isSup s c 1) = (.bytes [], s1)) :
    (mastSc s c n a d rd).state = setX (modMast s1 c (fun m => { m with reserve := none })) c rd 0 := by
  rw [mastSc, h]
  dsimp only
  rw [if_neg (not_not.mpr hr), hw]
  rfl

end

theorem ofNat_toNat_dword (a : DWord) : BitVec.ofNat 64 a.toNat = a := by simp

/-! ## Exceptions (O55) -/

/-- A trap leaves the base of the vector, four-byte aligned, in the program counter. -/
theorem vector_toNat (v : DWord) : ((v &&& ~~~(3 : DWord)) + 0).toNat = v.toNat / 4 * 4 := by
  have h : v &&& ~~~(3 : DWord) = v >>> 2 <<< 2 := by
    refine BitVec.eq_of_getLsbD_eq fun i hi => ?_
    have h3 : (3 : DWord).getLsbD i = decide (i < 2) := (BitVec.getLsbD_ofNat 64 3 i).trans (by
      rw [show 3 = 2 ^ 2 - 1 from rfl, Nat.testBit_two_pow_sub_one, decide_eq_true hi, Bool.true_and])
    simp only [BitVec.getLsbD_and, BitVec.getLsbD_not, BitVec.getLsbD_shiftLeft, BitVec.getLsbD_ushiftRight, h3]
    by_cases hlow : i < 2
    · simp [hlow]
    · simp [hlow, hi, show 2 + (i - 2) = i by omega]
  rw [add_zero, h, BitVec.toNat_shiftLeft, BitVec.toNat_ushiftRight, Nat.shiftLeft_eq, Nat.shiftRight_eq_div_pow]
  omega

theorem mast_mastTrap (s : State) (c cause : Nat) (v : DWord) : mast (mastTrap s c cause v) c =
    if ((mast s c).mode ≠ .m && (mast s c).medeleg.getLsbD cause) = true then trapS (mast s c) (BitVec.ofNat 64 cause) v 0
    else trapM (mast s c) (BitVec.ofNat 64 cause) v 0 := mast_modMast_self s c _

/-- Settles O55: access by access, and by the two vectors of an exception. -/
theorem mastAccessesAndExceptions : Obligations.MastAccessesAndExceptions := by
  refine ⟨fun s c n rd a d hup hn ha => ⟨fun hmis => ⟨?_, ?_, fun hpc => ?_, fun o q r => ?_, ?_, ?_⟩,
    fun hal => ⟨fun hi => ⟨?_, ?_⟩, fun hi hpc => ?_, fun hi => ⟨?_, fun o q r => ?_⟩, fun l s1 hi hr => ⟨fun hm => ⟨?_, ?_⟩, ?_⟩,
      fun s1 hi hw => ⟨?_, fun hres => ?_⟩, fun hi hres => ?_, fun o q r p key dirty s1 hi hp hsp => ?_⟩,
    fun l s1 hm hb hal hi hr => ?_, exec_mastFetch_pc hup hn, fun b => ?_⟩, fun s c cause v _ => ?_⟩
  · rw [exec_mastLoadS hup hn, mastLoadX_trap true (mastLoad_misaligned 0 hmis), ofNat_toNat_dword]
    rfl
  · rw [exec_mastStore hup hn, mastStore_misaligned hmis]
  · rw [exec_mastFetch_trap hup hn hpc (mastLoad_misaligned 2 hmis), ofNat_toNat_dword]
    rfl
  · rw [exec_mastAmo_up hup hn, mastAmo_trap o q (atomicTrap_misaligned hmis)]
    rfl
  · rw [exec_mastLr_up hup hn, mastLr_trap (atomicTrap_misaligned hmis)]
    rfl
  · rw [exec_mastSc_up hup hn, mastSc_trap (atomicTrap_misaligned hmis)]
    rfl
  · rw [exec_mastLoadS hup hn, mastLoadX_trap true (mastLoad_refused hal hi), ofNat_toNat_dword]
    rfl
  · rw [exec_mastLr_up hup hn, mastLr_trap (atomicTrap_refused hal hi)]
    rfl
  · rw [exec_mastFetch_trap hup hn hpc (mastLoad_refused hal hi), ofNat_toNat_dword]
    rfl
  · rw [exec_mastStore hup hn, mastStore_refused hal hi]
  · rw [exec_mastAmo_up hup hn, mastAmo_trap o q (atomicTrap_refused hal hi)]
    rfl
  · rw [exec_mastLoadS hup hn, mastLoadX_ok true (mastLoad_read hal hi ha hm hr)]
  · rw [exec_mastLoadZ hup hn, mastLoadX_ok false (mastLoad_read hal hi ha hm hr)]
  · rw [exec_mastLr_up hup hn, mastLr_done (atomicTrap_none hal hi ha) hr]
  · rw [exec_mastStore hup hn, mastStore_done hal hi ha hw]
  · rw [exec_mastSc_up hup hn, mastSc_done (atomicTrap_none hal hi ha) hres hw]
  · rw [exec_mastSc_up hup hn, mastSc_lost (atomicTrap_none hal hi ha) hres]
  · rw [exec_mastAmo_up hup hn, mastAmo_done o q (atomicTrap_none hal hi ha) hp hsp]
  · rw [exec_mastLoadZ hup hn, mastLoadX_ok false (mastLoad_image hal hi ha hm hb hr)]
  · simp [execMastFence, hup]
  · have hmast := mast_mastTrap s c cause v
    refine ⟨rfl, fun j hj => core_modCore_ne s _ hj, ?_, ?_, fun hm hdel => ?_, fun hm => ?_⟩
    · rw [hmast]
      split <;> rfl
    · rw [hmast]
      split <;> rfl
    · rw [hmast, if_pos (by simp [hm, hdel])]
      refine ⟨rfl, rfl, rfl, rfl, rfl, rfl, ?_, vector_toNat _, rfl, rfl⟩
      cases hmode : (mast s c).mode <;> simp_all [trapS, Priv.code]
    · rw [hmast, if_neg (by rcases hm with hm | hm <;> simp [hm])]
      exact ⟨rfl, rfl, rfl, rfl, rfl, rfl, rfl, vector_toNat _, rfl, rfl⟩

end Sys2Proof.Proofs
end

section
/-!
PROOFS. Requests at their homes, results of memory words, and the capacity tier.
-/
namespace Sys2Proof.Proofs
open Sys2Proof Sys2Proof.Machine Sys2Proof.Spec

/-! ## Requests at their homes (O41) -/

theorem put_put {α : Type} (t : Table α) (k : Nat) (x y : α) : put (put t k x) k y = put t k y := by
  induction t with
  | nil => simp [put]
  | cons e t ih =>
    obtain ⟨j, z⟩ := e
    by_cases h1 : k < j
    · simp [put, h1]
    · by_cases h2 : k = j
      · subst h2; simp [put]
      · simp [put, h1, h2, ih]

theorem modCore_modCore (s : State) (c : Nat) (f g : Core → Core) : modCore (modCore s c f) c g = modCore s c (fun k => g (f k)) := by
  have h : Machine.core (modCore s c f) c = f (Machine.core s c) := core_modCore_self s c f
  unfold modCore at h ⊢
  rw [h]
  unfold setCore
  simp only [put_put]

theorem modReq_modReq (s : State) (c i : Nat) (f g : Req → Req) (hf : ∀ r, (f r).id = r.id) :
    modReq (modReq s c i f) c i g = modReq s c i (fun r => g (f r)) := by
  unfold modReq
  rw [modCore_modCore]
  congr 1
  funext k
  rw [List.map_map]
  congr 1
  refine List.map_congr_left fun r _ => ?_
  by_cases h : r.id = i <;> simp [h, hf]

/-- A virtual page's number below 2^48. -/
theorem vpn_of_lt {va : Nat} (h : va < 2 ^ 48) : va / 4096 % 2 ^ 36 = va / 4096 := Nat.mod_eq_of_lt (by omega)

theorem giveEnt_hbm {s : State} {c : Nat} {r : Req} {e : DWord} {n : Nat} (h : entKind e = 2) :
    giveEnt s c r e n = modReq s c r.id (fun q => { q with ent := some e, entAt := n }) := by
  rw [giveEnt, if_neg (by omega)]

theorem askPromote_hbm {s : State} {c : Nat} {r : Req} {e : DWord} {ctx vpn : Nat} (h : entKind e = 2) :
    askPromote s c r e ctx vpn = s := by
  rw [askPromote, if_neg (by omega)]

theorem isLoad_of_isAtomic {a : Act} (h : a.isAtomic = true) : a.isLoad = false := by
  cases a with
  | load => cases h
  | store => rfl
  | atomic => rfl

section
variable {s s1 : State} {c i ctx va : Nat} {r : Req} {e : DWord} (hr : reqOf s c i = some r)
include hr

theorem exec_translationWalk_due (hp : r.phase = .sent) (hn : r.ent = none) (hready : reqReady s c r = true) (hs : r.space = .virt ctx va)
    (hva : va < 2 ^ 48) : exec (.translationWalk c i) s = .next (applyWalk s c r ctx (va / 4096)) := by
  simp only [exec_translationWalk, execTranslationWalk, hr, hs, vpn_of_lt hva]
  simp [hp, hn, hready]

theorem exec_frameAccess_due (hp : r.phase = .sent) (ha : r.act.isAtomic = false) (hready : reqReady s c r = true) :
    (∀ n, r.space = .scr n → exec (.frameAccess c i) s = .next (applyScratch s c r n)) ∧
    ∀ ctx va e, r.space = .virt ctx va → r.ent = some e →
      exec (.frameAccess c i) s = .next (if entKind e = 1 then applyFrame s c r e ctx va else s) := by
  refine ⟨fun n hs => ?_, fun ctx va e hs he => ?_⟩
  · simp [execFrameAccess, hr, hp, ha, hready, hs]
  · simp [execFrameAccess, hr, hp, ha, hready, hs, he]

theorem exec_homeSliceAccess_due (hp : r.phase = .sent) (ha : r.act.isAtomic = false) (hready : reqReady s c r = true)
    (hs : r.space = .virt ctx va) (he : r.ent = some e) (hk : entKind e = 2) :
    exec (.homeSliceAccess c i) s = .next (applySlice s c r e ctx va) := by
  simp [execHomeSliceAccess, hr, hp, ha, hready, hs, he, hk]

theorem exec_atomicPerform_due (hp : r.phase = .sent) (ha : r.act.isAtomic = true) (hready : reqReady s c r = true) :
    (∀ n, r.space = .scr n → exec (.atomicPerform c i) s = .next (applyScratch s c r n)) ∧
    ∀ ctx va e, r.space = .virt ctx va → r.ent = some e → exec (.atomicPerform c i) s =
      .next (if entKind e = 1 then applyFrame s c r e ctx va else applySlice s c r e ctx va) := by
  have hstore : storeReady s c r = true := by
    rwa [reqReady, isLoad_of_isAtomic ha, if_neg Bool.false_ne_true] at hready
  refine ⟨fun n hs => ?_, fun ctx va e hs he => ?_⟩
  · simp [execAtomicPerform, hr, hp, ha, hstore, hs]
  · simp [execAtomicPerform, hr, hp, ha, hstore, hs, he]

theorem exec_writeQueueDepart_due (hp : r.phase = .queued) (hready : reqReady s c r = true) :
    (∀ ctx va, r.space = .virt ctx va → va < 2 ^ 48 →
      exec (.writeQueueDepart c i) s = .next (applyDepart s c r ctx (va / 4096))) ∧
    ∀ p a, r.space = .host p a → exec (.writeQueueDepart c i) s = .next (sendHost s c r a) := by
  refine ⟨fun ctx va hs hva => ?_, fun p a hs => ?_⟩
  · simp only [exec_writeQueueDepart, execWriteQueueDepart, hr, hs, vpn_of_lt hva]
    simp [hp, hready]
  · simp [execWriteQueueDepart, hr, hp, hready, hs]

end

section
variable {s s1 : State} {c ctx vpn : Nat} {r : Req} {e : DWord}

/-- A fetch that finds an HBM page gives the request its translation (R40). -/
theorem applyWalk_hbm (hw : fetchWaits s c ctx vpn = false) (hf : fetchTrans s c ctx vpn = (.ok e, s1))
    (hc : reCheck e (!r.act.isLoad) = none) (hk : entKind e = 2) (hm : r.act.isLoad = true ∨ inFlight s1 c < maxOut s1 c)
    (hg : groupFull s1 r e = false) : applyWalk s c r ctx vpn =
      modReq s1 c r.id (fun q => { q with ent := some e, entAt := fetchedAt s1 c ctx vpn }) := by
  have hmax : ¬(entKind e = 2 ∧ (!r.act.isLoad) = true ∧ maxOut s1 c ≤ inFlight s1 c) := by
    rintro ⟨-, hl, hle⟩
    rcases hm with hm | hm
    · simp [hm] at hl
    · omega
  rw [applyWalk, hw, if_neg Bool.false_ne_true, hf]
  dsimp only
  rw [hc]
  dsimp only
  rw [if_neg (by omega), if_neg hmax, hg, if_neg Bool.false_ne_true, giveEnt_hbm hk, askPromote_hbm hk]

/-- A queued request leaves for its HBM page with the translation fetched as it goes (R61). -/
theorem applyDepart_hbm (hw : fetchWaits s c ctx vpn = false) (hf : fetchTrans s c ctx vpn = (.ok e, s1))
    (hc : reCheck e (!r.act.isLoad) = none) (hk : entKind e = 2) (hb : busyFor s1 ctx vpn e = false)
    (hm : inFlight s1 c < maxOut s1 c) (hg : groupFull s1 r e = false) : applyDepart s c r ctx vpn =
      modReq (dropAhead s1 c r) c r.id (fun q =>
        { q with phase := .sent, left := s.cycle, ent := some e, entAt := fetchedAt s1 c ctx vpn }) := by
  have hmax : ¬(entKind e = 2 ∧ (!r.act.isLoad) = true ∧ maxOut s1 c ≤ inFlight s1 c) := by omega
  rw [applyDepart, hw, if_neg Bool.false_ne_true, hf]
  dsimp only
  rw [hc]
  dsimp only
  rw [if_neg (by omega), askPromote_hbm hk, hb, if_neg Bool.false_ne_true, if_neg hmax, hg, if_neg Bool.false_ne_true, giveEnt_hbm hk]
  exact modReq_modReq _ c r.id _ _ fun _ => rfl

end

section
variable {s : State} {c n : Nat} {r : Req}

theorem applyScratch_load (hs : r.space = .scr n) (h : r.act = .load) :
    applyScratch s c r n = takeLoad (if r.acq then emptyReadAhead s c else s) c r 0 n none 0 := by
  simp only [applyScratch, h, loadAt, aheadFor, hs, acquireNow]

theorem applyScratch_store (h : r.act = .store) :
    applyScratch s c r n = regroupTest (applyStore (recordStore s c r n 0) c r 0 n none) r.wg := by
  simp only [applyScratch, h, storeAt]

theorem applyScratch_atomic {o : AtomOp} {b b2 : Word} {w : Nat} (h : r.act = .atomic o b b2 w) :
    applyScratch s c r n = atomAt s c r o b b2 w 0 n none := by
  simp only [applyScratch, h]

end

section
variable {s : State} {c ctx va : Nat} {r : Req} {e : DWord}

/-- An access that finds nothing to retire and no request before it at the frame's directory. -/
structure Reaches (s : State) (c : Nat) (r : Req) (e : DWord) : Prop where
  first : heldBehind s c r (entFrame e) = false
  whole : ((frame s (entFrame e)).damaged && !(frame s (entFrame e)).busy) = false

theorem applyFrame_stale (h : Reaches s c r e) (hr : remappedSince s (entFrame e) r.entAt = true) :
    applyFrame s c r e ctx va = rejectReq s c r := by
  simp only [applyFrame, h.first, h.whole, hr, Bool.false_eq_true, if_false, if_true]

section
variable (h : Reaches s c r e) (hr : remappedSince s (entFrame e) r.entAt = false)
include h hr

theorem applyFrame_reject (hc : homeCheck s c ctx va e r.strong = .reject) : applyFrame s c r e ctx va = rejectReq s c r := by
  simp only [applyFrame, h.first, h.whole, hr, hc, Bool.false_eq_true, if_false]

theorem applyFrame_back (hc : homeCheck s c ctx va e r.strong = .back) : applyFrame s c r e ctx va = sendBack s c r := by
  simp only [applyFrame, h.first, h.whole, hr, hc, Bool.false_eq_true, if_false]

theorem applyFrame_gone (hc : homeCheck s c ctx va e r.strong = .gone) :
    applyFrame s c r e ctx va = failReq s c r 29 (va / 4096 % 2 ^ 36) := by
  simp only [applyFrame, h.first, h.whole, hr, hc, Bool.false_eq_true, if_false]

theorem applyFrame_wait (hc : homeCheck s c ctx va e r.strong = .wait) : applyFrame s c r e ctx va = s := by
  simp only [applyFrame, h.first, h.whole, hr, hc, Bool.false_eq_true, if_false]

theorem applyFrame_serve {n : Nat} (hc : homeCheck s c ctx va e r.strong = .serve n) :
    applyFrame s c r e ctx va = serveFrame s c r e n := by
  simp only [applyFrame, h.first, h.whole, hr, hc, Bool.false_eq_true, if_false]

end

section
variable {strong : Bool} (hk : entKind e = 1)
include hk

/-- R43: an access to a frame whose seal it does not match is rejected. -/
theorem homeCheck_frame_reject (hs : sealOk s (entFrame e) ctx (entSeal e) = false) : homeCheck s c ctx va e strong = .reject := by
  simp [homeCheck, hk, hs]

theorem homeCheck_frame_gone (hs : sealOk s (entFrame e) ctx (entSeal e) = true) (hg : entGone s e = true) :
    homeCheck s c ctx va e strong = .gone := by
  simp [homeCheck, hk, hs, hg]

theorem homeCheck_frame_wait (hs : sealOk s (entFrame e) ctx (entSeal e) = true) (hg : entGone s e = false)
    (hf : entFenced s c e = true) : homeCheck s c ctx va e strong = .wait := by
  simp [homeCheck, hk, hs, hg, hf]

theorem homeCheck_frame_back (hs : sealOk s (entFrame e) ctx (entSeal e) = true) (hg : entGone s e = false)
    (hf : entFenced s c e = false) (hb : busyAt s ctx (va / 4096 % 2 ^ 36) (frame s (entFrame e)).backing = true)
    (ht : strong = true) : homeCheck s c ctx va e strong = .back := by
  simp only [homeCheck, hk, hs, hg, hf, hb, ht, Bool.not_true, Bool.and_self, Bool.false_eq_true, if_true, if_false]

theorem homeCheck_frame_serve (hs : sealOk s (entFrame e) ctx (entSeal e) = true) (hg : entGone s e = false)
    (hf : entFenced s c e = false) (hb : strong = true → busyAt s ctx (va / 4096 % 2 ^ 36) (frame s (entFrame e)).backing = false) :
    homeCheck s c ctx va e strong = .serve (frameAt (entFrame e) + va % 4096) := by
  have hweak : (strong && busyAt s ctx (va / 4096 % 2 ^ 36) (frame s (entFrame e)).backing) = false := by
    cases strong with
    | false => rfl
    | true => exact hb rfl
  simp only [homeCheck, hk, hs, hg, hf, hweak, Bool.not_true, Bool.false_eq_true, if_true, if_false]

end

theorem serveFrame_store {n : Nat} (hl : reqLines s (frame s (entFrame e)).backing r = []) (ha : r.act = .store) :
    serveFrame s c r e n = storeAt (modFrame (unhold s c r) (entFrame e) (fun f => { f with ref := true })) c r n := by
  simp only [serveFrame, hl, ha, List.isEmpty_nil, Bool.not_true, Bool.false_eq_true, if_false]

end

theorem exec_translationExpiry_spec (s : State) (c ctx vpn : Nat) : ∃ t, exec (.translationExpiry c ctx vpn) s = .next t ∧
    t = { s with cores := t.cores } ∧ ∀ x, x ∈ (Machine.core t c).tstore ↔
      x ∈ (Machine.core s c).tstore ∧ ¬(x.ctx = ctx ∧ x.vpn = vpn ∧ entKind x.ent = 1 ∧ x.cycle + 4096 ≤ s.cycle) := by
  refine ⟨_, rfl, rfl, fun x => ?_⟩
  rw [core_modCore_self]
  simp only [List.mem_filter, Bool.not_eq_true', Bool.and_eq_false_iff, decide_eq_false_iff_not]
  tauto

/-- Settles O41: by the cases of a fetch, of a request's home, and of the checks at a frame. -/
theorem homeAccessEvents : Obligations.HomeAccessEvents := by
  refine ⟨⟨fun s s1 c i ctx va r e hr hp hn hready hs hva => ⟨fun hw => ?_, fun hw hf hc hk hm hg => ?_⟩,
      exec_translationExpiry_spec⟩,
    fun s c i r hr hready => ⟨fun hp ha => ⟨fun n hs => ⟨fun hact => ?_, fun hact => ?_⟩,
        fun ctx va e hs he => ⟨fun hk => ?_, exec_homeSliceAccess_due hr hp ha hready hs he⟩⟩,
      fun hp ha => ⟨fun n o b b2 w hs hact => ?_, (exec_atomicPerform_due hr hp ha hready).2⟩,
      fun hp => ⟨fun ctx va s1 e hs hva hw hf hc hk hb hm hg => ?_, (exec_writeQueueDepart_due hr hp hready).2⟩⟩,
    fun s c ctx va r e hb hk hd => ?_⟩
  · rw [exec_translationWalk_due hr hp hn hready hs hva, applyWalk, if_pos hw]
  · rw [exec_translationWalk_due hr hp hn hready hs hva, applyWalk_hbm hw hf hc hk hm hg]
  · rw [(exec_frameAccess_due hr hp ha hready).1 n hs, applyScratch_load hs hact]
  · rw [(exec_frameAccess_due hr hp ha hready).1 n hs, applyScratch_store hact]
  · rw [(exec_frameAccess_due hr hp ha hready).2 ctx va e hs he, if_pos hk]
  · rw [(exec_atomicPerform_due hr hp ha hready).1 n hs, applyScratch_atomic hact]
  · rw [(exec_writeQueueDepart_due hr hp hready).1 ctx va hs hva, applyDepart_hbm hw hf hc hk hb hm hg]
  · have hreach : Reaches s c r e := ⟨hb, by rcases hd with hd | hd <;> simp [hd]⟩
    refine ⟨fun h => ?_, fun hn => ⟨fun hs hg => ?_, fun hs hg hf => ?_, fun hs hg hf hbusy ht => ?_, fun hs hg hf hbusy hl ha => ?_⟩⟩
    · by_cases hn : remappedSince s (entFrame e) r.entAt = true
      · exact applyFrame_stale hreach hn
      · exact applyFrame_reject hreach (by simpa using hn) (homeCheck_frame_reject hk (h.resolve_right hn))
    · exact applyFrame_gone hreach hn (homeCheck_frame_gone hk hs hg)
    · exact applyFrame_wait hreach hn (homeCheck_frame_wait hk hs hg hf)
    · exact applyFrame_back hreach hn (homeCheck_frame_back hk hs hg hf hbusy ht)
    · rw [applyFrame_serve hreach hn (homeCheck_frame_serve hk hs hg hf hbusy), serveFrame_store hl ha]

/-! ## Results of memory words (O44) -/

theorem toInt_toNat {w : Nat} (x : BitVec w) : Machine.toInt w x.toNat = x.toInt := by
  have hx : x.toNat % 2 ^ w = x.toNat := Nat.mod_eq_of_lt x.isLt
  have hpow : 0 < w → 2 ^ w = 2 * 2 ^ (w - 1) := fun h => by rw [← Nat.pow_succ', Nat.succ_eq_add_one, Nat.sub_add_cancel h]
  rw [Machine.toInt, hx, BitVec.toInt_eq_toNat_cond]
  rcases Nat.eq_zero_or_pos w with rfl | hw
  · simp [BitVec.toNat_of_zero_length]
  · rw [hpow hw]
    simp only [Nat.mul_lt_mul_left (show 0 < 2 by omega)]

theorem toNat_append_byte {m : Nat} (x : BitVec m) (y : Byte) : (x ++ y).toNat = y.toNat + 256 * x.toNat := by
  rw [BitVec.toNat_append, ← Nat.shiftLeft_add_eq_or_of_lt y.isLt, Nat.shiftLeft_eq]
  omega

theorem leNat_one (a : Byte) : leNat [a] = a.toNat := by simp [leNat]

theorem leNat_two (a b : Byte) : leNat [a, b] = (b ++ a).toNat := by
  rw [leNat_cons, leNat_one, toNat_append_byte]

theorem leNat_four (a b c d : Byte) : leNat [a, b, c, d] = (d ++ c ++ b ++ a).toNat := by
  rw [leNat_cons, leNat_cons, leNat_two, toNat_append_byte (d ++ c ++ b) a, toNat_append_byte (d ++ c) b]

theorem ofNat_leNat_four (a b c d : Byte) : BitVec.ofNat 32 (leNat [a, b, c, d]) = d ++ c ++ b ++ a := by
  refine BitVec.eq_of_toNat_eq ?_
  rw [leNat_four, BitVec.toNat_ofNat]
  exact Nat.mod_eq_of_lt (d ++ c ++ b ++ a).isLt

/-- A narrow value extended to a word (R204). -/
theorem narrowWord {w : Nat} (x : BitVec w) (signed : Bool) :
    (if signed then BitVec.ofInt 32 (Machine.toInt w x.toNat) else BitVec.ofNat 32 x.toNat) =
      if signed then x.signExtend 32 else x.setWidth 32 := by
  rw [toInt_toNat, BitVec.ofNat_toNat]
  rfl

/-- The bytes of a lane of a load, in order (R204). -/
def laneBytes (o : MemOp) (lane : Nat) : List Byte := (List.range o.width).map (fun k => look o.got (lane * 16 + k) 0)

theorem laneWords_load {o : MemOp} (lane : Nat) (h : o.kind = .load) : laneWords o lane =
    if o.width < 4 then
      [if o.signed then BitVec.ofInt 32 (Machine.toInt (8 * o.width) (leNat (laneBytes o lane))) else BitVec.ofNat 32 (leNat (laneBytes o lane))]
    else (List.range (o.width / 4)).map (fun i => BitVec.ofNat 32 (leNat (((laneBytes o lane).drop (4 * i)).take 4))) := by
  simp only [laneWords, h]
  rfl

section
variable {o : MemOp} (lane : Nat) (h : o.kind = .load)
include h

theorem laneWords_byte (hw : o.width = 1) : laneWords o lane =
    [if o.signed then ((laneBytes o lane).getD 0 0).signExtend 32 else ((laneBytes o lane).getD 0 0).setWidth 32] := by
  have hb : laneBytes o lane = [(laneBytes o lane).getD 0 0] := by
    unfold laneBytes
    rw [hw]
    rfl
  rw [laneWords_load lane h, hw, if_pos (by omega), (congrArg leNat hb).trans (leNat_one _), ← narrowWord]

theorem laneWords_half (hw : o.width = 2) : laneWords o lane =
    [if o.signed then ((laneBytes o lane).getD 1 0 ++ (laneBytes o lane).getD 0 0).signExtend 32
      else ((laneBytes o lane).getD 1 0 ++ (laneBytes o lane).getD 0 0).setWidth 32] := by
  have hb : laneBytes o lane = [(laneBytes o lane).getD 0 0, (laneBytes o lane).getD 1 0] := by
    unfold laneBytes
    rw [hw]
    rfl
  rw [laneWords_load lane h, hw, if_pos (by omega), (congrArg leNat hb).trans (leNat_two _ _), ← narrowWord]

theorem laneWords_words {n : Nat} (hw : o.width = 4 * n) (hn : 0 < n) : laneWords o lane = (List.range n).map (fun i =>
    (laneBytes o lane).getD (4 * i + 3) 0 ++ (laneBytes o lane).getD (4 * i + 2) 0 ++ (laneBytes o lane).getD (4 * i + 1) 0 ++
      (laneBytes o lane).getD (4 * i) 0) := by
  have hlen : (laneBytes o lane).length = 4 * n := by simp [laneBytes, hw]
  rw [laneWords_load lane h, if_neg (by omega), hw, Nat.mul_div_cancel_left n (by omega)]
  refine List.map_congr_left fun i hi => ?_
  have hi' := List.mem_range.mp hi
  rw [← ofNat_leNat_four]
  congr 2
  refine List.ext_getElem? fun j => ?_
  have hget (k : Nat) (hk : k < 4) : (laneBytes o lane)[4 * i + k]? = some ((laneBytes o lane).getD (4 * i + k) 0) := by
    rw [List.getD_eq_getElem?_getD, List.getElem?_eq_getElem (by omega)]
    rfl
  rw [List.getElem?_take, List.getElem?_drop]
  match j with
  | 0 => exact hget 0 (by omega)
  | 1 => exact hget 1 (by omega)
  | 2 => exact hget 2 (by omega)
  | 3 => exact hget 3 (by omega)
  | j + 4 => simp

end

section
variable {s : State} {c i : Nat} {o : MemOp} (ho : opOf s c i = some o)
include ho

theorem exec_loadReturn_all (h1 : o.kind ≠ .atomic) (h2 : o.kind ≠ .attr) (h3 : o.kind ≠ .host) (hr : reqsOf s c i = []) :
    exec (.loadReturn c i) s = .next (regroupTest (dropOp (deliverLanes s c o o.lanes) c i) o.wg) := by
  simp [execLoadReturn, ho, h1, h2, h3, hr]

theorem exec_atomicReply_some (hk : o.kind = .atomic) (hm : repliedLanes o ≠ 0) : exec (.atomicReply c i) s =
    .next (retireLanes (deliverLanes s c o (repliedLanes o)) c o (repliedLanes o)) := by
  simp only [exec_atomicReply, execAtomicReply, ho, hk, ne_eq, not_true_eq_false, false_or, if_neg hm]

theorem exec_atomicReply_none (hm : repliedLanes o = 0) : exec (.atomicReply c i) s = .next s := by
  simp only [exec_atomicReply, execAtomicReply, ho, hm, or_true, if_true]

theorem exec_atomicTimeout_early (h : ∀ r ∈ reqsOf s c i, r.phase ≠ .sent ∨ s.cycle < r.left + 2 ^ 24) :
    exec (.atomicTimeout c i) s = .next s := by
  have hlate : lateReqs s c i = [] := by
    refine List.filter_eq_nil_iff.mpr fun r hr hb => ?_
    rw [Bool.and_eq_true, decide_eq_true_eq, decide_eq_true_eq] at hb
    rcases h r hr with h | h
    · exact h hb.1
    · omega
  have hm : lateLanes s c i o = 0 := by
    rw [lateLanes, hlate, List.foldl_nil]
    simp
  simp only [exec_atomicTimeout, execAtomicTimeout, ho, hm, or_true, if_true]

theorem exec_atomicTimeout_late (hk : o.kind = .atomic) (hm : lateLanes s c i o ≠ 0) : exec (.atomicTimeout c i) s =
    .next (raise (retireLanes (finishFlags (failLanes ((lateReqs s c i).foldl (fun s r => timeoutReq s c r) s) c o.lf o.op 1
      (lateLanes s c i o)) c o.lf (lateLanes s c i o) o.flag) c o (lateLanes s c i o))
      ⟨27, c, o.lf, 0, thrField o.lf (lowest (lateLanes s c i o)), o.pc,
        pageDetail (match lookup o.addrs (lowest (lateLanes s c i o)) with | some x => x.page | none => 0) 1, none⟩) := by
  simp only [exec_atomicTimeout, execAtomicTimeout, ho, hk, hm, ne_eq, not_true_eq_false, or_false, if_false] <;>
    rfl

end

theorem lateReqs_eq (s : State) (c i : Nat) :
    lateReqs s c i = (reqsOf s c i).filter (fun r => decide (r.phase = .sent ∧ r.left + 2 ^ 24 ≤ s.cycle)) :=
  List.filter_congr fun _ _ => (Bool.decide_and _ _).symm

/-! ## Fences and monitors (O44) -/

theorem flushFor_of_ne_sys {s : State} {c l before : Nat} {m : LaneMask} {sc : Scope} (h : sc ≠ .sys) :
    flushFor s c l m before sc = s := by
  rw [flushFor, if_neg fun h' => h h'.1]

theorem xFlush_of_ne_sys {s : State} {c wg before : Nat} {p : Path} {sc : Scope} (h : sc ≠ .sys) : xFlush s c wg p before sc = s := by
  unfold xFlush
  split
  · exact List.foldlRecOn (motive := fun (t : State) => t = s) _ _ rfl fun t ht e _ => by rw [flushFor_of_ne_sys h, ht]
  · rfl

section
variable {s : State} {c l : Nat} {f : LaneFrame} {cl : Clause} {h : FenceHold} (hf : laneFrame s c l = some f)
  (hcl : f.clause = some cl) (hh : f.fence = some h)
include hf hcl hh

/-- A fence of a scope alone (R222). -/
theorem exec_fenceComplete_scope (hp : h.path = none) : exec (.fenceComplete c l) s =
    .next (if released s c l cl.lanes h.op h.scope = true then
      advance (modLF (emptyReadAhead s c) c l (fun f => { f with fence := none })) ⟨c, l, { f with fence := none }, cl⟩
    else flushFor s c l cl.lanes h.op h.scope) := by
  simp only [exec_fenceComplete, execFenceComplete, hf, hcl, hh, hp]
  split <;> rfl

/-- A fence across paths (R223). -/
theorem exec_fenceComplete_path {p : Path} (hp : h.path = some p) : exec (.fenceComplete c l) s =
    .next (if xReady s c f.wg p h.op h.scope = true then
      advance (modLF (emptyReadAhead s c) c l (fun f => { f with fence := none })) ⟨c, l, { f with fence := none }, cl⟩
    else xFlush s c f.wg p h.op h.scope) := by
  simp only [exec_fenceComplete, execFenceComplete, hf, hcl, hh, hp]
  split <;> rfl

end

section
variable {s : State} {i : Nat} {m : Monitor} (hm : s.monitors.find? (fun m => m.id = i) = some m)
include hm

theorem exec_monitorRecheck_notDue (h : m.armed = true ∨ m.fired = true ∨ s.cycle < m.due) : exec (.monitorRecheck i) s = .next s := by
  simp only [exec_monitorRecheck, execMonitorRecheck, hm, if_pos h]

theorem exec_monitorRecheck_due (ha : m.armed = false) (hf : m.fired = false) (hd : m.due ≤ s.cycle) : exec (.monitorRecheck i) s =
    .next (if monHolds s m = true ∨ (locNum s m.loc).isNone = true then fireMonitor s m
      else { s with monitors := s.monitors.map (fun x => if x.id = i then { x with due := s.cycle + 1024 } else x) }) := by
  simp only [exec_monitorRecheck, execMonitorRecheck, hm, ha, hf, Bool.false_eq_true, false_or, if_neg (Nat.not_lt.mpr hd)]
  split <;> rfl

end

/-- Settles O44: by the cases of each completion. -/
theorem memoryWordCompletions : Obligations.MemoryWordCompletions := by
  refine ⟨⟨fun s c i o ho _ => ⟨exec_loadReturn_all ho, exec_atomicReply_some ho, fun _ => exec_atomicReply_none ho,
      fun _ => exec_atomicTimeout_early ho, fun hk late m hlate hm hne => ?_⟩,
    fun o lane hk => ⟨laneWords_byte lane hk, laneWords_half lane hk, fun hw => ?_, fun hw => ?_, fun hw => ?_⟩⟩,
    fun s c l f cl h hf hcl hh => ?_, fun s i m hm => ⟨exec_monitorRecheck_notDue hm, fun ha hf hd hh => ?_, fun ha hf hd hh hl => ?_⟩,
    fun s die slice => rfl⟩
  · rw [← lateReqs_eq] at hlate
    subst hlate hm
    exact exec_atomicTimeout_late ho hk hne
  · exact laneWords_words lane hk (n := 1) hw (by omega)
  · exact laneWords_words lane hk (n := 2) hw (by omega)
  · exact laneWords_words lane hk (n := 4) hw (by omega)
  · cases hp : h.path with
    | none =>
      rw [exec_fenceComplete_scope hf hcl hh hp]
      refine ⟨fun hmet hs => ?_, fun hmet => ?_, fun hmet => ?_⟩
      · rw [if_neg (by simpa using hmet), flushFor_of_ne_sys hs]
      · rw [if_neg (by simpa using hmet)]
      · rw [if_pos hmet]
    | some p =>
      rw [exec_fenceComplete_path hf hcl hh hp]
      refine ⟨fun hmet hs => ?_, fun hmet => ?_, fun hmet => ?_⟩
      · rw [if_neg (by simpa using hmet), xFlush_of_ne_sys hs]
      · rw [if_neg (by simpa using hmet)]
      · rw [if_pos hmet]
  · rw [exec_monitorRecheck_due hm ha hf hd, if_pos (.inl hh)]
  · rw [exec_monitorRecheck_due hm ha hf hd, if_neg (by simp [hh, hl])]

/-! ## Migrations (O45) -/

section
variable {s : State} {i : Nat} {m : Migration} (hm : migrationOf s i = some m)
include hm

theorem exec_poolSlotTake_empty {p : Pool} (hp : poolOf s m.ctx = some p) (h : p.head = p.tail) :
    exec (.poolSlotTake i) s = .next s := by
  simp only [exec_poolSlotTake, execPoolSlotTake, hm, hp, if_pos (Or.inr (Or.inr (Or.inl h)))]

theorem exec_poolSlotTake_take {p : Pool} (hp : poolOf s m.ctx = some p) (h0 : m.phase = 0) (hd : m.dead = false) (h : p.head ≠ p.tail)
    (hr : runs s m.ctx = true) (ho : ∀ e ∈ slotReads s m p, pageOpen s e.1 = true) :
    exec (.poolSlotTake i) s = .next (takeSlot s m p) := by
  have hany : (slotReads s m p).any (fun e => !pageOpen s e.1) = false := by
    rw [List.any_eq_false]
    exact fun e he => by simp [ho e he]
  simp only [exec_poolSlotTake, execPoolSlotTake, hm, hp, h0, hd, h, hr, hany, ne_eq, not_true_eq_false, Bool.not_true,
    Bool.false_and, Bool.false_eq_true, or_self, if_false]

section
variable {blk : Nat} (h1 : m.phase = 1) (hd : m.dead = false) (hb : blk < 32) (hg : m.got.getLsbD blk = false)
include h1 hd hb hg

theorem exec_capReadReturn_due (hk : (keyOf s m.ctx).isSome = true) (bad : Bool) :
    exec (.capReadReturn i blk bad) s =
    .next (if (bad || (List.range 4).any (fun k => poisoned s (capAt (readFromPage m blk) blk + 32 * k))) = true then badRead s m blk
      else goodRead s m blk) := by
  have hk' : (keyOf s m.ctx).isNone = false := by rw [← Option.not_isSome, hk]; rfl
  simp only [exec_capReadReturn, execCapReadReturn, hm, h1, hd, hg, hk', ne_eq, not_true_eq_false, Bool.false_eq_true, or_false,
    Nat.not_le.mpr hb, if_false]
  split <;> rfl

theorem exec_capReadTimeout_due : exec (.capReadTimeout i blk) s =
    .next (if s.cycle < look m.reads blk 0 / 4 + 2 ^ 24 then s else badRead s m blk) := by
  simp only [exec_capReadTimeout, execCapReadTimeout, hm, h1, hd, hg, ne_eq, not_true_eq_false, Bool.false_eq_true, false_or,
    Nat.not_le.mpr hb]
  split <;> rfl

end

end

theorem exec_migrationComplete_phase1 {s : State} {i : Nat} {m : Migration} (hm : migrationOf s i = some m) (h1 : m.phase = 1)
    (hd : m.dead = false) : exec (.migrationComplete i) s =
      .next (if m.got = BitVec.allOnes 32 ∧ m.writes = 0 then finishMigration s m else s) := by
  simp only [exec_migrationComplete, execMigrationComplete, hm, h1, hd, true_and, Bool.not_false]
  split <;> rfl

theorem modMigration_modMigration (s : State) (i : Nat) (f g : Migration → Migration) (hf : ∀ m, (f m).id = m.id) :
    modMigration (modMigration s i f) i g = modMigration s i (fun m => g (f m)) := by
  unfold modMigration
  rw [List.map_map]
  refine congrArg (fun l => { s with migrations := l }) (List.map_congr_left fun m _ => ?_)
  by_cases h : m.id = i <;> simp [h, hf]

/-- R385: a bad read is issued once more. -/
theorem badRead_first {s : State} {m : Migration} {blk : Nat} (h : look m.reads blk 0 % 4 = 0) :
    badRead s m blk = modMigration s m.id (fun m => { m with reads := put m.reads blk (1 + 4 * s.cycle) }) := by
  simp only [badRead, h]

/-- R385: the second bad read of a block reads the mirror. -/
theorem badRead_second {s : State} {m : Migration} {blk p : Nat} (h : look m.reads blk 0 % 4 = 1)
    (hp : mirrorOf s m.ctx m.capPage = some p) : badRead s m blk = modMigration s m.id (fun m => { m with
      reads := put m.reads blk (2 + 4 * s.cycle), from_ := put m.from_ blk p }) := by
  simp only [badRead, h, hp]
  exact modMigration_modMigration s m.id _ _ fun _ => rfl

theorem bits_low_byte (n : Nat) : bits n 7 0 = n % 256 := rfl

section
variable {s : State} {c l n x : Nat} {f : LaneFrame} {r : Reader} {e : DWord}

theorem exec_migrationDeadline_due (hf : laneFrame s c l = some f)
    (hr : (Machine.core s c).c.readers.find? (fun r => decide (r.op.lf = l) && !r.issued) = some r) (hn : parkedSince f r = some n)
    (he : walk s (ctxId s) r.vpn = .entry e x) : exec (.migrationDeadline c l) s =
      .next (if entKind e = 3 ∧ entHint e = 5 ∧ (Machine.core s c).ctdl.toNat % 256 ≠ 0 ∧
        n + 256 * ((Machine.core s c).ctdl.toNat % 256) ≤ s.cycle ∧ s.stop.isNone = true then passDeadline s c l r (entPage e) else s) := by
  simp only [exec_migrationDeadline, execMigrationDeadline, hf, hr, hn, he, bits_low_byte]
  exact (apply_ite _ _ _ _).symm

end

section
variable {s : State} {c op : Nat} {r : Reader}
  (hr : (Machine.core s c).c.readers.find? (fun r => decide (r.op.op = op) && r.issued) = some r)
include hr

theorem exec_directReadReturn_held (bad : Bool) (h : s.stop.isSome = true ∨ readerHeld s c r = true) :
    exec (.directReadReturn c op bad) s = .next s := by
  have h' : (s.stop.isSome || readerHeld s c r) = true := by simpa using h
  simp only [exec_directReadReturn, execDirectReadReturn, hr, h', if_true]

theorem exec_directReadReturn_take (bad : Bool) (hs : s.stop = none) (hh : readerHeld s c r = false)
    (hk : (keyOf s (ctxId s)).isSome = true) (ha : directAll s r = true) :
    exec (.directReadReturn c op bad) s = .next (takeDirect s c r bad) := by
  have hk' : (keyOf s (ctxId s)).isNone = false := by rw [← Option.not_isSome, hk]; rfl
  simp only [exec_directReadReturn, execDirectReadReturn, hr, hs, hh, hk', ha, Option.isSome_none, Bool.or_self, Bool.not_true,
    Bool.false_eq_true, if_false]

end

/-- Settles O45: by the cases of each event of a migration and of a direct read. -/
theorem migrationEvents : Obligations.MigrationEvents := by
  refine ⟨fun s i m hm => ⟨fun p hp => ⟨exec_poolSlotTake_empty hm hp, exec_poolSlotTake_take hm hp⟩,
      fun blk h1 hd hb hg => ⟨fun hk => ⟨?_, fun hp => ?_⟩, fun ht => ?_, fun ht => ?_⟩, fun h1 hd => ⟨fun hg hw => ?_, fun h => ?_⟩⟩,
    fun s m blk => ⟨badRead_first, fun p => badRead_second⟩,
    fun s c l n x f r e hf hr hn he => ⟨fun hk hh hdl ht hs => ?_, fun h => ?_⟩,
    fun s c op bad r hr => ⟨exec_directReadReturn_held hr bad, fun hs hh hk ha => ?_⟩⟩
  · rw [exec_capReadReturn_due hm h1 hd hb hg hk, Bool.true_or, if_pos rfl]
  · have hany : (List.range 4).any (fun k => poisoned s (capAt (readFromPage m blk) blk + 32 * k)) = false := by
      rw [List.any_eq_false]
      exact fun k hk => by simp [hp k (List.mem_range.mp hk)]
    rw [exec_capReadReturn_due hm h1 hd hb hg hk, hany, Bool.or_self, if_neg Bool.false_ne_true]
  · rw [exec_capReadTimeout_due hm h1 hd hb hg, if_pos ht]
  · rw [exec_capReadTimeout_due hm h1 hd hb hg, if_neg (by omega)]
  · rw [exec_migrationComplete_phase1 hm h1 hd, if_pos ⟨hg, hw⟩]
  · rw [exec_migrationComplete_phase1 hm h1 hd, if_neg fun h' => h.elim (fun h => h h'.1) (fun h => h h'.2)]
  · rw [exec_migrationDeadline_due hf hr hn he, if_pos ⟨hk, hh, hdl, ht, by rw [hs]; rfl⟩]
  · rw [exec_migrationDeadline_due hf hr hn he, if_neg (by omega)]
  · rw [exec_directReadReturn_take hr bad hs hh hk ha]
    refine ⟨fun hgood => ?_, fun b hb => ?_⟩
    · have hnone : (directLeft r).find? (fun b => directPoison s r b || (bad && (directLeft r).head? == some b)) = none := by
        rw [List.find?_eq_none]
        exact fun b hb h => Bool.false_ne_true ((hgood b hb).symm.trans h)
      simp only [takeDirect, hnone]
    · simp only [takeDirect, hb]

/-! ## Page-attribute requests (O46) -/

section
variable {s : State} {i x : Nat} {q : PageReq} {e : DWord} (hq : pageReqOf s i = some q) (hr : runs s q.ctx = true)
include hq hr

section
variable (h4 : q.step < 4)
include h4

theorem exec_pageAttrPage_absent (hw : walk s q.ctx q.vpn = .absent) : exec (.pageAttrPage i) s = .next (nextPage s q false) := by
  simp only [exec_pageAttrPage, execPageAttrPage, hq, hr, hw, Bool.not_true, Bool.false_eq_true, false_or, Nat.not_le.mpr h4, if_false]

theorem exec_pageAttrPage_bad {k : Nat} (hw : walk s q.ctx q.vpn = .bad k) : exec (.pageAttrPage i) s = .next (failPageReq s q k) := by
  simp only [exec_pageAttrPage, execPageAttrPage, hq, hr, hw, Bool.not_true, Bool.false_eq_true, false_or, Nat.not_le.mpr h4, if_false]

theorem exec_pageAttrPage_entry (hw : walk s q.ctx q.vpn = .entry e x) : exec (.pageAttrPage i) s = .next (stepPage s q e) := by
  simp only [exec_pageAttrPage, execPageAttrPage, hq, hr, hw, Bool.not_true, Bool.false_eq_true, false_or, Nat.not_le.mpr h4, if_false]

end

theorem exec_demotionComplete_due (hw : walk s q.ctx q.vpn = .entry e x) (h2 : q.step = 2) (hk : entKind e = 2)
    (hh : s.hwrites.any (fun w => decide (w.page = entPage e)) = false)
    (hu : (List.range (coreCount s)).any (fun c => usesPage s c q.ctx q.vpn) = false) (hkey : (keyOf s q.ctx).isSome = true) :
    exec (.demotionComplete i) s =
      .next (if blocksOpen s (entPage e) < 32 - q.reads then copySome s q (entPage e) else demote s q e) := by
  have hkey' : (keyOf s q.ctx).isNone = false := by rw [← Option.not_isSome, hkey]; rfl
  simp only [exec_demotionComplete, execDemotionComplete, hq, hr, hw, h2, hk, hh, hu, hkey', ne_eq, not_true_eq_false, Bool.not_true,
    Bool.false_eq_true, or_self, if_false]
  exact (apply_ite _ _ _ _).symm

end

section
variable {s : State} {q : PageReq} {e : DWord}

theorem stepPage_begin (h : q.step = 0) : stepPage s q e =
    if entM e = true then failPageReq s q 7
    else if (s.stop.isSome || cameFirst s q) = true then s
    else if (entB e || (decide (entKind e = 2) && (markerBusy s (entPage e) || (marker s (entPage e)).offered))) = true then s
    else if (decide (q.writes ≠ 0) || (decide (entKind e = 2) && !freeNow s (framesOf s (entPage e)))) = true then s
    else if (decide (entKind e = 2) && (framesOf s (entPage e)).any (frameDirty s) && (keyOf s q.ctx).isNone) = true then failPageReq s q 24
    else beginPage s q e := by
  simp only [stepPage, h]

theorem stepPage_evict (h : q.step = 1) (hk : entKind e ≠ 2) : stepPage s q e = evictPage s q e := by
  simp only [stepPage, h, if_pos (Or.inr hk)]

theorem stepPage_acks (h : q.step = 3) : stepPage s q e =
    if (acksOut s q || entryPending s q.ctx q.vpn || (s.stop.isSome && q.hint && decide (entKind e = 3))) = true then s
    else if demotes q e = true then modPageReq (modEntry s q.ctx q.vpn (newAttrs q)) q.id (fun q => { q with step := 2 })
    else endPage (modEntry s q.ctx q.vpn (newAttrs q)) q e := by
  simp only [stepPage, h]

end

/-- The attributes that a hint gives (R224). -/
theorem newAttrs_hint {q : PageReq} (e : DWord) (h : q.hint = true) :
    entHint (newAttrs q e) = q.ctl.toNat % 8 ∧ entOrd (newAttrs q e) = entOrd e ∧ entKind (newAttrs q e) = entKind e ∧
      entPage (newAttrs q e) = entPage e := by
  have hlt := e.isLt
  simp only [newAttrs, h, if_true, entHint, entOrd, entKind, entPage, BitVec.toNat_ofNat, bits, Nat.shiftRight_eq_div_pow]
  omega

/-- The attributes that PGSET gives (R224). -/
theorem newAttrs_set {q : PageReq} (e : DWord) (h : q.hint = false) :
    entHint (newAttrs q e) = entHint e ∧ entOrd (newAttrs q e) = q.ctl.toNat / 4 % 4 ∧ entKind (newAttrs q e) = entKind e ∧
      entPage (newAttrs q e) = entPage e := by
  have hlt := e.isLt
  have h1 : bnat (q.ctl.getLsbD 1) ≤ 1 := by unfold bnat; split <;> omega
  have h2 : bnat (q.ctl.getLsbD 4) ≤ 1 := by unfold bnat; split <;> omega
  simp only [newAttrs, h, Bool.false_eq_true, if_false, entHint, entOrd, entKind, entPage, BitVec.toNat_ofNat, bits,
    Nat.shiftRight_eq_div_pow]
  omega

/-! ## The watchdog of busy pages (O46) -/

theorem exec_busyWatchdog_seq {s : State} {i : Nat} {q : Seq} (hq : seqOf s i = some q) (hr : runs s q.ctx = true)
    (hf : q.fired = false) : exec (.busyWatchdogExpiry i) s = .next (if s.cycle < q.start + watchTime then s
      else raiseSeq { s with seqs := s.seqs.map (fun x => if x.id = i then { x with fired := true } else x) } 21 (keyDie q.dst)
        q.core q.thr q.pc (pageDetail q.vpn 0)) := by
  simp only [exec_busyWatchdogExpiry, execBusyWatchdogExpiry, hq, hr, hf, Bool.not_true, Bool.false_eq_true, false_or, or_false]
  exact (apply_ite _ _ _ _).symm

theorem exec_busyWatchdog_migration {s : State} {i : Nat} {m : Migration} (hq : seqOf s i = none) (hm : migrationOf s i = some m)
    (hr : runs s m.ctx = true) (hf : m.fired = false) (ht : m.start + 2 ^ 22 ≤ s.cycle) :
    (m.phase ≠ 0 ∨ m.dead = true → exec (.busyWatchdogExpiry i) s =
      .next (raiseSeq (modMigration s i (fun m => { m with fired := true })) 21 m.die m.core m.thr m.pc (m.vpn % 2 ^ 36 + 2 ^ 36))) ∧
    ∀ p, m.phase = 0 → m.dead = false → poolOf s m.ctx = some p → exec (.busyWatchdogExpiry i) s =
      .next (raiseSeq (modMigration s i (fun m => { m with fired := true })) 22 m.die m.core m.thr m.pc (p.head + 3 * 2 ^ 32)) := by
  have hdue : ¬s.cycle < m.start + watchTime := Nat.not_lt.mpr ht
  simp only [exec_busyWatchdogExpiry, execBusyWatchdogExpiry, hq, hm, hr, hf, hdue, Bool.not_true, Bool.false_eq_true, or_self, if_false]
  refine ⟨fun h => ?_, fun p h0 hd hp => ?_⟩
  · rw [if_neg (by rcases h with h | h <;> simp [h])]
    rfl
  · rw [if_pos ⟨h0, by rw [hd]; rfl⟩, hp]

theorem exec_busyWatchdog_page {s : State} {i : Nat} {q : PageReq} (hs : seqOf s i = none) (hm : migrationOf s i = none)
    (hq : pageReqOf s i = some q) (hr : runs s q.ctx = true) (hf : q.fired = false) (h0 : q.step ≠ 0) (h4 : q.step ≠ 4)
    (h9 : q.step ≠ 9) (ht : q.since + 2 ^ 22 ≤ s.cycle) : exec (.busyWatchdogExpiry i) s =
      .next (raise (modPageReq s i (fun q => { q with fired := true }))
        ⟨21, q.core, q.lf, 5, thrField q.lf q.lane, q.pc, pageDetail q.vpn (if q.step = 2 ∨ q.step = 6 then 3 else 2), none⟩) := by
  have hdue : ¬s.cycle < q.since + watchTime := Nat.not_lt.mpr ht
  simp only [exec_busyWatchdogExpiry, execBusyWatchdogExpiry, hs, hm, hq, hr, hf, h0, h4, h9, hdue, Bool.not_true, Bool.false_eq_true,
    or_self, if_false]

/-- Settles O46: by the steps of a page-attribute request, and by what a watchdog finds. -/
theorem pageRequestEvents : Obligations.PageRequestEvents := by
  refine ⟨⟨fun s i q hq hr h4 => ⟨exec_pageAttrPage_absent hq hr h4, fun k => exec_pageAttrPage_bad hq hr h4, fun e x hw => ?_⟩,
      fun q e => ⟨fun h => ?_, fun h => ?_, ?_⟩⟩,
    fun s i => ⟨fun q hq hr hf => ⟨fun ht => ?_, fun ht => ?_⟩, fun m hs hm hr hf ht => exec_busyWatchdog_migration hs hm hr hf ht,
      fun q hs hm hq hr hf h0 h4 h9 ht => exec_busyWatchdog_page hs hm hq hr hf h0 h4 h9 ht⟩⟩
  · rw [exec_pageAttrPage_entry hq hr h4 hw]
    refine ⟨fun h hm => ?_, fun h hm hb => ?_, fun h hm hb hk hwr hst hc => ?_, fun h hk => ?_, fun h ha => ?_, fun h hm hs => ?_,
      fun h ha hp hd hs => ?_, fun h ha hp hh hc hk => ?_, fun h2 hk hh hu hkey => ⟨fun hb => ?_, fun hb => ?_⟩⟩
    · rw [stepPage_begin h, if_pos hm]
    · rw [stepPage_begin h, if_neg (by simp [hm]), hb, Bool.true_or, if_pos rfl, ite_self]
    · simp [stepPage_begin h, hm, hst, hc, hb, hk, hwr]
    · rw [stepPage_evict h hk]
    · rw [stepPage_acks h, if_pos (by rcases ha with ha | ha <;> simp [ha])]
    · rw [stepPage_begin h, if_neg (by simp [hm]), if_pos (by rcases hs with hs | hs <;> simp [hs])]
    · have hdem : demotes q e = false := by
        rcases hd with hd | hd | hd
        · rw [demotes, hd, Bool.not_true, Bool.false_and, Bool.false_and]
        · rw [demotes, hd, Bool.and_false, Bool.false_and]
        · rw [demotes, decide_eq_false hd, Bool.and_false]
      have hwait : (s.stop.isSome && q.hint && decide (entKind e = 3)) = false := by rcases hs with hs | hs | hs <;> simp [hs]
      rw [stepPage_acks h, ha, hp, hwait, if_neg (by simp), hdem, if_neg Bool.false_ne_true]
    · have hdem : demotes q e = true := by simp [demotes, hh, hc, hk]
      rw [stepPage_acks h, ha, hp, hh, if_neg (by simp), if_pos hdem]
    · rw [exec_demotionComplete_due hq hr hw h2 hk hh hu hkey, if_neg (by omega)]
    · rw [exec_demotionComplete_due hq hr hw h2 hk hh hu hkey, if_pos hb]
  · obtain ⟨h1, h2, -, -⟩ := newAttrs_hint e h
    exact ⟨h1, h2⟩
  · obtain ⟨h1, h2, -, -⟩ := newAttrs_set e h
    exact ⟨h1, h2⟩
  · cases h : q.hint with
    | true => exact (newAttrs_hint e h).2.2
    | false => exact (newAttrs_set e h).2.2
  · rw [exec_busyWatchdog_seq hq hr hf, if_pos (show s.cycle < q.start + watchTime from ht)]
  · rw [exec_busyWatchdog_seq hq hr hf, if_neg (show ¬s.cycle < q.start + watchTime from Nat.not_lt.mpr ht), pageDetail, Nat.zero_mul, Nat.add_zero]

end Sys2Proof.Proofs
end

section
/-!
PROOFS. Slices, the recorder, calls, queues and hosts.
-/
namespace Sys2Proof.Proofs
open Sys2Proof Sys2Proof.Machine Sys2Proof.Spec

/-! ## The ends of slices (O48) -/

theorem exec_sliceExpiry_running {s : State} {sl : Slice} (hsl : s.slice = some sl) (hst : s.stop = none) : exec .sliceExpiry s =
    .next (if sl.switching = true then (if switchReady s = true then finishSwitch s sl else s)
      else if sl.fin ≤ s.cycle then beginSwitch s else s) := by
  simp only [exec_sliceExpiry, execSliceExpiry, hsl, hst]
  exact (apply_ite _ _ _ _).symm

theorem exec_sliceExpiry_stopped {s : State} {sl : Slice} {p : Stop} (hsl : s.slice = some sl) (hst : s.stop = some p)
    (hsw : sl.switching = false) (hf : sl.fin ≤ s.cycle) :
    exec .sliceExpiry s = .next { s with stop := some { p with expiry := true } } := by
  simp only [exec_sliceExpiry, execSliceExpiry, hsl, hst, hsw, hf, Bool.not_false, decide_true, Bool.and_self, if_true]

section
variable {s : State} {sl : Slice} (hsl : s.slice = some sl) (hst : s.stop = none) (hsw : sl.switching = false)
include hsl hst hsw

theorem exec_sliceIdleEnd_busy (hw : hasWork s sl.desc.ctx = true) :
    exec .sliceIdleEnd s = .next { s with slice := some { sl with idleSince := none } } := by
  simp only [exec_sliceIdleEnd, execSliceIdleEnd, hsl, hst, hsw, hw, Option.isSome_none, Bool.or_self, Bool.false_eq_true, if_false, if_true]

theorem exec_sliceIdleEnd_first (hw : hasWork s sl.desc.ctx = false) (hi : sl.idleSince = none) :
    exec .sliceIdleEnd s = .next { s with slice := some { sl with idleSince := some s.cycle } } := by
  simp only [exec_sliceIdleEnd, execSliceIdleEnd, hsl, hst, hsw, hw, hi, Option.isSome_none, Bool.or_self, Bool.false_eq_true, if_false]

theorem exec_sliceIdleEnd_late {t : Nat} (hw : hasWork s sl.desc.ctx = false) (hi : sl.idleSince = some t) (ht : t + 4096 ≤ s.cycle) :
    exec .sliceIdleEnd s = .next (beginSwitch s) := by
  simp only [exec_sliceIdleEnd, execSliceIdleEnd, hsl, hst, hsw, hw, hi, ht, Option.isSome_none, Bool.or_self, Bool.false_eq_true,
    if_false, if_true]

end

/-! ## Records on every core (O48) -/

/-- What a list of records on cores leaves as it is, and what each core of the list stages. -/
theorem records_spec (type : Nat) (thr : BitVec 16) (pc : DWord) (data : Nat → Nat) (l : List Nat) : ∀ s : State,
    WindowKept s (l.foldl (fun t c => record t c type thr pc (data t.cycle)) s) ∧
    (l.foldl (fun t c => record t c type thr pc (data t.cycle)) s).vf = s.vf ∧
    (∀ c ∉ l, (Machine.core (l.foldl (fun t c => record t c type thr pc (data t.cycle)) s) c) = Machine.core s c) ∧
    (l.Nodup → ∀ c ∈ l, (Machine.core (l.foldl (fun t c => record t c type thr pc (data t.cycle)) s) c).rcd =
      stage (Machine.core s c).rcd s.cycle type (recordBits type thr pc (data s.cycle) (trail s c))) := by
  induction l with
  | nil => exact fun s => ⟨.refl s, rfl, fun _ _ => rfl, fun _ c hc => absurd hc List.not_mem_nil⟩
  | cons d l ih =>
    intro s
    obtain ⟨hk, hv, hout, hin⟩ := ih (record s d type thr pc (data s.cycle))
    refine ⟨(WindowKept.record s d type thr pc _).trans hk, hv, fun c hc => ?_, fun hn c hc => ?_⟩
    · rw [List.mem_cons, not_or] at hc
      exact (hout c hc.2).trans (core_modCore_ne s _ hc.1)
    · obtain ⟨hd, hn'⟩ := List.nodup_cons.mp hn
      by_cases hcd : c = d
      · subst hcd
        rw [List.foldl_cons, hout c hd]
        exact congrArg Core.rcd (core_modCore_self s c _)
      · rw [List.foldl_cons, hin hn' c ((List.mem_cons.mp hc).resolve_left hcd)]
        have hcore : Machine.core (record s d type thr pc (data s.cycle)) c = Machine.core s c := core_modCore_ne s _ hcd
        rw [hcore]
        rfl

theorem sliceRecord_kept (s : State) (old new phase : Nat) : WindowKept s (sliceRecord s old new phase) :=
  (records_spec 9 noThread 0 (fun _ => old % 2 ^ 16 + new % 2 ^ 16 * 2 ^ 16 + phase * 2 ^ 32) _ s).1

/-! ## A switch begins (O48) -/

/-- The switch of a slice under way: the state before its cores stop issuing. -/
def switchNoted (s : State) (sl : Slice) : State :=
  sliceRecord ((pickNext s).elim { s with free := s.free + 1 } (visited s)) sl.desc.ctx ((pickNext s).elim (noContext s) Visit.ctx) 0

theorem beginSwitch_eq {s : State} {sl : Slice} (hsl : s.slice = some sl) : beginSwitch s = { switchNoted s sl with
    cores := (switchNoted s sl).cores.map (fun e => (e.1, modC e.2 stopIssue))
    slice := some { sl with switching := true, next := (pickNext s).map (fun x => (x.ctx, x.quant)) }
    at_ := none } := by
  unfold beginSwitch switchNoted
  rw [hsl]
  cases pickNext s <;> rfl

theorem switchNoted_kept (s : State) (sl : Slice) : (switchNoted s sl).mem = s.mem ∧
    ∀ c, ∃ r, Machine.core (switchNoted s sl) c = { Machine.core s c with rcd := r } := by
  have key (t : State) (old new : Nat) (hm : t.mem = s.mem) (hc : ∀ c, Machine.core t c = Machine.core s c) :
      (sliceRecord t old new 0).mem = s.mem ∧
        ∀ c, ∃ r, Machine.core (sliceRecord t old new 0) c = { Machine.core s c with rcd := r } := by
    have hk := sliceRecord_kept t old new 0
    refine ⟨?_, fun c => ?_⟩
    · obtain ⟨_, _, _, _, h⟩ := hk.form
      rw [h, ← hm]
    · rw [← hc]
      exact hk.core c
  unfold switchNoted
  cases pickNext s with
  | none => exact key _ _ _ rfl fun _ => rfl
  | some v => exact key _ _ _ rfl fun _ => rfl

theorem lookup_stopIssue {y : CoreCtx} {l : Nat} {f : LaneFrame} (h : lookup y.lfs l = some f) :
    lookup (stopIssue y).lfs l = some { f with clause := none, offer := none, fence := none, call := none, callSlot := none } := by
  refine (lookup_mapVals y.lfs (fun _ f => { f with clause := none, offer := none, fence := none, call := none, callSlot := none }) l).trans ?_
  rw [h]
  rfl

/-- A core changed in the same way whichever it is, as long as a core without an entry stays as it is. -/
theorem core_map (s : State) (g : Core → Core) (hg : g .reset = .reset) (c : Nat) :
    Machine.core { s with cores := s.cores.map (fun e => (e.1, g e.2)) } c = g (Machine.core s c) := by
  unfold Machine.core look
  rw [lookup_mapVals s.cores (fun _ => g)]
  cases lookup s.cores c with
  | none => exact hg.symm
  | some k => rfl

/-- R308 step 1: bundles stop at their next word, and the threads stay as they are. -/
theorem laneFrame_beginSwitch {s : State} {sl : Slice} (hsl : s.slice = some sl) {c l : Nat} {f : LaneFrame}
    (hf : laneFrame s c l = some f) : ∃ g, laneFrame (beginSwitch s) c l = some g ∧ g.threads = f.threads ∧ g.clause = none ∧ g.offer = none := by
  obtain ⟨r, hr⟩ := (switchNoted_kept s sl).2 c
  refine ⟨{ f with clause := none, offer := none, fence := none, call := none, callSlot := none }, ?_, rfl, rfl, rfl⟩
  rw [beginSwitch_eq hsl]
  refine (congrArg (fun k : Core => lookup k.c.lfs l) (core_map (switchNoted s sl) (fun k => modC k stopIssue) rfl c)).trans ?_
  rw [hr]
  exact lookup_stopIssue hf

/-! ## The recorder's own records (O48) -/

theorem ringWrite_off (r : Recorder) (start : Bool) (x : BitVec 128) : (ringWrite r start x).off = r.off := by
  unfold ringWrite
  dsimp only
  split
  · rfl
  · split <;> rfl

theorem foldl_off {α : Type} (f : Recorder → α → Recorder) (hf : ∀ r a, (f r a).off = r.off) (l : List α) (r : Recorder) :
    (l.foldl f r).off = r.off := by
  induction l generalizing r with
  | nil => rfl
  | cons a l ih => exact (ih _).trans (hf r a)

theorem acceptOne_off (r : Recorder) (type : Nat) (x : BitVec 128) : (acceptOne r type x).off = r.off := by
  unfold acceptOne
  split <;> rfl

theorem recorderCycles_off (n : Nat) : ∀ r : Recorder, (recorderCycles r n).off = r.off := by
  induction n with
  | zero => exact fun _ => rfl
  | succ n ih =>
    intro r
    have hdrain : (drainTwo r).off = r.off := 
      foldl_off (fun r (e : Bool × BitVec 128) => ringWrite r e.1 e.2) (fun r e => ringWrite_off r e.1 e.2) _ _
    have haccept (r : Recorder) : (acceptTwo r).off = r.off := 
      foldl_off (fun r (e : Nat × BitVec 128) => acceptOne r e.1 e.2) (fun r e => acceptOne_off r e.1 e.2) _ _
    rw [recorderCycles, ih, haccept, hdrain]

theorem rcdAt_off (r : Recorder) (cycle : Nat) : (rcdAt r cycle).off = r.off := by
  have hrun (r : Recorder) (n : Nat) : (runTo r n).off = r.off := recorderCycles_off _ r
  have hstage (r : Recorder) (type : Nat) (x : BitVec 128) : (stageOne r type x).off = r.off := by
    unfold stageOne
    split <;> rfl
  unfold rcdAt
  split
  · exact (hrun _ _).trans ((foldl_off (fun r (e : Nat × Nat × BitVec 128) => stageOne r e.2.1 e.2.2)
      (fun r e => hstage r e.2.1 e.2.2) _ _).trans (hrun r _))
  · exact hrun r _

theorem bits_stallPeriod (n : Nat) : bits n 27 24 = n / 2 ^ 24 % 16 := by
  rw [bits, Nat.shiftRight_eq_div_pow]
  rfl

section
variable {s : State} {c : Nat}

theorem exec_stallSample_due (h : (Machine.core s c).rcd.cntStall + 2 ^ ((Machine.core s c).rcd.rctl.toNat / 2 ^ 24 % 16) ≤ s.cycle) :
    ((List.range 64).findSome? (fun i => stallOf s c (((Machine.core s c).rcd.pointer + i) % 64)) = none →
      exec (.stallSample c) s = .next (modRcd s c (fun r => { r with cntStall := s.cycle }))) ∧
    ∀ x, (List.range 64).findSome? (fun i => stallOf s c (((Machine.core s c).rcd.pointer + i) % 64)) = some x →
      exec (.stallSample c) s = .next (modRcd (record (modRcd s c (fun r => { r with cntStall := s.cycle })) c 2
        (thrField x.lf (lowest x.lanes)) x.pc (x.blamed.toNat % 2 ^ 32 + x.reason * 2 ^ 32 + x.detail * 2 ^ 40)) c
        (fun r => { r with pointer := (x.lf + 1) % 64 })) := by
  have hdue : ¬s.cycle < (Machine.core s c).rcd.cntStall + 2 ^ bits (Machine.core s c).rcd.rctl.toNat 27 24 := by
    rw [bits_stallPeriod]
    omega
  simp only [exec_stallSample, execStallSample, if_neg hdue]
  exact ⟨fun hn => by rw [hn], fun x hx => by rw [hx]⟩

theorem exec_stallSample_early (h : s.cycle < (Machine.core s c).rcd.cntStall + 2 ^ ((Machine.core s c).rcd.rctl.toNat / 2 ^ 24 % 16)) :
    exec (.stallSample c) s = .next s := by
  have hdue : s.cycle < (Machine.core s c).rcd.cntStall + 2 ^ bits (Machine.core s c).rcd.rctl.toNat 27 24 := by
    rwa [bits_stallPeriod]
  simp only [exec_stallSample, execStallSample, if_pos hdue]

theorem exec_lostRecord_none (h : (rcdAt (Machine.core s c).rcd s.cycle).dropped = 0) : exec (.lostRecord c) s = .next s := by
  simp only [exec_lostRecord, execLostRecord, h, ne_eq, not_true_eq_false, false_and, if_false]

theorem exec_lostRecord_some (h : (rcdAt (Machine.core s c).rcd s.cycle).dropped ≠ 0) (ho : (Machine.core s c).rcd.off = false)
    (hn : stagedNow (Machine.core s c).rcd s.cycle < 32) : exec (.lostRecord c) s =
      .next (modRcd (record s c 15 0xFFFF 0 (min (rcdAt (Machine.core s c).rcd s.cycle).dropped (2 ^ 32 - 1))) c
        (fun r => { r with dropped := 0 })) := by
  have hoff : (rcdAt (Machine.core s c).rcd s.cycle).off = false := (rcdAt_off _ _).trans ho
  rw [exec_lostRecord, execLostRecord, if_pos ⟨h, by rw [hoff]; rfl, hn⟩]
  rfl

end

theorem exec_timebaseWrap_due {s : State} {c : Nat} (h0 : s.cycle % 2 ^ 24 = 0) (hl : s.lastTimebase ≠ s.cycle + 1)
    (hc : c < coreCount s) : ∃ t, exec .timebaseWrap s = .next t ∧ t.mem = s.mem ∧ (Machine.core t c).c = (Machine.core s c).c ∧
      (Machine.core t c).rcd = stage (Machine.core s c).rcd s.cycle 14 (recordBits 14 0xFFFF 0 (s.cycle / 2 ^ 24 % 2 ^ 40) (trail s c)) := by
  obtain ⟨hk, -, -, hin⟩ := records_spec 14 noThread 0 (fun n => n / 2 ^ 24 % 2 ^ 40) (List.range (coreCount s))
    { s with lastTimebase := s.cycle + 1 }
  obtain ⟨_, _, _, _, hform⟩ := hk.form
  obtain ⟨r, hr⟩ := hk.core c
  refine ⟨_, ?_, ?_, ?_, hin List.nodup_range c (List.mem_range.mpr hc)⟩
  · rw [exec_timebaseWrap, execTimebaseWrap, if_pos ⟨h0, hl⟩]
  · rw [hform]
  · rw [hr]
    rfl

/-- Settles O48: by the cases of each event; a switch stops bundles and keeps threads. -/
theorem sliceAndRecorderEvents : Obligations.SliceAndRecorderEvents := by
  refine ⟨fun s => ⟨fun hsl hst => ?_, fun hsl => ?_, fun sl hsl => ⟨fun hst => ⟨fun hsw hr => ?_, fun hsw hr => ?_, fun hsw hf => ?_,
      fun hsw hf => ?_, fun hsw => ⟨exec_sliceIdleEnd_busy hsl hst hsw, exec_sliceIdleEnd_first hsl hst hsw,
        fun t => exec_sliceIdleEnd_late hsl hst hsw⟩⟩, fun p hst hsw hf => exec_sliceExpiry_stopped hsl hst hsw hf⟩,
      fun sl hsl _ _ => ?_⟩,
    fun s c => ⟨exec_stallSample_early, exec_stallSample_due, exec_lostRecord_none, exec_lostRecord_some, fun h => ?_,
      exec_timebaseWrap_due⟩⟩
  · simp only [exec_sliceExpiry, execSliceExpiry, hsl, hst]
  · simp only [exec_sliceIdleEnd, execSliceIdleEnd, hsl]
  · rw [exec_sliceExpiry_running hsl hst, if_pos hsw, if_pos hr]
  · rw [exec_sliceExpiry_running hsl hst, if_pos hsw, if_neg (by simp [hr])]
  · rw [exec_sliceExpiry_running hsl hst, if_neg (by simp [hsw]), if_pos hf]
  · rw [exec_sliceExpiry_running hsl hst, if_neg (by simp [hsw]), if_neg (by omega)]
  · have hform := beginSwitch_eq hsl
    refine ⟨_, congrArg State.slice hform, rfl, rfl, rfl, rfl, ?_, fun c l f => laneFrame_beginSwitch hsl⟩
    rw [hform]
    exact (switchNoted_kept s sl).1
  · rw [exec_timebaseWrap, execTimebaseWrap, if_neg fun h' => h h'.1]

end Sys2Proof.Proofs
end

section
/-!
PROOFS. Engines at work: entries, parts, chunks and members.
-/
namespace Sys2Proof.Proofs
open Sys2Proof Sys2Proof.Machine Sys2Proof.Spec

/-! ## Entries of the matrix queue (O51) -/

theorem exec_engineEntryStart_mq {s : State} {c i : Nat} {e : MqEntry} (h : mqOf (dropFences s c) c i = some e) :
    exec (.engineEntryStart c i) s =
      .next (if entryReady (dropFences s c) c e = true then startEntry (dropFences s c) c e else dropFences s c) := by
  simp only [exec_engineEntryStart, execEngineEntryStart, h, mqStart]

theorem exec_engineEntryFinish_mq {s : State} {c i : Nat} {e : MqEntry} (h : mqOf s c i = some e) :
    exec (.engineEntryFinish c i) s = .next (mqFinish s c e) := by
  simp only [exec_engineEntryFinish, execEngineEntryFinish, h]

theorem mqFinish_unfinished {s : State} {c : Nat} {e : MqEntry} (h : e.finished = false ∨ engineDrained s c e.id = false) :
    mqFinish s c e = s := by
  rcases h with h | h <;> simp [mqFinish, h]

theorem mqFinish_faulted {s : State} {c : Nat} {e : MqEntry} (h : e.fault.isSome = true) : mqFinish s c e = s := by
  simp [mqFinish, h]

theorem mqFinish_rsvFree {s : State} {c r : Nat} {e : MqEntry} (hk : e.kind = .rsvFree r) (hf : e.finished = true) (hn : e.fault = none)
    (hd : engineDrained s c e.id = true) (hj : jointBusy s e = false) :
    mqFinish s c e = sweepLatches (dropEntry (finishFlags s c e.lf e.lanes e.flag) c e) := by
  have hr : readOther s c e = none := by simp only [readOther, hk]
  simp only [mqFinish, hf, hn, hd, hj, hr, hk, Bool.not_true, Option.isSome_none, Bool.or_self, Bool.false_eq_true, if_false]

theorem exec_groveLaneDone_row {s : State} {c i : Nat} {e : MqEntry} {rows : Table Nat} {act : BitVec 8} {d : Table Word}
    (h : mqOf s c i = some e) (hk : e.kind = .groveRow rows act d) (hs : e.started = true) (hr : entryReady s c e = true) :
    exec (.groveLaneDone c i) s = .next (rowStep s c e rows) := by
  simp only [exec_groveLaneDone, execGroveLaneDone, h, hk, hs, hr, Bool.and_self, if_true]

theorem stepped_mem (s : State) (c : Nat) (e : MqEntry) (n : Nat) (b : Bool) : (stepped s c e n b).mem = s.mem := rfl

/-- The tile of ACC.ZERO (R230). -/
theorem mqTiles_accZero {t : Nat} (h : t < 64) : mqTiles (.accZero t) = [t] := by
  have hd : decide (100 ≤ 100 + t ∧ 100 + t < 200) = true := decide_eq_true (by omega)
  simp only [mqTiles, mqNames, List.filter_cons, hd, if_true, List.filter_nil, List.map_cons, List.map_nil, Nat.add_sub_cancel_left]

theorem startEntry_accZero {s : State} {c t : Nat} {e : MqEntry} (hk : e.kind = .accZero t) (ht : t < 64)
    (ho : tileOther s c e.wg t = false) (hs : needsSpill s c t = false) :
    startEntry s c e = stepped (zeroTile (claimTile s c e.wg t) c t) c e 0 true := by
  have hl : atLatch e = false := by simp [atLatch, hk]
  simp only [startEntry, hk, mqTiles_accZero ht, List.find?_cons, hs, List.find?_nil, hl, Bool.false_eq_true, if_false, entryStep, ho]

theorem read_zeroTile (s : State) (c t : Nat) {row col : Nat} (hr : row < 64) (hc : col < 32) :
    Mem.read (zeroTile s c t).mem (tileAt c t row col) 4 = [0, 0, 0, 0] := by
  have hbyte (j : Nat) (hj : j < 4) : Mem.byte (zeroTile s c t).mem (tileAt c t row col + j) = 0 := by
    have hat : tileAt c t row col + j = tileAt c t 0 0 + (row * 128 + col * 4 + j) := by
      unfold tileAt
      omega
    rw [zeroTile, writeLocal_mem, hat, Mem.byte_write_of_lt (by rw [List.length_replicate]; omega), List.getElem_replicate]
  rw [show Mem.read (zeroTile s c t).mem (tileAt c t row col) 4 = (List.range 4).map (fun j => (0 : Byte)) from
    List.map_congr_left fun j hj => hbyte j (List.mem_range.mp hj)]
  rfl

/-! ## Operations of the copy and collective engines (O51) -/

theorem id_of_engOf {s : State} {c i : Nat} {e : EngOp} (h : engOf s c i = some e) : e.id = i := by
  simpa using List.find?_some h

theorem engOf_modEng {s : State} {c i : Nat} {e : EngOp} {g : EngOp → EngOp} (h : engOf s c i = some e) (hg : ∀ e, (g e).id = e.id) :
    engOf (modEng s c i g) c i = some (g e) := by
  have hcore : (Machine.core (modEng s c i g) c).c.eng = (Machine.core s c).c.eng.map (fun e => if e.id = i then g e else e) := by
    unfold modEng
    rw [core_modCore_self]
    rfl
  have hfind : (Machine.core s c).c.eng.find? (fun e => e.id = i) = some e := h
  rw [engOf, hcore, List.find?_map]
  have hp : (fun x : EngOp => decide ((if x.id = i then g x else x).id = i)) = fun x => decide (x.id = i) := by
    funext x
    by_cases hx : x.id = i <;> simp [hx, hg]
  have hp' : ((fun e : EngOp => decide (e.id = i)) ∘ fun e => if e.id = i then g e else e) = fun x => decide (x.id = i) := hp
  rw [hp', hfind, Option.map_some, if_pos (id_of_engOf h)]

theorem engFinish_working {s : State} {c : Nat} {e : EngOp} (hd : engDone s c e = false) (hn : e.ended = false) : engFinish s c e = s := by
  simp [engFinish, hd, hn]

theorem engFinish_xfer {s : State} {c : Nat} {e : EngOp} {x y : Shape} {org dc : List Int} (hk : e.kind = .xfer x y org dc) (hd : engDone s c e = true)
    (hn : e.ended = false) (hf : e.fault = none) :
    engFinish s c e = completeEngine (modEng (endEngine s c e) c e.id (fun e => { e with ended := true })) c { e with ended := true } 1 := by
  simp only [engFinish, hf, hn, hd, hk, Option.isSome_none, Bool.false_eq_true, if_false, if_true]

theorem addArrival_plain {t : State} {c n : Nat} {e : EngOp} (h : ∀ a, e.done ≠ .arrival a) : addArrival t c e n = some t := by
  unfold addArrival
  split
  · exact absurd ‹_› (h _)
  · rfl

section
variable {s : State} {c i : Nat} {e : EngOp} (he : engOf s c i = some e)
include he

theorem exec_engineEntryFinish_eng (hm : mqOf s c i = none) : exec (.engineEntryFinish c i) s = .next (engFinish s c e) := by
  simp only [exec_engineEntryFinish, execEngineEntryFinish, hm, he]

theorem exec_xferPartApplied_undrained {x y : Shape} {org dc : List Int} (hk : e.kind = .xfer x y org dc)
    (hd : engineDrained s c i = false) : exec (.xferPartApplied c i) s = .next s := by
  simp only [exec_xferPartApplied, execXferPartApplied, he, hk, hd]
  split
  · rfl
  · simp

theorem exec_xferPartApplied_sent {x y : Shape} {org dc : List Int} {p : List Elem} (hk : e.kind = .xfer x y org dc)
    (hp : (xferParts x y org dc)[e.progress]? = some p) (hs : e.sent = e.progress + 1) (hf : e.fault = none)
    (hd : engineDrained s c i = true) (ha : ∀ a, e.done ≠ .arrival a) :
    exec (.xferPartApplied c i) s = .next (modEng s c i (fun e => { e with progress := e.progress + 1 })) := by
  simp only [exec_xferPartApplied, execXferPartApplied, he, hk, hp, hs, hf, hd, addArrival_plain ha, ne_eq, not_true_eq_false,
    Option.isSome_none, Bool.not_true, Bool.false_eq_true, or_self, if_false]

theorem exec_collChunkDone_sent {x : Collective} (hk : e.kind = .coll x) (hp : e.progress ≠ x.total)
    (hs : e.sent = x.chunkEnd e.progress) (hf : e.fault = none) (hd : engineDrained s c i = true) (ha : ∀ a, e.done ≠ .arrival a) :
    exec (.collChunkDone c i) s = .next (modEng s c i (fun e => { e with progress := e.sent, missed := [] })) := by
  have hs' : ¬ e.sent ≠ x.chunkEnd e.progress := not_not_intro hs
  simp only [exec_collChunkDone, execCollChunkDone, he, hk, hp, hs', hf, hd, addArrival_plain ha,
    Option.isSome_none, Bool.not_true, Bool.false_eq_true, or_self, if_false]

theorem exec_launchRecordCopy_launch {l : List Byte} {deps : List (Nat × Nat)} {p : Nat} (hk : e.kind = .launch l deps p) :
    exec (.launchRecordCopy c i) s = .next (checkReady (dropEngine (endEngine
      { s with launches := s.launches ++ [launchFrom s.ops (ctxId s) e.number l deps p 64], ops := s.ops + 1 } c e) c e)) := by
  simp only [exec_launchRecordCopy, execLaunchRecordCopy, he, hk]
  rfl

/-- The operation `e` once member `j`'s beat is missed (R427). -/
def missedBy (s : State) (e : EngOp) (j : Nat) : EngOp :=
  { e with missed := put e.missed j ((look e.missed j (s.cycle, true)).1, true) }

theorem engOf_noteMissed (j : Nat) : engOf (noteMissed s c e j) c i = some (missedBy s e j) := by
  rw [noteMissed, id_of_engOf he]
  exact engOf_modEng he fun _ => rfl

theorem exec_collMemberAbsent_missed {x : Collective} {j : Nat} (hk : e.kind = .coll x) (hj : j < x.mems.length)
    (hp : x.onPart j = false) (hn : e.ended = false) (hh : engineHeld s c = false) :
    exec (.collMemberAbsent c i j) s =
      .next (if absentDue (noteMissed s c e j) (missedBy s e j) x = true then absentEnd (noteMissed s c e j) c (missedBy s e j) x
        else noteMissed s c e j) := by
  simp only [exec_collMemberAbsent, execCollMemberAbsent, he, hk, Nat.not_le.mpr hj, hp, hn, hh, engOf_noteMissed he,
    Bool.false_eq_true, or_self, if_false]

end

theorem unreachable_noteMissed {s : State} {c j : Nat} {e z : EngOp} :
    unreachable (noteMissed s c e j) z = true ↔ ∃ k n, (k, n, true) ∈ z.missed ∧ n + 2 ^ 26 ≤ s.cycle := by
  rw [unreachable, List.any_eq_true]
  constructor
  · rintro ⟨⟨k, n, b⟩, hm, h⟩
    rw [Bool.and_eq_true] at h
    obtain ⟨rfl, hn⟩ := h
    exact ⟨k, n, hm, of_decide_eq_true hn⟩
  · rintro ⟨k, n, hm, hn⟩
    exact ⟨(k, n, true), hm, by simpa [noteMissed, modEng, modCore] using hn⟩

theorem gangFor_noteMissed (s : State) (c j wg group : Nat) (e : EngOp) : gangFor (noteMissed s c e j) wg group = gangFor s wg group := rfl

theorem absentDue_alone {s : State} {c j : Nat} {e : EngOp} {x : Collective} (hg : gangFor s e.wg x.group = none) :
    absentDue (noteMissed s c e j) (missedBy s e j) x = unreachable (noteMissed s c e j) (missedBy s e j) := by
  have hg' : gangFor (noteMissed s c e j) (missedBy s e j).wg x.group = none := hg
  simp only [absentDue, hg']

theorem absentDue_gang {s : State} {c j : Nat} {e : EngOp} {x : Collective} {g : Gang} (hg : gangFor s e.wg x.group = some g) :
    absentDue (noteMissed s c e j) (missedBy s e j) x = true ↔ g.past = true ∧
      ((∃ k < x.mems.length, x.onPart k = false ∧ k ∉ g.acks) ∨ unreachable (noteMissed s c e j) (missedBy s e j) = true) := by
  have hg' : gangFor (noteMissed s c e j) (missedBy s e j).wg x.group = some g := hg
  simp only [absentDue, hg', Bool.and_eq_true, Bool.or_eq_true, List.any_eq_true, List.mem_range, Bool.not_eq_true',
    List.contains_eq_mem, decide_eq_false_iff_not]

/-! ## The watchdog of a gang (O51) -/

section
variable {s : State} {i : Nat} {x : Latch} {l : Launch} (hx : s.latches.find? (fun x => x.id = i) = some x)
  (hl : launchById s x.launch = some l) (hr : runs s l.ctx = true)
include hx

theorem exec_gangWatchdogExpiry_early (h : s.cycle < x.first + 2 ^ 24) : exec (.gangWatchdogExpiry i) s = .next s := by
  simp only [exec_gangWatchdogExpiry, execGangWatchdogExpiry, hx, h, decide_true, Bool.or_true, if_true]

include hl hr

theorem exec_gangWatchdogExpiry_due (hf : x.fired = false) (hp : ∀ p, s.stop = some p → p.cycle = s.cycle)
    (h : x.first + 2 ^ 24 ≤ s.cycle) : exec (.gangWatchdogExpiry i) s =
      .next (raiseLatch s x 28 (fun _ => x.gang.toNat % 2 ^ 27 + arrivedMask s x * 2 ^ 27)) := by
  have hs : s.stop.any (fun p => decide (p.cycle ≠ s.cycle)) = false := by
    cases hq : s.stop with
    | none => rfl
    | some p => simp [hp p hq]
  have h' : ¬ s.cycle < x.first + 2 ^ 24 := Nat.not_lt.mpr h
  simp only [exec_gangWatchdogExpiry, execGangWatchdogExpiry, hx, hl, hr, hf, hs, h', decide_false, Bool.not_true, Bool.or_self,
    Bool.false_eq_true, if_false]

end

/-! ## The events of the engines -/

theorem accZero_zeroes {s : State} {c t : Nat} {e : MqEntry} (hk : e.kind = .accZero t) (ht : t < 64)
    (ho : tileOther s c e.wg t = false) (hs : needsSpill s c t = false) {row col : Nat} (hr : row < 64) (hc : col < 32) :
    Mem.word (startEntry s c e).mem (tileAt c t row col) = 0 := by
  rw [startEntry_accZero hk ht ho hs, stepped_mem, Mem.word, read_zeroTile _ _ _ hr hc]
  rfl

/-- Settles O51, clause by clause: matrix-queue entries, copy and collective operations, launch records, and the gang's watchdog. -/
theorem engineEvents : Obligations.EngineEvents := by
  unfold Obligations.EngineEvents
  refine ⟨fun s c i e => ⟨fun h hr => ?_, fun h hr => ?_, fun h => ⟨fun hd => ?_, fun hf => ?_, fun r hk hf hn hd hj => ?_,
    fun rows act d hk hs hr => ?_⟩⟩, fun s c e t hk ht ho hs row hr col hc => accZero_zeroes hk ht ho hs hr hc,
    fun s c i e he => ⟨fun hm => ⟨fun hd hn => ?_, fun hd hn hf x y org dc hk => ?_⟩,
      fun x y org dc p hk hp hs hf => ⟨exec_xferPartApplied_undrained he hk, exec_xferPartApplied_sent he hk hp hs hf⟩,
      fun x hk => ⟨exec_collChunkDone_sent he hk, fun j hj hp hn hh => ?_⟩, fun l deps p => exec_launchRecordCopy_launch he⟩,
    fun s i x l hx hl hr hf hp => ⟨exec_gangWatchdogExpiry_early hx, exec_gangWatchdogExpiry_due hx hl hr hf hp⟩⟩
  · rw [exec_engineEntryStart_mq h, hr]
    rfl
  · rw [exec_engineEntryStart_mq h, hr]
    rfl
  · rw [exec_engineEntryFinish_mq h, mqFinish_unfinished hd]
  · rw [exec_engineEntryFinish_mq h, mqFinish_faulted hf]
  · rw [exec_engineEntryFinish_mq h, mqFinish_rsvFree hk hf hn hd hj]
  · exact exec_groveLaneDone_row h hk hs hr
  · rw [exec_engineEntryFinish_eng he hm, engFinish_working hd hn]
  · rw [exec_engineEntryFinish_eng he hm, engFinish_xfer hk hd hn hf]
  · have hexec := exec_collMemberAbsent_missed he hk hj hp hn hh
    refine ⟨engOf_noteMissed he j, fun hg => ?_, fun g hg => ⟨fun hpast hdue => ?_, fun hpast => ?_⟩⟩
    · rw [absentDue_alone hg] at hexec
      refine ⟨fun hl => ?_, fun hl => ?_⟩
      · rw [hexec, if_neg (fun h => hl (unreachable_noteMissed.mp h) : ¬ unreachable _ (missedBy s e j) = true)]
      · rw [hexec, if_pos (unreachable_noteMissed.mpr hl : unreachable _ (missedBy s e j) = true)]
        rfl
    · rw [hexec, if_pos ((absentDue_gang hg).mpr ⟨hpast, hdue.imp_right unreachable_noteMissed.mpr⟩)]
      rfl
    · rw [hexec, if_neg fun h => Bool.false_ne_true (hpast.symm.trans ((absentDue_gang hg).mp h).1)]

end Sys2Proof.Proofs
end

section
/-!
PROOFS. Service calls, the debug window, launch queues and the host.
-/
namespace Sys2Proof.Proofs
open Sys2Proof Sys2Proof.Machine Sys2Proof.Spec

/-! ## Service calls (O52) -/

section
variable {s : State} {c l slot : Nat} {f : LaneFrame} {cl : Clause} {h : CallHold}

theorem callSlotOf_eq (hs : f.callSlot = some slot ∨ (f.callSlot = none ∧ freeSlot (Machine.core s c) = some slot)) :
    callSlotOf s c f = some slot := by
  unfold callSlotOf
  rcases hs with hs | ⟨hn, hs⟩
  · simp only [hs]
  · simp only [hn, hs]

theorem exec_callRingPost_holding (hf : laneFrame s c l = some f) (hc : f.clause = some cl) (hh : f.call = some h)
    (hheld : coreHeld s c = false) (hs : callSlotOf s c f = some slot) :
    exec (.callRingPost c l) s = .next (callGo (modLF s c l (fun f => { f with callSlot := some slot }))
      ⟨c, l, { f with callSlot := some slot }, cl⟩ h slot) := by
  simp only [exec_callRingPost, execCallRingPost, hf, hc, hh, hs, hheld, Bool.false_eq_true, if_false]

variable {u : Iss}

theorem callGo_written_busy (hw : h.written = true) (hm : mastWriting s u.c = true) : callGo s u h slot = s := by
  simp only [callGo, hw, hm, if_true]

theorem callGo_written_done (hw : h.written = true) (hm : mastWriting s u.c = false) : callGo s u h slot = postCall s u slot h.op := by
  simp only [callGo, hw, hm, if_true, Bool.false_eq_true, if_false]

theorem callGo_fenced (hw : h.written = false) (hx : xHeld s (callCmd u h.op) = true) : callGo s u h slot = dropFences s u.c := by
  simp only [callGo, hw, hx, if_true, Bool.false_eq_true, if_false]

theorem callGo_unreleased (hw : h.written = false) (hx : xHeld s (callCmd u h.op) = false)
    (hr : released s u.c u.l u.cl.lanes h.op .dev = false) : callGo s u h slot = s := by
  simp only [callGo, hw, hx, hr, Bool.not_false, Bool.true_or, if_true, Bool.false_eq_true, if_false]

theorem callGo_writes {n key : Nat} {d : Table Byte} {dirty : Option (Nat × Nat)} {s1 : State} (hw : h.written = false)
    (hx : xHeld s (callCmd u h.op) = false) (hr : released s u.c u.l u.cl.lanes h.op .dev = true) (ha : ringAllows s u.c slot 1 = true)
    (hd : slotBytes s u h.svc = some d)
    (hp : mastPlace s u.c (Machine.mast s u.c).ringCtx (slotVa (Machine.mast s u.c) slot) 2048 1 true = (.place n key dirty, s1)) :
    callGo s u h slot = writeCall s1 u n key dirty d := by
  simp only [callGo, hw, hx, hr, ha, hd, hp, Bool.not_true, Bool.or_self, Bool.false_eq_true, if_false]

end

theorem exec_syscallReturn_fired {s s1 s2 : State} {c slot : Nat} {x : CallSlot} {mon : Monitor} {f : LaneFrame} {b : List Byte}
    {v : Table Word} (hx : lookup (Machine.mast s c).calls slot = some x)
    (hm : s.monitors.find? (fun m => decide (m.core = c ∧ m.call = some slot)) = some mon) (hfired : mon.fired = true)
    (hctx : x.ctx = ctxId s) (hsl : s.slice.isSome = true) (hf : laneFrame s c x.lf = some f) (hr : ringAllows s c slot 0 = true)
    (hread : mastRead s c (Machine.mast s c).ringCtx (slotVa (Machine.mast s c) slot) 4 0 true = (.bytes b, s1)) (hb : leNat b ≠ 0)
    (hv : returnWords s1 c slot (lanesOf (waiting f (fun w => decide (w = .syscall slot)) &&& x.lanes)) = (.ok v, s2)) :
    exec (.syscallReturn c slot) s =
      .next (returnCall s2 c slot x.lf (waiting f (fun w => decide (w = .syscall slot)) &&& x.lanes) v) := by
  have hsl' : s.slice.isNone = false := by rw [← Option.not_isSome, hsl]; rfl
  simp only [exec_syscallReturn, execSyscallReturn, hx, hm, hfired, hctx, hsl', hf, syscallReturn, hr, hread, if_neg hb, hv,
    Bool.not_true, ne_eq, not_true_eq_false, Bool.false_eq_true, or_self, if_false]

theorem mast_modLF (s : State) (c l : Nat) (g : LaneFrame → LaneFrame) (d : Nat) : Machine.mast (modLF s c l g) d = Machine.mast s d := by
  by_cases h : d = c
  · subst h
    rw [Machine.mast, modLF, core_modCore_self]
    rfl
  · rw [Machine.mast, modLF, core_modCore_ne _ _ h]
    rfl

/-! ## Reads of MCALLQ and MMSGA (O52) -/

theorem popInto_user {s : State} {c rd : Nat} {pop : State → Nat → DWord × State} (hup : mastUp s c = true)
    (hm : (Machine.mast s c).mode = .u) : popInto s c rd pop = mastTrap s c 2 0 := by
  simp only [popInto, hup, hm, Bool.not_true, Bool.false_eq_true, if_false, if_true]

theorem popInto_taken {s t : State} {c rd : Nat} {pop : State → Nat → DWord × State} {v : DWord} (hup : mastUp s c = true)
    (hm : (Machine.mast s c).mode ≠ .u) (hp : pop s c = (v, t)) : popInto s c rd pop = setX t c rd v := by
  simp only [popInto, hup, if_neg hm, hp, Bool.not_true, Bool.false_eq_true, if_false]

theorem popCall_empty {s : State} {c : Nat} (h : (Machine.mast s c).posted = []) : popCall s c = (0, s) := by
  simp only [popCall, h]

theorem popCall_cons {s : State} {c x : Nat} {r : List Nat} (h : (Machine.mast s c).posted = x :: r) : popCall s c =
    (BitVec.ofNat 64 (2 ^ 63 + x % 16), modMast s c (fun m => { m with posted := r, head := m.head + 1 })) := by
  simp only [popCall, h]

theorem popMessage_empty {s : State} {c : Nat} (h : (Machine.mast s c).msgs = []) : popMessage s c = (0, s) := by
  simp only [popMessage, h]

theorem popMessage_cons {s : State} {c : Nat} {x : Msg} {r : List Msg} (h : (Machine.mast s c).msgs = x :: r) : popMessage s c =
    (BitVec.ofNat 64 (2 ^ 63 + x.tid % 1024 * 2 ^ 53 + x.ctx % 65536 * 2 ^ 37 + x.lf % 64 * 2 ^ 31 + x.chan % 32),
      modMast s c (fun m => { m with msgs := r, mmsgb := x.value.setWidth 64 })) := by
  simp only [popMessage, h]

theorem exec_mntpendWrite_user {s : State} {c : Nat} (v : DWord) (hup : mastUp s c = true) (hm : (Machine.mast s c).mode = .u) :
    exec (.mntpendWrite c v) s = .next (mastTrap s c 2 0) := by
  simp only [exec_mntpendWrite, execMntpendWrite, hup, hm, Bool.not_true, Bool.false_eq_true, if_false, if_true]

theorem exec_mntpendWrite_taken {s : State} {c : Nat} (v : DWord) (hup : mastUp s c = true) (hm : (Machine.mast s c).mode ≠ .u) :
    exec (.mntpendWrite c v) s = .next (modMast s c (fun m => { m with mntpend := m.mntpend &&& ~~~(v.setWidth 32) })) := by
  simp only [exec_mntpendWrite, execMntpendWrite, hup, if_neg hm, Bool.not_true, Bool.false_eq_true, if_false]

/-! ## Notify registers (O52) -/

section
variable {s : State} {link c k : Nat} {v : Word}

theorem exec_notifyWrite_deaf (h : hostFacing link = false) : exec (.notifyWrite ⟨link, c⟩ k v) s = .next s := by
  simp only [exec_notifyWrite, execNotifyWrite, h, Bool.not_false, if_true]

theorem exec_notifyWrite_held (h : hostFacing link = true) (hw : hostWritesLeft s link = true ∨ dieFenced s (c / 64) = true) :
    exec (.notifyWrite ⟨link, c⟩ k v) s = .next (holdHost s (.notify link c k v)) := by
  have hw' : (hostWritesLeft s link || dieFenced s (dieOf c)) = true := Bool.or_eq_true_iff.mpr hw
  simp only [exec_notifyWrite, execNotifyWrite, h, hw', Bool.not_true, Bool.false_eq_true, if_false, if_true]

theorem exec_notifyWrite_through (h : hostFacing link = true) (hw : hostWritesLeft s link = false) (hd : dieFenced s (c / 64) = false) :
    exec (.notifyWrite ⟨link, c⟩ k v) s = .next (notifyWrite s c k v) := by
  have hd' : dieFenced s (dieOf c) = false := hd
  simp only [exec_notifyWrite, execNotifyWrite, h, hw, hd', Bool.not_true, Bool.or_self, Bool.false_eq_true, if_false]

theorem notifyWrite_ignored (h : coreCount s ≤ c ∨ 32 ≤ k ∨ dieGone s (c / 64) = true) : notifyWrite s c k v = s := if_pos h

theorem notifyWrite_taken (hc : c < coreCount s) (hk : k < 32) (hd : dieGone s (c / 64) = false) : notifyWrite s c k v =
    modMast s c (fun m => { m with notify := m.notify.set k v, mntpend := m.mntpend ||| BitVec.twoPow 32 k }) := by
  refine if_neg fun h => ?_
  rcases h with h | h | h
  · omega
  · omega
  · exact Bool.false_ne_true (hd.symm.trans h)

end

/-! ## The debug window (O52) -/

section
variable {s : State} {c l lane : Nat} {f : LaneFrame}

theorem windowTakes_false {t : Thread} (h : t.live = false ∨ t.parked = false) : windowTakes t = false := by
  rcases h with h | h <;> simp [windowTakes, h]

theorem windowTakes_parked {t : Thread} (h : t.live = true) (hp : t.parked = true) : windowTakes t = true := by
  simp [windowTakes, h, hp]

theorem windowRegister_running (w : Nat) (v : Word) (hf : laneFrame s c l = some f) (h : windowTakes (thread f lane) = false) :
    windowRegister s c l lane w v = s := by
  simp only [windowRegister, hf, h, Bool.not_false, true_or, if_true]

theorem windowRegister_beyond {w : Nat} (v : Word) (hf : laneFrame s c l = some f) (hw : 34 ≤ w) : windowRegister s c l lane w v = s := by
  simp only [windowRegister, hf, hw, true_or, or_true, if_true]

theorem windowRegister_register {w : Nat} (v : Word) (hf : laneFrame s c l = some f) (h : windowTakes (thread f lane) = true)
    (hlane : lane < 32) (hw : w < 32) :
    windowRegister s c l lane w v = modLF s c l (fun f => modThread f lane (fun t => putThreadWord t w v)) := by
  simp only [windowRegister, hf, h, Bool.not_true, Nat.not_le.mpr hlane, Nat.not_le.mpr (by omega : w < 34), hw, Bool.false_eq_true,
    or_self, if_false, if_true]

theorem putThreadWord_named {t : Thread} {w : Nat} (v : Word) (h0 : 0 < w) (h : w < 16) : putThreadWord t w v = { t with n := t.n.set w v } := by
  simp only [putThreadWord, if_neg (by omega : ¬ w = 0), if_pos h]

theorem windowEnd_running (hf : laneFrame s c l = some f) (h : windowTakes (thread f lane) = false) : windowEnd s c l lane = s := by
  simp only [windowEnd, hf, h, Bool.not_false, if_true]

theorem windowUnpark_running (hf : laneFrame s c l = some f) (h : windowTakes (thread f lane) = false) : windowUnpark s c l lane = s := by
  simp only [windowUnpark, hf, h, Bool.not_false, if_true]

theorem windowUnpark_parked (hf : laneFrame s c l = some f) (h : windowTakes (thread f lane) = true) (hw : (thread f lane).wait = none) :
    windowUnpark s c l lane = arriveAt (modLF (emptyReadAhead (leaveWaits s c l lane (thread f lane) true) c) c l
      (fun f => wakeLF f (BitVec.twoPow 32 lane))) c l (BitVec.twoPow 32 lane) := by
  simp only [windowUnpark, hf, h, hw, Bool.not_true, Option.isSome_none, Bool.false_eq_true, if_false]

/-- A thread as the window ends it (R316). -/
def windowEnded (t : Thread) : Thread := { t with live := false, parked := false, stop := false, wait := none, regroup := false }

theorem windowEnd_parked (hf : laneFrame s c l = some f) (h : windowTakes (thread f lane) = true) : windowEnd s c l lane =
    regroupTest (leaveWaits (modLF s c l (fun f => modThread f lane windowEnded)) c l lane (thread f lane) true) f.wg := by
  simp only [windowEnd, hf, h, Bool.not_true, Bool.false_eq_true, if_false]
  rfl

theorem leaveWaits_unwaiting {t : Thread} (hw : t.wait = none) :
    leaveWaits s c l lane t true = leaveCall (leaveReader (dropShare s c l lane true) c l lane) c l lane := by
  simp only [leaveWaits, hw, reduceCtorEq, if_false, if_true]

theorem laneFrame_leaveWaits {t : Thread} (hw : t.wait = none) (d m : Nat) :
    laneFrame (leaveWaits s c l lane t true) d m = laneFrame s d m := by
  rw [leaveWaits_unwaiting hw]
  exact (laneFrame_modCore rfl d m).trans (laneFrame_modCore rfl d m)

theorem leaveWaits_mem {t : Thread} (hw : t.wait = none) : (leaveWaits s c l lane t true).mem = s.mem := by
  rw [leaveWaits_unwaiting hw]
  rfl

theorem thread_modThread_self {th : Thread} (g : Thread → Thread) (h : lookup f.threads lane = some th) :
    thread (modThread f lane g) lane = g th :=
  thread_of_lookup (by rw [lookup_modThread, if_pos rfl, h]; rfl)

theorem windowEnd_spec {th : Thread} (hf : laneFrame s c l = some f) (h : windowTakes (thread f lane) = true)
    (hw : (thread f lane).wait = none) (hth : lookup f.threads lane = some th) : ∃ g, laneFrame (windowEnd s c l lane) c l = some g ∧
      (thread g lane).live = false ∧ (thread g lane).n = th.n ∧ (windowEnd s c l lane).mem = s.mem := by
  rw [windowEnd_parked hf h]
  generalize ht : leaveWaits _ c l lane (thread f lane) true = t
  have hmem : t.mem = s.mem := by rw [← ht, leaveWaits_mem hw]; rfl
  have htf : laneFrame t c l = some (modThread f lane windowEnded) := by
    rw [← ht, laneFrame_leaveWaits hw, laneFrame_modLF_self hf]
  have hr := Regrouped.regroupTest t f.wg
  obtain ⟨ts, m, hm, hlf, hts⟩ := hr.lane htf
  obtain ⟨a, b, hab⟩ := hm lane (windowEnded th)
  have hthread : thread { modThread f lane windowEnded with threads := ts } lane = m lane (windowEnded th) :=
    thread_of_lookup (by rw [hts, lookup_modThread, if_pos rfl, hth]; rfl)
  refine ⟨_, hlf, ?_, ?_, ?_⟩
  · rw [hthread, hab]
    rfl
  · rw [hthread, hab]
    rfl
  · rw [hr.frame]
    exact hmem

end

/-! ## Calls, messages, notify registers and the window -/

/-- Settles O52, clause by clause. -/
theorem callsMessagesAndWindow : Obligations.CallsMessagesAndWindow := by
  unfold Obligations.CallsMessagesAndWindow
  refine ⟨⟨fun s c l slot n key f cl h d dirty s1 hf hc hh hheld hs => ?_, fun s s1 s2 c slot x mon f b v hx hm hfired hctx hsl hf hr hread hb hv =>
    exec_syscallReturn_fired hx hm hfired hctx hsl hf hr hread hb hv, fun s c rd hup => ⟨fun hm => ?_, fun hm => ?_⟩⟩,
    fun s link c k v => ⟨exec_notifyWrite_deaf, exec_notifyWrite_held, fun h hw hd => ?_⟩, fun s c l lane w f v hf hlane => ?_⟩
  · rw [exec_callRingPost_holding hf hc hh hheld (callSlotOf_eq hs)]
    refine ⟨fun hw => ⟨fun hx => ?_, fun hx hr => ?_, fun hx hr ha hd hp => ?_⟩, fun hw => ⟨fun hm => ?_, fun hm => ?_⟩⟩
    · rw [callGo_fenced hw hx]
    · rw [callGo_unreleased hw hx hr]
    · rw [← mast_modLF s c l (fun f => { f with callSlot := some slot })] at hp
      rw [callGo_writes hw hx hr ha hd hp]
    · rw [callGo_written_busy hw hm]
    · rw [callGo_written_done hw hm]
  · exact ⟨congrArg _ (popInto_user hup hm), congrArg _ (popInto_user hup hm), fun v => exec_mntpendWrite_user v hup hm⟩
  · exact ⟨fun h => congrArg _ (popInto_taken hup hm (popCall_empty h)), fun x r h => congrArg _ (popInto_taken hup hm (popCall_cons h)),
      fun h => congrArg _ (popInto_taken hup hm (popMessage_empty h)), fun x r h => congrArg _ (popInto_taken hup hm (popMessage_cons h)),
      fun v => exec_mntpendWrite_taken v hup hm⟩
  · rw [exec_notifyWrite_through h hw hd]
    refine ⟨fun hg => ?_, fun hc hk hg => ?_, fun hk => ?_⟩
    · rw [notifyWrite_ignored (.inr (.inr hg))]
    · rw [notifyWrite_taken hc hk hg]
    · rw [notifyWrite_ignored (.inr (.inl hk))]
  · refine ⟨fun h => ?_, fun hlive hpark hth => ?_⟩
    · have ht := windowTakes_false h
      exact ⟨congrArg _ (windowRegister_running w v hf ht), congrArg _ (windowEnd_running hf ht), congrArg _ (windowUnpark_running hf ht)⟩
    · have ht := windowTakes_parked hlive hpark
      refine ⟨fun hw => congrArg _ (windowRegister_beyond v hf hw), fun h0 hw => ?_, fun hwait => ?_,
        fun hwait => congrArg _ (windowUnpark_parked hf ht hwait)⟩
      · refine ⟨_, _, congrArg Host.Outcome.next (windowRegister_register v hf ht hlane (by omega)), laneFrame_modLF_self hf _, ?_⟩
        rw [thread_modThread_self _ hth, putThreadWord_named v h0 hw]
        exact ⟨rfl, rfl, rfl, hpark, rfl⟩
      · obtain ⟨g, hg⟩ := windowEnd_spec hf ht hwait hth
        exact ⟨_, g, rfl, hg⟩

/-! ## Registers of host launch queues (O53) -/

theorem queue_modQueue_self (s : State) (q : Nat) (f : Queue → Queue) : queue (modQueue s q f) q = f (queue s q) :=
  look_put_self s.queues q _ _

theorem queue_tell (s : State) (m : HostMsg) (q : Nat) : queue (Machine.tell s m) q = queue s q := rfl

theorem toNat_qerrOf (stop : Bool) (tries code : Nat) :
    (qerrOf stop tries code).toNat = bnat stop * 2 ^ 31 + tries % 16 * 2 ^ 8 + code % 256 := by
  rw [qerrOf, BitVec.toNat_ofNat]
  refine Nat.mod_eq_of_lt ?_
  have hb : bnat stop ≤ 1 := by cases stop <;> decide
  omega

theorem stopQueue_running {s : State} {q : Nat} (tries code : Nat) (h : (queue s q).stopped = false) : stopQueue s q tries code =
    tell (modQueue s q (fun x => { x with qerr := qerrOf true tries code, refetchAt := none })) (.queueInterrupt q) := by
  simp only [stopQueue, h, Bool.false_eq_true, if_false]

theorem head_stopQueue (s : State) (q tries code : Nat) : (queue (stopQueue s q tries code) q).head = (queue s q).head := by
  cases h : (queue s q).stopped with
  | false =>
    rw [stopQueue_running _ _ h, queue_tell, queue_modQueue_self]
  | true => simp only [stopQueue, h, if_true]

section
variable {s : State} {q : Nat} (hq : q < 64)
include hq

theorem exec_qnotifyWrite_fits {v : Word} (h : (v - (queue s q).head).toNat ≤ (queue s q).size) :
    exec (.qnotifyWrite q v) s = .next (modQueue s q (fun x => { x with tail := v })) := by
  simp only [exec_qnotifyWrite, execQnotifyWrite, if_neg (Nat.not_le.mpr hq), if_neg (Nat.not_lt.mpr h)]

theorem exec_qnotifyWrite_overruns {v : Word} (h : (queue s q).size < (v - (queue s q).head).toNat) :
    exec (.qnotifyWrite q v) s = .next (stopQueue s q (queue s q).tries 7) := by
  simp only [exec_qnotifyWrite, execQnotifyWrite, if_neg (Nat.not_le.mpr hq), if_pos h]

theorem qnotifyWrite_overruns_spec {v : Word} (h : (queue s q).size < (v - (queue s q).head).toNat) (hs : (queue s q).stopped = false) :
    ∃ t, exec (.qnotifyWrite q v) s = .next t ∧ (queue t q).tail = (queue s q).tail ∧
      (queue t q).qerr.toNat = 2 ^ 31 + (queue s q).tries % 16 * 2 ^ 8 + 7 ∧ t.sent = .queueInterrupt q :: s.sent := by
  refine ⟨_, exec_qnotifyWrite_overruns hq h, ?_⟩
  rw [stopQueue_running _ _ hs, queue_tell, queue_modQueue_self]
  refine ⟨rfl, ?_, rfl⟩
  rw [toNat_qerrOf]
  simp [bnat]

theorem qnotifyWrite_spec (v : Word) : ∃ t, exec (.qnotifyWrite q v) s = .next t ∧ (queue t q).head = (queue s q).head ∧
    ((v - (queue s q).head).toNat ≤ (queue s q).size → (queue t q).tail = v) := by
  by_cases h : (v - (queue s q).head).toNat ≤ (queue s q).size
  · refine ⟨_, exec_qnotifyWrite_fits hq h, ?_⟩
    rw [queue_modQueue_self]
    exact ⟨rfl, fun _ => rfl⟩
  · exact ⟨_, exec_qnotifyWrite_overruns hq (Nat.lt_of_not_le h), head_stopQueue .., fun hf => absurd hf h⟩

theorem exec_qerrWrite_clears {v : Word} (h : v.getLsbD 31 = true) :
    exec (.qerrWrite q v) s = .next (modQueue s q (fun x => { x with qerr := 0, refetchAt := none })) := by
  simp only [exec_qerrWrite, execQerrWrite, Nat.not_le.mpr hq, h, Bool.not_true, Bool.false_eq_true, or_self, if_false]

omit hq in
theorem exec_qerrWrite_keeps {v : Word} (h : v.getLsbD 31 = false) : exec (.qerrWrite q v) s = .next s := by
  simp only [exec_qerrWrite, execQerrWrite, h, Bool.not_false, or_true, if_true]

theorem qerrWrite_spec (v : Word) : ∃ t, exec (.qerrWrite q v) s = .next t ∧ (v.getLsbD 31 = true → (queue t q).qerr = 0) := by
  cases h : v.getLsbD 31 with
  | true => exact ⟨_, exec_qerrWrite_clears hq h, fun _ => by rw [queue_modQueue_self]⟩
  | false => exact ⟨_, exec_qerrWrite_keeps h, fun hf => by cases hf⟩

/-! ## Reads of the ring (O53) -/

theorem exec_queueEntryFetch_working (hw : queueWorks (queue s q) = true) (hr : (queue s q).refetchAt = none) :
    exec (.queueEntryFetch q) s = .next (readEntry s q (queue s q)) := by
  simp only [exec_queueEntryFetch, execQueueEntryFetch, Nat.not_le.mpr hq, hw, hr, Bool.not_true, Option.isSome_none,
    Bool.false_eq_true, or_self, if_false]

omit hq in
theorem exec_queueEntryFetch_idle (hw : queueWorks (queue s q) = false) : exec (.queueEntryFetch q) s = .next s := by
  simp only [exec_queueEntryFetch, execQueueEntryFetch, hw, Bool.not_false, true_or, or_true, if_true]

omit hq in
theorem exec_queueEntryRefetch_idle (hw : queueWorks (queue s q) = false) : exec (.queueEntryRefetch q) s = .next s := by
  simp only [exec_queueEntryRefetch, execQueueEntryRefetch, hw, Bool.not_false, true_or, or_true, if_true]
  split <;> rfl

omit hq in
theorem exec_queueEntryRefetch_early {t : Nat} (hr : (queue s q).refetchAt = some t) (ht : s.cycle < t) :
    exec (.queueEntryRefetch q) s = .next s := by
  simp only [exec_queueEntryRefetch, execQueueEntryRefetch, hr, ht, or_true, if_true]

theorem exec_queueEntryRefetch_due {t : Nat} (hw : queueWorks (queue s q) = true) (hr : (queue s q).refetchAt = some t) (ht : t ≤ s.cycle) :
    exec (.queueEntryRefetch q) s = .next (readEntry s q (queue s q)) := by
  simp only [exec_queueEntryRefetch, execQueueEntryRefetch, Nat.not_le.mpr hq, hw, hr, Nat.not_lt.mpr ht, Bool.not_true,
    Bool.false_eq_true, or_self, if_false]

end

theorem exec_queueEntryFetch_next (s : State) (q : Nat) : ∃ t, exec (.queueEntryFetch q) s = .next t := by
  rw [exec_queueEntryFetch, execQueueEntryFetch]
  split <;> exact ⟨_, rfl⟩

theorem exec_queueEntryRefetch_next (s : State) (q : Nat) : ∃ t, exec (.queueEntryRefetch q) s = .next t := by
  rw [exec_queueEntryRefetch]
  simp only [execQueueEntryRefetch]
  split
  · exact ⟨_, rfl⟩
  · split <;> exact ⟨_, rfl⟩

theorem readEntry_passes {s s1 : State} {q : Nat} {x : Queue} {d : Descriptor} {b : List Byte} (hd : queueDesc s x = some d)
    (hread : (if x.inHost then hostRead s d.pasid x.entryAt 256 else schedRead s x.ctx x.entryAt 256) = (.bytes b, s1))
    (hseq : field b 0 4 = x.head.toNat) (hu : queueUsable s1 x = true) (hcode : entryCode s1 x.ctx b = none) :
    readEntry s q x = takeEntry s1 q x b := by
  simp only [readEntry, hd, hread, hseq, hu, hcode, ne_eq, not_true_eq_false, Bool.not_true, Bool.false_eq_true, if_false]

theorem staleEntry_again {s : State} {q : Nat} {x : Queue} (h : x.tries < 8) : staleEntry s q x =
    modQueue s q (fun y => { y with qerr := qerrOf false (x.tries + 1) 0, refetchAt := some (s.cycle + 2048) }) :=
  if_neg (Nat.not_le.mpr h)

theorem takeEntry_single {s : State} {q : Nat} {x : Queue} {b : List Byte} (h : x.gangArm = none) : takeEntry s q x b =
    checkReady (modQueue { s with
      ops := s.ops + 1
      launches := s.launches ++ [launchFrom s.ops x.ctx 0 ((b.drop 64).take 64)
        ((List.range (recordDeps ((b.drop 64).take 64))).map (depOf ((b.drop 128).take 64)))
        (min (bits (field ((b.drop 64).take 64) 36 4) 2 0) x.prio) q] } q
      (fun x => { x with head := x.head + 1, qerr := 0, refetchAt := none, gangArm := none })) := by
  simp only [takeEntry, h]
  rfl

/-! ## Gang launches (O53) -/

/-- Whether an acknowledgement of member `j` counts for a gang launch (R432). -/
def acksFor (s : State) (j : Nat) (e : Nat × Gang) : Bool :=
  !e.2.acks.contains j && decide (s.cycle ≤ e.2.deadline ∧ j < groupSize s e.2.group)

theorem acksFor_waiting {s : State} {j i : Nat} {g : Gang} (ha : g.acks.contains j = false) (hd : s.cycle ≤ g.deadline)
    (hj : j < groupSize s g.group) : acksFor s j (i, g) = true := by
  simp only [acksFor, ha, hd, hj, and_self, decide_true, Bool.not_false, Bool.and_self]

theorem acksFor_acked {s : State} {j i : Nat} {g : Gang} (ha : g.acks.contains j = true) : acksFor s j (i, g) = false := by
  simp only [acksFor, ha, Bool.not_true, Bool.false_and]

theorem acksFor_late {s : State} {j i : Nat} {g : Gang} (hd : g.deadline < s.cycle) : acksFor s j (i, g) = false := by
  simp only [acksFor, Nat.not_le.mpr hd, false_and, decide_false, Bool.and_false]

section
variable {s : State} {q j : Nat}

theorem exec_gangAck_counted {i : Nat} {g : Gang} (h : (openGangs s q).find? (acksFor s j) = some (i, g)) :
    exec (.gangAck q j) s = .next { s with gangs := put s.gangs i { g with acks := (j :: g.acks).dedup } } := by
  unfold acksFor at h
  simp only [exec_gangAck, execGangAck, h]

theorem exec_gangAck_kept (h : (openGangs s q).find? (acksFor s j) = none) : exec (.gangAck q j) s =
    .next (if (queue s q).gangArm.isSome ∧ j < 4096 then modQueue s q (fun x => { x with acks := (j :: x.acks).dedup }) else s) := by
  unfold acksFor at h
  simp only [exec_gangAck, execGangAck, h]
  exact (apply_ite _ _ _ _).symm

theorem exec_gangAck_frame (s : State) (q j : Nat) : ∃ t, exec (.gangAck q j) s = .next t ∧ t.mem = s.mem ∧ t.cores = s.cores := by
  cases h : (openGangs s q).find? (acksFor s j) with
  | some e => exact ⟨_, exec_gangAck_counted h, rfl, rfl⟩
  | none =>
    refine ⟨_, exec_gangAck_kept h, ?_⟩
    split <;> exact ⟨rfl, rfl⟩

/-- A gang launch passed once its deadline has come. -/
def passDue (t : State) (e : Nat × Gang) : State := if e.2.deadline ≤ t.cycle then passGang t e.1 e.2 else t

theorem exec_gangDeadline_eq (s : State) (q : Nat) : exec (.gangDeadline q) s = .next ((openGangs s q).foldl passDue s) := rfl

theorem passDue_due {t : State} {i : Nat} {g : Gang} (h : g.deadline ≤ t.cycle) : passDue t (i, g) = passGang t i g := if_pos h

theorem foldl_passDue_early {es : List (Nat × Gang)} (h : ∀ e ∈ es, s.cycle < e.2.deadline) : es.foldl passDue s = s := by
  induction es with
  | nil => rfl
  | cons e es ih =>
    have he : passDue s e = s := if_neg (Nat.not_le.mpr (h e List.mem_cons_self))
    rw [List.foldl_cons, he, ih fun x hx => h x (List.mem_cons_of_mem _ hx)]

theorem foldl_passDue_frame (es : List (Nat × Gang)) (s : State) :
    (es.foldl passDue s).mem = s.mem ∧ (es.foldl passDue s).queues = s.queues := by
  refine List.foldlRecOn es passDue (motive := fun (t : State) => t.mem = s.mem ∧ t.queues = s.queues) ⟨rfl, rfl⟩ fun t ht e _ => ?_
  unfold passDue
  split
  · exact ht
  · exact ht

end

/-! ## Queues and gang launches -/

/-- Settles O53, clause by clause: queue registers, reads of the ring, entries, and gang launches. -/
theorem queueEvents : Obligations.QueueEvents := by
  unfold Obligations.QueueEvents
  refine ⟨fun s q v hq => ⟨exec_qnotifyWrite_fits hq, qnotifyWrite_overruns_spec hq, qnotifyWrite_spec hq v, qerrWrite_spec hq v,
      exec_queueEntryFetch_next s q, exec_queueEntryRefetch_next s q, fun d b s1 hw hd hread hseq hu hcode => ⟨fun hr => ?_, fun t hr ht => ?_⟩,
      exec_qerrWrite_clears hq, exec_qerrWrite_keeps, exec_queueEntryFetch_working hq,
      fun hw => ⟨exec_queueEntryFetch_idle hw, exec_queueEntryRefetch_idle hw⟩,
      fun t hw hr => ⟨exec_queueEntryRefetch_early hr, exec_queueEntryRefetch_due hq hw hr⟩⟩,
    fun s q x b => ⟨staleEntry_again, takeEntry_single⟩, fun s q j i g r hopen => ⟨fun ha hd hj => ?_, fun ha i' g' r' hr ha' hd hj => ?_,
      fun hr hd => ?_, fun i' g' hr hd hd' => ?_⟩, fun s q j => ⟨fun hall harm => ?_, fun hall => ?_⟩,
    fun s q j => ⟨exec_gangAck_frame s q j, _, exec_gangDeadline_eq s q, foldl_passDue_frame _ s⟩⟩
  · rw [exec_queueEntryFetch_working hq hw hr, readEntry_passes hd hread hseq hu hcode]
  · rw [exec_queueEntryRefetch_due hq hw hr ht, readEntry_passes hd hread hseq hu hcode]
  · exact exec_gangAck_counted (by rw [hopen, List.find?_cons, acksFor_waiting ha hd hj])
  · exact exec_gangAck_counted (by rw [hopen, hr, List.find?_cons, acksFor_acked ha, List.find?_cons, acksFor_waiting ha' hd hj])
  · rw [exec_gangDeadline_eq, hopen, hr, List.foldl_cons, List.foldl_nil, passDue_due hd]
    rfl
  · rw [exec_gangDeadline_eq, hopen, hr, List.foldl_cons, List.foldl_cons, List.foldl_nil, passDue_due hd]
    exact congrArg _ (passDue_due hd')
  · have hnone : (openGangs s q).find? (acksFor s j) = none := by
      rw [List.find?_eq_none]
      intro e he
      have h := List.all_eq_true.mp hall e he
      rw [Bool.or_eq_true, decide_eq_true_eq] at h
      rcases h with h | h
      · exact fun hf => Bool.false_ne_true ((acksFor_acked h).symm.trans hf)
      · exact fun hf => Bool.false_ne_true ((acksFor_late h).symm.trans hf)
    rw [exec_gangAck_kept hnone, harm, if_neg (by simp)]
  · rw [exec_gangDeadline_eq, foldl_passDue_early fun e he => of_decide_eq_true (List.all_eq_true.mp hall e he)]

/-! ## Host translations (O54) -/

section
variable {s : State} {c pasid page : Nat} {q : AtsReq}
  (hq : (Machine.core s c).ats.find? (fun q => decide (q.pasid = pasid ∧ q.page = page) && !q.pri) = some q)
include hq

theorem exec_atsTranslationCompletion_error : exec (.atsTranslationCompletion c ⟨pasid, page⟩ .error) s =
    .next (failHost (dropAts s c q) c q.pasid page 23 (hostDetail page 0) (fun _ _ => true)) := by
  simp only [exec_atsTranslationCompletion, execAtsTranslationCompletion, hq]

theorem exec_atsTranslationCompletion_noAccess (hd : q.dead = false) :
    exec (.atsTranslationCompletion c ⟨pasid, page⟩ .noAccess) s = .next (askPage s c q) := by
  simp only [exec_atsTranslationCompletion, execAtsTranslationCompletion, hq, hd, Bool.false_eq_true, if_false]

theorem exec_atsTranslationCompletion_granted (hd : q.dead = false) (h : Nat) :
    exec (.atsTranslationCompletion c ⟨pasid, page⟩ (.granted h true)) s =
      .next (wakeHost (dropAts (installHost s c ⟨q.pasid, q.page, h, true⟩) c q) c q.pasid q.page) := by
  simp only [exec_atsTranslationCompletion, execAtsTranslationCompletion, hq, hd, grant, Bool.not_true, Bool.and_false,
    Bool.false_eq_true, if_false]

theorem exec_atsTranslationCompletion_overtaken (hd : q.dead = true) (h : Nat) (w : Bool) :
    exec (.atsTranslationCompletion c ⟨pasid, page⟩ (.granted h w)) s = .next (setAts s c q { q with dead := false, cycle := s.cycle }) := by
  simp only [exec_atsTranslationCompletion, execAtsTranslationCompletion, hq, hd, if_true]

theorem exec_atsTimeout_early (h : s.cycle < q.cycle + 2 ^ 24) : exec (.atsTimeout c ⟨pasid, page⟩) s = .next s := by
  simp only [exec_atsTimeout, execAtsTimeout, hq, if_pos h]

theorem exec_atsTimeout_late (h : q.cycle + 2 ^ 24 ≤ s.cycle) : exec (.atsTimeout c ⟨pasid, page⟩) s =
    .next (failHost (dropAts s c q) c q.pasid page 23 (hostDetail page 0) (fun _ _ => true)) := by
  simp only [exec_atsTimeout, execAtsTimeout, hq, if_neg (Nat.not_lt.mpr h)]

end

section
variable {s : State} {c pasid page : Nat} {q : AtsReq}
  (hq : (Machine.core s c).ats.find? (fun q => decide (q.pasid = pasid ∧ q.page = page) && q.pri && !q.held) = some q)
include hq

theorem exec_pageRequestGroupResponse_success : exec (.pageRequestGroupResponse c ⟨pasid, page⟩ .success) s =
    .next (sendHeld (setAts s c q { q with pri := false, after := true, dead := false, cycle := s.cycle }) (fnOfPasid s q.pasid)) := by
  simp only [exec_pageRequestGroupResponse, execPageRequestGroupResponse, hq]

theorem exec_pageRequestGroupResponse_invalid : exec (.pageRequestGroupResponse c ⟨pasid, page⟩ .invalidRequest) s =
    .next (sendHeld (failHost (dropAts s c q) c q.pasid page 23 (hostDetail page 1) (fun _ _ => true)) (fnOfPasid s q.pasid)) := by
  simp only [exec_pageRequestGroupResponse, execPageRequestGroupResponse, hq]

theorem exec_pageRequestGroupResponse_failure : exec (.pageRequestGroupResponse c ⟨pasid, page⟩ .failure) s =
    .next (sendHeld (failHost { dropAts s c q with priStopped := (fnOfPasid s q.pasid :: s.priStopped).dedup } c q.pasid page 23
      (hostDetail page 2) (fun _ _ => true)) (fnOfPasid s q.pasid)) := by
  simp only [exec_pageRequestGroupResponse, execPageRequestGroupResponse, hq]

end

/-- Whether an invalidation of `count` pages hits a page (R327). -/
def hitsPage (pasid page count p n : Nat) : Bool := decide (p = pasid ∧ page ≤ n ∧ n < page + count)

/-- A core whose translations of the hit pages are dropped and whose requests for them are marked (R327 step 3, R340). -/
def invalidateHost (pasid page count : Nat) (k : Core) : Core := { k with
  hstore := k.hstore.filter (fun t => !hitsPage pasid page count t.pasid t.page)
  ats := k.ats.map (fun q => if hitsPage pasid page count q.pasid q.page && !q.pri then { q with dead := true } else q) }

/-- Every core so changed. -/
def invalidated (s : State) (pasid page count : Nat) : State :=
  { s with cores := s.cores.map (fun e => (e.1, invalidateHost pasid page count e.2)) }

theorem exec_atsInvalidationRequest_eq (s : State) (pasid page n : Nat) : exec (.atsInvalidationRequest pasid page n) s =
    .next (if (hostUsers s pasid page n).isEmpty = true then Machine.tell (invalidated s pasid page n) (.invalidationDone pasid page n)
      else { fresh (invalidated s pasid page n) with
        hostInvals := s.hostInvals ++ [⟨s.ops, pasid, page, n, hostUsers s pasid page n⟩] }) :=
  (apply_ite _ _ _ _).symm

theorem mem_hstore_invalidated (s : State) (pasid page n c : Nat) (x : HostTrans) :
    x ∈ (Machine.core (invalidated s pasid page n) c).hstore ↔
      x ∈ (Machine.core s c).hstore ∧ ¬(x.pasid = pasid ∧ page ≤ x.page ∧ x.page < page + n) := by
  rw [show Machine.core (invalidated s pasid page n) c = invalidateHost pasid page n (Machine.core s c) from
    core_map s (invalidateHost pasid page n) rfl c, invalidateHost, List.mem_filter, hitsPage, ← decide_not, decide_eq_true_eq]

theorem atsInvalidationRequest_spec (s : State) (pasid page n : Nat) : ∃ t, exec (.atsInvalidationRequest pasid page n) s = .next t ∧
    t.mem = s.mem ∧
    (∀ c x, x ∈ (Machine.core t c).hstore ↔ x ∈ (Machine.core s c).hstore ∧ ¬(x.pasid = pasid ∧ page ≤ x.page ∧ x.page < page + n)) ∧
    (hostUsers s pasid page n = [] → t.sent = .invalidationDone pasid page n :: s.sent) ∧
    (hostUsers s pasid page n ≠ [] → t.sent = s.sent ∧
      t.hostInvals = s.hostInvals ++ [⟨s.ops, pasid, page, n, hostUsers s pasid page n⟩]) := by
  refine ⟨_, exec_atsInvalidationRequest_eq s pasid page n, ?_⟩
  split
  · rename_i h
    exact ⟨rfl, fun c x => mem_hstore_invalidated s pasid page n c x, fun _ => rfl, fun hne => absurd (List.isEmpty_iff.mp h) hne⟩
  · rename_i h
    exact ⟨rfl, fun c x => mem_hstore_invalidated s pasid page n c x, fun he => absurd (List.isEmpty_iff.mpr he) h, fun _ => ⟨rfl, rfl⟩⟩

section
variable {s : State} {i : Nat} {v : HostInval} (hv : s.hostInvals.find? (fun v => v.id = i) = some v)
include hv

theorem exec_invalidationCompletion_waits (h : v.waits.any (fun w => (reqOf s w.1 w.2).isSome) = true) :
    exec (.invalidationCompletion i) s = .next s := by
  simp only [exec_invalidationCompletion, execInvalidationCompletion, hv, h, if_true]

theorem exec_invalidationCompletion_done (h : v.waits.any (fun w => (reqOf s w.1 w.2).isSome) = false) :
    exec (.invalidationCompletion i) s = .next { s with
      hostInvals := s.hostInvals.filter (fun x => x.id != i), sent := .invalidationDone v.pasid v.page v.count :: s.sent } := by
  simp only [exec_invalidationCompletion, execInvalidationCompletion, hv, h, Bool.false_eq_true, if_false]
  rfl

end

/-! ## Host reads that time out (O54) -/

theorem reqs_modLF (s : State) (c l : Nat) (g : LaneFrame → LaneFrame) : (Machine.core (modLF s c l g) c).reqs = (Machine.core s c).reqs := by
  rw [modLF, core_modCore_self]
  rfl

theorem reqs_dropOp (s : State) (c i : Nat) : (Machine.core (dropOp s c i) c).reqs = (Machine.core s c).reqs := by
  rw [dropOp, core_modCore_self]

theorem reqs_regroupTest (s : State) (wg c : Nat) : (Machine.core (regroupTest s wg) c).reqs = (Machine.core s c).reqs := by
  obtain ⟨ra, lfs, h⟩ := (Regrouped.regroupTest s wg).core c
  rw [h]

theorem reqs_raise_of_none {s : State} {e : Event} (h : e.bundle = none) :
    (Machine.core (raise s e) e.core).reqs = (Machine.core s e.core).reqs := by
  rw [raise_of_none h, core_recorded]

theorem isSome_stopWith (s : State) (e : Event) : (stopWith s e).isSome = true := by
  unfold stopWith
  split <;> rfl

/-- The state after a host-pointer read has failed, before its stop (R388). -/
def hostReadFailed (s : State) (c op : Nat) (o : MemOp) : State :=
  regroupTest (dropOp (finishFlags (failLanes (modCore s c (fun k => { k with reqs := k.reqs.filter (fun r => r.op != op) }))
    c o.lf op (slotsOf o.width) o.lanes) c o.lf o.lanes o.flag) c op) o.wg

/-- The page of the lowest lane of an operation. -/
def lowestPage (o : MemOp) : Nat := match lookup o.addrs (lowest o.lanes) with | some x => x.page | none => 0

theorem reqs_hostReadFailed (s : State) (c op : Nat) (o : MemOp) : (Machine.core (hostReadFailed s c op o) c).reqs =
    (Machine.core s c).reqs.filter (fun r => r.op != op) := by
  rw [hostReadFailed, reqs_regroupTest, reqs_dropOp, finishFlags, reqs_modLF, failLanes, reqs_modLF, core_modCore_self]

section
variable {s : State} {c op : Nat} {o : MemOp} (ho : opOf s c op = some o) (hk : o.kind = .host)
include ho

theorem exec_hostReadTimeout_early (h : s.cycle < o.cycle + 2 ^ 24) : exec (.hostReadTimeout c op false) s = .next s := by
  simp only [exec_hostReadTimeout, execHostReadTimeout, ho, h, decide_true, Bool.not_false, Bool.and_self, or_true, if_true]

include hk

theorem exec_hostReadTimeout_error : exec (.hostReadTimeout c op true) s = .next (raise (hostReadFailed s c op o)
    ⟨23, c, o.lf, 0, thrField o.lf (lowest o.lanes), o.pc, hostDetail (lowestPage o) 3, none⟩) := by
  simp only [exec_hostReadTimeout, execHostReadTimeout, ho, hk, ne_eq, not_true_eq_false, Bool.not_true, Bool.false_and,
    Bool.false_eq_true, or_self, if_false]
  rfl

theorem hostReadTimeout_error_spec : ∃ t, exec (.hostReadTimeout c op true) s = .next t ∧ t.stop.isSome = true ∧
    (Machine.core t c).reqs.all (fun r => r.op != op) = true := by
  refine ⟨_, exec_hostReadTimeout_error ho hk, ?_, ?_⟩
  · rw [raise_stop]
    exact isSome_stopWith _ _
  · have hr := reqs_raise_of_none (s := hostReadFailed s c op o) (e := ⟨23, c, o.lf, 0, thrField o.lf (lowest o.lanes), o.pc,
      hostDetail (lowestPage o) 3, none⟩) rfl
    rw [hr, reqs_hostReadFailed]
    simp

end

/-! ## Host accesses of the package's memory (O54) -/

section
variable {s : State} {link a n : Nat} {data : List Byte}

theorem exec_hostMemRead_foreign (k : Bool) (h : hostFacing link = false) : exec (.hostMemRead link a n k) s = .next s := by
  simp only [exec_hostMemRead, execHostMemRead, h, Bool.not_false, if_true]

theorem exec_hostMemWrite_foreign (h : hostFacing link = false) : exec (.hostMemWrite link a data) s = .next s := by
  simp only [exec_hostMemWrite, execHostMemWrite, h, Bool.not_false, if_true]

variable (hl : hostFacing link = true)
include hl

theorem exec_hostMemRead_beyond (k : Bool) (h : hdmEnd s < a + n) : exec (.hostMemRead link a n k) s = .fault (.outsideRange a) := by
  simp only [exec_hostMemRead, execHostMemRead, hl, if_pos h, Bool.not_true, Bool.false_eq_true, if_false]

theorem exec_hostMemWrite_beyond (h : hdmEnd s < a + data.length) : exec (.hostMemWrite link a data) s = .fault (.outsideRange a) := by
  simp only [exec_hostMemWrite, execHostMemWrite, hl, if_pos h, Bool.not_true, Bool.false_eq_true, if_false]

theorem exec_hostMemRead_held (k : Bool) (h : a + n ≤ hdmEnd s) (hh : hostHeld s (rangePages a n) false = true) :
    exec (.hostMemRead link a n k) s = .next { s with hostReqs := s.hostReqs ++ [.read link a n k] } := by
  simp only [exec_hostMemRead, execHostMemRead, hl, if_neg (Nat.not_lt.mpr h), hh, Bool.not_true, Bool.false_eq_true, if_false, if_true]
  rfl

theorem exec_hostMemWrite_held (h : a + data.length ≤ hdmEnd s) (hh : hostHeld s (rangePages a data.length) true = true) :
    exec (.hostMemWrite link a data) s = .next { s with hostReqs := s.hostReqs ++ [.write link a data] } := by
  simp only [exec_hostMemWrite, execHostMemWrite, hl, if_neg (Nat.not_lt.mpr h), hh, Bool.not_true, Bool.false_eq_true, if_false, if_true]
  rfl

/-- A host read that its pages let through, for its lines to track. -/
theorem exec_hostMemRead_through (k : Bool) (h : a + n ≤ hdmEnd s) (hh : hostHeld s (rangePages a n) false = false) :
    exec (.hostMemRead link a n k) s =
      .next (if (snoopEvictions s (if k = true then rangeLines a n else [])).isEmpty = true then
        Machine.tell (trackLines (countHost (countReads s a n) a) (if k = true then rangeLines a n else [])) (.readData link a
          (((List.range n).map (fun i => hostReadByte s (a + i))).map (fun x => x.1))
          (((List.range n).map (fun i => hostReadByte s (a + i))).map (fun x => x.2)))
      else holdHost (sendSnoops s (snoopEvictions s (if k = true then rangeLines a n else []))) (.read link a n k)) := by
  simp only [exec_hostMemRead, execHostMemRead, hl, if_neg (Nat.not_lt.mpr h), hh, Bool.not_true, Bool.false_eq_true, if_false]
  cases (snoopEvictions s (if k = true then rangeLines a n else [])).isEmpty <;> rfl

theorem exec_hostMemWrite_through (h : a + data.length ≤ hdmEnd s) (hh : hostHeld s (rangePages a data.length) true = false) :
    exec (.hostMemWrite link a data) s = .next ((hostBlocks a data).foldl (fun s e =>
      if capsulePage (e.1 / 32) = true then s
      else if pageGone s (e.1 / 32) = true ∨ (hostKey s (e.1 * 128)).isNone = true then { s with rasHost := s.rasHost + 1 }
      else hostBlock s link e.1 e.2) s) := by
  simp only [exec_hostMemWrite, execHostMemWrite, hl, if_neg (Nat.not_lt.mpr h), hh, Bool.not_true, Bool.false_eq_true, if_false]

end

theorem snoopEvictions_nil (s : State) : snoopEvictions s [] = [] := rfl

theorem hostHeld_of_offered {s : State} {pages : List Nat} (w : Bool) (h : pages.any (fun p => (marker s p).offered) = true) :
    hostHeld s pages w = true := by
  obtain ⟨p, hp, ho⟩ := List.any_eq_true.mp h
  rw [hostHeld, Bool.or_eq_true]
  refine .inr (List.any_eq_true.mpr ⟨p, hp, ?_⟩)
  rw [ho, Bool.true_or, Bool.true_or, Bool.true_or]

theorem exec_backInvalidateResponse_line {s : State} {i : Nat} {x : Snoop} (h : s.snoops.find? (fun x => x.id = i) = some x) :
    exec (.backInvalidateResponse i) s = .next { s with
      snoops := s.snoops.filter (fun y => y.id != i), snoopFilter := s.snoopFilter.filter (fun e => e.1 != x.line) } := by
  simp only [exec_backInvalidateResponse, execBackInvalidateResponse, h]

theorem hostFacing_of_lt {link : Nat} (h : link < 2) : hostFacing link = true := decide_eq_true h

theorem not_hostFacing_of_le {link : Nat} (h : 2 ≤ link) : hostFacing link = false := decide_eq_false (Nat.not_lt.mpr h)

theorem exec_cxlCacheSnoop_host {s : State} {link : Nat} (a : Nat) (h : hostFacing link = true) :
    exec (.cxlCacheSnoop link a) s = .next { s with sent := .snoopMiss link a :: s.sent } := by
  simp only [exec_cxlCacheSnoop, execCxlCacheSnoop, h, if_true]
  rfl

theorem exec_cxlCacheSnoop_foreign {s : State} {link : Nat} (a : Nat) (h : hostFacing link = false) :
    exec (.cxlCacheSnoop link a) s = .next s := by
  simp only [exec_cxlCacheSnoop, execCxlCacheSnoop, h, Bool.false_eq_true, if_false]

/-! ## The host -/

/-- Settles O54, clause by clause: host translations, their requests and invalidations, and host accesses of memory. -/
theorem hostEvents : Obligations.HostEvents := by
  unfold Obligations.HostEvents
  refine ⟨⟨fun s c pasid page q hq => ⟨exec_atsTranslationCompletion_error hq,
      fun hd => ⟨exec_atsTranslationCompletion_noAccess hq hd, exec_atsTranslationCompletion_granted hq hd⟩,
      exec_atsTranslationCompletion_overtaken hq, exec_atsTimeout_early hq, exec_atsTimeout_late hq⟩,
    fun s c pasid page q hq => ⟨exec_pageRequestGroupResponse_success hq, exec_pageRequestGroupResponse_invalid hq,
      exec_pageRequestGroupResponse_failure hq⟩, atsInvalidationRequest_spec,
    fun s i v hv => ⟨exec_invalidationCompletion_waits hv, exec_invalidationCompletion_done hv⟩,
    fun s c op o ho hk => ⟨exec_hostReadTimeout_early ho, hostReadTimeout_error_spec ho hk⟩⟩,
    fun s link a n hl hend => ⟨fun hh k => exec_hostMemRead_held hl k hend hh, fun hh => ⟨?_, fun hs => ?_, fun hs => ?_⟩⟩,
    fun s link a data hl hend => ⟨exec_hostMemWrite_held hl hend, exec_hostMemWrite_through hl hend⟩,
    fun s pages w => hostHeld_of_offered w,
    fun s link a n data k hl hend hn => ⟨exec_hostMemRead_beyond hl k hend, exec_hostMemWrite_beyond hl (hn ▸ hend)⟩,
    fun s link a n data k hl => ⟨exec_hostMemRead_foreign k (not_hostFacing_of_le hl), exec_hostMemWrite_foreign (not_hostFacing_of_le hl),
      exec_cxlCacheSnoop_foreign a (not_hostFacing_of_le hl)⟩,
    fun s i x => exec_backInvalidateResponse_line, fun s link a hl => exec_cxlCacheSnoop_host a (hostFacing_of_lt hl)⟩
  · rw [exec_hostMemRead_through hl false hend hh, if_neg Bool.false_ne_true, snoopEvictions_nil]
    rfl
  · rw [exec_hostMemRead_through hl true hend hh, if_pos rfl, hs]
    rfl
  · rw [exec_hostMemRead_through hl true hend hh, if_pos rfl, if_neg (mt List.isEmpty_iff.mp hs)]

end Sys2Proof.Proofs
end

section
/-!
PROOFS. The management mailbox, stops, ends and capsules.
-/
namespace Sys2Proof.Proofs
open Sys2Proof Sys2Proof.Machine Sys2Proof.Spec

/-! ## Commands of the mailbox (O56, O57, O58) -/

theorem bit31_answer (t : State) (n : Nat) (l : List (Nat × DWord)) : (answer t n l).mbxResp.getLsbD 31 = false := by
  have h : (n % 256).testBit 31 = false := Nat.testBit_lt_two_pow (Nat.lt_of_lt_of_le (Nat.mod_lt _ (by decide)) (by decide))
  simp only [answer, BitVec.getLsbD_ofNat, h, Bool.and_false]

/-- An answer to a command that has changed nothing but the mailbox. -/
theorem answer_begun (s : State) (args l : List (Nat × DWord)) {n : Nat} (h : n < 256) :
    answer (begun s args) n l = responded s args n l := by
  unfold answer responded
  rw [Nat.mod_eq_of_lt h]
  cases s
  rfl

theorem answer_eq_responded (t : State) (l : List (Nat × DWord)) {n : Nat} (h : n < 256) : answer t n l = responded t [] n l := by
  unfold answer responded
  rw [Nat.mod_eq_of_lt h]
  cases t
  rfl

section
variable {s : State} {m : MbxMaster} {code : Nat} {args : List (Nat × DWord)} {f : State → State}

theorem command_ignored (h : (mayCommand m && served s code && s.mbxCmd.isNone) = false) : command s m code args f = .next s := by
  simp only [command, h, Bool.false_eq_true, if_false]

theorem command_foreign (h : (∃ n, m = .vf n) ∨ (∃ c, m = .mastS c) ∨ s.mbxCmd ≠ none) : command s m code args f = .next s := by
  refine command_ignored ?_
  rcases h with ⟨n, rfl⟩ | ⟨c, rfl⟩ | h
  · rfl
  · rfl
  · rw [Option.isNone_eq_false_iff.mpr (Option.isSome_iff_ne_none.mpr h), Bool.and_false]

theorem command_unserved (hb : s.boot.code ≠ 0) (h1 : code ≠ 0x10) (h2 : code ≠ 0x15) (h3 : code ≠ 0x17) (h4 : code ≠ 0x2C) :
    command s m code args f = .next s := by
  refine command_ignored ?_
  have hs : served s code = false := by simp [served, hb, h1, h2, h3, h4]
  rw [hs, Bool.and_false, Bool.false_and]

variable (hm : MailboxFree s m)
include hm

theorem command_free : command s m code args f = .next (if (f (begun s args)).mbxResp.getLsbD 31 = true then
    { f (begun s args) with mbxCmd := some (code, masterNo m) } else f (begun s args)) := by
  obtain ⟨hmaster, hboot, hcmd⟩ := hm
  have hmay : mayCommand m = true := by
    rcases hmaster with rfl | ⟨c, rfl⟩ <;> rfl
  have hserved : served s code = true := by simp [served, hboot]
  simp only [command, hmay, hserved, hcmd, Option.isNone_none, Bool.and_self, if_true]

/-- A command that a step answers has completed. -/
theorem command_answers {t r : State} {n : Nat} {l : List (Nat × DWord)} (h : f (begun s args) = answer t n l) (hr : answer t n l = r) :
    command s m code args f = .next r := by
  rw [command_free hm, h, bit31_answer, if_neg Bool.false_ne_true, hr]

theorem command_pending (h : f (begun s args) = begun s args) :
    command s m code args f = .next { begun s args with mbxCmd := some (code, masterNo m) } := by
  have hresp : (begun s args).mbxResp.getLsbD 31 = true := by
    rw [show (begun s args).mbxResp = 0x80000000 from rfl]
    decide
  rw [command_free hm, h, if_pos hresp]

end

/-- A command that stores bytes and whose range is free completes with the bytes in place. -/
theorem storeCommand_done {s : State} {a n : Nat} {l : List Byte} {done : State → State} (hl : l.length = n) (hr : hbmRange s a n = true)
    (hh : hbmHeld s a n = false) (ht : hbmTracked s a n = []) : storeCommand s a l done = done (hbmStore s a l) := by
  subst hl
  simp only [storeCommand, hr, hh, ht, Bool.not_true, List.isEmpty_nil, Bool.false_eq_true, if_false]

/-! ## What a write of a page-table entry keeps (O56) -/

theorem poisonTab_storeUnder (s : State) (key base : Nat) (d : Table Byte) : (storeUnder s key base d).poisonTab = s.poisonTab := by
  have hseal (t : State) (u : Nat) : (sealUnit t key u).poisonTab = t.poisonTab := by
    unfold sealUnit
    split
    · rfl
    · split <;> rfl
  simp only [storeUnder]
  split
  · rfl
  · show (if encrypted base then _ else s : State).poisonTab = _
    split
    · exact List.foldlRecOn _ _ (motive := fun (t : State) => t.poisonTab = s.poisonTab) rfl (fun t ht a _ => (hseal t a).trans ht)
    · rfl

theorem poisonTab_setDirty (s : State) (key : Nat) : (setDirty s key).poisonTab = s.poisonTab := by
  simp only [setDirty]
  split
  · split <;> rfl
  · rfl

theorem poisonTab_hwWrite (s : State) (key a : Nat) (l : List Byte) : (hwWrite s key a l).poisonTab = s.poisonTab := by
  simp only [hwWrite]
  split
  · exact List.foldlRecOn _ _ (motive := fun t : State => t.poisonTab = s.poisonTab) rfl (fun _ ht _ _ => ht)
  · exact (poisonTab_setDirty _ _).trans (poisonTab_storeUnder ..)

theorem poisonTab_setEntryB (s : State) (ctx vpn : Nat) (b : Bool) : (setEntryB s ctx vpn b).poisonTab = s.poisonTab := by
  unfold setEntryB modEntry
  split
  · split
    · rfl
    · exact poisonTab_hwWrite ..
  · rfl

theorem poisonTab_wakeLanes (s : State) (c l : Nat) (m : LaneMask) (cause : Nat) : (wakeLanes s c l m cause).poisonTab = s.poisonTab := by
  unfold wakeLanes
  split
  · rfl
  · split
    · rfl
    · unfold recordPark
      split <;> rfl

theorem poisonTab_wakeWhere (s : State) (ctx : Nat) (p : Wait → Bool) (cause : Nat) : (wakeWhere s ctx p cause).poisonTab = s.poisonTab := by
  unfold wakeWhere
  split
  · refine List.foldlRecOn _ _ (motive := fun t : State => t.poisonTab = s.poisonTab) rfl fun t ht e _ => ?_
    exact List.foldlRecOn _ _ (motive := fun t : State => t.poisonTab = s.poisonTab) ht fun t ht x _ => (poisonTab_wakeLanes ..).trans ht
  · rfl

theorem poisonTab_releasePage (s : State) (ctx vpn : Nat) : (releasePage s ctx vpn).poisonTab = s.poisonTab := by
  have hwake : (wakePage s ctx vpn).poisonTab = s.poisonTab := (poisonTab_wakeWhere ..).trans (poisonTab_setEntryB ..)
  unfold releasePage
  split
  · split
    · exact poisonTab_setEntryB ..
    · exact hwake
  · exact hwake

theorem bits_low (x hi : Nat) : bits x hi 0 = x % 2 ^ (hi + 1) := by
  rw [bits_eq, Nat.pow_zero, Nat.div_one, Nat.sub_zero]

theorem bits_one (x k : Nat) : bits x k k = x / 2 ^ k % 2 := by
  rw [bits_eq, Nat.add_sub_cancel_left, Nat.pow_one]

/-! ## The commands on the package's tables (O56) -/

section
variable {s : State} {m : MbxMaster} (hm : MailboxFree s m)
include hm

theorem exec_mailboxUnknownCommand_free {code : Nat} (h : code < 0x10 ∨ 0x2C < code) :
    exec (.mailboxUnknownCommand m code) s = .next (responded s [] 1 []) := by
  rw [exec_mailboxUnknownCommand, execMailboxUnknownCommand, if_neg (by omega)]
  exact command_answers hm rfl (answer_begun s [] [] (by decide))

theorem exec_writeKeySlot_busy {a b : DWord} (hb : b.toNat % 64 = 0) (hk : keyBusy s (a.toNat % 2 ^ 11) = true) :
    exec (.writeKeySlot m a b) s = .next { begun s [(0, a), (1, b)] with mbxCmd := some (0x22, masterNo m) } := by
  have hk' : keyBusy (begun s [(0, a), (1, b)]) (bits a.toNat 10 0) = true := by
    rw [bits_low]
    exact hk
  rw [exec_writeKeySlot, execWriteKeySlot]
  exact command_pending hm (by rw [if_neg (not_not_intro hb), if_pos hk'])

theorem exec_readCapabilityWord_free : exec (.readCapabilityWord m) s = .next (responded s [] 0 [(0, s.caps.setWidth 64)]) := by
  rw [exec_readCapabilityWord, execReadCapabilityWord]
  exact command_answers hm rfl (answer_begun s [] _ (by decide))

theorem exec_setCtxtab_free {a : DWord} (h : a.toNat % 64 = 0) (hend : a.toNat < hdmEnd s) :
    exec (.setCtxtab m a) s = .next (responded { s with ctxtab := some a.toNat } [(0, a)] 0 [(0, a)]) := by
  rw [exec_setCtxtab, execSetCtxtab]
  exact command_answers hm (if_neg fun h' => h'.elim (fun h1 => h1 h) (Nat.not_le.mpr hend)) rfl

theorem exec_writeQuantumEntry_free {fn entry : Nat} (v : Word) (hf : fn ≤ 64) (he : entry < 64) :
    exec (.writeQuantumEntry m fn entry v) s = .next (responded { s with quantum := put s.quantum (fn * 64 + entry) v }
      [(0, argOf (fn + entry * 2 ^ 8)), (1, v.setWidth 64)] 0 []) := by
  rw [exec_writeQuantumEntry, execWriteQuantumEntry]
  exact command_answers hm (if_neg (by omega)) rfl

theorem exec_writeFabricGroup_free {g : Nat} (a b c d : DWord) (hg : g < 4096) : exec (.writeFabricGroup m g a b c d) s =
    .next (responded { s with groups := put s.groups g [a, b, c, d] } [(0, argOf g), (1, a), (2, b), (3, c), (4, d)] 0
      [(1, a), (2, b), (3, c), (4, d)]) := by
  rw [exec_writeFabricGroup, execWriteFabricGroup]
  exact command_answers hm (if_neg (by omega)) rfl

theorem exec_writeHostKeyTable_free {g k : Nat} (hg : g < 1024) (hk : k < 2048) : exec (.writeHostKeyTable m g k) s =
    .next (responded { s with keyTable := put s.keyTable g k } [(0, argOf g), (1, argOf k)] 0 []) := by
  rw [exec_writeHostKeyTable, execWriteHostKeyTable]
  exact command_answers hm (if_neg (by omega)) rfl

theorem exec_readDieState_beyond {d : Nat} (h : dies s ≤ d) : exec (.readDieState m d) s = .next (responded s [(0, argOf d)] 3 []) := by
  rw [exec_readDieState, execReadDieState]
  exact command_answers hm (if_pos h) rfl

theorem exec_readDieState_free {d : Nat} (h : d < dies s) :
    exec (.readDieState m d) s = .next (responded s [(0, argOf d)] 0 [(0, BitVec.ofNat 64 (s.dieState.getD d 0 % 8))]) := by
  rw [exec_readDieState, execReadDieState]
  exact command_answers hm (if_neg (Nat.not_le.mpr h)) (answer_begun s _ _ (by decide))

theorem exec_readMeasurement_free : exec (.readMeasurement m) s =
    .next (responded s [] 0 ((List.range 6).map (fun i => (i, s.measure.extractLsb' (64 * i) 64)))) := by
  rw [exec_readMeasurement, execReadMeasurement]
  exact command_answers hm rfl (answer_begun s [] _ (by decide))

theorem exec_writeBootaddr_misaligned {a : DWord} (h : a.toNat % 4096 ≠ 0) :
    exec (.writeBootaddr m a) s = .next (responded s [(0, a)] 3 []) := by
  rw [exec_writeBootaddr, execWriteBootaddr]
  exact command_answers hm (if_pos h) rfl

theorem exec_writeBootaddr_free {a : DWord} (h : a.toNat % 4096 = 0) :
    exec (.writeBootaddr m a) s = .next (responded { s with bootaddr := a } [(0, a)] 0 [(0, a)]) := by
  rw [exec_writeBootaddr, execWriteBootaddr]
  exact command_answers hm (if_neg (not_not_intro h)) rfl

omit hm in
theorem abandonBusy_begun_none {args : List (Nat × DWord)} {ctx vpn : Nat} (h : abandonBusy s ctx vpn = none) :
    abandonBusy (begun s args) ctx vpn = none := by
  unfold abandonBusy at h ⊢
  split at h
  · cases h
  · rename_i hmig
    split at h
    · cases h
    · rename_i hreq
      rw [Option.map_eq_none_iff] at h
      simp only [show (begun s args).migrations.find? (fun m => decide (m.ctx = ctx ∧ m.vpn = vpn)) = none from hmig,
        show (pageReqs (begun s args)).find? (fun q => decide (q.ctx = ctx ∧ q.vpn = vpn ∧ q.step ≠ 0 ∧ q.step ≠ 4 ∧ q.step ≠ 9)) = none from hreq,
        show (begun s args).seqs.find? (seqHolds ctx vpn) = none from h, Option.map_none]

theorem exec_abandonBusySequence_none {ctx va : Nat} (h : abandonBusy s ctx (va / 4096 % 2 ^ 36) = none) :
    exec (.abandonBusySequence m ctx va) s = .next (responded s [(0, argOf ctx), (1, argOf va)] 2 []) := by
  rw [exec_abandonBusySequence, execAbandonBusySequence]
  exact command_answers hm (by rw [abandonBusy_begun_none h]) rfl

theorem exec_abandonBusySequence_some {ctx va : Nat} {t : State}
    (h : abandonBusy (begun s [(0, argOf ctx), (1, argOf va)]) ctx (va / 4096 % 2 ^ 36) = some t) :
    exec (.abandonBusySequence m ctx va) s = .next (responded t [] 0 []) := by
  rw [exec_abandonBusySequence, execAbandonBusySequence]
  exact command_answers hm (by rw [h]) (answer_eq_responded _ _ (by decide))

theorem exec_setMirrorRange_disabled {a b c d : DWord} (h : a.getLsbD 31 = false) : exec (.setMirrorRange m a b c d) s =
    .next (responded { s with mirrors := drop s.mirrors (a.toNat % 2 ^ 16 * 8 + a.toNat / 2 ^ 16 % 8) }
      [(0, a), (1, b), (2, c), (3, d)] 0 [(0, a), (1, b), (2, c), (3, d)]) := by
  rw [exec_setMirrorRange, execSetMirrorRange]
  simp only [bits_eq, h, Bool.not_false, if_true, Nat.pow_zero, Nat.div_one]
  exact command_answers hm rfl rfl

theorem exec_setMirrorRange_empty {a b c d : DWord} (h : a.getLsbD 31 = true) (hn : c.toNat % 2 ^ 32 = 0) :
    exec (.setMirrorRange m a b c d) s = .next (responded s [(0, a), (1, b), (2, c), (3, d)] 3 [(0, a), (1, b), (2, c), (3, d)]) := by
  rw [exec_setMirrorRange, execSetMirrorRange]
  simp only [bits_eq, h, Bool.not_true, Bool.false_eq_true, if_false, Nat.pow_zero, Nat.div_one, if_pos hn]
  exact command_answers hm rfl (answer_begun s _ _ (by decide))

theorem exec_setMirrorRange_enabled {a b c d : DWord} (h : a.getLsbD 31 = true) (hn : c.toNat % 2 ^ 32 ≠ 0) :
    exec (.setMirrorRange m a b c d) s = .next (responded
      { s with mirrors := put s.mirrors (a.toNat % 2 ^ 16 * 8 + a.toNat / 2 ^ 16 % 8) ⟨b.toNat % 2 ^ 32, c.toNat % 2 ^ 32, d.toNat % 2 ^ 32⟩ }
      [(0, a), (1, b), (2, c), (3, d)] 0 [(0, a), (1, b), (2, c), (3, d)]) := by
  rw [exec_setMirrorRange, execSetMirrorRange]
  simp only [bits_eq, h, Bool.not_true, Bool.false_eq_true, if_false, Nat.pow_zero, Nat.div_one, if_neg hn]
  exact command_answers hm rfl rfl

theorem exec_readPoisonEntry_used {entry : Nat} {e : PoisonEnt} (h : lookup s.poisonTab (entry % 256) = some e) :
    exec (.readPoisonEntry m entry) s = .next (responded s [(0, argOf entry)] 0 [(0, BitVec.ofNat 64 e.ctx),
      (1, BitVec.ofNat 64 (e.vpn * 4096)), (2, BitVec.ofNat 64 (e.capPage + (if e.mirror then 2 ^ 32 else 0)))]) := by
  have hmirror : bnat e.mirror * 2 ^ 32 = if e.mirror then 2 ^ 32 else 0 := by cases e.mirror <;> rfl
  have h' : lookup (begun s [(0, argOf entry)]).poisonTab (entry % 256) = some e := h
  rw [exec_readPoisonEntry, execReadPoisonEntry, ← hmirror]
  exact command_answers hm (by rw [h']) (answer_begun s _ _ (by decide))

theorem clearPoisonEntry_used {entry : Nat} {e : PoisonEnt} (h : lookup s.poisonTab (entry % 256) = some e) :
    ∃ t, exec (.clearPoisonEntry m entry) s = .next t ∧ lookup t.poisonTab (entry % 256) = none ∧ t.mbxResp = 0 ∧
      ∀ p, t.stop = some p → p.blocked = false := by
  have h' : lookup (begun s [(0, argOf (entry % 2 ^ 8 + 2 ^ 8))]).poisonTab (entry % 256) = some e := h
  rw [exec_clearPoisonEntry, execClearPoisonEntry]
  refine ⟨_, command_answers hm (by rw [h']) rfl, ?_, rfl, fun p hp => ?_⟩
  · show lookup (releasePage _ e.ctx e.vpn).poisonTab (entry % 256) = none
    rw [poisonTab_releasePage]
    exact lookup_drop_self ..
  · obtain ⟨q, -, rfl⟩ := Option.map_eq_some_iff.mp hp
    rfl

theorem writeKeySlot_free {a b : DWord} (hb : b.toNat % 64 = 0) (hk : keyBusy s (a.toNat % 2 ^ 11) = false)
    (hr : hbmRange s b.toNat 64 = true) (hh : hbmHeld s b.toNat 64 = false) (ht : hbmTracked s b.toNat 64 = []) (ha : a.getLsbD 31 = true) :
    ∃ t, exec (.writeKeySlot m a b) s = .next t ∧ lookup t.keySlots (a.toNat % 2 ^ 11) = some (hbmRead s b.toNat 64) ∧ t.mbxResp = 0 := by
  have hslot : bits a.toNat 10 0 = a.toNat % 2 ^ 11 := bits_low _ _
  have hk' : ¬ keyBusy (begun s [(0, a), (1, b)]) (a.toNat % 2 ^ 11) = true := Bool.eq_false_iff.mp hk
  rw [exec_writeKeySlot, execWriteKeySlot]
  simp only [hslot]
  refine ⟨_, command_answers hm (by rw [if_neg (not_not_intro hb), if_neg hk', storeCommand_done (s := begun s [(0, a), (1, b)]) List.length_replicate hr hh ht]) rfl,
    ?_, rfl⟩
  show lookup (if a.getLsbD 31 then put _ _ _ else _ : Table _) _ = _
  rw [if_pos ha, lookup_put_self]
  rfl

theorem exec_readRasCounters_beyond {n : Nat} (fr clear : Bool) (h : dies s ≤ n) : exec (.readRasCounters m n fr clear) s =
    .next (responded s [(0, argOf (n + bnat fr * 2 ^ 8)), (1, argOf (bnat clear))] 3 []) := by
  rw [exec_readRasCounters, execReadRasCounters]
  exact command_answers hm (if_pos h) (answer_begun s _ _ (by decide))

theorem readRasCounters_free {n : Nat} (fr clear : Bool) (h : n < dies s) : ∃ t, exec (.readRasCounters m n fr clear) s = .next t ∧
    t.mbxResp = 0 ∧
    (clear = true → lookup t.rasCorrected (n * 2 + (if fr then 1 else 0)) = none ∧
      lookup t.rasPoisoned (n * 2 + (if fr then 1 else 0)) = none) ∧
    (clear = false → t.rasCorrected = s.rasCorrected ∧ t.rasPoisoned = s.rasPoisoned) := by
  rw [exec_readRasCounters, execReadRasCounters]
  refine ⟨_, command_answers hm (if_neg (Nat.not_le.mpr h)) rfl, rfl, ?_, ?_⟩
  · rintro rfl
    refine ⟨?_, ?_⟩
    · show lookup (drop s.rasCorrected (n * 2 + bnat fr)) (n * 2 + bnat fr) = none
      exact lookup_drop_self ..
    · show lookup (drop s.rasPoisoned (n * 2 + bnat fr)) (n * 2 + bnat fr) = none
      exact lookup_drop_self ..
  · rintro rfl
    cases s
    exact ⟨rfl, rfl⟩

theorem exec_readLostBlock_used {d sl e b : Nat} (h : (look s.lost (d % 16 * 32 + sl % 32) [])[e % 64]? = some b) :
    exec (.readLostBlock m d sl e) s = .next (responded s [(0, argOf (d % 2 ^ 4 + sl % 2 ^ 5 * 2 ^ 4 + e % 2 ^ 6 * 2 ^ 9))] 0
      [(0, BitVec.ofNat 64 (b * 128))]) := by
  rw [exec_readLostBlock, execReadLostBlock]
  exact command_answers hm (by
    rw [show (look (begun s _).lost (d % 16 * 32 + sl % 32) [])[e % 64]? = some b from h]) (answer_begun s _ _ (by decide))

theorem clearLostBlock_used {d sl e b : Nat} (h : (look s.lost (d % 16 * 32 + sl % 32) [])[e % 64]? = some b) :
    ∃ t, exec (.clearLostBlock m d sl e) s = .next t ∧ t.mbxResp = 0 ∧
      look t.lost (d % 16 * 32 + sl % 32) [] = (look s.lost (d % 16 * 32 + sl % 32) []).eraseIdx (e % 64) ∧
      ∀ p, t.stop = some p → d % 16 * 32 + sl % 32 ∉ p.lostFull := by
  obtain ⟨hlt, -⟩ := List.getElem?_eq_some_iff.mp h
  rw [exec_clearLostBlock, execClearLostBlock]
  refine ⟨_, command_answers hm (if_neg (Nat.not_le.mpr hlt)) rfl, rfl, look_put_self .., fun p hp => ?_⟩
  obtain ⟨q, -, rfl⟩ := Option.map_eq_some_iff.mp hp
  simp

theorem exec_abandonEngineEntry_found {a : DWord} {p : Stop} {e : MqEntry} (ha : a &&& ~~~0x103FF = 0) (hc : a.toNat % 1024 < coreCount s)
    (hp : s.stop = some p) (he : (Machine.core s (a.toNat % 1024)).c.mq.find?
      (fun e => e.fault.isSome && !atLatch e && decide (entryUnit (a.toNat % 1024) e = a.toNat / 2 ^ 16 % 2)) = some e) :
    exec (.abandonEngineEntry m a) s = .next (responded (abandonEntry (begun s [(0, a)]) (a.toNat % 1024) e) [] 0 [(0, a)]) := by
  have hcond : ¬ (a &&& ~~~0x103FF ≠ 0 ∨ coreCount (begun s [(0, a)]) ≤ a.toNat % 1024) := by
    rintro (h | h)
    · exact h ha
    · exact Nat.not_le.mpr hc h
  have hcore : bits a.toNat 9 0 = a.toNat % 1024 := bits_low _ _
  rw [exec_abandonEngineEntry, execAbandonEngineEntry]
  simp only [hcore, bits_one]
  exact command_answers hm (by
    rw [if_neg hcond, show (begun s [(0, a)]).stop = some p from hp,
      show (Machine.core (begun s [(0, a)]) (a.toNat % 1024)).c.mq.find? _ = some e from he]) (answer_eq_responded _ _ (by decide))

theorem exec_abandonEngineEntry_running {a : DWord} (ha : a &&& ~~~0x103FF = 0) (hc : a.toNat % 1024 < coreCount s) (hp : s.stop = none) :
    exec (.abandonEngineEntry m a) s = .next (responded s [(0, a)] 2 [(0, a)]) := by
  have hcond : ¬ (a &&& ~~~0x103FF ≠ 0 ∨ coreCount (begun s [(0, a)]) ≤ a.toNat % 1024) := by
    rintro (h | h)
    · exact h ha
    · exact Nat.not_le.mpr hc h
  have hcore : bits a.toNat 9 0 = a.toNat % 1024 := bits_low _ _
  rw [exec_abandonEngineEntry, execAbandonEngineEntry]
  simp only [hcore, bits_one]
  exact command_answers hm (by rw [if_neg hcond, show (begun s [(0, a)]).stop = none from hp]) (answer_begun s _ _ (by decide))

theorem exec_armGangLaunch_free {a b : DWord} (hb : b ≠ 0) (hlt : b.toNat < 2 ^ 32) : exec (.armGangLaunch m a b) s = .next (responded
    (modQueue s (a.toNat % 64) (fun x => { x with gangArm := some (a.toNat / 2 ^ 16 % 2 ^ 12, b.toNat * 2 ^ 16) }))
    [(0, a), (1, b)] 0 [(0, a), (1, b)]) := by
  have hcond : ¬ (b = 0 ∨ 2 ^ 32 ≤ b.toNat) := by
    rintro (h | h)
    · exact hb h
    · exact Nat.not_le.mpr hlt h
  have hq : bits a.toNat 5 0 = a.toNat % 64 := bits_low _ _
  have hg : bits a.toNat 27 16 = a.toNat / 2 ^ 16 % 2 ^ 12 := bits_eq _ _ _
  rw [exec_armGangLaunch, execArmGangLaunch]
  simp only [hq, hg]
  exact command_answers hm (if_neg hcond) (by cases s; rfl)

theorem exec_readGangStatus_some {q i : Nat} {g : Gang} (h : lastGang s q = some (i, g)) : exec (.readGangStatus m q) s =
    .next (responded s [(0, argOf q)] 0
      [(0, BitVec.ofNat 64 ((if 0 < g.absent then 2 ^ 31 else 0) + g.absent % 2 ^ 12 * 2 ^ 16 + g.lowest % 2 ^ 12))]) := by
  have hb : bnat (decide (0 < g.absent)) * 2 ^ 31 = if 0 < g.absent then 2 ^ 31 else 0 := by
    by_cases h : 0 < g.absent <;> simp [bnat, h]
  have h' : lastGang (begun s [(0, argOf q)]) q = some (i, g) := h
  rw [exec_readGangStatus, execReadGangStatus, ← hb]
  exact command_answers hm (by rw [h']) (answer_begun s _ _ (by decide))

theorem exec_copyCapsuleSummary_none {i : Nat} {a : DWord} (hi : i < 4) (ha : a.toNat % 8 = 0) (hs : s.summaries[i]? = none) :
    exec (.copyCapsuleSummary m i a) s = .next (responded s [(0, argOf i), (1, a)] 0 [(0, 0xFF), (1, 0)]) := by
  rw [exec_copyCapsuleSummary, execCopyCapsuleSummary]
  exact command_answers hm (by
    rw [if_neg (by omega), show (begun s [(0, argOf i), (1, a)]).summaries[i]? = none from hs]) (answer_begun s _ _ (by decide))

theorem exec_copyCapsuleSummary_some {i : Nat} {a : DWord} {x : Summary} (hi : i < 4) (ha : a.toNat % 8 = 0) (hs : s.summaries[i]? = some x)
    (hr : hbmRange s a.toNat x.bytes.length = true) (hh : hbmHeld s a.toNat x.bytes.length = false)
    (ht : hbmTracked s a.toNat x.bytes.length = []) : exec (.copyCapsuleSummary m i a) s =
      .next (responded (hbmStore (begun s [(0, argOf i), (1, a)]) a.toNat x.bytes) [] 0 [(0, if x.slot < 2 then BitVec.ofNat 64 x.slot else 0xFF),
        (1, BitVec.ofNat 64 (capsule (hbmStore (begun s [(0, argOf i), (1, a)]) a.toNat x.bytes) x.slot).state)]) := by
  rw [exec_copyCapsuleSummary, execCopyCapsuleSummary]
  exact command_answers hm (by
    rw [if_neg (by omega), show (begun s [(0, argOf i), (1, a)]).summaries[i]? = some x from hs]
    exact storeCommand_done (s := begun s [(0, argOf i), (1, a)]) rfl hr hh ht) (answer_eq_responded _ _ (by decide))

theorem exec_copyCapsuleSlot_empty {k off n : Nat} {a : DWord} (h : (capsule s k).state ≠ 2) : exec (.copyCapsuleSlot m k a off n) s =
    .next (responded s [(0, argOf k), (1, a), (2, argOf off), (3, argOf n)] 2 []) := by
  rw [exec_copyCapsuleSlot, execCopyCapsuleSlot]
  exact command_answers hm (if_pos h) (answer_begun s _ _ (by decide))

theorem exec_copyCapsuleSlot_full {k off n : Nat} {a : DWord} (h : (capsule s k).state = 2) (ha : a.toNat % 64 = 0) (hn : n ≤ 2 ^ 26)
    (hoff : off + n ≤ slotBytesCount) (hr : hbmRange s a.toNat n = true) (hh : hbmHeld s a.toNat n = false) (ht : hbmTracked s a.toNat n = []) :
    exec (.copyCapsuleSlot m k a off n) s =
      .next (responded (hbmStore (begun s [(0, argOf k), (1, a), (2, argOf off), (3, argOf n)]) a.toNat (Mem.read s.mem (slotBase k + off) n))
        [] 0 [(0, BitVec.ofNat 64 ((capsule (hbmStore (begun s [(0, argOf k), (1, a), (2, argOf off), (3, argOf n)]) a.toNat
          (Mem.read s.mem (slotBase k + off) n)) k).size + 30176))]) := by
  have hcond : ¬ (a.toNat % 64 ≠ 0 ∨ 2 ^ 26 < n ∨ slotBytesCount < off + n) := by omega
  rw [exec_copyCapsuleSlot, execCopyCapsuleSlot]
  exact command_answers hm (by
    rw [if_neg (not_not_intro (show (capsule (begun s _) k).state = 2 from h)), if_neg hcond]
    exact storeCommand_done (s := begun s [(0, argOf k), (1, a), (2, argOf off), (3, argOf n)]) (length_memRead _ _ _) hr hh ht) (answer_eq_responded _ _ (by decide))

theorem exec_releaseCapsuleSlot_empty {k : Nat} (h : (capsule s k).state ≠ 2) :
    exec (.releaseCapsuleSlot m k) s = .next (responded s [(0, argOf k)] 2 []) := by
  rw [exec_releaseCapsuleSlot, execReleaseCapsuleSlot]
  exact command_answers hm (if_pos h) (answer_begun s _ _ (by decide))

theorem exec_releaseCapsuleSlot_full {k : Nat} (h : (capsule s k).state = 2) :
    exec (.releaseCapsuleSlot m k) s = .next (responded (setCapsule s k ⟨0, 0, 0⟩) [(0, argOf k)] 0 []) := by
  rw [exec_releaseCapsuleSlot, execReleaseCapsuleSlot]
  exact command_answers hm (if_neg (not_not_intro h)) rfl

theorem exec_readBootCode_booted : exec (.readBootCode m) s = .next (responded s [] 0 [(0, 0)]) := by
  obtain ⟨-, hboot, -⟩ := id hm
  have hboot' : (begun s []).boot.code = 0 := hboot
  rw [exec_readBootCode, execReadBootCode]
  exact command_answers hm (by rw [hboot', if_neg (by decide)]; rfl) (answer_begun s _ _ (by decide))

end

/-- Settles O56, clause by clause: who may command, and the commands on the package's tables. -/
theorem mailboxTableCommands : Obligations.MailboxTableCommands := by
  unfold Obligations.MailboxTableCommands
  refine ⟨fun s m => ⟨fun h f code args => command_foreign h, fun hb f code args h1 h2 h3 h4 => command_unserved hb h1 h2 h3 h4,
      fun hm code => exec_mailboxUnknownCommand_free hm,
      fun hm a b hb hk => ⟨_, exec_writeKeySlot_busy hm hb hk, rfl, rfl, rfl, rfl, rfl⟩⟩, fun s m hm => ?_⟩
  exact ⟨exec_readCapabilityWord_free hm, fun a => exec_setCtxtab_free hm, fun fn entry v => exec_writeQuantumEntry_free hm v,
    fun g a b c d => exec_writeFabricGroup_free hm a b c d, fun g k => exec_writeHostKeyTable_free hm,
    fun d => ⟨exec_readDieState_beyond hm, exec_readDieState_free hm⟩, exec_readMeasurement_free hm,
    fun a => ⟨exec_writeBootaddr_misaligned hm, exec_writeBootaddr_free hm⟩,
    fun ctx va => ⟨exec_abandonBusySequence_none hm, fun t => exec_abandonBusySequence_some hm⟩,
    fun a b c d => ⟨exec_setMirrorRange_disabled hm, exec_setMirrorRange_empty hm, exec_setMirrorRange_enabled hm⟩,
    fun entry e h => ⟨exec_readPoisonEntry_used hm h, clearPoisonEntry_used hm h⟩,
    fun a b => writeKeySlot_free hm, fun n fr clear => ⟨exec_readRasCounters_beyond hm fr clear, readRasCounters_free hm fr clear⟩,
    fun d sl e b h => ⟨exec_readLostBlock_used hm h, clearLostBlock_used hm h⟩,
    fun a ha hc => ⟨fun p e => exec_abandonEngineEntry_found hm ha hc, exec_abandonEngineEntry_running hm ha hc⟩,
    fun a b => exec_armGangLaunch_free hm, fun q i g => exec_readGangStatus_some hm, fun i a => exec_copyCapsuleSummary_none hm,
    fun i a x => exec_copyCapsuleSummary_some hm, fun k a off n h => ⟨exec_copyCapsuleSlot_empty hm h, exec_releaseCapsuleSlot_empty hm h⟩,
    fun k a off n h => ⟨exec_releaseCapsuleSlot_full hm h, exec_copyCapsuleSlot_full hm h⟩, exec_readBootCode_booted hm⟩

/-! ## The commands of the recorder (O57) -/

/-- A list of named cores' recorders changed: memory stays, and each recorder of the list changes once. -/
theorem modRecorders_fold (a : DWord) (g : Recorder → Recorder) (l : List Nat) : ∀ s : State,
    (l.foldl (fun t c => if namesCore a c then modRcd t c g else t) s).mem = s.mem ∧
    (∀ c ∉ l, Machine.core (l.foldl (fun t c => if namesCore a c then modRcd t c g else t) s) c = Machine.core s c) ∧
    (l.Nodup → ∀ c ∈ l, (Machine.core (l.foldl (fun t c => if namesCore a c then modRcd t c g else t) s) c).rcd =
      if namesCore a c then g (Machine.core s c).rcd else (Machine.core s c).rcd) := by
  induction l with
  | nil => exact fun s => ⟨rfl, fun _ _ => rfl, fun _ c hc => absurd hc List.not_mem_nil⟩
  | cons d l ih =>
    intro s
    have hne (c : Nat) (hcd : c ≠ d) : Machine.core (if namesCore a d then modRcd s d g else s) c = Machine.core s c := by
      split
      · exact core_modCore_ne s _ hcd
      · rfl
    have hself : (Machine.core (if namesCore a d then modRcd s d g else s) d).rcd =
        if namesCore a d then g (Machine.core s d).rcd else (Machine.core s d).rcd := by
      split
      · exact congrArg Core.rcd (core_modCore_self s d _)
      · rfl
    obtain ⟨hmem, hout, hin⟩ := ih (if namesCore a d then modRcd s d g else s)
    refine ⟨hmem.trans ?_, fun c hc => ?_, fun hn c hc => ?_⟩
    · split <;> rfl
    · rw [List.mem_cons, not_or] at hc
      exact (hout c hc.2).trans (hne c hc.1)
    · obtain ⟨hd, hn'⟩ := List.nodup_cons.mp hn
      by_cases hcd : c = d
      · subst hcd
        rw [List.foldl_cons, hout c hd, hself]
      · rw [List.foldl_cons, hin hn' c ((List.mem_cons.mp hc).resolve_left hcd), hne c hcd]

theorem mem_modRecorders (s : State) (a : DWord) (f : Recorder → Recorder) : (modRecorders s a f).mem = s.mem :=
  (modRecorders_fold a (fun r => f (rcdAt r s.cycle)) (List.range (coreCount s)) s).1

theorem rcd_modRecorders {s : State} {c : Nat} (a : DWord) (f : Recorder → Recorder) (hc : c < coreCount s) :
    (Machine.core (modRecorders s a f) c).rcd =
      if a.toNat = 0x3FF ∨ a.toNat = c then f (rcdAt (Machine.core s c).rcd s.cycle) else (Machine.core s c).rcd := by
  obtain ⟨-, -, hin⟩ := modRecorders_fold a (fun r => f (rcdAt r s.cycle)) (List.range (coreCount s)) s
  refine (hin List.nodup_range c (List.mem_range.mpr hc)).trans ?_
  simp only [namesCore, decide_eq_true_eq]

theorem coreArg_named {s : State} {a : DWord} (h : a.toNat < coreCount s ∨ a.toNat = 0x3FF) : coreArg s a = true := by
  rcases h with h | h <;> simp [coreArg, h]

theorem coreArg_beyond {s : State} {a : DWord} (h : coreCount s ≤ a.toNat) (h' : a.toNat ≠ 0x3FF) : coreArg s a = false := by
  simp [coreArg, h, h']

theorem rctlCore_eq (a : DWord) : rctlCore a = if a.toNat = 0x3FF then 0 else a.toNat := by
  unfold rctlCore
  by_cases h : a = 0x3FF
  · subst h
    rfl
  · have h' : ¬ a.toNat = 0x3FF := fun h' => h (BitVec.eq_of_toNat_eq h')
    rw [if_neg h, if_neg h']

/-- A recorder whose RCTL is written: its sampling counters restart (R351). -/
def rctlWritten (v : Word) (cycle : Nat) (r : Recorder) : Recorder :=
  { r with rctl := (v &&& 0x0FFF11FE) ||| 0x0000EE01, cntStall := cycle, cntMem := 0, cntIssue := 0 }

/-- A recorder whose capture is armed again (R354). -/
def captureRearmed (r : Recorder) : Recorder :=
  { r with capture := [], capCount := 0, capState := 0, queue := r.queue.map (fun e => (false, e.2)) }

section
variable {s : State} {m : MbxMaster} (hm : MailboxFree s m)
include hm

theorem exec_readRctl_named {a : DWord} (h : coreArg s a = true) : exec (.readRctl m a) s = .next (responded s [(0, a), (2, 0)] 0
    [(0, (Machine.core s (if a.toNat = 0x3FF then 0 else a.toNat)).rcd.rctl.setWidth 64)]) := by
  have h' : coreArg (begun s [(0, a), (2, 0)]) a = true := h
  rw [← rctlCore_eq, exec_readRctl, execReadRctl]
  exact command_answers hm (by rw [h']; rfl) (answer_begun s _ _ (by decide))

theorem exec_readRctl_beyond {a : DWord} (h : coreArg s a = false) :
    exec (.readRctl m a) s = .next (responded s [(0, a), (2, 0)] 3 []) := by
  have h' : coreArg (begun s [(0, a), (2, 0)]) a = false := h
  rw [exec_readRctl, execReadRctl]
  exact command_answers hm (by rw [h']; rfl) (answer_begun s _ _ (by decide))

theorem writeRctl_named {a : DWord} (v : Word) (h : coreArg s a = true) : ∃ t, exec (.writeRctl m a v) s = .next t ∧ t.mem = s.mem ∧
    t.mbxResp = 0 ∧ ∀ c < coreCount s, (Machine.core t c).rcd = if a.toNat = 0x3FF ∨ a.toNat = c then
      { rcdAt (Machine.core s c).rcd s.cycle with rctl := (v &&& 0x0FFF11FE) ||| 0x0000EE01, cntStall := s.cycle, cntMem := 0, cntIssue := 0 }
    else (Machine.core s c).rcd := by
  have h' : coreArg (begun s [(0, a), (1, v.setWidth 64), (2, 1)]) a = true := h
  rw [exec_writeRctl, execWriteRctl]
  exact ⟨_, command_answers (t := modRecorders (begun s [(0, a), (1, v.setWidth 64), (2, 1)]) a (rctlWritten v s.cycle)) hm (by rw [h']; rfl) rfl,
    mem_modRecorders _ a _, rfl, fun c hc => rcd_modRecorders (s := begun s [(0, a), (1, v.setWidth 64), (2, 1)]) a (rctlWritten v s.cycle) hc⟩

theorem exec_writeRctl_beyond {a : DWord} (v : Word) (h : coreArg s a = false) :
    exec (.writeRctl m a v) s = .next (responded s [(0, a), (1, v.setWidth 64), (2, 1)] 3 []) := by
  have h' : coreArg (begun s [(0, a), (1, v.setWidth 64), (2, 1)]) a = false := h
  rw [exec_writeRctl, execWriteRctl]
  exact command_answers hm (by rw [h']; rfl) (answer_begun s _ _ (by decide))

theorem rearmCapture_named {a : DWord} (h : coreArg s a = true) : ∃ t, exec (.rearmCapture m a) s = .next t ∧ t.mem = s.mem ∧
    t.mbxResp = 0 ∧ ∀ c < coreCount s, (Machine.core t c).rcd = if a.toNat = 0x3FF ∨ a.toNat = c then
      { rcdAt (Machine.core s c).rcd s.cycle with
        capture := [], capCount := 0, capState := 0
        queue := (rcdAt (Machine.core s c).rcd s.cycle).queue.map (fun e => (false, e.2)) }
    else (Machine.core s c).rcd := by
  have h' : coreArg (begun s [(0, a)]) a = true := h
  rw [exec_rearmCapture, execRearmCapture]
  exact ⟨_, command_answers (t := modRecorders (begun s [(0, a)]) a captureRearmed) hm (by rw [h']; rfl) rfl,
    mem_modRecorders _ a _, rfl, fun c hc => rcd_modRecorders (s := begun s [(0, a)]) a captureRearmed hc⟩

theorem exec_rearmCapture_beyond {a : DWord} (h : coreArg s a = false) :
    exec (.rearmCapture m a) s = .next (responded s [(0, a)] 3 []) := by
  have h' : coreArg (begun s [(0, a)]) a = false := h
  rw [exec_rearmCapture, execRearmCapture]
  exact command_answers hm (by rw [h']; rfl) (answer_begun s _ _ (by decide))

theorem exec_copyRecords_refused {a b c d : DWord} (h : copyOk s a b c d = false) :
    exec (.copyRecords m a b c d) s = .next (responded s [(0, a), (1, b), (2, c), (3, d)] 3 []) := by
  have h' : copyOk (begun s [(0, a), (1, b), (2, c), (3, d)]) a b c d = false := h
  rw [exec_copyRecords, execCopyRecords]
  exact command_answers hm (by rw [h']; rfl) (answer_begun s _ _ (by decide))

omit hm in
theorem length_flatMap_leBytes (g : Nat → Nat) (l : List Nat) : (l.flatMap (fun i => leBytes 16 (g i))).length = l.length * 16 := by
  induction l with
  | nil => rfl
  | cons x l ih =>
    rw [List.flatMap_cons, List.length_append, length_leBytes, ih, List.length_cons]
    omega

theorem exec_copyRecords_ring {a b c d : DWord} (h : copyOk s a b c d = true) (ha : a.getLsbD 16 = false)
    (hr : hbmRange s c.toNat (d.toNat * 16) = true) (hh : hbmHeld s c.toNat (d.toNat * 16) = false)
    (ht : hbmTracked s c.toNat (d.toNat * 16) = []) : exec (.copyRecords m a b c d) s = .next (responded
      (hbmStore (begun s [(0, a), (1, b), (2, c), (3, d)]) c.toNat ((List.range d.toNat).flatMap (fun i =>
        leBytes 16 (ringRecord (rcdAt (Machine.core s (a.toNat % 1024)).rcd s.cycle) (b.toNat + i)).toNat))) [] 0
      [(0, BitVec.ofNat 64 (rcdAt (Machine.core s (a.toNat % 1024)).rcd s.cycle).w),
        (1, BitVec.ofNat 64 (rcdAt (Machine.core s (a.toNat % 1024)).rcd s.cycle).capState)]) := by
  have h' : copyOk (begun s [(0, a), (1, b), (2, c), (3, d)]) a b c d = true := h
  have hcore : bits a.toNat 9 0 = a.toNat % 1024 := bits_low _ _
  have hlen := length_flatMap_leBytes
    (fun i => (ringRecord (rcdAt (Machine.core s (a.toNat % 1024)).rcd s.cycle) (b.toNat + i)).toNat) (List.range d.toNat)
  rw [List.length_range] at hlen
  rw [exec_copyRecords, execCopyRecords]
  simp only [ha, hcore, Bool.false_eq_true, if_false]
  refine command_answers hm ?_ (answer_eq_responded _ _ (by decide))
  rw [h', Bool.not_true, if_neg Bool.false_ne_true]
  exact storeCommand_done (s := begun s [(0, a), (1, b), (2, c), (3, d)]) hlen hr hh ht

theorem exec_readSealWord_eq (a : DWord) : exec (.readSealWord m a) s = .next (if a.toNat % 16 < dies s then responded s [(0, a)] 0
    [(0, if frameExists s (frameKey (a.toNat % 16) (a.toNat / 16 % 128) (a.toNat / 2 ^ 11 % 2 ^ 11)) = true then
      (sealWord (frame s (frameKey (a.toNat % 16) (a.toNat / 16 % 128) (a.toNat / 2 ^ 11 % 2 ^ 11)))).setWidth 64 else 0)]
    else responded s [(0, a)] 3 []) := by
  have hdie : bits a.toNat 3 0 = a.toNat % 16 := bits_low _ _
  have hcore : bits a.toNat 10 4 = a.toNat / 16 % 128 := bits_eq _ _ _
  have hframe : bits a.toNat 21 11 = a.toNat / 2 ^ 11 % 2 ^ 11 := bits_eq _ _ _
  rw [exec_readSealWord, execReadSealWord]
  simp only [hdie, hcore, hframe]
  by_cases h : a.toNat % 16 < dies s
  · rw [if_pos h]
    exact command_answers hm (if_neg (Nat.not_le.mpr h)) (answer_begun s _ _ (by decide))
  · rw [if_neg h]
    exact command_answers hm (if_pos (Nat.not_lt.mp h)) (answer_begun s _ _ (by decide))

/-! ## The commands of the debugger (O57) -/

theorem exec_dbgctlWrite_free (v : DWord) :
    exec (.dbgctlWrite m v) s = .next (responded (writeDbgctl (begun s [(1, v), (2, 1)]) v) [] 0 [(1, v)]) := by
  rw [exec_dbgctlWrite, execDbgctlWrite]
  exact command_answers hm rfl (answer_eq_responded _ _ (by decide))

theorem exec_dbgctlRead_free : exec (.dbgctlRead m) s = .next (responded s [(2, 0)] 0 [(1, s.dbgctl)]) := by
  rw [exec_dbgctlRead, execDbgctlRead]
  exact command_answers hm rfl (answer_begun s _ _ (by decide))

theorem exec_haltreq_free : exec (.haltreq m) s =
    .next (responded (haltNow (clearLogs (begun s [(1, setBit s.dbgctl 18 true), (2, 1)]))) [] 0 []) := by
  rw [exec_haltreq, execHaltreq]
  exact command_answers hm rfl (answer_eq_responded _ _ (by decide))

theorem exec_haltStatusRead_free : exec (.haltStatusRead m) s = .next (responded s [(0, 0)] 0 [(0, mhalt s)]) := by
  rw [exec_haltStatusRead, execHaltStatusRead]
  exact command_answers hm rfl (answer_begun s _ _ (by decide))

omit hm in
theorem dbgctl_writeDbgctl {v : DWord} (h : v.getLsbD 18 = false) : (writeDbgctl s v).dbgctl = v := by
  have hv : v &&& ~~~(BitVec.twoPow 64 18) = v := by
    refine BitVec.eq_of_getLsbD_eq fun i hi => ?_
    rw [BitVec.getLsbD_and, BitVec.getLsbD_not, BitVec.getLsbD_twoPow]
    by_cases h18 : i = 18
    · subst h18
      rw [h, Bool.false_and]
    · simp [hi, Ne.symm h18]
  unfold writeDbgctl
  rw [h, if_neg Bool.false_ne_true]
  exact hv

omit hm in
theorem getLsbD_setBit (e : DWord) (b : Bool) : (setBit e 17 b).getLsbD 17 = b := by
  cases b <;> simp [setBit]

/-- A core whose undo logs are empty. -/
def logsCleared (k : Core) : Core :=
  modC k (fun y => { y with lfs := y.lfs.map (fun l => (l.1, { l.2 with undoBase := l.2.undo })) })

omit hm in
theorem laneFrame_clearLogs {c l : Nat} {f : LaneFrame} (hf : laneFrame s c l = some f) :
    laneFrame (clearLogs s) c l = some { f with undoBase := f.undo } := by
  have hcore : Machine.core (clearLogs s) c = logsCleared (Machine.core s c) := core_map s logsCleared rfl c
  rw [laneFrame, hcore]
  exact (lookup_mapVals (Machine.core s c).c.lfs (fun _ (f : LaneFrame) => { f with undoBase := f.undo }) l).trans
    (congrArg (Option.map _) hf)

theorem undoLogClear_spec (b : Bool) : ∃ t, exec (.undoLogClear m b) s = .next t ∧ t.dbgctl.getLsbD 17 = b ∧
    ∀ c l f, laneFrame s c l = some f → ∃ g, laneFrame t c l = some g ∧ g.undo = f.undo ∧ g.undoBase = f.undo := by
  rw [exec_undoLogClear, execUndoLogClear]
  refine ⟨_, command_answers hm rfl rfl, getLsbD_setBit _ b, fun c l f hf => ?_⟩
  exact ⟨_, laneFrame_clearLogs (s := { begun s _ with dbgctl := _ }) hf, rfl, rfl⟩

theorem exec_stepBack_running {c l k : Nat} (hk : k ≠ 0) (hs : s.stop = none) :
    exec (.stepBack m c l k) s = .next (responded s [(0, argOf c), (1, argOf l), (2, argOf k)] 2 []) := by
  have hcode : stepCode (begun s [(0, argOf c), (1, argOf l), (2, argOf k)]) c l k = 2 := by
    unfold stepCode
    rw [show (begun s [(0, argOf c), (1, argOf l), (2, argOf k)]).stop = none from hs]
  rw [exec_stepBack, execStepBack]
  exact command_answers hm (by rw [if_neg hk, hcode]; rfl) (answer_begun s _ _ (by decide))

theorem exec_stepBack_done {c l k : Nat} {f : LaneFrame} (hk : k ≠ 0) (hf : laneFrame s c l = some f) (hcode : stepCode s c l k = 0) :
    exec (.stepBack m c l k) s =
      .next (responded (stepBack (begun s [(0, argOf c), (1, argOf l), (2, argOf k)]) c l k f) [] 0 []) := by
  have hcode' : stepCode (begun s [(0, argOf c), (1, argOf l), (2, argOf k)]) c l k = 0 := hcode
  have hf' : laneFrame (begun s [(0, argOf c), (1, argOf l), (2, argOf k)]) c l = some f := hf
  rw [exec_stepBack, execStepBack]
  exact command_answers hm (by rw [if_neg hk, hcode', hf']; rfl) (answer_eq_responded _ _ (by decide))

end

/-- Settles O57, clause by clause. -/
theorem mailboxDebugCommands : Obligations.MailboxDebugCommands := by
  intro s m hm
  exact ⟨fun a h v => ⟨exec_readRctl_named hm (coreArg_named h), writeRctl_named hm v (coreArg_named h), rearmCapture_named hm (coreArg_named h)⟩,
    fun a h h' v => ⟨exec_readRctl_beyond hm (coreArg_beyond h h'), exec_writeRctl_beyond hm v (coreArg_beyond h h'),
      exec_rearmCapture_beyond hm (coreArg_beyond h h')⟩,
    fun a b c d => exec_copyRecords_refused hm, fun a b c d => exec_copyRecords_ring hm, exec_readSealWord_eq hm, exec_dbgctlWrite_free hm,
    fun v => dbgctl_writeDbgctl, exec_dbgctlRead_free hm, exec_haltreq_free hm, undoLogClear_spec hm,
    fun c l k f hk hf => ⟨exec_stepBack_running hm hk, exec_stepBack_done hm hk hf⟩, exec_haltStatusRead_free hm⟩

/-! ## The halt line (O58) -/

/-- A core that the halt line has reached: its bundles stop, its threads are held, its recording stops. -/
def haltCore (k : Core) : Core := { k with c := holdThreads (stopIssue k.c), rcd := { k.rcd with off := true } }

/-- A lane frame that issues nothing more (R357). -/
def idleFrame (f : LaneFrame) : LaneFrame := { f with clause := none, offer := none, fence := none, call := none, callSlot := none }

/-- A lane frame whose live threads are held (R359). -/
def heldFrame (f : LaneFrame) : LaneFrame :=
  { f with threads := f.threads.map (fun t => (t.1, if t.2.live then { t.2 with parked := true, stop := true } else t.2)) }

theorem lookup_haltCore (k : Core) (l : Nat) :
    lookup (haltCore k).c.lfs l = (lookup k.c.lfs l).map (fun f => heldFrame (idleFrame f)) := by
  refine (lookup_mapVals (stopIssue k.c).lfs (fun _ => heldFrame) l).trans ?_
  rw [show lookup (stopIssue k.c).lfs l = (lookup k.c.lfs l).map idleFrame from lookup_mapVals k.c.lfs (fun _ => idleFrame) l, Option.map_map]
  rfl

section
variable {s : State} {c : Nat} {p : Stop} (hp : s.stop = some p)
include hp

theorem exec_haltLineArrive_early {skid : Nat} (h : s.cycle < p.cycle + min skid (if c / 64 = p.core / 64 then 24 else 64)) :
    exec (.haltLineArrive c skid) s = .next s := by
  have h' : ¬ (c < coreCount s ∧ p.cycle + min skid (lineBound p c) ≤ s.cycle) := fun h' => Nat.not_le.mpr h h'.2
  simp only [exec_haltLineArrive, execHaltLineArrive, hp, if_neg h']

theorem exec_haltLineArrive_due {skid : Nat} (hc : c < coreCount s)
    (h : p.cycle + min skid (if c / 64 = p.core / 64 then 24 else 64) ≤ s.cycle) :
    exec (.haltLineArrive c skid) s = .next (haltArrive s c) := by
  have h' : c < coreCount s ∧ p.cycle + min skid (lineBound p c) ≤ s.cycle := ⟨hc, h⟩
  simp only [exec_haltLineArrive, execHaltLineArrive, hp, if_pos h']

theorem haltArrive_first (h : c ∉ p.arrived) : haltArrive s c =
    { modCore (haltEngines (haltBundles s c) c) c haltCore with stop := some { p with arrived := c :: p.arrived }, at_ := none } := by
  have h' : p.arrived.contains c = false := by simpa using h
  simp only [haltArrive, hp, h', Bool.false_eq_true, if_false]
  rfl

theorem haltArrive_spec (h : c ∉ p.arrived) : ∃ q, (haltArrive s c).stop = some q ∧ c ∈ q.arrived ∧ (haltArrive s c).at_ = none ∧
    (Machine.core (haltArrive s c) c).rcd.off = true ∧ (Machine.core (haltArrive s c) c).c.slots = [] ∧
    ∀ l f, laneFrame (haltArrive s c) c l = some f → f.clause = none ∧ f.offer = none := by
  rw [haltArrive_first hp h]
  generalize haltEngines (haltBundles s c) c = u
  have hcore : Machine.core { modCore u c haltCore with stop := some { p with arrived := c :: p.arrived }, at_ := none } c =
      haltCore (Machine.core u c) := core_modCore_self u c haltCore
  refine ⟨_, rfl, List.mem_cons_self, rfl, ?_, ?_, fun l f hf => ?_⟩
  · rw [hcore]
    rfl
  · rw [hcore]
    rfl
  · rw [laneFrame, hcore, lookup_haltCore] at hf
    obtain ⟨g, -, rfl⟩ := Option.map_eq_some_iff.mp hf
    exact ⟨rfl, rfl⟩

end

/-! ## Resuming and ending a context (O58) -/

section
variable {s : State}

theorem haltWrite_user {k : Nat} (f : State → State) (hup : mastUp s k = true) (hm : (Machine.mast s k).mode = .u) :
    haltWrite s k f = mastTrap s k 2 0 := by
  simp only [haltWrite, hup, hm, Bool.not_true, Bool.false_eq_true, if_false, if_true]

theorem haltWrite_allowed {k : Nat} (f : State → State) (hup : mastUp s k = true) (hm : (Machine.mast s k).mode ≠ .u) :
    haltWrite s k f = f s := by
  simp only [haltWrite, hup, if_neg hm, Bool.not_true, Bool.false_eq_true, if_false]

theorem exec_contextResume_mast (s : State) (k : Nat) :
    exec (.contextResume (.mast k)) s = .next (haltWrite s k (fun s => writeResume s true)) := rfl

theorem exec_contextEnd_mast (s : State) (k : Nat) : exec (.contextEnd (.mast k)) s = .next (haltWrite s k writeEnd) := rfl

theorem writeResume_running (b : Bool) (h : s.stop = none) : writeResume s b = s := by
  simp only [writeResume, h]

theorem writeResume_debugged {p : Stop} (hp : s.stop = some p) (h : p.dbg = true) : writeResume s true = s := by
  simp only [writeResume, hp, h, Bool.and_self, Bool.true_or, if_true]

theorem writeResume_capsule (b : Bool) (h : s.capDue ≠ []) : writeResume s b = s := by
  have hopen : capsuleOpen s = true := by simpa [capsuleOpen] using h
  unfold writeResume
  split
  · rfl
  · rw [hopen, Bool.or_true, if_pos rfl]

theorem writeResume_allowed {p : Stop} {b : Bool} (hp : s.stop = some p) (hb : p.blocked = false) (hl : p.lostFull = [])
    (hc : s.capDue = []) (hd : (b && p.dbg) = false) : writeResume s b = resume s p := by
  simp only [writeResume, hp, hb, hl, hd, capsuleOpen, hc, List.isEmpty_nil, Bool.not_true, Bool.or_self, Bool.false_eq_true, if_false]

theorem writeEnd_capsule (h : s.capDue ≠ []) : writeEnd s = s := by
  have hopen : capsuleOpen s = true := by simpa [capsuleOpen] using h
  simp only [writeEnd, hopen, Bool.or_true, if_true]

theorem writeEnd_idle (h : s.slice = none) : writeEnd s = s := by
  simp only [writeEnd, h, Option.isNone_none, Bool.true_or, if_true]

variable (hs : s.slice.isSome = true) (hc : s.capDue = [])
include hs hc

theorem writeEnd_allowed : writeEnd s = if s.stop.isSome then endStopped s true 0 else endStopped (raiseBare s 0 0 0 0) false 0 := by
  have hs' : s.slice.isNone = false := by rw [← Option.not_isSome, hs]; rfl
  simp only [writeEnd, hs', capsuleOpen, hc, List.isEmpty_nil, Bool.not_true, Bool.or_self, Bool.false_eq_true, if_false]

theorem writeEnd_stopped (h : s.stop.isSome = true) : writeEnd s = endStopped s true 0 := by
  rw [writeEnd_allowed hs hc, if_pos h]

theorem writeEnd_running (h : s.stop = none) : writeEnd s = endStopped (raiseBare s 0 0 0 0) false 0 := by
  rw [writeEnd_allowed hs hc, h]
  rfl

end

section
variable {s : State} {m : MbxMaster} (hm : MailboxFree s m)
include hm

theorem exec_contextResume_mailbox {p : Stop} (hp : s.stop = some p) (hb : p.blocked = false) (hl : p.lostFull = []) (hc : s.capDue = []) :
    exec (.contextResume (.mailbox m)) s =
      .next (responded (resume (begun s [(0, 1)]) p) [] 0 [(0, mhalt (resume (begun s [(0, 1)]) p))]) := by
  rw [exec_contextResume, execContextResume]
  refine command_answers hm ?_ (answer_eq_responded _ _ (by decide))
  rw [writeResume_allowed (s := begun s [(0, 1)]) hp hb hl hc (Bool.false_and _)]

theorem exec_contextEnd_mailbox (hs : s.slice.isSome = true) (hc : s.capDue = []) (hp : s.stop = none) :
    exec (.contextEnd (.mailbox m)) s = .next (responded (endStopped (raiseBare (begun s [(0, 2)]) 0 0 0 0) false 0) [] 0
      [(0, mhalt (endStopped (raiseBare (begun s [(0, 2)]) 0 0 0 0) false 0))]) := by
  rw [exec_contextEnd, execContextEnd]
  refine command_answers hm ?_ (answer_eq_responded _ _ (by decide))
  rw [writeEnd_running (s := begun s [(0, 2)]) hs hc hp]

end

/-! ## Capsules (O58) -/

section
variable {s : State}

theorem exec_capsuleAssembly_none (h : s.capDue = []) : exec .capsuleAssembly s = .next s := by
  simp only [exec_capsuleAssembly, execCapsuleAssembly, h]

variable {d : CapsuleDue} {r : List CapsuleDue} (h : s.capDue = d :: r)
include h

theorem exec_capsuleAssembly_waits (hr : capsuleReady s d = false) : exec .capsuleAssembly s = .next s := by
  simp only [exec_capsuleAssembly, execCapsuleAssembly, h, hr, Bool.not_false, if_true]

theorem exec_capsuleAssembly_holds (hr : capsuleReady s d = true) {i : Nat} (h1 : slotIn s 1 = some i) :
    exec .capsuleAssembly s = .next (capsuleDone (holdCapsule s d i) d) := by
  simp only [exec_capsuleAssembly, execCapsuleAssembly, h, hr, h1, Bool.not_true, Bool.false_eq_true, if_false]

theorem exec_capsuleAssembly_begins (hr : capsuleReady s d = true) {i : Nat} (h1 : slotIn s 1 = none) (h0 : slotIn s 0 = some i) :
    exec .capsuleAssembly s = .next (beginCapsule s d i) := by
  simp only [exec_capsuleAssembly, execCapsuleAssembly, h, hr, h1, h0, Bool.not_true, Bool.false_eq_true, if_false]

theorem exec_capsuleAssembly_drops (hr : capsuleReady s d = true) (h1 : slotIn s 1 = none) (h0 : slotIn s 0 = none) :
    exec .capsuleAssembly s = .next (capsuleDone (dropCapsule s d) d) := by
  simp only [exec_capsuleAssembly, execCapsuleAssembly, h, hr, h1, h0, Bool.not_true, Bool.false_eq_true, if_false]

end

/-- Settles O58, clause by clause: the halt line, RESUME and ENDCTX from a Mast and from the mailbox, and capsules. -/
theorem stopsEndsAndCapsules : Obligations.StopsEndsAndCapsules := by
  unfold Obligations.StopsEndsAndCapsules
  refine ⟨fun s c skid p hp hc => ⟨exec_haltLineArrive_early hp, fun h hn => ?_⟩, fun s k hup hm => ⟨?_, ?_⟩,
    fun s k hup hm => ⟨fun h => ?_, fun p hp h => ?_, fun p hp hb hl hcap hd => ?_, fun h => ⟨?_, ?_⟩, fun h => ?_, fun hs hcap =>
      ⟨fun h => ?_, fun h => ?_⟩⟩, fun s m hm => ⟨fun p => exec_contextResume_mailbox hm, exec_contextEnd_mailbox hm⟩,
    fun s => ⟨exec_capsuleAssembly_none, fun d r h => ⟨exec_capsuleAssembly_waits h, fun hr => ⟨fun i => exec_capsuleAssembly_holds h hr,
      fun i => exec_capsuleAssembly_begins h hr, exec_capsuleAssembly_drops h hr⟩⟩⟩⟩
  · obtain ⟨q, hq⟩ := haltArrive_spec hp hn
    exact ⟨_, q, exec_haltLineArrive_due hp hc h, hq⟩
  · rw [exec_contextResume_mast, haltWrite_user _ hup hm]
  · rw [exec_contextEnd_mast, haltWrite_user _ hup hm]
  · rw [exec_contextResume_mast, haltWrite_allowed _ hup hm, writeResume_running true h]
  · rw [exec_contextResume_mast, haltWrite_allowed _ hup hm, writeResume_debugged hp h]
  · rw [exec_contextResume_mast, haltWrite_allowed _ hup hm, writeResume_allowed hp hb hl hcap (by rw [hd]; rfl)]
  · rw [exec_contextResume_mast, haltWrite_allowed _ hup hm, writeResume_capsule true h]
  · rw [exec_contextEnd_mast, haltWrite_allowed _ hup hm, writeEnd_capsule h]
  · rw [exec_contextEnd_mast, haltWrite_allowed _ hup hm, writeEnd_idle h]
  · rw [exec_contextEnd_mast, haltWrite_allowed _ hup hm, writeEnd_stopped hs hcap h]
  · rw [exec_contextEnd_mast, haltWrite_allowed _ hup hm, writeEnd_running hs hcap h]

end Sys2Proof.Proofs
end

section
/-!
PROOFS. The package: reset, power, dies and links.
-/
namespace Sys2Proof.Proofs
open Sys2Proof Sys2Proof.Machine Sys2Proof.Spec

/-! ## Reset and boot (O59) -/

/-- The package after a reset, with die 0 in its ROM (R330). -/
def romState (s : State) : State := { afterReset s with dieState := (List.replicate 16 0).set 0 1 }

theorem exec_packageReset_noLink (s : State) (b : Bool) : exec (.packageReset false b) s = .next (failBoot (romState s) 1 0) := rfl

theorem exec_packageReset_noManifest (s : State) : exec (.packageReset true false) s = .next (failBoot (romState s) 2 0) := rfl

theorem exec_packageReset_read (s : State) : exec (.packageReset true true) s = .next (if manifestCode (romState s) ≠ 0 then
    failBoot (romState s) (manifestCode (romState s)) 0 else acceptManifest (romState s)) :=
  (apply_ite _ _ _ _).symm

/-- A Mast in M mode at an entry. -/
def Started (entry : Nat) (s : State) (c : Nat) : Prop :=
  (Machine.mast s c).mode = .m ∧ (Machine.mast s c).pc = BitVec.ofNat 64 entry

theorem started_startMast_self (s : State) (c : Nat) : Started s.boot.entry (startMast s c) c := by
  unfold Started startMast
  rw [mast_modMast_self]
  exact ⟨rfl, rfl⟩

theorem started_startMast {s : State} {c d : Nat} (h : Started s.boot.entry s c) : Started s.boot.entry (startMast s d) c := by
  by_cases hcd : c = d
  · subst hcd
    exact started_startMast_self s c
  · rw [Started, Machine.mast, startMast, modMast, core_modCore_ne s _ hcd]
    exact h

theorem started_foldl_startMast (g : Nat → Nat) (l : List Nat) {c : Nat} : ∀ s : State,
    c ∈ l.map g ∨ Started s.boot.entry s c → Started s.boot.entry (l.foldl (fun t i => startMast t (g i)) s) c := by
  induction l with
  | nil =>
    rintro s (h | h)
    · exact absurd h List.not_mem_nil
    · exact h
  | cons i l ih =>
    intro s h
    refine ih (startMast s (g i)) ?_
    rcases h with h | h
    · rw [List.map_cons, List.mem_cons] at h
      rcases h with rfl | h
      · exact .inr (started_startMast_self s (g i))
      · exact .inl h
    · exact .inr (started_startMast h)

theorem acceptManifest_mast (s : State) : Started (manifestField s 16 8) (acceptManifest s) 0 := started_startMast_self _ 0

theorem dieState_acceptManifest (s : State) : (acceptManifest (romState s)).dieState = 2 :: List.replicate 15 0 := rfl

/-- Only the Mast of core 0 runs once the manifest is accepted (R330 step 4). -/
theorem mastUp_acceptManifest (s : State) {c : Nat} (hc : c ≠ 0) : mastUp (acceptManifest (romState s)) c = false := by
  unfold mastUp
  rw [dieState_acceptManifest]
  by_cases hd : c / 64 = 0
  · have hmod : ¬ c % 64 = 0 := by omega
    have hboot : lookup (acceptManifest (romState s)).booting 0 = some 1 := rfl
    have hd' : dieOf c = 0 := hd
    simp [hd', hmod, hboot, hc]
  · obtain ⟨n, hn⟩ : ∃ n, dieOf c = n + 1 := ⟨c / 64 - 1, by unfold dieOf; omega⟩
    have hget : (2 :: List.replicate 15 0).getD (dieOf c) 0 = 0 := by
      rw [hn, List.getD_cons_succ]
      by_cases h : n < 15
      · exact List.getD_replicate _ h
      · exact List.getD_eq_default _ _ (by simpa using h)
    simp only [hget]
    simp

section
variable {s : State} {blk : Nat} (hready : s.boot.ready = true) (hblk : blk < s.boot.manifest.length / 48) (hnew : blk ∉ s.boot.checked)
  (hopen : windowOpen s = true) (hdie : dieGone s 0 = false)
  (hfree : (blockFrames blk).any (fun k => (frame s k).valid || (frame s k).busy) = false)
include hready hblk hnew hopen hdie hfree

theorem exec_bootBlockFetch_due (readOk : Bool) : exec (.bootBlockFetch blk readOk) s = .next (
    if readOk = false then
      if look s.boot.retries (2 * blk) 0 < 3 then
        { s with boot := { s.boot with retries := put s.boot.retries (2 * blk) (look s.boot.retries (2 * blk) 0 + 1) } }
      else failBoot s 8 blk
    else if digestBytes (Config.sha384 (busRead s (s.boot.base + 65536 * blk) 65536)) ≠ (s.boot.manifest.drop (48 * blk)).take 48 then
      if look s.boot.retries (2 * blk + 1) 0 < 1 then
        { s with boot := { s.boot with retries := put s.boot.retries (2 * blk + 1) (look s.boot.retries (2 * blk + 1) 0 + 1) } }
      else failBoot s 7 blk
    else { placeBlock16 s blk (busRead s (s.boot.base + 65536 * blk) 65536) with boot := { s.boot with checked := blk :: s.boot.checked } }) := by
  have hnew' : s.boot.checked.contains blk = false := by simpa using hnew
  simp only [exec_bootBlockFetch, execBootBlockFetch, bootFetch, hready, Nat.not_le.mpr hblk, hnew', hopen, hdie, hfree, Bool.not_true,
    Bool.false_eq_true, or_self, if_false, Bool.not_eq_true']

theorem exec_bootBlockFetch_unreadable (h : 3 ≤ look s.boot.retries (2 * blk) 0) :
    exec (.bootBlockFetch blk false) s = .next (failBoot s 8 blk) := by
  rw [exec_bootBlockFetch_due hready hblk hnew hopen hdie hfree, if_pos rfl, if_neg (Nat.not_lt.mpr h)]

theorem exec_bootBlockFetch_good
    (h : digestBytes (Config.sha384 (busRead s (s.boot.base + 65536 * blk) 65536)) = (s.boot.manifest.drop (48 * blk)).take 48) :
    exec (.bootBlockFetch blk true) s = .next { placeBlock16 s blk (busRead s (s.boot.base + 65536 * blk) 65536) with
      boot := { s.boot with checked := blk :: s.boot.checked } } := by
  rw [exec_bootBlockFetch_due hready hblk hnew hopen hdie hfree, if_neg Bool.true_eq_false.mp, if_neg (not_not_intro h)]

theorem exec_bootBlockFetch_bad
    (h : ¬ digestBytes (Config.sha384 (busRead s (s.boot.base + 65536 * blk) 65536)) = (s.boot.manifest.drop (48 * blk)).take 48)
    (hr : 1 ≤ look s.boot.retries (2 * blk + 1) 0) : exec (.bootBlockFetch blk true) s = .next (failBoot s 7 blk) := by
  rw [exec_bootBlockFetch_due hready hblk hnew hopen hdie hfree, if_neg Bool.true_eq_false.mp, if_pos h, if_neg (Nat.not_lt.mpr hr)]

end

/-! ## Die states (O59) -/

/-- A die's state noted. -/
def dieNoted (s : State) (d st : Nat) : State := { s with dieState := s.dieState.set d st }

section
variable {s : State} {d st : Nat}

theorem enterState_full : enterState s d 4 = closeWindow { dieNoted s d 4 with booting := drop s.booting d } := rfl

theorem enterState_firmware (h : s.dieState.getD d 0 = 0) :
    enterState s d 2 = startMast { dieNoted s d 2 with booting := put s.booting d 1 } (64 * d) := by
  unfold enterState
  rw [if_neg (by decide), if_pos ⟨rfl, h⟩]
  rfl

theorem enterState_reset (h4 : st ≠ 4) (h : s.dieState.getD d 0 = 6) :
    enterState s d st = startRest (startMast (dieNoted s d st) (64 * d)) d := by
  unfold enterState
  rw [if_neg h4, if_neg (by rw [h]; omega), if_pos h]
  rfl

theorem enterState_starting (h4 : st ≠ 4) (h2 : ¬ (st = 2 ∧ s.dieState.getD d 0 = 0)) (h6 : s.dieState.getD d 0 ≠ 6) (h : lookup s.booting d = some 1) :
    enterState s d st = startRest (dieNoted s d st) d := by
  unfold enterState
  rw [if_neg h4, if_neg h2, if_neg h6]
  exact if_pos h

theorem enterState_plain (h4 : st ≠ 4) (h2 : ¬ (st = 2 ∧ s.dieState.getD d 0 = 0)) (h6 : s.dieState.getD d 0 ≠ 6) (h : lookup s.booting d ≠ some 1) :
    enterState s d st = dieNoted s d st := by
  unfold enterState
  rw [if_neg h4, if_neg h2, if_neg h6]
  exact if_neg h

/-- What starting the rest of a die keeps. -/
theorem startRest_frame (s : State) (d : Nat) : ∃ cs, startRest s d = { s with booting := put s.booting d 2, cores := cs } :=
  List.foldlRecOn (List.range 63) (fun t i => startMast t (64 * d + i + 1))
    (motive := fun t : State => ∃ cs, t = { s with booting := put s.booting d 2, cores := cs }) ⟨_, rfl⟩ fun t ⟨_, ht⟩ i _ => by
      subst ht
      exact ⟨_, rfl⟩

theorem started_startRest {i : Nat} (hi : i < 64) (h : i ≠ 0 ∨ Started s.boot.entry s (64 * d + i)) :
    Started s.boot.entry (startRest s d) (64 * d + i) := by
  refine started_foldl_startMast (fun i => 64 * d + i + 1) (List.range 63) { s with booting := put s.booting d 2 } ?_
  refine h.imp (fun h0 => List.mem_map.mpr ⟨i - 1, List.mem_range.mpr (by omega), ?_⟩) id
  show 64 * d + (i - 1) + 1 = 64 * d + i
  omega

theorem closeWindow_frame (t : State) : closeWindow t = { t with boot := (closeWindow t).boot } := by
  unfold closeWindow
  split <;> rfl

theorem dieState_enterState (s : State) (d st : Nat) :
    (enterState s d st).dieState = s.dieState.set d st ∧ (enterState s d st).mem = s.mem := by
  by_cases h4 : st = 4
  · subst h4
    rw [enterState_full, closeWindow_frame]
    exact ⟨rfl, rfl⟩
  · by_cases h2 : st = 2 ∧ s.dieState.getD d 0 = 0
    · obtain ⟨rfl, h0⟩ := h2
      rw [enterState_firmware h0]
      exact ⟨rfl, rfl⟩
    · by_cases h6 : s.dieState.getD d 0 = 6
      · obtain ⟨cs, h⟩ := startRest_frame (startMast (dieNoted s d st) (64 * d)) d
        rw [enterState_reset h4 h6, h]
        exact ⟨rfl, rfl⟩
      · by_cases hb : lookup s.booting d = some 1
        · obtain ⟨cs, h⟩ := startRest_frame (dieNoted s d st) d
          rw [enterState_starting h4 h2 h6 hb, h]
          exact ⟨rfl, rfl⟩
        · rw [enterState_plain h4 h2 h6 hb]
          exact ⟨rfl, rfl⟩

theorem enterState_full_spec : lookup (enterState s d 4).booting d = none ∧ (enterState s d 4).cores = s.cores := by
  rw [enterState_full, closeWindow_frame]
  exact ⟨lookup_drop_self .., rfl⟩

theorem enterState_firmware_spec (h : s.dieState.getD d 0 = 0) : lookup (enterState s d 2).booting d = some 1 ∧
    enterState s d 2 = { modMast s (64 * d) (fun m => { m with mode := .m, pc := BitVec.ofNat 64 s.boot.entry }) with
      dieState := (enterState s d 2).dieState, booting := (enterState s d 2).booting } := by
  rw [enterState_firmware h]
  exact ⟨lookup_put_self .., rfl⟩

theorem enterState_starts_all (h4 : st ≠ 4) (h0 : s.dieState.getD d 0 ≠ 0) (h : lookup s.booting d = some 1 ∨ s.dieState.getD d 0 = 6) :
    lookup (enterState s d st).booting d = some 2 ∧ ∀ i < 64, i ≠ 0 ∨ s.dieState.getD d 0 = 6 →
      Started s.boot.entry (enterState s d st) (64 * d + i) := by
  by_cases h6 : s.dieState.getD d 0 = 6
  · rw [enterState_reset h4 h6]
    obtain ⟨cs, hrest⟩ := startRest_frame (startMast (dieNoted s d st) (64 * d)) d
    refine ⟨by rw [hrest]; exact lookup_put_self .., fun i hi _ => ?_⟩
    refine started_startRest (s := startMast (dieNoted s d st) (64 * d)) hi ?_
    by_cases hi0 : i = 0
    · subst hi0
      exact .inr (started_startMast_self (dieNoted s d st) (64 * d))
    · exact .inl hi0
  · rw [enterState_starting h4 (fun h2 => h0 h2.2) h6 (h.resolve_right h6)]
    obtain ⟨cs, hrest⟩ := startRest_frame (dieNoted s d st) d
    refine ⟨by rw [hrest]; exact lookup_put_self .., fun i hi hi0 => ?_⟩
    exact started_startRest (s := dieNoted s d st) hi (.inl (hi0.resolve_right h6))

theorem exec_dieStateChange_enters (hd : d < dies s) (h : mayEnterState s d st = true) :
    exec (.dieStateChange d st) s = .next (enterState s d st) := by
  simp only [exec_dieStateChange, execDieStateChange, hd, h, and_self, if_true]

theorem exec_dieStateChange_refused (h : mayEnterState s d st = false) : exec (.dieStateChange d st) s = .next s := by
  simp only [exec_dieStateChange, execDieStateChange, h, Bool.false_eq_true, and_false, if_false]

end

/-! ## Power and heat (O59) -/

section
variable (s : State) (sc : List Nat)

/-- The byte cap that the arbiter gives a stack in compatibility mode (R333). -/
def capStack (t : Table Word) (i : Nat) : Table Word :=
  if (hcfgOf s i).getLsbD 31 = true then put t i ((hcfgOf s i &&& 0xFFFF0000) ||| BitVec.ofNat 32 (byteCap (sc.getD i 0))) else t

theorem look_capStack_ne (t : Table Word) {i j : Nat} (h : j ≠ i) : look (capStack s sc t i) j 0x0000FFFF = look t j 0x0000FFFF := by
  unfold capStack
  split
  · exact look_put_ne t _ _ h
  · rfl

theorem look_capStack_foldl {l : List Nat} {j : Nat} (h : j ∉ l) (t : Table Word) :
    look (l.foldl (capStack s sc) t) j 0x0000FFFF = look t j 0x0000FFFF := by
  induction l generalizing t with
  | nil => rfl
  | cons i l ih =>
    rw [List.mem_cons, not_or] at h
    rw [List.foldl_cons, ih h.2, look_capStack_ne s sc t h.1]

theorem look_capStack_mem {l : List Nat} (hn : l.Nodup) {j : Nat} (h : j ∈ l) {t : Table Word}
    (ht : look t j 0x0000FFFF = hcfgOf s j) : look (l.foldl (capStack s sc) t) j 0x0000FFFF =
      if (hcfgOf s j).getLsbD 31 = true then (hcfgOf s j &&& 0xFFFF0000) ||| BitVec.ofNat 32 (byteCap (sc.getD j 0)) else hcfgOf s j := by
  induction l generalizing t with
  | nil => cases h
  | cons i l ih =>
    obtain ⟨hi, hn'⟩ := List.nodup_cons.mp hn
    by_cases hij : j = i
    · subst hij
      rw [List.foldl_cons, look_capStack_foldl s sc hi, capStack]
      split
      · exact look_put_self ..
      · exact ht
    · rw [List.foldl_cons]
      exact ih hn' ((List.mem_cons.mp h).resolve_left hij) ((look_capStack_ne s sc t hij).trans ht)

end

theorem powerArbiterTick_spec {s : State} {dc sc : List Nat} (hdc : dc.length = dies s) (hsc : sc.length = dies s)
    (hc : s.cycle % millisecond = 0) (hsum : dc.foldl (· + ·) 0 * 10 + sc.foldl (· + ·) 0 ≤ 56000) :
    ∃ t, exec (.powerArbiterTick dc sc) s = .next t ∧ t.dieCap = dc ∧ t.stackCap = sc ∧ t.cores = s.cores ∧ t.mem = s.mem ∧
      (∀ d, (d, 0) ∈ s.vfNext → (d, 0) ∈ t.vfNext) ∧
      ∀ i < dies s, ((hcfgOf s i).getLsbD 31 = false → hcfgOf t i = hcfgOf s i) ∧
        ((hcfgOf s i).getLsbD 31 = true →
          hcfgOf t i = (hcfgOf s i &&& 0xFFFF0000) ||| BitVec.ofNat 32 (min 0xFFFF (sc.getD i 0 * 1024000 / 861696))) := by
  have hcond : ¬ (s.cycle % millisecond ≠ 0 ∨ dc.length ≠ dies s ∨ sc.length ≠ dies s ∨
      56000 < dc.foldl (fun a b => a + b) 0 * 10 + sc.foldl (fun a b => a + b) 0) := by
    rintro (h | h | h | h)
    · exact h hc
    · exact h hdc
    · exact h hsc
    · exact Nat.not_lt.mpr hsum h
  refine ⟨_, (exec_powerArbiterTick ..).trans (if_neg hcond), rfl, rfl, rfl, rfl, fun d hd => ?_, fun i hi => ?_⟩
  · show (d, 0) ∈ (if _ then _ else _ : List (Nat × Nat))
    split
    · exact hd
    · exact List.mem_filter.mpr ⟨hd, rfl⟩
  · have h := look_capStack_mem s sc List.nodup_range (List.mem_range.mpr hi) (t := s.hcfg) rfl
    refine ⟨fun h31 => h.trans (if_neg (Bool.eq_false_iff.mp h31)), fun h31 => h.trans (if_pos h31)⟩

theorem exec_thermalCooldown_hot {s : State} {d t : Nat} (h : lookup s.hotSince d = some t) : exec (.thermalCooldown d) s =
    .next (if t + millisecond ≤ s.cycle then { s with hotSince := drop s.hotSince d } else s) := by
  simp only [exec_thermalCooldown, execThermalCooldown, h]

theorem packageOverdraw_spec (s : State) (d : Nat) : ∃ t, exec .packageOverdraw s = .next t ∧
    (d < dies s → (d, 0) ∈ t.vfNext) ∧ t = { s with vfNext := t.vfNext } :=
  ⟨_, rfl, fun hd => List.mem_append_right _ (List.mem_map.mpr ⟨d, List.mem_range.mpr hd, rfl⟩), rfl⟩

theorem exec_coolantLoss_die {s : State} {d : Nat} (hd : d < dies s) : exec (.coolantLoss d) s = .next (fatalStop s d 1) := by
  simp only [exec_coolantLoss, execCoolantLoss, if_neg (Nat.not_le.mpr hd)]

theorem exec_supplyFault_die {s : State} {d : Nat} (hd : d < dies s) (h5 : s.dieState.getD d 0 ≠ 5) (h6 : s.dieState.getD d 0 ≠ 6)
    (hc : s.capDue = []) : exec (.supplyFault d) s = .next (fenceDie (powerStop s d 2 0) d) := by
  have hopen : capsuleOpen s = false := by simp [capsuleOpen, hc]
  have hcond : ¬ (capsuleOpen s = true ∨ s.dieState.getD d 0 = 6) := fun h => h.elim (Bool.eq_false_iff.mp hopen) h6
  simp only [exec_supplyFault, execSupplyFault, if_neg (Nat.not_le.mpr hd), if_neg h5, if_neg hcond]

theorem powerLoss_spec (s : State) : ∃ t, exec .powerLoss s = .next t ∧ t.bootaddr = s.bootaddr ∧ t.summaries = s.summaries ∧
    t.capSeq = s.capSeq ∧ t.powered = false ∧ t.cores = [] ∧ t.stop = none ∧ t.capsules = [⟨0, 0, 0⟩, ⟨0, 0, 0⟩] ∧
    ∀ e, e ∈ t.mem ↔ e ∈ s.mem ∧ 2 ^ 40 ≤ e.1 ∧ (e.1 < Config.frameBase ∨ Config.hostBase ≤ e.1) := by
  refine ⟨_, rfl, rfl, rfl, rfl, rfl, rfl, rfl, rfl, fun e => ?_⟩
  show e ∈ (s.mem.filter (fun e => decide (e.1 < Config.frameBase ∨ Config.hostBase ≤ e.1))).filter (fun e => decide (2 ^ 40 ≤ e.1)) ↔ _
  rw [List.mem_filter, List.mem_filter, decide_eq_true_eq, decide_eq_true_eq, and_assoc, and_comm (a := e.1 < _ ∨ _)]

/-- Settles O59, clause by clause: reset and boot, die states, power and heat. -/
theorem resetAndPowerEvents : Obligations.ResetAndPowerEvents := by
  unfold Obligations.ResetAndPowerEvents
  refine ⟨fun s b => ⟨exec_packageReset_noLink s b, exec_packageReset_noManifest s, fun h => ?_, fun h => ⟨?_, ?_⟩⟩,
    fun s blk hready hblk hnew hopen hdie hfree => ⟨exec_bootBlockFetch_unreadable hready hblk hnew hopen hdie hfree,
      exec_bootBlockFetch_good hready hblk hnew hopen hdie hfree, exec_bootBlockFetch_bad hready hblk hnew hopen hdie hfree⟩,
    fun s d st hd => ⟨fun h => ⟨_, exec_dieStateChange_enters hd h, (dieState_enterState s d st).1, (dieState_enterState s d st).2, ?_, ?_,
      enterState_starts_all, ?_⟩, exec_dieStateChange_refused⟩,
    fun s dc sc => powerArbiterTick_spec, fun s d t h => ⟨fun ht => ?_, fun ht => ?_⟩, packageOverdraw_spec, fun s d => exec_coolantLoss_die,
    fun s d => exec_supplyFault_die, powerLoss_spec, fun s fn => rfl⟩
  · exact (exec_packageReset_read s).trans (congrArg _ (if_pos h))
  · exact (exec_packageReset_read s).trans (congrArg _ (if_neg (not_not_intro h)))
  · obtain ⟨hmode, hpc⟩ := acceptManifest_mast (romState s)
    exact ⟨hmode, hpc, fun c hc => mastUp_acceptManifest s hc⟩
  · rintro rfl
    exact enterState_full_spec
  · rintro rfl h0
    exact enterState_firmware_spec h0
  · rintro rfl h2 hb
    exact enterState_plain (by decide) (by omega) (by omega) hb
  · rw [exec_thermalCooldown_hot h, if_neg (Nat.not_le.mpr ht)]
  · rw [exec_thermalCooldown_hot h, if_pos ht]

/-! ## Links and ports (O60) -/

section
variable {s : State} {a b : Nat}

theorem exec_linkLaneFailure_spare (s : State) (a b : Nat) : exec (.linkLaneFailure a b true) s = .next s := by
  simp only [exec_linkLaneFailure, execLinkLaneFailure, true_or, if_true]

theorem exec_linkDown_retrained (s : State) (a b : Nat) : exec (.linkDown a b true) s = .next s := by
  simp only [exec_linkDown, execLinkDown, true_or, if_true]

variable (h : adjacent s a b = true)
include h

theorem exec_linkLaneFailure_up (hl : lookup s.links (linkKey a b) = none) : exec (.linkLaneFailure a b false) s =
    .next (countRas (countRas { s with links := put s.links (linkKey a b) ⟨1, s.cycle⟩ } a) b) := by
  simp only [exec_linkLaneFailure, execLinkLaneFailure, h, hl, Bool.not_true, Bool.false_eq_true, or_self, if_false]

theorem exec_linkDown_up (hl : lookup s.links (linkKey a b) = none) : exec (.linkDown a b false) s =
    .next { s with links := put s.links (linkKey a b) ⟨2, s.cycle⟩ } := by
  simp only [exec_linkDown, execLinkDown, h, hl, Bool.not_true, Bool.false_eq_true, or_self, if_false]

theorem exec_linkDown_down {x : Link} (hl : lookup s.links (linkKey a b) = some x) (hx : x.st = 2) :
    exec (.linkDown a b false) s = .next s := by
  simp only [exec_linkDown, execLinkDown, h, hl, hx, Bool.not_true, Bool.false_eq_true, or_self, if_false, if_true]

end

theorem exec_fabricPortFailure_up {s : State} {p : Nat} (hp : p < 36) (h : lookup s.ports p = none) :
    exec (.fabricPortFailure p) s = .next (replayChunks { s with ports := put s.ports p s.cycle }) := by
  simp only [exec_fabricPortFailure, execFabricPortFailure, if_neg (Nat.not_le.mpr hp), h, Option.isSome_none, Bool.false_eq_true, if_false]

theorem exec_portRemovedFromTree_down {s : State} {p t : Nat} (hp : p < 36) (h : lookup s.ports p = some t) :
    exec (.portRemovedFromTree p) s = .next (if t + millisecond ≤ s.cycle then { s with portsOut := (p :: s.portsOut).dedup } else s) := by
  simp only [exec_portRemovedFromTree, execPortRemovedFromTree, h, hp, true_and]

/-! ## Dies that are lost or reset (O60) -/

section
variable {s : State} {d : Nat}

theorem exec_dieLost_reached (h : cutOff s d = false) : exec (.dieLost d) s = .next s := by
  simp only [exec_dieLost, execDieLost, h, Bool.not_false, or_true, if_true]

theorem lostStop_idle (c : Nat) (h : s.slice = none) : lostStop s c = s := by
  simp only [lostStop, h, Option.isSome_none, Bool.false_and, Bool.false_eq_true, if_false]

theorem lostCapsule_idle (c : Nat) (h : s.slice = none) : lostCapsule s c = s := by
  simp only [lostCapsule, h]

/-- Without a running context a lost die raises no stop and leaves no capsule. -/
theorem lostEnd_idle (c : Nat) (h : s.slice = none) (hp : s.stop = none) :
    lostCapsule (if (lostStop s c).stop.isSome then settle (lostStop s c) else lostStop s c) c = s := by
  rw [lostStop_idle c h, hp, if_neg (by simp), lostCapsule_idle c h]

/-- A die noted as lost (R426). -/
def dieGoneFor (s : State) (d : Nat) : State := { s with
  dieState := s.dieState.set d 0, lostDies := d :: s.lostDies, booting := drop s.booting d
  hwrites := s.hwrites.filter (fun w => pageStack w.page != d) }

theorem exec_dieLost_idle (hd : d < dies s) (hl : d ∉ s.lostDies) (h0 : s.dieState.getD d 0 ≠ 0) (hc : cutOff s d = true)
    (hs : s.slice = none) (hp : s.stop = none) : exec (.dieLost d) s = .next (dieGoneFor s d) := by
  have hcond : ¬ (dies s ≤ d ∨ s.lostDies.contains d = true ∨ s.dieState.getD d 0 = 0 ∨ (!cutOff s d) = true) := by
    rintro (h | h | h | h)
    · exact Nat.not_le.mpr hd h
    · exact hl (by simpa using h)
    · exact h0 h
    · rw [hc] at h
      cases h
  rw [exec_dieLost, execDieLost, if_neg hcond]
  exact congrArg Host.Outcome.next (lostEnd_idle (s := dieGoneFor s d) (firstCore (dieGoneFor s d)) hs hp)

variable {m : MbxMaster} (hm : MailboxFree s m) (hd : d < dies s)
include hm hd

theorem exec_warmResetDie_again (b : Bool) (h : s.dieState.getD d 0 = 6) :
    exec (.warmResetDie m d b) s = .next (responded s [(0, argOf (d + bnat b * 2 ^ 8))] 0 []) := by
  have h' : (begun s [(0, argOf (d + bnat b * 2 ^ 8))]).dieState.getD d 0 = 6 := h
  rw [exec_warmResetDie, execWarmResetDie]
  refine command_answers hm ?_ (answer_begun s _ _ (by decide))
  rw [if_neg (show ¬ dies (begun s [(0, argOf (d + bnat b * 2 ^ 8))]) ≤ d from Nat.not_le.mpr hd), h', if_neg (by decide), if_pos rfl]

variable (h5 : s.dieState.getD d 0 ≠ 5) (h6 : s.dieState.getD d 0 ≠ 6) (hc : s.capDue = [])
include h5 h6 hc

theorem exec_warmResetDie_fences {b : Bool} (h : (!b && s.wgs.any (fun w => decide (dieOf w.core = d))) = false) :
    exec (.warmResetDie m d b) s = .next (pendingAs (fenceDie (begun s [(0, argOf (d + bnat b * 2 ^ 8))]) d) m 0x2B) := by
  have hopen : ¬ capsuleOpen s = true := by simp [capsuleOpen, hc]
  have h' : ¬ (!b && s.wgs.any (fun w => decide (dieOf w.core = d))) = true := Bool.eq_false_iff.mp h
  rw [exec_warmResetDie, execWarmResetDie, command_free hm]
  simp only [if_neg (show ¬ dies (begun s [(0, argOf (d + bnat b * 2 ^ 8))]) ≤ d from Nat.not_le.mpr hd),
    if_neg (show ¬ (begun s [(0, argOf (d + bnat b * 2 ^ 8))]).dieState.getD d 0 = 5 from h5),
    if_neg (show ¬ (begun s [(0, argOf (d + bnat b * 2 ^ 8))]).dieState.getD d 0 = 6 from h6),
    if_neg (show ¬ capsuleOpen (begun s [(0, argOf (d + bnat b * 2 ^ 8))]) = true from hopen),
    if_neg (show ¬ (!b && (begun s [(0, argOf (d + bnat b * 2 ^ 8))]).wgs.any (fun w => decide (dieOf w.core = d))) = true from h')]
  rfl

theorem exec_warmResetDie_occupied (h : s.wgs.any (fun w => decide (dieOf w.core = d)) = true) :
    exec (.warmResetDie m d false) s = .next (responded s [(0, argOf d)] 2 []) := by
  have hopen : ¬ capsuleOpen s = true := by simp [capsuleOpen, hc]
  have h' : (!false && s.wgs.any (fun w => decide (dieOf w.core = d))) = true := h
  rw [exec_warmResetDie, execWarmResetDie]
  refine command_answers hm ?_ (answer_begun s _ _ (by decide))
  exact (if_neg (Nat.not_le.mpr hd)).trans ((if_neg h5).trans ((if_neg h6).trans ((if_neg hopen).trans (if_pos h'))))

end

/-- Settles O60, clause by clause: links, ports, dies cut off, and command 0x2B. -/
theorem linkAndDieEvents : Obligations.LinkAndDieEvents := by
  unfold Obligations.LinkAndDieEvents
  refine ⟨fun s a b => ⟨rfl, exec_linkLaneFailure_spare s a b, exec_linkDown_retrained s a b, rfl,
      fun h => ⟨fun hl => ⟨exec_linkLaneFailure_up h hl, exec_linkDown_up h hl⟩, fun x => exec_linkDown_down h⟩⟩,
    fun s p hp => ⟨exec_fabricPortFailure_up hp, fun t h => ⟨fun ht => ?_, fun ht => ?_⟩⟩,
    fun s d hd hl h0 => ⟨exec_dieLost_reached, exec_dieLost_idle hd hl h0⟩,
    fun s m d hm hd => ⟨fun h b => exec_warmResetDie_again hm hd b h, fun h5 h6 hc => ⟨?_, fun h => ?_, fun h => ?_⟩⟩⟩
  · rw [exec_portRemovedFromTree_down hp h, if_neg (Nat.not_le.mpr ht)]
  · rw [exec_portRemovedFromTree_down hp h, if_pos ht]
  · exact exec_warmResetDie_fences hm hd h5 h6 hc rfl
  · exact exec_warmResetDie_occupied hm hd h5 h6 hc h
  · exact exec_warmResetDie_fences hm hd h5 h6 hc (b := false) h

end Sys2Proof.Proofs
end

section

/-! PROOFS. O36: every step keeps memory in its canonical form. Memory is written by a few operations alone, and each keeps the form (the
laws of `Mem`); every other function of the model only passes a state on. So there is one lemma for each function that a step is made
of, in the order of the model: given states in canonical form it gives back one (`inv_f`), or an outcome that has one (`safe_f`). -/

-- The many short proofs are elaborated one after another: at once they would hold more threads than the memory limit allows.
set_option Elab.async false

namespace Sys2Proof.Proofs

open Sys2Proof Sys2Proof.Machine Sys2Proof.Spec

/-! ## Canonical memory: the invariant -/

theorem inv_upd {s t : State} (k : s.Inv) (h : t.mem = s.mem := by rfl) : t.Inv := by
  unfold State.Inv
  rw [h]
  exact k

theorem inv_ite {c : Prop} {inst : Decidable c} {a b : State} (ha : a.Inv) (hb : b.Inv) : (if c then a else b).Inv := by
  split
  · exact ha
  · exact hb

theorem inv_foldl {α : Type} {g : State → α → State} {l : List α} {s : State} (hg : ∀ t a, t.Inv → (g t a).Inv) (h : s.Inv) :
    (l.foldl g s).Inv :=
  List.foldlRecOn l g (motive := fun (t : State) => t.Inv) h fun t ht a _ => hg t a ht

theorem inv_snd {α : Type} {p : α × State} {a : α} {t : State} (h : p = (a, t)) (k : p.2.Inv) : t.Inv := by
  subst h
  exact k

theorem inv_fst {α : Type} {p : State × α} {a : α} {t : State} (h : p = (t, a)) (k : p.1.Inv) : t.Inv := by
  subst h
  exact k

theorem inv_snd_snd {α β : Type} {p : α × β × State} {a : α} {b : β} {t : State} (h : p = (a, b, t)) (k : p.2.2.Inv) : t.Inv := by
  subst h
  exact k

theorem inv_snd_snd_snd {α β γ : Type} {p : α × β × γ × State} {a : α} {b : β} {c : γ} {t : State} (h : p = (a, b, c, t))
    (k : p.2.2.2.Inv) : t.Inv := by
  subst h
  exact k

theorem inv_of_mem {s : State} (h : Mem.wf s.mem = true) : s.Inv := h

theorem wf_of_inv {s : State} (h : s.Inv) : Mem.wf s.mem = true := h

/-- An option of a state whose state, if any, is in canonical form. -/
def InvOpt (o : Option State) : Prop := ∀ t, o = some t → t.Inv

theorem inv_some {o : Option State} {t : State} (h : o = some t) (k : InvOpt o) : t.Inv := k t h

theorem invOpt_none : InvOpt none := by
  intro t h
  cases h

theorem invOpt_some {s : State} (k : s.Inv) : InvOpt (some s) := by
  intro t h
  cases h
  exact k

theorem invOpt_map {α : Type} {f : α → State} {o : Option α} (h : ∀ a, (f a).Inv) : InvOpt (o.map f) := by
  cases o with
  | none => exact invOpt_none
  | some a => exact invOpt_some (h a)

/-- An outcome whose next state, if any, is in canonical form. -/
def Safe (o : Outcome) : Prop := ∀ t, o = .next t → t.Inv

theorem safe_next {t : State} (h : t.Inv) : Safe (.next t) := by
  intro u hu
  cases hu
  exact h

theorem safe_fault (f : Fault) : Safe (.fault f) := by
  intro u hu
  cases hu

theorem inv_ite_snd {α : Type} {c : Prop} {inst : Decidable c} {a b : α × State} (ha : a.2.Inv) (hb : b.2.Inv) :
    (if c then a else b).2.Inv := by
  split
  · exact ha
  · exact hb

theorem inv_ite_snd_snd {α β : Type} {c : Prop} {inst : Decidable c} {a b : α × β × State} (ha : a.2.2.Inv) (hb : b.2.2.Inv) :
    (if c then a else b).2.2.Inv := by
  split
  · exact ha
  · exact hb

theorem invOpt_ite {c : Prop} {inst : Decidable c} {a b : Option State} (ha : InvOpt a) (hb : InvOpt b) :
    InvOpt (if c then a else b) := by
  split
  · exact ha
  · exact hb

theorem safe_ite {c : Prop} {inst : Decidable c} {a b : Outcome} (ha : Safe a) (hb : Safe b) : Safe (if c then a else b) := by
  split
  · exact ha
  · exact hb

theorem wf_foldl {α : Type} {g : List Host.Cell → α → List Host.Cell} {l : List α} {m : List Host.Cell}
    (hg : ∀ m a, Mem.wf m = true → Mem.wf (g m a) = true) (h : Mem.wf m = true) : Mem.wf (l.foldl g m) = true :=
  List.foldlRecOn l g (motive := fun m => Mem.wf m = true) h fun m hm a _ => hg m a hm

/-- The state in which an instruction of a Mast ends. -/
def rvState : RvEnd → State
  | .next s => s
  | .go s _ => s
  | .wait s => s
  | .trapped s => s

theorem inv_ite_state {c : Prop} {inst : Decidable c} {a b : MastEnd} (ha : a.state.Inv) (hb : b.state.Inv) :
    (if c then a else b).state.Inv := by
  split
  · exact ha
  · exact hb

theorem inv_ite_rv {c : Prop} {inst : Decidable c} {a b : RvEnd} (ha : (rvState a).Inv) (hb : (rvState b).Inv) :
    (rvState (if c then a else b)).Inv := by
  split
  · exact ha
  · exact hb

theorem inv_ofAccess {e : MastEnd} (he : e.state.Inv) : (rvState (ofAccess e)).Inv := by
  cases e
  · exact he
  · exact he
  · exact he

/-! ## Canonical memory: Cores, lane frames, threads -/

theorem inv_setCore {s c x} (hs : s.Inv) : (setCore s c x).Inv := by
  unfold setCore
  exact inv_upd hs

theorem inv_modCore {s c f} (hs : s.Inv) : (modCore s c f).Inv := by
  unfold modCore
  exact inv_setCore hs

theorem inv_setLF {s c l x} (hs : s.Inv) : (setLF s c l x).Inv := by
  unfold setLF
  exact inv_modCore hs

theorem inv_modLF {s c l f} (hs : s.Inv) : (modLF s c l f).Inv := by
  unfold modLF
  exact inv_modCore hs

/-! ## Canonical memory: Workgroups, launches, the running context -/

theorem inv_modWG {s w f} (hs : s.Inv) : (modWG s w f).Inv := by
  unfold modWG
  exact inv_upd hs

theorem inv_modLaunch {s i f} (hs : s.Inv) : (modLaunch s i f).Inv := by
  unfold modLaunch
  exact inv_upd hs

/-! ## Canonical memory: the event recorder (R345 to R354) -/

theorem inv_modRcd {s c f} (hs : s.Inv) : (modRcd s c f).Inv := by
  unfold modRcd
  exact inv_modCore hs

theorem inv_record {s c type thr pc data} (hs : s.Inv) : (record s c type thr pc data).Inv := by
  unfold record
  exact inv_modRcd hs

theorem inv_recordAccess {s c type thr pc addr place grain} (hs : s.Inv) : (recordAccess s c type thr pc addr place grain).Inv := by
  unfold recordAccess
  extract_lets r period s1
  have hs1 : s1.Inv := inv_modRcd hs
  exact inv_ite (inv_modRcd hs) (inv_record hs1)

theorem inv_recordPark {s c lf unpark lanes pc cause} (hs : s.Inv) : (recordPark s c lf unpark lanes pc cause).Inv := by
  unfold recordPark
  exact inv_ite hs (inv_record hs)

/-! ## Canonical memory: the issuing bundle -/

theorem inv_hold {s} (hs : s.Inv) : (hold s).Inv := by
  unfold hold
  exact inv_upd hs

/-! ## Canonical memory: Taking a stop: the Z9's exception entry (R357 to R363) -/

theorem inv_raise {s e} (hs : s.Inv) : (raise s e).Inv := by
  unfold raise
  extract_lets s1 s2
  have hs1 : s1.Inv := inv_upd hs
  have hs2 : s2.Inv := inv_modCore (inv_record hs1)
  split
  · exact hs2
  · extract_lets s3
    have hs3 : s3.Inv := inv_modLF hs2
    exact inv_modCore hs3

theorem inv_trap {s u kind detail} (hs : s.Inv) : (trap s u kind detail).Inv := by
  unfold trap
  exact inv_raise hs

theorem inv_unstop {s} (hs : s.Inv) : (unstop s).Inv := by
  unfold unstop
  extract_lets wake cores
  exact inv_upd hs

/-! ## Canonical memory: Results (R127, R163, R164) -/

theorem inv_fresh {s} (hs : s.Inv) : (fresh s).Inv := by
  unfold fresh
  exact inv_upd hs

/-! ## Canonical memory: Frames (R30) -/

theorem inv_modFrame {s k f} (hs : s.Inv) : (modFrame s k f).Inv := by
  unfold modFrame
  exact inv_upd hs

theorem inv_remap {s k g} (hs : s.Inv) : (remap s k g).Inv := by
  unfold remap
  exact inv_modFrame hs

/-! ## Canonical memory: Backing storage, keys and the home of an HBM byte (R37, R58, R59) -/

theorem inv_modMarker {s page f} (hs : s.Inv) : (modMarker s page f).Inv := by
  unfold modMarker
  exact inv_upd hs

theorem inv_sealUnit {s key unit} (hs : s.Inv) : (sealUnit s key unit).Inv := by
  unfold sealUnit
  split
  · exact inv_upd hs
  · split
    · exact hs
    · exact Mem.wf_write _ _ hs

theorem inv_storeUnder {s key base d} (hs : s.Inv) : (storeUnder s key base d).Inv := by
  unfold storeUnder
  extract_lets units s1
  have hs1 : s1.Inv := inv_ite (inv_foldl (fun _ _ ht => inv_sealUnit ht) hs) hs
  split
  · exact hs
  · exact Mem.wf_patch _ _ hs1

/-! ## Canonical memory: Pseudo-channels (R66) -/

theorem inv_moveUnits {s page units} (hs : s.Inv) : (moveUnits s page units).Inv := by
  unfold moveUnits
  exact inv_upd hs

/-! ## Canonical memory: Back-invalidate snoops (R326) -/

theorem inv_sendSnoops {s lines} (hs : s.Inv) : (sendSnoops s lines).Inv := by
  unfold sendSnoops
  exact inv_foldl (fun _ _ ht => inv_ite ht (inv_upd (inv_fresh ht))) hs

/-! ## Canonical memory: Die layers (R35, R36) -/

theorem inv_writeSlot {s die ctx vpn e} (hs : s.Inv) : (writeSlot s die ctx vpn e).Inv := by
  unfold writeSlot
  split
  · exact inv_upd hs
  · exact hs

theorem inv_clearSlot {s die ctx vpn key} (hs : s.Inv) : (clearSlot s die ctx vpn key).Inv := by
  unfold clearSlot
  split
  · exact inv_ite (inv_upd hs) hs
  · exact hs

theorem inv_setDirty {s key} (hs : s.Inv) : (setDirty s key).Inv := by
  unfold setDirty
  extract_lets f
  split
  · exact inv_ite (inv_upd hs) hs
  · exact hs

/-! ## Canonical memory: the global layer (R34, R378) -/

theorem inv_breakReserve {s n len} (hs : s.Inv) : (breakReserve s n len).Inv := by
  unfold breakReserve
  exact inv_upd hs

theorem inv_laneBlock {s key block d charge o dirty} (hs : s.Inv) : (laneBlock s key block d charge o dirty).Inv := by
  unfold laneBlock
  extract_lets src
  have hsrc : src.Inv := inv_fresh hs
  exact inv_upd hsrc

theorem inv_laneBlocks {s key n d charge o dirty} (hs : s.Inv) : (laneBlocks s key n d charge o dirty).Inv := by
  unfold laneBlocks
  exact inv_foldl (fun _ _ ht => inv_laneBlock ht) hs

theorem inv_hwWrite {s key a l} (hs : s.Inv) : (hwWrite s key a l).Inv := by
  unfold hwWrite
  extract_lets n
  exact inv_ite (inv_laneBlocks hs) (inv_breakReserve (inv_setDirty (inv_storeUnder hs)))

theorem inv_writeEntry {s ctx at_ e} (hs : s.Inv) : (writeEntry s ctx at_ e).Inv := by
  unfold writeEntry
  exact inv_hwWrite hs

theorem inv_modEntry {s ctx vpn f} (hs : s.Inv) : (modEntry s ctx vpn f).Inv := by
  unfold modEntry
  split
  · exact inv_ite hs (inv_writeEntry hs)
  · exact hs

/-! ## Canonical memory: the translation store (R40, R41) and the directory (R46) -/

theorem inv_forget {s c ctx vpn} (hs : s.Inv) : (forget s c ctx vpn).Inv := by
  unfold forget
  exact inv_modCore hs

theorem inv_install {s c ctx vpn e} (hs : s.Inv) : (install s c ctx vpn e).Inv := by
  unfold install
  exact inv_modCore (inv_forget hs)

theorem inv_noteHolder {s c key} (hs : s.Inv) : (noteHolder s c key).Inv := by
  unfold noteHolder
  extract_lets b
  exact inv_modFrame hs

theorem inv_mendBucket {s die ctx vpn} (hs : s.Inv) : (mendBucket s die ctx vpn).Inv := by
  unfold mendBucket
  extract_lets b
  exact inv_ite (inv_upd hs) hs

theorem inv_setEntryB {s ctx vpn b} (hs : s.Inv) : (setEntryB s ctx vpn b).Inv := by
  unfold setEntryB
  exact inv_modEntry hs

theorem inv_yieldDemotion {s ctx vpn} (hs : s.Inv) : (yieldDemotion s ctx vpn).Inv := by
  unfold yieldDemotion
  extract_lets down s1
  have hs1 : s1.Inv := inv_upd hs
  split
  · exact inv_ite (inv_setEntryB (inv_modMarker (inv_foldl (fun _ _ ht => inv_modFrame ht) hs1))) hs
  · exact hs

theorem inv_fetchTrans {s c ctx vpn} (hs : s.Inv) : (fetchTrans s c ctx vpn).2.Inv := by
  unfold fetchTrans
  split
  · exact hs
  · extract_lets t t1
    have ht : t.Inv := inv_mendBucket hs
    have ht1 : t1.Inv := inv_foldl (fun _ _ ht => inv_moveUnits ht) ht
    split
    · exact inv_noteHolder (inv_install ht)
    · split
      · exact inv_ite (inv_yieldDemotion ht1) (inv_install ht1)
      · exact ht1
      · exact ht1

theorem inv_refFrame {s k} (hs : s.Inv) : (refFrame s k).Inv := by
  unfold refFrame
  exact inv_modFrame hs

/-! ## Canonical memory: Entries of the undo log, and deliveries (R368, R163) -/

theorem inv_undoLog {s c lf kind lane which pos pc old addr} (hs : s.Inv) :
    (undoLog s c lf kind lane which pos pc old addr).Inv := by
  unfold undoLog
  refine inv_ite ?_ hs
  split
  · exact hs
  · extract_lets at_ entry
    exact inv_modLF (inv_hwWrite hs)

theorem inv_undoShifts {s u k} (hs : s.Inv) : (undoShifts s u k).Inv := by
  unfold undoShifts
  exact inv_ite (inv_foldl (fun _ _ ht => inv_foldl (fun _ _ ht1 => inv_undoLog ht1) ht) hs) hs

theorem inv_undoRegs {s c lf lane op t k} (hs : s.Inv) : (undoRegs s c lf lane op t k).Inv := by
  unfold undoRegs
  refine inv_ite ?_ hs
  refine inv_foldl ?_ ?_
  · intro t a ht
    split
    · exact ht
    · exact inv_undoLog ht
  · exact hs

theorem inv_deliverTo {s c lf op vals} (hs : s.Inv) : (deliverTo s c lf op vals).Inv := by
  unfold deliverTo
  refine inv_foldl ?_ ?_
  · intro t a ht
    split
    · exact ht
    · extract_lets s1
      have hs1 : s1.Inv := inv_undoRegs ht
      exact inv_modLF hs1
  · exact hs

/-! ## Canonical memory: Waking threads (R13, R15) -/

theorem inv_wakeLanes {s c l m cause} (hs : s.Inv) : (wakeLanes s c l m cause).Inv := by
  unfold wakeLanes
  split
  · exact hs
  · exact inv_ite hs (inv_recordPark (inv_setLF hs))

theorem inv_wakeWhere {s ctx p cause} (hs : s.Inv) : (wakeWhere s ctx p cause).Inv := by
  unfold wakeWhere
  exact inv_ite (inv_foldl (fun _ _ ht => inv_foldl (fun _ _ ht1 => inv_wakeLanes ht1) ht) hs) (inv_upd hs)

/-! ## Canonical memory: Poison and lost blocks (R393, R397) -/

theorem inv_clearMarks {s base offs} (hs : s.Inv) : (clearMarks s base offs).Inv := by
  unfold clearMarks
  extract_lets has
  exact inv_upd hs

/-! ## Canonical memory: Monitors (R216, R217, R220) -/

theorem inv_fireMonitor {s m} (hs : s.Inv) : (fireMonitor s m).Inv := by
  unfold fireMonitor
  refine inv_ite (inv_upd hs) ?_
  extract_lets s1
  have hs1 : s1.Inv := inv_upd hs
  split
  · exact hs1
  · exact inv_wakeLanes hs1

theorem inv_fireOn {s n len} (hs : s.Inv) : (fireOn s n len).Inv := by
  unfold fireOn
  refine inv_foldl ?_ ?_
  · intro t a ht
    refine inv_ite ?_ ht
    split
    · exact ht
    · exact inv_ite (inv_fireMonitor ht) ht
  · exact hs

/-! ## Canonical memory: Launch dependences (R303) -/

theorem inv_checkReady {s} (hs : s.Inv) : (checkReady s).Inv := by
  unfold checkReady
  refine inv_foldl ?_ ?_
  · intro t a ht
    refine inv_ite ?_ ht
    extract_lets r va
    split
    · exact inv_ite (inv_raise (inv_modLaunch ht)) ht
    · exact inv_ite (inv_modLaunch ht) ht
  · exact hs

/-! ## Canonical memory: a write applied at its home -/

theorem inv_afterWrite {s n len} (hs : s.Inv) : (afterWrite s n len).Inv := by
  unfold afterWrite
  exact inv_checkReady (inv_fireOn (inv_breakReserve hs))

theorem inv_applyWrite {s key base d dirty} (hs : s.Inv) : (applyWrite s key base d dirty).Inv := by
  unfold applyWrite
  refine inv_ite hs ?_
  extract_lets s1 s2 s3 lo hi
  have hs1 : s1.Inv := inv_clearMarks hs
  have hs2 : s2.Inv := inv_storeUnder hs1
  have hs3 : s3.Inv := by
    unfold s3
    refine inv_ite (inv_setDirty hs2) ?_
    split
    · exact inv_modEntry hs2
    · exact hs2
  exact inv_afterWrite hs3

theorem inv_laneWrite {s n key d charge o dirty} (hs : s.Inv) : (laneWrite s n key d charge o dirty).Inv := by
  unfold laneWrite
  exact inv_ite (inv_laneBlocks hs) (inv_applyWrite hs)

theorem inv_undoWords {s c lf lane pc key base addr d} (hs : s.Inv) : (undoWords s c lf lane pc key base addr d).Inv := by
  unfold undoWords
  exact inv_ite (inv_foldl (fun _ _ ht => inv_ite ht (inv_undoLog ht)) hs) hs

/-! ## Canonical memory: Pools and victims (R52 to R54) -/

theorem inv_sweepFrom {pool ok} {fuel : Nat} : ∀ {h s}, s.Inv → (sweepFrom pool ok fuel h s).2.2.Inv := by
  induction fuel with
  | zero =>
    intro h s hs
    exact hs
  | succ n ih =>
    intro h s hs
    unfold sweepFrom
    extract_lets k h'
    exact inv_ite_snd_snd (ih hs) (inv_ite_snd_snd hs (inv_ite_snd_snd (ih (inv_modFrame hs)) hs))

theorem inv_sweep {s pool hand ok} (hs : s.Inv) : (sweep s pool hand ok).2.2.Inv := by
  unfold sweep
  refine inv_ite_snd_snd hs ?_
  split <;> exact inv_snd_snd ‹_› (inv_sweepFrom hs)

theorem inv_leaveLists {s c fr} (hs : s.Inv) : (leaveLists s c fr).Inv := by
  unfold leaveLists
  extract_lets s1
  have hs1 : s1.Inv := inv_upd hs
  exact inv_modCore hs1

theorem inv_takeCommon {s c who} (hs : s.Inv) : (takeCommon s c who).2.Inv := by
  unfold takeCommon
  extract_lets pool ok
  split
  · exact hs
  · split
    · exact inv_modCore (inv_snd_snd ‹_› (inv_sweep hs))

theorem inv_takeNear {s c who pinList} (hs : s.Inv) : (takeNear s c who pinList).2.Inv := by
  unfold takeNear
  refine inv_ite_snd ?_ ?_
  · extract_lets m
    refine inv_ite_snd ?_ ?_
    · split
      · exact inv_modCore (inv_leaveLists (inv_snd ‹_› (inv_takeCommon hs)))
      · exact inv_takeCommon hs
    · split
      · exact inv_modCore (inv_snd_snd ‹_› (inv_sweep hs))
  · split
    · split
      · exact inv_leaveLists (inv_snd ‹_› (inv_takeCommon hs))
      · exact inv_takeCommon hs
    · refine inv_ite_snd ?_ ?_
      · split
        · exact inv_leaveLists (inv_snd ‹_› (inv_takeCommon hs))
        · exact inv_takeCommon hs
      · refine inv_ite_snd ?_ ?_
        · split
          · exact inv_modWG (inv_leaveLists (inv_snd ‹_› (inv_takeCommon hs)))
          · exact inv_takeCommon hs
        · split
          · exact inv_modWG (inv_snd_snd ‹_› (inv_sweep hs))

theorem inv_takeSlice {s die slice} (hs : s.Inv) : (takeSlice s die slice).2.Inv := by
  unfold takeSlice
  extract_lets pool i
  split
  · exact hs
  · split
    · refine inv_of_mem ?_
      dsimp only
      refine wf_of_inv ?_
      exact inv_snd_snd ‹_› (inv_sweep hs)

theorem inv_takeFar {die} {l : List Nat} : ∀ {s}, s.Inv → (takeFar s die l).2.Inv := by
  induction l with
  | nil =>
    intro s hs
    delta takeFar takeFar._f
    exact hs
  | cons x r ih =>
    intro s hs
    have k : (takeSlice s die x).2.Inv := inv_takeSlice hs
    match e : takeSlice s die x with
    | (some y, t) =>
      rw [takeFar_cons_of_some e]
      exact inv_snd e k
    | (none, t) =>
      rw [takeFar_cons_of_none e]
      exact ih (inv_snd e k)

/-! ## Canonical memory: HBM writes (R60, R64) -/

theorem inv_pageWrites {s page src key charge o} (hs : s.Inv) : (pageWrites s page src key charge o).Inv := by
  unfold pageWrites
  exact inv_foldl (fun _ _ ht => inv_upd (inv_fresh ht)) hs

/-! ## Canonical memory: Starting a sequence (R50, R287, R288) -/

theorem inv_raiseSeq {s kind die core thr pc detail} (hs : s.Inv) : (raiseSeq s kind die core thr pc detail).Inv := by
  unfold raiseSeq
  exact inv_ite (inv_raise hs) (inv_raise hs)

theorem inv_markBusy {s ctx vpn page id on} (hs : s.Inv) : (markBusy s ctx vpn page id on).Inv := by
  unfold markBusy
  extract_lets s1
  have hs1 : s1.Inv := inv_modMarker hs
  refine inv_foldl ?_ ?_
  · intro t a ht
    split
    · exact inv_upd ht
    · exact ht
  · exact hs1

theorem inv_setBusyFrame {s key b} (hs : s.Inv) : (setBusyFrame s key b).Inv := by
  unfold setBusyFrame
  exact inv_modFrame hs

theorem inv_makeWay {s key} (hs : s.Inv) : (makeWay s key).2.Inv := by
  unfold makeWay
  extract_lets p
  refine inv_ite_snd hs ?_
  refine inv_ite_snd ?_ hs
  split
  · extract_lets out
    exact inv_setBusyFrame (inv_snd ‹_› (inv_takeFar hs))
  · exact inv_snd ‹_› (inv_takeFar hs)

theorem inv_markPages {s q on} (hs : s.Inv) : (markPages s q on).Inv := by
  unfold markPages
  extract_lets s1
  have hs1 : s1.Inv := by
    unfold s1
    exact inv_ite hs (inv_markBusy hs)
  exact inv_foldl (fun _ _ ht => inv_markBusy ht) hs1

theorem inv_startWrites {s q} (hs : s.Inv) : (startWrites s q).1.Inv := by
  unfold startWrites
  split
  · exact hs
  · extract_lets away s1
    have hs1 : s1.Inv := by
      unfold s1
      exact inv_ite (inv_pageWrites hs) hs
    split
    · extract_lets s2
      have hs2 : s2.Inv := by
        unfold s2
        exact inv_ite (inv_pageWrites hs1) hs1
      exact hs2
    · exact hs1

theorem inv_keyFault {s p die core thr pc} (hs : s.Inv) : (keyFault s p die core thr pc).Inv := by
  unfold keyFault
  exact inv_ite (inv_raiseSeq hs) hs

theorem inv_enterSeq {s q} (hs : s.Inv) : (enterSeq s q).Inv := by
  unfold enterSeq
  extract_lets s1 s2
  have hs1 : s1.Inv := inv_setBusyFrame hs
  have hs2 : s2.Inv := inv_markPages hs1
  split
  · refine inv_of_mem ?_
    dsimp only
    refine wf_of_inv ?_
    exact inv_fst ‹_› (inv_startWrites hs2)

theorem inv_startInto {s c ctx vpn page e dst src who thr pc} (hs : s.Inv) :
    (startInto s c ctx vpn page e dst src who thr pc).Inv := by
  unfold startInto
  extract_lets s0
  have hs0 : s0.Inv := by
    unfold s0
    refine inv_setBusyFrame ?_
    split
    · exact inv_setBusyFrame hs
    · exact hs
  split
  · split
    · exact inv_keyFault hs
    · exact inv_enterSeq (inv_fresh (inv_snd ‹_› (inv_makeWay hs0)))

theorem inv_installRedirect {s c ctx vpn e k} (hs : s.Inv) : (installRedirect s c ctx vpn e k).2.Inv := by
  unfold installRedirect
  extract_lets d e1 e2
  exact inv_noteHolder (inv_install (inv_writeSlot hs))

theorem inv_resolve {s c ctx vpn e} (hs : s.Inv) : (resolve s c ctx vpn e).2.Inv := by
  unfold resolve
  refine inv_ite_snd ?_ hs
  split
  · exact inv_installRedirect hs
  · exact hs

theorem inv_askPlace {s c ctx vpn e who thr pc} (hs : s.Inv) : (askPlace s c ctx vpn e who thr pc).Inv := by
  unfold askPlace
  exact inv_ite hs (inv_upd hs)

theorem inv_beginFill {s c ctx vpn e who thr pc} (hs : s.Inv) : (beginFill s c ctx vpn e who thr pc).Inv := by
  unfold beginFill
  refine inv_ite ?_ ?_
  · split
    · exact inv_startInto (inv_snd ‹_› (inv_takeFar hs))
    · exact inv_snd ‹_› (inv_takeFar hs)
  · split
    · exact inv_startInto (inv_snd ‹_› (inv_takeNear hs))
    · exact inv_snd ‹_› (inv_takeNear hs)

theorem inv_startFill {s c ctx vpn e who thr pc} (hs : s.Inv) : (startFill s c ctx vpn e who thr pc).Inv := by
  unfold startFill
  extract_lets page
  exact inv_ite hs (inv_ite (inv_ite hs (inv_askPlace hs)) (inv_ite hs (inv_beginFill hs)))

theorem inv_startPromotion {s c ctx vpn e who thr pc} (hs : s.Inv) : (startPromotion s c ctx vpn e who thr pc).Inv := by
  unfold startPromotion
  extract_lets k page
  refine inv_ite hs ?_
  split
  · exact inv_startInto (inv_snd ‹_› (inv_takeNear hs))
  · exact inv_snd ‹_› (inv_takeNear hs)

theorem inv_takeFill {s r} (hs : s.Inv) : (takeFill s r).Inv := by
  unfold takeFill
  extract_lets t who
  have ht : t.Inv := inv_upd hs
  refine inv_ite ht ?_
  refine inv_ite (inv_startPromotion ht) ?_
  split
  · refine inv_ite ?_ ht
    split
    · exact inv_ite (inv_startFill (inv_snd ‹_› (inv_resolve ht))) (inv_snd ‹_› (inv_resolve ht))
  · exact ht

theorem inv_startEviction {s key charge} (hs : s.Inv) : (startEviction s key charge).Inv := by
  unfold startEviction
  refine inv_ite hs ?_
  extract_lets p
  split
  · split
    · exact inv_keyFault hs
    · exact inv_enterSeq (inv_fresh (inv_snd ‹_› (inv_ite_snd (inv_makeWay hs) hs)))

/-! ## Canonical memory: Remapping (R44, R288) and completing (R48 steps 5 and 6) -/

theorem inv_copyFrame {s src dst} (hs : s.Inv) : (copyFrame s src dst).Inv := by
  unfold copyFrame
  extract_lets units
  exact Mem.wf_copy _ _ _ hs

theorem inv_copyIn {s key page dst left} (hs : s.Inv) : (copyIn s key page dst left).Inv := by
  unfold copyIn
  extract_lets units
  refine inv_of_mem ?_
  dsimp only
  exact Mem.wf_write _ _ hs

theorem inv_recordRemap {s c thr pc key what} (hs : s.Inv) : (recordRemap s c thr pc key what).Inv := by
  unfold recordRemap
  extract_lets f
  exact inv_record hs

theorem inv_seatPage {s key ctx vpn backing pin} (hs : s.Inv) : (seatPage s key ctx vpn backing pin).Inv := by
  unfold seatPage
  exact inv_remap hs

theorem inv_releaseFrame {s key} (hs : s.Inv) : (releaseFrame s key).Inv := by
  unfold releaseFrame
  exact inv_remap hs

theorem inv_readSome {s q} (hs : s.Inv) : (readSome s q).Inv := by
  unfold readSome
  extract_lets n src
  have hsrc : src.Inv := inv_moveUnits hs
  exact inv_ite (inv_upd hsrc) hs

theorem inv_remapSeq {s q} (hs : s.Inv) : (remapSeq s q).Inv := by
  unfold remapSeq
  extract_lets inv s1 s2
  have hs1 : s1.Inv := by
    unfold s1
    split
    · exact inv_recordRemap (inv_seatPage (inv_copyFrame hs))
    · exact hs
  have hs2 : s2.Inv := by
    unfold s2
    split
    · exact inv_recordRemap (inv_releaseFrame hs1)
    · exact inv_recordRemap (inv_seatPage (inv_copyIn hs1))
    · refine inv_recordRemap ?_
      refine inv_seatPage ?_
      split
      · exact inv_copyFrame hs1
      · exact hs1
  exact inv_upd hs2

theorem inv_moveMarker {s page w die dest} (hs : s.Inv) : (moveMarker s page w die dest).Inv := by
  unfold moveMarker
  exact inv_modMarker hs

theorem inv_sendInvals {s ctx vpn cores forReq from_} (hs : s.Inv) : (sendInvals s ctx vpn cores forReq from_).Inv := by
  unfold sendInvals
  exact inv_foldl (fun _ _ ht => inv_upd (inv_fresh ht)) hs

theorem inv_sendOwed {s o from_} (hs : s.Inv) : (sendOwed s o from_).Inv := by
  unfold sendOwed
  extract_lets s1
  have hs1 : s1.Inv := inv_foldl (fun _ _ ht => inv_clearSlot ht) hs
  exact inv_sendInvals hs1

theorem inv_putSlot {s die ctx vpn kept e} (hs : s.Inv) : (putSlot s die ctx vpn kept e).Inv := by
  unfold putSlot
  split
  · exact inv_upd hs
  · split
    · exact inv_upd hs
    · exact hs

theorem inv_slotsOut {s q} (hs : s.Inv) : (slotsOut s q).Inv := by
  unfold slotsOut
  extract_lets die
  split
  · exact hs
  · extract_lets t1
    have ht1 : t1.Inv := by
      unfold t1
      split
      · exact inv_moveMarker (inv_clearSlot hs)
      · exact hs
    split
    · exact inv_moveMarker (inv_putSlot ht1)
    · exact inv_moveMarker (inv_clearSlot ht1)

theorem inv_slotsIn {s q} (hs : s.Inv) : (slotsIn s q).Inv := by
  unfold slotsIn
  extract_lets die d
  exact inv_ite hs (inv_moveMarker (inv_putSlot hs))

theorem inv_releaseSrc {s q} (hs : s.Inv) : (releaseSrc s q).1.Inv := by
  unfold releaseSrc
  split
  · exact inv_recordRemap (inv_releaseFrame hs)
  · exact hs

theorem inv_completeSeq {s q} (hs : s.Inv) : (completeSeq s q).Inv := by
  unfold completeSeq
  split
  · extract_lets s2 s3 s4 s5
    have hs2 : s2.Inv := inv_markPages (inv_foldl (fun _ _ ht => inv_sendOwed ht) (inv_fst ‹_› (inv_releaseSrc (inv_slotsIn
        (inv_slotsOut hs)))))
    have hs3 : s3.Inv := inv_setBusyFrame hs2
    have hs4 : s4.Inv := by
      unfold s4
      split
      · exact inv_setBusyFrame hs3
      · exact hs3
    have hs5 : s5.Inv := by
      unfold s5
      split
      · exact inv_setBusyFrame hs4
      · exact hs4
    exact inv_upd hs5

theorem inv_finishFlags {s c l m g} (hs : s.Inv) : (finishFlags s c l m g).Inv := by
  unfold finishFlags
  exact inv_modLF hs

/-! ## Canonical memory: Fetching code -/

theorem inv_fetchAt {s c ctx va e who thr pc} (hs : s.Inv) : (fetchAt s c ctx va e who thr pc).2.Inv := by
  unfold fetchAt
  extract_lets vpn k n s1 s2 n' s2'
  have hs1 : s1.Inv := inv_refFrame hs
  have hs2 : s2.Inv := by
    unfold s2
    exact inv_ite (inv_askPlace hs1) hs1
  have hs2' : s2'.Inv := inv_askPlace (inv_moveUnits hs)
  refine inv_ite_snd ?_ ?_
  · exact inv_ite_snd (inv_forget hs) (inv_ite_snd hs (inv_ite_snd hs (inv_ite_snd hs2 hs2)))
  · exact inv_ite_snd hs (inv_ite_snd hs (inv_ite_snd hs (inv_ite_snd hs2' hs2')))

theorem inv_fetchWord {s c wg va thr pc} (hs : s.Inv) : (fetchWord s c wg va thr pc).2.Inv := by
  unfold fetchWord
  extract_lets ctx vpn
  refine inv_ite_snd hs ?_
  split
  · exact inv_snd ‹_› (inv_fetchTrans hs)
  · split
    · split
      · exact inv_snd ‹_› (inv_resolve (inv_snd ‹_› (inv_fetchTrans hs)))
      · refine inv_ite_snd (inv_snd ‹_› (inv_resolve (inv_snd ‹_› (inv_fetchTrans hs)))) ?_
        exact inv_fetchAt (inv_snd ‹_› (inv_resolve (inv_snd ‹_› (inv_fetchTrans hs))))

/-! ## Canonical memory: Regroup points (R265, R266) -/

theorem inv_regroupTest {s wg} (hs : s.Inv) : (regroupTest s wg).Inv := by
  unfold regroupTest
  split
  · exact hs
  · extract_lets ts s1
    have hs1 : s1.Inv := inv_foldl (fun _ _ ht => inv_modLF ht) hs
    clear_value ts
    split
    · exact hs
    · exact inv_ite (inv_modCore hs1) hs

theorem inv_arriveAt {s c l m} (hs : s.Inv) : (arriveAt s c l m).Inv := by
  unfold arriveAt
  split
  · exact hs
  · extract_lets rg
    exact inv_regroupTest (inv_setLF hs)

/-! ## Canonical memory: Going on -/

theorem inv_stepHalt {s c l m pc} (hs : s.Inv) : (stepHalt s c l m pc).Inv := by
  unfold stepHalt
  exact inv_ite (inv_raise hs) hs

theorem inv_endClause {s u} (hs : s.Inv) : (endClause s u).Inv := by
  unfold endClause
  extract_lets s0 s1
  have hs0 : s0.Inv := inv_modCore hs
  have hs1 : s1.Inv := inv_modLF hs0
  exact inv_stepHalt (inv_upd hs1)

theorem inv_goOn {s u stay} (hs : s.Inv) : (goOn s u stay).Inv := by
  unfold goOn
  extract_lets next pc s1 pc' src s1'
  have hs1 : s1.Inv := inv_modLF hs
  have hs1' : s1'.Inv := inv_modLF hs
  exact inv_ite (inv_arriveAt (inv_endClause hs1)) (inv_ite (inv_endClause hs) (inv_upd hs1'))

theorem inv_advance {s u} (hs : s.Inv) : (advance s u).Inv := by
  unfold advance
  exact inv_goOn hs

theorem inv_parkLanes {s u m w} (hs : s.Inv) : (parkLanes s u m w).Inv := by
  unfold parkLanes
  extract_lets s1
  have hs1 : s1.Inv := inv_modLF hs
  exact inv_recordPark hs1

theorem inv_parkAll {s u w} (hs : s.Inv) : (parkAll s u w).Inv := by
  unfold parkAll
  exact inv_endClause (inv_parkLanes hs)

theorem inv_jump {s u tgt} (hs : s.Inv) : (jump s u tgt).Inv := by
  unfold jump
  extract_lets s1
  have hs1 : s1.Inv := inv_modLF hs
  exact inv_arriveAt (inv_endClause hs1)

/-! ## Canonical memory: Fixed-latency results -/

theorem inv_sendVals {s u lat slots d vals} (hs : s.Inv) : (sendVals s u lat slots d vals).Inv := by
  unfold sendVals
  extract_lets op s1 s2
  have hs1 : s1.Inv := inv_undoShifts (inv_fresh hs)
  have hs2 : s2.Inv := inv_modLF hs1
  exact inv_modCore hs2

theorem inv_issueVals {s u lat slots d vals} (hs : s.Inv) : (issueVals s u lat slots d vals).Inv := by
  unfold issueVals
  exact inv_advance (inv_sendVals hs)

theorem inv_aluWord {s lat slots d g} (hs : s.Inv) : (aluWord s lat slots d g).Inv := by
  unfold aluWord
  split
  · exact inv_hold hs
  · refine inv_ite (inv_hold hs) ?_
    split
    · exact inv_hold hs
    · exact inv_issueVals hs

theorem safe_alu1 {s lat d a g} (hs : s.Inv) : Safe (alu1 s lat d a g) := by
  unfold alu1
  exact safe_next (inv_aluWord hs)

theorem safe_alu2 {s lat d b a g} (hs : s.Inv) : Safe (alu2 s lat d b a g) := by
  unfold alu2
  exact safe_next (inv_aluWord hs)

theorem safe_aluI {s lat d i a g} (hs : s.Inv) : Safe (aluI s lat d i a g) := by
  unfold aluI
  exact safe_next (inv_aluWord hs)

theorem safe_alu3 {s lat d c b a g} (hs : s.Inv) : Safe (alu3 s lat d c b a g) := by
  unfold alu3
  exact safe_next (inv_aluWord hs)

theorem safe_alu64 {s lat d b a g} (hs : s.Inv) : Safe (alu64 s lat d b a g) := by
  unfold alu64
  exact safe_next (inv_aluWord hs)

theorem safe_aluShift64 {s lat d b a g} (hs : s.Inv) : Safe (aluShift64 s lat d b a g) := by
  unfold aluShift64
  exact safe_next (inv_aluWord hs)

theorem safe_aluWide {s lat d b a g} (hs : s.Inv) : Safe (aluWide s lat d b a g) := by
  unfold aluWide
  exact safe_next (inv_aluWord hs)

theorem safe_aluAll {s lat d g} (hs : s.Inv) : Safe (aluAll s lat d g) := by
  unfold aluAll
  exact safe_next (inv_aluWord hs)

/-! ## Canonical memory: Operations and requests of a core -/

theorem inv_modOp {s c i f} (hs : s.Inv) : (modOp s c i f).Inv := by
  unfold modOp
  exact inv_modCore hs

theorem inv_dropOp {s c i} (hs : s.Inv) : (dropOp s c i).Inv := by
  unfold dropOp
  exact inv_modCore hs

theorem inv_modReq {s c i f} (hs : s.Inv) : (modReq s c i f).Inv := by
  unfold modReq
  exact inv_modCore hs

theorem inv_dropReq {s c i} (hs : s.Inv) : (dropReq s c i).Inv := by
  unfold dropReq
  exact inv_modCore hs

theorem inv_addReq {s c r} (hs : s.Inv) : (addReq s c r).Inv := by
  unfold addReq
  exact inv_modCore (inv_fresh hs)

theorem inv_emptyReadAhead {s c} (hs : s.Inv) : (emptyReadAhead s c).Inv := by
  unfold emptyReadAhead
  exact inv_modCore hs

/-! ## Canonical memory: Meeting the capacity tier (R68, R385, R386) -/

theorem inv_recordMigrate {s c thr pc vpn what} (hs : s.Inv) : (recordMigrate s c thr pc vpn what).Inv := by
  unfold recordMigrate
  exact inv_record hs

theorem inv_capState {s c ctx vpn} (hs : s.Inv) : (capState s c ctx vpn).2.Inv := by
  unfold capState
  split
  · exact inv_ite_snd (inv_forget hs) (inv_ite_snd hs (inv_ite_snd hs hs))
  · exact inv_forget hs
  · exact hs

theorem inv_beginMigration {s c ctx vpn thr pc} (hs : s.Inv) : (beginMigration s c ctx vpn thr pc).Inv := by
  unfold beginMigration
  split
  · exact inv_ite hs (inv_recordMigrate (inv_upd (inv_setEntryB (inv_fresh hs))))
  · exact hs

theorem inv_noteStrong {s ctx vpn} (hs : s.Inv) : (noteStrong s ctx vpn).Inv := by
  unfold noteStrong
  exact inv_upd hs

theorem inv_meetCap {s c ctx vpn thr pc strong} (hs : s.Inv) : (meetCap s c ctx vpn thr pc strong).2.Inv := by
  unfold meetCap
  split
  · extract_lets s2
    have hs2 : s2.Inv := by
      unfold s2
      exact inv_ite (inv_beginMigration (inv_snd ‹_› (inv_capState hs))) (inv_snd ‹_› (inv_capState hs))
    exact inv_ite (inv_noteStrong hs2) hs2
  · exact inv_capState hs

/-! ## Canonical memory: the address phase (R201 to R203, R208, R211) -/

theorem inv_translateAll {c ctx} {l : List Nat} : ∀ {s}, s.Inv → (translateAll s c ctx l).2.Inv := by
  induction l with
  | nil =>
    intro s hs
    exact hs
  | cons p r ih =>
    intro s hs
    unfold translateAll
    split
    split
    exact inv_snd ‹_› (ih (inv_snd ‹_› (inv_fetchTrans hs)))

theorem inv_checkPages {s c ctx addrs w akind write} (hs : s.Inv) : (checkPages s c ctx addrs w akind write).2.Inv := by
  unfold checkPages
  extract_lets pages
  refine inv_ite_snd hs ?_
  split
  · split
    · exact inv_snd ‹_› (inv_translateAll hs)
    · split
      · exact inv_snd ‹_› (inv_translateAll hs)
      · split <;> exact inv_snd ‹_› (inv_translateAll hs)

theorem inv_findPlaces {s u r align w akind write ea} (hs : s.Inv) : (findPlaces s u r align w akind write ea).2.Inv := by
  unfold findPlaces
  split
  · exact hs
  · split
    · exact hs
    · split
      · exact hs
      · exact inv_checkPages hs

theorem inv_parkCap {s u vpn akind rd} (hs : s.Inv) : (parkCap s u vpn akind rd).Inv := by
  unfold parkCap
  split
  · extract_lets s2
    have hs2 : s2.Inv := inv_trap (inv_snd ‹_› (inv_capState hs))
    exact inv_ite (inv_upd hs2) hs2
  · exact inv_trap (inv_snd ‹_› (inv_capState hs))
  · exact inv_hold (inv_snd ‹_› (inv_capState hs))
  · extract_lets s2
    have hs2 : s2.Inv := by
      unfold s2
      split
      · exact inv_snd ‹_› (inv_capState hs)
      · exact inv_modCore (inv_fresh (inv_snd ‹_› (inv_capState hs)))
    exact inv_parkAll hs2

/-! ## Canonical memory: Loads -/

theorem inv_promoteAll {s u ents} (hs : s.Inv) : (promoteAll s u ents).Inv := by
  unfold promoteAll
  exact inv_foldl (fun _ _ ht => inv_ite (inv_askPlace ht) ht) hs

theorem inv_issueLoad {s u f reg flag addrs ents} (hs : s.Inv) : (issueLoad s u f reg flag addrs ents).Inv := by
  unfold issueLoad
  extract_lets o k s1 s2 s3 s4 s5 s6
  have hs1 : s1.Inv := inv_undoShifts (inv_fresh hs)
  have hs2 : s2.Inv := inv_modLF hs1
  have hs3 : s3.Inv := inv_modCore hs2
  have hs4 : s4.Inv := by
    unfold s4
    exact inv_ite hs3 (inv_promoteAll hs3)
  have hs5 : s5.Inv := by
    unfold s5
    exact inv_ite (inv_emptyReadAhead hs4) hs4
  have hs6 : s6.Inv := inv_foldl (fun _ _ ht => inv_addReq ht) hs5
  exact inv_advance hs6

theorem inv_loadWord {s f reg fs ea} (hs : s.Inv) : (loadWord s f reg fs ea).Inv := by
  unfold loadWord
  split
  · exact inv_hold hs
  · refine inv_ite (inv_hold hs) ?_
    split
    · exact inv_hold (inv_snd ‹_› (inv_findPlaces hs))
    · exact inv_trap (inv_snd ‹_› (inv_findPlaces hs))
    · extract_lets hint5 addrs
      exact inv_parkCap (inv_snd ‹_› (inv_findPlaces hs))
    · exact inv_issueLoad (inv_snd ‹_› (inv_findPlaces hs))

theorem safe_loadM {s f scale r fs b x} (hs : s.Inv) : Safe (loadM s f scale r fs b x) := by
  unfold loadM
  exact safe_next (inv_loadWord hs)

theorem safe_loadAcq {s w d fs a} (hs : s.Inv) : Safe (loadAcq s w d fs a) := by
  unfold loadAcq
  exact safe_next (inv_loadWord hs)

/-! ## Canonical memory: Stores -/

theorem inv_issueStore {s u w flag rel addrs ents data} (hs : s.Inv) : (issueStore s u w flag rel addrs ents data).Inv := by
  unfold issueStore
  extract_lets parts op s1 s2 s3
  have hs1 : s1.Inv := inv_fresh hs
  have hs2 : s2.Inv := inv_modLF hs1
  have hs3 : s3.Inv := inv_foldl (fun _ _ ht => inv_addReq ht) hs2
  exact inv_ite (inv_hold hs) (inv_advance hs3)

theorem inv_storeWord {s w align r fs rel ea data} (hs : s.Inv) : (storeWord s w align r fs rel ea data).Inv := by
  unfold storeWord
  split
  · exact inv_hold hs
  · refine inv_ite (inv_hold hs) ?_
    split
    · exact inv_hold hs
    · split
      · exact inv_hold (inv_snd ‹_› (inv_findPlaces hs))
      · exact inv_trap (inv_snd ‹_› (inv_findPlaces hs))
      · exact inv_parkCap (inv_snd ‹_› (inv_findPlaces hs))
      · exact inv_issueStore (inv_snd ‹_› (inv_findPlaces hs))

theorem safe_storeM {s w align reach scale r fs b x} (hs : s.Inv) : Safe (storeM s w align reach scale r fs b x) := by
  unfold storeM
  exact safe_next (inv_storeWord hs)

theorem safe_storeRel {s w c fs b a} (hs : s.Inv) : Safe (storeRel s w c fs b a) := by
  unfold storeRel
  exact safe_next (inv_storeWord hs)

/-! ## Canonical memory: Atomics and arrival words (R212 to R214, R219) -/

theorem inv_issueAtomic {s u o size reg flag acq rel addrs ents vals} (hs : s.Inv) :
    (issueAtomic s u o size reg flag acq rel addrs ents vals).Inv := by
  unfold issueAtomic
  extract_lets op src m s1 s2 s3 s4 s5
  have hs1 : s1.Inv := inv_undoShifts (inv_fresh hs)
  have hs2 : s2.Inv := inv_modLF hs1
  have hs3 : s3.Inv := inv_modCore hs2
  have hs4 : s4.Inv := by
    unfold s4
    exact inv_ite (inv_emptyReadAhead hs3) hs3
  have hs5 : s5.Inv := inv_foldl (fun _ _ ht => inv_addReq ht) hs4
  exact inv_ite (inv_hold hs) (inv_advance hs5)

theorem inv_atomicWord {s o size r reg fs acq rel ea val} (hs : s.Inv) : (atomicWord s o size r reg fs acq rel ea val).Inv := by
  unfold atomicWord
  split
  · exact inv_hold hs
  · refine inv_ite (inv_hold hs) ?_
    split
    · exact inv_hold hs
    · split
      · exact inv_hold (inv_snd ‹_› (inv_findPlaces hs))
      · exact inv_trap (inv_snd ‹_› (inv_findPlaces hs))
      · exact inv_parkCap (inv_snd ‹_› (inv_findPlaces hs))
      · exact inv_issueAtomic (inv_snd ‹_› (inv_findPlaces hs))

theorem safe_atomic {s o q d c fs b a} (hs : s.Inv) : Safe (atomic s o q d c fs b a) := by
  unfold atomic
  exact safe_next (inv_atomicWord hs)

theorem safe_atomicCas {s q d c fs b a} (hs : s.Inv) : Safe (atomicCas s q d c fs b a) := by
  unfold atomicCas
  exact safe_next (inv_atomicWord hs)

theorem safe_arrival {s o d fs rel b a} (hs : s.Inv) : Safe (arrival s o d fs rel b a) := by
  unfold arrival
  exact safe_next (inv_atomicWord hs)

/-! ## Canonical memory: Orderings that hold a request back -/

theorem inv_sendFlushes {s c lf m launch links} (hs : s.Inv) : (sendFlushes s c lf m launch links).Inv := by
  unfold sendFlushes
  exact inv_foldl (fun _ _ ht => inv_upd (inv_fresh ht)) hs

theorem inv_flushDone {s x} (hs : s.Inv) : (flushDone s x).Inv := by
  unfold flushDone
  extract_lets s1
  have hs1 : s1.Inv := inv_upd hs
  exact inv_ite hs1 (inv_modLF hs1)

theorem inv_flushFor {s c lf m before sc} (hs : s.Inv) : (flushFor s c lf m before sc).Inv := by
  unfold flushFor
  exact inv_ite (inv_sendFlushes hs) hs

/-! ## Canonical memory: Performing a load request -/

theorem inv_takeLoad {s c r key n ahead place} (hs : s.Inv) : (takeLoad s c r key n ahead place).Inv := by
  unfold takeLoad
  extract_lets s1 s2 a
  have hs1 : s1.Inv := inv_modOp hs
  have hs2 : s2.Inv := inv_dropReq hs1
  exact inv_recordAccess hs2

theorem inv_fillAhead {s c ctx va key n} (hs : s.Inv) : (fillAhead s c ctx va key n).Inv := by
  unfold fillAhead
  exact inv_ite hs (inv_modCore (inv_ite (inv_moveUnits hs) hs))

theorem inv_neighbours {s c ctx va key n choice} (hs : s.Inv) : (neighbours s c ctx va key n choice).Inv := by
  unfold neighbours
  extract_lets s1
  have hs1 : s1.Inv := by
    unfold s1
    exact inv_ite (inv_fillAhead hs) hs
  exact inv_ite (inv_fillAhead hs1) hs1

/-! ## Canonical memory: Performing a store request -/

theorem inv_dropAhead {s c r} (hs : s.Inv) : (dropAhead s c r).Inv := by
  unfold dropAhead
  split
  · exact inv_ite hs (inv_modCore hs)
  · exact hs

theorem inv_loseShare {s c r} (hs : s.Inv) : (loseShare s c r).Inv := by
  unfold loseShare
  exact inv_modCore (inv_dropReq hs)

theorem inv_finishShare {s c r} (hs : s.Inv) : (finishShare s c r).Inv := by
  unfold finishShare
  extract_lets s1 done
  have hs1 : s1.Inv := inv_dropReq hs
  exact inv_ite hs1 (inv_finishFlags hs1)

theorem inv_applyStore {s c r key n dirty} (hs : s.Inv) : (applyStore s c r key n dirty).Inv := by
  unfold applyStore
  extract_lets s1
  have hs1 : s1.Inv := by
    unfold s1
    exact inv_ite (inv_undoWords hs) hs
  exact inv_finishShare (inv_applyWrite (inv_dropAhead hs1))

theorem inv_stopWriter {s c r kind detail id} (hs : s.Inv) : (stopWriter s c r kind detail id).Inv := by
  unfold stopWriter
  extract_lets block
  exact inv_modCore (inv_dropReq hs)

theorem inv_discard {s c r kind detail} (hs : s.Inv) : (Machine.discard s c r kind detail).Inv := by
  unfold Machine.discard
  refine inv_raise ?_
  split
  · exact inv_stopWriter hs
  · exact inv_loseShare hs

theorem inv_failLoad {s c r kind vpn} (hs : s.Inv) : (failLoad s c r kind vpn).Inv := by
  unfold failLoad
  extract_lets s1
  have hs1 : s1.Inv := inv_modOp hs
  exact inv_raise (inv_dropReq hs1)

/-! ## Canonical memory: Performing an atomic request (R212, R219) -/

theorem inv_branchIf {s i take} (hs : s.Inv) : (branchIf s i take).Inv := by
  unfold branchIf
  split
  · exact inv_hold hs
  · split
    · exact inv_hold hs
    · exact inv_jump hs

theorem safe_execBra {i s} (hs : s.Inv) : Safe (execBra i s) := by
  unfold execBra
  split
  · exact safe_next (inv_hold hs)
  · exact safe_next (inv_jump hs)

theorem safe_execBrz {i s} (hs : s.Inv) : Safe (execBrz i s) := by
  unfold execBrz
  exact safe_next (inv_branchIf hs)

theorem safe_execBrnz {i s} (hs : s.Inv) : Safe (execBrnz i s) := by
  unfold execBrnz
  exact safe_next (inv_branchIf hs)

theorem safe_execCall {i s} (hs : s.Inv) : Safe (execCall i s) := by
  unfold execCall
  split
  · exact safe_next (inv_hold hs)
  · exact safe_ite (safe_next (inv_hold hs)) (safe_next (inv_jump (inv_sendVals hs)))

theorem safe_execRet {s} (hs : s.Inv) : Safe (execRet s) := by
  unfold execRet
  split
  · exact safe_next (inv_hold hs)
  · split
    · exact safe_next (inv_hold hs)
    · split
      · exact safe_next (inv_trap hs)
      · exact safe_next (inv_jump hs)

theorem safe_execEndThread {s} (hs : s.Inv) : Safe (execEndThread s) := by
  unfold execEndThread
  split
  · exact safe_next (inv_hold hs)
  · exact safe_next (inv_regroupTest (inv_jump hs))

theorem safe_execTrap {i s} (hs : s.Inv) : Safe (execTrap i s) := by
  unfold execTrap
  split
  · exact safe_next (inv_hold hs)
  · exact safe_next (inv_trap hs)

theorem safe_execBrk {i s} (hs : s.Inv) : Safe (execBrk i s) := by
  unfold execBrk
  split
  · exact safe_next (inv_hold hs)
  · extract_lets s1
    have hs1 : s1.Inv := inv_jump hs
    exact safe_ite (safe_next (inv_raise hs1)) (safe_next hs1)

theorem safe_execSyscall {i s} (hs : s.Inv) : Safe (execSyscall i s) := by
  unfold execSyscall
  split
  · exact safe_next (inv_hold hs)
  · refine safe_ite (safe_next (inv_hold hs)) ?_
    refine safe_next ?_
    extract_lets src
    have hsrc : src.Inv := inv_modLF (inv_fresh hs)
    exact inv_upd hsrc

theorem safe_execIllegalInstruction {k w s} (hs : s.Inv) : Safe (execIllegalInstruction k w s) := by
  unfold execIllegalInstruction
  split
  · exact safe_next (inv_hold hs)
  · exact safe_next (inv_trap hs)

/-! ## Canonical memory: Which bundle forms (R14, R15, R265) -/

theorem inv_formTrap {s c l lanes kind detail pc} (hs : s.Inv) : (formTrap s c l lanes kind detail pc).Inv := by
  unfold formTrap
  exact inv_raise hs

theorem inv_formCap {s c l vpn f b} (hs : s.Inv) : (formCap s c l vpn f b).Inv := by
  unfold formCap
  extract_lets u
  split
  · exact inv_formTrap (inv_snd ‹_› (inv_capState hs))
  · exact inv_formTrap (inv_snd ‹_› (inv_capState hs))
  · exact inv_snd ‹_› (inv_capState hs)
  · exact inv_parkLanes (inv_snd ‹_› (inv_capState hs))

theorem inv_applyTurn {s c l f} (hs : s.Inv) : (applyTurn s c l f).Inv := by
  unfold applyTurn
  extract_lets f0 s0
  have hs0 : s0.Inv := inv_setLF hs
  refine inv_ite hs0 ?_
  split
  · exact hs0
  · refine inv_ite hs0 ?_
    split
    · exact inv_formTrap (inv_snd ‹_› (inv_fetchWord hs0))
    · exact inv_formCap (inv_snd ‹_› (inv_fetchWord hs0))
    · exact inv_snd ‹_› (inv_fetchWord hs0)
    · refine inv_ite ?_ (inv_formTrap (inv_snd ‹_› (inv_fetchWord hs0)))
      refine inv_ite (inv_regroupTest (inv_modLF (inv_snd ‹_› (inv_fetchWord hs0)))) ?_
      exact inv_modLF (inv_snd ‹_› (inv_fetchWord hs0))

theorem safe_execBundleTurn {c l s} (hs : s.Inv) : Safe (execBundleTurn c l s) := by
  unfold execBundleTurn
  split
  · exact safe_next hs
  · exact safe_next (inv_ite (inv_applyTurn hs) hs)

/-! ## Canonical memory: Acceptance (R306, R15, R17) -/

theorem inv_fetchClause {c wg hdr thr} {n : Nat} : ∀ {i s}, s.Inv → (fetchClause s c wg hdr thr i n).2.Inv := by
  induction n with
  | zero =>
    intro i s hs
    exact hs
  | succ n ih =>
    intro i s hs
    unfold fetchClause
    split
    split
    exact inv_snd ‹_› (ih (inv_snd ‹_› (inv_fetchWord hs)))

theorem inv_recordIssue {s c slot o l} (hs : s.Inv) : (recordIssue s c slot o l).Inv := by
  unfold recordIssue
  extract_lets h thr earlier s1 r
  have hs1 : s1.Inv := by
    unfold s1
    exact inv_ite hs (inv_modRcd hs)
  exact inv_ite (inv_modRcd hs1) (inv_record (inv_modRcd hs1))

theorem inv_applyAccept {s c slot l f o} (hs : s.Inv) : (applyAccept s c slot l f o).Inv := by
  unfold applyAccept
  extract_lets p hdr
  split
  · refine inv_ite (inv_snd ‹_› (inv_fetchClause hs)) ?_
    extract_lets s2
    have hs2 : s2.Inv := inv_recordIssue (inv_undoLog (inv_snd ‹_› (inv_fetchClause hs)))
    exact inv_modLF hs2

theorem safe_execBundleAccept {c slot s} (hs : s.Inv) : Safe (execBundleAccept c slot s) := by
  unfold execBundleAccept
  refine safe_ite (safe_next hs) ?_
  split
  · exact safe_next hs
  · split
    · exact safe_next hs
    · exact safe_next (inv_ite (inv_applyAccept hs) hs)

/-! ## Canonical memory: Results (R163) -/

theorem safe_execResultDeliver {c op s} (hs : s.Inv) : Safe (execResultDeliver c op s) := by
  unfold execResultDeliver
  split
  · exact safe_next hs
  · exact safe_ite (safe_next (inv_deliverTo (inv_modCore hs))) (safe_next hs)

/-! ## Canonical memory: the recorder's own records (R348, R350, R352) -/

theorem safe_execTimebaseWrap {s} (hs : s.Inv) : Safe (execTimebaseWrap s) := by
  unfold execTimebaseWrap
  exact safe_ite (safe_next (inv_foldl (fun _ _ ht => inv_record ht) (inv_upd hs))) (safe_next hs)

theorem safe_execLostRecord {c s} (hs : s.Inv) : Safe (execLostRecord c s) := by
  unfold execLostRecord
  extract_lets r
  exact safe_ite (safe_next (inv_modRcd (inv_record hs))) (safe_next hs)

theorem safe_execStallSample {c s} (hs : s.Inv) : Safe (execStallSample c s) := by
  unfold execStallSample
  extract_lets r s1
  have hs1 : s1.Inv := inv_modRcd hs
  refine safe_ite (safe_next hs) ?_
  split
  · exact safe_next hs1
  · exact safe_next (inv_modRcd (inv_record hs1))

/-! ## Canonical memory: Placing -/

theorem inv_placeWG {s x cluster rank c fs} (hs : s.Inv) : (placeWG s x cluster rank c fs).Inv := by
  unfold placeWG
  extract_lets id sc holds w src s1 s2
  have hsrc : src.Inv := inv_fresh hs
  have hs1 : s1.Inv := inv_upd hsrc
  have hs2 : s2.Inv := inv_foldl (fun _ _ ht => inv_leaveLists ht) hs1
  exact inv_foldl (fun _ _ ht => inv_setLF ht) hs2

theorem inv_placeCluster {s x cluster rig} (hs : s.Inv) : (placeCluster s x cluster rig).Inv := by
  unfold placeCluster
  extract_lets fs
  exact inv_foldl (fun _ _ ht => inv_placeWG ht) hs

theorem inv_seatCluster {s x cluster rig} (hs : s.Inv) : (seatCluster s x cluster rig).Inv := by
  unfold seatCluster
  extract_lets tight
  exact inv_ite (inv_placeCluster hs) (inv_foldl (fun _ _ ht => inv_modCore ht) hs)

theorem safe_execClusterPlace {s} (hs : s.Inv) : Safe (execClusterPlace s) := by
  unfold execClusterPlace
  split
  · exact safe_next hs
  · refine safe_ite (safe_next hs) ?_
    split
    · exact safe_next hs
    · extract_lets s1 s2
      have hs1 : s1.Inv := inv_modLaunch hs
      have hs2 : s2.Inv := inv_upd hs1
      exact safe_next (inv_seatCluster hs2)

/-! ## Canonical memory: Moving lane frames (R29) -/

theorem inv_renameLF {s c r} (hs : s.Inv) : (renameLF s c r).Inv := by
  unfold renameLF
  extract_lets s1
  have hs1 : s1.Inv := inv_modCore hs
  exact inv_upd hs1

theorem inv_swapLF {s c a b} (hs : s.Inv) : (swapLF s c a b).Inv := by
  unfold swapLF
  extract_lets r fa fb set s1 s2
  have hs1 : s1.Inv := inv_modCore (inv_renameLF hs)
  have hs2 : s2.Inv := inv_record hs1
  exact inv_ite (inv_record hs2) hs2

theorem inv_endPass {s c p} (hs : s.Inv) : (endPass s c p).Inv := by
  unfold endPass
  extract_lets s1
  have hs1 : s1.Inv := inv_modCore hs
  refine inv_ite hs1 ?_
  split
  · exact hs1
  · exact inv_ite hs (inv_seatCluster hs1)

theorem inv_stopTurns {s c l} (hs : s.Inv) : (stopTurns s c l).Inv := by
  unfold stopTurns
  exact inv_modLF hs

theorem inv_nextMoves {s c p rest} (hs : s.Inv) : (nextMoves s c p rest).Inv := by
  unfold nextMoves
  exact inv_modCore hs

theorem inv_beginMove {s c a b p f} (hs : s.Inv) : (beginMove s c a b p f).Inv := by
  unfold beginMove
  extract_lets s1 g
  have hs1 : s1.Inv := inv_stopTurns (inv_stopTurns hs)
  exact inv_ite (inv_modCore hs1) hs1

theorem safe_execLaneFrameMove {c s} (hs : s.Inv) : Safe (execLaneFrameMove c s) := by
  unfold execLaneFrameMove
  split
  · exact safe_next hs
  · refine safe_ite (safe_next hs) ?_
    split
    · exact safe_next (inv_ite hs (inv_endPass hs))
    · split
      · exact safe_next (inv_nextMoves (inv_modLF hs))
      · exact safe_ite (safe_next (inv_nextMoves (inv_swapLF hs))) (safe_next (inv_ite hs (inv_beginMove hs)))

/-! ## Canonical memory: Scratchpads and the start of a workgroup (R24, R31) -/

theorem safe_execScratchFrameEmpty {c fr s} (hs : s.Inv) : Safe (execScratchFrameEmpty c fr s) := by
  unfold execScratchFrameEmpty
  split
  · exact safe_next hs
  · extract_lets k
    refine safe_ite (safe_next hs) ?_
    refine safe_ite (safe_next (inv_ite hs (inv_startEviction (inv_leaveLists hs)))) ?_
    exact safe_next (inv_modWG (inv_leaveLists hs))

theorem inv_clearScratch {s w} (hs : s.Inv) : (clearScratch s w).Inv := by
  unfold clearScratch
  exact inv_foldl (fun _ _ ht => Mem.wf_clear _ _ ht) hs

theorem safe_execWorkgroupStart {id s} (hs : s.Inv) : Safe (execWorkgroupStart id s) := by
  unfold execWorkgroupStart
  split
  · refine safe_ite (safe_next hs) ?_
    extract_lets s1 s2
    have hs1 : s1.Inv := inv_modWG (inv_clearScratch (inv_emptyReadAhead hs))
    have hs2 : s2.Inv := inv_foldl (fun _ _ ht => inv_modLF ht) hs1
    exact safe_next (inv_foldl (fun _ _ ht => inv_arriveAt ht) hs2)
  · exact safe_next hs

/-! ## Canonical memory: the end of a workgroup and the add to DONE (R25) -/

theorem inv_freeTile {s c t} (hs : s.Inv) : (freeTile s c t).Inv := by
  unfold freeTile
  extract_lets a
  exact Mem.wf_clear _ _ hs

theorem inv_resetTable {s c t} (hs : s.Inv) : (resetTable s c t).Inv := by
  unfold resetTable
  extract_lets a
  exact inv_modCore (Mem.wf_clear _ _ hs)

theorem inv_releaseOwned {s c wg} (hs : s.Inv) : (releaseOwned s c wg).Inv := by
  unfold releaseOwned
  extract_lets s1 s2
  have hs1 : s1.Inv := inv_foldl (fun _ _ ht => inv_freeTile ht) hs
  have hs2 : s2.Inv := inv_foldl (fun _ _ ht => inv_resetTable ht) hs1
  exact inv_modCore (inv_upd hs2)

theorem inv_raiseParked {s e lanes} (hs : s.Inv) : (raiseParked s e lanes).Inv := by
  unfold raiseParked
  extract_lets s1
  have hs1 : s1.Inv := inv_raise hs
  exact inv_modCore (inv_modLF hs1)

theorem inv_modMq {s c i f} (hs : s.Inv) : (modMq s c i f).Inv := by
  unfold modMq
  exact inv_modCore hs

theorem inv_raiseLatch {s x kind detail} (hs : s.Inv) : (raiseLatch s x kind detail).Inv := by
  unfold raiseLatch
  refine inv_foldl ?_ ?_
  · intro t a ht
    split
    · exact ht
    · split
      · exact ht
      · extract_lets opw
        exact inv_raiseParked (inv_modMq ht)
  · exact hs

theorem inv_memberGone {s w} (hs : s.Inv) : (memberGone s w).Inv := by
  unfold memberGone
  exact inv_foldl (fun _ _ ht => inv_ite (inv_raiseLatch ht) ht) hs

theorem inv_loseScratch {s w} (hs : s.Inv) : (loseScratch s w).Inv := by
  unfold loseScratch
  exact inv_ite hs (inv_upd hs)

theorem inv_finishWG {s w} (hs : s.Inv) : (finishWG s w).Inv := by
  unfold finishWG
  extract_lets s1 s2 s3
  have hs1 : s1.Inv := inv_releaseOwned (inv_loseScratch hs)
  have hs2 : s2.Inv := inv_foldl (fun _ _ ht => inv_modCore ht) hs1
  have hs3 : s3.Inv := inv_modLaunch (inv_upd hs2)
  exact inv_memberGone hs3

theorem inv_doneAdd {s x} (hs : s.Inv) : (doneAdd s x).Inv := by
  unfold doneAdd
  extract_lets vpn fail s1
  have hfail : ∀ a, (fail a).Inv := by
    intro a
    unfold fail
    exact inv_raise (inv_modLaunch hs)
  have hs1 : s1.Inv := inv_upd hs
  split
  · unfold fail
    exact inv_raise (inv_modLaunch hs)
  · refine inv_ite ?_ ?_
    · split
      · exact hfail _
      · unfold fail
        exact inv_raise (inv_modLaunch hs)
      · exact inv_snd ‹_› (inv_meetCap hs)
    · refine inv_ite (hfail _) ?_
      refine inv_ite hs ?_
      refine inv_ite (inv_yieldDemotion hs) ?_
      split
      · exact hfail _
      · extract_lets n v
        exact inv_ite hs (inv_ite (hfail _) (inv_ite (inv_sendSnoops hs) (inv_laneWrite hs1)))

theorem inv_postDone {s x} (hs : s.Inv) : (postDone s x).Inv := by
  unfold postDone
  exact inv_ite hs (inv_ite (inv_doneAdd hs) (inv_sendFlushes hs))

theorem inv_postDones {s} (hs : s.Inv) : (postDones s).Inv := by
  unfold postDones
  exact inv_ite hs (inv_foldl (fun _ _ ht => inv_postDone ht) hs)

theorem safe_execWorkgroupFinish {id s} (hs : s.Inv) : Safe (execWorkgroupFinish id s) := by
  unfold execWorkgroupFinish
  split
  · exact safe_next (inv_postDones hs)
  · exact safe_next (inv_ite (inv_finishWG hs) hs)

/-! ## Canonical memory: Small operations -/

theorem inv_unhold {s c r} (hs : s.Inv) : (unhold s c r).Inv := by
  unfold unhold
  split
  · exact hs
  · exact inv_ite (inv_modFrame hs) hs

theorem inv_rejectReq {s c r} (hs : s.Inv) : (rejectReq s c r).Inv := by
  unfold rejectReq
  extract_lets s1
  have hs1 : s1.Inv := inv_modReq (inv_unhold hs)
  split
  · exact inv_forget hs1
  · exact hs1

theorem inv_sendBack {s c r} (hs : s.Inv) : (sendBack s c r).Inv := by
  unfold sendBack
  extract_lets s1
  have hs1 : s1.Inv := inv_modReq (inv_unhold hs)
  split
  · exact inv_forget hs1
  · exact hs1

theorem inv_recordStore {s c r n place} (hs : s.Inv) : (recordStore s c r n place).Inv := by
  unfold recordStore
  extract_lets m
  exact inv_recordAccess hs

/-! ## Canonical memory: Performing at a storage number -/

theorem inv_acquireNow {s c r} (hs : s.Inv) : (acquireNow s c r).Inv := by
  unfold acquireNow
  exact inv_ite (inv_emptyReadAhead hs) hs

theorem inv_loadAt {s c r n} (hs : s.Inv) : (loadAt s c r n).Inv := by
  unfold loadAt
  exact inv_takeLoad (inv_acquireNow hs)

theorem inv_loadHbm {s c r key n} (hs : s.Inv) : (loadHbm s c r key n).Inv := by
  unfold loadHbm
  extract_lets place s0 s1
  have hs0 : s0.Inv := by
    unfold s0
    exact inv_ite (inv_moveUnits hs) hs
  have hs1 : s1.Inv := inv_takeLoad (inv_acquireNow hs0)
  split
  · exact inv_ite (inv_neighbours hs1) hs1
  · exact hs1

theorem inv_storeAt {s c r n} (hs : s.Inv) : (storeAt s c r n).Inv := by
  unfold storeAt
  exact inv_applyStore (inv_recordStore hs)

theorem inv_failAtomic {s c r page} (hs : s.Inv) : (failAtomic s c r page).Inv := by
  unfold failAtomic
  exact inv_dropReq (inv_modOp hs)

theorem inv_atomAt {s c r o b b2 w key n dirty} (hs : s.Inv) : (atomAt s c r o b b2 w key n dirty).Inv := by
  unfold atomAt
  refine inv_ite (inv_failAtomic hs) ?_
  extract_lets e place s0 s1 s2 s2'
  have hs0 : s0.Inv := by
    unfold s0
    exact inv_ite (inv_emptyReadAhead hs) hs
  have hs1 : s1.Inv := inv_modOp (inv_recordStore hs0)
  have hs2 : s2.Inv := inv_moveUnits hs1
  have hs2' : s2'.Inv := inv_undoWords hs1
  refine inv_ite (inv_ite (inv_dropReq hs2) (inv_modReq (inv_laneWrite hs2))) ?_
  exact inv_dropReq (inv_applyWrite (inv_dropAhead hs2'))

theorem inv_releaseStep {s c r} (hs : s.Inv) : (releaseStep s c r).Inv := by
  unfold releaseStep
  split
  · exact inv_flushFor hs
  · exact hs

/-! ## Canonical memory: Translations (R40, R41, R377) -/

theorem inv_failReq {s c r kind vpn} (hs : s.Inv) : (failReq s c r kind vpn).Inv := by
  unfold failReq
  exact inv_ite (inv_failLoad hs) (inv_discard hs)

theorem inv_reqCap {s c r ctx vpn} (hs : s.Inv) : (reqCap s c r ctx vpn).Inv := by
  unfold reqCap
  split
  · exact inv_failReq (inv_snd ‹_› (inv_meetCap hs))
  · exact inv_failReq (inv_snd ‹_› (inv_meetCap hs))
  · exact inv_snd ‹_› (inv_meetCap hs)
  · exact inv_snd ‹_› (inv_meetCap hs)

theorem inv_giveEnt {s c r e at_} (hs : s.Inv) : (giveEnt s c r e at_).Inv := by
  unfold giveEnt
  extract_lets s1
  have hs1 : s1.Inv := inv_modReq hs
  exact inv_ite (inv_modFrame hs1) hs1

theorem inv_askPromote {s c r e ctx vpn} (hs : s.Inv) : (askPromote s c r e ctx vpn).Inv := by
  unfold askPromote
  exact inv_ite (inv_askPlace hs) hs

theorem inv_applyWalk {s c r ctx vpn} (hs : s.Inv) : (applyWalk s c r ctx vpn).Inv := by
  unfold applyWalk
  refine inv_ite hs ?_
  split
  · exact inv_failReq (inv_snd ‹_› (inv_fetchTrans hs))
  · split
    · exact inv_failReq (inv_snd ‹_› (inv_fetchTrans hs))
    · refine inv_ite (inv_reqCap (inv_snd ‹_› (inv_fetchTrans hs))) ?_
      refine inv_ite (inv_snd ‹_› (inv_fetchTrans hs)) ?_
      exact inv_ite (inv_snd ‹_› (inv_fetchTrans hs)) (inv_askPromote (inv_giveEnt (inv_snd ‹_› (inv_fetchTrans hs))))

theorem safe_execTranslationWalk {c i s} (hs : s.Inv) : Safe (execTranslationWalk c i s) := by
  unfold execTranslationWalk
  split
  · exact safe_next hs
  · split
    · exact safe_ite (safe_next (inv_applyWalk hs)) (safe_next hs)
    · exact safe_next hs

theorem safe_execTranslationExpiry {c ctx vpn s} (hs : s.Inv) : Safe (execTranslationExpiry c ctx vpn s) := by
  unfold execTranslationExpiry
  exact safe_next (inv_modCore hs)

/-! ## Canonical memory: Frames (R43) -/

theorem inv_retireFrame {s c k} (hs : s.Inv) : (retireFrame s c k).Inv := by
  unfold retireFrame
  extract_lets s1
  have hs1 : s1.Inv := inv_modFrame hs
  exact inv_modFrame (inv_startEviction hs1)

theorem inv_serveFrame {s c r e n} (hs : s.Inv) : (serveFrame s c r e n).Inv := by
  unfold serveFrame
  extract_lets k lines s1
  have hs1 : s1.Inv := inv_modFrame (inv_unhold hs)
  refine inv_ite (inv_sendSnoops hs) ?_
  split
  · exact inv_loadAt hs1
  · exact inv_storeAt hs1
  · exact inv_atomAt hs1

theorem inv_applyFrame {s c r e ctx va} (hs : s.Inv) : (applyFrame s c r e ctx va).Inv := by
  unfold applyFrame
  extract_lets k
  refine inv_ite hs ?_
  refine inv_ite (inv_retireFrame hs) ?_
  refine inv_ite (inv_rejectReq hs) ?_
  split
  · exact inv_rejectReq hs
  · exact inv_sendBack hs
  · exact inv_failReq hs
  · exact inv_serveFrame hs
  · exact hs

theorem inv_applyScratch {s c r n} (hs : s.Inv) : (applyScratch s c r n).Inv := by
  unfold applyScratch
  split
  · exact inv_loadAt hs
  · exact inv_regroupTest (inv_storeAt hs)
  · exact inv_atomAt hs

theorem safe_execFrameAccess {c i s} (hs : s.Inv) : Safe (execFrameAccess c i s) := by
  unfold execFrameAccess
  split
  · exact safe_next hs
  · refine safe_ite (safe_next hs) ?_
    refine safe_ite (safe_next (inv_releaseStep hs)) ?_
    split
    · exact safe_next (inv_applyScratch hs)
    · exact safe_next (inv_ite (inv_applyFrame hs) hs)
    · exact safe_next hs

/-! ## Canonical memory: the home slice (R37, R39, R49, R50) -/

theorem inv_redirect {s c r e k ctx vpn} (hs : s.Inv) : (redirect s c r e k ctx vpn).Inv := by
  unfold redirect
  split
  · refine inv_ite (inv_snd ‹_› (inv_installRedirect hs)) ?_
    exact inv_askPromote (inv_giveEnt (inv_snd ‹_› (inv_installRedirect hs)))

theorem inv_queueWrite {s c r page n key ctx vpn} (hs : s.Inv) : (queueWrite s c r page n key ctx vpn).Inv := by
  unfold queueWrite
  extract_lets w src
  have hsrc : src.Inv := inv_fresh (inv_recordStore hs)
  exact inv_modReq (inv_upd hsrc)

theorem inv_fillFor {s c r e ctx vpn} (hs : s.Inv) : (fillFor s c r e ctx vpn).Inv := by
  unfold fillFor
  exact inv_ite hs (inv_startFill hs)

theorem inv_serveHbm {s c r e ctx vpn key n} (hs : s.Inv) : (serveHbm s c r e ctx vpn key n).Inv := by
  unfold serveHbm
  extract_lets page lines s1
  have hs1 : s1.Inv := inv_fillFor hs
  split
  · exact inv_ite (inv_ite (inv_sendBack hs1) (inv_loadHbm hs1)) (inv_fillFor (inv_loadHbm hs))
  · exact inv_ite (inv_sendBack hs1) (inv_ite (inv_sendSnoops hs1) (inv_queueWrite hs1))
  · exact inv_ite (inv_sendBack hs1) (inv_ite hs1 (inv_ite (inv_sendSnoops hs1) (inv_atomAt hs1)))

theorem inv_applySlice {s c r e ctx va} (hs : s.Inv) : (applySlice s c r e ctx va).Inv := by
  unfold applySlice
  extract_lets vpn
  split
  · exact inv_sendBack hs
  · exact inv_redirect hs
  · exact inv_failReq hs
  · exact inv_failReq hs
  · exact inv_ite (inv_serveHbm hs) hs
  · exact hs

theorem safe_execHomeSliceAccess {c i s} (hs : s.Inv) : Safe (execHomeSliceAccess c i s) := by
  unfold execHomeSliceAccess
  split
  · exact safe_next hs
  · refine safe_ite (safe_next hs) ?_
    split
    · exact safe_next (inv_ite (inv_applySlice hs) hs)
    · exact safe_next hs

theorem inv_stayReq {s c r} (hs : s.Inv) : (stayReq s c r).Inv := by
  unfold stayReq
  split
  · exact inv_modReq hs
  · exact hs

theorem safe_execAtomicPerform {c i s} (hs : s.Inv) : Safe (execAtomicPerform c i s) := by
  unfold execAtomicPerform
  split
  · exact safe_next hs
  · refine safe_ite (safe_next hs) ?_
    refine safe_ite (safe_next (inv_releaseStep (inv_stayReq hs))) ?_
    split
    · exact safe_next (inv_applyScratch hs)
    · exact safe_next (inv_ite (inv_applyFrame hs) (inv_applySlice hs))
    · exact safe_next hs

/-! ## Canonical memory: Departures from the write queue (R49, R61, R228) -/

theorem inv_applyDepart {s c r ctx vpn} (hs : s.Inv) : (applyDepart s c r ctx vpn).Inv := by
  unfold applyDepart
  refine inv_ite hs ?_
  split
  · exact inv_failReq (inv_snd ‹_› (inv_fetchTrans hs))
  · split
    · exact inv_failReq (inv_snd ‹_› (inv_fetchTrans hs))
    · refine inv_ite (inv_reqCap (inv_snd ‹_› (inv_fetchTrans hs))) ?_
      extract_lets s2
      have hs2 : s2.Inv := inv_askPromote (inv_snd ‹_› (inv_fetchTrans hs))
      refine inv_ite (inv_forget (inv_yieldDemotion hs2)) ?_
      exact inv_ite hs2 (inv_ite hs2 (inv_giveEnt (inv_modReq (inv_dropAhead hs2))))

theorem inv_notePosted {s r} (hs : s.Inv) : (notePosted s r).Inv := by
  unfold notePosted
  extract_lets s1
  have hs1 : s1.Inv := inv_upd hs
  split
  · exact inv_modLaunch hs1
  · exact hs1

theorem inv_sendHost {s c r addr} (hs : s.Inv) : (sendHost s c r addr).Inv := by
  unfold sendHost
  split
  · exact hs
  · extract_lets n s1
    have hs1 : s1.Inv := inv_recordStore hs
    exact inv_finishShare (inv_notePosted (Mem.wf_patch _ _ hs1))

theorem safe_execWriteQueueDepart {c i s} (hs : s.Inv) : Safe (execWriteQueueDepart c i s) := by
  unfold execWriteQueueDepart
  split
  · exact safe_next hs
  · refine safe_ite (safe_next hs) ?_
    refine safe_ite (safe_next (inv_releaseStep hs)) ?_
    split
    · exact safe_next (inv_applyDepart hs)
    · exact safe_next (inv_sendHost hs)
    · exact safe_next hs

/-! ## Canonical memory: Results of memory words (R205, R213, R394, R401) -/

theorem inv_failLanes {s c l op k m} (hs : s.Inv) : (failLanes s c l op k m).Inv := by
  unfold failLanes
  exact inv_modLF hs

theorem inv_deliverLanes {s c o m} (hs : s.Inv) : (deliverLanes s c o m).Inv := by
  unfold deliverLanes
  extract_lets bad good k s1 s2 akind
  have hs1 : s1.Inv := inv_deliverTo hs
  have hs2 : s2.Inv := inv_finishFlags (inv_failLanes hs1)
  split
  · exact hs2
  · exact inv_raise hs2

theorem inv_readHost {s c o} (hs : s.Inv) : (readHost s c o).Inv := by
  unfold readHost
  refine inv_foldl ?_ ?_
  · intro t a ht
    split
    · exact inv_takeLoad ht
    · exact ht
  · exact hs

theorem safe_execLoadReturn {c i s} (hs : s.Inv) : Safe (execLoadReturn c i s) := by
  unfold execLoadReturn
  split
  · split
    · exact safe_next (inv_flushDone hs)
    · exact safe_next hs
  · refine safe_ite (safe_next hs) ?_
    extract_lets ready s0
    have hs0 : s0.Inv := by
      unfold s0
      exact inv_ite (inv_readHost hs) hs
    split
    · exact safe_next hs
    · exact safe_ite (safe_next (inv_regroupTest (inv_dropOp (inv_deliverLanes hs0)))) (safe_next hs)

theorem inv_retireLanes {s c o m} (hs : s.Inv) : (retireLanes s c o m).Inv := by
  unfold retireLanes
  extract_lets rest
  exact inv_ite (inv_regroupTest (inv_modLF (inv_dropOp hs))) (inv_modOp hs)

theorem safe_execAtomicReply {c i s} (hs : s.Inv) : Safe (execAtomicReply c i s) := by
  unfold execAtomicReply
  split
  · exact safe_next hs
  · extract_lets m
    exact safe_ite (safe_next hs) (safe_next (inv_retireLanes (inv_deliverLanes hs)))

theorem inv_timeoutReq {s c r} (hs : s.Inv) : (timeoutReq s c r).Inv := by
  unfold timeoutReq
  extract_lets gone
  have hgone : ∀ (t : State), t.Inv → (gone t).Inv := by
    intro t ht
    unfold gone
    exact inv_dropReq (inv_unhold ht)
  refine inv_ite ?_ ?_
  · split
    · exact hgone _ (inv_atomAt hs)
    · split
      · exact inv_ite (inv_modReq hs) (hgone _ (inv_atomAt hs))
      · unfold gone
        exact inv_dropReq (inv_unhold hs)
    · unfold gone
      exact inv_dropReq (inv_unhold hs)
  · unfold gone
    exact inv_dropReq (inv_unhold hs)

theorem safe_execAtomicTimeout {c i s} (hs : s.Inv) : Safe (execAtomicTimeout c i s) := by
  unfold execAtomicTimeout
  split
  · exact safe_next hs
  · extract_lets m s1 s2 page s3
    have hs1 : s1.Inv := inv_foldl (fun _ _ ht => inv_timeoutReq ht) hs
    have hs2 : s2.Inv := inv_finishFlags (inv_failLanes hs1)
    have hs3 : s3.Inv := inv_retireLanes hs2
    exact safe_ite (safe_next hs) (safe_next (inv_raise hs3))

end Sys2Proof.Proofs

end

section

/-! PROOFS. O36, continued: one lemma for each function that a step is made of, in the order of the model. -/

-- The many short proofs are elaborated one after another: at once they would hold more threads than the memory limit allows.
set_option Elab.async false

namespace Sys2Proof.Proofs

open Sys2Proof Sys2Proof.Machine Sys2Proof.Spec

/-! ## Canonical memory: Fences (R88, R222, R223) -/

theorem inv_xFlush {s c wg p before sc} (hs : s.Inv) : (xFlush s c wg p before sc).Inv := by
  unfold xFlush
  exact inv_ite (inv_foldl (fun _ _ ht => inv_flushFor ht) hs) hs

theorem safe_execFenceComplete {c l s} (hs : s.Inv) : Safe (execFenceComplete c l s) := by
  unfold execFenceComplete
  split
  · exact safe_next hs
  · split
    · extract_lets ready s1
      have hs1 : s1.Inv := inv_modLF (inv_emptyReadAhead hs)
      refine safe_ite (safe_next (inv_advance hs1)) ?_
      refine safe_next ?_
      split
      · exact inv_flushFor hs
      · exact inv_xFlush hs
    · exact safe_next hs

/-! ## Canonical memory: Host pointers (R209, R327, R340) -/

theorem inv_atsMiss {s c page write} (hs : s.Inv) : (atsMiss s c page write).Inv := by
  unfold atsMiss
  exact inv_ite hs (inv_modCore hs)

theorem safe_loadHost {s w r fs b x} (hs : s.Inv) : Safe (loadHost s w r fs b x) := by
  unfold loadHost
  split
  · exact safe_next (inv_hold hs)
  · refine safe_ite (safe_next (inv_hold hs)) ?_
    split
    · exact safe_next (inv_hold hs)
    · split
      · exact safe_next (inv_parkAll (inv_atsMiss hs))
      · extract_lets f o k s1 s2 s3 s4
        have hs1 : s1.Inv := inv_undoShifts (inv_fresh hs)
        have hs2 : s2.Inv := inv_modLF hs1
        have hs3 : s3.Inv := inv_modCore hs2
        have hs4 : s4.Inv := inv_foldl (fun _ _ ht => inv_addReq ht) hs3
        exact safe_next (inv_advance hs4)

theorem safe_storeHost {s w r fs b x} (hs : s.Inv) : Safe (storeHost s w r fs b x) := by
  unfold storeHost
  split
  · exact safe_next (inv_hold hs)
  · refine safe_ite (safe_next (inv_hold hs)) ?_
    split
    · split
      · exact safe_next (inv_parkAll (inv_atsMiss hs))
      · extract_lets places op s1 s2
        have hs1 : s1.Inv := inv_modLF (inv_fresh hs)
        have hs2 : s2.Inv := inv_foldl (fun _ _ ht => inv_addReq ht) hs1
        exact safe_next (inv_advance hs2)
    · exact safe_next (inv_hold hs)

/-! ## Canonical memory: Monitors (R216, R217, R220) -/

theorem inv_strongRead {s u r x} (hs : s.Inv) : (strongRead s u r x).2.Inv := by
  unfold strongRead
  refine inv_ite_snd hs ?_
  split
  · extract_lets vpn who s0
    have hs0 : s0.Inv := by
      unfold s0
      exact inv_ite (inv_refFrame hs) hs
    split
    · exact inv_forget hs
    · exact inv_forget hs
    · exact inv_forget hs
    · exact hs
    · exact hs
    · exact inv_installRedirect hs
    · exact inv_ite (inv_askPlace hs0) hs0
  · exact hs
  · exact hs

theorem inv_strongAll {u w ents} {l : Table Space} : ∀ {s}, s.Inv → (strongAll s u w ents l).2.Inv := by
  induction l with
  | nil =>
    intro s hs
    exact hs
  | cons q r ih =>
    intro s hs
    unfold strongAll
    split
    · exact inv_snd ‹_› (inv_strongRead hs)
    · exact inv_snd ‹_› (inv_strongRead hs)
    · split
      · exact inv_snd ‹_› (ih (inv_snd ‹_› (inv_strongRead hs)))
      · exact ih (inv_snd ‹_› (inv_strongRead hs))

theorem inv_armLane {s u cond lane x n b first} (hs : s.Inv) : (armLane s u cond lane x n b first).Inv := by
  unfold armLane
  split
  · extract_lets s1
    have hs1 : s1.Inv := inv_upd hs
    exact inv_modLF hs1
  · extract_lets g m src
    have hsrc : src.Inv := inv_fresh hs
    exact inv_modLF (inv_upd hsrc)

theorem inv_recordMonitor {s u off addrs nums} (hs : s.Inv) : (recordMonitor s u off addrs nums).Inv := by
  unfold recordMonitor
  exact inv_foldl (fun _ _ ht => inv_recordAccess ht) hs

theorem inv_issueMonitor {s u cond reg flag addrs ents nums bs} (hs : s.Inv) :
    (issueMonitor s u cond reg flag addrs ents nums bs).Inv := by
  unfold issueMonitor
  extract_lets val off bad go stay src v s1 src' o t1 t2 s2 first s3
  have hs1 : s1.Inv := inv_recordMonitor (inv_emptyReadAhead hs)
  have ht1 : t1.Inv := inv_undoShifts (inv_fresh hs1)
  have ht2 : t2.Inv := inv_modLF ht1
  have hs2 : s2.Inv := by
    unfold s2
    exact inv_ite hs1 (inv_modCore ht2)
  have hs3 : s3.Inv := inv_foldl (fun _ _ ht => inv_armLane ht) hs2
  exact inv_goOn (inv_recordPark hs3)

theorem safe_monitorWord {s cond w r d fs b a} (hs : s.Inv) : Safe (monitorWord s cond w r d fs b a) := by
  unfold monitorWord
  split
  · exact safe_next (inv_hold hs)
  · refine safe_ite (safe_next (inv_hold hs)) ?_
    split
    · exact safe_next (inv_hold hs)
    · split
      · exact safe_next (inv_hold (inv_snd ‹_› (inv_findPlaces hs)))
      · exact safe_next (inv_trap (inv_snd ‹_› (inv_findPlaces hs)))
      · exact safe_next (inv_parkCap (inv_snd ‹_› (inv_findPlaces hs)))
      · split
        · exact safe_next (inv_hold (inv_snd ‹_› (inv_strongAll (inv_snd ‹_› (inv_findPlaces hs)))))
        · exact safe_next (inv_trap (inv_snd ‹_› (inv_strongAll (inv_snd ‹_› (inv_findPlaces hs)))))
        · exact safe_next (inv_issueMonitor (inv_snd ‹_› (inv_strongAll (inv_snd ‹_› (inv_findPlaces hs)))))

/-! ## Canonical memory: Fences (R222, R223) -/

theorem safe_fenceWord {s c p} (hs : s.Inv) : Safe (fenceWord s c p) := by
  unfold fenceWord
  split
  · exact safe_next (inv_hold hs)
  · refine safe_next ?_
    extract_lets src
    have hsrc : src.Inv := inv_modLF (inv_fresh hs)
    exact inv_upd hsrc

theorem safe_fenceXWord {s c earlier later} (hs : s.Inv) : Safe (fenceXWord s c earlier later) := by
  unfold fenceXWord
  refine safe_ite (safe_fenceWord hs) ?_
  refine safe_ite (safe_fenceWord hs) ?_
  split
  · exact safe_next (inv_hold hs)
  · exact safe_next (inv_advance (inv_modCore (inv_fresh hs)))

/-! ## Canonical memory: Page-attribute requests (R224) -/

theorem safe_attrWord {s hint d fs a ctl} (hs : s.Inv) : Safe (attrWord s hint d fs a ctl) := by
  unfold attrWord
  split
  · exact safe_next (inv_hold hs)
  · refine safe_ite (safe_next (inv_hold hs)) ?_
    split
    · refine safe_ite (safe_next (inv_trap hs)) ?_
      extract_lets va num flag src o s1 s2 s3 s4
      have hs1 : s1.Inv := inv_undoShifts (inv_fresh hs)
      have hs2 : s2.Inv := inv_modLF hs1
      have hs3 : s3.Inv := inv_modCore hs2
      have hs4 : s4.Inv := inv_foldl (fun _ _ ht => inv_modCore (inv_fresh ht)) hs3
      split
      · exact safe_next (inv_trap hs)
      · exact safe_next (inv_advance hs4)
    · exact safe_next (inv_hold hs)

/-! ## Canonical memory: Monitors (R217, R402) -/

theorem inv_moveMonitors {s} (hs : s.Inv) : (moveMonitors s).Inv := by
  unfold moveMonitors
  refine inv_foldl ?_ ?_
  · intro t a ht
    split
    · exact ht
    · extract_lets g room
      exact inv_ite ht (inv_upd ht)
  · exact hs

theorem safe_execMonitorRecheck {i s} (hs : s.Inv) : Safe (execMonitorRecheck i s) := by
  unfold execMonitorRecheck
  split
  · exact safe_next hs
  · exact safe_ite (safe_next hs) (safe_ite (safe_next (inv_fireMonitor hs)) (safe_next (inv_upd hs)))

theorem inv_fireGroup {s g} (hs : s.Inv) : (fireGroup s g).Inv := by
  unfold fireGroup
  exact inv_foldl (fun _ _ ht => inv_fireMonitor ht) hs

theorem safe_execMonitorStorageError {die slice s} (hs : s.Inv) : Safe (execMonitorStorageError die slice s) := by
  unfold execMonitorStorageError
  exact safe_next (inv_fireGroup hs)

/-! ## Canonical memory: Sequences (R44, R48) -/

theorem safe_execFrameRemap {i s} (hs : s.Inv) : Safe (execFrameRemap i s) := by
  unfold execFrameRemap
  split
  · exact safe_next hs
  · refine safe_ite ?_ (safe_next (inv_readSome hs))
    exact safe_next (inv_remapSeq (inv_foldl (fun _ _ ht => inv_breakReserve ht) hs))

theorem safe_execPlacementDone {i s} (hs : s.Inv) : Safe (execPlacementDone i s) := by
  unfold execPlacementDone
  split
  · exact safe_next hs
  · refine safe_ite ?_ (safe_next hs)
    exact safe_next (inv_moveMonitors (inv_completeSeq (inv_foldl (fun _ _ ht => inv_breakReserve ht) hs)))

/-! ## Canonical memory: Invalidations (R47, R57, R379, R380) -/

theorem inv_modInval {s i f} (hs : s.Inv) : (modInval s i f).Inv := by
  unfold modInval
  exact inv_upd hs

theorem inv_dropPage {s c ctx vpn} (hs : s.Inv) : (dropPage s c ctx vpn).Inv := by
  unfold dropPage
  exact inv_modCore (inv_forget hs)

theorem safe_execInvalidation {i s} (hs : s.Inv) : Safe (execInvalidation i s) := by
  unfold execInvalidation
  split
  · exact safe_next hs
  · exact safe_next (inv_modInval (inv_dropPage hs))

theorem safe_execInvalidationAck {i s} (hs : s.Inv) : Safe (execInvalidationAck i s) := by
  unfold execInvalidationAck
  split
  · exact safe_next hs
  · split
    · exact safe_next (inv_ite hs (inv_upd hs))
    · exact safe_next hs

theorem inv_modPageReq {s i f} (hs : s.Inv) : (modPageReq s i f).Inv := by
  unfold modPageReq
  exact inv_upd hs

theorem safe_execInvalidationResend {i s} (hs : s.Inv) : Safe (execInvalidationResend i s) := by
  unfold execInvalidationResend
  split
  · exact safe_next hs
  · exact safe_ite (safe_next hs) (safe_ite (safe_next (inv_modInval hs)) (safe_next (inv_raiseSeq (inv_modInval hs))))

/-! ## Canonical memory: the Jib (R63 to R65) -/

theorem inv_modHWrite {s i f} (hs : s.Inv) : (modHWrite s i f).Inv := by
  unfold modHWrite
  exact inv_upd hs

theorem safe_execHbmWriteCharge {i s} (hs : s.Inv) : Safe (execHbmWriteCharge i s) := by
  unfold execHbmWriteCharge
  split
  · exact safe_next hs
  · refine safe_ite (safe_next hs) ?_
    extract_lets enter g
    have henter : ∀ (t : State) a, t.Inv → (enter t a).Inv := by
      intro t a ht
      unfold enter
      exact inv_modHWrite ht
    split
    · exact safe_next (henter _ _ hs)
    · exact safe_ite (safe_next (henter _ _ (inv_modCore hs))) (safe_next (henter _ _ hs))

theorem inv_placeWrite {s w} (hs : s.Inv) : (placeWrite s w).Inv := by
  unfold placeWrite
  extract_lets n s1
  have hs1 : s1.Inv := inv_applyWrite hs
  exact inv_foldl (fun _ _ ht => inv_ite (inv_upd ht) ht) hs1

theorem inv_tellSource {s w} (hs : s.Inv) : (tellSource s w).Inv := by
  unfold tellSource
  split
  · exact inv_upd hs
  · exact inv_modPageReq hs
  · exact inv_upd hs
  · exact hs

theorem inv_applyAtomic {s c r w} (hs : s.Inv) : (applyAtomic s c r w).Inv := by
  unfold applyAtomic
  extract_lets n s1
  have hs1 : s1.Inv := inv_undoWords hs
  exact inv_dropReq (inv_applyWrite (inv_dropAhead hs1))

theorem inv_finishWrite {s w} (hs : s.Inv) : (finishWrite s w).Inv := by
  unfold finishWrite
  extract_lets s1
  have hs1 : s1.Inv := inv_upd hs
  split
  · split
    · exact inv_ite (inv_applyAtomic hs1) (inv_applyStore hs1)
    · exact inv_placeWrite hs1
  · exact inv_tellSource (inv_placeWrite hs1)

theorem inv_loseWrite {s w} (hs : s.Inv) : (loseWrite s w).Inv := by
  unfold loseWrite
  extract_lets die k l full s1 s2 s3
  have hs1 : s1.Inv := inv_upd hs
  have hs2 : s2.Inv := by
    unfold s2
    split
    · split
      · exact inv_ite (inv_dropReq hs1) (inv_loseShare hs1)
      · exact hs1
    · exact inv_tellSource hs1
  have hs3 : s3.Inv := inv_raise hs2
  exact inv_ite (inv_upd hs3) hs3

theorem inv_takeNext {s stack chan} (hs : s.Inv) : (takeNext s stack chan).Inv := by
  unfold takeNext
  extract_lets k next units
  exact inv_upd hs

theorem safe_execWriteLaneDone {stack chan crcOk s} (hs : s.Inv) : Safe (execWriteLaneDone stack chan crcOk s) := by
  unfold execWriteLaneDone
  split
  · exact safe_next (inv_takeNext hs)
  · refine safe_ite (safe_next (inv_takeNext (inv_loseWrite hs))) ?_
    refine safe_ite ?_ ?_
    · exact safe_ite (safe_next (inv_sendSnoops hs)) (safe_next (inv_takeNext (inv_finishWrite hs)))
    · exact safe_ite (safe_next (inv_modHWrite hs)) (safe_next (inv_takeNext (inv_loseWrite hs)))

/-! ## Canonical memory: Budgets, windows and coding (R63, R66) -/

theorem inv_openWindow {s} (hs : s.Inv) : (openWindow s).Inv := by
  unfold openWindow
  exact inv_upd hs

theorem inv_writeJbud {s c v} (hs : s.Inv) : (writeJbud s c v).Inv := by
  unfold writeJbud
  extract_lets w
  exact inv_modCore hs

theorem inv_useInversion {s stack} (hs : s.Inv) : (useInversion s stack).Inv := by
  unfold useInversion
  exact inv_upd hs

theorem safe_execHcfgWrite {stack v s} (hs : s.Inv) : Safe (execHcfgWrite stack v s) := by
  unfold execHcfgWrite
  refine safe_next ?_
  extract_lets src
  have hsrc : src.Inv := by
    unfold src
    exact inv_ite (inv_useInversion hs) hs
  exact inv_upd hsrc

theorem safe_execCodeSwitchBoundary {stack chan writes dbi low s} (hs : s.Inv) :
    Safe (execCodeSwitchBoundary stack chan writes dbi low s) := by
  unfold execCodeSwitchBoundary
  extract_lets compat pick
  exact safe_next (inv_upd hs)

/-! ## Canonical memory: B clears -/

theorem inv_wakePage {s ctx vpn} (hs : s.Inv) : (wakePage s ctx vpn).Inv := by
  unfold wakePage
  exact inv_wakeWhere (inv_setEntryB hs)

theorem inv_releasePage {s ctx vpn} (hs : s.Inv) : (releasePage s ctx vpn).Inv := by
  unfold releasePage
  split
  · exact inv_ite (inv_setEntryB hs) (inv_wakePage hs)
  · exact inv_wakePage hs

theorem inv_faultUnit {c s} (hs : s.Inv) : (faultUnit c s).Inv := by
  unfold faultUnit
  refine inv_ite hs ?_
  refine inv_foldl ?_ ?_
  · intro t a ht
    split
    · exact inv_ite (inv_beginMigration ht) (inv_ite ht (inv_wakePage ht))
    · exact inv_wakePage ht
  · exact hs

theorem inv_depMigrations {s} (hs : s.Inv) : (depMigrations s).Inv := by
  unfold depMigrations
  exact inv_ite hs (inv_foldl (fun _ _ ht => inv_ite ht (inv_foldl (fun _ _ ht1 => inv_beginMigration ht1) ht)) hs)

/-! ## Canonical memory: the pool (R67, R383) -/

theorem inv_writeVirt {s ctx va b} (hs : s.Inv) : (writeVirt s ctx va b).Inv := by
  unfold writeVirt
  split
  · exact hs
  · exact inv_hwWrite hs

theorem inv_modMigration {s i f} (hs : s.Inv) : (modMigration s i f).Inv := by
  unfold modMigration
  exact inv_upd hs

theorem inv_takeSlot {s m p} (hs : s.Inv) : (takeSlot s m p).Inv := by
  unfold takeSlot
  extract_lets head s1 fail va
  have hs1 : s1.Inv := inv_writeVirt (inv_foldl (fun _ _ ht => inv_moveUnits ht) hs)
  have hfail : ∀ a, (fail a).Inv := by
    intro a
    unfold fail
    exact inv_modMigration (inv_raiseSeq hs1)
  refine inv_ite (hfail _) ?_
  split
  · exact hfail _
  · extract_lets w page
    split
    · unfold fail
      exact inv_modMigration (inv_raiseSeq hs1)
    · exact inv_modMarker (inv_modMigration hs1)

theorem safe_execPoolSlotTake {i s} (hs : s.Inv) : Safe (execPoolSlotTake i s) := by
  unfold execPoolSlotTake
  split
  · exact safe_next hs
  · split
    · exact safe_next hs
    · exact safe_ite (safe_next hs) (safe_next (inv_takeSlot hs))

/-! ## Canonical memory: Migration (R68) -/

theorem inv_stopWrites {s m} (hs : s.Inv) : (stopWrites s m).Inv := by
  unfold stopWrites
  extract_lets onLane
  exact inv_upd hs

theorem inv_endGiveUp {s m taken phase} (hs : s.Inv) : (endGiveUp s m taken phase).Inv := by
  unfold endGiveUp
  extract_lets s1 s2
  have hs1 : s1.Inv := by
    unfold s1
    exact inv_ite (inv_writeVirt (inv_modMarker hs)) hs
  have hs2 : s2.Inv := inv_recordMigrate (inv_upd hs1)
  split
  · exact inv_releasePage hs2
  · exact inv_upd hs2
  · exact inv_wakePage hs2
  · exact hs2

theorem inv_giveUp {s m phase} (hs : s.Inv) : (giveUp s m phase).Inv := by
  unfold giveUp
  refine inv_ite (inv_endGiveUp hs) ?_
  extract_lets s1
  have hs1 : s1.Inv := inv_stopWrites hs
  exact inv_ite (inv_modMigration hs1) (inv_endGiveUp hs1)

theorem inv_poisonWaiters {s c l vpn p pc} (hs : s.Inv) : (poisonWaiters s c l vpn p pc).Inv := by
  unfold poisonWaiters
  split
  · exact hs
  · extract_lets m
    exact inv_raiseParked (inv_modLF hs)

theorem inv_poisonAll {s vpn p} (hs : s.Inv) : (poisonAll s vpn p).Inv := by
  unfold poisonAll
  exact inv_foldl (fun _ _ ht => inv_foldl (fun _ _ ht1 => inv_foldl (fun _ _ ht2 => inv_poisonWaiters ht2) ht1) ht) hs

theorem inv_poisonPage {s ctx vpn capPage mirror m mark by_} (hs : s.Inv) :
    (poisonPage s ctx vpn capPage mirror m mark by_).Inv := by
  unfold poisonPage
  extract_lets free s1 s2 s3 s4 s5
  have hs1 : s1.Inv := by
    unfold s1
    split
    · exact inv_giveUp hs
    · exact hs
  have hs2 : s2.Inv := inv_setEntryB hs1
  have hs3 : s3.Inv := by
    unfold s3
    clear_value free
    split
    · exact inv_upd hs2
    · exact hs2
  have hs4 : s4.Inv := by
    unfold s4
    exact inv_ite (inv_poisonAll hs3) (inv_wakeWhere hs3)
  have hs5 : s5.Inv := inv_raiseSeq hs4
  split
  · exact inv_upd hs4
  · exact inv_ite (inv_upd hs5) hs4
  · exact hs4

theorem inv_badRead {s m blk} (hs : s.Inv) : (badRead s m blk).Inv := by
  unfold badRead
  extract_lets again
  have hagain : ∀ a, (again a).Inv := by
    intro a
    unfold again
    exact inv_modMigration hs
  split
  · exact hagain _
  · exact inv_modMigration (hagain _)
  · exact inv_poisonPage hs

theorem inv_goodRead {s m blk} (hs : s.Inv) : (goodRead s m blk).Inv := by
  unfold goodRead
  extract_lets n key w src
  have hsrc : src.Inv := inv_fresh hs
  exact inv_modMigration (inv_upd hsrc)

theorem safe_execCapReadReturn {i blk bad s} (hs : s.Inv) : Safe (execCapReadReturn i blk bad s) := by
  unfold execCapReadReturn
  split
  · exact safe_next hs
  · refine safe_ite (safe_next hs) ?_
    refine safe_ite ?_ ?_
    · exact safe_ite (safe_next (inv_modMigration (inv_raiseSeq hs))) (safe_next hs)
    · exact safe_ite (safe_next (inv_badRead hs)) (safe_next (inv_goodRead hs))

theorem safe_execCapReadTimeout {i blk s} (hs : s.Inv) : Safe (execCapReadTimeout i blk s) := by
  unfold execCapReadTimeout
  split
  · exact safe_next hs
  · exact safe_ite (safe_next hs) (safe_next (inv_badRead hs))

theorem inv_dropReaders {s ctx vpn} (hs : s.Inv) : (dropReaders s ctx vpn).Inv := by
  unfold dropReaders
  exact inv_ite (inv_upd hs) hs

theorem inv_finishMigration {s m} (hs : s.Inv) : (finishMigration s m).Inv := by
  unfold finishMigration
  extract_lets s1 s2 s3 s4 s5
  have hs1 : s1.Inv := inv_modEntry hs
  have hs2 : s2.Inv := inv_writeVirt hs1
  have hs3 : s3.Inv := inv_modMarker hs2
  have hs4 : s4.Inv := inv_sendInvals hs3
  have hs5 : s5.Inv := inv_recordMigrate (inv_upd hs4)
  exact inv_checkReady (inv_moveMonitors (inv_releasePage (inv_dropReaders hs5)))

theorem safe_execMigrationComplete {i s} (hs : s.Inv) : Safe (execMigrationComplete i s) := by
  unfold execMigrationComplete
  split
  · exact safe_next hs
  · exact safe_ite (safe_next (inv_finishMigration hs)) (safe_ite (safe_next (inv_endGiveUp hs)) (safe_next hs))

/-! ## Canonical memory: the deadline path (R69, R387) -/

theorem inv_modReader {s c op f} (hs : s.Inv) : (modReader s c op f).Inv := by
  unfold modReader
  exact inv_modCore hs

theorem inv_passDeadline {s c l r page} (hs : s.Inv) : (passDeadline s c l r page).Inv := by
  unfold passDeadline
  extract_lets ctx s1
  have hs1 : s1.Inv := inv_recordMigrate (inv_modReader (inv_modLF hs))
  split
  · exact hs1
  · exact inv_ite (inv_giveUp hs1) hs1

theorem safe_execMigrationDeadline {c l s} (hs : s.Inv) : Safe (execMigrationDeadline c l s) := by
  unfold execMigrationDeadline
  split
  · split
    · extract_lets dl
      exact safe_ite (safe_next (inv_passDeadline hs)) (safe_next hs)
    · exact safe_next hs
  · exact safe_next hs

theorem inv_serveReader {s c r} (hs : s.Inv) : (serveReader s c r).Inv := by
  unfold serveReader
  split
  · exact hs
  · extract_lets src o k u s1 s2 s3 next s4 s5 s6
    have hs1 : s1.Inv := inv_undoShifts (inv_fresh hs)
    have hs2 : s2.Inv := inv_modLF hs1
    have hs3 : s3.Inv := inv_deliverTo hs2
    have hs4 : s4.Inv := inv_modLF hs3
    have hs5 : s5.Inv := inv_foldl (fun _ _ ht => inv_recordAccess ht) hs4
    have hs6 : s6.Inv := inv_modCore hs5
    exact inv_arriveAt (inv_wakeLanes hs6)

theorem inv_endReader {s c r} (hs : s.Inv) : (endReader s c r).Inv := by
  unfold endReader
  extract_lets s1
  have hs1 : s1.Inv := inv_modCore hs
  exact inv_modLF hs1

theorem inv_badDirect {s c r blk} (hs : s.Inv) : (badDirect s c r blk).Inv := by
  unfold badDirect
  extract_lets vpn ctx page again own
  have hagain : ∀ a a1, (again a a1).Inv := by
    intro a a'
    unfold again
    exact inv_modReader hs
  split
  · exact hagain _ _
  · exact hagain _ _
  · exact inv_poisonPage (inv_endReader hs)

theorem inv_takeDirect {s c r bad} (hs : s.Inv) : (takeDirect s c r bad).Inv := by
  unfold takeDirect
  extract_lets left isBad r1 s1
  have hs1 : s1.Inv := inv_modReader hs
  split
  · exact inv_badDirect hs1
  · exact inv_serveReader hs1

theorem safe_execDirectReadReturn {c op bad s} (hs : s.Inv) : Safe (execDirectReadReturn c op bad s) := by
  unfold execDirectReadReturn
  split
  · exact safe_next hs
  · refine safe_ite (safe_next hs) ?_
    refine safe_ite (safe_next (inv_raiseParked hs)) ?_
    exact safe_ite (safe_next (inv_wakeLanes (inv_modCore hs))) (safe_next (inv_takeDirect hs))

/-! ## Canonical memory: Page-attribute requests (R70, R224, R225) -/

theorem inv_dropFrame {s q k} (hs : s.Inv) : (dropFrame s q k).Inv := by
  unfold dropFrame
  extract_lets f o s1
  have hs1 : s1.Inv := inv_recordRemap (inv_releaseFrame (inv_clearSlot hs))
  exact inv_foldl (fun _ _ ht => inv_foldl (fun _ _ ht1 => inv_clearSlot ht1) ht) (inv_setBusyFrame hs1)

theorem inv_beginPage {s q e} (hs : s.Inv) : (beginPage s q e).Inv := by
  unfold beginPage
  extract_lets s1 page s2
  have hs1 : s1.Inv := inv_modPageReq (inv_setEntryB hs)
  have hs2 : s2.Inv := inv_markBusy hs1
  refine inv_ite ?_ hs1
  exact inv_foldl (fun _ _ ht => inv_ite (inv_modPageReq (inv_pageWrites (inv_setBusyFrame ht))) (inv_setBusyFrame ht)) hs2

theorem inv_firePage {s ctx vpn} (hs : s.Inv) : (firePage s ctx vpn).Inv := by
  unfold firePage
  exact inv_foldl (fun _ _ ht => inv_fireMonitor ht) hs

theorem inv_evictPage {s q e} (hs : s.Inv) : (evictPage s q e).Inv := by
  unfold evictPage
  extract_lets s1
  have hs1 : s1.Inv := by
    unfold s1
    exact inv_ite (inv_modMarker (inv_foldl (fun _ _ ht => inv_dropFrame (inv_breakReserve ht)) hs)) hs
  exact inv_modPageReq (inv_sendInvals (inv_ite (inv_firePage hs1) (inv_moveMonitors hs1)))

theorem inv_endPageReq {s q} (hs : s.Inv) : (endPageReq s q).Inv := by
  unfold endPageReq
  extract_lets s1 m
  have hs1 : s1.Inv := inv_modCore hs
  split
  · exact hs1
  · extract_lets s2 rest
    have hs2 : s2.Inv := inv_finishFlags (inv_deliverTo hs1)
    exact inv_ite (inv_dropOp hs2) (inv_modOp hs2)

theorem inv_nextPage {s q changed} (hs : s.Inv) : (nextPage s q changed).Inv := by
  unfold nextPage
  extract_lets q1
  exact inv_ite (inv_endPageReq hs) (inv_modPageReq hs)

theorem inv_endPage {s q e} (hs : s.Inv) : (endPage s q e).Inv := by
  unfold endPage
  extract_lets s1 s2
  have hs1 : s1.Inv := by
    unfold s1
    exact inv_ite (inv_markBusy hs) hs
  have hs2 : s2.Inv := inv_nextPage (inv_releasePage hs1)
  exact inv_ite (inv_beginMigration hs2) (inv_checkReady hs2)

theorem inv_failPageReq {s q kind} (hs : s.Inv) : (failPageReq s q kind).Inv := by
  unfold failPageReq
  exact inv_modPageReq (inv_raise hs)

theorem inv_stepPage {s q e} (hs : s.Inv) : (stepPage s q e).Inv := by
  unfold stepPage
  split
  · refine inv_ite (inv_failPageReq hs) ?_
    exact inv_ite hs (inv_ite hs (inv_ite hs (inv_ite (inv_failPageReq hs) (inv_beginPage hs))))
  · exact inv_ite (inv_evictPage hs) hs
  · exact inv_ite hs (inv_ite (inv_modPageReq (inv_modEntry hs)) (inv_endPage (inv_modEntry hs)))
  · exact hs

theorem safe_execPageAttrPage {i s} (hs : s.Inv) : Safe (execPageAttrPage i s) := by
  unfold execPageAttrPage
  split
  · exact safe_next hs
  · refine safe_ite (safe_next hs) ?_
    split
    · exact safe_next (inv_nextPage hs)
    · exact safe_next (inv_failPageReq hs)
    · exact safe_next (inv_stepPage hs)

theorem inv_demote {s q e} (hs : s.Inv) : (demote s q e).Inv := by
  unfold demote
  extract_lets src dst key units s1 s2 s3 s4
  have hs1 : s1.Inv := inv_storeUnder (inv_moveUnits hs)
  have hs2 : s2.Inv := inv_upd hs1
  have hs3 : s3.Inv := inv_markBusy hs2
  have hs4 : s4.Inv := inv_modEntry hs3
  exact inv_moveMonitors (inv_nextPage (inv_releasePage hs4))

theorem inv_copySome {s q page} (hs : s.Inv) : (copySome s q page).Inv := by
  unfold copySome
  exact inv_modPageReq (inv_moveUnits hs)

theorem safe_execDemotionComplete {i s} (hs : s.Inv) : Safe (execDemotionComplete i s) := by
  unfold execDemotionComplete
  split
  · exact safe_next hs
  · split
    · refine safe_ite (safe_next hs) ?_
      exact safe_ite (safe_next (inv_failPageReq hs)) (safe_ite (safe_next (inv_copySome hs)) (safe_next (inv_demote hs)))
    · exact safe_next hs

/-! ## Canonical memory: the busy watchdog and abandonment (R382) -/

theorem safe_execBusyWatchdogExpiry {i s} (hs : s.Inv) : Safe (execBusyWatchdogExpiry i s) := by
  unfold execBusyWatchdogExpiry
  split
  · exact safe_ite (safe_next hs) (safe_next (inv_raiseSeq (inv_upd hs)))
  · refine safe_ite (safe_next hs) ?_
    extract_lets s1
    have hs1 : s1.Inv := inv_modMigration hs
    exact safe_ite (safe_next (inv_raiseSeq hs1)) (safe_next (inv_raiseSeq hs1))
  · exact safe_ite (safe_next hs) (safe_next (inv_raise (inv_modPageReq hs)))
  · exact safe_next hs

theorem inv_dropVictim {s q v} (hs : s.Inv) : (dropVictim s q v).Inv := by
  unfold dropVictim
  extract_lets s1
  have hs1 : s1.Inv := by
    unfold s1
    exact inv_ite (inv_pageWrites hs) hs
  exact inv_moveMarker (inv_clearSlot hs1)

theorem inv_abandonSeq {s q} (hs : s.Inv) : (abandonSeq s q).Inv := by
  unfold abandonSeq
  refine inv_ite (inv_moveMonitors (inv_completeSeq hs)) ?_
  extract_lets o s1 s0 s1' s2
  have hs1 : s1.Inv := by
    unfold s1
    refine inv_recordRemap ?_
    refine inv_releaseFrame ?_
    split
    · exact inv_dropVictim hs
    · exact hs
  have hs0 : s0.Inv := by
    unfold s0
    exact inv_ite hs (inv_foldl (fun _ _ ht => inv_sendOwed ht) (inv_breakReserve hs1))
  have hs1' : s1'.Inv := inv_markPages hs0
  have hs2 : s2.Inv := inv_foldl (fun _ _ ht => inv_setBusyFrame ht) hs1'
  exact inv_moveMonitors (inv_upd hs2)

theorem inv_abandonPageReq {s q} (hs : s.Inv) : (abandonPageReq s q).Inv := by
  unfold abandonPageReq
  extract_lets s1
  have hs1 : s1.Inv := by
    unfold s1
    split
    · exact inv_ite (inv_markBusy (inv_foldl (fun _ _ ht => inv_setBusyFrame ht) hs)) hs
    · exact hs
  exact inv_wakePage (inv_modPageReq hs1)

theorem inv_abandonBusy {s ctx vpn} (hs : s.Inv) : InvOpt (abandonBusy s ctx vpn) := by
  unfold abandonBusy
  split
  · exact invOpt_some (inv_giveUp (inv_dropReaders hs))
  · split
    · exact invOpt_some (inv_abandonPageReq hs)
    · exact invOpt_map fun _ => inv_abandonSeq hs

/-! ## Canonical memory: Cross-path fences (R88) -/

theorem inv_dropFences {s c} (hs : s.Inv) : (dropFences s c).Inv := by
  unfold dropFences
  exact inv_modCore (inv_foldl (fun _ _ ht => inv_xFlush ht) hs)

/-! ## Canonical memory: Faults found by an engine (R233, R410) -/

theorem inv_raiseCmd {s u kind detail} (hs : s.Inv) : (raiseCmd s u kind detail).Inv := by
  unfold raiseCmd
  exact inv_raise hs

theorem inv_noteError {s c kind detail unit index record lane} (hs : s.Inv) :
    (noteError s c kind detail unit index record lane).Inv := by
  unfold noteError
  exact inv_ite (inv_modCore hs) hs

theorem inv_recordRead {s u addr n place} (hs : s.Inv) : (recordRead s u addr n place).Inv := by
  unfold recordRead
  extract_lets g
  exact inv_recordAccess hs

theorem inv_engineTouch {s u va a n e} (hs : s.Inv) : (engineTouch s u va a n e).Inv := by
  unfold engineTouch
  extract_lets who thr s0 s1
  have hs0 : s0.Inv := inv_recordRead hs
  have hs1 : s1.Inv := inv_refFrame hs0
  exact inv_ite (inv_ite (inv_askPlace hs1) hs1) (inv_ite (inv_askPlace (inv_moveUnits hs0)) hs0)

theorem inv_engineServe {s u va n e} (hs : s.Inv) : (engineServe s u va n e).2.Inv := by
  unfold engineServe
  extract_lets ctx a own s1
  have hs1 : s1.Inv := inv_engineTouch hs
  refine inv_ite_snd hs ?_
  exact inv_ite_snd (inv_forget hs) (inv_ite_snd hs (inv_ite_snd hs (inv_ite_snd hs (inv_ite_snd hs1 hs1))))

theorem inv_engineCap {s u vpn strong} (hs : s.Inv) : (engineCap s u vpn strong).2.Inv := by
  unfold engineCap
  split <;> exact inv_snd ‹_› (inv_meetCap hs)

theorem inv_engineRead {s u va n} (hs : s.Inv) : (engineRead s u va n).2.Inv := by
  unfold engineRead
  extract_lets ctx vpn
  refine inv_ite_snd hs ?_
  refine inv_ite_snd hs ?_
  split
  · exact inv_snd ‹_› (inv_fetchTrans hs)
  · split
    · split
      · exact inv_snd ‹_› (inv_resolve (inv_snd ‹_› (inv_fetchTrans hs)))
      · refine inv_ite_snd ?_ ?_
        · exact inv_engineCap (inv_snd ‹_› (inv_resolve (inv_snd ‹_› (inv_fetchTrans hs))))
        · exact inv_engineServe (inv_snd ‹_› (inv_resolve (inv_snd ‹_› (inv_fetchTrans hs))))

theorem inv_engineReadRun {u} {fuel : Nat} : ∀ {s va n}, s.Inv → (engineReadRun s u fuel va n).2.2.Inv := by
  induction fuel with
  | zero =>
    intro s va n hs
    exact hs
  | succ fuel ih =>
    intro s va n hs
    unfold engineReadRun
    refine inv_ite_snd_snd hs ?_
    split
    · split
      exact inv_snd_snd ‹_› (ih (inv_snd ‹_› (inv_engineRead hs)))
    · exact inv_snd ‹_› (inv_engineRead hs)

theorem inv_engineReadAll {s u va n} (hs : s.Inv) : (engineReadAll s u va n).2.2.Inv := by
  unfold engineReadAll
  split
  · exact inv_snd_snd ‹_› (inv_engineReadRun hs)
  · exact inv_engineRead hs
  · exact inv_snd_snd ‹_› (inv_engineReadRun hs)

theorem inv_engineWrite {s u va data} (hs : s.Inv) : (engineWrite s u va data).2.Inv := by
  unfold engineWrite
  extract_lets ctx vpn r
  refine inv_ite_snd hs ?_
  refine inv_ite_snd hs ?_
  split
  · exact inv_snd ‹_› (inv_fetchTrans hs)
  · split
    · exact inv_snd ‹_› (inv_fetchTrans hs)
    · refine inv_ite_snd (inv_engineCap (inv_snd ‹_› (inv_fetchTrans hs))) ?_
      exact inv_ite_snd (inv_snd ‹_› (inv_fetchTrans hs)) (inv_addReq (inv_snd ‹_› (inv_fetchTrans hs)))

theorem inv_writeBehind {s base done l} (hs : s.Inv) : (writeBehind s base done l).Inv := by
  unfold writeBehind
  extract_lets k s1
  have hs1 : s1.Inv := inv_clearMarks hs
  exact Mem.wf_write _ _ hs1

theorem inv_writeLocal {s base l} (hs : s.Inv) : (writeLocal s base l).Inv := by
  unfold writeLocal
  exact inv_writeBehind hs

/-! ## Canonical memory: the matrix queue (R229, R230) -/

theorem inv_mqFault {s c e kind detail unit index record lane} (hs : s.Inv) :
    (mqFault s c e kind detail unit index record lane).Inv := by
  unfold mqFault
  exact inv_noteError (inv_modMq (inv_raiseCmd hs))

theorem inv_mqMemFault {s c e kind va record} (hs : s.Inv) : (mqMemFault s c e kind va record).Inv := by
  unfold mqMemFault
  exact inv_mqFault hs

theorem inv_enqueue {s u kind reg flag} (hs : s.Inv) : (enqueue s u kind reg flag).Inv := by
  unfold enqueue
  extract_lets e s1
  have hs1 : s1.Inv := inv_modCore (inv_fresh hs)
  exact inv_modLF hs1

theorem safe_mqWord {s a} {g : Iss → Word → State} (hs : s.Inv) (hg : ∀ a a1, (g a a1).Inv) : Safe (mqWord s a g) := by
  unfold mqWord
  split
  · exact safe_next (inv_hold hs)
  · split
    · exact safe_next (inv_hold hs)
    · exact safe_ite (safe_next (hg _ _)) (safe_next (inv_hold hs))

theorem safe_mqWord64 {s b a} {g : Iss → DWord → Word → State} (hs : s.Inv) (hg : ∀ a a1 a2, (g a a1 a2).Inv) :
    Safe (mqWord64 s b a g) := by
  unfold mqWord64
  split
  · exact safe_next (inv_hold hs)
  · split
    · exact safe_ite (safe_next (hg _ _ _)) (safe_next (inv_hold hs))
    · exact safe_next (inv_hold hs)

theorem inv_causeTrap {s u kind operand cause} (hs : s.Inv) : (causeTrap s u kind operand cause).Inv := by
  unfold causeTrap
  exact inv_trap hs

theorem inv_operandTrap {s u} (hs : s.Inv) : (operandTrap s u).Inv := by
  unfold operandTrap
  exact inv_trap hs

/-! ## Canonical memory: Tiles (R240, R309, R373) -/

theorem inv_claimTile {s c wg t} (hs : s.Inv) : (claimTile s c wg t).Inv := by
  unfold claimTile
  exact inv_ite (inv_upd hs) hs

theorem inv_moveRange {s a n} (hs : s.Inv) : (moveRange s a n).Inv := by
  unfold moveRange
  exact inv_foldl (fun _ _ ht => inv_moveUnits ht) hs

theorem inv_saveCopy {s key src dst n} (hs : s.Inv) : (saveCopy s key src dst n).Inv := by
  unfold saveCopy
  exact inv_ite hs (Mem.wf_copy _ _ _ hs)

theorem inv_saveTileOf {s c t ctx} (hs : s.Inv) : (saveTileOf s c t ctx).Inv := by
  unfold saveTileOf
  split
  · exact hs
  · exact inv_saveCopy hs

theorem inv_spillTrap {s c t} (hs : s.Inv) : (spillTrap s c t).Inv := by
  unfold spillTrap
  extract_lets a
  split
  · exact inv_ite (inv_freeTile (inv_upd (inv_saveTileOf hs))) hs
  · split
    · exact hs
    · exact Mem.wf_restore _ hs

/-! ## Canonical memory: Grove tables (R251) -/

theorem inv_claimTable {s c wg t} (hs : s.Inv) : (claimTable s c wg t).Inv := by
  unfold claimTable
  split
  · exact hs
  · exact inv_modCore hs

/-! ## Canonical memory: the end of an entry (R231) -/

theorem inv_sweepGone {s c wg} (hs : s.Inv) : (sweepGone s c wg).Inv := by
  unfold sweepGone
  extract_lets k
  exact inv_ite (inv_postDones (inv_releaseOwned hs)) hs

theorem inv_dropEntry {s c e} (hs : s.Inv) : (dropEntry s c e).Inv := by
  unfold dropEntry
  exact inv_sweepGone (inv_modCore hs)

/-! ## Canonical memory: Reservations (R236 to R238) -/

theorem safe_execRsvSet {d b a s} (hs : s.Inv) : Safe (execRsvSet d b a s) := by
  unfold execRsvSet
  split
  · exact safe_next (inv_hold hs)
  · split
    · refine safe_ite (safe_next (inv_hold hs)) ?_
      refine safe_ite (safe_next (inv_operandTrap hs)) ?_
      extract_lets w r s1
      have hs1 : s1.Inv := inv_modCore hs
      split
      · exact safe_next (inv_causeTrap hs)
      · exact safe_next (inv_issueVals (inv_enqueue hs1))
    · exact safe_next (inv_hold hs)

theorem safe_execRsvFree {a s} (hs : s.Inv) : Safe (execRsvFree a s) := by
  unfold execRsvFree
  exact safe_mqWord hs (fun _ _ => inv_ite (inv_operandTrap hs) (inv_ite (inv_causeTrap hs) (inv_advance (inv_enqueue hs))))

theorem safe_execRsvGet {d a s} (hs : s.Inv) : Safe (execRsvGet d a s) := by
  unfold execRsvGet
  exact safe_mqWord hs (fun _ _ => inv_ite (inv_hold hs) (inv_ite (inv_operandTrap hs) (inv_issueVals (inv_enqueue hs))))

theorem safe_execMxld {f b a s} (hs : s.Inv) : Safe (execMxld f b a s) := by
  unfold execMxld
  exact safe_mqWord64 hs (fun _ _ _ => inv_ite (inv_operandTrap hs) (inv_ite (inv_trap hs) (inv_ite (inv_causeTrap hs)
      (inv_advance (inv_enqueue hs)))))

/-! ## Canonical memory: Accumulator words (R240 to R243) -/

theorem safe_accWord {s a claims k} (hs : s.Inv) : Safe (accWord s a claims k) := by
  unfold accWord
  exact safe_mqWord hs (fun _ _ => inv_ite (inv_operandTrap hs) (inv_ite (inv_causeTrap hs) (inv_advance (inv_enqueue (inv_ite
      (inv_claimTile hs) hs)))))

theorem safe_execAccZero {a s} (hs : s.Inv) : Safe (execAccZero a s) := by
  unfold execAccZero
  exact safe_accWord hs

theorem safe_execAccFree {a s} (hs : s.Inv) : Safe (execAccFree a s) := by
  unfold execAccFree
  exact safe_accWord hs

theorem safe_accMove {s f b a claims k} (hs : s.Inv) : Safe (accMove s f b a claims k) := by
  unfold accMove
  exact safe_mqWord64 hs (fun _ _ _ => inv_ite (inv_operandTrap hs) (inv_ite (inv_trap hs) (inv_ite (inv_causeTrap hs)
      (inv_advance (inv_enqueue (inv_ite (inv_claimTile hs) hs))))))

theorem safe_execAccLd {f b a s} (hs : s.Inv) : Safe (execAccLd f b a s) := by
  unfold execAccLd
  exact safe_accMove hs

theorem safe_execAccSt {f b a s} (hs : s.Inv) : Safe (execAccSt f b a s) := by
  unfold execAccSt
  exact safe_accMove hs

theorem inv_laneEngineWord {s u k d flag} (hs : s.Inv) : (laneEngineWord s u k d flag).Inv := by
  unfold laneEngineWord
  extract_lets op s1
  have hs1 : s1.Inv := inv_enqueue (inv_undoShifts hs)
  exact inv_advance (inv_modLF hs1)

theorem safe_execAccRd {d f a s} (hs : s.Inv) : Safe (execAccRd d f a s) := by
  unfold execAccRd
  split
  · exact safe_next (inv_hold hs)
  · split
    · exact safe_next (inv_hold hs)
    · refine safe_ite (safe_next (inv_hold hs)) ?_
      refine safe_ite (safe_next (inv_operandTrap hs)) ?_
      split
      · exact safe_next (inv_causeTrap hs)
      · exact safe_next (inv_laneEngineWord hs)

/-! ## Canonical memory: Products at issue (R244, R245) -/

theorem safe_mmaWord {s form f a b} (hs : s.Inv) : Safe (mmaWord s form f a b) := by
  unfold mmaWord
  split
  · exact safe_next (inv_hold hs)
  · split
    · exact safe_next (inv_hold hs)
    · refine safe_ite (safe_next (inv_hold hs)) ?_
      split
      · exact safe_next (inv_trap hs)
      · exact safe_next (inv_advance (inv_enqueue (inv_claimTile hs)))

theorem safe_execMmaBf16 {f a s} (hs : s.Inv) : Safe (execMmaBf16 f a s) := by
  unfold execMmaBf16
  exact safe_mmaWord hs

theorem safe_execMmaF16 {f a s} (hs : s.Inv) : Safe (execMmaF16 f a s) := by
  unfold execMmaF16
  exact safe_mmaWord hs

theorem safe_execMmaK {f a s} (hs : s.Inv) : Safe (execMmaK f a s) := by
  unfold execMmaK
  exact safe_mmaWord hs

theorem safe_execMmaKOl {f b a s} (hs : s.Inv) : Safe (execMmaKOl f b a s) := by
  unfold execMmaKOl
  exact safe_mmaWord hs

/-! ## Canonical memory: Gangs (R27, R249, R250) -/

theorem safe_execGangSet {a s} (hs : s.Inv) : Safe (execGangSet a s) := by
  unfold execGangSet
  refine safe_mqWord ?_ ?_
  · exact hs
  · intro a a'
    extract_lets n
    refine inv_ite (inv_hold hs) ?_
    refine inv_ite (inv_operandTrap hs) ?_
    split
    · exact inv_causeTrap hs
    · exact inv_advance (inv_enqueue (inv_modWG hs))

theorem safe_execGangGet {d s} (hs : s.Inv) : Safe (execGangGet d s) := by
  unfold execGangGet
  split
  · exact safe_next (inv_hold hs)
  · exact safe_ite (safe_next (inv_hold hs)) (safe_next (inv_issueVals (inv_enqueue hs)))

theorem inv_modLatch {s i f} (hs : s.Inv) : (modLatch s i f).Inv := by
  unfold modLatch
  exact inv_upd hs

theorem inv_tryRelease {s x} (hs : s.Inv) : (tryRelease s x).Inv := by
  unfold tryRelease
  refine inv_ite hs ?_
  split
  · exact inv_raiseLatch hs
  · exact inv_foldl (fun _ _ ht => inv_modWG ht) (inv_modLatch hs)

theorem inv_arriveLatch {s w ent} (hs : s.Inv) : (arriveLatch s w ent).Inv := by
  unfold arriveLatch
  extract_lets waiting k joins x src
  have hsrc : src.Inv := inv_fresh hs
  split
  · extract_lets s1
    have hs1 : s1.Inv := inv_modLatch hs
    split
    · exact inv_tryRelease hs1
    · exact hs1
  · exact inv_tryRelease (inv_upd hsrc)

theorem safe_jointWord {s form f a b} (hs : s.Inv) : Safe (jointWord s form f a b) := by
  unfold jointWord
  split
  · exact safe_next (inv_hold hs)
  · split
    · exact safe_next (inv_hold hs)
    · refine safe_ite (safe_next (inv_hold hs)) ?_
      split
      · exact safe_next (inv_trap hs)
      · exact safe_next (inv_causeTrap hs)
      · refine safe_ite (safe_next (inv_causeTrap hs)) ?_
        extract_lets e s1
        have hs1 : s1.Inv := inv_modCore (inv_fresh (inv_claimTile hs))
        exact safe_next (inv_arriveLatch (inv_parkAll hs1))

theorem safe_execMmaBf16G {f a s} (hs : s.Inv) : Safe (execMmaBf16G f a s) := by
  unfold execMmaBf16G
  exact safe_jointWord hs

theorem safe_execMmaF16G {f a s} (hs : s.Inv) : Safe (execMmaF16G f a s) := by
  unfold execMmaF16G
  exact safe_jointWord hs

theorem safe_execMmaKG {f a s} (hs : s.Inv) : Safe (execMmaKG f a s) := by
  unfold execMmaKG
  exact safe_jointWord hs

theorem safe_execMmaKOlG {f b a s} (hs : s.Inv) : Safe (execMmaKOlG f b a s) := by
  unfold execMmaKOlG
  exact safe_jointWord hs

theorem inv_unparkMember {s c e} (hs : s.Inv) : (unparkMember s c e).Inv := by
  unfold unparkMember
  split
  · exact hs
  · extract_lets m next s1
    have hs1 : s1.Inv := inv_modLF hs
    exact inv_arriveAt (inv_wakeLanes (inv_modMq hs1))

theorem inv_withdrawLane {s c l lane} (hs : s.Inv) : (withdrawLane s c l lane).Inv := by
  unfold withdrawLane
  extract_lets here
  refine inv_foldl ?_ ?_
  · intro t a ht
    extract_lets rest s1 less
    have hs1 : s1.Inv := inv_modCore ht
    exact inv_ite (inv_modMq ht) (inv_upd hs1)
  · exact hs

theorem safe_execGangWatchdogExpiry {i s} (hs : s.Inv) : Safe (execGangWatchdogExpiry i s) := by
  unfold execGangWatchdogExpiry
  split
  · exact safe_next hs
  · extract_lets here
    exact safe_ite (safe_next hs) (safe_next (inv_raiseLatch hs))

/-! ## Canonical memory: Products (R115 to R117, R246, R247) -/

theorem inv_denseStep {s c r form o i} (hs : s.Inv) : (denseStep s c r form o i).Inv := by
  unfold denseStep
  extract_lets t fresh0
  exact inv_foldl (fun _ _ ht => inv_writeLocal ht) hs

/-! ## Canonical memory: Outliers (R117, R247) -/

theorem inv_outlierStep {s c r o x} (hs : s.Inv) : (outlierStep s c r o x).Inv := by
  unfold outlierStep
  extract_lets row col v
  exact inv_writeLocal hs

/-! ## Canonical memory: the work of an entry -/

theorem inv_stepped {s c e n done} (hs : s.Inv) : (stepped s c e n done).Inv := by
  unfold stepped
  exact inv_modMq hs

theorem inv_mmaFail {s c e x} (hs : s.Inv) : (mmaFail s c e x).Inv := by
  unfold mmaFail
  exact inv_mqFault hs

theorem inv_denseRun {s c e form o r} (hs : s.Inv) : (denseRun s c e form o r).Inv := by
  unfold denseRun
  extract_lets n
  exact inv_modMq (inv_stepped (inv_denseStep (inv_claimTile hs)))

theorem inv_listRun {s c e o list r} (hs : s.Inv) : (listRun s c e o list r).Inv := by
  unfold listRun
  split
  · exact inv_stepped hs
  · extract_lets i
    split
    · exact inv_modMq (inv_stepped (inv_outlierStep hs))
    · exact inv_stepped hs
  · exact inv_modMq hs

theorem inv_run {s m} (hs : s.Inv) : (MmaPart.run s m).Inv := by
  unfold MmaPart.run
  exact inv_ite (inv_denseRun hs) (inv_listRun hs)

theorem inv_jointStep {s x} (hs : s.Inv) : (jointStep s x).Inv := by
  unfold jointStep
  extract_lets ms bad
  exact inv_ite hs (inv_ite (inv_foldl (fun _ _ ht => inv_run ht) hs) (inv_foldl (fun _ _ ht => inv_mmaFail ht) hs))

theorem inv_mmaStep {s c e form o list joint} (hs : s.Inv) : (mmaStep s c e form o list joint).Inv := by
  unfold mmaStep
  split
  · exact inv_mmaFail hs
  · refine inv_ite ?_ ?_
    · split
      · exact inv_ite (inv_jointStep hs) hs
      · exact hs
    · extract_lets m
      split
      · exact inv_mmaFail hs
      · exact inv_run hs

theorem inv_readEnd {s c e g va record} (hs : s.Inv) : (readEnd s c e g va record).Inv := by
  unfold readEnd
  split
  · exact inv_mqMemFault hs
  · exact hs

theorem inv_mxldStep {s c e rec va} (hs : s.Inv) : (mxldStep s c e rec va).Inv := by
  unfold mxldStep
  split
  · exact inv_mqFault hs
  · extract_lets v total p n
    split
    · extract_lets q s2
      have hs2 : s2.Inv := by
        unfold s2
        refine inv_ite (inv_writeBehind (inv_snd_snd ‹_› (inv_engineReadRun hs))) ?_
        exact inv_writeBehind (inv_snd_snd ‹_› (inv_engineReadRun hs))
      exact inv_readEnd (inv_stepped hs2)

theorem inv_accLdStep {s c e t va cvt} (hs : s.Inv) : (accLdStep s c e t va cvt).Inv := by
  unfold accLdStep
  refine inv_ite (inv_mqFault hs) ?_
  extract_lets total p n
  split
  · extract_lets q wide s2
    have hs2 : s2.Inv := inv_claimTile (inv_snd_snd ‹_› (inv_engineReadRun hs))
    exact inv_readEnd (inv_stepped (inv_writeLocal hs2))

theorem inv_accStStep {s c e t va cvt} (hs : s.Inv) : (accStStep s c e t va cvt).Inv := by
  unfold accStStep
  refine inv_ite (inv_mqFault hs) ?_
  extract_lets p total a l
  refine inv_ite (inv_mqFault hs) ?_
  split
  · exact inv_snd ‹_› (inv_engineWrite hs)
  · exact inv_mqMemFault (inv_snd ‹_› (inv_engineWrite hs))
  · exact inv_stepped (inv_snd ‹_› (inv_engineWrite hs))

theorem inv_zeroTile {s c t} (hs : s.Inv) : (zeroTile s c t).Inv := by
  unfold zeroTile
  exact inv_writeLocal hs

/-! ## Canonical memory: Words at issue -/

theorem safe_execGroveVt {f b a s} (hs : s.Inv) : Safe (execGroveVt f b a s) := by
  unfold execGroveVt
  refine safe_mqWord64 ?_ ?_
  · exact hs
  · intro a a' a''
    split
    · exact inv_trap hs
    · exact inv_advance (inv_enqueue (inv_claimTable hs))

theorem safe_execGroveSwap {f a s} (hs : s.Inv) : Safe (execGroveSwap f a s) := by
  unfold execGroveSwap
  exact safe_mqWord hs (fun _ _ => inv_ite (inv_operandTrap hs) (inv_ite (inv_causeTrap hs) (inv_advance (inv_enqueue
      (inv_claimTable hs)))))

theorem safe_execGroveRd {d f a s} (hs : s.Inv) : Safe (execGroveRd d f a s) := by
  unfold execGroveRd
  split
  · exact safe_next (inv_hold hs)
  · split
    · exact safe_next (inv_hold hs)
    · refine safe_ite (safe_next (inv_hold hs)) ?_
      refine safe_ite (safe_next (inv_operandTrap hs)) ?_
      split
      · exact safe_next (inv_causeTrap hs)
      · exact safe_next (inv_laneEngineWord hs)

theorem safe_execGroveRow {r f b x s} (hs : s.Inv) : Safe (execGroveRow r f b x s) := by
  unfold execGroveRow
  split
  · exact safe_next (inv_hold hs)
  · split
    · exact safe_next (inv_hold hs)
    · refine safe_ite (safe_next (inv_hold hs)) ?_
      extract_lets eas rows
      split
      · exact safe_next (inv_trap hs)
      · exact safe_next (inv_laneEngineWord hs)

/-! ## Canonical memory: Rows (R118, R255, R408) -/

theorem inv_deliverEntry {s c e vals} (hs : s.Inv) : (deliverEntry s c e vals).Inv := by
  unfold deliverEntry
  exact inv_finishFlags (inv_deliverTo hs)

theorem inv_rowRead {s c e active opd lane va} (hs : s.Inv) : (rowRead s c e active opd lane va).Inv := by
  unfold rowRead
  extract_lets u
  split
  · exact inv_snd_snd ‹_› (inv_engineReadAll hs)
  · exact inv_mqFault (inv_snd_snd ‹_› (inv_engineReadAll hs))
  · extract_lets h t n len format
    have hformat : ∀ (t : State) a a1, t.Inv → (format t a a1).Inv := by
      intro t a a' ht
      unfold format
      exact inv_mqFault ht
    refine inv_ite (hformat _ _ _ (inv_snd_snd ‹_› (inv_engineReadAll hs))) ?_
    refine inv_ite (hformat _ _ _ (inv_snd_snd ‹_› (inv_engineReadAll hs))) ?_
    refine inv_ite (inv_mqFault (inv_snd_snd ‹_› (inv_engineReadAll hs))) ?_
    split
    · exact inv_snd_snd ‹_› (inv_engineReadAll (inv_snd_snd ‹_› (inv_engineReadAll hs)))
    · exact inv_mqFault (inv_snd_snd ‹_› (inv_engineReadAll (inv_snd_snd ‹_› (inv_engineReadAll hs))))
    · extract_lets halves
      split
      · unfold format
        exact inv_mqFault (inv_snd_snd ‹_› (inv_engineReadAll (inv_snd_snd ‹_› (inv_engineReadAll hs))))
      · exact inv_modMq (inv_snd_snd ‹_› (inv_engineReadAll (inv_snd_snd ‹_› (inv_engineReadAll hs))))

theorem inv_groupStep {s c e active lane l} (hs : s.Inv) : (groupStep s c e active lane l).Inv := by
  unfold groupStep
  extract_lets t bank b
  split
  · exact hs
  · exact inv_modMq hs
  · exact inv_ite (inv_mqFault hs) (inv_modMq hs)

theorem inv_rowPart {s c e rows active opds} (hs : s.Inv) : (rowPart s c e rows active opds).Inv := by
  unfold rowPart
  split
  · exact inv_modMq hs
  · exact inv_rowRead hs
  · exact inv_groupStep hs

theorem inv_rowStep {s c e rows} (hs : s.Inv) : (rowStep s c e rows).Inv := by
  unfold rowStep
  split
  · exact inv_ite (inv_deliverEntry (inv_modMq hs)) hs
  · exact hs

/-! ## Canonical memory: GROVE.VT's work (R252) -/

theorem inv_vtStep {s c e ctl x} (hs : s.Inv) : (vtStep s c e ctl x).Inv := by
  unfold vtStep
  extract_lets t bank size total p n
  refine inv_ite (inv_stepped (inv_modCore hs)) ?_
  split
  · extract_lets q vals
    exact inv_readEnd (inv_stepped (inv_writeBehind (inv_snd_snd ‹_› (inv_engineReadRun hs))))

/-! ## Canonical memory: the events of the matrix queue -/

theorem inv_entryStep {s c e} (hs : s.Inv) : (entryStep s c e).Inv := by
  unfold entryStep
  split
  · exact inv_stepped (inv_ite (inv_modCore hs) hs)
  · exact inv_mxldStep hs
  · exact inv_mmaStep hs
  · exact inv_ite (inv_mqFault hs) (inv_stepped (inv_zeroTile (inv_claimTile hs)))
  · exact inv_accLdStep hs
  · exact inv_accStStep hs
  · exact inv_ite (inv_mqFault hs) (inv_stepped (inv_freeTile hs))
  · exact inv_stepped hs
  · exact inv_stepped hs
  · exact inv_stepped hs
  · exact inv_vtStep hs
  · exact inv_stepped (inv_modCore hs)
  · exact inv_rowPart (inv_modMq hs)

theorem inv_startJoint {s c e} (hs : s.Inv) : (startJoint s c e).Inv := by
  unfold startJoint
  split
  · exact hs
  · exact inv_ite (inv_unparkMember (inv_modMq hs)) (inv_tryRelease hs)

theorem inv_startEntry {s c e} (hs : s.Inv) : (startEntry s c e).Inv := by
  unfold startEntry
  split
  · exact inv_spillTrap hs
  · exact inv_ite (inv_startJoint hs) (inv_entryStep hs)

theorem inv_mqStart {s c e} (hs : s.Inv) : (mqStart s c e).Inv := by
  unfold mqStart
  exact inv_ite (inv_startEntry hs) hs

theorem safe_execGroveLaneDone {c i s} (hs : s.Inv) : Safe (execGroveLaneDone c i s) := by
  unfold execGroveLaneDone
  split
  · exact safe_next hs
  · split
    · exact safe_ite (safe_next (inv_rowStep hs)) (safe_next hs)
    · exact safe_next hs

theorem inv_deliverReads {s c e place sel} (hs : s.Inv) : (deliverReads s c e place sel).Inv := by
  unfold deliverReads
  extract_lets bad good s1 m s2 u
  have hs1 : s1.Inv := inv_deliverEntry hs
  have hs2 : s2.Inv := inv_finishFlags (inv_failLanes hs1)
  exact inv_ite hs2 (inv_noteError (inv_raise hs2))

theorem inv_otherFault {s c e x} (hs : s.Inv) : (otherFault s c e x).Inv := by
  unfold otherFault
  split <;> exact inv_mqFault hs

theorem inv_sweepLatches {s} (hs : s.Inv) : (sweepLatches s).Inv := by
  unfold sweepLatches
  exact inv_upd hs

theorem inv_mqFinish {s c e} (hs : s.Inv) : (mqFinish s c e).Inv := by
  unfold mqFinish
  refine inv_ite hs ?_
  split
  · exact inv_otherFault hs
  · extract_lets s1
    have hs1 : s1.Inv := by
      unfold s1
      split
      · exact inv_deliverReads hs
      · exact inv_deliverReads hs
      · exact hs
      · exact inv_finishFlags hs
    exact inv_sweepLatches (inv_dropEntry hs1)

/-! ## Canonical memory: XFER at issue (R277, R278, R280) -/

theorem inv_enterEngine {s u k d e reg flag num} (hs : s.Inv) : (enterEngine s u k d e reg flag num).Inv := by
  unfold enterEngine
  extract_lets op x s1 s2
  have hs1 : s1.Inv := inv_undoShifts (inv_fresh hs)
  have hs2 : s2.Inv := inv_modCore hs1
  exact inv_advance (inv_modLF hs2)

theorem safe_scratchCommand {s r b x ready} {start : Iss → Workgroup → List Byte → ℕ → State} (hs : s.Inv) (hstart : ∀ a a1 a2 a3,
    (start a a1 a2 a3).Inv) :
    Safe (scratchCommand s r b x ready start) := by
  unfold scratchCommand
  split
  · exact safe_next (inv_hold hs)
  · split
    · exact safe_next (inv_hold hs)
    · extract_lets e
      refine safe_ite (safe_next (inv_hold hs)) ?_
      refine safe_ite (safe_next (inv_trap hs)) ?_
      refine safe_ite (safe_next (inv_trap hs)) ?_
      split
      · exact safe_next (inv_trap hs)
      · exact safe_ite (safe_next (inv_trap hs)) (safe_next (hstart _ _ _ _))

theorem safe_execXfer {r f b x s} (hs : s.Inv) : Safe (execXfer r f b x s) := by
  unfold execXfer
  refine safe_scratchCommand ?_ ?_
  · exact hs
  · intro a a' a'' a'''
    split
    · exact inv_trap hs
    · extract_lets n
      exact inv_enterEngine (inv_modCore hs)

/-! ## Canonical memory: COLL at issue (R281, R282, R329) -/

theorem safe_execColl {r f b x s} (hs : s.Inv) : Safe (execColl r f b x s) := by
  unfold execColl
  refine safe_scratchCommand ?_ ?_
  · exact hs
  · intro a a' a'' a'''
    split
    · exact inv_trap hs
    · exact inv_ite (inv_trap hs) (inv_enterEngine (inv_modCore (inv_upd hs)))

/-! ## Canonical memory: Launch records (R23, R302) and LAUNCH (R283) -/

/-- The state in which a read of a record ends. -/
def recordEnd (p : Except State (List Byte) × State) : State :=
  match p.1 with
  | .error t => t
  | .ok _ => p.2

theorem inv_recordEnd_error {t t' : State} (h : t.Inv) : (recordEnd (.error t, t')).Inv := h

theorem inv_recordEnd_readRecord {s u va n} (hs : s.Inv) : (recordEnd (readRecord s u va n)).Inv := by
  unfold readRecord
  extract_lets ctx
  split
  · exact inv_recordEnd_error (inv_hold (inv_snd ‹_› (inv_checkPages hs)))
  · exact inv_recordEnd_error (inv_trap (inv_snd ‹_› (inv_checkPages hs)))
  · exact inv_recordEnd_error (inv_parkCap (inv_snd ‹_› (inv_checkPages hs)))
  · split
    · exact inv_recordEnd_error (inv_hold (inv_snd_snd ‹_› (inv_engineReadAll (inv_snd ‹_› (inv_checkPages hs)))))
    · exact inv_recordEnd_error (inv_trap (inv_snd_snd ‹_› (inv_engineReadAll (inv_snd ‹_› (inv_checkPages hs)))))
    · exact inv_snd_snd ‹_› (inv_engineReadAll (inv_snd ‹_› (inv_checkPages hs)))

theorem inv_readRecord_error {s u va n e t} (hs : s.Inv) (h : readRecord s u va n = (.error e, t)) : e.Inv := by
  have q : (recordEnd (readRecord s u va n)).Inv := inv_recordEnd_readRecord hs
  rw [h] at q
  exact q

theorem inv_readRecord_ok {s u va n l t} (hs : s.Inv) (h : readRecord s u va n = (.ok l, t)) : t.Inv := by
  have q : (recordEnd (readRecord s u va n)).Inv := inv_recordEnd_readRecord hs
  rw [h] at q
  exact q

theorem inv_recordEnd_readDeps {s u va n} (hs : s.Inv) : (recordEnd (readDeps s u va n)).Inv := by
  unfold readDeps
  split
  · exact hs
  · exact inv_recordEnd_readRecord hs

theorem inv_readDeps_error {s u va n e t} (hs : s.Inv) (h : readDeps s u va n = (.error e, t)) : e.Inv := by
  have q : (recordEnd (readDeps s u va n)).Inv := inv_recordEnd_readDeps hs
  rw [h] at q
  exact q

theorem inv_readDeps_ok {s u va n l t} (hs : s.Inv) (h : readDeps s u va n = (.ok l, t)) : t.Inv := by
  have q : (recordEnd (readDeps s u va n)).Inv := inv_recordEnd_readDeps hs
  rw [h] at q
  exact q

theorem safe_execLaunch {r f b x s} (hs : s.Inv) : Safe (execLaunch r f b x s) := by
  unfold execLaunch
  split
  · exact safe_next (inv_hold hs)
  · split
    · exact safe_next (inv_hold hs)
    · extract_lets e va
      refine safe_ite (safe_next (inv_hold hs)) ?_
      refine safe_ite (safe_next (inv_trap hs)) ?_
      split
      · exact safe_next (inv_readRecord_error hs ‹_›)
      · refine safe_ite (safe_next (inv_trap (inv_readRecord_ok hs ‹_›))) ?_
        split
        · exact safe_next (inv_readDeps_error (inv_readRecord_ok hs ‹_›) ‹_›)
        · refine safe_ite ?_ ?_
          · exact safe_next (inv_trap (inv_readDeps_ok (inv_readRecord_ok hs ‹_›) ‹_›))
          · refine safe_ite ?_ ?_
            · exact safe_next (inv_hold (inv_readDeps_ok (inv_readRecord_ok hs ‹_›) ‹_›))
            · extract_lets p n s3
              have hs3 : s3.Inv := inv_upd (inv_readDeps_ok (inv_readRecord_ok hs ‹_›) ‹_›)
              exact safe_next (inv_enterEngine hs3)

/-! ## Canonical memory: Engine operations -/

theorem inv_modEng {s c i f} (hs : s.Inv) : (modEng s c i f).Inv := by
  unfold modEng
  exact inv_modCore hs

theorem inv_engFault {s c e kind detail} (hs : s.Inv) : (engFault s c e kind detail).Inv := by
  unfold engFault
  exact inv_noteError (inv_modEng (inv_raiseCmd hs))

theorem inv_endEngine {s c e} (hs : s.Inv) : (endEngine s c e).Inv := by
  unfold endEngine
  exact inv_finishFlags (inv_deliverTo hs)

theorem inv_dropEngine {s c e} (hs : s.Inv) : (dropEngine s c e).Inv := by
  unfold dropEngine
  exact inv_sweepGone (inv_modCore hs)

/-! ## Canonical memory: Scratchpad addresses of engines -/

theorem inv_scratchWrite {s u cells} (hs : s.Inv) : (scratchWrite s u cells).Inv := by
  unfold scratchWrite
  exact inv_foldl (fun _ _ ht => inv_addReq ht) hs

theorem inv_engineWriteAll {s u va l} (hs : s.Inv) : (engineWriteAll s u va l).2.Inv := by
  unfold engineWriteAll
  extract_lets n
  refine inv_ite_snd (inv_engineWrite hs) ?_
  refine inv_ite_snd hs ?_
  split
  · split
    · exact inv_snd ‹_› (inv_engineWrite (inv_snd ‹_› (inv_engineWrite hs)))
    · exact inv_modCore (inv_snd ‹_› (inv_engineWrite (inv_snd ‹_› (inv_engineWrite hs))))
  · exact inv_engineWrite hs

/-! ## Canonical memory: XFER's parts (R278, R279) -/

theorem inv_readSrc {s u x r} (hs : s.Inv) : (readSrc s u x r).2.2.Inv := by
  unfold readSrc
  split
  · exact hs
  · refine inv_ite_snd_snd ?_ (inv_engineReadAll hs)
    split
    · exact hs
    · extract_lets s1
      have hs1 : s1.Inv := inv_recordRead hs
      refine inv_ite_snd_snd hs1 ?_
      exact hs1

theorem inv_readRuns {u x} {l : List SrcRun} : ∀ {s}, s.Inv → (readRuns s u x l).2.2.2.Inv := by
  induction l with
  | nil =>
    intro s hs
    exact hs
  | cons r t ih =>
    intro s hs
    unfold readRuns
    split
    · have k := ih (inv_snd_snd ‹_› (inv_readSrc (u := u) (x := x) (r := r) hs))
      split
      · rw [‹readRuns _ u x t = _›] at k
        exact k
      · exact k
    · exact inv_snd_snd ‹_› (inv_readSrc hs)

theorem inv_readPart {s u x p} (hs : s.Inv) : (readPart s u x p).2.2.Inv := by
  unfold readPart
  split
  · exact inv_readSrc hs
  · exact inv_snd_snd_snd ‹_› (inv_readRuns hs)

theorem inv_sendPart {s c e x y p} (hs : s.Inv) : (sendPart s c e x y p).Inv := by
  unfold sendPart
  extract_lets u first
  split
  · exact inv_snd_snd ‹_› (inv_readPart hs)
  · exact inv_engFault (inv_snd_snd ‹_› (inv_readPart hs))
  · refine inv_ite ?_ ?_
    · split
      · exact inv_engFault (inv_snd_snd ‹_› (inv_readPart hs))
      · exact inv_modEng (inv_scratchWrite (inv_snd_snd ‹_› (inv_readPart hs)))
    · split
      · exact inv_snd ‹_› (inv_engineWriteAll (inv_snd_snd ‹_› (inv_readPart hs)))
      · exact inv_engFault (inv_snd ‹_› (inv_engineWriteAll (inv_snd_snd ‹_› (inv_readPart hs))))
      · exact inv_modEng (inv_snd ‹_› (inv_engineWriteAll (inv_snd_snd ‹_› (inv_readPart hs))))

theorem inv_addArrival {s c e n} (hs : s.Inv) : InvOpt (addArrival s c e n) := by
  unfold addArrival
  split
  · split
    · extract_lets r
      exact invOpt_ite (invOpt_some (inv_engFault hs)) (invOpt_some (inv_applyWrite hs))
    · exact invOpt_some (inv_engFault hs)
  · exact invOpt_some hs

/-! ## Canonical memory: COLL's work (R282, R427) -/

theorem inv_collRead {s c e x} (hs : s.Inv) : (collRead s c e x).Inv := by
  unfold collRead
  extract_lets total p n
  split
  · extract_lets q s2 s3
    have hs2 : s2.Inv := inv_modEng (inv_snd_snd ‹_› (inv_engineReadRun hs))
    have hs3 : s3.Inv := by
      unfold s3
      exact inv_ite (inv_upd hs2) hs2
    split
    · exact inv_engFault hs3
    · exact hs3

theorem inv_collWrite {s c e x} (hs : s.Inv) : (collWrite s c e x).Inv := by
  unfold collWrite
  extract_lets w va n
  split
  · exact inv_snd ‹_› (inv_engineWrite hs)
  · exact inv_engFault (inv_snd ‹_› (inv_engineWrite hs))
  · exact inv_modEng (inv_snd ‹_› (inv_engineWrite hs))

theorem inv_leaveColl {s x} (hs : s.Inv) : (leaveColl s x).Inv := by
  unfold leaveColl
  extract_lets upd
  exact inv_upd hs

theorem inv_addWord {s c e va inc} (hs : s.Inv) : (addWord s c e va inc).2.Inv := by
  unfold addWord
  extract_lets ctx vpn
  split
  · exact hs
  · refine inv_ite_snd ?_ ?_
    · split <;> exact inv_snd ‹_› (inv_meetCap hs)
    · refine inv_ite_snd hs ?_
      refine inv_ite_snd (inv_yieldDemotion hs) ?_
      split
      · exact hs
      · extract_lets n
        exact inv_ite_snd hs (inv_ite_snd hs (inv_ite_snd (inv_sendSnoops hs) (inv_laneWrite hs)))

theorem inv_completeEngine {s c e inc} (hs : s.Inv) : (completeEngine s c e inc).Inv := by
  unfold completeEngine
  split
  · split
    · exact inv_snd ‹_› (inv_addWord hs)
    · exact inv_engFault (inv_snd ‹_› (inv_addWord hs))
    · exact inv_dropEngine (inv_snd ‹_› (inv_addWord hs))
  · exact inv_dropEngine hs

theorem inv_freeBytes {s ctx va n} (hs : s.Inv) : (freeBytes s ctx va n).Inv := by
  unfold freeBytes
  refine inv_foldl ?_ ?_
  · intro t a ht
    split
    · exact ht
    · extract_lets src
      have hsrc : src.Inv := inv_applyWrite ht
      exact inv_upd hsrc
  · exact hs

theorem inv_absentEnd {s c e x} (hs : s.Inv) : (absentEnd s c e x).Inv := by
  unfold absentEnd
  extract_lets w rest s0 s1 s2 e1
  have hs0 : s0.Inv := inv_modCore hs
  have hs1 : s1.Inv := inv_leaveColl (inv_freeBytes hs0)
  have hs2 : s2.Inv := by
    unfold s2
    split
    · exact inv_some ‹_› (inv_addArrival hs1)
    · exact hs1
  exact inv_completeEngine (inv_modEng (inv_endEngine hs2))

theorem inv_engStart {s c e} (hs : s.Inv) : (engStart s c e).Inv := by
  unfold engStart
  refine inv_ite hs ?_
  split
  · refine inv_ite hs ?_
    split
    · exact hs
    · exact inv_sendPart hs
  · exact inv_ite (inv_absentEnd hs) (inv_ite (inv_collRead hs) (inv_ite (inv_collWrite hs) hs))
  · exact hs

theorem safe_execEngineEntryStart {c i s} (hs : s.Inv) : Safe (execEngineEntryStart c i s) := by
  unfold execEngineEntryStart
  extract_lets t
  have ht : t.Inv := inv_dropFences hs
  split
  · exact safe_next (inv_mqStart ht)
  · exact safe_next (inv_engStart ht)
  · exact safe_next hs

theorem safe_execXferPartApplied {c i s} (hs : s.Inv) : Safe (execXferPartApplied c i s) := by
  unfold execXferPartApplied
  split
  · exact safe_next hs
  · split
    · split
      · exact safe_next hs
      · refine safe_ite (safe_next hs) ?_
        split
        · exact safe_next (inv_some ‹_› (inv_addArrival (inv_modEng hs)))
        · exact safe_next hs
    · exact safe_next hs

theorem safe_execCollChunkDone {c i s} (hs : s.Inv) : Safe (execCollChunkDone c i s) := by
  unfold execCollChunkDone
  split
  · exact safe_next hs
  · split
    · refine safe_ite (safe_next hs) ?_
      split
      · exact safe_next (inv_some ‹_› (inv_addArrival (inv_modEng hs)))
      · exact safe_next hs
    · exact safe_next hs

theorem inv_engFinish {s c e} (hs : s.Inv) : (engFinish s c e).Inv := by
  unfold engFinish
  refine inv_ite hs ?_
  refine inv_ite (inv_completeEngine hs) ?_
  refine inv_ite ?_ hs
  extract_lets s1
  have hs1 : s1.Inv := by
    unfold s1
    split
    · exact inv_leaveColl hs
    · exact hs
  exact inv_completeEngine (inv_modEng (inv_endEngine hs1))

theorem safe_execEngineEntryFinish {c i s} (hs : s.Inv) : Safe (execEngineEntryFinish c i s) := by
  unfold execEngineEntryFinish
  split
  · exact safe_next (inv_mqFinish hs)
  · exact safe_next (inv_engFinish hs)
  · exact safe_next hs

theorem safe_execLaunchRecordCopy {c i s} (hs : s.Inv) : Safe (execLaunchRecordCopy c i s) := by
  unfold execLaunchRecordCopy
  split
  · exact safe_next hs
  · split
    · extract_lets x src s1
      have hsrc : src.Inv := inv_fresh hs
      have hs1 : s1.Inv := inv_upd hsrc
      exact safe_next (inv_checkReady (inv_dropEngine (inv_endEngine hs1)))
    · exact safe_next hs

theorem inv_noteMissed {s c e j} (hs : s.Inv) : (noteMissed s c e j).Inv := by
  unfold noteMissed
  exact inv_modEng hs

theorem safe_execCollMemberAbsent {c i j s} (hs : s.Inv) : Safe (execCollMemberAbsent c i j s) := by
  unfold execCollMemberAbsent
  split
  · exact safe_next hs
  · split
    · refine safe_ite (safe_next hs) ?_
      extract_lets t
      have ht : t.Inv := inv_noteMissed hs
      refine safe_next ?_
      split
      · exact inv_ite (inv_absentEnd ht) ht
      · exact ht
    · exact safe_next hs

theorem inv_replayChunks {s} (hs : s.Inv) : (replayChunks s).Inv := by
  unfold replayChunks
  exact inv_upd hs

theorem safe_execLaneSelB32 {d b a s} (hs : s.Inv) : Safe (execLaneSelB32 d b a s) := by
  unfold execLaneSelB32
  exact safe_next (inv_aluWord hs)

end Sys2Proof.Proofs

end

section

/-! PROOFS. O36, continued: one lemma for each function that a step is made of, in the order of the model. -/

-- The many short proofs are elaborated one after another: at once they would hold more threads than the memory limit allows.
set_option Elab.async false

namespace Sys2Proof.Proofs

open Sys2Proof Sys2Proof.Machine Sys2Proof.Spec

/-! ## Canonical memory: Votes (R197) -/

theorem safe_execVoteAny {d a s} (hs : s.Inv) : Safe (execVoteAny d a s) := by
  unfold execVoteAny
  exact safe_aluAll hs

theorem safe_execVoteAll {d a s} (hs : s.Inv) : Safe (execVoteAll d a s) := by
  unfold execVoteAll
  exact safe_aluAll hs

theorem safe_execVoteBal {d a s} (hs : s.Inv) : Safe (execVoteBal d a s) := by
  unfold execVoteBal
  exact safe_aluAll hs

theorem safe_execVoteUni {d a s} (hs : s.Inv) : Safe (execVoteUni d a s) := by
  unfold execVoteUni
  exact safe_aluAll hs

theorem safe_execElect {d s} (hs : s.Inv) : Safe (execElect d s) := by
  unfold execElect
  exact safe_aluAll hs

/-! ## Canonical memory: Special registers (R20, R198, R299, R371) -/

theorem safe_execSreg {d i s} (hs : s.Inv) : Safe (execSreg d i s) := by
  unfold execSreg
  exact safe_aluAll hs

/-! ## Canonical memory: MSIG and MARK (R272, R273) -/

theorem safe_execMsig {d b a s} (hs : s.Inv) : Safe (execMsig d b a s) := by
  unfold execMsig
  split
  · exact safe_next (inv_hold hs)
  · split
    · refine safe_ite (safe_next (inv_hold hs)) ?_
      refine safe_ite (safe_next (inv_trap hs)) ?_
      exact safe_ite (safe_next (inv_hold hs)) (safe_next (inv_issueVals (inv_ite (inv_modCore hs) hs)))
    · exact safe_next (inv_hold hs)

theorem safe_execMark {a s} (hs : s.Inv) : Safe (execMark a s) := by
  unfold execMark
  split
  · exact safe_next (inv_hold hs)
  · split
    · exact safe_next (inv_hold hs)
    · exact safe_next (inv_advance (inv_foldl (fun _ _ ht => inv_record ht) hs))

/-! ## Canonical memory: Messages to the world outside -/

theorem inv_tell {s m} (hs : s.Inv) : (Machine.tell s m).Inv := by
  unfold Machine.tell
  exact inv_upd hs

/-! ## Canonical memory: Queue registers (R300, R404) -/

theorem inv_modQueue {s q f} (hs : s.Inv) : (modQueue s q f).Inv := by
  unfold modQueue
  exact inv_upd hs

theorem inv_stopQueue {s q tries code} (hs : s.Inv) : (stopQueue s q tries code).Inv := by
  unfold stopQueue
  exact inv_ite hs (inv_tell (inv_modQueue hs))

theorem safe_execQnotifyWrite {q v s} (hs : s.Inv) : Safe (execQnotifyWrite q v s) := by
  unfold execQnotifyWrite
  exact safe_ite (safe_next hs) (safe_ite (safe_next (inv_stopQueue hs)) (safe_next (inv_modQueue hs)))

theorem safe_execQerrWrite {q v s} (hs : s.Inv) : Safe (execQerrWrite q v s) := by
  unfold execQerrWrite
  exact safe_ite (safe_next hs) (safe_next (inv_modQueue hs))

/-! ## Canonical memory: the ring read (R301) -/

theorem inv_schedRead {s ctx va n} (hs : s.Inv) : (schedRead s ctx va n).2.Inv := by
  unfold schedRead
  extract_lets vpn
  refine inv_ite_snd hs ?_
  split
  · exact hs
  · exact hs
  · split
    · exact hs
    · refine inv_ite_snd ?_ ?_
      · split <;> exact inv_snd ‹_› (inv_meetCap hs)
      · refine inv_ite_snd hs ?_
        extract_lets a
        refine inv_ite_snd hs ?_
        split
        · exact hs
        · exact inv_ite_snd hs (inv_ite (inv_moveUnits hs) hs)

theorem inv_hostRead {s pasid va n} (hs : s.Inv) : (hostRead s pasid va n).2.Inv := by
  unfold hostRead
  split
  · exact hs
  · exact inv_ite_snd hs (inv_modCore hs)

theorem inv_failRing {s pasid page} (hs : s.Inv) : (failRing s pasid page).Inv := by
  unfold failRing
  refine inv_foldl ?_ ?_
  · intro t a ht
    extract_lets x
    split
    · exact inv_ite (inv_stopQueue ht) ht
    · exact ht
  · exact hs

/-! ## Canonical memory: Taking an entry (R301, R429) -/

theorem inv_takeEntry {s q x b} (hs : s.Inv) : (takeEntry s q x b).Inv := by
  unfold takeEntry
  extract_lets l d id y src s1 s2
  have hsrc : src.Inv := inv_fresh hs
  have hs1 : s1.Inv := inv_modQueue (inv_upd hsrc)
  have hs2 : s2.Inv := inv_modQueue hs1
  split
  · exact inv_checkReady hs1
  · extract_lets early
    exact inv_checkReady (inv_tell (inv_upd hs2))

theorem inv_staleEntry {s q x} (hs : s.Inv) : (staleEntry s q x).Inv := by
  unfold staleEntry
  exact inv_ite (inv_stopQueue hs) (inv_modQueue hs)

theorem inv_readEntry {s q x} (hs : s.Inv) : (readEntry s q x).Inv := by
  unfold readEntry
  split
  · exact inv_stopQueue hs
  · split
    · exact inv_snd ‹_› (inv_ite_snd (inv_hostRead hs) (inv_schedRead hs))
    · exact inv_stopQueue (inv_snd ‹_› (inv_ite_snd (inv_hostRead hs) (inv_schedRead hs)))
    · refine inv_ite ?_ ?_
      · exact inv_staleEntry (inv_snd ‹_› (inv_ite_snd (inv_hostRead hs) (inv_schedRead hs)))
      · refine inv_ite ?_ ?_
        · exact inv_stopQueue (inv_snd ‹_› (inv_ite_snd (inv_hostRead hs) (inv_schedRead hs)))
        · split
          · exact inv_stopQueue (inv_snd ‹_› (inv_ite_snd (inv_hostRead hs) (inv_schedRead hs)))
          · exact inv_takeEntry (inv_snd ‹_› (inv_ite_snd (inv_hostRead hs) (inv_schedRead hs)))

theorem safe_execQueueEntryFetch {q s} (hs : s.Inv) : Safe (execQueueEntryFetch q s) := by
  unfold execQueueEntryFetch
  extract_lets x
  exact safe_ite (safe_next hs) (safe_next (inv_readEntry hs))

theorem safe_execQueueEntryRefetch {q s} (hs : s.Inv) : Safe (execQueueEntryRefetch q s) := by
  unfold execQueueEntryRefetch
  extract_lets x
  split
  · exact safe_next hs
  · exact safe_ite (safe_next hs) (safe_next (inv_readEntry hs))

/-! ## Canonical memory: Gang launches (R429) -/

theorem safe_execGangAck {q j s} (hs : s.Inv) : Safe (execGangAck q j s) := by
  unfold execGangAck
  split
  · exact safe_next (inv_upd hs)
  · exact safe_ite (safe_next (inv_modQueue hs)) (safe_next hs)

theorem inv_passGang {s i g} (hs : s.Inv) : (passGang s i g).Inv := by
  unfold passGang
  extract_lets gone
  exact inv_upd hs

theorem safe_execGangDeadline {q s} (hs : s.Inv) : Safe (execGangDeadline q s) := by
  unfold execGangDeadline
  exact safe_next (inv_foldl (fun _ _ ht => inv_ite (inv_passGang ht) ht) hs)

/-! ## Canonical memory: Outstanding requests (R340) -/

theorem inv_wakeHost {s c pasid page} (hs : s.Inv) : (wakeHost s c pasid page).Inv := by
  unfold wakeHost
  extract_lets s1 wake
  have hs1 : s1.Inv := by
    unfold s1
    exact inv_ite (inv_foldl (fun _ _ ht => inv_wakeLanes ht) hs) hs
  exact inv_upd hs1

theorem inv_failHostAt {s c l page kind detail pc} (hs : s.Inv) : (failHostAt s c l page kind detail pc).Inv := by
  unfold failHostAt
  split
  · exact hs
  · extract_lets m
    exact inv_raiseParked (inv_modLF hs)

theorem inv_failHost {s c pasid page kind detail pick} (hs : s.Inv) : (failHost s c pasid page kind detail pick).Inv := by
  unfold failHost
  extract_lets s0 s1
  have hs0 : s0.Inv := by
    unfold s0
    exact inv_ite (inv_failRing hs) hs
  have hs1 : s1.Inv := inv_upd hs0
  exact inv_ite (inv_foldl (fun _ _ ht => inv_foldl (fun _ _ ht1 => inv_failHostAt ht1) ht) hs1) hs1

theorem inv_takeFails {s} (hs : s.Inv) : (takeFails s).Inv := by
  unfold takeFails
  extract_lets l
  exact inv_foldl (fun _ _ ht => inv_foldl (fun _ _ ht1 => inv_failHostAt ht1) ht) (inv_upd hs)

theorem inv_dropAts {s c q} (hs : s.Inv) : (dropAts s c q).Inv := by
  unfold dropAts
  exact inv_modCore hs

theorem inv_setAts {s c q r} (hs : s.Inv) : (setAts s c q r).Inv := by
  unfold setAts
  exact inv_modCore hs

theorem inv_sendHeld {s fn} (hs : s.Inv) : (sendHeld s fn).Inv := by
  unfold sendHeld
  refine inv_ite hs ?_
  split
  · exact hs
  · exact inv_setAts hs

theorem inv_askPage {s c q} (hs : s.Inv) : (askPage s c q).Inv := by
  unfold askPage
  extract_lets fn
  exact inv_ite (inv_failHost (inv_dropAts hs)) (inv_setAts hs)

theorem inv_installHost {s c t} (hs : s.Inv) : (installHost s c t).Inv := by
  unfold installHost
  exact inv_modCore hs

theorem inv_grant {s c q hostPage write} (hs : s.Inv) : (grant s c q hostPage write).Inv := by
  unfold grant
  extract_lets s1 s2
  have hs1 : s1.Inv := inv_installHost hs
  have hs2 : s2.Inv := inv_failHost (inv_dropAts hs1)
  exact inv_ite (inv_ite (inv_wakeHost hs2) (inv_askPage hs1)) (inv_wakeHost (inv_dropAts hs1))

theorem safe_execAtsTranslationCompletion {c p st s} (hs : s.Inv) : Safe (execAtsTranslationCompletion c p st s) := by
  unfold execAtsTranslationCompletion
  split
  · exact safe_next hs
  · split
    · exact safe_next (inv_failHost (inv_dropAts hs))
    · exact safe_ite (safe_next (inv_setAts hs)) (safe_next (inv_grant hs))
    · exact safe_ite (safe_next (inv_setAts hs)) (safe_next (inv_askPage hs))

theorem safe_execAtsTimeout {c p s} (hs : s.Inv) : Safe (execAtsTimeout c p s) := by
  unfold execAtsTimeout
  split
  · exact safe_next hs
  · exact safe_ite (safe_next hs) (safe_next (inv_failHost (inv_dropAts hs)))

theorem safe_execPageRequestGroupResponse {c p resp s} (hs : s.Inv) : Safe (execPageRequestGroupResponse c p resp s) := by
  unfold execPageRequestGroupResponse
  split
  · exact safe_next hs
  · extract_lets fn src s1
    have hsrc : src.Inv := inv_dropAts hs
    have hs1 : s1.Inv := by
      unfold s1
      split
      · exact inv_setAts hs
      · exact inv_failHost (inv_dropAts hs)
      · exact inv_failHost (inv_upd hsrc)
    exact safe_next (inv_sendHeld hs1)

/-! ## Canonical memory: Invalidations (R327, R340, R389) -/

theorem safe_execAtsInvalidationRequest {pasid page count s} (hs : s.Inv) :
    Safe (execAtsInvalidationRequest pasid page count s) := by
  unfold execAtsInvalidationRequest
  extract_lets hit s1 users src
  have hs1 : s1.Inv := inv_upd hs
  have hsrc : src.Inv := inv_fresh hs1
  exact safe_ite (safe_next (inv_tell hs1)) (safe_next (inv_upd hsrc))

theorem safe_execInvalidationCompletion {i s} (hs : s.Inv) : Safe (execInvalidationCompletion i s) := by
  unfold execInvalidationCompletion
  split
  · exact safe_next hs
  · exact safe_ite (safe_next hs) (safe_next (inv_tell (inv_upd hs)))

theorem safe_execHostReadTimeout {c op err s} (hs : s.Inv) : Safe (execHostReadTimeout c op err s) := by
  unfold execHostReadTimeout
  split
  · exact safe_next hs
  · refine safe_ite (safe_next hs) ?_
    extract_lets s1 s2 page
    have hs1 : s1.Inv := inv_modCore hs
    have hs2 : s2.Inv := inv_finishFlags (inv_failLanes hs1)
    exact safe_next (inv_raise (inv_regroupTest (inv_dropOp hs2)))

/-! ## Canonical memory: Host accesses to HBM (R325, R326) -/

theorem inv_trackLines {s lines} (hs : s.Inv) : (trackLines s lines).Inv := by
  unfold trackLines
  exact inv_foldl (fun _ _ ht => inv_ite ht (inv_upd (inv_fresh ht))) hs

theorem inv_countHost {s a} (hs : s.Inv) : (countHost s a).Inv := by
  unfold countHost
  exact inv_ite (inv_upd hs) hs

theorem inv_holdHost {s q} (hs : s.Inv) : (holdHost s q).Inv := by
  unfold holdHost
  exact inv_upd hs

theorem inv_countReads {s a n} (hs : s.Inv) : (countReads s a n).Inv := by
  unfold countReads
  exact inv_foldl (fun _ _ ht => inv_ite (inv_moveUnits ht) ht) hs

theorem safe_execHostMemRead {link a n caching s} (hs : s.Inv) : Safe (execHostMemRead link a n caching s) := by
  unfold execHostMemRead
  refine safe_ite (safe_next hs) ?_
  refine safe_ite (safe_fault _) ?_
  refine safe_ite (safe_next (inv_holdHost hs)) ?_
  extract_lets lines out b
  refine safe_ite (safe_next (inv_holdHost (inv_sendSnoops hs))) ?_
  exact safe_next (inv_tell (inv_trackLines (inv_countHost (inv_countReads hs))))

theorem inv_hostBlock {s link block d} (hs : s.Inv) : (hostBlock s link block d).Inv := by
  unfold hostBlock
  extract_lets page n m src
  have hsrc : src.Inv := inv_fresh hs
  exact inv_ite (inv_applyWrite hs) (inv_upd hsrc)

theorem safe_execHostMemWrite {link a data s} (hs : s.Inv) : Safe (execHostMemWrite link a data s) := by
  unfold execHostMemWrite
  refine safe_ite (safe_next hs) ?_
  refine safe_ite (safe_fault _) ?_
  refine safe_ite (safe_next (inv_holdHost hs)) ?_
  exact safe_next (inv_foldl (fun _ _ ht => inv_ite ht (inv_ite (inv_upd ht) (inv_hostBlock ht))) hs)

theorem safe_execBackInvalidateResponse {i s} (hs : s.Inv) : Safe (execBackInvalidateResponse i s) := by
  unfold execBackInvalidateResponse
  split
  · exact safe_next hs
  · exact safe_next (inv_upd hs)

theorem safe_execCxlCacheSnoop {link a s} (hs : s.Inv) : Safe (execCxlCacheSnoop link a s) := by
  unfold execCxlCacheSnoop
  exact safe_next (inv_ite (inv_tell hs) hs)

theorem inv_failBoot {s code block} (hs : s.Inv) : (failBoot s code block).Inv := by
  unfold failBoot
  exact inv_upd hs

theorem inv_placeBlock16 {s blk b} (hs : s.Inv) : (placeBlock16 s blk b).Inv := by
  unfold placeBlock16
  exact inv_foldl (fun _ _ ht => Mem.wf_write _ _ ht) hs

theorem inv_bootFetch {s blk readOk} (hs : s.Inv) : (bootFetch s blk readOk).Inv := by
  unfold bootFetch
  extract_lets x again b placed
  have hagain : ∀ k, (again k).Inv := fun _ => inv_upd hs
  have hplaced : placed.Inv := inv_placeBlock16 hs
  clear_value again placed
  refine inv_ite hs (inv_ite ?_ (inv_ite ?_ (inv_ite ?_ ?_)))
  · exact inv_foldl (fun _ _ ht => inv_startEviction ht) hs
  · exact inv_ite (hagain _) (inv_failBoot hs)
  · exact inv_ite (hagain _) (inv_failBoot hs)
  · exact inv_upd hplaced

theorem safe_execBootBlockFetch {blk readOk s} (hs : s.Inv) : Safe (execBootBlockFetch blk readOk s) := by
  unfold execBootBlockFetch
  exact safe_next (inv_bootFetch hs)

theorem inv_bootRead {s a n} (hs : s.Inv) : (bootRead s a n).2.Inv := by
  unfold bootRead
  exact inv_ite_snd hs (inv_ite_snd hs (inv_bootFetch hs))

theorem inv_modMast {s c f} (hs : s.Inv) : (modMast s c f).Inv := by
  unfold modMast
  exact inv_modCore hs

theorem inv_setX {s c rd v} (hs : s.Inv) : (setX s c rd v).Inv := by
  unfold setX
  exact inv_ite hs (inv_modMast hs)

/-! ## Canonical memory: RISC-V exceptions and interrupts of the Mast (R314, R315, R323; entry 89) -/

theorem inv_mastTrap {s c cause tval} (hs : s.Inv) : (mastTrap s c cause tval).Inv := by
  unfold mastTrap
  exact inv_modMast hs

theorem inv_takeInterrupt {s c i sup} (hs : s.Inv) : (takeInterrupt s c i sup).Inv := by
  unfold takeInterrupt
  extract_lets cause
  exact inv_modMast hs

/-! ## Canonical memory: Access through a context (R312, R318) -/

theorem inv_mastFill {s c ctx vpn e n} (hs : s.Inv) : (mastFill s c ctx vpn e n).Inv := by
  unfold mastFill
  extract_lets who
  exact inv_ite (inv_askPlace hs) (inv_ite (inv_askPlace hs) hs)

theorem inv_mastPlace {s c ctx va len k sup} (hs : s.Inv) : (mastPlace s c ctx va len k sup).2.Inv := by
  unfold mastPlace
  extract_lets vpn
  refine inv_ite_snd hs ?_
  split
  · exact inv_snd ‹_› (inv_fetchTrans hs)
  · split
    · refine inv_ite_snd (inv_snd ‹_› (inv_resolve (inv_snd ‹_› (inv_fetchTrans hs)))) ?_
      refine inv_ite_snd (inv_snd ‹_› (inv_resolve (inv_snd ‹_› (inv_fetchTrans hs)))) ?_
      refine inv_ite_snd ?_ ?_
      · split <;> exact inv_snd ‹_› (inv_meetCap (inv_snd ‹_› (inv_resolve (inv_snd ‹_› (inv_fetchTrans hs)))))
      · split
        · exact inv_snd ‹_› (inv_resolve (inv_snd ‹_› (inv_fetchTrans hs)))
        · exact inv_snd ‹_› (inv_resolve (inv_snd ‹_› (inv_fetchTrans hs)))
        · exact inv_snd ‹_› (inv_resolve (inv_snd ‹_› (inv_fetchTrans hs)))
        · exact inv_forget (inv_snd ‹_› (inv_resolve (inv_snd ‹_› (inv_fetchTrans hs))))
        · exact inv_forget (inv_yieldDemotion (inv_snd ‹_› (inv_resolve (inv_snd ‹_› (inv_fetchTrans hs)))))
        · exact inv_refFrame (inv_snd ‹_› (inv_resolve (inv_snd ‹_› (inv_fetchTrans hs))))
        · refine inv_ite_snd (inv_snd ‹_› (inv_resolve (inv_snd ‹_› (inv_fetchTrans hs)))) ?_
          extract_lets s2 s3 at_
          have hs2 : s2.Inv := inv_mastFill (inv_ite (inv_moveUnits (inv_snd ‹_› (inv_resolve (inv_snd ‹_› (inv_fetchTrans hs)))))
              (inv_snd ‹_› (inv_resolve (inv_snd ‹_› (inv_fetchTrans hs)))))
          have hs3 : s3.Inv := by
            unfold s3
            exact inv_ite (inv_refFrame hs2) hs2
          refine inv_ite_snd ?_ hs3
          split
          · exact inv_ite_snd (inv_sendSnoops hs3) hs3
          · exact hs3

theorem inv_mastRead {s c ctx va len k sup} (hs : s.Inv) : (mastRead s c ctx va len k sup).2.Inv := by
  unfold mastRead
  split
  · exact inv_snd ‹_› (inv_mastPlace hs)
  · exact inv_snd ‹_› (inv_mastPlace hs)
  · exact inv_ite_snd (inv_snd ‹_› (inv_mastPlace hs)) (inv_snd ‹_› (inv_mastPlace hs))

theorem inv_mastWrite {s c ctx va d sup} (hs : s.Inv) : (mastWrite s c ctx va d sup).2.Inv := by
  unfold mastWrite
  split
  · exact inv_snd ‹_› (inv_mastPlace hs)
  · exact inv_snd ‹_› (inv_mastPlace hs)
  · exact inv_laneWrite (inv_snd ‹_› (inv_mastPlace hs))

/-! ## Canonical memory: Notify registers (R321) -/

theorem inv_notifyWrite {s c k v} (hs : s.Inv) : (notifyWrite s c k v).Inv := by
  unfold notifyWrite
  exact inv_ite hs (inv_modMast hs)

theorem safe_execNotifyWrite {x k v s} (hs : s.Inv) : Safe (execNotifyWrite x k v s) := by
  unfold execNotifyWrite
  exact safe_next (inv_ite hs (inv_ite (inv_holdHost hs) (inv_notifyWrite hs)))

theorem safe_serveHost {q s} (hs : s.Inv) : Safe (serveHost q s) := by
  unfold serveHost
  split
  · exact safe_execHostMemRead hs
  · exact safe_execHostMemWrite hs
  · exact safe_execNotifyWrite hs

theorem safe_execMntpendWrite {c v s} (hs : s.Inv) : Safe (execMntpendWrite c v s) := by
  unfold execMntpendWrite
  exact safe_ite (safe_next hs) (safe_ite (safe_next (inv_mastTrap hs)) (safe_next (inv_modMast hs)))

/-! ## Canonical memory: the window onto threads (R316) -/

theorem inv_dropShare {s c l lane calls} (hs : s.Inv) : (dropShare s c l lane calls).Inv := by
  unfold dropShare
  extract_lets less
  exact inv_upd hs

theorem inv_leaveCall {s c l lane} (hs : s.Inv) : (leaveCall s c l lane).Inv := by
  unfold leaveCall
  exact inv_modMast hs

theorem inv_leaveReader {s c l lane} (hs : s.Inv) : (leaveReader s c l lane).Inv := by
  unfold leaveReader
  exact inv_modCore hs

theorem inv_leaveWaits {s c l lane t calls} (hs : s.Inv) : (leaveWaits s c l lane t calls).Inv := by
  unfold leaveWaits
  extract_lets s1 s2
  have hs1 : s1.Inv := inv_leaveReader (inv_dropShare hs)
  have hs2 : s2.Inv := by
    unfold s2
    exact inv_ite (inv_withdrawLane hs1) hs1
  exact inv_ite (inv_leaveCall hs2) hs2

theorem inv_windowRegister {s c l lane w v} (hs : s.Inv) : (windowRegister s c l lane w v).Inv := by
  unfold windowRegister
  split
  · exact hs
  · extract_lets t s1
    have hs1 : s1.Inv := inv_modLF hs
    exact inv_ite hs (inv_ite hs1 (inv_arriveAt (inv_leaveWaits hs1)))

theorem safe_execWindowRegisterWrite {c l lane w v s} (hs : s.Inv) : Safe (execWindowRegisterWrite c l lane w v s) := by
  unfold execWindowRegisterWrite
  exact safe_next (inv_windowRegister hs)

theorem inv_windowEnd {s c l lane} (hs : s.Inv) : (windowEnd s c l lane).Inv := by
  unfold windowEnd
  split
  · exact hs
  · extract_lets t s1
    have hs1 : s1.Inv := inv_modLF hs
    exact inv_ite hs (inv_regroupTest (inv_leaveWaits hs1))

theorem safe_execWindowEnd {c l lane s} (hs : s.Inv) : Safe (execWindowEnd c l lane s) := by
  unfold execWindowEnd
  exact safe_next (inv_windowEnd hs)

theorem inv_windowUnpark {s c l lane} (hs : s.Inv) : (windowUnpark s c l lane).Inv := by
  unfold windowUnpark
  split
  · exact hs
  · extract_lets t m s1 s2
    have hs1 : s1.Inv := inv_modLF (inv_emptyReadAhead (inv_leaveWaits hs))
    have hs2 : s2.Inv := by
      unfold s2
      exact inv_ite (inv_recordPark hs1) hs1
    exact inv_ite hs (inv_arriveAt hs2)

theorem safe_execWindowUnpark {c l lane s} (hs : s.Inv) : Safe (execWindowUnpark c l lane s) := by
  unfold execWindowUnpark
  exact safe_next (inv_windowUnpark hs)

theorem inv_windowStore {s c off v} (hs : s.Inv) : (windowStore s c off v).Inv := by
  unfold windowStore
  refine inv_ite ?_ ?_
  · extract_lets l lane w
    exact inv_ite (inv_windowRegister hs) (inv_ite (inv_ite (inv_windowEnd hs) (inv_ite (inv_windowUnpark hs) hs)) hs)
  · exact inv_ite (inv_notifyWrite hs) (inv_ite (inv_upd hs) (inv_ite (inv_upd hs) hs))

theorem inv_deviceStore {s off v} (hs : s.Inv) : (deviceStore s off v).Inv := by
  unfold deviceStore
  extract_lets r
  exact inv_ite (inv_notifyWrite hs) hs

theorem inv_ioStore {s c a v} (hs : s.Inv) : (ioStore s c a v).Inv := by
  unfold ioStore
  exact inv_ite (inv_windowStore hs) (inv_deviceStore hs)

theorem inv_ioWrite {s c a d} (hs : s.Inv) : (ioWrite s c a d).Inv := by
  unfold ioWrite
  exact inv_ite (inv_ioStore hs) (inv_foldl (fun _ _ ht => inv_ioStore ht) hs)

/-! ## Canonical memory: Loads, stores, AMOs, LR, SC and fences of the Mast (R312, R313) -/

/-- The state in which a load of a Mast ends. -/
def loadEnd (p : Except MastEnd (List Byte) × State) : State :=
  match p.1 with
  | .error e => e.state
  | .ok _ => p.2

theorem inv_ite_load {c : Prop} {inst : Decidable c} {a b : Except MastEnd (List Byte) × State} (ha : (loadEnd a).Inv)
    (hb : (loadEnd b).Inv) : (loadEnd (if c then a else b)).Inv := by
  split
  · exact ha
  · exact hb

theorem inv_loadEnd_mastLoad {s c a n k} (hs : s.Inv) : (loadEnd (mastLoad s c a n k)).Inv := by
  unfold mastLoad
  refine inv_ite_load (inv_mastTrap hs) (inv_ite_load (inv_mastTrap hs) (inv_ite_load ?_ (inv_ite_load ?_ ?_)))
  · split
    · exact hs
    · exact inv_mastTrap hs
    · exact hs
  · split <;> exact inv_snd ‹_› (inv_bootRead hs)
  · split
    · exact inv_mastTrap (inv_snd ‹_› (inv_mastRead hs))
    · exact inv_snd ‹_› (inv_mastRead hs)
    · exact inv_snd ‹_› (inv_mastRead hs)

theorem inv_mastLoad_error {s c a n k e t} (hs : s.Inv) (h : mastLoad s c a n k = (.error e, t)) : e.state.Inv := by
  have q : (loadEnd (mastLoad s c a n k)).Inv := inv_loadEnd_mastLoad hs
  rw [h] at q
  exact q

theorem inv_mastLoad_ok {s c a n k l t} (hs : s.Inv) (h : mastLoad s c a n k = (.ok l, t)) : t.Inv := by
  have q : (loadEnd (mastLoad s c a n k)).Inv := inv_loadEnd_mastLoad hs
  rw [h] at q
  exact q

theorem inv_mastStore {s c n a d} (hs : s.Inv) : (mastStore s c n a d).state.Inv := by
  unfold mastStore
  refine inv_ite_state (inv_mastTrap hs) ?_
  refine inv_ite_state (inv_mastTrap hs) ?_
  refine inv_ite_state ?_ ?_
  · split
    · exact inv_ioWrite hs
    · exact inv_mastTrap hs
    · exact hs
  · split
    · exact inv_mastTrap (inv_snd ‹_› (inv_mastWrite hs))
    · exact inv_snd ‹_› (inv_mastWrite hs)
    · exact inv_snd ‹_› (inv_mastWrite hs)

theorem inv_mastLoadX {s c n a rd signed} (hs : s.Inv) : (mastLoadX s c n a rd signed).state.Inv := by
  unfold mastLoadX
  split
  · exact inv_setX (inv_mastLoad_ok hs ‹_›)
  · exact inv_mastLoad_error hs ‹_›

theorem inv_mastAmo {s c o n aq a d rd} (hs : s.Inv) : (mastAmo s c o n aq a d rd).state.Inv := by
  unfold mastAmo
  split
  · exact inv_mastTrap hs
  · split
    · exact inv_snd ‹_› (inv_mastPlace hs)
    · exact inv_mastTrap (inv_snd ‹_› (inv_mastPlace hs))
    · refine inv_ite_state (inv_mastTrap (inv_snd ‹_› (inv_mastPlace hs))) ?_
      extract_lets old new s2
      have hs2 : s2.Inv := by
        unfold s2
        exact inv_ite (inv_emptyReadAhead (inv_snd ‹_› (inv_mastPlace hs))) (inv_snd ‹_› (inv_mastPlace hs))
      exact inv_setX (inv_laneWrite hs2)

theorem safe_execMastAmo {c o n aq x4 a d rd s} (hs : s.Inv) : Safe (execMastAmo c o n aq x4 a d rd s) := by
  unfold execMastAmo
  exact safe_next (inv_ite hs (inv_mastAmo hs))

theorem inv_mastLr {s c n a rd} (hs : s.Inv) : (mastLr s c n a rd).state.Inv := by
  unfold mastLr
  split
  · exact inv_mastTrap hs
  · split
    · exact inv_snd ‹_› (inv_mastRead hs)
    · exact inv_mastTrap (inv_snd ‹_› (inv_mastRead hs))
    · exact inv_setX (inv_modMast (inv_snd ‹_› (inv_mastRead hs)))

theorem safe_execMastLr {c n a rd s} (hs : s.Inv) : Safe (execMastLr c n a rd s) := by
  unfold execMastLr
  exact safe_next (inv_ite hs (inv_mastLr hs))

theorem inv_mastSc {s c n a d rd} (hs : s.Inv) : (mastSc s c n a d rd).state.Inv := by
  unfold mastSc
  split
  · exact inv_mastTrap hs
  · extract_lets clear
    have hclear : ∀ (t : State), t.Inv → (clear t).Inv := by
      intro t ht
      unfold clear
      exact inv_modMast ht
    refine inv_ite_state (inv_setX (hclear _ hs)) ?_
    split
    · exact inv_snd ‹_› (inv_mastWrite hs)
    · exact inv_mastTrap (hclear _ (inv_snd ‹_› (inv_mastWrite hs)))
    · exact inv_setX (hclear _ (inv_snd ‹_› (inv_mastWrite hs)))

theorem safe_execMastSc {c n a d rd s} (hs : s.Inv) : Safe (execMastSc c n a d rd s) := by
  unfold execMastSc
  exact safe_next (inv_ite hs (inv_mastSc hs))

theorem safe_execMastFence {c x1 s} (hs : s.Inv) : Safe (execMastFence c x1 s) := by
  unfold execMastFence
  exact safe_ite (safe_next hs) (safe_next (inv_emptyReadAhead hs))

/-! ## Canonical memory: Messages (R320) and the call ring (R270, R271, R317, R319, R335) -/

theorem inv_popMessage {s c} (hs : s.Inv) : (popMessage s c).2.Inv := by
  unfold popMessage
  split
  · exact hs
  · exact inv_modMast hs

theorem inv_popCall {s c} (hs : s.Inv) : (popCall s c).2.Inv := by
  unfold popCall
  split
  · exact hs
  · exact inv_modMast hs

theorem inv_popInto {s c rd} {pop : State → ℕ → DWord × State} (hs : s.Inv) (hpop : ∀ (t : State) a, t.Inv → (pop t a).2.Inv) :
    (popInto s c rd pop).Inv := by
  unfold popInto
  exact inv_ite hs (inv_ite (inv_mastTrap hs) (inv_setX (hpop _ _ hs)))

theorem safe_execMmsgaRead {c rd s} (hs : s.Inv) : Safe (execMmsgaRead c rd s) := by
  unfold execMmsgaRead
  exact safe_next (inv_popInto hs (fun _ _ ht => inv_popMessage ht))

theorem safe_execMcallqRead {c rd s} (hs : s.Inv) : Safe (execMcallqRead c rd s) := by
  unfold execMcallqRead
  exact safe_next (inv_popInto hs (fun _ _ ht => inv_popCall ht))

theorem inv_writeCall {s u n key dirty d} (hs : s.Inv) : (writeCall s u n key dirty d).Inv := by
  unfold writeCall
  exact inv_modLF (inv_laneWrite hs)

theorem inv_postCall {s u slot op} (hs : s.Inv) : (postCall s u slot op).Inv := by
  unfold postCall
  extract_lets s3 src s4 pc s5
  have hs3 : s3.Inv := inv_modMast hs
  have hsrc : src.Inv := inv_fresh hs3
  have hs4 : s4.Inv := inv_upd hsrc
  have hs5 : s5.Inv := inv_modLF hs4
  exact inv_endClause (inv_recordPark hs5)

theorem inv_callGo {s u h slot} (hs : s.Inv) : (callGo s u h slot).Inv := by
  unfold callGo
  refine inv_ite (inv_ite hs (inv_postCall hs)) ?_
  refine inv_ite (inv_dropFences hs) ?_
  refine inv_ite hs ?_
  split
  · exact hs
  · split
    · exact inv_snd ‹_› (inv_mastPlace hs)
    · exact inv_ite (inv_snd ‹_› (inv_mastPlace hs)) (inv_trap (inv_snd ‹_› (inv_mastPlace hs)))
    · exact inv_writeCall (inv_snd ‹_› (inv_mastPlace hs))

theorem safe_execCallRingPost {c l s} (hs : s.Inv) : Safe (execCallRingPost c l s) := by
  unfold execCallRingPost
  split
  · exact safe_next hs
  · split
    · exact safe_ite (safe_next hs) (safe_next (inv_callGo (inv_modLF hs)))
    · exact safe_next hs

theorem inv_returnWords {c slot} {l : List Nat} : ∀ {s}, s.Inv → (returnWords s c slot l).2.Inv := by
  induction l with
  | nil =>
    intro s hs
    exact hs
  | cons i r ih =>
    intro s hs
    unfold returnWords
    split
    · exact inv_snd ‹_› (inv_mastRead hs)
    · exact inv_snd ‹_› (inv_mastRead hs)
    · split
      · exact inv_snd ‹_› (ih (inv_snd ‹_› (inv_mastRead hs)))
      · exact ih (inv_snd ‹_› (inv_mastRead hs))

theorem inv_undoReturn {s c l m pc} (hs : s.Inv) : (undoReturn s c l m pc).Inv := by
  unfold undoReturn
  split
  · exact hs
  · exact inv_foldl (fun _ _ ht => inv_undoLog ht) hs

theorem inv_returnCall {s c slot l m v} (hs : s.Inv) : (returnCall s c slot l m v).Inv := by
  unfold returnCall
  extract_lets pc s1 s2
  have hs1 : s1.Inv := inv_modLF (inv_undoReturn hs)
  have hs2 : s2.Inv := inv_modMast (inv_upd hs1)
  exact inv_arriveAt (inv_wakeLanes (inv_emptyReadAhead hs2))

theorem inv_syscallReturn {s c slot x f} (hs : s.Inv) : (syscallReturn s c slot x f).Inv := by
  unfold syscallReturn
  extract_lets m fail
  refine inv_ite hs ?_
  split
  · exact inv_snd ‹_› (inv_mastRead hs)
  · unfold fail
    exact inv_ite (inv_snd ‹_› (inv_mastRead hs)) (inv_raise (inv_snd ‹_› (inv_mastRead hs)))
  · refine inv_ite ?_ ?_
    · extract_lets old src
      have hsrc : src.Inv := inv_fresh (inv_snd ‹_› (inv_mastRead hs))
      exact inv_upd hsrc
    · split
      · exact inv_snd ‹_› (inv_returnWords (inv_snd ‹_› (inv_mastRead hs)))
      · unfold fail
        refine inv_ite (inv_snd ‹_› (inv_returnWords (inv_snd ‹_› (inv_mastRead hs)))) ?_
        exact inv_raise (inv_snd ‹_› (inv_returnWords (inv_snd ‹_› (inv_mastRead hs))))
      · exact inv_returnCall (inv_snd ‹_› (inv_returnWords (inv_snd ‹_› (inv_mastRead hs))))

theorem safe_execSyscallReturn {c slot s} (hs : s.Inv) : Safe (execSyscallReturn c slot s) := by
  unfold execSyscallReturn
  split
  · refine safe_ite (safe_next hs) ?_
    split
    · exact safe_next hs
    · exact safe_next (inv_syscallReturn hs)
  · exact safe_next hs

/-! ## Canonical memory: Which context comes next (R307) -/

theorem inv_visited {s v} (hs : s.Inv) : (visited s v).Inv := by
  unfold visited
  exact inv_upd hs

/-! ## Canonical memory: the switch (R308) -/

theorem inv_sliceRecord {s old new phase} (hs : s.Inv) : (sliceRecord s old new phase).Inv := by
  unfold sliceRecord
  exact inv_foldl (fun _ _ ht => inv_record ht) hs

theorem inv_beginSwitch {s} (hs : s.Inv) : (beginSwitch s).Inv := by
  unfold beginSwitch
  split
  · exact hs
  · extract_lets v s1 s2
    have hs1 : s1.Inv := by
      unfold s1
      clear_value v
      split
      · exact inv_visited hs
      · exact inv_upd hs
    have hs2 : s2.Inv := inv_sliceRecord hs1
    exact inv_upd hs2

theorem inv_saveBytes {s key dst l} (hs : s.Inv) : (saveBytes s key dst l).Inv := by
  unfold saveBytes
  extract_lets n
  exact inv_ite hs (inv_storeUnder (inv_moveRange hs))

theorem inv_saveCore {d s c} (hs : s.Inv) : (saveCore d s c).Inv := by
  unfold saveCore
  extract_lets key s1 s2 s3
  have hs1 : s1.Inv := inv_foldl (fun _ _ ht => inv_saveCopy ht) hs
  have hs2 : s2.Inv := inv_saveCopy (inv_saveCopy hs1)
  have hs3 : s3.Inv := inv_saveBytes hs2
  exact inv_foldl (fun _ _ ht => inv_saveBytes ht) hs3

theorem inv_saveContext {s d} (hs : s.Inv) : (saveContext s d).Inv := by
  unfold saveContext
  extract_lets gone s1
  have hs1 : s1.Inv := inv_foldl (fun _ _ ht => inv_saveCore ht) hs
  exact wf_foldl (fun _ _ hm => Mem.wf_clear _ _ hm) hs1

theorem inv_rearmCalls {s} (hs : s.Inv) : (rearmCalls s).Inv := by
  unfold rearmCalls
  refine inv_foldl ?_ ?_
  · intro t a ht
    refine inv_foldl ?_ ?_
    · intro t1 a1 ht1
      refine inv_ite ?_ ht1
      extract_lets t' m src
      have ht' : t'.Inv := inv_emptyReadAhead ht1
      have hsrc : src.Inv := inv_fresh ht'
      exact inv_upd hsrc
    · exact ht
  · exact hs

theorem inv_wakeWoken {s} (hs : s.Inv) : (wakeWoken s).Inv := by
  unfold wakeWoken
  exact inv_foldl (fun _ _ ht => inv_foldl (fun _ _ ht1 => inv_foldl (fun _ _ ht2 => inv_wakeLanes ht2) ht1) ht) hs

theorem inv_lostStop {s c} (hs : s.Inv) : (lostStop s c).Inv := by
  unfold lostStop
  exact inv_ite (inv_raise (inv_upd hs)) hs

theorem inv_restoreContext {s ctx quant old} (hs : s.Inv) : (restoreContext s ctx quant old).Inv := by
  unfold restoreContext
  split
  · exact hs
  · extract_lets img back s1 s2 s3 s4
    have hs1 : s1.Inv := wf_foldl (fun _ _ hm => Mem.wf_restore _ hm) hs
    have hs2 : s2.Inv := inv_wakeWoken (inv_sliceRecord hs1)
    have hs3 : s3.Inv := inv_wakeWhere hs2
    have hs4 : s4.Inv := inv_takeFails (inv_checkReady (inv_rearmCalls hs3))
    exact inv_lostStop hs4

theorem inv_finishSwitch {s sl} (hs : s.Inv) : (finishSwitch s sl).Inv := by
  unfold finishSwitch
  extract_lets s1
  have hs1 : s1.Inv := inv_saveContext hs
  split
  · exact hs1
  · exact inv_restoreContext hs1

theorem inv_beginSlice {s} (hs : s.Inv) : (beginSlice s).Inv := by
  unfold beginSlice
  split
  · exact hs
  · refine inv_restoreContext ?_
    extract_lets src
    have hsrc : src.Inv := inv_visited hs
    exact inv_upd hsrc

/-! ## Canonical memory: the end of a slice -/

theorem safe_execSliceExpiry {s} (hs : s.Inv) : Safe (execSliceExpiry s) := by
  unfold execSliceExpiry
  split
  · exact safe_next (inv_beginSlice hs)
  · exact safe_next hs
  · exact safe_ite (safe_next (inv_ite (inv_finishSwitch hs) hs)) (safe_next (inv_ite (inv_beginSwitch hs) hs))
  · exact safe_next (inv_ite (inv_upd hs) hs)

theorem safe_execSliceIdleEnd {s} (hs : s.Inv) : Safe (execSliceIdleEnd s) := by
  unfold execSliceIdleEnd
  split
  · exact safe_next hs
  · refine safe_ite (safe_next hs) ?_
    refine safe_ite (safe_next (inv_upd hs)) ?_
    split
    · exact safe_next (inv_upd hs)
    · exact safe_next (inv_ite (inv_beginSwitch hs) hs)

/-! ## Canonical memory: the halt line (R357 to R361) -/

theorem inv_haltRecord {s c engine lf lanes pc detail} (hs : s.Inv) : (haltRecord s c engine lf lanes pc detail).Inv := by
  unfold haltRecord
  exact inv_record hs

theorem inv_haltBundles {s c} (hs : s.Inv) : (haltBundles s c).Inv := by
  unfold haltBundles
  refine inv_foldl ?_ ?_
  · intro t a ht
    split
    · exact ht
    · exact inv_haltRecord ht
  · exact hs

theorem inv_faultUnitHalt {k s c} (hs : s.Inv) : (faultUnitHalt k s c).Inv := by
  unfold faultUnitHalt
  refine inv_ite hs ?_
  split
  · exact inv_record hs
  · exact hs

theorem inv_haltEngines {s c} (hs : s.Inv) : (haltEngines s c).Inv := by
  unfold haltEngines
  extract_lets k unit engine
  have hunit : ∀ a (t : State), t.Inv → (unit a t).Inv := by
    intro a t ht
    unfold unit
    refine inv_ite ht ?_
    split
    · exact inv_haltRecord ht
    · exact ht
  have hengine : ∀ a (t : State), t.Inv → (engine a t).Inv := by
    intro a t ht
    unfold engine
    refine inv_ite ht ?_
    split
    · exact inv_haltRecord ht
    · exact ht
  exact inv_faultUnitHalt (hengine _ _ (hengine _ _ (hunit _ _ (hunit _ _ hs))))

theorem inv_haltArrive {s c} (hs : s.Inv) : (haltArrive s c).Inv := by
  unfold haltArrive
  split
  · exact hs
  · refine inv_ite hs ?_
    extract_lets s1 s2
    have hs1 : s1.Inv := inv_haltEngines (inv_haltBundles hs)
    have hs2 : s2.Inv := inv_modCore hs1
    exact inv_upd hs2

theorem safe_execHaltLineArrive {c skid s} (hs : s.Inv) : Safe (execHaltLineArrive c skid s) := by
  unfold execHaltLineArrive
  split
  · exact safe_next hs
  · exact safe_ite (safe_next (inv_haltArrive hs)) (safe_next hs)

theorem inv_settle {s} (hs : s.Inv) : (settle s).Inv := by
  unfold settle
  exact inv_foldl (fun _ _ ht => inv_haltArrive ht) hs

theorem inv_raiseBare {s kind c engine detail} (hs : s.Inv) : (raiseBare s kind c engine detail).Inv := by
  unfold raiseBare
  exact inv_raise hs

/-! ## Canonical memory: the mailbox's answers (R328) -/

theorem inv_setArgs {s l} (hs : s.Inv) : (setArgs s l).Inv := by
  unfold setArgs
  exact inv_upd hs

theorem inv_begun {s args} (hs : s.Inv) : (begun s args).Inv := by
  unfold begun
  extract_lets src
  have hsrc : src.Inv := inv_setArgs hs
  exact inv_upd hsrc

theorem safe_command {s m code args} {f : State → State} (hs : s.Inv) (hf : ∀ (t : State), t.Inv → (f t).Inv) :
    Safe (command s m code args f) := by
  unfold command
  exact safe_next (inv_ite (inv_ite (inv_upd (hf _ (inv_begun hs))) (hf _ (inv_begun hs))) hs)

theorem inv_answer {s code l} (hs : s.Inv) : (answer s code l).Inv := by
  unfold answer
  extract_lets src
  have hsrc : src.Inv := inv_setArgs hs
  exact inv_upd hsrc

theorem inv_answerOpen {s} (hs : s.Inv) : (answerOpen s).Inv := by
  unfold answerOpen
  exact inv_upd hs

/-! ## Canonical memory: Resuming (R365, R370, R372) -/

theorem inv_readyToGo {s} (hs : s.Inv) : (readyToGo s).Inv := by
  unfold readyToGo
  extract_lets step l ls cs
  exact inv_upd hs

theorem inv_resume {s p} (hs : s.Inv) : (resume s p).Inv := by
  unfold resume
  extract_lets s1 late
  have hs1 : s1.Inv := inv_unstop (inv_readyToGo (inv_settle hs))
  exact inv_ite (inv_beginSwitch hs1) (inv_checkReady hs1)

theorem inv_writeResume {s mast} (hs : s.Inv) : (writeResume s mast).Inv := by
  unfold writeResume
  split
  · exact hs
  · exact inv_ite hs (inv_resume hs)

theorem inv_haltWrite {s c} {f : State → State} (hs : s.Inv) (hf : ∀ (t : State), t.Inv → (f t).Inv) : (haltWrite s c f).Inv := by
  unfold haltWrite
  exact inv_ite hs (inv_ite (inv_mastTrap hs) (hf _ hs))

theorem safe_execContextResume {w s} (hs : s.Inv) : Safe (execContextResume w s) := by
  unfold execContextResume
  split
  · exact safe_next (inv_haltWrite hs (fun _ ht => inv_writeResume ht))
  · exact safe_command hs (fun _ ht => inv_answer (inv_writeResume ht))

/-! ## Canonical memory: Ending a context (R366) -/

theorem inv_freeTiles {s ctx} (hs : s.Inv) : (freeTiles s ctx).Inv := by
  unfold freeTiles
  extract_lets s1
  have hs1 : s1.Inv := inv_foldl (fun _ _ ht => inv_freeTile ht) hs
  exact inv_upd hs1

theorem inv_endWork {s ctx} (hs : s.Inv) : (endWork s ctx).Inv := by
  unfold endWork
  exact inv_upd hs

theorem inv_endRunning {s} (hs : s.Inv) : (endRunning s).Inv := by
  unfold endRunning
  extract_lets ctx s1 m1
  have hs1 : s1.Inv := inv_endWork (inv_freeTiles hs)
  exact Mem.wf_clear _ _ (Mem.wf_clear _ _ hs1)

theorem inv_endSaved {s ctx} (hs : s.Inv) : (endSaved s ctx).Inv := by
  unfold endSaved
  extract_lets s1
  have hs1 : s1.Inv := inv_endWork (inv_freeTiles hs)
  exact inv_upd hs1

theorem inv_leaveStop {s} (hs : s.Inv) : (leaveStop s).Inv := by
  unfold leaveStop
  exact inv_beginSwitch (inv_unstop (inv_upd hs))

theorem inv_endStopped {s capsule flags} (hs : s.Inv) : (endStopped s capsule flags).Inv := by
  unfold endStopped
  split
  · exact hs
  · extract_lets s1 src
    have hs1 : s1.Inv := inv_settle hs
    have hsrc : src.Inv := inv_endRunning hs1
    exact inv_ite (inv_upd hsrc) (inv_leaveStop (inv_endRunning hs1))

theorem inv_writeEnd {s} (hs : s.Inv) : (writeEnd s).Inv := by
  unfold writeEnd
  exact inv_ite hs (inv_ite (inv_endStopped hs) (inv_endStopped (inv_raiseBare hs)))

theorem safe_execContextEnd {w s} (hs : s.Inv) : Safe (execContextEnd w s) := by
  unfold execContextEnd
  split
  · exact safe_next (inv_haltWrite hs (fun _ ht => inv_writeEnd ht))
  · exact safe_command hs (fun _ ht => inv_answer (inv_writeEnd ht))

theorem safe_execHaltStatusRead {m s} (hs : s.Inv) : Safe (execHaltStatusRead m s) := by
  unfold execHaltStatusRead
  exact safe_command hs (fun _ ht => inv_answer ht)

/-! ## Canonical memory: Debugging (R367) -/

theorem inv_haltNow {s} (hs : s.Inv) : (haltNow s).Inv := by
  unfold haltNow
  exact inv_ite (inv_raiseBare hs) hs

theorem inv_clearLogs {s} (hs : s.Inv) : (clearLogs s).Inv := by
  unfold clearLogs
  extract_lets wipe
  exact inv_upd hs

theorem inv_writeDbgctl {s v} (hs : s.Inv) : (writeDbgctl s v).Inv := by
  unfold writeDbgctl
  extract_lets t
  have ht : t.Inv := inv_clearLogs (inv_upd hs)
  exact inv_ite (inv_haltNow ht) ht

theorem safe_execDbgctlWrite {m v s} (hs : s.Inv) : Safe (execDbgctlWrite m v s) := by
  unfold execDbgctlWrite
  exact safe_command hs (fun _ ht => inv_answer (inv_writeDbgctl ht))

theorem safe_execDbgctlRead {m s} (hs : s.Inv) : Safe (execDbgctlRead m s) := by
  unfold execDbgctlRead
  exact safe_command hs (fun _ ht => inv_answer ht)

theorem safe_execHaltreq {m s} (hs : s.Inv) : Safe (execHaltreq m s) := by
  unfold execHaltreq
  exact safe_command hs (fun _ ht => inv_answer (inv_haltNow (inv_clearLogs ht)))

theorem safe_execUndoLogClear {m undo s} (hs : s.Inv) : Safe (execUndoLogClear m undo s) := by
  unfold execUndoLogClear
  exact safe_command hs (fun _ ht => inv_answer (inv_clearLogs (inv_upd ht)))

/-! ## Canonical memory: Stepping back (R368, R369) -/

theorem inv_undoHbm {s n va d} (hs : s.Inv) : (undoHbm s n va d).Inv := by
  unfold undoHbm
  extract_lets o src
  have hsrc : src.Inv := inv_fresh hs
  exact inv_upd hsrc

theorem inv_undoWrite {s wg addr mask old} (hs : s.Inv) : (undoWrite s wg addr mask old).Inv := by
  unfold undoWrite
  extract_lets d va
  refine inv_ite ?_ ?_
  · split
    · exact hs
    · split
      · exact hs
      · exact inv_applyWrite hs
  · split
    · exact hs
    · exact inv_ite (inv_undoHbm hs) (inv_applyWrite hs)

theorem inv_undoOne {s c l f e} (hs : s.Inv) : (undoOne s c l f e).Inv := by
  unfold undoOne
  extract_lets x lane which old pc
  split
  · exact inv_modLF hs
  · exact inv_modLF hs
  · exact inv_modLF hs
  · exact inv_undoWrite hs
  · exact hs

theorem inv_stepBack {s c l k f} (hs : s.Inv) : (stepBack s c l k f).Inv := by
  unfold stepBack
  extract_lets es s1
  have hs1 : s1.Inv := inv_foldl (fun _ _ ht => inv_undoOne ht) hs
  exact inv_arriveAt (inv_modLF hs1)

theorem safe_execStepBack {m c l k s} (hs : s.Inv) : Safe (execStepBack m c l k s) := by
  unfold execStepBack
  refine safe_command ?_ ?_
  · exact hs
  · intro t ht
    refine inv_ite (inv_answerOpen ht) ?_
    split
    · exact inv_answer (inv_stepBack ht)
    · exact inv_answer ht

/-! ## Canonical memory: HBM as the mailbox reaches it -/

theorem inv_hbmStorePage {s a l} (hs : s.Inv) : (hbmStorePage s a l).Inv := by
  unfold hbmStorePage
  exact inv_applyWrite (inv_ite (inv_moveUnits hs) hs)

theorem inv_hbmStore {s a l} (hs : s.Inv) : (hbmStore s a l).Inv := by
  unfold hbmStore
  exact inv_foldl (fun _ _ ht => inv_hbmStorePage ht) hs

theorem inv_storeCommand {s a l} {done : State → State} (hs : s.Inv) (hdone : ∀ (t : State), t.Inv → (done t).Inv) :
    (storeCommand s a l done).Inv := by
  unfold storeCommand
  exact inv_ite (inv_answerOpen hs) (inv_ite hs (inv_ite (inv_sendSnoops hs) (hdone _ (inv_hbmStore hs))))

/-! ## Canonical memory: Capability, tables, die state, measurement, BOOTADDR (R328) -/

theorem safe_execReadCapabilityWord {m s} (hs : s.Inv) : Safe (execReadCapabilityWord m s) := by
  unfold execReadCapabilityWord
  exact safe_command hs (fun _ ht => inv_answer ht)

theorem safe_execSetCtxtab {m a0 s} (hs : s.Inv) : Safe (execSetCtxtab m a0 s) := by
  unfold execSetCtxtab
  exact safe_command hs (fun _ ht => inv_ite (inv_answerOpen ht) (inv_answer (inv_upd ht)))

theorem safe_execWriteQuantumEntry {m fn entry v s} (hs : s.Inv) : Safe (execWriteQuantumEntry m fn entry v s) := by
  unfold execWriteQuantumEntry
  exact safe_command hs (fun _ ht => inv_ite (inv_answerOpen ht) (inv_answer (inv_upd ht)))

theorem safe_execWriteFabricGroup {m group a1 a2 a3 a4 s} (hs : s.Inv) : Safe (execWriteFabricGroup m group a1 a2 a3 a4 s) := by
  unfold execWriteFabricGroup
  exact safe_command hs (fun _ ht => inv_ite (inv_answerOpen ht) (inv_answer (inv_upd ht)))

theorem safe_execWriteHostKeyTable {m granule key s} (hs : s.Inv) : Safe (execWriteHostKeyTable m granule key s) := by
  unfold execWriteHostKeyTable
  exact safe_command hs (fun _ ht => inv_ite (inv_answerOpen ht) (inv_answer (inv_upd ht)))

theorem safe_execReadDieState {m die s} (hs : s.Inv) : Safe (execReadDieState m die s) := by
  unfold execReadDieState
  exact safe_command hs (fun _ ht => inv_ite (inv_answer ht) (inv_answer ht))

theorem safe_execReadMeasurement {m s} (hs : s.Inv) : Safe (execReadMeasurement m s) := by
  unfold execReadMeasurement
  exact safe_command hs (fun _ ht => inv_answer ht)

theorem safe_execWriteBootaddr {m a0 s} (hs : s.Inv) : Safe (execWriteBootaddr m a0 s) := by
  unfold execWriteBootaddr
  exact safe_command hs (fun _ ht => inv_ite (inv_answer ht) (inv_answer (inv_upd ht)))

/-! ## Canonical memory: the recorder (R351, R354, R355) -/

theorem safe_execCopyRecords {m a0 a1 a2 a3 s} (hs : s.Inv) : Safe (execCopyRecords m a0 a1 a2 a3 s) := by
  unfold execCopyRecords
  exact safe_command hs (fun _ ht => inv_ite (inv_answer ht) (inv_storeCommand ht (fun _ ht1 => inv_answer ht1)))

theorem safe_execReadSealWord {m a0 s} (hs : s.Inv) : Safe (execReadSealWord m a0 s) := by
  unfold execReadSealWord
  exact safe_command hs (fun _ ht => inv_ite (inv_answer ht) (inv_answer ht))

theorem inv_modRecorders {s a0 f} (hs : s.Inv) : (modRecorders s a0 f).Inv := by
  unfold modRecorders
  exact inv_foldl (fun _ _ ht => inv_ite (inv_modRcd ht) ht) hs

theorem safe_execRearmCapture {m a0 s} (hs : s.Inv) : Safe (execRearmCapture m a0 s) := by
  unfold execRearmCapture
  exact safe_command hs (fun _ ht => inv_ite (inv_answer ht) (inv_answer (inv_modRecorders ht)))

theorem safe_execWriteRctl {m a0 v s} (hs : s.Inv) : Safe (execWriteRctl m a0 v s) := by
  unfold execWriteRctl
  exact safe_command hs (fun _ ht => inv_ite (inv_answer ht) (inv_answer (inv_modRecorders ht)))

theorem safe_execReadRctl {m a0 s} (hs : s.Inv) : Safe (execReadRctl m a0 s) := by
  unfold execReadRctl
  exact safe_command hs (fun _ ht => inv_ite (inv_answer ht) (inv_answer ht))

/-! ## Canonical memory: Placement, the capacity tier, keys (R382, R384, R386, R390) -/

theorem safe_execAbandonBusySequence {m ctx va s} (hs : s.Inv) : Safe (execAbandonBusySequence m ctx va s) := by
  unfold execAbandonBusySequence
  refine safe_command ?_ ?_
  · exact hs
  · intro t ht
    split
    · exact inv_answer ht
    · exact inv_answer (inv_some ‹_› (inv_abandonBusy ht))

theorem safe_execSetMirrorRange {m a0 a1 a2 a3 s} (hs : s.Inv) : Safe (execSetMirrorRange m a0 a1 a2 a3 s) := by
  unfold execSetMirrorRange
  exact safe_command hs (fun _ ht => inv_ite (inv_answer (inv_upd ht)) (inv_ite (inv_answer ht) (inv_answer (inv_upd ht))))

theorem safe_execReadPoisonEntry {m entry s} (hs : s.Inv) : Safe (execReadPoisonEntry m entry s) := by
  unfold execReadPoisonEntry
  refine safe_command ?_ ?_
  · exact hs
  · intro t ht
    split
    · exact inv_answer ht
    · exact inv_answer (inv_upd ht)

theorem safe_execClearPoisonEntry {m entry s} (hs : s.Inv) : Safe (execClearPoisonEntry m entry s) := by
  unfold execClearPoisonEntry
  refine safe_command ?_ ?_
  · exact hs
  · intro t ht
    split
    · exact inv_answer ht
    · extract_lets t'
      have ht' : t'.Inv := inv_releasePage (inv_upd ht)
      exact inv_answer (inv_upd ht')

theorem safe_execWriteKeySlot {m a0 a1 s} (hs : s.Inv) : Safe (execWriteKeySlot m a0 a1 s) := by
  unfold execWriteKeySlot
  exact safe_command hs (fun _ ht => inv_ite (inv_answerOpen ht) (inv_ite ht (inv_storeCommand ht (fun _ ht1 => inv_answer
      (inv_upd ht1)))))

/-! ## Canonical memory: RAS counters and lost blocks (R395, R397) -/

theorem safe_execReadRasCounters {m num frames clear s} (hs : s.Inv) : Safe (execReadRasCounters m num frames clear s) := by
  unfold execReadRasCounters
  exact safe_command hs (fun _ ht => inv_ite (inv_answer ht) (inv_answer (inv_ite (inv_upd ht) ht)))

theorem safe_execReadLostBlock {m die slice entry s} (hs : s.Inv) : Safe (execReadLostBlock m die slice entry s) := by
  unfold execReadLostBlock
  refine safe_command ?_ ?_
  · exact hs
  · intro t ht
    split
    · exact inv_answer ht
    · exact inv_answer (inv_upd ht)

theorem safe_execClearLostBlock {m die slice entry s} (hs : s.Inv) : Safe (execClearLostBlock m die slice entry s) := by
  unfold execClearLostBlock
  refine safe_command ?_ ?_
  · exact hs
  · intro t ht
    extract_lets k l t'
    have ht' : t'.Inv := inv_upd ht
    exact inv_ite (inv_answer ht) (inv_answer (inv_upd ht'))

/-! ## Canonical memory: Faulted entries (R411) -/

theorem inv_abandonEntry {s c e} (hs : s.Inv) : (abandonEntry s c e).Inv := by
  unfold abandonEntry
  extract_lets m s1
  have hs1 : s1.Inv := by
    unfold s1
    split
    · exact inv_failLanes hs
    · exact hs
  exact inv_sweepLatches (inv_dropEntry (inv_finishFlags hs1))

theorem safe_execAbandonEngineEntry {m a0 s} (hs : s.Inv) : Safe (execAbandonEngineEntry m a0 s) := by
  unfold execAbandonEngineEntry
  refine safe_command ?_ ?_
  · exact hs
  · intro t ht
    extract_lets c
    refine inv_ite (inv_answer ht) ?_
    split
    · exact inv_answer (inv_abandonEntry ht)
    · exact inv_answer ht

/-! ## Canonical memory: Gang launches (R429) -/

theorem safe_execArmGangLaunch {m a0 a1 s} (hs : s.Inv) : Safe (execArmGangLaunch m a0 a1 s) := by
  unfold execArmGangLaunch
  exact safe_command hs (fun _ ht => inv_ite (inv_answerOpen ht) (inv_answer (inv_modQueue ht)))

theorem safe_execReadGangStatus {m q s} (hs : s.Inv) : Safe (execReadGangStatus m q s) := by
  unfold execReadGangStatus
  refine safe_command ?_ ?_
  · exact hs
  · intro t ht
    split
    · exact inv_answer ht
    · exact inv_answer (inv_upd ht)

/-! ## Canonical memory: Capsules (R419, R423) -/

theorem inv_setCapsule {s i x} (hs : s.Inv) : (setCapsule s i x).Inv := by
  unfold setCapsule
  exact inv_upd hs

theorem safe_execCopyCapsuleSummary {m index dst s} (hs : s.Inv) : Safe (execCopyCapsuleSummary m index dst s) := by
  unfold execCopyCapsuleSummary
  refine safe_command ?_ ?_
  · exact hs
  · intro t ht
    refine inv_ite (inv_answerOpen ht) ?_
    split
    · exact inv_answer ht
    · exact inv_storeCommand ht (fun _ ht => inv_answer ht)

theorem safe_execCopyCapsuleSlot {m slot dst off len s} (hs : s.Inv) : Safe (execCopyCapsuleSlot m slot dst off len s) := by
  unfold execCopyCapsuleSlot
  exact safe_command hs (fun _ ht => inv_ite (inv_answer ht) (inv_ite (inv_answerOpen ht) (inv_storeCommand ht
      (fun _ ht1 => inv_answer ht1))))

theorem safe_execReleaseCapsuleSlot {m slot s} (hs : s.Inv) : Safe (execReleaseCapsuleSlot m slot s) := by
  unfold execReleaseCapsuleSlot
  exact safe_command hs (fun _ ht => inv_ite (inv_answer ht) (inv_answer (inv_setCapsule ht)))

/-! ## Canonical memory: Boot code and unknown commands -/

theorem safe_execReadBootCode {m s} (hs : s.Inv) : Safe (execReadBootCode m s) := by
  unfold execReadBootCode
  exact safe_command hs (fun _ ht => inv_answer ht)

theorem safe_execMailboxUnknownCommand {m code s} (hs : s.Inv) : Safe (execMailboxUnknownCommand m code s) := by
  unfold execMailboxUnknownCommand
  exact safe_ite (safe_next hs) (safe_command hs (fun _ ht => inv_answer ht))

theorem inv_csrWrite {s c m} {f : State → State} (hs : s.Inv) (hf : ∀ (t : State), t.Inv → (f t).Inv) : (csrWrite s c m f).Inv := by
  unfold csrWrite
  exact inv_ite hs (inv_ite (inv_mastTrap hs) (hf _ hs))

theorem safe_execJbudWrite {c v s} (hs : s.Inv) : Safe (execJbudWrite c v s) := by
  unfold execJbudWrite
  exact safe_next (inv_csrWrite hs (fun _ ht => inv_writeJbud ht))

theorem inv_writeRing {s c v} (hs : s.Inv) : (writeRing s c v).Inv := by
  unfold writeRing
  extract_lets size
  exact inv_modMast hs

theorem inv_writeMpp {s c v} (hs : s.Inv) : (writeMpp s c v).Inv := by
  unfold writeMpp
  extract_lets n
  exact inv_ite hs (inv_modMast hs)

theorem inv_writeSpp {s c v} (hs : s.Inv) : (writeSpp s c v).Inv := by
  unfold writeSpp
  exact inv_ite hs (inv_modMast hs)

theorem inv_writePmpcfg {s c k v} (hs : s.Inv) : (writePmpcfg s c k v).Inv := by
  unfold writePmpcfg
  extract_lets b
  exact inv_ite hs (inv_modMast hs)

theorem inv_writePmpaddr {s c k v} (hs : s.Inv) : (writePmpaddr s c k v).Inv := by
  unfold writePmpaddr
  exact inv_ite hs (inv_modMast hs)

theorem inv_writePri {s fn on} (hs : s.Inv) : (writePri s fn on).Inv := by
  unfold writePri
  exact inv_ite (inv_ite (inv_upd hs) hs) (inv_ite (inv_upd hs) hs)

theorem inv_writeRegister {s r v} (hs : s.Inv) : (writeRegister s r v).Inv := by
  unfold writeRegister
  split
  · exact inv_csrWrite hs (fun _ ht => inv_modMast ht)
  · exact inv_csrWrite hs (fun _ ht => inv_modCore ht)
  · exact inv_csrWrite hs (fun _ ht => inv_writeRing ht)
  · exact inv_csrWrite hs (fun _ ht => inv_modMast ht)
  · exact inv_csrWrite hs (fun _ ht => inv_modMast ht)
  · exact inv_csrWrite hs (fun _ ht => inv_modMast ht)
  · exact inv_csrWrite hs (fun _ ht => inv_modMast ht)
  · exact inv_csrWrite hs (fun _ ht => ht)
  · exact inv_csrWrite hs (fun _ ht => ht)
  · exact inv_ite hs (inv_mastTrap hs)
  · exact inv_csrWrite hs (fun _ ht => ht)
  · exact inv_csrWrite hs (fun _ ht => ht)
  · exact inv_ite hs (inv_mastTrap hs)
  · exact inv_csrWrite hs (fun _ ht => ht)
  · exact inv_csrWrite hs (fun _ ht => inv_writeMpp ht)
  · exact inv_csrWrite hs (fun _ ht => inv_writeSpp ht)
  · exact inv_csrWrite hs (fun _ ht => inv_modMast ht)
  · exact inv_csrWrite hs (fun _ ht => inv_modMast ht)
  · exact inv_csrWrite hs (fun _ ht => inv_modMast ht)
  · exact inv_csrWrite hs (fun _ ht => inv_modMast ht)
  · exact inv_csrWrite hs (fun _ ht => inv_writePmpcfg ht)
  · exact inv_csrWrite hs (fun _ ht => inv_writePmpaddr ht)
  · exact inv_ite hs (inv_modQueue hs)
  · exact inv_ite hs (inv_modQueue hs)
  · exact hs
  · exact inv_writePri hs
  · exact inv_csrWrite hs (fun _ ht => inv_upd ht)

theorem safe_execRegisterWrite {r v s} (hs : s.Inv) : Safe (execRegisterWrite r v s) := by
  unfold execRegisterWrite
  exact safe_next (inv_writeRegister hs)

/-! ## Canonical memory: Assembly (R418, R419, R423) -/

theorem inv_addSummary {s x} (hs : s.Inv) : (addSummary s x).Inv := by
  unfold addSummary
  exact inv_upd hs

theorem inv_beginCapsule {s d i} (hs : s.Inv) : (beginCapsule s d i).Inv := by
  unfold beginCapsule
  extract_lets s1
  have hs1 : s1.Inv := inv_setCapsule hs
  exact inv_addSummary (inv_upd hs1)

theorem inv_dropCapsule {s d} (hs : s.Inv) : (dropCapsule s d).Inv := by
  unfold dropCapsule
  exact inv_addSummary (inv_upd hs)

theorem inv_holdCapsule {s d i} (hs : s.Inv) : (holdCapsule s d i).Inv := by
  unfold holdCapsule
  extract_lets x b s1
  have hs1 : s1.Inv := inv_setCapsule hs
  clear_value s1 b
  exact Mem.wf_write _ _ hs1

theorem inv_darkPackage {s} (hs : s.Inv) : (darkPackage s).Inv := by
  unfold darkPackage
  exact Mem.wf_filter _ hs

theorem inv_capsuleDone {s d} (hs : s.Inv) : (capsuleDone s d).Inv := by
  unfold capsuleDone
  extract_lets s1
  have hs1 : s1.Inv := inv_upd hs
  exact inv_ite (inv_darkPackage hs1) (inv_ite (inv_leaveStop hs1) hs1)

theorem safe_execCapsuleAssembly {s} (hs : s.Inv) : Safe (execCapsuleAssembly s) := by
  unfold execCapsuleAssembly
  split
  · exact safe_next hs
  · refine safe_ite (safe_next hs) ?_
    split
    · exact safe_next (inv_capsuleDone (inv_holdCapsule hs))
    · exact safe_next (inv_beginCapsule hs)
    · exact safe_next (inv_capsuleDone (inv_dropCapsule hs))

/-! ## Canonical memory: Boot (R330, R332, R430) -/

theorem inv_afterReset {s} (hs : s.Inv) : (afterReset s).Inv := by
  unfold afterReset
  extract_lets src
  exact Mem.wf_filter _ hs

theorem inv_startMast {s c} (hs : s.Inv) : (startMast s c).Inv := by
  unfold startMast
  exact inv_modMast hs

theorem inv_startRest {s d} (hs : s.Inv) : (startRest s d).Inv := by
  unfold startRest
  exact inv_foldl (fun _ _ ht => inv_startMast ht) (inv_upd hs)

theorem inv_acceptManifest {s} (hs : s.Inv) : (acceptManifest s).Inv := by
  unfold acceptManifest
  extract_lets d s1
  have hs1 : s1.Inv := inv_upd hs
  exact inv_startMast hs1

theorem safe_execPackageReset {linkUp readOk s} (hs : s.Inv) : Safe (execPackageReset linkUp readOk s) := by
  unfold execPackageReset
  extract_lets src s1
  have hsrc : src.Inv := inv_afterReset hs
  have hs1 : s1.Inv := inv_upd hsrc
  refine safe_ite (safe_next (inv_failBoot hs1)) ?_
  refine safe_ite (safe_next (inv_failBoot hs1)) ?_
  exact safe_ite (safe_next (inv_failBoot hs1)) (safe_next (inv_acceptManifest hs1))

/-! ## Canonical memory: Die states (R331, R424) -/

theorem inv_closeWindow {s} (hs : s.Inv) : (closeWindow s).Inv := by
  unfold closeWindow
  exact inv_ite hs (inv_upd hs)

theorem inv_enterState {s d st} (hs : s.Inv) : (enterState s d st).Inv := by
  unfold enterState
  extract_lets old t
  have ht : t.Inv := inv_upd hs
  refine inv_ite (inv_closeWindow (inv_upd ht)) ?_
  refine inv_ite (inv_startMast (inv_upd ht)) ?_
  exact inv_ite (inv_startRest (inv_startMast ht)) (inv_ite (inv_startRest ht) ht)

theorem safe_execDieStateChange {d st s} (hs : s.Inv) : Safe (execDieStateChange d st s) := by
  unfold execDieStateChange
  exact safe_ite (safe_next (inv_enterState hs)) (safe_next hs)

/-! ## Canonical memory: Warm reset (R424) -/

theorem inv_endForReset {s ctx} (hs : s.Inv) : (endForReset s ctx).Inv := by
  unfold endForReset
  extract_lets fn src
  have hsrc : src.Inv := inv_endSaved hs
  exact inv_upd hsrc

theorem inv_fenceDie {s d} (hs : s.Inv) : (fenceDie s d).Inv := by
  unfold fenceDie
  extract_lets s1 s2
  have hs1 : s1.Inv := inv_upd hs
  have hs2 : s2.Inv := by
    unfold s2
    exact inv_ite (inv_endStopped (inv_ite hs1 (inv_raiseBare hs1))) hs1
  exact inv_foldl (fun _ _ ht => inv_endForReset ht) hs2

theorem inv_evictNow {s k} (hs : s.Inv) : (evictNow s k).Inv := by
  unfold evictNow
  extract_lets f key t s1 s2
  have ht : t.Inv := inv_storeUnder (inv_clearMarks hs)
  have hs1 : s1.Inv := by
    unfold s1
    exact inv_ite (inv_upd ht) hs
  have hs2 : s2.Inv := inv_foldl (fun _ _ ht => inv_sendOwed ht) (inv_clearSlot hs1)
  exact inv_ite hs (inv_moveMarker (inv_releaseFrame hs2))

theorem inv_resetDie {s d} (hs : s.Inv) : (resetDie s d).Inv := by
  unfold resetDie
  extract_lets s1 s2 a
  have hs1 : s1.Inv := inv_moveMonitors (inv_foldl (fun _ _ ht => inv_evictNow (inv_breakReserve ht)) hs)
  have hs2 : s2.Inv := inv_foldl (fun _ _ ht => inv_fireGroup ht) hs1
  clear_value s2
  exact Mem.wf_clear _ _ hs2

theorem inv_goOnReset {s d} (hs : s.Inv) : (goOnReset s d).Inv := by
  unfold goOnReset
  exact inv_ite (inv_resetDie hs) hs

theorem safe_execWarmResetDie {m d force s} (hs : s.Inv) : Safe (execWarmResetDie m d force s) := by
  unfold execWarmResetDie
  exact safe_command hs (fun _ ht => inv_ite (inv_answerOpen ht) (inv_ite (inv_ite (inv_answer (inv_goOnReset ht))
      (inv_goOnReset ht)) (inv_ite (inv_answer ht) (inv_ite ht (inv_ite (inv_answer ht) (inv_fenceDie ht))))))

/-! ## Canonical memory: Errors of the hardware (R378, R393, R395, R424) -/

theorem inv_poisonUnit {s n} (hs : s.Inv) : (poisonUnit s n).Inv := by
  unfold poisonUnit
  refine inv_ite hs ?_
  extract_lets t
  have ht : t.Inv := inv_upd hs
  split
  · exact ht
  · exact inv_upd ht

theorem inv_hwFault {s x1} (hs : s.Inv) : (hwFault s x1).Inv := by
  unfold hwFault
  split
  · split
    · exact hs
    · exact inv_upd hs
  · exact inv_poisonUnit hs
  · exact inv_ite (inv_modFrame hs) hs
  · exact inv_ite (inv_modFrame hs) hs
  · exact inv_upd hs
  · exact inv_ite (inv_upd hs) hs

theorem inv_hardwareErrors {s} (hs : s.Inv) : (hardwareErrors s).Inv := by
  unfold hardwareErrors
  exact inv_foldl (fun _ _ ht => inv_hwFault ht) (inv_upd hs)

/-! ## Canonical memory: Power and heat (R333, R353, R431) -/

theorem safe_execPowerArbiterTick {dieCaps stackCaps s} (hs : s.Inv) : Safe (execPowerArbiterTick dieCaps stackCaps s) := by
  unfold execPowerArbiterTick
  extract_lets sum cfg
  exact safe_ite (safe_next hs) (safe_next (inv_upd hs))

theorem inv_throttle {s d old new cause} (hs : s.Inv) : (throttle s d old new cause).Inv := by
  unfold throttle
  exact inv_foldl (fun _ _ ht => inv_record ht) hs

theorem inv_changeVf {s vf} (hs : s.Inv) : (changeVf s vf).Inv := by
  unfold changeVf
  exact inv_foldl (fun _ _ ht => inv_ite ht (inv_throttle (inv_upd ht))) hs

theorem inv_powerStop {s d cause flags} (hs : s.Inv) : (powerStop s d cause flags).Inv := by
  unfold powerStop
  extract_lets c due t
  have ht : t.Inv := inv_settle (inv_raiseBare hs)
  exact inv_ite (inv_upd ht) (inv_upd hs)

theorem inv_fatalStop {s d cause} (hs : s.Inv) : (fatalStop s d cause).Inv := by
  unfold fatalStop
  exact inv_ite hs (inv_upd (inv_powerStop hs))

theorem inv_heat {s junction} (hs : s.Inv) : (heat s junction).Inv := by
  unfold heat
  refine inv_foldl ?_ ?_
  · intro t a ht
    extract_lets j hot t1
    have ht1 : t1.Inv := by
      unfold t1
      exact inv_ite (inv_upd ht) ht
    exact inv_ite (inv_upd ht1) ht1
  · exact hs

theorem safe_execWindowBoundary {vf junction s} (hs : s.Inv) : Safe (execWindowBoundary vf junction s) := by
  unfold execWindowBoundary
  refine safe_ite (safe_next hs) ?_
  extract_lets src s1 s2 s3
  have hsrc : src.Inv := inv_openWindow hs
  have hs1 : s1.Inv := inv_upd hsrc
  have hs2 : s2.Inv := inv_changeVf hs1
  have hs3 : s3.Inv := inv_heat (inv_upd hs2)
  split
  · exact safe_next (inv_fatalStop hs3)
  · exact safe_next hs3

theorem safe_execThermalCooldown {d s} (hs : s.Inv) : Safe (execThermalCooldown d s) := by
  unfold execThermalCooldown
  split
  · exact safe_next hs
  · exact safe_next (inv_ite (inv_upd hs) hs)

theorem safe_execPackageOverdraw {s} (hs : s.Inv) : Safe (execPackageOverdraw s) := by
  unfold execPackageOverdraw
  exact safe_next (inv_upd hs)

theorem safe_execCoolantLoss {d s} (hs : s.Inv) : Safe (execCoolantLoss d s) := by
  unfold execCoolantLoss
  exact safe_ite (safe_next hs) (safe_next (inv_fatalStop hs))

theorem safe_execSupplyFault {d s} (hs : s.Inv) : Safe (execSupplyFault d s) := by
  unfold execSupplyFault
  refine safe_ite (safe_next hs) ?_
  refine safe_ite (safe_next (inv_goOnReset hs)) ?_
  exact safe_ite (safe_next hs) (safe_next (inv_fenceDie (inv_powerStop hs)))

/-! ## Canonical memory: Links and ports (R426, R427) -/

theorem safe_execFlitCrcError {x0 x1 s} (hs : s.Inv) : Safe (execFlitCrcError x0 x1 s) := by
  unfold execFlitCrcError
  exact safe_next hs

theorem inv_countRas {s d} (hs : s.Inv) : (countRas s d).Inv := by
  unfold countRas
  exact inv_upd hs

theorem safe_execLinkLaneFailure {a b spares s} (hs : s.Inv) : Safe (execLinkLaneFailure a b spares s) := by
  unfold execLinkLaneFailure
  refine safe_ite (safe_next hs) ?_
  extract_lets t
  have ht : t.Inv := by
    unfold t
    split
    · exact inv_ite (inv_upd hs) hs
    · exact inv_upd hs
  exact safe_next (inv_countRas (inv_countRas ht))

theorem safe_execLinkDown {a b retrained s} (hs : s.Inv) : Safe (execLinkDown a b retrained s) := by
  unfold execLinkDown
  refine safe_ite (safe_next hs) ?_
  split
  · exact safe_next (inv_ite hs (inv_upd hs))
  · exact safe_next (inv_upd hs)

theorem safe_execLinkComesBack {a b s} (hs : s.Inv) : Safe (execLinkComesBack a b s) := by
  unfold execLinkComesBack
  exact safe_next (inv_upd hs)

theorem inv_lostCapsule {s c} (hs : s.Inv) : (lostCapsule s c).Inv := by
  unfold lostCapsule
  split
  · exact hs
  · exact inv_upd hs

theorem safe_execDieLost {d s} (hs : s.Inv) : Safe (execDieLost d s) := by
  unfold execDieLost
  refine safe_ite (safe_next hs) ?_
  extract_lets s1 s2
  have hs1 : s1.Inv := inv_upd hs
  have hs2 : s2.Inv := inv_lostStop hs1
  exact safe_next (inv_lostCapsule (inv_ite (inv_settle hs2) hs2))

theorem safe_execFabricPortFailure {p s} (hs : s.Inv) : Safe (execFabricPortFailure p s) := by
  unfold execFabricPortFailure
  exact safe_next (inv_ite hs (inv_replayChunks (inv_ite hs (inv_upd hs))))

theorem safe_execPortRemovedFromTree {p s} (hs : s.Inv) : Safe (execPortRemovedFromTree p s) := by
  unfold execPortRemovedFromTree
  split
  · exact safe_next hs
  · exact safe_next (inv_ite (inv_upd hs) hs)

/-! ## Canonical memory: Loss of power and function-level reset (R419) -/

theorem safe_execPowerLoss {s} (hs : s.Inv) : Safe (execPowerLoss s) := by
  unfold execPowerLoss
  extract_lets t
  have ht : t.Inv := inv_afterReset hs
  exact safe_next (Mem.wf_filter _ ht)

theorem safe_execFunctionLevelReset {x0 s} (hs : s.Inv) : Safe (execFunctionLevelReset x0 s) := by
  unfold execFunctionLevelReset
  exact safe_next hs

/-! ## Canonical memory: Scalar arithmetic (R186 to R190) -/

theorem safe_execFaddF32 {m d b a s} (hs : s.Inv) : Safe (execFaddF32 m d b a s) := by
  unfold execFaddF32
  exact safe_alu2 hs

theorem safe_execFsubF32 {m d b a s} (hs : s.Inv) : Safe (execFsubF32 m d b a s) := by
  unfold execFsubF32
  exact safe_alu2 hs

theorem safe_execFmulF32 {m d b a s} (hs : s.Inv) : Safe (execFmulF32 m d b a s) := by
  unfold execFmulF32
  exact safe_alu2 hs

theorem safe_execFminF32 {d b a s} (hs : s.Inv) : Safe (execFminF32 d b a s) := by
  unfold execFminF32
  exact safe_alu2 hs

theorem safe_execFmaxF32 {d b a s} (hs : s.Inv) : Safe (execFmaxF32 d b a s) := by
  unfold execFmaxF32
  exact safe_alu2 hs

theorem safe_execFabsF32 {d a s} (hs : s.Inv) : Safe (execFabsF32 d a s) := by
  unfold execFabsF32
  exact safe_alu1 hs

theorem safe_execFnegF32 {d a s} (hs : s.Inv) : Safe (execFnegF32 d a s) := by
  unfold execFnegF32
  exact safe_alu1 hs

theorem safe_execFsetF32 {c d b a s} (hs : s.Inv) : Safe (execFsetF32 c d b a s) := by
  unfold execFsetF32
  exact safe_alu2 hs

theorem safe_execFrndF32 {m d a s} (hs : s.Inv) : Safe (execFrndF32 m d a s) := by
  unfold execFrndF32
  exact safe_alu1 hs

theorem safe_execFaddF16 {m d b a s} (hs : s.Inv) : Safe (execFaddF16 m d b a s) := by
  unfold execFaddF16
  exact safe_alu2 hs

theorem safe_execFsubF16 {m d b a s} (hs : s.Inv) : Safe (execFsubF16 m d b a s) := by
  unfold execFsubF16
  exact safe_alu2 hs

theorem safe_execFmulF16 {m d b a s} (hs : s.Inv) : Safe (execFmulF16 m d b a s) := by
  unfold execFmulF16
  exact safe_alu2 hs

theorem safe_execFminF16 {d b a s} (hs : s.Inv) : Safe (execFminF16 d b a s) := by
  unfold execFminF16
  exact safe_alu2 hs

theorem safe_execFmaxF16 {d b a s} (hs : s.Inv) : Safe (execFmaxF16 d b a s) := by
  unfold execFmaxF16
  exact safe_alu2 hs

theorem safe_execFabsF16 {d a s} (hs : s.Inv) : Safe (execFabsF16 d a s) := by
  unfold execFabsF16
  exact safe_alu1 hs

theorem safe_execFnegF16 {d a s} (hs : s.Inv) : Safe (execFnegF16 d a s) := by
  unfold execFnegF16
  exact safe_alu1 hs

theorem safe_execFsetF16 {c d b a s} (hs : s.Inv) : Safe (execFsetF16 c d b a s) := by
  unfold execFsetF16
  exact safe_alu2 hs

theorem safe_execFrndF16 {m d a s} (hs : s.Inv) : Safe (execFrndF16 m d a s) := by
  unfold execFrndF16
  exact safe_alu1 hs

end Sys2Proof.Proofs

end

section

/-! PROOFS. O36, continued: one lemma for each function that a step is made of, in the order of the model. -/

-- The many short proofs are elaborated one after another: at once they would hold more threads than the memory limit allows.
set_option Elab.async false

namespace Sys2Proof.Proofs

open Sys2Proof Sys2Proof.Machine Sys2Proof.Spec

/-! ## Canonical memory: Packed arithmetic (R192) -/

theorem safe_execFaddBf16x2 {m d b a s} (hs : s.Inv) : Safe (execFaddBf16x2 m d b a s) := by
  unfold execFaddBf16x2
  exact safe_alu2 hs

theorem safe_execFmulBf16x2 {m d b a s} (hs : s.Inv) : Safe (execFmulBf16x2 m d b a s) := by
  unfold execFmulBf16x2
  exact safe_alu2 hs

theorem safe_execFminBf16x2 {d b a s} (hs : s.Inv) : Safe (execFminBf16x2 d b a s) := by
  unfold execFminBf16x2
  exact safe_alu2 hs

theorem safe_execFmaxBf16x2 {d b a s} (hs : s.Inv) : Safe (execFmaxBf16x2 d b a s) := by
  unfold execFmaxBf16x2
  exact safe_alu2 hs

theorem safe_execFaddF16x2 {m d b a s} (hs : s.Inv) : Safe (execFaddF16x2 m d b a s) := by
  unfold execFaddF16x2
  exact safe_alu2 hs

theorem safe_execFmulF16x2 {m d b a s} (hs : s.Inv) : Safe (execFmulF16x2 m d b a s) := by
  unfold execFmulF16x2
  exact safe_alu2 hs

theorem safe_execFminF16x2 {d b a s} (hs : s.Inv) : Safe (execFminF16x2 d b a s) := by
  unfold execFminF16x2
  exact safe_alu2 hs

theorem safe_execFmaxF16x2 {d b a s} (hs : s.Inv) : Safe (execFmaxF16x2 d b a s) := by
  unfold execFmaxF16x2
  exact safe_alu2 hs

/-! ## Canonical memory: Conversions (R193, R194) -/

theorem safe_execCvtF16F32 {m d a s} (hs : s.Inv) : Safe (execCvtF16F32 m d a s) := by
  unfold execCvtF16F32
  exact safe_alu1 hs

theorem safe_execCvtBf16F32 {m d a s} (hs : s.Inv) : Safe (execCvtBf16F32 m d a s) := by
  unfold execCvtBf16F32
  exact safe_alu1 hs

theorem safe_execCvtBf16F16 {m d a s} (hs : s.Inv) : Safe (execCvtBf16F16 m d a s) := by
  unfold execCvtBf16F16
  exact safe_alu1 hs

theorem safe_execCvtF16Bf16 {m d a s} (hs : s.Inv) : Safe (execCvtF16Bf16 m d a s) := by
  unfold execCvtF16Bf16
  exact safe_alu1 hs

theorem safe_execCvtF32F16 {d a s} (hs : s.Inv) : Safe (execCvtF32F16 d a s) := by
  unfold execCvtF32F16
  exact safe_alu1 hs

theorem safe_execCvtF32Bf16 {d a s} (hs : s.Inv) : Safe (execCvtF32Bf16 d a s) := by
  unfold execCvtF32Bf16
  exact safe_alu1 hs

theorem safe_execPackBf16x2F32 {d b a s} (hs : s.Inv) : Safe (execPackBf16x2F32 d b a s) := by
  unfold execPackBf16x2F32
  exact safe_alu2 hs

theorem safe_execPackF16x2F32 {d b a s} (hs : s.Inv) : Safe (execPackF16x2F32 d b a s) := by
  unfold execPackF16x2F32
  exact safe_alu2 hs

theorem safe_execCvtIntF32 {m d t a s} (hs : s.Inv) : Safe (execCvtIntF32 m d t a s) := by
  unfold execCvtIntF32
  exact safe_alu1 hs

theorem safe_execCvtIntF16 {m d t a s} (hs : s.Inv) : Safe (execCvtIntF16 m d t a s) := by
  unfold execCvtIntF16
  exact safe_alu1 hs

theorem safe_execCvtIntBf16 {m d t a s} (hs : s.Inv) : Safe (execCvtIntBf16 m d t a s) := by
  unfold execCvtIntBf16
  exact safe_alu1 hs

theorem safe_execCvtF32Int {m d t a s} (hs : s.Inv) : Safe (execCvtF32Int m d t a s) := by
  unfold execCvtF32Int
  exact safe_alu1 hs

theorem safe_execCvtF16Int {m d t a s} (hs : s.Inv) : Safe (execCvtF16Int m d t a s) := by
  unfold execCvtF16Int
  exact safe_alu1 hs

theorem safe_execCvtBf16Int {m d t a s} (hs : s.Inv) : Safe (execCvtBf16Int m d t a s) := by
  unfold execCvtBf16Int
  exact safe_alu1 hs

/-! ## Canonical memory: Transcendental forms (R195) -/

theorem safe_execRcpF32 {d a s} (hs : s.Inv) : Safe (execRcpF32 d a s) := by
  unfold execRcpF32
  exact safe_alu1 hs

theorem safe_execRsqF32 {d a s} (hs : s.Inv) : Safe (execRsqF32 d a s) := by
  unfold execRsqF32
  exact safe_alu1 hs

theorem safe_execSqrtF32 {d a s} (hs : s.Inv) : Safe (execSqrtF32 d a s) := by
  unfold execSqrtF32
  exact safe_alu1 hs

theorem safe_execEx2F32 {d a s} (hs : s.Inv) : Safe (execEx2F32 d a s) := by
  unfold execEx2F32
  exact safe_alu1 hs

theorem safe_execLg2F32 {d a s} (hs : s.Inv) : Safe (execLg2F32 d a s) := by
  unfold execLg2F32
  exact safe_alu1 hs

theorem safe_execSinF32 {d a s} (hs : s.Inv) : Safe (execSinF32 d a s) := by
  unfold execSinF32
  exact safe_alu1 hs

theorem safe_execCosF32 {d a s} (hs : s.Inv) : Safe (execCosF32 d a s) := by
  unfold execCosF32
  exact safe_alu1 hs

theorem safe_execRcpF16 {d a s} (hs : s.Inv) : Safe (execRcpF16 d a s) := by
  unfold execRcpF16
  exact safe_alu1 hs

theorem safe_execRsqF16 {d a s} (hs : s.Inv) : Safe (execRsqF16 d a s) := by
  unfold execRsqF16
  exact safe_alu1 hs

theorem safe_execSqrtF16 {d a s} (hs : s.Inv) : Safe (execSqrtF16 d a s) := by
  unfold execSqrtF16
  exact safe_alu1 hs

theorem safe_execEx2F16 {d a s} (hs : s.Inv) : Safe (execEx2F16 d a s) := by
  unfold execEx2F16
  exact safe_alu1 hs

theorem safe_execLg2F16 {d a s} (hs : s.Inv) : Safe (execLg2F16 d a s) := by
  unfold execLg2F16
  exact safe_alu1 hs

theorem safe_execSinF16 {d a s} (hs : s.Inv) : Safe (execSinF16 d a s) := by
  unfold execSinF16
  exact safe_alu1 hs

theorem safe_execCosF16 {d a s} (hs : s.Inv) : Safe (execCosF16 d a s) := by
  unfold execCosF16
  exact safe_alu1 hs

/-! ## Canonical memory: Fused forms (R191) -/

theorem safe_execFmaF32 {d c b a s} (hs : s.Inv) : Safe (execFmaF32 d c b a s) := by
  unfold execFmaF32
  exact safe_alu3 hs

theorem safe_execFmsF32 {d c b a s} (hs : s.Inv) : Safe (execFmsF32 d c b a s) := by
  unfold execFmsF32
  exact safe_alu3 hs

theorem safe_execFmaF16 {d c b a s} (hs : s.Inv) : Safe (execFmaF16 d c b a s) := by
  unfold execFmaF16
  exact safe_alu3 hs

theorem safe_execFmaBf16x2 {d c b a s} (hs : s.Inv) : Safe (execFmaBf16x2 d c b a s) := by
  unfold execFmaBf16x2
  exact safe_alu3 hs

theorem safe_execFmaF16x2 {d c b a s} (hs : s.Inv) : Safe (execFmaF16x2 d c b a s) := by
  unfold execFmaF16x2
  exact safe_alu3 hs

/-! ## Canonical memory: Addition, subtraction, multiplication (R166) -/

theorem safe_execAddS32 {d b a s} (hs : s.Inv) : Safe (execAddS32 d b a s) := by
  unfold execAddS32
  exact safe_alu2 hs

theorem safe_execAddS32Sat {d b a s} (hs : s.Inv) : Safe (execAddS32Sat d b a s) := by
  unfold execAddS32Sat
  exact safe_alu2 hs

theorem safe_execAddZ32Sat {d b a s} (hs : s.Inv) : Safe (execAddZ32Sat d b a s) := by
  unfold execAddZ32Sat
  exact safe_alu2 hs

theorem safe_execSubS32 {d b a s} (hs : s.Inv) : Safe (execSubS32 d b a s) := by
  unfold execSubS32
  exact safe_alu2 hs

theorem safe_execSubS32Sat {d b a s} (hs : s.Inv) : Safe (execSubS32Sat d b a s) := by
  unfold execSubS32Sat
  exact safe_alu2 hs

theorem safe_execSubZ32Sat {d b a s} (hs : s.Inv) : Safe (execSubZ32Sat d b a s) := by
  unfold execSubZ32Sat
  exact safe_alu2 hs

theorem safe_execMulS32 {d b a s} (hs : s.Inv) : Safe (execMulS32 d b a s) := by
  unfold execMulS32
  exact safe_alu2 hs

theorem safe_execMulhiS32 {d b a s} (hs : s.Inv) : Safe (execMulhiS32 d b a s) := by
  unfold execMulhiS32
  exact safe_alu2 hs

theorem safe_execMulhiZ32 {d b a s} (hs : s.Inv) : Safe (execMulhiZ32 d b a s) := by
  unfold execMulhiZ32
  exact safe_alu2 hs

/-! ## Canonical memory: Minimum, maximum, absolute value, negation, move (R168) -/

theorem safe_execMinS32 {d b a s} (hs : s.Inv) : Safe (execMinS32 d b a s) := by
  unfold execMinS32
  exact safe_alu2 hs

theorem safe_execMaxS32 {d b a s} (hs : s.Inv) : Safe (execMaxS32 d b a s) := by
  unfold execMaxS32
  exact safe_alu2 hs

theorem safe_execMinZ32 {d b a s} (hs : s.Inv) : Safe (execMinZ32 d b a s) := by
  unfold execMinZ32
  exact safe_alu2 hs

theorem safe_execMaxZ32 {d b a s} (hs : s.Inv) : Safe (execMaxZ32 d b a s) := by
  unfold execMaxZ32
  exact safe_alu2 hs

theorem safe_execAbsS32 {d a s} (hs : s.Inv) : Safe (execAbsS32 d a s) := by
  unfold execAbsS32
  exact safe_alu1 hs

theorem safe_execNegS32 {d a s} (hs : s.Inv) : Safe (execNegS32 d a s) := by
  unfold execNegS32
  exact safe_alu1 hs

theorem safe_execMovB32 {d a s} (hs : s.Inv) : Safe (execMovB32 d a s) := by
  unfold execMovB32
  exact safe_alu1 hs

/-! ## Canonical memory: Logic (R169) -/

theorem safe_execAndB32 {d b a s} (hs : s.Inv) : Safe (execAndB32 d b a s) := by
  unfold execAndB32
  exact safe_alu2 hs

theorem safe_execOrB32 {d b a s} (hs : s.Inv) : Safe (execOrB32 d b a s) := by
  unfold execOrB32
  exact safe_alu2 hs

theorem safe_execXorB32 {d b a s} (hs : s.Inv) : Safe (execXorB32 d b a s) := by
  unfold execXorB32
  exact safe_alu2 hs

theorem safe_execAndnB32 {d b a s} (hs : s.Inv) : Safe (execAndnB32 d b a s) := by
  unfold execAndnB32
  exact safe_alu2 hs

theorem safe_execNotB32 {d a s} (hs : s.Inv) : Safe (execNotB32 d a s) := by
  unfold execNotB32
  exact safe_alu1 hs

/-! ## Canonical memory: 64-bit results (R166) -/

theorem safe_execAddB64 {d b a s} (hs : s.Inv) : Safe (execAddB64 d b a s) := by
  unfold execAddB64
  exact safe_alu64 hs

theorem safe_execSubB64 {d b a s} (hs : s.Inv) : Safe (execSubB64 d b a s) := by
  unfold execSubB64
  exact safe_alu64 hs

theorem safe_execMulwS32 {d b a s} (hs : s.Inv) : Safe (execMulwS32 d b a s) := by
  unfold execMulwS32
  exact safe_aluWide hs

theorem safe_execMulwZ32 {d b a s} (hs : s.Inv) : Safe (execMulwZ32 d b a s) := by
  unfold execMulwZ32
  exact safe_aluWide hs

/-! ## Canonical memory: Division (R167) -/

theorem safe_execDivS32 {d b a s} (hs : s.Inv) : Safe (execDivS32 d b a s) := by
  unfold execDivS32
  exact safe_alu2 hs

theorem safe_execDivZ32 {d b a s} (hs : s.Inv) : Safe (execDivZ32 d b a s) := by
  unfold execDivZ32
  exact safe_alu2 hs

theorem safe_execRemS32 {d b a s} (hs : s.Inv) : Safe (execRemS32 d b a s) := by
  unfold execRemS32
  exact safe_alu2 hs

theorem safe_execRemZ32 {d b a s} (hs : s.Inv) : Safe (execRemZ32 d b a s) := by
  unfold execRemZ32
  exact safe_alu2 hs

/-! ## Canonical memory: Shifts and rotation (R170) -/

theorem safe_execShlB32 {d b a s} (hs : s.Inv) : Safe (execShlB32 d b a s) := by
  unfold execShlB32
  exact safe_alu2 hs

theorem safe_execShrZ32 {d b a s} (hs : s.Inv) : Safe (execShrZ32 d b a s) := by
  unfold execShrZ32
  exact safe_alu2 hs

theorem safe_execShrS32 {d b a s} (hs : s.Inv) : Safe (execShrS32 d b a s) := by
  unfold execShrS32
  exact safe_alu2 hs

theorem safe_execRolB32 {d b a s} (hs : s.Inv) : Safe (execRolB32 d b a s) := by
  unfold execRolB32
  exact safe_alu2 hs

theorem safe_execShlB64 {d b a s} (hs : s.Inv) : Safe (execShlB64 d b a s) := by
  unfold execShlB64
  exact safe_aluShift64 hs

theorem safe_execShrZ64 {d b a s} (hs : s.Inv) : Safe (execShrZ64 d b a s) := by
  unfold execShrZ64
  exact safe_aluShift64 hs

theorem safe_execShrS64 {d b a s} (hs : s.Inv) : Safe (execShrS64 d b a s) := by
  unfold execShrS64
  exact safe_aluShift64 hs

/-! ## Canonical memory: Bit counts and fields (R171, R172) -/

theorem safe_execPopcB32 {d a s} (hs : s.Inv) : Safe (execPopcB32 d a s) := by
  unfold execPopcB32
  exact safe_alu1 hs

theorem safe_execClzB32 {d a s} (hs : s.Inv) : Safe (execClzB32 d a s) := by
  unfold execClzB32
  exact safe_alu1 hs

theorem safe_execCtzB32 {d a s} (hs : s.Inv) : Safe (execCtzB32 d a s) := by
  unfold execCtzB32
  exact safe_alu1 hs

theorem safe_execBrevB32 {d a s} (hs : s.Inv) : Safe (execBrevB32 d a s) := by
  unfold execBrevB32
  exact safe_alu1 hs

theorem safe_execBfxS32 {d b a s} (hs : s.Inv) : Safe (execBfxS32 d b a s) := by
  unfold execBfxS32
  exact safe_alu2 hs

theorem safe_execBfxZ32 {d b a s} (hs : s.Inv) : Safe (execBfxZ32 d b a s) := by
  unfold execBfxZ32
  exact safe_alu2 hs

/-! ## Canonical memory: Compare and select (R173, R174) -/

theorem safe_execIsetEqB32 {d b a s} (hs : s.Inv) : Safe (execIsetEqB32 d b a s) := by
  unfold execIsetEqB32
  exact safe_alu2 hs

theorem safe_execIsetNeB32 {d b a s} (hs : s.Inv) : Safe (execIsetNeB32 d b a s) := by
  unfold execIsetNeB32
  exact safe_alu2 hs

theorem safe_execIsetLtS32 {d b a s} (hs : s.Inv) : Safe (execIsetLtS32 d b a s) := by
  unfold execIsetLtS32
  exact safe_alu2 hs

theorem safe_execIsetLeS32 {d b a s} (hs : s.Inv) : Safe (execIsetLeS32 d b a s) := by
  unfold execIsetLeS32
  exact safe_alu2 hs

theorem safe_execIsetGtS32 {d b a s} (hs : s.Inv) : Safe (execIsetGtS32 d b a s) := by
  unfold execIsetGtS32
  exact safe_alu2 hs

theorem safe_execIsetGeS32 {d b a s} (hs : s.Inv) : Safe (execIsetGeS32 d b a s) := by
  unfold execIsetGeS32
  exact safe_alu2 hs

theorem safe_execIsetLtZ32 {d b a s} (hs : s.Inv) : Safe (execIsetLtZ32 d b a s) := by
  unfold execIsetLtZ32
  exact safe_alu2 hs

theorem safe_execIsetLeZ32 {d b a s} (hs : s.Inv) : Safe (execIsetLeZ32 d b a s) := by
  unfold execIsetLeZ32
  exact safe_alu2 hs

theorem safe_execIsetGtZ32 {d b a s} (hs : s.Inv) : Safe (execIsetGtZ32 d b a s) := by
  unfold execIsetGtZ32
  exact safe_alu2 hs

theorem safe_execIsetGeZ32 {d b a s} (hs : s.Inv) : Safe (execIsetGeZ32 d b a s) := by
  unfold execIsetGeZ32
  exact safe_alu2 hs

theorem safe_execSelB32 {d b a s} (hs : s.Inv) : Safe (execSelB32 d b a s) := by
  unfold execSelB32
  exact safe_next (inv_aluWord hs)

/-! ## Canonical memory: Immediate forms (R175) -/

theorem safe_execAddS32Imm {d i a s} (hs : s.Inv) : Safe (execAddS32Imm d i a s) := by
  unfold execAddS32Imm
  exact safe_aluI hs

theorem safe_execAddS32SatImm {d i a s} (hs : s.Inv) : Safe (execAddS32SatImm d i a s) := by
  unfold execAddS32SatImm
  exact safe_aluI hs

theorem safe_execMulS32Imm {d i a s} (hs : s.Inv) : Safe (execMulS32Imm d i a s) := by
  unfold execMulS32Imm
  exact safe_aluI hs

theorem safe_execAndB32Imm {d i a s} (hs : s.Inv) : Safe (execAndB32Imm d i a s) := by
  unfold execAndB32Imm
  exact safe_aluI hs

theorem safe_execOrB32Imm {d i a s} (hs : s.Inv) : Safe (execOrB32Imm d i a s) := by
  unfold execOrB32Imm
  exact safe_aluI hs

theorem safe_execXorB32Imm {d i a s} (hs : s.Inv) : Safe (execXorB32Imm d i a s) := by
  unfold execXorB32Imm
  exact safe_aluI hs

theorem safe_execShlB32Imm {d i a s} (hs : s.Inv) : Safe (execShlB32Imm d i a s) := by
  unfold execShlB32Imm
  exact safe_aluI hs

theorem safe_execShrZ32Imm {d i a s} (hs : s.Inv) : Safe (execShrZ32Imm d i a s) := by
  unfold execShrZ32Imm
  exact safe_aluI hs

theorem safe_execShrS32Imm {d i a s} (hs : s.Inv) : Safe (execShrS32Imm d i a s) := by
  unfold execShrS32Imm
  exact safe_aluI hs

theorem safe_execMinS32Imm {d i a s} (hs : s.Inv) : Safe (execMinS32Imm d i a s) := by
  unfold execMinS32Imm
  exact safe_aluI hs

theorem safe_execMaxS32Imm {d i a s} (hs : s.Inv) : Safe (execMaxS32Imm d i a s) := by
  unfold execMaxS32Imm
  exact safe_aluI hs

theorem safe_execMovB32Imm {d i s} (hs : s.Inv) : Safe (execMovB32Imm d i s) := by
  unfold execMovB32Imm
  exact safe_aluAll hs

theorem safe_execAdr {d i s} (hs : s.Inv) : Safe (execAdr d i s) := by
  unfold execAdr
  exact safe_aluAll hs

theorem safe_execIsetEqB32Imm {d i a s} (hs : s.Inv) : Safe (execIsetEqB32Imm d i a s) := by
  unfold execIsetEqB32Imm
  exact safe_aluI hs

theorem safe_execIsetNeB32Imm {d i a s} (hs : s.Inv) : Safe (execIsetNeB32Imm d i a s) := by
  unfold execIsetNeB32Imm
  exact safe_aluI hs

theorem safe_execIsetLtS32Imm {d i a s} (hs : s.Inv) : Safe (execIsetLtS32Imm d i a s) := by
  unfold execIsetLtS32Imm
  exact safe_aluI hs

theorem safe_execIsetLeS32Imm {d i a s} (hs : s.Inv) : Safe (execIsetLeS32Imm d i a s) := by
  unfold execIsetLeS32Imm
  exact safe_aluI hs

theorem safe_execIsetGtS32Imm {d i a s} (hs : s.Inv) : Safe (execIsetGtS32Imm d i a s) := by
  unfold execIsetGtS32Imm
  exact safe_aluI hs

theorem safe_execIsetGeS32Imm {d i a s} (hs : s.Inv) : Safe (execIsetGeS32Imm d i a s) := by
  unfold execIsetGeS32Imm
  exact safe_aluI hs

theorem safe_execIsetLtZ32Imm {d i a s} (hs : s.Inv) : Safe (execIsetLtZ32Imm d i a s) := by
  unfold execIsetLtZ32Imm
  exact safe_aluI hs

theorem safe_execIsetLeZ32Imm {d i a s} (hs : s.Inv) : Safe (execIsetLeZ32Imm d i a s) := by
  unfold execIsetLeZ32Imm
  exact safe_aluI hs

theorem safe_execIsetGtZ32Imm {d i a s} (hs : s.Inv) : Safe (execIsetGtZ32Imm d i a s) := by
  unfold execIsetGtZ32Imm
  exact safe_aluI hs

theorem safe_execIsetGeZ32Imm {d i a s} (hs : s.Inv) : Safe (execIsetGeZ32Imm d i a s) := by
  unfold execIsetGeZ32Imm
  exact safe_aluI hs

/-! ## Canonical memory: Constants and fused integer forms (R176, R178, R179) -/

theorem safe_execConst {i s} (hs : s.Inv) : Safe (execConst i s) := by
  unfold execConst
  exact safe_aluAll hs

theorem safe_execConsthi {i s} (hs : s.Inv) : Safe (execConsthi i s) := by
  unfold execConsthi
  exact safe_aluAll hs

theorem safe_execImadS32 {d c b a s} (hs : s.Inv) : Safe (execImadS32 d c b a s) := by
  unfold execImadS32
  exact safe_alu3 hs

theorem safe_execImadZ32 {d c b a s} (hs : s.Inv) : Safe (execImadZ32 d c b a s) := by
  unfold execImadZ32
  exact safe_alu3 hs

theorem safe_execShladd {d c b a s} (hs : s.Inv) : Safe (execShladd d c b a s) := by
  unfold execShladd
  exact safe_alu3 hs

/-! ## Canonical memory: Loads (R204, R205) -/

theorem safe_execLdS8 {r f b x s} (hs : s.Inv) : Safe (execLdS8 r f b x s) := by
  unfold execLdS8
  exact safe_loadM hs

theorem safe_execLdZ8 {r f b x s} (hs : s.Inv) : Safe (execLdZ8 r f b x s) := by
  unfold execLdZ8
  exact safe_loadM hs

theorem safe_execLdS16 {r f b x s} (hs : s.Inv) : Safe (execLdS16 r f b x s) := by
  unfold execLdS16
  exact safe_loadM hs

theorem safe_execLdZ16 {r f b x s} (hs : s.Inv) : Safe (execLdZ16 r f b x s) := by
  unfold execLdZ16
  exact safe_loadM hs

theorem safe_execLdB32 {r f b x s} (hs : s.Inv) : Safe (execLdB32 r f b x s) := by
  unfold execLdB32
  exact safe_loadM hs

theorem safe_execLdB64 {r f b x s} (hs : s.Inv) : Safe (execLdB64 r f b x s) := by
  unfold execLdB64
  exact safe_loadM hs

theorem safe_execLdB128 {r f b x s} (hs : s.Inv) : Safe (execLdB128 r f b x s) := by
  unfold execLdB128
  exact safe_loadM hs

/-! ## Canonical memory: Stores (R204, R206) -/

theorem safe_execStB8 {r f b x s} (hs : s.Inv) : Safe (execStB8 r f b x s) := by
  unfold execStB8
  exact safe_storeM hs

theorem safe_execStB16 {r f b x s} (hs : s.Inv) : Safe (execStB16 r f b x s) := by
  unfold execStB16
  exact safe_storeM hs

theorem safe_execStB32 {r f b x s} (hs : s.Inv) : Safe (execStB32 r f b x s) := by
  unfold execStB32
  exact safe_storeM hs

theorem safe_execStB64 {r f b x s} (hs : s.Inv) : Safe (execStB64 r f b x s) := by
  unfold execStB64
  exact safe_storeM hs

theorem safe_execStB128 {r f b x s} (hs : s.Inv) : Safe (execStB128 r f b x s) := by
  unfold execStB128
  exact safe_storeM hs

/-! ## Canonical memory: Scratchpad (R208) -/

theorem safe_execLdsB32 {r f b x s} (hs : s.Inv) : Safe (execLdsB32 r f b x s) := by
  unfold execLdsB32
  exact safe_loadM hs

theorem safe_execLdsB64 {r f b x s} (hs : s.Inv) : Safe (execLdsB64 r f b x s) := by
  unfold execLdsB64
  exact safe_loadM hs

theorem safe_execLdsB128 {r f b x s} (hs : s.Inv) : Safe (execLdsB128 r f b x s) := by
  unfold execLdsB128
  exact safe_loadM hs

theorem safe_execStsB32 {r f b x s} (hs : s.Inv) : Safe (execStsB32 r f b x s) := by
  unfold execStsB32
  exact safe_storeM hs

theorem safe_execStsB64 {r f b x s} (hs : s.Inv) : Safe (execStsB64 r f b x s) := by
  unfold execStsB64
  exact safe_storeM hs

theorem safe_execStsB128 {r f b x s} (hs : s.Inv) : Safe (execStsB128 r f b x s) := by
  unfold execStsB128
  exact safe_storeM hs

theorem safe_execLdrB32 {r f b x s} (hs : s.Inv) : Safe (execLdrB32 r f b x s) := by
  unfold execLdrB32
  exact safe_loadM hs

theorem safe_execLdrB64 {r f b x s} (hs : s.Inv) : Safe (execLdrB64 r f b x s) := by
  unfold execLdrB64
  exact safe_loadM hs

theorem safe_execStrB32 {r f b x s} (hs : s.Inv) : Safe (execStrB32 r f b x s) := by
  unfold execStrB32
  exact safe_storeM hs

theorem safe_execStrB64 {r f b x s} (hs : s.Inv) : Safe (execStrB64 r f b x s) := by
  unfold execStrB64
  exact safe_storeM hs

/-! ## Canonical memory: Gather (R210) -/

theorem safe_execGatherB32 {r f b x s} (hs : s.Inv) : Safe (execGatherB32 r f b x s) := by
  unfold execGatherB32
  exact safe_loadM hs

/-! ## Canonical memory: Host pointers (R209) -/

theorem safe_execLdhB32 {r f b x s} (hs : s.Inv) : Safe (execLdhB32 r f b x s) := by
  unfold execLdhB32
  exact safe_loadHost hs

theorem safe_execLdhB64 {r f b x s} (hs : s.Inv) : Safe (execLdhB64 r f b x s) := by
  unfold execLdhB64
  exact safe_loadHost hs

theorem safe_execSthB32 {r f b x s} (hs : s.Inv) : Safe (execSthB32 r f b x s) := by
  unfold execSthB32
  exact safe_storeHost hs

theorem safe_execSthB64 {r f b x s} (hs : s.Inv) : Safe (execSthB64 r f b x s) := by
  unfold execSthB64
  exact safe_storeHost hs

/-! ## Canonical memory: Atomics (R212 to R214) -/

theorem safe_execAtmAddZ32 {q d c f b a s} (hs : s.Inv) : Safe (execAtmAddZ32 q d c f b a s) := by
  unfold execAtmAddZ32
  exact safe_atomic hs

theorem safe_execAtmAddF32 {q d c f b a s} (hs : s.Inv) : Safe (execAtmAddF32 q d c f b a s) := by
  unfold execAtmAddF32
  exact safe_atomic hs

theorem safe_execAtmMinS32 {q d c f b a s} (hs : s.Inv) : Safe (execAtmMinS32 q d c f b a s) := by
  unfold execAtmMinS32
  exact safe_atomic hs

theorem safe_execAtmMaxS32 {q d c f b a s} (hs : s.Inv) : Safe (execAtmMaxS32 q d c f b a s) := by
  unfold execAtmMaxS32
  exact safe_atomic hs

theorem safe_execAtmMinZ32 {q d c f b a s} (hs : s.Inv) : Safe (execAtmMinZ32 q d c f b a s) := by
  unfold execAtmMinZ32
  exact safe_atomic hs

theorem safe_execAtmMaxZ32 {q d c f b a s} (hs : s.Inv) : Safe (execAtmMaxZ32 q d c f b a s) := by
  unfold execAtmMaxZ32
  exact safe_atomic hs

theorem safe_execAtmAndB32 {q d c f b a s} (hs : s.Inv) : Safe (execAtmAndB32 q d c f b a s) := by
  unfold execAtmAndB32
  exact safe_atomic hs

theorem safe_execAtmOrB32 {q d c f b a s} (hs : s.Inv) : Safe (execAtmOrB32 q d c f b a s) := by
  unfold execAtmOrB32
  exact safe_atomic hs

theorem safe_execAtmXorB32 {q d c f b a s} (hs : s.Inv) : Safe (execAtmXorB32 q d c f b a s) := by
  unfold execAtmXorB32
  exact safe_atomic hs

theorem safe_execAtmExchB32 {q d c f b a s} (hs : s.Inv) : Safe (execAtmExchB32 q d c f b a s) := by
  unfold execAtmExchB32
  exact safe_atomic hs

theorem safe_execAtmCasB32 {q d c f b a s} (hs : s.Inv) : Safe (execAtmCasB32 q d c f b a s) := by
  unfold execAtmCasB32
  exact safe_atomicCas hs

/-! ## Canonical memory: Acquire loads and release stores (R215) -/

theorem safe_execLdAcqB32 {d c f a s} (hs : s.Inv) : Safe (execLdAcqB32 d c f a s) := by
  unfold execLdAcqB32
  exact safe_loadAcq hs

theorem safe_execLdAcqB64 {d c f a s} (hs : s.Inv) : Safe (execLdAcqB64 d c f a s) := by
  unfold execLdAcqB64
  exact safe_loadAcq hs

theorem safe_execStRelB32 {c f b a s} (hs : s.Inv) : Safe (execStRelB32 c f b a s) := by
  unfold execStRelB32
  exact safe_storeRel hs

theorem safe_execStRelB64 {c f b a s} (hs : s.Inv) : Safe (execStRelB64 c f b a s) := by
  unfold execStRelB64
  exact safe_storeRel hs

/-! ## Canonical memory: Monitors and arrival words (R216 to R220) -/

theorem safe_execMonWaitEq {d c f b a s} (hs : s.Inv) : Safe (execMonWaitEq d c f b a s) := by
  unfold execMonWaitEq
  exact safe_monitorWord hs

theorem safe_execMonWaitNe {d c f b a s} (hs : s.Inv) : Safe (execMonWaitNe d c f b a s) := by
  unfold execMonWaitNe
  exact safe_monitorWord hs

theorem safe_execMonWaitGez {d c f b a s} (hs : s.Inv) : Safe (execMonWaitGez d c f b a s) := by
  unfold execMonWaitGez
  exact safe_monitorWord hs

theorem safe_execArriveInit {d f b a s} (hs : s.Inv) : Safe (execArriveInit d f b a s) := by
  unfold execArriveInit
  exact safe_arrival hs

theorem safe_execArriveAdd {d f b a s} (hs : s.Inv) : Safe (execArriveAdd d f b a s) := by
  unfold execArriveAdd
  exact safe_arrival hs

theorem safe_execArriveWait {d c f b a s} (hs : s.Inv) : Safe (execArriveWait d c f b a s) := by
  unfold execArriveWait
  exact safe_monitorWord hs

/-! ## Canonical memory: Fences (R222, R223) -/

theorem safe_execFence {c s} (hs : s.Inv) : Safe (execFence c s) := by
  unfold execFence
  exact safe_fenceWord hs

theorem safe_execFenceX {c r p s} (hs : s.Inv) : Safe (execFenceX c r p s) := by
  unfold execFenceX
  exact safe_fenceXWord hs

/-! ## Canonical memory: Page-attribute requests (R224) -/

theorem safe_execHint {d f b a s} (hs : s.Inv) : Safe (execHint d f b a s) := by
  unfold execHint
  exact safe_attrWord hs

theorem safe_execPgset {d f b a s} (hs : s.Inv) : Safe (execPgset d f b a s) := by
  unfold execPgset
  exact safe_attrWord hs

/-! ## Canonical memory: Fields and counters -/

theorem inv_writeSstatus {s c v} (hs : s.Inv) : (writeSstatus s c v).Inv := by
  unfold writeSstatus
  exact inv_writeSpp (inv_modMast hs)

theorem inv_writeMstatus {s c v} (hs : s.Inv) : (writeMstatus s c v).Inv := by
  unfold writeMstatus
  exact inv_writeMpp (inv_modMast (inv_writeSstatus hs))

theorem inv_writeInhibit {s c v} (hs : s.Inv) : (writeInhibit s c v).Inv := by
  unfold writeInhibit
  exact inv_modMast hs

theorem inv_writeMcycle {s c v} (hs : s.Inv) : (writeMcycle s c v).Inv := by
  unfold writeMcycle
  exact inv_modMast hs

theorem inv_writePmpcfg8 {s c k v} (hs : s.Inv) : (writePmpcfg8 s c k v).Inv := by
  unfold writePmpcfg8
  exact inv_foldl (fun _ _ ht => inv_writePmpcfg ht) hs

theorem inv_setFcsr {s c v mask} (hs : s.Inv) : (setFcsr s c v mask).Inv := by
  unfold setFcsr
  exact inv_modMast hs

/-! ## Canonical memory: Reads -/

/-- A register read whose state, if any, is in canonical form. -/
def InvReg (o : Option (DWord × State)) : Prop := ∀ v t, o = some (v, t) → t.Inv

theorem invReg_none : InvReg none := by
  intro v t h
  cases h

theorem invReg_some {p : DWord × State} (k : p.2.Inv) : InvReg (some p) := by
  intro v t h
  cases h
  exact k

theorem invReg_ite {c : Prop} {inst : Decidable c} {a b : Option (DWord × State)} (ha : InvReg a) (hb : InvReg b) :
    InvReg (if c then a else b) := by
  split
  · exact ha
  · exact hb

theorem invReg_map {s : State} {o : Option DWord} (hs : s.Inv) : InvReg (o.map (fun v => (v, s))) := by
  cases o with
  | none => exact invReg_none
  | some v => exact invReg_some hs

theorem invReg_readKalyel {s c n} (hs : s.Inv) : InvReg (readKalyel s c n) := by
  unfold readKalyel
  extract_lets m
  split
  · exact invReg_some hs
  · exact invReg_some hs
  · exact invReg_some hs
  · exact invReg_some hs
  · exact invReg_some (inv_popCall hs)
  · exact invReg_some hs
  · exact invReg_some (inv_popMessage hs)
  · exact invReg_some hs
  · exact invReg_some (inv_emptyReadAhead hs)
  · exact invReg_some hs
  · exact invReg_some hs
  · exact invReg_some hs
  · exact invReg_some hs
  · exact invReg_some hs
  · exact invReg_some hs
  · exact invReg_ite (invReg_some hs) (invReg_ite (invReg_some hs) invReg_none)

theorem inv_readCsr_some {s c n v t} (hs : s.Inv) (h : readCsr s c n = some (v, t)) : t.Inv := by
  have k : InvReg (readCsr s c n) := invReg_ite invReg_none (invReg_ite (invReg_readKalyel hs) (invReg_map hs))
  exact k v t h

/-! ## Canonical memory: Writes -/

theorem inv_writeKalyel {s c n v} (hs : s.Inv) : (writeKalyel s c n v).Inv := by
  unfold writeKalyel
  extract_lets reg
  have hreg : ∀ a, (reg a).Inv := by
    intro a
    unfold reg
    exact inv_writeRegister hs
  split
  · exact hreg _
  · exact inv_writeJbud hs
  · exact hreg _
  · exact hreg _
  · exact inv_modMast hs
  · exact hreg _
  · exact hreg _
  · exact inv_ite (inv_writeEnd hs) (inv_ite (inv_writeResume hs) hs)
  · exact inv_ite (hreg _) (inv_ite (hreg _) hs)

theorem inv_writeM {s c n v} (hs : s.Inv) : (writeM s c n v).Inv := by
  unfold writeM
  extract_lets m
  have hm : ∀ a, (m a).Inv := by
    intro a
    unfold m
    exact inv_modMast hs
  split
  · exact inv_writeMstatus hs
  · exact hm _
  · exact hm _
  · exact hm _
  · exact hm _
  · exact hm _
  · exact hm _
  · exact inv_writeInhibit hs
  · exact hm _
  · exact hm _
  · exact hm _
  · exact hm _
  · exact hm _
  · exact inv_writeMcycle hs
  · exact hm _
  · exact inv_writePmpcfg8 hs
  · exact inv_writePmpcfg8 hs
  · exact inv_ite (inv_writePmpaddr hs) hs

theorem inv_writeS {s c n v} (hs : s.Inv) : (writeS s c n v).Inv := by
  unfold writeS
  extract_lets m
  have hm : ∀ a, (m a).Inv := by
    intro a
    unfold m
    exact inv_modMast hs
  split
  · exact inv_writeSstatus hs
  · exact hm _
  · exact hm _
  · exact hm _
  · exact hm _
  · exact hm _
  · exact hm _
  · exact hm _
  · exact hm _
  · exact hm _
  · exact hs

theorem inv_writeU {s c n v} (hs : s.Inv) : (writeU s c n v).Inv := by
  unfold writeU
  split <;> exact inv_setFcsr hs

theorem inv_writeCsr {s c n v} (hs : s.Inv) : (writeCsr s c n v).Inv := by
  unfold writeCsr
  refine inv_ite (inv_writeKalyel hs) ?_
  split
  · exact inv_writeU hs
  · exact inv_writeS hs
  · exact inv_writeM hs

/-! ## Canonical memory: Immediates and registers -/

theorem inv_rvIllegal {s c} (hs : s.Inv) : (rvState (rvIllegal s c)).Inv := by
  unfold rvIllegal
  exact inv_mastTrap hs

/-! ## Canonical memory: Atomics -/

theorem inv_rvAtomic {s c w} (hs : s.Inv) : (rvState (rvAtomic s c w)).Inv := by
  unfold rvAtomic
  extract_lets f3 n a d rd
  refine inv_ite_rv (inv_rvIllegal hs) ?_
  split
  · exact inv_ite_rv (inv_ofAccess (inv_mastLr hs)) (inv_rvIllegal hs)
  · exact inv_ofAccess (inv_mastSc hs)
  · split
    · exact inv_ofAccess (inv_mastAmo hs)
    · exact inv_rvIllegal hs

/-! ## Canonical memory: Floating point -/

theorem inv_setF {s c rd dbl v} (hs : s.Inv) : (setF s c rd dbl v).Inv := by
  unfold setF
  extract_lets x
  exact inv_modMast hs

theorem inv_accrue {s c flags} (hs : s.Inv) : (accrue s c flags).Inv := by
  unfold accrue
  exact inv_modMast hs

theorem inv_doneF {s c rd dbl r} (hs : s.Inv) : (rvState (doneF s c rd dbl r)).Inv := by
  unfold doneF
  exact inv_accrue (inv_setF hs)

theorem inv_rvFused {s c w} (hs : s.Inv) : (rvState (rvFused s c w)).Inv := by
  unfold rvFused
  extract_lets dbl v
  split
  · exact inv_doneF hs
  · exact inv_rvIllegal hs

theorem inv_rvToX {s c w rm dbl k} (hs : s.Inv) : (rvState (rvToX s c w rm dbl k)).Inv := by
  unfold rvToX
  extract_lets width r v
  exact inv_accrue (inv_setX hs)

theorem inv_rvFromX {s c w rm dbl k} (hs : s.Inv) : (rvState (rvFromX s c w rm dbl k)).Inv := by
  unfold rvFromX
  extract_lets x v
  exact inv_doneF hs

theorem inv_rvMoveX {s c w dbl} (hs : s.Inv) : (rvState (rvMoveX s c w dbl)).Inv := by
  unfold rvMoveX
  extract_lets i rd
  refine inv_ite_rv (inv_rvIllegal hs) ?_
  split
  · exact inv_setX hs
  · exact inv_setX hs
  · exact inv_rvIllegal hs

theorem inv_rvOpRound {s c w rm dbl} (hs : s.Inv) : (rvState (rvOpRound s c w rm dbl)).Inv := by
  unfold rvOpRound
  extract_lets f k a b rd
  split
  · exact inv_doneF hs
  · exact inv_doneF hs
  · exact inv_doneF hs
  · exact inv_doneF hs
  · exact inv_ite_rv (inv_doneF hs) (inv_rvIllegal hs)
  · exact inv_ite_rv (inv_doneF hs) (inv_rvIllegal hs)
  · exact inv_ite_rv (inv_rvToX hs) (inv_rvIllegal hs)
  · exact inv_ite_rv (inv_rvFromX hs) (inv_rvIllegal hs)
  · exact inv_rvIllegal hs

/-- An ending whose state, if any, is in canonical form. -/
def InvRv (o : Option RvEnd) : Prop := ∀ e, o = some e → (rvState e).Inv

theorem invRv_none : InvRv none := by
  intro e h
  cases h

theorem invRv_some {e : RvEnd} (k : (rvState e).Inv) : InvRv (some e) := by
  intro e h
  cases h
  exact k

theorem inv_rvOpPlain_some {s c w dbl e} (hs : s.Inv) (h : rvOpPlain s c w dbl = some e) : (rvState e).Inv := by
  suffices k : InvRv (rvOpPlain s c w dbl) from k e h
  unfold rvOpPlain
  extract_lets f f3 a b rd r
  split
  · exact invRv_some (inv_ite_rv (inv_setF hs) (inv_rvIllegal hs))
  · exact invRv_some (inv_ite_rv (inv_doneF hs) (inv_rvIllegal hs))
  · exact invRv_some (inv_ite_rv (inv_accrue (inv_setX hs)) (inv_rvIllegal hs))
  · exact invRv_some (inv_rvMoveX hs)
  · exact invRv_some (inv_ite_rv (inv_setF hs) (inv_rvIllegal hs))
  · exact invRv_none

theorem inv_rvOpFp {s c w} (hs : s.Inv) : (rvState (rvOpFp s c w)).Inv := by
  unfold rvOpFp
  refine inv_ite_rv (inv_rvIllegal hs) ?_
  split
  · exact inv_rvOpPlain_some hs ‹_›
  · split
    · exact inv_rvOpRound hs
    · exact inv_rvIllegal hs

theorem inv_rvLoadF {s c w} (hs : s.Inv) : (rvState (rvLoadF s c w)).Inv := by
  unfold rvLoadF
  extract_lets dbl
  split
  · exact inv_setF (inv_mastLoad_ok hs ‹_›)
  · exact inv_ofAccess (inv_mastLoad_error hs ‹_›)

theorem inv_rvStoreF {s c w} (hs : s.Inv) : (rvState (rvStoreF s c w)).Inv := by
  unfold rvStoreF
  exact inv_ofAccess (inv_mastStore hs)

theorem inv_rvFloat {s c w} (hs : s.Inv) : (rvState (rvFloat s c w)).Inv := by
  unfold rvFloat
  extract_lets wide
  refine inv_ite_rv (inv_rvIllegal hs) ?_
  split
  · exact inv_ite_rv (inv_rvLoadF hs) (inv_rvIllegal hs)
  · exact inv_ite_rv (inv_rvStoreF hs) (inv_rvIllegal hs)
  · exact inv_rvOpFp hs
  · exact inv_rvFused hs

/-! ## Canonical memory: System instructions -/

theorem inv_rv_go {t : State} {pc : DWord} (h : t.Inv) : (rvState (.go t pc)).Inv := h

theorem inv_rvMret {s c} (hs : s.Inv) : (rvState (rvMret s c)).Inv := by
  unfold rvMret
  extract_lets m back
  exact inv_ite_rv (inv_rvIllegal hs) (inv_rv_go (inv_modMast hs))

theorem inv_rvSret {s c} (hs : s.Inv) : (rvState (rvSret s c)).Inv := by
  unfold rvSret
  extract_lets m
  exact inv_ite_rv (inv_rvIllegal hs) (inv_rv_go (inv_modMast hs))

theorem inv_rvCsr {s c w} (hs : s.Inv) : (rvState (rvCsr s c w)).Inv := by
  unfold rvCsr
  extract_lets n f3 src rd v writes
  refine inv_ite_rv (inv_rvIllegal hs) ?_
  split
  · exact inv_rvIllegal hs
  · extract_lets s1 new
    have hs1 : s1.Inv := by
      unfold s1
      exact inv_ite hs (inv_readCsr_some hs ‹_›)
    exact inv_setX (inv_ite (inv_writeCsr hs1) hs1)

theorem inv_rvPriv {s c w} (hs : s.Inv) : (rvState (rvPriv s c w)).Inv := by
  unfold rvPriv
  extract_lets m
  refine inv_ite_rv (inv_mastTrap hs) ?_
  refine inv_ite_rv (inv_mastTrap hs) ?_
  refine inv_ite_rv (inv_rvMret hs) ?_
  refine inv_ite_rv (inv_rvSret hs) ?_
  refine inv_ite_rv (inv_ite_rv (inv_rvIllegal hs) hs) ?_
  exact inv_ite_rv (inv_ite_rv (inv_rvIllegal hs) hs) (inv_rvIllegal hs)

/-! ## Canonical memory: One instruction -/

theorem inv_rvLoad {s c w} (hs : s.Inv) : (rvState (rvLoad s c w)).Inv := by
  unfold rvLoad
  extract_lets a f3
  exact inv_ite_rv (inv_rvIllegal hs) (inv_ofAccess (inv_mastLoadX hs))

theorem inv_rvStore {s c w} (hs : s.Inv) : (rvState (rvStore s c w)).Inv := by
  unfold rvStore
  extract_lets a f3
  exact inv_ite_rv (inv_rvIllegal hs) (inv_ofAccess (inv_mastStore hs))

theorem inv_rvExec {s c w len} (hs : s.Inv) : (rvState (rvExec s c w len)).Inv := by
  unfold rvExec
  extract_lets pc rd a link result
  have hresult : ∀ o, (rvState (result o)).Inv := by
    intro o
    cases o with
    | none => exact inv_rvIllegal hs
    | some v => exact inv_setX hs
  clear_value result
  split
  · exact hresult _
  · exact hresult _
  · exact inv_rv_go (inv_setX hs)
  · exact inv_ite_rv (inv_rv_go (inv_setX hs)) (inv_rvIllegal hs)
  · split
    · exact inv_ite_rv hs hs
    · exact inv_rvIllegal hs
  · exact inv_rvLoad hs
  · exact inv_rvStore hs
  · exact hresult _
  · exact hresult _
  · exact hresult _
  · exact hresult _
  · exact inv_ite_rv (inv_emptyReadAhead hs) (inv_rvIllegal hs)
  · exact inv_rvAtomic hs
  · exact inv_rvFloat hs
  · exact inv_rvFloat hs
  · exact inv_rvFloat hs
  · exact inv_rvFloat hs
  · exact inv_rvFloat hs
  · exact inv_rvFloat hs
  · exact inv_rvFloat hs
  · exact inv_ite_rv (inv_rvPriv hs) (inv_ite_rv (inv_rvIllegal hs) (inv_rvCsr hs))
  · exact inv_rvIllegal hs

theorem inv_retire {s c pc} (hs : s.Inv) : (retire s c pc).Inv := by
  unfold retire
  exact inv_modMast hs

/-- Where a Mast goes on after an instruction. -/
def afterRv (s : State) (c len : Nat) : RvEnd → State
  | .next t => retire t c ((mast s c).pc + BitVec.ofNat 64 len)
  | .go t pc => retire t c pc
  | .wait t => t
  | .trapped t => t

theorem inv_afterRv {s c len e} (k : (rvState e).Inv) : (afterRv s c len e).Inv := by
  cases e
  · exact inv_retire k
  · exact inv_retire k
  · exact k
  · exact k

theorem rvRun_eq_afterRv (s : State) (c : Nat) (w : Option Nat) (len : Nat) :
    rvRun s c w len = afterRv s c len (w.elim (rvIllegal s c) (fun x => rvExec s c x len)) := by
  cases w <;> rfl

theorem inv_rvRun {s c w len} (hs : s.Inv) : (rvRun s c w len).Inv := by
  rw [rvRun_eq_afterRv]
  refine inv_afterRv ?_
  cases w with
  | none => exact inv_rvIllegal hs
  | some x => exact inv_rvExec hs

theorem inv_mastStep {s c} (hs : s.Inv) : (mastStep s c).Inv := by
  unfold mastStep
  split
  · exact inv_takeInterrupt hs
  · extract_lets pc
    split
    next h => exact inv_mastLoad_error hs h
    next h =>
      have hs1 := inv_mastLoad_ok hs h
      refine inv_ite (inv_rvRun hs1) ?_
      split
      next h' => exact inv_mastLoad_error hs1 h'
      next h' => exact inv_rvRun (inv_mastLoad_ok hs1 h')

theorem safe_execMastLoadStore {c k n a d rd s} (hs : s.Inv) : Safe (execMastLoadStore c k n a d rd s) := by
  unfold execMastLoadStore
  refine safe_next ?_
  refine inv_ite hs ?_
  split
  · exact inv_mastStore hs
  · exact inv_mastLoadX hs
  · exact inv_mastLoadX hs
  · refine inv_ite (inv_mastStep hs) ?_
    split
    · exact inv_mastLoad_ok hs ‹_›
    · exact inv_mastLoad_error hs ‹_›

theorem safe_exec {i s} (hs : s.Inv) : Safe (exec i s) := by
  unfold exec
  split
  · exact safe_execAddS32 hs
  · exact safe_execAddS32Sat hs
  · exact safe_execAddZ32Sat hs
  · exact safe_execSubS32 hs
  · exact safe_execSubS32Sat hs
  · exact safe_execSubZ32Sat hs
  · exact safe_execMulS32 hs
  · exact safe_execMulhiS32 hs
  · exact safe_execMulhiZ32 hs
  · exact safe_execMinS32 hs
  · exact safe_execMaxS32 hs
  · exact safe_execMinZ32 hs
  · exact safe_execMaxZ32 hs
  · exact safe_execAbsS32 hs
  · exact safe_execNegS32 hs
  · exact safe_execMovB32 hs
  · exact safe_execAndB32 hs
  · exact safe_execOrB32 hs
  · exact safe_execXorB32 hs
  · exact safe_execAndnB32 hs
  · exact safe_execNotB32 hs
  · exact safe_execAddB64 hs
  · exact safe_execSubB64 hs
  · exact safe_execMulwS32 hs
  · exact safe_execMulwZ32 hs
  · exact safe_execDivS32 hs
  · exact safe_execDivZ32 hs
  · exact safe_execRemS32 hs
  · exact safe_execRemZ32 hs
  · exact safe_execShlB32 hs
  · exact safe_execShrZ32 hs
  · exact safe_execShrS32 hs
  · exact safe_execRolB32 hs
  · exact safe_execShlB64 hs
  · exact safe_execShrZ64 hs
  · exact safe_execShrS64 hs
  · exact safe_execPopcB32 hs
  · exact safe_execClzB32 hs
  · exact safe_execCtzB32 hs
  · exact safe_execBrevB32 hs
  · exact safe_execBfxS32 hs
  · exact safe_execBfxZ32 hs
  · exact safe_execIsetEqB32 hs
  · exact safe_execIsetNeB32 hs
  · exact safe_execIsetLtS32 hs
  · exact safe_execIsetLeS32 hs
  · exact safe_execIsetGtS32 hs
  · exact safe_execIsetGeS32 hs
  · exact safe_execIsetLtZ32 hs
  · exact safe_execIsetLeZ32 hs
  · exact safe_execIsetGtZ32 hs
  · exact safe_execIsetGeZ32 hs
  · exact safe_execSelB32 hs
  · exact safe_execFaddF32 hs
  · exact safe_execFsubF32 hs
  · exact safe_execFmulF32 hs
  · exact safe_execFaddF16 hs
  · exact safe_execFsubF16 hs
  · exact safe_execFmulF16 hs
  · exact safe_execFminF32 hs
  · exact safe_execFmaxF32 hs
  · exact safe_execFminF16 hs
  · exact safe_execFmaxF16 hs
  · exact safe_execFabsF32 hs
  · exact safe_execFnegF32 hs
  · exact safe_execFabsF16 hs
  · exact safe_execFnegF16 hs
  · exact safe_execFsetF32 hs
  · exact safe_execFsetF16 hs
  · exact safe_execFrndF32 hs
  · exact safe_execFrndF16 hs
  · exact safe_execFaddBf16x2 hs
  · exact safe_execFmulBf16x2 hs
  · exact safe_execFaddF16x2 hs
  · exact safe_execFmulF16x2 hs
  · exact safe_execFminBf16x2 hs
  · exact safe_execFmaxBf16x2 hs
  · exact safe_execFminF16x2 hs
  · exact safe_execFmaxF16x2 hs
  · exact safe_execCvtF16F32 hs
  · exact safe_execCvtBf16F32 hs
  · exact safe_execCvtBf16F16 hs
  · exact safe_execCvtF16Bf16 hs
  · exact safe_execCvtF32F16 hs
  · exact safe_execCvtF32Bf16 hs
  · exact safe_execPackBf16x2F32 hs
  · exact safe_execPackF16x2F32 hs
  · exact safe_execCvtIntF32 hs
  · exact safe_execCvtIntF16 hs
  · exact safe_execCvtIntBf16 hs
  · exact safe_execCvtF32Int hs
  · exact safe_execCvtF16Int hs
  · exact safe_execCvtBf16Int hs
  · exact safe_execRcpF32 hs
  · exact safe_execRsqF32 hs
  · exact safe_execSqrtF32 hs
  · exact safe_execEx2F32 hs
  · exact safe_execLg2F32 hs
  · exact safe_execSinF32 hs
  · exact safe_execCosF32 hs
  · exact safe_execRcpF16 hs
  · exact safe_execRsqF16 hs
  · exact safe_execSqrtF16 hs
  · exact safe_execEx2F16 hs
  · exact safe_execLg2F16 hs
  · exact safe_execSinF16 hs
  · exact safe_execCosF16 hs
  · exact safe_execLaneSelB32 hs
  · exact safe_execVoteAny hs
  · exact safe_execVoteAll hs
  · exact safe_execVoteBal hs
  · exact safe_execVoteUni hs
  · exact safe_execElect hs
  · exact safe_execSreg hs
  · exact safe_execMsig hs
  · exact safe_execMark hs
  · exact safe_execRsvSet hs
  · exact safe_execRsvFree hs
  · exact safe_execRsvGet hs
  · exact safe_execMxld hs
  · exact safe_execMmaBf16 hs
  · exact safe_execMmaF16 hs
  · exact safe_execMmaK hs
  · exact safe_execMmaKOl hs
  · exact safe_execMmaBf16G hs
  · exact safe_execMmaF16G hs
  · exact safe_execMmaKG hs
  · exact safe_execMmaKOlG hs
  · exact safe_execGangSet hs
  · exact safe_execGangGet hs
  · exact safe_execAccZero hs
  · exact safe_execAccLd hs
  · exact safe_execAccSt hs
  · exact safe_execAccRd hs
  · exact safe_execAccFree hs
  · exact safe_execGroveVt hs
  · exact safe_execGroveSwap hs
  · exact safe_execGroveRd hs
  · exact safe_execAtmAddZ32 hs
  · exact safe_execAtmAddF32 hs
  · exact safe_execAtmMinS32 hs
  · exact safe_execAtmMaxS32 hs
  · exact safe_execAtmMinZ32 hs
  · exact safe_execAtmMaxZ32 hs
  · exact safe_execAtmAndB32 hs
  · exact safe_execAtmOrB32 hs
  · exact safe_execAtmXorB32 hs
  · exact safe_execAtmExchB32 hs
  · exact safe_execAtmCasB32 hs
  · exact safe_execLdAcqB32 hs
  · exact safe_execLdAcqB64 hs
  · exact safe_execStRelB32 hs
  · exact safe_execStRelB64 hs
  · exact safe_execMonWaitEq hs
  · exact safe_execMonWaitNe hs
  · exact safe_execMonWaitGez hs
  · exact safe_execArriveInit hs
  · exact safe_execArriveAdd hs
  · exact safe_execArriveWait hs
  · exact safe_execFence hs
  · exact safe_execFenceX hs
  · exact safe_execHint hs
  · exact safe_execPgset hs
  · exact safe_execFmaF32 hs
  · exact safe_execFmsF32 hs
  · exact safe_execFmaF16 hs
  · exact safe_execFmaBf16x2 hs
  · exact safe_execFmaF16x2 hs
  · exact safe_execImadS32 hs
  · exact safe_execImadZ32 hs
  · exact safe_execShladd hs
  · exact safe_execAddS32Imm hs
  · exact safe_execAddS32SatImm hs
  · exact safe_execMulS32Imm hs
  · exact safe_execAndB32Imm hs
  · exact safe_execOrB32Imm hs
  · exact safe_execXorB32Imm hs
  · exact safe_execShlB32Imm hs
  · exact safe_execShrZ32Imm hs
  · exact safe_execShrS32Imm hs
  · exact safe_execMinS32Imm hs
  · exact safe_execMaxS32Imm hs
  · exact safe_execMovB32Imm hs
  · exact safe_execAdr hs
  · exact safe_execIsetEqB32Imm hs
  · exact safe_execIsetNeB32Imm hs
  · exact safe_execIsetLtS32Imm hs
  · exact safe_execIsetLeS32Imm hs
  · exact safe_execIsetGtS32Imm hs
  · exact safe_execIsetGeS32Imm hs
  · exact safe_execIsetLtZ32Imm hs
  · exact safe_execIsetLeZ32Imm hs
  · exact safe_execIsetGtZ32Imm hs
  · exact safe_execIsetGeZ32Imm hs
  · exact safe_execLdS8 hs
  · exact safe_execLdZ8 hs
  · exact safe_execLdS16 hs
  · exact safe_execLdZ16 hs
  · exact safe_execLdB32 hs
  · exact safe_execLdB64 hs
  · exact safe_execLdB128 hs
  · exact safe_execStB8 hs
  · exact safe_execStB16 hs
  · exact safe_execStB32 hs
  · exact safe_execStB64 hs
  · exact safe_execStB128 hs
  · exact safe_execLdsB32 hs
  · exact safe_execLdsB64 hs
  · exact safe_execLdsB128 hs
  · exact safe_execStsB32 hs
  · exact safe_execStsB64 hs
  · exact safe_execStsB128 hs
  · exact safe_execLdrB32 hs
  · exact safe_execLdrB64 hs
  · exact safe_execStrB32 hs
  · exact safe_execStrB64 hs
  · exact safe_execLdhB32 hs
  · exact safe_execLdhB64 hs
  · exact safe_execSthB32 hs
  · exact safe_execSthB64 hs
  · exact safe_execGatherB32 hs
  · exact safe_execXfer hs
  · exact safe_execColl hs
  · exact safe_execLaunch hs
  · exact safe_execGroveRow hs
  · exact safe_execBra hs
  · exact safe_execBrz hs
  · exact safe_execBrnz hs
  · exact safe_execCall hs
  · exact safe_execRet hs
  · exact safe_execEndThread hs
  · exact safe_execTrap hs
  · exact safe_execSyscall hs
  · exact safe_execBrk hs
  · exact safe_execConst hs
  · exact safe_execConsthi hs
  · exact safe_execBundleTurn hs
  · exact safe_execBundleAccept hs
  · exact safe_execResultDeliver hs
  · exact safe_execWorkgroupFinish hs
  · exact safe_execClusterPlace hs
  · exact safe_execLaneFrameMove hs
  · exact safe_execScratchFrameEmpty hs
  · exact safe_execWorkgroupStart hs
  · exact safe_execTranslationWalk hs
  · exact safe_execTranslationExpiry hs
  · exact safe_execFrameAccess hs
  · exact safe_execHomeSliceAccess hs
  · exact safe_execFrameRemap hs
  · exact safe_execPlacementDone hs
  · exact safe_execInvalidation hs
  · exact safe_execInvalidationAck hs
  · exact safe_execInvalidationResend hs
  · exact safe_execWriteQueueDepart hs
  · exact safe_execHbmWriteCharge hs
  · exact safe_execWriteLaneDone hs
  · exact safe_execWindowBoundary hs
  · exact safe_execCodeSwitchBoundary hs
  · exact safe_execJbudWrite hs
  · exact safe_execHcfgWrite hs
  · exact safe_execPoolSlotTake hs
  · exact safe_execCapReadReturn hs
  · exact safe_execCapReadTimeout hs
  · exact safe_execMigrationComplete hs
  · exact safe_execMigrationDeadline hs
  · exact safe_execDirectReadReturn hs
  · exact safe_execLoadReturn hs
  · exact safe_execAtomicPerform hs
  · exact safe_execAtomicReply hs
  · exact safe_execAtomicTimeout hs
  · exact safe_execMonitorRecheck hs
  · exact safe_execMonitorStorageError hs
  · exact safe_execFenceComplete hs
  · exact safe_execPageAttrPage hs
  · exact safe_execAtsTranslationCompletion hs
  · exact safe_execAtsTimeout hs
  · exact safe_execPageRequestGroupResponse hs
  · exact safe_execAtsInvalidationRequest hs
  · exact safe_execInvalidationCompletion hs
  · exact safe_execHostReadTimeout hs
  · exact safe_execEngineEntryStart hs
  · exact safe_execEngineEntryFinish hs
  · exact safe_execGroveLaneDone hs
  · exact safe_execXferPartApplied hs
  · exact safe_execCollChunkDone hs
  · exact safe_execLaunchRecordCopy hs
  · exact safe_execCallRingPost hs
  · exact safe_execSyscallReturn hs
  · exact safe_execQnotifyWrite hs
  · exact safe_execQueueEntryFetch hs
  · exact safe_execQueueEntryRefetch hs
  · exact safe_execQerrWrite hs
  · exact safe_execSliceExpiry hs
  · exact safe_execSliceIdleEnd hs
  · exact safe_execMcallqRead hs
  · exact safe_execMmsgaRead hs
  · exact safe_execMntpendWrite hs
  · exact safe_execNotifyWrite hs
  · exact safe_execWindowRegisterWrite hs
  · exact safe_execWindowEnd hs
  · exact safe_execWindowUnpark hs
  · exact safe_execMastLoadStore hs
  · exact safe_execMastAmo hs
  · exact safe_execMastLr hs
  · exact safe_execMastSc hs
  · exact safe_execMastFence hs
  · exact safe_execHostMemRead hs
  · exact safe_execHostMemWrite hs
  · exact safe_execBackInvalidateResponse hs
  · exact safe_execCxlCacheSnoop hs
  · exact safe_execReadCapabilityWord hs
  · exact safe_execSetCtxtab hs
  · exact safe_execWriteQuantumEntry hs
  · exact safe_execWriteFabricGroup hs
  · exact safe_execWriteHostKeyTable hs
  · exact safe_execReadDieState hs
  · exact safe_execReadMeasurement hs
  · exact safe_execWriteBootaddr hs
  · exact safe_execCopyRecords hs
  · exact safe_execReadSealWord hs
  · exact safe_execRearmCapture hs
  · exact safe_execWriteRctl hs
  · exact safe_execReadRctl hs
  · exact safe_execDbgctlWrite hs
  · exact safe_execDbgctlRead hs
  · exact safe_execHaltreq hs
  · exact safe_execUndoLogClear hs
  · exact safe_execStepBack hs
  · exact safe_execHaltStatusRead hs
  · exact safe_execContextResume hs
  · exact safe_execContextEnd hs
  · exact safe_execAbandonBusySequence hs
  · exact safe_execSetMirrorRange hs
  · exact safe_execReadPoisonEntry hs
  · exact safe_execClearPoisonEntry hs
  · exact safe_execWriteKeySlot hs
  · exact safe_execReadRasCounters hs
  · exact safe_execReadLostBlock hs
  · exact safe_execClearLostBlock hs
  · exact safe_execAbandonEngineEntry hs
  · exact safe_execArmGangLaunch hs
  · exact safe_execReadGangStatus hs
  · exact safe_execCopyCapsuleSummary hs
  · exact safe_execCopyCapsuleSlot hs
  · exact safe_execReleaseCapsuleSlot hs
  · exact safe_execWarmResetDie hs
  · exact safe_execReadBootCode hs
  · exact safe_execMailboxUnknownCommand hs
  · exact safe_execRegisterWrite hs
  · exact safe_execPackageReset hs
  · exact safe_execBootBlockFetch hs
  · exact safe_execDieStateChange hs
  · exact safe_execPowerArbiterTick hs
  · exact safe_execThermalCooldown hs
  · exact safe_execPackageOverdraw hs
  · exact safe_execCoolantLoss hs
  · exact safe_execSupplyFault hs
  · exact safe_execStallSample hs
  · exact safe_execTimebaseWrap hs
  · exact safe_execLostRecord hs
  · exact safe_execHaltLineArrive hs
  · exact safe_execCapsuleAssembly hs
  · exact safe_execBusyWatchdogExpiry hs
  · exact safe_execGangWatchdogExpiry hs
  · exact safe_execFlitCrcError hs
  · exact safe_execLinkLaneFailure hs
  · exact safe_execLinkDown hs
  · exact safe_execDieLost hs
  · exact safe_execFabricPortFailure hs
  · exact safe_execCollMemberAbsent hs
  · exact safe_execGangAck hs
  · exact safe_execGangDeadline hs
  · exact safe_execIllegalInstruction hs
  · exact safe_execDemotionComplete hs
  · exact safe_execLinkComesBack hs
  · exact safe_execPortRemovedFromTree hs
  · exact safe_execPowerLoss hs
  · exact safe_execFunctionLevelReset hs

theorem inv_dueAgenda_some {s p i t} (hs : s.Inv) (h : dueAgenda s p = some (i, t)) : t.Inv := by
  obtain ⟨e, -, he⟩ := Option.map_eq_some_iff.mp h
  cases he
  exact inv_upd hs

/-! ## Canonical memory: Words -/

theorem safe_waitWord_some {u g s} (hs : s.Inv) (h : waitWord u = some g) : Safe (g s) := by
  unfold waitWord at h
  split at h
  · cases h
  · split at h
    · split at h
      · cases h
        exact safe_execMonWaitEq hs
      · cases h
        exact safe_execMonWaitNe hs
      · cases h
        exact safe_execMonWaitGez hs
      · cases h
        exact safe_execArriveWait hs
      · cases h
    · cases h

theorem inv_atWord {s c l} (hs : s.Inv) : (atWord s c l).Inv := by
  unfold atWord
  extract_lets src
  have hsrc : src.Inv := inv_modLF hs
  exact inv_upd hsrc

theorem inv_selectWord {s} (hs : s.Inv) : InvOpt (selectWord s) := invOpt_map fun _ => inv_atWord hs

/-! ## Canonical memory: Commands that a Mast has written to the mailbox (R328) -/

theorem safe_mailboxCommand {m code s} (hs : s.Inv) : Safe (mailboxCommand m code s) := by
  unfold mailboxCommand
  extract_lets a n
  split
  · exact safe_execReadCapabilityWord hs
  · exact safe_execSetCtxtab hs
  · exact safe_execWriteQuantumEntry hs
  · exact safe_execWriteFabricGroup hs
  · exact safe_execWriteHostKeyTable hs
  · exact safe_execReadDieState hs
  · exact safe_execReadMeasurement hs
  · exact safe_execWriteBootaddr hs
  · exact safe_execCopyRecords hs
  · exact safe_execReadSealWord hs
  · exact safe_execRearmCapture hs
  · exact safe_ite (safe_execWriteRctl hs) (safe_execReadRctl hs)
  · exact safe_ite (safe_execDbgctlWrite hs) (safe_execDbgctlRead hs)
  · exact safe_execStepBack hs
  · exact safe_ite (safe_execContextEnd hs) (safe_ite (safe_execContextResume hs) (safe_execHaltStatusRead hs))
  · exact safe_execAbandonBusySequence hs
  · exact safe_execSetMirrorRange hs
  · exact safe_ite (safe_execClearPoisonEntry hs) (safe_execReadPoisonEntry hs)
  · exact safe_execWriteKeySlot hs
  · exact safe_execReadRasCounters hs
  · exact safe_ite (safe_execClearLostBlock hs) (safe_execReadLostBlock hs)
  · exact safe_execAbandonEngineEntry hs
  · exact safe_execArmGangLaunch hs
  · exact safe_execReadGangStatus hs
  · exact safe_execCopyCapsuleSummary hs
  · exact safe_execCopyCapsuleSlot hs
  · exact safe_execReleaseCapsuleSlot hs
  · exact safe_execWarmResetDie hs
  · exact safe_execReadBootCode hs
  · exact safe_execMailboxUnknownCommand hs

theorem inv_pendingCommand {s} (hs : s.Inv) : (pendingCommand s).Inv := by
  unfold pendingCommand
  split
  · exact hs
  · refine inv_ite (inv_answerOpen (inv_upd hs)) ?_
    split
    · next t h =>
      have ht : t.Inv := safe_mailboxCommand (inv_upd hs) t h
      exact inv_ite (inv_upd ht) ht
    · exact hs

/-! ## Canonical memory: the events of the part that are due -/

theorem inv_settleOut {s o} (hs : s.Inv) (ho : Safe o) : (settleOut s o).Inv := by
  unfold settleOut
  split
  · exact ho _ rfl
  · exact hs

theorem inv_each {α : Type} {s l} {f : α → State → Outcome} (hs : s.Inv) (hf : ∀ a (t : State), t.Inv → Safe (f a t)) :
    (each s l f).Inv := by
  unfold each
  exact inv_foldl (fun _ _ ht => inv_settleOut ht (hf _ _ ht)) hs

theorem inv_eachCore {α : Type} {s items} {f : ℕ → α → State → Outcome} (hs : s.Inv) (hf : ∀ a a1 (t : State), t.Inv → Safe
    (f a a1 t)) :
    (eachCore s items f).Inv := by
  unfold eachCore
  exact inv_foldl (fun _ _ ht => inv_each ht (fun _ _ ht1 => hf _ _ _ ht1)) hs

theorem inv_sweepClock {s} (hs : s.Inv) : (sweepClock s).Inv := by
  unfold sweepClock
  extract_lets s2 s3 s4 s5 s6
  have hs2 : s2.Inv := inv_settleOut hs (safe_execTimebaseWrap hs)
  have hs3 : s3.Inv := inv_each hs2 (fun _ _ ht => safe_execStallSample ht)
  have hs4 : s4.Inv := inv_each hs3 (fun _ _ ht => safe_execLostRecord ht)
  have hs5 : s5.Inv := inv_each hs4 (fun _ _ ht => safe_execThermalCooldown ht)
  have hs6 : s6.Inv := inv_each hs5 (fun _ _ ht => safe_execPortRemovedFromTree ht)
  exact inv_each hs6 (fun _ _ ht => safe_execSupplyFault ht)

theorem inv_sweepStops {s} (hs : s.Inv) : (sweepStops s).Inv := by
  unfold sweepStops
  extract_lets skid s1 s2
  have hs1 : s1.Inv := by
    unfold s1
    split
    · refine inv_each ?_ ?_
      · exact hs
      · intro a t ht
        exact safe_execHaltLineArrive ht
    · exact hs
  have hs2 : s2.Inv := inv_settleOut hs1 (safe_execCapsuleAssembly hs1)
  exact inv_ite hs2 (inv_each hs2 (fun _ _ ht => safe_execDieLost ht))

theorem inv_sweepBusy {s} (hs : s.Inv) : (sweepBusy s).Inv := by
  unfold sweepBusy
  exact inv_each hs (fun _ _ ht => safe_execBusyWatchdogExpiry ht)

theorem inv_retireBad {s} (hs : s.Inv) : (retireBad s).Inv := by
  unfold retireBad
  exact inv_foldl (fun _ _ ht => inv_retireFrame ht) hs

theorem inv_sweepPlacement {s} (hs : s.Inv) : (sweepPlacement s).Inv := by
  unfold sweepPlacement
  extract_lets s0 s1 inv s2 s3 lanes s4 s5
  have hs0 : s0.Inv := inv_each hs (fun _ _ ht => safe_execFrameRemap ht)
  have hs1 : s1.Inv := inv_retireBad (inv_each hs0 (fun _ _ ht => safe_execPlacementDone ht))
  have hs2 : s2.Inv := inv_each (inv_each (inv_each hs1 (fun _ _ ht => safe_execInvalidation ht))
      (fun _ _ ht => safe_execInvalidationAck ht)) (fun _ _ ht => safe_execInvalidationResend ht)
  have hs3 : s3.Inv := by
    unfold s3
    refine inv_eachCore ?_ ?_
    · exact hs2
    · intro a a' t ht
      exact safe_execTranslationExpiry ht
  have hs4 : s4.Inv := inv_each hs3 (fun _ _ ht => safe_execHbmWriteCharge ht)
  have hs5 : s5.Inv := by
    unfold s5
    refine inv_each ?_ ?_
    · exact hs4
    · intro a t ht
      exact safe_execWriteLaneDone ht
  exact inv_each hs5 (fun _ _ ht => safe_execMonitorRecheck ht)

theorem inv_sweepMigration {s} (hs : s.Inv) : (sweepMigration s).Inv := by
  unfold sweepMigration
  extract_lets ids s1 s2 s3 s4 s5 s6
  have hs1 : s1.Inv := inv_each (inv_depMigrations hs) (fun _ _ ht => safe_execPoolSlotTake ht)
  have hs2 : s2.Inv := by
    unfold s2
    refine inv_each ?_ ?_
    · exact hs1
    · intro a t ht
      exact safe_execCapReadReturn ht
  have hs3 : s3.Inv := inv_each hs2 (fun _ _ ht => safe_execMigrationComplete ht)
  have hs4 : s4.Inv := inv_each hs3 (fun _ _ ht => safe_execPageAttrPage ht)
  have hs5 : s5.Inv := inv_each hs4 (fun _ _ ht => safe_execDemotionComplete ht)
  have hs6 : s6.Inv := inv_eachCore hs5 (fun _ _ _ ht => safe_execMigrationDeadline ht)
  refine inv_eachCore ?_ ?_
  · exact hs6
  · intro a a' t ht
    exact safe_execDirectReadReturn ht

theorem safe_homeAccess {c i s} (hs : s.Inv) : Safe (homeAccess c i s) := by
  unfold homeAccess
  extract_lets s1 s2
  have hs1 : s1.Inv := inv_settleOut hs (safe_execFrameAccess hs)
  have hs2 : s2.Inv := inv_settleOut hs1 (safe_execHomeSliceAccess hs1)
  exact safe_next (inv_settleOut hs2 (safe_execAtomicPerform hs2))

theorem inv_requestFill {s c i} (hs : s.Inv) : (requestFill s c i).Inv := by
  unfold requestFill
  split
  · exact hs
  · split
    · refine inv_ite ?_ hs
      split
      · exact inv_fillFor hs
      · exact hs
    · exact hs

theorem inv_fillPass {s c} (hs : s.Inv) : (fillPass s c).Inv := by
  unfold fillPass
  exact inv_foldl (fun _ _ ht => inv_foldl (fun _ _ ht1 => inv_requestFill ht1) (inv_foldl (fun _ _ ht1 => inv_ite
      (inv_takeFill ht1) ht1) ht)) hs

theorem inv_waitWords {s c} (hs : s.Inv) : (waitWords s c).Inv := by
  refine inv_foldl ?_ hs
  intro t l ht
  split
  · exact ht
  · split
    · exact ht
    · refine inv_ite ht ?_
      split
      · exact ht
      · exact inv_upd (inv_settleOut ht (safe_waitWord_some (inv_atWord ht) ‹_›))

theorem inv_mastTurn {s c} (hs : s.Inv) : (mastTurn s c).Inv := by
  unfold mastTurn
  exact inv_ite (inv_each hs (fun _ _ ht => safe_execMastLoadStore ht)) hs

theorem inv_engineTurn {s c} (hs : s.Inv) : (engineTurn s c).Inv := by
  unfold engineTurn
  extract_lets s1 s2 s3 s4 s5
  have hs1 : s1.Inv := inv_each hs (fun _ _ ht => safe_execEngineEntryStart ht)
  have hs2 : s2.Inv := inv_each hs1 (fun _ _ ht => safe_execGroveLaneDone ht)
  have hs3 : s3.Inv := inv_each hs2 (fun _ _ ht => safe_execXferPartApplied ht)
  have hs4 : s4.Inv := inv_each hs3 (fun _ _ ht => safe_execCollChunkDone ht)
  have hs5 : s5.Inv := inv_each hs4 (fun _ _ ht => safe_execLaunchRecordCopy ht)
  exact inv_each hs5 (fun _ _ ht => safe_execEngineEntryFinish ht)

theorem inv_coreTurn {s c} (hs : s.Inv) : (coreTurn s c).Inv := by
  unfold coreTurn
  extract_lets s1 s2 s3 s4 s5
  have hs1 : s1.Inv := inv_faultUnit hs
  have hs2 : s2.Inv := inv_each hs1 (fun _ _ ht => safe_execWriteQueueDepart ht)
  have hs3 : s3.Inv := inv_each hs2 (fun _ _ ht => safe_execTranslationWalk ht)
  have hs4 : s4.Inv := inv_fillPass hs3
  have hs5 : s5.Inv := inv_each hs4 (fun _ _ ht => safe_homeAccess ht)
  exact inv_engineTurn (inv_mastTurn (inv_waitWords hs5))

theorem inv_serveHosts {s} (hs : s.Inv) : (serveHosts s).Inv := by
  unfold serveHosts
  extract_lets link
  exact inv_each (inv_upd hs) (fun _ _ ht => safe_serveHost ht)

theorem inv_sweepFabric {s} (hs : s.Inv) : (sweepFabric s).Inv := by
  unfold sweepFabric
  refine inv_ite ?_ hs
  extract_lets s1 s2
  have hs1 : s1.Inv := inv_settleOut hs (safe_execWorkgroupFinish hs)
  have hs2 : s2.Inv := inv_serveHosts (inv_foldl (fun _ _ ht => inv_coreTurn ht) hs1)
  exact inv_each hs2 (fun _ _ ht => safe_execWorkgroupFinish ht)

theorem inv_sweepReturns {s} (hs : s.Inv) : (sweepReturns s).Inv := by
  unfold sweepReturns
  extract_lets s5 s6 s7 s8 s9 s10 s11
  have hs5 : s5.Inv := inv_eachCore hs (fun _ _ _ ht => safe_execAtomicReply ht)
  have hs6 : s6.Inv := inv_eachCore hs5 (fun _ _ _ ht => safe_execLoadReturn ht)
  have hs7 : s7.Inv := by
    unfold s7
    refine inv_each ?_ ?_
    · exact hs6
    · intro a t ht
      exact safe_execLoadReturn ht
  have hs8 : s8.Inv := inv_eachCore hs7 (fun _ _ _ ht => safe_execAtomicTimeout ht)
  have hs9 : s9.Inv := by
    unfold s9
    refine inv_eachCore ?_ ?_
    · exact hs8
    · intro a a' t ht
      exact safe_execHostReadTimeout ht
  have hs10 : s10.Inv := inv_eachCore hs9 (fun _ _ _ ht => safe_execAtsTimeout ht)
  have hs11 : s11.Inv := inv_each hs10 (fun _ _ ht => safe_execInvalidationCompletion ht)
  exact inv_eachCore hs11 (fun _ _ _ ht => safe_execFenceComplete ht)

theorem inv_sweepScheduler {s} (hs : s.Inv) : (sweepScheduler s).Inv := by
  unfold sweepScheduler
  extract_lets queues s1 s2 s3 s4
  have hs1 : s1.Inv := inv_each (inv_each (inv_each hs (fun _ _ ht => safe_execQueueEntryFetch ht))
      (fun _ _ ht => safe_execQueueEntryRefetch ht)) (fun _ _ ht => safe_execGangDeadline ht)
  have hs2 : s2.Inv := inv_settleOut hs1 (safe_execClusterPlace hs1)
  have hs3 : s3.Inv := inv_each hs2 (fun _ _ ht => safe_execLaneFrameMove ht)
  have hs4 : s4.Inv := by
    unfold s4
    refine inv_each ?_ ?_
    · exact hs3
    · intro a t ht
      exact safe_execScratchFrameEmpty ht
  exact inv_each hs4 (fun _ _ ht => safe_execWorkgroupStart ht)

theorem inv_sweepBundles {s} (hs : s.Inv) : (sweepBundles s).Inv := by
  unfold sweepBundles
  extract_lets s1 s2 s3 s4
  have hs1 : s1.Inv := inv_eachCore hs (fun _ _ _ ht => safe_execResultDeliver ht)
  have hs2 : s2.Inv := inv_eachCore hs1 (fun _ _ _ ht => safe_execCallRingPost ht)
  have hs3 : s3.Inv := inv_eachCore hs2 (fun _ _ _ ht => safe_execSyscallReturn ht)
  have hs4 : s4.Inv := inv_eachCore hs3 (fun _ _ _ ht => safe_execBundleTurn ht)
  exact inv_eachCore hs4 (fun _ _ _ ht => safe_execBundleAccept ht)

theorem inv_hostMemoryWrites {s} (hs : s.Inv) : (hostMemoryWrites s).Inv :=
  List.foldlRecOn _ _ (motive := fun m => Mem.wf m = true) hs fun _ hm _ _ => Mem.wf_write _ _ hm

theorem inv_dueEvents {s} (hs : s.Inv) : (dueEvents s).Inv := by
  unfold dueEvents
  extract_lets src t
  have hsrc : src.Inv := inv_hardwareErrors (inv_hostMemoryWrites hs)
  have ht : t.Inv := inv_upd hsrc
  refine inv_ite ht ?_
  exact inv_sweepBundles (inv_sweepScheduler (inv_sweepReturns (inv_sweepFabric (inv_pendingCommand (inv_sweepBusy
      (inv_sweepMigration (inv_sweepPlacement (inv_sweepStops (inv_sweepClock ht)))))))))

theorem inv_endCycle {s} (hs : s.Inv) : (endCycle s).Inv := by
  unfold endCycle
  refine inv_ite hs ?_
  extract_lets s1 s2
  have hs1 : s1.Inv := inv_each hs (fun _ _ ht => safe_execGangWatchdogExpiry ht)
  have hs2 : s2.Inv := inv_settleOut hs1 (safe_execSliceExpiry hs1)
  exact inv_settleOut hs2 (safe_execSliceIdleEnd hs2)

/-- What a choice of a step leads to: a state from which an instruction runs, or an outcome. -/
def InvChoice : Choice → Prop
  | .run _ t => t.Inv
  | .out o => Safe o

theorem invChoice_ite {c : Prop} {inst : Decidable c} {a b : Choice} (ha : InvChoice a) (hb : InvChoice b) :
    InvChoice (if c then a else b) := by
  split
  · exact ha
  · exact hb

theorem invChoice_wordChoice {s u} (hs : s.Inv) : InvChoice (wordChoice s u) := by
  unfold wordChoice
  split
  · split
    · exact hs
    · exact safe_execIllegalInstruction hs
  · exact safe_next (inv_trap hs)
  · exact safe_next (inv_parkCap hs)
  · exact safe_next (inv_hold hs)

theorem invChoice_chooseNext {s} (hs : s.Inv) : InvChoice (chooseNext s) := by
  have hend : (endCycle s).Inv := inv_endCycle hs
  have hdue : (dueEvents s).Inv := inv_dueEvents hs
  unfold chooseNext
  split
  next h => exact inv_dueAgenda_some hs h
  next =>
    split
    next => exact invChoice_wordChoice hs
    next =>
      refine invChoice_ite (safe_execWindowBoundary hs) (invChoice_ite (safe_next hdue) ?_)
      split
      next t h => exact safe_next (inv_selectWord hs t h)
      next => exact safe_next (inv_upd hend)

theorem safe_step {s} (hs : s.Inv) : Safe (step s) := by
  have k : InvChoice (chooseNext s) := invChoice_chooseNext hs
  unfold step
  split
  next h =>
    rw [h] at k
    exact safe_exec k
  next h =>
    rw [h] at k
    exact k

/-- Settles O36: each function that a step is made of keeps the canonical form, and so the step does. -/
theorem memoryStaysCanonical : Obligations.MemoryStaysCanonical := by
  intro s t hs h
  exact safe_step hs t h

end Sys2Proof.Proofs

end
